-- ==== Sys2Proof/Word.lean ====
section
/-! DEFINITION. The word types of the Scecia F4 model: what the spec treats as bits. -/

namespace Sys2Proof

/-- A 64-bit scalar register, address or device register word (R62). -/
abbrev Word := BitVec 64

/-- One byte of memory (R4). -/
abbrev Byte := BitVec 8

/-- One 16-bit halfword of an instruction line (R168). -/
abbrev Half := BitVec 16

end Sys2Proof
end

