-- ==== Sys2Proof/Machine/Bits.lean ====
section
/-! DEFINITION. Bit-field, sign-extension, byte-order and association-list helpers that every layer uses. -/

namespace Sys2Proof.Machine

/-- Bits [lo + w − 1 : lo] of `n` as a natural number (R4). -/
def bits (n lo w : Nat) : Nat := n / 2 ^ lo % 2 ^ w

/-- `n` with bits [lo + w − 1 : lo] replaced by the low `w` bits of `v`. -/
def setBits (n lo w v : Nat) : Nat := n % 2 ^ lo + v % 2 ^ w * 2 ^ lo + n / 2 ^ (lo + w) * 2 ^ (lo + w)

/-- Whether bit `i` of `n` is 1. -/
def bit (n i : Nat) : Bool := n / 2 ^ i % 2 == 1

/-- A `w`-bit pattern read as a two's-complement integer (R97). -/
def signed (w n : Nat) : Int :=
  let m := n % 2 ^ w
  if m < 2 ^ (w - 1) then (m : Int) else (m : Int) - (2 ^ w : Nat)

/-- An integer reduced to its `w`-bit pattern (R97: wraps modulo 2^w). -/
def wrap (w : Nat) (i : Int) : Nat := (i % ((2 ^ w : Nat) : Int)).toNat

/-- A 64-bit register value from an integer, wrapped. -/
def word (i : Int) : Word := BitVec.ofNat 64 (wrap 64 i)

/-- The low `w` bits sign-extended to 64 bits. -/
def sext (w n : Nat) : Word := word (signed w n)

/-- The smallest multiple of `b` at or above `a`, divided by `b`. -/
def ceilDiv (a b : Nat) : Nat := (a + b - 1) / b

/-- Little-endian value of a list of bytes (R4). -/
def leNat : List Byte → Nat
  | [] => 0
  | b :: bs => b.toNat + 256 * leNat bs

/-- The `n` little-endian bytes of a value (R4). -/
def leBytes : Nat → Nat → List Byte
  | 0, _ => []
  | n + 1, v => BitVec.ofNat 8 v :: leBytes n (v / 256)

/-- A run of consecutive naturals `a, a+1, …`, `n` of them. -/
def upto (a : Nat) : Nat → List Nat
  | 0 => []
  | n + 1 => a :: upto (a + 1) n

/-- The least element of `xs` that satisfies `p`, in list order. -/
def firstSome {α β : Type} (f : α → Option β) : List α → Option β
  | [] => none
  | x :: xs => match f x with
    | some y => some y
    | none => firstSome f xs

/-- A sparse table: keys strictly rising; an absent key reads as the table's default. -/
abbrev Tbl (α : Type) := List (Nat × α)

/-- The value at key `k`, if listed. -/
def Tbl.find {α : Type} (k : Nat) : Tbl α → Option α
  | [] => none
  | (j, v) :: t => if k = j then some v else if k < j then none else Tbl.find k t

/-- The value at key `k`, or `d`. -/
def Tbl.getD {α : Type} (t : Tbl α) (k : Nat) (d : α) : α := (Tbl.find k t).getD d

/-- Install `v` at key `k`, keeping the keys rising. -/
def Tbl.put {α : Type} (k : Nat) (v : α) : Tbl α → Tbl α
  | [] => [(k, v)]
  | (j, u) :: t => if k < j then (k, v) :: (j, u) :: t else if k = j then (k, v) :: t else (j, u) :: Tbl.put k v t

/-- Remove key `k`. -/
def Tbl.del {α : Type} (k : Nat) : Tbl α → Tbl α
  | [] => []
  | (j, u) :: t => if k < j then (j, u) :: t else if k = j then t else (j, u) :: Tbl.del k t

/-- Keys rise strictly. -/
def Tbl.rising {α : Type} : Tbl α → Bool
  | [] => true
  | [_] => true
  | (j, _) :: (k, v) :: t => decide (j < k) && Tbl.rising ((k, v) :: t)

/-- Write `v` at `k`, dropping the entry when `v` is the default `d`, so that equal contents are equal data. -/
def Tbl.store {α : Type} [DecidableEq α] (d : α) (k : Nat) (v : α) (t : Tbl α) : Tbl α :=
  if v = d then Tbl.del k t else Tbl.put k v t

/-- Integer square root, one binary digit at a time from bit `n` down. -/
def isqrtAux : Nat → Nat → Nat → Nat
  | 0, r, _ => r
  | n + 1, r, x => let c := r + 2 ^ n; if c * c ≤ x then isqrtAux n c x else isqrtAux n r x

/-- floor(√x) for x below 2^(2n). -/
def isqrt (n x : Nat) : Nat := isqrtAux n 0 x

end Sys2Proof.Machine
end

