-- ==== Sys2Proof/Machine/Keccak.lean ====
section
/-! DEFINITION. SHAKE256 (FIPS 202), which R373, R374 and R400 name. -/

namespace Sys2Proof.Machine

/-- A 64-bit lane rotated left. -/
def rotl (x n : Nat) : Nat := (x * 2 ^ n) % 2 ^ 64 + x / 2 ^ (64 - n)

/-- Rotation offsets of ρ, by x + 5y. -/
def rhoOffsets : List Nat :=
  [0, 1, 62, 28, 27, 36, 44, 6, 55, 20, 3, 10, 43, 25, 39, 41, 45, 15, 21, 8, 18, 2, 61, 56, 14]

/-- Round constants of ι. -/
def roundConstants : List Nat :=
  [0x0000000000000001, 0x0000000000008082, 0x800000000000808A, 0x8000000080008000, 0x000000000000808B,
   0x0000000080000001, 0x8000000080008081, 0x8000000000008009, 0x000000000000008A, 0x0000000000000088,
   0x0000000080008009, 0x000000008000000A] ++
  [0x000000008000808B, 0x800000000000008B, 0x8000000000008089, 0x8000000000008003, 0x8000000000008002,
   0x8000000000000080, 0x000000000000800A, 0x800000008000000A, 0x8000000080008081, 0x8000000000008080,
   0x0000000080000001, 0x8000000080008008]

/-- One round on 25 lanes indexed by x + 5y. -/
def keccakRound (a : List Nat) (rc : Nat) : List Nat :=
  let c := (upto 0 5).map (fun x => (upto 0 5).foldl (fun v y => v ^^^ a.getD (x + 5 * y) 0) 0)
  let d := (upto 0 5).map (fun x => c.getD ((x + 4) % 5) 0 ^^^ rotl (c.getD ((x + 1) % 5) 0) 1)
  let t := (upto 0 25).map (fun i => a.getD i 0 ^^^ d.getD (i % 5) 0)
  let b := (upto 0 25).map (fun i =>
    let x := i % 5
    let y := i / 5
    let j := (x + 3 * y) % 5 + 5 * x
    rotl (t.getD j 0) (rhoOffsets.getD j 0))
  (upto 0 25).map (fun i =>
    let x := i % 5
    let y := i / 5
    let v := b.getD i 0 ^^^ ((2 ^ 64 - 1 - b.getD ((x + 1) % 5 + 5 * y) 0) &&& b.getD ((x + 2) % 5 + 5 * y) 0)
    if i = 0 then v ^^^ rc else v)

/-- Keccak-f[1600]. -/
def keccakF (a : List Nat) : List Nat := roundConstants.foldl keccakRound a

/-- Absorb a padded message in blocks of 136 bytes (17 lanes). -/
def absorb : Nat → List Byte → List Nat → List Nat
  | 0, _, a => a
  | n + 1, bs, a =>
    absorb n (bs.drop 136) (keccakF ((upto 0 25).map (fun i => a.getD i 0 ^^^ (if i < 17 then leNat ((bs.drop (8 * i)).take 8) else 0))))

/-- SHAKE256 padding: 0x1F, zeros, and the last bit of the block. -/
def shakePad (bs : List Byte) : List Byte :=
  let r := 136 - bs.length % 136
  bs ++ (if r = 1 then [0x9F] else [0x1F] ++ List.replicate (r - 2) 0 ++ [0x80])

/-- The first `n` bytes, at most 136, of SHAKE256 over a message. -/
def shake256 (n : Nat) (bs : List Byte) : List Byte :=
  let p := shakePad bs
  ((absorb (p.length / 136) p (List.replicate 25 0)).foldr (fun l acc => leBytes 8 l ++ acc) []).take n

end Sys2Proof.Machine
end

