-- ==== Sys2Proof/Machine/Float.lean ====
section
/-! DEFINITION. Floating-point formats and exact arithmetic: values as dyadic numbers, one rounding, the flags each rounding sets. -/

namespace Sys2Proof.Machine

/-- Sticky arithmetic flags, laid out as sr.aflags (R87). -/
abbrev Flags := BitVec 9

def fNX : Flags := 1
def fUF : Flags := 2
def fOF : Flags := 4
def fDZ : Flags := 8
def fNV : Flags := 16
def fAINF : Flags := 32
def fASAT : Flags := 64
def fMROW : Flags := 128
def fNSAT : Flags := 256

/-- The floating-point formats of R94. -/
inductive FT where
  | fp64 | fp32 | bf16 | e4m3 | e5m2
  deriving DecidableEq, Repr

/-- Fraction bits (R94). -/
def FT.frac : FT → Nat
  | .fp64 => 52
  | .fp32 => 23
  | .bf16 => 7
  | .e4m3 => 3
  | .e5m2 => 2
/-- Exponent bits (R94). -/
def FT.ebits : FT → Nat
  | .fp64 => 11
  | .fp32 => 8
  | .bf16 => 8
  | .e4m3 => 4
  | .e5m2 => 5
/-- Exponent bias (R94). -/
def FT.bias : FT → Nat
  | .fp64 => 1023
  | .fp32 => 127
  | .bf16 => 127
  | .e4m3 => 7
  | .e5m2 => 15
/-- Width in bits. -/
def FT.width (t : FT) : Nat := 1 + t.ebits + t.frac
/-- Exponent of the smallest normal value. -/
def FT.emin (t : FT) : Int := 1 - (t.bias : Int)
/-- Exponent of the least step: that of the smallest subnormal. -/
def FT.quantum (t : FT) : Int := t.emin - (t.frac : Int)
/-- The largest finite magnitude as mantissa and exponent (R94). -/
def FT.maxMant (t : FT) : Nat := match t with
  | .e4m3 => 14
  | _ => 2 ^ (t.frac + 1) - 1
/-- Exponent that goes with `maxMant`. -/
def FT.maxExp (t : FT) : Int := match t with
  | .e4m3 => 5
  | _ => (t.bias : Int) - (t.frac : Int)
/-- The canonical quiet NaN of a format (R95). -/
def FT.nan : FT → Nat
  | .fp64 => 0x7FF8000000000000
  | .fp32 => 0x7FC00000
  | .bf16 => 0x7FC0
  | .e4m3 => 0x7F
  | .e5m2 => 0x7E
/-- The sign bit's weight. -/
def FT.signBit (t : FT) : Nat := 2 ^ (t.ebits + t.frac)
/-- The infinity of a sign; E4M3 has none and the pattern is not used for it. -/
def FT.inf (t : FT) (neg : Bool) : Nat := (if neg then t.signBit else 0) + (2 ^ t.ebits - 1) * 2 ^ t.frac
/-- The largest finite value of a sign. -/
def FT.maxFin (t : FT) (neg : Bool) : Nat :=
  (if neg then t.signBit else 0) + (match t with
    | .e4m3 => 0x7E
    | _ => (2 ^ t.ebits - 1) * 2 ^ t.frac - 1)
/-- The zero of a sign. -/
def FT.zero (t : FT) (neg : Bool) : Nat := if neg then t.signBit else 0

/-- A floating-point datum: NaN (signalling or quiet), infinity, or the exact value (−1)^neg × m × 2^e. -/
inductive FV where
  | nan (signalling : Bool)
  | inf (neg : Bool)
  | fin (neg : Bool) (m : Nat) (e : Int)
  deriving DecidableEq, Repr

/-- The datum that a bit pattern encodes (R94, R95). -/
def unpack (t : FT) (n : Nat) : FV :=
  let f := n % 2 ^ t.frac
  let x := n / 2 ^ t.frac % 2 ^ t.ebits
  let neg := n / t.signBit % 2 == 1
  match t with
  | .e4m3 =>
    if x = 15 ∧ f = 7 then .nan false
    else if x = 0 then .fin neg f t.quantum else .fin neg (f + 8) ((x : Int) - 1 + t.quantum)
  | _ =>
    if x = 2 ^ t.ebits - 1 then
      if f = 0 then .inf neg else .nan (t != .e5m2 && decide (f < 2 ^ (t.frac - 1)))
    else if x = 0 then .fin neg f t.quantum
    else .fin neg (f + 2 ^ t.frac) ((x : Int) - 1 + t.quantum)

/-- Number of significant bits. -/
def bitLen (m : Nat) : Nat := if m = 0 then 0 else Nat.log2 m + 1

/-- m × 2^e as a natural number when e ≥ 0. -/
def scaleUp (m : Nat) (e : Int) : Nat := m * 2 ^ e.toNat

/-- The bit pattern of (−1)^neg × m × 2^e, a value that the format holds exactly. -/
def pack (t : FT) (neg : Bool) (m : Nat) (e : Int) : Nat :=
  let s := if neg then t.signBit else 0
  if m = 0 then s
  else
    let top := (bitLen m : Int) - 1 + e
    if top < t.emin then s + scaleUp m (e - t.quantum)
    else
      let q := top - (t.frac : Int)
      let k := if q ≤ e then scaleUp m (e - q) else m / 2 ^ (q - e).toNat
      s + (top + t.bias).toNat * 2 ^ t.frac + (k - 2 ^ t.frac)

/-- Rounding modes by RM code (R98): RNE, RTZ, RDN, RUP. Whether the kept magnitude is raised by one step, from the
lowest kept bit, the discarded part against one half, and the sign. -/
def roundsUp (rm : Nat) (neg odd : Bool) (rest half : Nat) (sticky : Bool) : Bool :=
  let some_ := decide (0 < rest) || sticky
  match rm with
  | 0 => decide (half < rest) || (decide (half = rest) && (sticky || odd))
  | 1 => false
  | 2 => neg && some_
  | _ => !neg && some_

/-- (m + δ) × 2^e with 0 ≤ δ < 1, δ > 0 exactly when `sticky`, rounded to a multiple of 2^q: the multiple and whether it is inexact. -/
def roundAt (rm : Nat) (neg : Bool) (m : Nat) (e q : Int) (sticky : Bool) : Nat × Bool :=
  if q ≤ e then (scaleUp m (e - q), sticky)
  else
    let sh := (q - e).toNat
    let k := m / 2 ^ sh
    let rest := m % 2 ^ sh
    let up := roundsUp rm neg (k % 2 == 1) rest (2 ^ (sh - 1)) sticky
    (if up then k + 1 else k, decide (0 < rest) || sticky)

/-- A rounded magnitude: m × 2^e before the format's upper bound is applied, and what the rounding did. -/
structure Rounded where
  m : Nat
  e : Int
  inexact : Bool
  tiny : Bool
  deriving DecidableEq, Repr

/-- Round to a format's precision with an unbounded exponent range above; tininess is detected after rounding (R96). -/
def roundMag (t : FT) (rm : Nat) (neg : Bool) (m : Nat) (e : Int) (sticky : Bool) : Rounded :=
  let top := (bitLen m : Int) - 1 + e
  let q := if top - (t.frac : Int) < t.quantum then t.quantum else top - (t.frac : Int)
  let r := roundAt rm neg m e q sticky
  let u := roundAt rm neg m e (top - (t.frac : Int)) sticky
  ⟨r.1, q, r.2, decide (top < t.emin) && !(decide (top + 1 = t.emin) && decide (u.1 = 2 ^ (t.frac + 1)))⟩

/-- Whether a rounded magnitude exceeds the format's largest finite value. -/
def Rounded.big (r : Rounded) (t : FT) : Bool :=
  if r.e ≤ t.maxExp then decide (t.maxMant * 2 ^ (t.maxExp - r.e).toNat < r.m)
  else decide (t.maxMant < r.m * 2 ^ (r.e - t.maxExp).toNat)

/-- RoundX of a non-zero exact value, with the IEEE 754-2019 overflow rule and flags (R109). -/
def roundFin (t : FT) (rm : Nat) (neg : Bool) (m : Nat) (e : Int) (sticky : Bool) : Nat × Flags :=
  let r := roundMag t rm neg m e sticky
  if r.big t then
    let toInf := match rm with
      | 0 => true
      | 1 => false
      | 2 => neg
      | _ => !neg
    (if toInf then t.inf neg else t.maxFin neg, fOF ||| fNX)
  else (pack t neg r.m r.e, (if r.inexact then fNX else 0) ||| (if r.inexact && r.tiny then fUF else 0))

/-- RoundX of an exact value m × 2^e, zero keeping the sign given (R109). -/
def roundVal (t : FT) (rm : Nat) (neg : Bool) (m : Nat) (e : Int) : Nat × Flags :=
  if m = 0 then (t.zero neg, 0) else roundFin t rm neg m e false

/-- RoundX of a datum: NaN and infinity pass through (R109). -/
def roundFV (t : FT) (rm : Nat) : FV → Nat × Flags
  | .nan s => (t.nan, if s then fNV else 0)
  | .inf neg => (t.inf neg, 0)
  | .fin neg m e => roundVal t rm neg m e

/-- The sign of an exact sum that is zero: −0 when every addend is −0, or under RDN (R113, log 12). -/
def zeroSign (rm : Nat) (negs : List Bool) : Bool := negs.all id || rm == 2

/-- An exact dyadic value as a signed integer multiple of 2^e. -/
def atExp (neg : Bool) (m : Nat) (e q : Int) : Int := (if neg then -1 else 1) * ((m * 2 ^ (e - q).toNat : Nat) : Int)

/-- RoundX of the exact sum of finite values given as sign, mantissa and exponent, with one rounding (R113). -/
def roundSum (t : FT) (rm : Nat) (xs : List (Bool × Nat × Int)) : Nat × Flags :=
  let q := xs.foldl (fun acc x => if x.2.2 < acc then x.2.2 else acc) 0
  let s := xs.foldl (fun acc x => acc + atExp x.1 x.2.1 x.2.2 q) 0
  if s = 0 then (t.zero (zeroSign rm (xs.map (·.1))), 0) else roundFin t rm (decide (s < 0)) s.natAbs q false

/-- NV when a datum is a signalling NaN. -/
def FV.nv : FV → Flags
  | .nan true => fNV
  | _ => 0

def FV.isNan : FV → Bool
  | .nan _ => true
  | _ => false

def FV.isInf : FV → Bool
  | .inf _ => true
  | _ => false

def FV.isZero : FV → Bool
  | .fin _ m _ => m == 0
  | _ => false

def FV.neg : FV → Bool
  | .nan _ => false
  | .inf n => n
  | .fin n _ _ => n

/-- The datum with its sign inverted; a NaN is unchanged. -/
def FV.flip : FV → FV
  | .nan s => .nan s
  | .inf n => .inf !n
  | .fin n m e => .fin (!n) m e

/-- The exact product of two data; 0 × ∞ is a NaN that sets NV (R112). -/
def FV.mul : FV → FV → FV
  | .nan _, _ => .nan false
  | _, .nan _ => .nan false
  | .inf a, .inf b => .inf (a != b)
  | .inf a, .fin b m _ => if m = 0 then .nan false else .inf (a != b)
  | .fin a m _, .inf b => if m = 0 then .nan false else .inf (a != b)
  | .fin a m e, .fin b n f => .fin (a != b) (m * n) (e + f)

/-- Whether a product is 0 × ∞ (R112). -/
def zeroTimesInf (a b : FV) : Bool := (a.isZero && b.isInf) || (a.isInf && b.isZero)

/-- a + b over data, one rounding (R112, R113). -/
def addFV (t : FT) (rm : Nat) (a b : FV) : Nat × Flags :=
  match a, b with
  | .nan _, _ => (t.nan, a.nv ||| b.nv)
  | _, .nan _ => (t.nan, a.nv ||| b.nv)
  | .inf x, .inf y => if x = y then (t.inf x, 0) else (t.nan, fNV)
  | .inf x, .fin _ _ _ => (t.inf x, 0)
  | .fin _ _ _, .inf y => (t.inf y, 0)
  | .fin x m e, .fin y n f => roundSum t rm [(x, m, e), (y, n, f)]

/-- a × b over data, one rounding (R112). -/
def mulFV (t : FT) (rm : Nat) (a b : FV) : Nat × Flags :=
  if a.isNan || b.isNan then (t.nan, a.nv ||| b.nv)
  else if zeroTimesInf a b then (t.nan, fNV)
  else roundFV t rm (a.mul b)

/-- a × b + c over data, one rounding (R112). -/
def fmaFV (t : FT) (rm : Nat) (a b c : FV) : Nat × Flags :=
  if a.isNan || b.isNan || c.isNan then
    (t.nan, a.nv ||| b.nv ||| c.nv ||| (if zeroTimesInf a b then fNV else 0))
  else if zeroTimesInf a b then (t.nan, fNV)
  else addFV t rm (a.mul b) c

/-- a / b over data, one rounding (R112). -/
def divFV (t : FT) (rm : Nat) (a b : FV) : Nat × Flags :=
  match a, b with
  | .nan _, _ => (t.nan, a.nv ||| b.nv)
  | _, .nan _ => (t.nan, a.nv ||| b.nv)
  | .inf _, .inf _ => (t.nan, fNV)
  | .inf x, .fin y _ _ => (t.inf (x != y), 0)
  | .fin x _ _, .inf y => (t.zero (x != y), 0)
  | .fin x m e, .fin y n f =>
    if n = 0 then (if m = 0 then (t.nan, fNV) else (t.inf (x != y), fDZ))
    else if m = 0 then (t.zero (x != y), 0)
    else
      let k := t.frac + 5 + bitLen n - bitLen m
      let w := m * 2 ^ k
      roundFin t rm (x != y) (w / n) (e - f - k) (decide (w % n ≠ 0))

/-- √a over data, one rounding (R112). -/
def sqrtFV (t : FT) (rm : Nat) : FV → Nat × Flags
  | .nan s => (t.nan, if s then fNV else 0)
  | .inf true => (t.nan, fNV)
  | .inf false => (t.inf false, 0)
  | .fin neg m e =>
    if m = 0 then (t.zero neg, 0)
    else if neg then (t.nan, fNV)
    else
      let o := (e % 2).toNat
      let k := t.frac + 5
      let w := m * 2 ^ (o + 2 * k)
      let r := isqrt (bitLen w / 2 + 1) w
      roundFin t rm false r ((e - o) / 2 - k) (decide (r * r ≠ w))

/-- 1 / √a over data, one rounding (R232). -/
def rsqrtFV (t : FT) (rm : Nat) : FV → Nat × Flags
  | .nan s => (t.nan, if s then fNV else 0)
  | .inf true => (t.nan, fNV)
  | .inf false => (t.zero false, 0)
  | .fin neg m e =>
    if m = 0 then (t.inf neg, fDZ)
    else if neg then (t.nan, fNV)
    else
      let o := (e % 2).toNat
      let n := m * 2 ^ o
      let k := t.frac + 6 + bitLen n / 2
      let w := 2 ^ (2 * k) / n
      let r := isqrt (bitLen w / 2 + 1) w
      roundFin t rm false r (-(k : Int) - (e - o) / 2) (decide (r * r * n ≠ 2 ^ (2 * k)))

/-- Exact comparison of two data that are not NaN: a < b. -/
def ltFV : FV → FV → Bool
  | .nan _, _ => false
  | _, .nan _ => false
  | .inf x, .inf y => x && !y
  | .inf x, .fin _ _ _ => x
  | .fin _ _ _, .inf y => !y
  | .fin x m e, .fin y n f =>
    let q := if e < f then e else f
    decide (atExp x m e q < atExp y n f q)

/-- Exact equality of two data that are not NaN; −0 = +0. -/
def eqFV (a b : FV) : Bool := !a.isNan && !b.isNan && !ltFV a b && !ltFV b a

/-- The min (or, with `mx`, the max) rows of R112 on bit patterns of one format. -/
def minMax (t : FT) (mx : Bool) (a b : Nat) : Nat × Flags :=
  let x := unpack t a
  let y := unpack t b
  let fl := x.nv ||| y.nv
  match x.isNan, y.isNan with
  | true, true => (t.nan, fl)
  | true, false => (b, fl)
  | false, true => (a, fl)
  | false, false =>
    if x.isZero && y.isZero then (t.zero (if mx then x.neg && y.neg else x.neg || y.neg), fl)
    else if (if mx then ltFV x y else ltFV y x) then (b, fl) else (a, fl)

/-- a with its sign bit cleared or inverted; a NaN gives the canonical NaN (R232). -/
def absNeg (t : FT) (inv : Bool) (a : Nat) : Nat × Flags :=
  match unpack t a with
  | .nan s => (t.nan, if s then fNV else 0)
  | _ =>
    let m := a % t.signBit
    (if inv && a / t.signBit % 2 == 0 then m + t.signBit else m, 0)

/-- The class word of R201. -/
def classWord (t : FT) (a : Nat) : Nat :=
  match unpack t a with
  | .nan true => 2 ^ 8
  | .nan false => 2 ^ 9
  | .inf true => 1
  | .inf false => 2 ^ 7
  | .fin neg m e =>
    if m = 0 then (if neg then 2 ^ 3 else 2 ^ 4)
    else if (bitLen m : Int) - 1 + e < t.emin then (if neg then 2 ^ 2 else 2 ^ 5)
    else (if neg then 2 else 2 ^ 6)

/-- (−1)^neg × m × 2^e rounded to an integer under RM, and whether it is inexact (R200). -/
def roundInt (rm : Nat) (neg : Bool) (m : Nat) (e : Int) : Int × Bool :=
  let r := roundAt rm neg m e 0 false
  ((if neg then -1 else 1) * (r.1 : Int), r.2)

/-- Float to integer of `w` bits, signed or unsigned (R200): NaN gives 0 with NV, out of range saturates with NV. -/
def toInt (w : Nat) (sg : Bool) (rm : Nat) : FV → Int × Flags
  | .nan _ => (0, fNV)
  | .inf neg =>
    (if neg then (if sg then -((2 ^ (w - 1) : Nat) : Int) else 0)
     else ((if sg then 2 ^ (w - 1) - 1 else 2 ^ w - 1 : Nat) : Int), fNV)
  | .fin neg m e =>
    let k := roundInt rm neg m e
    let lo : Int := if sg then -((2 ^ (w - 1) : Nat) : Int) else 0
    let hi : Int := ((if sg then 2 ^ (w - 1) - 1 else 2 ^ w - 1 : Nat) : Int)
    if k.1 < lo then (lo, fNV) else if hi < k.1 then (hi, fNV) else (k.1, if k.2 then fNX else 0)

/-- Integer to float, one rounding (R200). -/
def ofInt (t : FT) (rm : Nat) (i : Int) : Nat × Flags :=
  if i = 0 then (0, 0) else roundFin t rm (decide (i < 0)) i.natAbs 0 false

/-- Exp2K of an FP32 pattern (R110): value and flags. An exponent beyond ±2,000 rounds as ±2,000 does. -/
def exp2K (x : Nat) : Nat × Flags :=
  match unpack .fp32 x with
  | .nan s => (FT.fp32.nan, if s then fNV else 0)
  | .inf false => (FT.fp32.inf false, 0)
  | .inf true => (0, 0)
  | .fin neg m e =>
    let i := (roundInt 2 neg m e).1
    let q := if e < 0 then e else 0
    let d := atExp neg m e q - i * ((2 ^ (-q).toNat : Nat) : Int)
    let f := (roundVal .fp32 0 (decide (d < 0)) d.natAbs q).1
    let fma := fun a b c => (fmaFV .fp32 0 (unpack .fp32 a) (unpack .fp32 b) (unpack .fp32 c)).1
    let t := fma (fma (fma 0x3DA00000 f 0x3E680000) f 0x3F320000) f 0x3F800000
    match unpack .fp32 t with
    | .fin _ tm te =>
      let r := roundFin .fp32 0 false tm (te + (if i < -2000 then -2000 else if 2000 < i then 2000 else i)) false
      let sub := r.1 < 2 ^ 23
      (r.1, (r.2 &&& fOF) ||| (if sub then fUF else 0))
    | _ => (t, 0)

/-- Log2K of an FP32 pattern (R111): value and flags. -/
def log2K (x : Nat) : Nat × Flags :=
  match unpack .fp32 x with
  | .nan s => (FT.fp32.nan, if s then fNV else 0)
  | .inf true => (FT.fp32.nan, fNV)
  | .inf false => (FT.fp32.inf false, 0)
  | .fin neg m e =>
    if m = 0 then (FT.fp32.inf true, fDZ)
    else if neg then (FT.fp32.nan, fNV)
    else
      let n := bitLen m - 1
      let ex := (n : Int) + e
      let z := (roundVal .fp32 0 false (m - 2 ^ n) (-(n : Int))).1
      let fma := fun a b c => (fmaFV .fp32 0 (unpack .fp32 a) (unpack .fp32 b) (unpack .fp32 c)).1
      let t := fma (fma 0x3E280000 z 0xBF150000) z 0x3FB58000
      let t := (mulFV .fp32 0 (unpack .fp32 t) (unpack .fp32 z)).1
      ((addFV .fp32 0 (.fin (decide (ex < 0)) ex.natAbs 0) (unpack .fp32 t)).1, 0)

/-- One accumulation of R118: acc plus the exact sum of products, one rounding; `sat` is the BF16 accumulate mode, which
saturates finite overflow with ASAT, and otherwise overflow gives ±∞ with AINF. Only NV, AINF and ASAT are set (R119). -/
def accumulate (t : FT) (sat : Bool) (acc : Nat) (prods : List (FV × FV)) : Nat × Flags :=
  let a := unpack t acc
  if a.isNan then (t.nan, 0)
  else if prods.any (fun p => p.1.isNan || p.2.isNan || zeroTimesInf p.1 p.2) then (t.nan, fNV)
  else
    let ps := prods.map (fun p => p.1.mul p.2)
    let infs := (a :: ps).filter FV.isInf
    match infs with
    | i :: rest => if rest.all (fun j => j.neg == i.neg) then (t.inf i.neg, 0) else (t.nan, fNV)
    | [] =>
      let xs := (a :: ps).map (fun v => match v with
        | .fin n m e => (n, m, e)
        | _ => (false, 0, 0))
      let r := roundSum t 0 xs
      if r.2 &&& fOF = 0 then (r.1, 0)
      else
        let neg := r.1 / t.signBit % 2 == 1
        if sat then (t.maxFin neg, fASAT) else (r.1, fAINF)

/-- The arithmetic flags IEEE 754-2019 names: NV, DZ, OF, UF, NX. -/
def ieeeFlags : Flags := 31

end Sys2Proof.Machine
end

