-- ==== Sys2Proof/Syntax.lean ====
section
/-! DEFINITION. The instructions and device events of spec/opcode_table.json: one constructor for each row. -/

namespace Sys2Proof

/-- A 10-bit source field: kind tag and value (R174). -/
structure S10 where
  tag : BitVec 2
  val : BitVec 8
  deriving DecidableEq, Repr

/-- A mask field: MODE and Q (R177). -/
structure Mk where
  mode : BitVec 2
  q : BitVec 3
  deriving DecidableEq, Repr

/-- The fields of a head without a tail, T0 (R169, R179). -/
structure Head where
  sf : BitVec 4
  deriving DecidableEq, Repr

/-- T16R (R179): one source. -/
structure R1 where
  sf : BitVec 4
  d : BitVec 6
  a : S10
  deriving DecidableEq, Repr

/-- T16Q (R179): masks. -/
structure Q where
  sf : BitVec 4
  d : BitVec 6
  qa : BitVec 3
  qb : BitVec 3
  deriving DecidableEq, Repr

/-- T16J and T32J (R179): a displacement in halfwords, sign-extended here. -/
structure J where
  sf : BitVec 4
  disp : BitVec 32
  deriving DecidableEq, Repr

/-- T32R, or T64L when LIT32 is present (R179): two sources. -/
structure R2 where
  sf : BitVec 4
  d : BitVec 6
  a : S10
  b : S10
  msk : Mk
  lit : Option (BitVec 32)
  deriving DecidableEq, Repr

/-- T32L (R179): one source and IMM16. -/
structure L where
  sf : BitVec 4
  d : BitVec 6
  a : S10
  imm : BitVec 16
  deriving DecidableEq, Repr

/-- T32S (R179): two sources and IMM12. -/
structure S where
  sf : BitVec 4
  a : S10
  b : S10
  imm : BitVec 12
  deriving DecidableEq, Repr

/-- T64R (R179): three sources, RM and IMM21 (STK in bits [20:11] of a far form). -/
structure R3 where
  sf : BitVec 4
  d : BitVec 6
  a : S10
  b : S10
  c : S10
  msk : Mk
  rm : BitVec 2
  imm : BitVec 21
  deriving DecidableEq, Repr

/-- T64M (R179, R180): a memory operand. -/
structure M where
  sf : BitVec 4
  d : BitVec 6
  base : S10
  x : S10
  fmt : BitVec 4
  planes : BitVec 3
  msk : Mk
  rdr : BitVec 4
  off : BitVec 22
  deriving DecidableEq, Repr

/-- A hart of a launch: launch number, domain rank, launch-relative x and y, hart index (R39). -/
structure HartId where
  launch : Nat
  rank : Nat
  x : Nat
  y : Nat
  hidx : Nat
  deriving DecidableEq, Repr

/-- What a scrub or a patrol sweep finds at a codeword or word (R144, R454). -/
inductive Finding where
  | clean
  | corrected
  | uncorrectable (pa : Nat)
  deriving DecidableEq, Repr

/-- A storage word of an on-chip array, by structure code (R454). -/
inductive SramWord where
  | vec (h : HartId) (reg word : Nat)
  | mask (h : HartId) (reg word : Nat)
  | far (key : Nat) (reg word : Nat)
  | scalar (h : HartId) (reg : Nat)
  | acc (h : HartId) (name row : Nat)
  | fetch (core line : Nat)
  | tile (l rank x y t word : Nat)
  | l1 (core loc : Nat)
  | l2 (loc : Nat)
  | msc (loc : Nat)
  deriving DecidableEq, Repr

/-- One constructor per row of spec/opcode_table.json. An instruction carries the fields of its tail format; a
device event carries what the outside world or the device's own choice supplies. -/
inductive Instr where
  /-- NOP (R221). -/
  | nop (p : Head)
  /-- ADD (R192). -/
  | add (p : R2)
  /-- SUB (R192). -/
  | sub (p : R2)
  /-- MUL (R192). -/
  | mul (p : R2)
  /-- MULH (R192). -/
  | mulh (p : R2)
  /-- MULHSU (R192). -/
  | mulhsu (p : R2)
  /-- DIV (R193). -/
  | div (p : R2)
  /-- DIVU (R193). -/
  | divu (p : R2)
  /-- REM (R193). -/
  | rem (p : R2)
  /-- REMU (R193). -/
  | remu (p : R2)
  /-- AND (R192). -/
  | and (p : R2)
  /-- OR (R192). -/
  | or (p : R2)
  /-- XOR (R192). -/
  | xor (p : R2)
  /-- ANDN (R192). -/
  | andn (p : R2)
  /-- SLL (R192). -/
  | sll (p : R2)
  /-- SRL (R192). -/
  | srl (p : R2)
  /-- SRA (R192). -/
  | sra (p : R2)
  /-- ROL (R192). -/
  | rol (p : R2)
  /-- ROR (R192). -/
  | ror (p : R2)
  /-- SLT (R192). -/
  | slt (p : R2)
  /-- SLTU (R192). -/
  | sltu (p : R2)
  /-- MIN (R192). -/
  | min (p : R2)
  /-- MAX (R192). -/
  | max (p : R2)
  /-- MINU (R192). -/
  | minu (p : R2)
  /-- MAXU (R192). -/
  | maxu (p : R2)
  /-- CLZ (R194). -/
  | clz (p : R1)
  /-- CTZ (R194). -/
  | ctz (p : R1)
  /-- POPC (R194). -/
  | popc (p : R1)
  /-- SEXT (R194). -/
  | sext (p : R1)
  /-- ZEXT (R194). -/
  | zext (p : R1)
  /-- LI_REG (R195). -/
  | liReg (p : R1)
  /-- LI_LIT32 (R195). -/
  | liLit32 (p : R2)
  /-- LI_HN (R195). -/
  | liHn (p : L)
  /-- LEA (R196). -/
  | lea (p : R2)
  /-- LEA_DISP (R196). -/
  | leaDisp (p : R2)
  /-- SEL (R197). -/
  | sel (p : R3)
  /-- BFX (R197). -/
  | bfx (p : R3)
  /-- BFI (R197). -/
  | bfi (p : R3)
  /-- FADD (R198). -/
  | fadd (p : R2)
  /-- FSUB (R198). -/
  | fsub (p : R2)
  /-- FMUL (R198). -/
  | fmul (p : R2)
  /-- FDIV (R198). -/
  | fdiv (p : R2)
  /-- FSQRT (R198). -/
  | fsqrt (p : R1)
  /-- FMADD (R198). -/
  | fmadd (p : R3)
  /-- FMIN (R198). -/
  | fmin (p : R2)
  /-- FMAX (R198). -/
  | fmax (p : R2)
  /-- FCMP (R199). -/
  | fcmp (p : R2)
  /-- FCVT (R200). -/
  | fcvt (p : R3)
  /-- FCLASS (R201). -/
  | fclass (p : R1)
  /-- B_CC (R202). -/
  | bCc (p : S)
  /-- J_SHORT (R203). -/
  | jShort (p : J)
  /-- J_LONG (R203). -/
  | jLong (p : J)
  /-- JAL_SHORT (R203). -/
  | jalShort (p : J)
  /-- JAL_LONG (R203). -/
  | jalLong (p : J)
  /-- JR (R204). -/
  | jr (p : R1)
  /-- RET (R205). -/
  | ret (p : Head)
  /-- LOOP (R206). -/
  | loop (p : S)
  /-- LD (R207). -/
  | ld (p : L)
  /-- ST (R208). -/
  | st (p : S)
  /-- PREF (R209). -/
  | pref (p : S)
  /-- AMO (R210). -/
  | amo (p : R3)
  /-- LR (R211). -/
  | lr (p : R1)
  /-- SC (R211). -/
  | sc (p : R2)
  /-- TRAP (R215). -/
  | trap (p : R1)
  /-- ERET (R398). -/
  | eret (p : Head)
  /-- SRR (R78). -/
  | srr (p : L)
  /-- SRW (R214). -/
  | srw (p : L)
  /-- PAUSE (R216). -/
  | pause (p : R1)
  /-- PAUSE_EXPIRY (R216). -/
  | pauseExpiry (h : HartId)
  /-- YIELD (R218). -/
  | yield (p : R1)
  /-- WFEV (R217). -/
  | wfev (p : Head)
  /-- FENCE_SV (R154). -/
  | fenceSv (p : R1)
  /-- FENCE_STK (R156). -/
  | fenceStk (p : R1)
  /-- REL (R158). -/
  | rel (p : R1)
  /-- ACQ (R158). -/
  | acq (p : R1)
  /-- VSAVE (R401). -/
  | vsave (p : R1)
  /-- VRSTR (R401). -/
  | vrstr (p : R1)
  /-- FRZ (R220). -/
  | frz (p : Head)
  /-- VCFG (R225). -/
  | vcfg (p : R1)
  /-- VSETL (R226). -/
  | vsetl (p : R1)
  /-- VQLEN (R228). -/
  | vqlen (p : R1)
  /-- VBIND (R229). -/
  | vbind (p : R2)
  /-- VBIND_OFF (R229). -/
  | vbindOff (p : R2)
  /-- VSPILL (R230). -/
  | vspill (p : L)
  /-- VFILL (R231). -/
  | vfill (p : L)
  /-- VADD (R232). -/
  | vadd (p : R2)
  /-- VSUB (R232). -/
  | vsub (p : R2)
  /-- VMUL (R232). -/
  | vmul (p : R2)
  /-- VFMA (R232). -/
  | vfma (p : R3)
  /-- VFMS (R232). -/
  | vfms (p : R3)
  /-- VNFMA (R232). -/
  | vnfma (p : R3)
  /-- VDIV (R232). -/
  | vdiv (p : R2)
  /-- VSQRT (R232). -/
  | vsqrt (p : R2)
  /-- VRSQRT (R232). -/
  | vrsqrt (p : R2)
  /-- VEXP2 (R233). -/
  | vexp2 (p : R2)
  /-- VLOG2 (R233). -/
  | vlog2 (p : R2)
  /-- VMIN (R232). -/
  | vmin (p : R2)
  /-- VMAX (R232). -/
  | vmax (p : R2)
  /-- VABS (R232). -/
  | vabs (p : R2)
  /-- VNEG (R232). -/
  | vneg (p : R2)
  /-- VCVT (R234). -/
  | vcvt (p : R3)
  /-- VCLASS (R235). -/
  | vclass (p : R2)
  /-- VIADD (R236). -/
  | viadd (p : R2)
  /-- VISUB (R236). -/
  | visub (p : R2)
  /-- VIMUL (R236). -/
  | vimul (p : R2)
  /-- VIMULH (R236). -/
  | vimulh (p : R2)
  /-- VAND (R236). -/
  | vand (p : R2)
  /-- VOR (R236). -/
  | vor (p : R2)
  /-- VXOR (R236). -/
  | vxor (p : R2)
  /-- VSHL (R236). -/
  | vshl (p : R2)
  /-- VSHR (R236). -/
  | vshr (p : R2)
  /-- VSRA (R236). -/
  | vsra (p : R2)
  /-- VIMIN (R236). -/
  | vimin (p : R2)
  /-- VIMAX (R236). -/
  | vimax (p : R2)
  /-- F_VADD (R237). -/
  | fVadd (p : R3)
  /-- F_VSUB (R237). -/
  | fVsub (p : R3)
  /-- F_VMUL (R237). -/
  | fVmul (p : R3)
  /-- F_VFMA (R237). -/
  | fVfma (p : R3)
  /-- F_VFMS (R237). -/
  | fVfms (p : R3)
  /-- F_VNFMA (R237). -/
  | fVnfma (p : R3)
  /-- F_VMIN (R237). -/
  | fVmin (p : R3)
  /-- F_VMAX (R237). -/
  | fVmax (p : R3)
  /-- F_VABS (R237). -/
  | fVabs (p : R3)
  /-- F_VNEG (R237). -/
  | fVneg (p : R3)
  /-- F_VCVT (R237). -/
  | fVcvt (p : R3)
  /-- F_VIADD (R237). -/
  | fViadd (p : R3)
  /-- F_VISUB (R237). -/
  | fVisub (p : R3)
  /-- F_VIMUL (R237). -/
  | fVimul (p : R3)
  /-- F_VIMULH (R237). -/
  | fVimulh (p : R3)
  /-- F_VAND (R237). -/
  | fVand (p : R3)
  /-- F_VOR (R237). -/
  | fVor (p : R3)
  /-- F_VXOR (R237). -/
  | fVxor (p : R3)
  /-- F_VSHL (R237). -/
  | fVshl (p : R3)
  /-- F_VSHR (R237). -/
  | fVshr (p : R3)
  /-- F_VSRA (R237). -/
  | fVsra (p : R3)
  /-- F_VIMIN (R237). -/
  | fVimin (p : R3)
  /-- F_VIMAX (R237). -/
  | fVimax (p : R3)
  /-- VCMP (R238). -/
  | vcmp (p : R2)
  /-- QAND (R239). -/
  | qand (p : Q)
  /-- QOR (R239). -/
  | qor (p : Q)
  /-- QNOT (R239). -/
  | qnot (p : Q)
  /-- QPOP (R239). -/
  | qpop (p : Q)
  /-- QFIRST (R239). -/
  | qfirst (p : Q)
  /-- VSEL (R240). -/
  | vsel (p : R2)
  /-- VIOTA (R241). -/
  | viota (p : R2)
  /-- VRED (R244). -/
  | vred (p : R2)
  /-- VREDO (R243). -/
  | vredo (p : R2)
  /-- F_VRED (R237). -/
  | fVred (p : R3)
  /-- F_VREDO (R237). -/
  | fVredo (p : R3)
  /-- VSCAN (R245). -/
  | vscan (p : R2)
  /-- VPERM (R246). -/
  | vperm (p : R2)
  /-- VSLIDE (R246). -/
  | vslide (p : R2)
  /-- VCOMPRESS (R247). -/
  | vcompress (p : R2)
  /-- VEXPAND (R247). -/
  | vexpand (p : R2)
  /-- VBCAST (R248). -/
  | vbcast (p : R2)
  /-- F_VBCAST (R237). -/
  | fVbcast (p : R3)
  /-- VEXT (R248). -/
  | vext (p : R2)
  /-- VINS (R248). -/
  | vins (p : R2)
  /-- VDUPM (R249). -/
  | vdupm (p : R2)
  /-- VSORTK (R250). -/
  | vsortk (p : R3)
  /-- VTOPK (R251). -/
  | vtopk (p : R3)
  /-- VLD (R258). -/
  | vld (p : M)
  /-- VST (R259). -/
  | vst (p : M)
  /-- VLDS (R258). -/
  | vlds (p : M)
  /-- VSTS (R259). -/
  | vsts (p : M)
  /-- VLDX (R258). -/
  | vldx (p : M)
  /-- VSTX (R259). -/
  | vstx (p : M)
  /-- VLDT (R262). -/
  | vldt (p : M)
  /-- VSTT (R262). -/
  | vstt (p : M)
  /-- VAMO (R263). -/
  | vamo (p : M)
  /-- VPREF (R264). -/
  | vpref (p : M)
  /-- F_VLD (R266). -/
  | fVld (p : M)
  /-- F_VST (R266). -/
  | fVst (p : M)
  /-- F_VLDS (R266). -/
  | fVlds (p : M)
  /-- F_VSTS (R266). -/
  | fVsts (p : M)
  /-- F_VLDX (R266). -/
  | fVldx (p : M)
  /-- F_VSTX (R266). -/
  | fVstx (p : M)
  /-- F_VAMO (R266). -/
  | fVamo (p : M)
  /-- F_VPREF (R264). -/
  | fVpref (p : M)
  /-- FEXPR (R270). -/
  | fexpr (p : R3)
  /-- FDOT (R271). -/
  | fdot (p : M)
  /-- FRED (R272). -/
  | fred (p : M)
  /-- FGET (R273). -/
  | fget (p : R3)
  /-- FPUT (R273). -/
  | fput (p : R3)
  /-- FATTN (R305). -/
  | fattn (p : M)
  /-- FAR_REQUEST_ARRIVAL (R267). -/
  | farRequestArrival (n : Nat)
  /-- FAR_COMPLETION (R267). -/
  | farCompletion (n : Nat)
  /-- MSHAPE (R279). -/
  | mshape (p : R3)
  /-- MMA_O (R282). -/
  | mmaO (p : M)
  /-- MMA_F (R282). -/
  | mmaF (p : M)
  /-- MGRP_O (R295). -/
  | mgrpO (p : M)
  /-- MGRP_F (R295). -/
  | mgrpF (p : M)
  /-- MZERO (R286). -/
  | mzero (p : R1)
  /-- MLD (R287). -/
  | mld (p : M)
  /-- MST (R288). -/
  | mst (p : M)
  /-- MMOV_BODY_TO_VEC (R289). -/
  | mmovBodyToVec (p : R2)
  /-- MMOV_VEC_TO_BODY (R289). -/
  | mmovVecToBody (p : R2)
  /-- MMOV_ST_TO_VEC (R289). -/
  | mmovStToVec (p : R2)
  /-- MMOV_VEC_TO_ST (R289). -/
  | mmovVecToSt (p : R2)
  /-- MSCALE (R290). -/
  | mscale (p : R2)
  /-- MSOFT (R299). -/
  | msoft (p : M)
  /-- MMASK (R300). -/
  | mmask (p : R2)
  /-- MMERGE (R301). -/
  | mmerge (p : R2)
  /-- MFIN (R303). -/
  | mfin (p : M)
  /-- VPROJ (R311). -/
  | vproj (p : M)
  /-- VPMERGE (R312). -/
  | vpmerge (p : R2)
  /-- VPFIN (R314). -/
  | vpfin (p : M)
  /-- VPGRAD (R315). -/
  | vpgrad (p : M)
  /-- EQCLAIM (R293). -/
  | eqclaim (p : R2)
  /-- TSEND (R323). -/
  | tsend (p : R2)
  /-- TTAKE (R324). -/
  | ttake (p : R2)
  /-- TTAKE_M (R324). -/
  | ttakeM (p : R2)
  /-- TLOOK (R324). -/
  | tlook (p : R2)
  /-- TLOOK_M (R324). -/
  | tlookM (p : R2)
  /-- TDROP (R325). -/
  | tdrop (p : R1)
  /-- TWAIT (R325). -/
  | twait (p : R1)
  /-- TMARK (R325). -/
  | tmark (p : R1)
  /-- HOLD_ENTRY_REQUEST (R320). -/
  | holdEntryRequest (n : Nat)
  /-- NODE_COPY (R331). -/
  | nodeCopy (p : R3)
  /-- NODE_CALL (R332). -/
  | nodeCall (p : R3)
  /-- NODE_EDGE (R333). -/
  | nodeEdge (p : R2)
  /-- NODE_ARM (R334). -/
  | nodeArm (p : R1)
  /-- NODE_ARM_DONE (R334). -/
  | nodeArmDone (p : R1)
  /-- NODE_WAIT (R334). -/
  | nodeWait (p : R1)
  /-- COPY_NODE_START (R329). -/
  | copyNodeStart (m i : Nat)
  /-- COPY_NODE_FINISH (R328). -/
  | copyNodeFinish (m i : Nat)
  /-- CALL_NODE_DELIVERY (R332). -/
  | callNodeDelivery (m i : Nat)
  /-- PUBLISH (R335). -/
  | publish (p : R1)
  /-- HWPUB (R336). -/
  | hwpub (p : R2)
  /-- BAR (R337). -/
  | bar (p : R1)
  /-- BAR_DOM (R337). -/
  | barDom (p : R1)
  /-- BAR_DOM_MESSAGE (R337). -/
  | barDomMessage (n : Nat)
  /-- KVMAP (R351). -/
  | kvmap (p : R3)
  /-- KVAPP (R350). -/
  | kvapp (p : R3)
  /-- KVXL (R349). -/
  | kvxl (p : R3)
  /-- KVXL_E (R349). -/
  | kvxlE (p : R3)
  /-- KVFORK (R352). -/
  | kvfork (p : R3)
  /-- KVREL (R352). -/
  | kvrel (p : R3)
  /-- KVSCORE (R354). -/
  | kvscore (p : R3)
  /-- KVTOPK (R355). -/
  | kvtopk (p : R3)
  /-- KVKEEP (R356). -/
  | kvkeep (p : R3)
  /-- KVPIDX (R358). -/
  | kvpidx (p : R3)
  /-- KVPIDX_INS (R358). -/
  | kvpidxIns (p : R3)
  /-- KV_REMOTE_REQUEST (R347). -/
  | kvRemoteRequest (n : Nat)
  /-- REMOTE_REQUEST_ARRIVAL (R166). -/
  | remoteRequestArrival (n : Nat)
  /-- REMOTE_STORE_ACK (R166). -/
  | remoteStoreAck (n : Nat)
  /-- STALE_REFUSAL (R473). -/
  | staleRefusal (n : Nat)
  /-- MSC_READ_REQUEST (R141). -/
  | mscReadRequest (loc : Nat)
  /-- MSC_WRITE (R141). -/
  | mscWrite (loc : Nat) (bytes : List Byte) (readers : BitVec 4)
  /-- MEMORY_ACCESS_PERFORM (R146). -/
  | memoryAccessPerform (h : HartId)
  /-- HOST_MEMORY_ACCESS (R167). -/
  | hostMemoryAccess (m pa n : Nat) (write : Option (List Byte))
  /-- HOST_QTAIL_WRITE (R361). -/
  | hostQtailWrite (m q : Nat) (tail : BitVec 32)
  /-- QCFG_ENABLE (R360). -/
  | qcfgEnable (m q : Nat) (v : Word)
  /-- QCFG_DISABLE (R360). -/
  | qcfgDisable (m q : Nat) (v : Word)
  /-- REGISTER_WRITE (R6). -/
  | registerWrite (m off : Nat) (v : Word)
  /-- SCHEDULER_PLACE (R365). -/
  | schedulerPlace (m : Nat) (want : List Nat)
  /-- HEAD_AGE_EXPIRY (R366). -/
  | headAgeExpiry (m q : Nat)
  /-- MARCH_PACKET_RECEIVE (R370). -/
  | marchPacketReceive (n : Nat) (want : List Nat)
  /-- MARCH_ARRIVAL (R54). -/
  | marchArrival (n : Nat)
  /-- MARCH_RELEASE (R54). -/
  | marchRelease (n : Nat)
  /-- MARCH_DISARM (R474). -/
  | marchDisarm (n : Nat)
  /-- MARCH_TIMEOUT (R474). -/
  | marchTimeout (l rk : Nat)
  /-- RANK_END_REPORT (R363). -/
  | rankEndReport (n : Nat)
  /-- LAUNCH_COMPLETION (R363). -/
  | launchCompletion (l rk : Nat)
  /-- NOTICE_POST (R56). -/
  | noticePost (h : HartId) (deadline : BitVec 32)
  /-- FORCED_PREEMPTION (R408). -/
  | forcedPreemption (h : HartId)
  /-- LAUNCH_SUSPEND (R368). -/
  | launchSuspend (l rk : Nat) (deadline : BitVec 32)
  /-- LAUNCH_RESUME (R369). -/
  | launchResume (l rk : Nat) (cores : List Nat) (want : List Nat)
  /-- WATCHDOG_FIRE (R469). -/
  | watchdogFire (h : HartId)
  /-- DEADLOCK_CHECK (R470). -/
  | deadlockCheck (m : Nat)
  /-- ERRREC_ACT_RESUME (R405). -/
  | errrecActResume (m q : Nat)
  /-- ERRREC_ACT_ABORT (R478). -/
  | errrecActAbort (m q : Nat)
  /-- ERRREC_VALID_CLEAR (R406). -/
  | errrecValidClear (m q : Nat)
  /-- DOMAIN_ACT_ABORT (R407). -/
  | domainActAbort (m : Nat)
  /-- ERROR_RECORD_FORWARD (R407). -/
  | errorRecordForward (n : Nat)
  /-- ACT_FORWARD (R407). -/
  | actForward (n : Nat)
  /-- ERRCNT_CLR (R459). -/
  | errcntClr (m : Nat)
  /-- STACK_COUNT_CLR (R460). -/
  | stackCountClr (m s : Nat)
  /-- XREL_VALID_CLEAR (R449). -/
  | xrelValidClear (m : Nat)
  /-- TAP_IDCODE (R412). -/
  | tapIdcode (m : Nat)
  /-- TAP_SOLSTAT (R412). -/
  | tapSolstat (m : Nat)
  /-- TAP_SOLSEL (R412). -/
  | tapSolsel (m : Nat) (v : Word)
  /-- TAP_SOLDATA (R412). -/
  | tapSoldata (m : Nat)
  /-- TAP_SOLFRZ (R411). -/
  | tapSolfrz (m : Nat)
  /-- TAP_SOLRST (R413). -/
  | tapSolrst (m : Nat)
  /-- TAP_BYPASS (R412). -/
  | tapBypass (m : Nat) (b : Bool)
  /-- SOLSTICE_UNLOCK (R412). -/
  | solsticeUnlock (m : Nat) (req : List Byte)
  /-- SPDM_REQUEST (R374). -/
  | spdmRequest (m : Nat) (req : List Byte)
  /-- MBOEB_FREEZE (R411). -/
  | mboebFreeze (m : Nat)
  /-- WARM_RESET (R413). -/
  | warmReset (m : Nat)
  /-- POWER_ON_BOOT (R373). -/
  | powerOnBoot (m : Nat) (image signature : List Byte) (key version : Nat)
  /-- D3HOT_ENTRY (R377). -/
  | d3hotEntry (m : Nat)
  /-- D0_RETURN (R377). -/
  | d0Return (m : Nat)
  /-- POWER_REMOVAL (R377). -/
  | powerRemoval (m : Nat)
  /-- THERMAL_STEP_DOWN (R376). -/
  | thermalStepDown (m temp : Nat)
  /-- THERMAL_TRIP (R376). -/
  | thermalTrip (m temp : Nat)
  /-- VCORE_REMOVAL (R411). -/
  | vcoreRemoval (m : Nat)
  /-- POWER_CAP_WINDOW (R376). -/
  | powerCapWindow (m : Nat) (point : Fin 4)
  /-- REFRESH_COMMAND (R144). -/
  | refreshCommand (m s bank : Nat) (found : Finding)
  /-- ROW_ACTIVATION_ALERT (R145). -/
  | rowActivationAlert (m s bank : Nat)
  /-- ACTIVATION_BACKOFF_END (R145). -/
  | activationBackoffEnd (m s bank : Nat)
  /-- DROOP_VBASE_LOW (R274). -/
  | droopVbaseLow (m s : Nat)
  /-- DROOP_STOP_END (R274). -/
  | droopStopEnd (m s : Nat)
  /-- PATROL_SWEEP (R454). -/
  | patrolSweep (m : Nat) (w : SramWord) (found : Finding)
  /-- BANK_COUNT_COPY (R460). -/
  | bankCountCopy (m s : Nat)
  /-- MIGRATION_TRIGGER (R446). -/
  | migrationTrigger (m page src frame : Nat)
  /-- MIGRATION_HOLD_TIMEOUT (R442). -/
  | migrationHoldTimeout (h : HartId)
  /-- PAGE_TIER_MIGRATE (R142). -/
  | pageTierMigrate (m src dst size : Nat)
  /-- AUTUMN_RUN (R353). -/
  | autumnRun (m root tier cls : Nat) (atp : Word)
  /-- CONST_BANK_RELOAD (R432). -/
  | constBankReload (l rk ka kb : Nat) (image : Word)
  /-- TLB_INVALIDATE (R129). -/
  | tlbInvalidate (m : Nat) (asid : Option Nat) (va len : Nat)
  /-- PUBLISHABLE_SETUP (R335). -/
  | publishableSetup (m asid va len image0 image1 : Nat) (dom : Bool)
  /-- FRZ_ENABLE (R220). -/
  | frzEnable (l : Nat)
  /-- CXL_EXTENT_ACCEPT (R143). -/
  | cxlExtentAccept (m base len off : Nat)
  /-- CXL_EXTENT_RELEASE (R448). -/
  | cxlExtentRelease (m off : Nat)
  /-- UALINK_LINK_ERROR (R475). -/
  | ualinkLinkError (m p : Nat)
  /-- UALINK_PORT_FAILURE (R475). -/
  | ualinkPortFailure (m p : Nat)
  /-- RANK_LOST (R475). -/
  | rankLost (m lost : Nat)
  /-- HOST_LINK_DOWN (R476). -/
  | hostLinkDown (m : Nat)
  /-- HART_RESUME (R368). -/
  | hartResume (h : HartId) (lanes : Nat)
  /-- ENTRY_GRANT (R323). -/
  | entryGrant (n : Nat)
  /-- LINK_TRAINED (R475). -/
  | linkTrained (m p : Nat)
  /-- HOST_LINK_UP (R476). -/
  | hostLinkUp (m : Nat)
  /-- PUBLISHABILITY_WITHDRAWAL (R445). -/
  | publishabilityWithdrawal (m i : Nat)
  /-- INDEX_ENTRY_REMOVAL (R453). -/
  | indexEntryRemoval (m root bucket slot : Nat) (atp : Word)
  /-- MIGRATABLE_MARK_CLEAR (R446). -/
  | migratableMarkClear (m page : Nat)
  /-- FORCED_EXTENT_WITHDRAWAL (R448). -/
  | forcedExtentWithdrawal (m off : Nat)
  deriving DecidableEq, Repr

end Sys2Proof
end

