-- ==== Sys2Proof/WellFormed.lean ====
section
/-! DEFINITION. Which instruction terms the encoding rules permit, and the cause a term that breaks one reports. -/

namespace Sys2Proof

open Machine (bit bits)

/-- A trap cause and sub-cause, written code.sub (R392, R417). -/
structure Cause where
  code : Byte
  sub : Byte
  deriving DecidableEq, Repr

/-- Kinds 01, 10 and 11 (R190). -/
def S10.skl (s : S10) : Bool := !(decide (s.tag = 0))
/-- Kinds 01 and 10: an address (R190). -/
def S10.sk (s : S10) : Bool := decide (s.tag = 1) || decide (s.tag = 2)
/-- Kind 00: a vector register (R65). -/
def S10.isVec (s : S10) : Bool := decide (s.tag = 0)
/-- Kind 01: a scalar register (R65). -/
def S10.isReg (s : S10) : Bool := decide (s.tag = 1)
/-- Kind 11: a literal (R65). -/
def S10.lit (s : S10) : Bool := decide (s.tag = 3)
/-- Value bits zero. -/
def S10.zeroVal (s : S10) : Bool := decide (s.val = 0)
/-- The whole field zero (R178). -/
def S10.isZero (s : S10) : Bool := decide (s.tag = 0) && decide (s.val = 0)
/-- The value lies in its class: v0–v63, g0–g31 (R174). -/
def S10.clean (s : S10) : Bool :=
  if s.tag = 0 then decide (s.val.toNat < 64) else if s.tag = 1 then decide (s.val.toNat < 32) else true
/-- The value lies in its class in a far form: m0–m15, g0–g31 (R174). -/
def S10.cleanF (s : S10) : Bool :=
  if s.tag = 0 then decide (s.val.toNat < 16) else if s.tag = 1 then decide (s.val.toNat < 32) else true

/-- MODE 0b11 is reserved (R177). -/
def Mk.legal (m : Mk) : Bool := !(decide (m.mode = 3))
/-- Q is zero when unmasked (R177). -/
def Mk.clean (m : Mk) : Bool := !(decide (m.mode = 0)) || decide (m.q = 0)
/-- MK5 = 0 (R177). -/
def Mk.zero (m : Mk) : Bool := decide (m.mode = 0) && decide (m.q = 0)

/-- D6 names g0–g31 (R176). -/
def dG (d : BitVec 6) : Bool := decide (d.toNat < 32)
/-- D6 names m0–m15 (R176). -/
def dM (d : BitVec 6) : Bool := decide (d.toNat < 16)
/-- D6 names q0–q7 or c0–c7 (R176). -/
def dQ (d : BitVec 6) : Bool := decide (d.toNat < 8)
/-- D6 is zero: no destination (R176). -/
def dZ (d : BitVec 6) : Bool := decide (d = 0)
/-- A source field that names a tile c0–c7 in its low three value bits (R289). -/
def dQ8 (s : S10) : Bool := decide (s.val.toNat < 8)

/-- SF holds no bit outside the mask `m` (R178). -/
def sfIn (m : Nat) (sf : BitVec 4) : Bool := decide (sf.toNat &&& (15 - m) = 0)

/-- Element type codes that VCFG accepts (R71, R225). -/
def etypeOk (e : Nat) : Bool := e = 1 || e = 2 || e = 4 || e = 5 || e = 6 || e = 7
/-- SEW in bits of an element type code; 0 for a code that names none (R71). -/
def sewOf : Nat → Nat
  | 1 => 16
  | 2 => 32
  | 4 => 8
  | 5 => 16
  | 6 => 32
  | 7 => 64
  | _ => 0
/-- VCVT's pair of types and suffixes is one that R234 gives: ETYPE codes, a ratio below 8, .sat only to a narrower integer. -/
def cvtOk (sf f t : Nat) : Bool :=
  etypeOk f && etypeOk t && !(decide (8 * sewOf f = sewOf t)) && !(decide (8 * sewOf t = sewOf f)) &&
    (!(bit sf 1) || (decide (4 ≤ f) && decide (4 ≤ t) && decide (sewOf t < sewOf f)))

/-- In a LIT32 format, literal sources hold value bits zero and LIT32 is zero when no source reads it (R175, R178). -/
def R2.litOk (p : R2) : Bool :=
  match p.lit with
  | none => true
  | some l => (!p.a.lit || p.a.zeroVal) && (!p.b.lit || p.b.zeroVal) && (p.a.lit || p.b.lit || decide (l = 0))

def R3.rmZero (p : R3) : Bool := decide (p.rm = 0)
def R3.immZero (p : R3) : Bool := decide (p.imm = 0)
/-- IMM21 has no bit at or above `n`. -/
def R3.immIn (p : R3) (n : Nat) : Bool := decide (p.imm.toNat < 2 ^ n)
/-- POS of BFX and BFI (R197). -/
def R3.pos (p : R3) : Nat := p.imm.toNat % 64
/-- LEN of BFX and BFI (R197). -/
def R3.len (p : R3) : Nat := p.imm.toNat / 64 % 128
/-- F of FCVT and VCVT (R200, R234). -/
def R3.cvF (p : R3) : Nat := p.imm.toNat % 16
/-- T of FCVT and VCVT (R200, R234). -/
def R3.cvT (p : R3) : Nat := p.imm.toNat / 16 % 16
/-- The stack operand of a far form (R179, R183). -/
def R3.stk (p : R3) : S10 := ⟨BitVec.ofNat 2 (p.imm.toNat / 2 ^ 19), BitVec.ofNat 8 (p.imm.toNat / 2 ^ 11)⟩
/-- A far form without IMM21 fields of its own. -/
def R3.ownZero (p : R3) : Bool := decide (p.imm.toNat % 2 ^ 11 = 0)
/-- IMM21[10:8] zero (R234, R269). -/
def R3.own3Zero (p : R3) : Bool := decide (p.imm.toNat % 2 ^ 11 < 2 ^ 8)
/-- IMM21[10:6] zero (R273). -/
def R3.own6 (p : R3) : Bool := decide (p.imm.toNat % 2 ^ 11 < 2 ^ 6)

/-- Mantissa bits of a KB format code, 0 for any other (R99, R101). -/
def kbBits : Nat → Nat
  | 5 => 2
  | 6 => 4
  | 7 => 7
  | _ => 0
/-- A format that the matrix engine and the far dot products read: bf16, e4m3, e5m2 or a KB format (R271, R281). -/
def matFmtN (f : Nat) : Bool := f = 1 || (3 ≤ f && f ≤ 7)
/-- A plane count that the format admits (R103, R180). -/
def planesN (f pl : Nat) : Bool := decide (pl ≤ kbBits f)

def M.kb (p : M) : Bool := decide (0 < kbBits p.fmt.toNat)
def M.matFmt (p : M) : Bool := matFmtN p.fmt.toNat
def M.planesOk (p : M) : Bool := planesN p.fmt.toNat p.planes.toNat
/-- Any float format code, 0x1 to 0x7 (R272). -/
def M.floatFmt (p : M) : Bool := decide (1 ≤ p.fmt.toNat) && decide (p.fmt.toNat ≤ 7)
/-- The formats of MLD, MST and MFIN: bf16, fp32, e4m3, e5m2 (R287, R288). -/
def M.tileFmt (p : M) : Bool := decide (1 ≤ p.fmt.toNat) && decide (p.fmt.toNat ≤ 4)
/-- FMT 0xF is reserved (R99). -/
def M.fmtLegal (p : M) : Bool := !(decide (p.fmt = 15))
/-- OFF[11:7] is SP, the register of the shape word (R280). -/
def M.spReg (p : M) : Nat := p.off.toNat / 128 % 32
/-- OFF[21:17] is SB, the register of B's base (R280). -/
def M.sbReg (p : M) : Nat := p.off.toNat / 2 ^ 17 % 32
/-- OFF[16:12] is SS, the register of B's stride (R280). -/
def M.ssReg (p : M) : Nat := p.off.toNat / 2 ^ 12 % 32
/-- OFF[6:4] is B's plane count (R280). -/
def M.bPlanes (p : M) : Nat := p.off.toNat / 16 % 8
/-- OFF[16:14] is CS, the score tile of MSOFT (R298). -/
def M.csTile (p : M) : Nat := p.off.toNat / 2 ^ 14 % 8

/-- X of a unit-stride form: the starting element of a KB tensor, of kind 01, 10 or 11, else unused (R256). -/
def unitX (p : M) : Bool := if p.kb then p.x.skl else true
/-- X of a unit-stride form other than KB is zero (R180). -/
def unitXClean (p : M) : Bool := p.kb || p.x.isZero
/-- X of VPREF selects the mode: 0x000 unit stride, a scalar kind strided, any other vector register indexed; a KB format has
only the unit-stride mode (R254, R256, R426). -/
def prefX (p : M) : Bool := !p.kb || p.x.isZero
/-- PLANES and RDR of VPREF are zero (R264, R426). -/
def prefFields (p : M) : Bool := decide (p.planes = 0) && decide (p.rdr = 0) && prefX p
/-- FMT, PLANES and RDR of a vector memory form: RDR and no planes on a store, planes and no RDR otherwise, KB formats only
in the unit-stride mode (R180, R256, R426). -/
def memFields (store unit : Bool) (p : M) : Bool :=
  (if store then decide (p.planes = 0) else p.planesOk && decide (p.rdr = 0)) && (unit || !p.kb)

/-- T16J holds a displacement that fits 16 signed bits. -/
def J.short (p : J) : Bool := decide (p.disp = (p.disp.setWidth 16).signExtend 32)

/-- The three kinds of encoding condition of one instruction (R417: 0x02.08, 0x03.01, 0x03.02). -/
structure Rules where
  sel : Bool
  tags : Bool
  fields : Bool
  deriving DecidableEq, Repr

/-- No condition. -/
def ok : Rules := ⟨true, true, true⟩

/-- The conditions of each instruction's encoding (R419, R421 and the instruction's own description); a device event
has no encoding and so no condition. A VBCAST of a scalar kind whose b field carries a kind tag other than 00 is a kind-tag condition and not
one on a field required zero (DESIGN CHOICE, log 72). Where R223 names no kinds for a value that is a count or an address (b of VTOPK, a of VCFG,
VSETL and VQLEN, a and b of VBIND) a vector register there is a kind-tag condition too (DESIGN CHOICE, log 81). -/
def Instr.rules : Instr → Rules
  | .nop p => { sel := sfIn 0 p.sf, tags := true, fields := true }
  | .add p => { sel := sfIn 1 p.sf && p.msk.legal, tags := p.a.skl && p.b.skl, fields := dG p.d && p.a.clean && p.b.clean && p.msk.zero && p.litOk }
  | .sub p => { sel := sfIn 1 p.sf && p.msk.legal, tags := p.a.skl && p.b.skl, fields := dG p.d && p.a.clean && p.b.clean && p.msk.zero && p.litOk }
  | .mul p => { sel := sfIn 1 p.sf && p.msk.legal, tags := p.a.skl && p.b.skl, fields := dG p.d && p.a.clean && p.b.clean && p.msk.zero && p.litOk }
  | .mulh p => { sel := sfIn 1 p.sf && p.msk.legal, tags := p.a.skl && p.b.skl, fields := dG p.d && p.a.clean && p.b.clean && p.msk.zero && p.litOk }
  | .mulhsu p => { sel := sfIn 1 p.sf && p.msk.legal, tags := p.a.skl && p.b.skl, fields := dG p.d && p.a.clean && p.b.clean && p.msk.zero && p.litOk }
  | .div p => { sel := sfIn 1 p.sf && p.msk.legal, tags := p.a.skl && p.b.skl, fields := dG p.d && p.a.clean && p.b.clean && p.msk.zero && p.litOk }
  | .divu p => { sel := sfIn 1 p.sf && p.msk.legal, tags := p.a.skl && p.b.skl, fields := dG p.d && p.a.clean && p.b.clean && p.msk.zero && p.litOk }
  | .rem p => { sel := sfIn 1 p.sf && p.msk.legal, tags := p.a.skl && p.b.skl, fields := dG p.d && p.a.clean && p.b.clean && p.msk.zero && p.litOk }
  | .remu p => { sel := sfIn 1 p.sf && p.msk.legal, tags := p.a.skl && p.b.skl, fields := dG p.d && p.a.clean && p.b.clean && p.msk.zero && p.litOk }
  | .and p => { sel := sfIn 1 p.sf && p.msk.legal, tags := p.a.skl && p.b.skl, fields := dG p.d && p.a.clean && p.b.clean && p.msk.zero && p.litOk }
  | .or p => { sel := sfIn 1 p.sf && p.msk.legal, tags := p.a.skl && p.b.skl, fields := dG p.d && p.a.clean && p.b.clean && p.msk.zero && p.litOk }
  | .xor p => { sel := sfIn 1 p.sf && p.msk.legal, tags := p.a.skl && p.b.skl, fields := dG p.d && p.a.clean && p.b.clean && p.msk.zero && p.litOk }
  | .andn p => { sel := sfIn 1 p.sf && p.msk.legal, tags := p.a.skl && p.b.skl, fields := dG p.d && p.a.clean && p.b.clean && p.msk.zero && p.litOk }
  | .sll p => { sel := sfIn 1 p.sf && p.msk.legal, tags := p.a.skl && p.b.skl, fields := dG p.d && p.a.clean && p.b.clean && p.msk.zero && p.litOk }
  | .srl p => { sel := sfIn 1 p.sf && p.msk.legal, tags := p.a.skl && p.b.skl, fields := dG p.d && p.a.clean && p.b.clean && p.msk.zero && p.litOk }
  | .sra p => { sel := sfIn 1 p.sf && p.msk.legal, tags := p.a.skl && p.b.skl, fields := dG p.d && p.a.clean && p.b.clean && p.msk.zero && p.litOk }
  | .rol p => { sel := sfIn 1 p.sf && p.msk.legal, tags := p.a.skl && p.b.skl, fields := dG p.d && p.a.clean && p.b.clean && p.msk.zero && p.litOk }
  | .ror p => { sel := sfIn 1 p.sf && p.msk.legal, tags := p.a.skl && p.b.skl, fields := dG p.d && p.a.clean && p.b.clean && p.msk.zero && p.litOk }
  | .slt p => { sel := sfIn 1 p.sf && p.msk.legal, tags := p.a.skl && p.b.skl, fields := dG p.d && p.a.clean && p.b.clean && p.msk.zero && p.litOk }
  | .sltu p => { sel := sfIn 1 p.sf && p.msk.legal, tags := p.a.skl && p.b.skl, fields := dG p.d && p.a.clean && p.b.clean && p.msk.zero && p.litOk }
  | .min p => { sel := sfIn 1 p.sf && p.msk.legal, tags := p.a.skl && p.b.skl, fields := dG p.d && p.a.clean && p.b.clean && p.msk.zero && p.litOk }
  | .max p => { sel := sfIn 1 p.sf && p.msk.legal, tags := p.a.skl && p.b.skl, fields := dG p.d && p.a.clean && p.b.clean && p.msk.zero && p.litOk }
  | .minu p => { sel := sfIn 1 p.sf && p.msk.legal, tags := p.a.skl && p.b.skl, fields := dG p.d && p.a.clean && p.b.clean && p.msk.zero && p.litOk }
  | .maxu p => { sel := sfIn 1 p.sf && p.msk.legal, tags := p.a.skl && p.b.skl, fields := dG p.d && p.a.clean && p.b.clean && p.msk.zero && p.litOk }
  | .clz p => { sel := sfIn 1 p.sf, tags := p.a.skl, fields := dG p.d && p.a.clean }
  | .ctz p => { sel := sfIn 1 p.sf, tags := p.a.skl, fields := dG p.d && p.a.clean }
  | .popc p => { sel := sfIn 1 p.sf, tags := p.a.skl, fields := dG p.d && p.a.clean }
  | .sext p => { sel := p.sf.toNat ≤ 2, tags := p.a.skl, fields := dG p.d && p.a.clean }
  | .zext p => { sel := p.sf.toNat ≤ 2, tags := p.a.skl, fields := dG p.d && p.a.clean }
  | .liReg p => { sel := sfIn 0 p.sf, tags := p.a.skl, fields := dG p.d && p.a.clean }
  | .liLit32 p => { sel := sfIn 0 p.sf && p.msk.legal, tags := p.a.lit, fields := dG p.d && p.a.zeroVal && p.b.isZero && p.msk.zero && p.lit.isSome }
  | .liHn p => { sel := decide (4 ≤ p.sf.toNat) && decide (p.sf.toNat ≤ 7), tags := p.a.sk, fields := dG p.d && p.a.clean }
  | .lea p => { sel := decide (p.sf.toNat ≤ 3) && p.msk.legal, tags := p.a.skl && p.b.skl, fields := dG p.d && p.a.clean && p.b.clean && p.msk.zero && p.lit.isNone }
  | .leaDisp p => { sel := decide (p.sf.toNat ≤ 3) && p.msk.legal, tags := p.a.sk && p.b.sk, fields := dG p.d && p.a.clean && p.b.clean && p.msk.zero && p.lit.isSome }
  | .sel p => { sel := sfIn 0 p.sf && p.msk.legal, tags := p.a.skl && p.b.skl && p.c.skl, fields := dG p.d && p.a.clean && p.b.clean && p.c.clean && p.msk.zero && p.rmZero && p.immZero }
  | .bfx p => { sel := sfIn 1 p.sf && p.msk.legal, tags := p.a.skl, fields := dG p.d && p.a.clean && p.b.isZero && p.c.isZero && p.msk.zero && p.rmZero && p.immIn 13 && decide (1 ≤ p.len) && decide (p.len ≤ 64) && decide (p.pos + p.len ≤ 64) }
  | .bfi p => { sel := sfIn 0 p.sf && p.msk.legal, tags := p.a.skl && p.b.skl, fields := dG p.d && p.a.clean && p.b.clean && p.c.isZero && p.msk.zero && p.rmZero && p.immIn 13 && decide (1 ≤ p.len) && decide (p.len ≤ 64) && decide (p.pos + p.len ≤ 64) }
  | .fadd p => { sel := sfIn 1 p.sf && p.msk.legal, tags := p.a.skl && p.b.skl, fields := dG p.d && p.a.clean && p.b.clean && p.msk.zero && p.litOk }
  | .fsub p => { sel := sfIn 1 p.sf && p.msk.legal, tags := p.a.skl && p.b.skl, fields := dG p.d && p.a.clean && p.b.clean && p.msk.zero && p.litOk }
  | .fmul p => { sel := sfIn 1 p.sf && p.msk.legal, tags := p.a.skl && p.b.skl, fields := dG p.d && p.a.clean && p.b.clean && p.msk.zero && p.litOk }
  | .fdiv p => { sel := sfIn 1 p.sf && p.msk.legal, tags := p.a.skl && p.b.skl, fields := dG p.d && p.a.clean && p.b.clean && p.msk.zero && p.litOk }
  | .fsqrt p => { sel := sfIn 1 p.sf, tags := p.a.skl, fields := dG p.d && p.a.clean }
  | .fmadd p => { sel := sfIn 1 p.sf && p.msk.legal, tags := p.a.skl && p.b.skl && p.c.skl, fields := dG p.d && p.a.clean && p.b.clean && p.c.clean && p.msk.zero && p.immZero }
  | .fmin p => { sel := sfIn 1 p.sf && p.msk.legal, tags := p.a.skl && p.b.skl, fields := dG p.d && p.a.clean && p.b.clean && p.msk.zero && p.litOk }
  | .fmax p => { sel := sfIn 1 p.sf && p.msk.legal, tags := p.a.skl && p.b.skl, fields := dG p.d && p.a.clean && p.b.clean && p.msk.zero && p.litOk }
  | .fcmp p => { sel := sfIn 7 p.sf && p.msk.legal, tags := p.a.skl && p.b.skl, fields := dG p.d && p.a.clean && p.b.clean && p.msk.zero && p.litOk }
  | .fcvt p => { sel := sfIn 0 p.sf && p.msk.legal && decide (p.cvF ≤ 6) && decide (p.cvT ≤ 6) && !(decide (3 ≤ p.cvF) && decide (3 ≤ p.cvT)), tags := p.a.skl, fields := dG p.d && p.a.clean && p.b.isZero && p.c.isZero && p.msk.zero && p.immIn 8 }
  | .fclass p => { sel := sfIn 1 p.sf, tags := p.a.skl, fields := dG p.d && p.a.clean }
  | .bCc p => { sel := p.sf.toNat ≤ 5, tags := p.a.skl && p.b.skl, fields := p.a.clean && p.b.clean }
  | .jShort p => { sel := sfIn 0 p.sf, tags := true, fields := p.short }
  | .jLong p => { sel := sfIn 0 p.sf, tags := true, fields := true }
  | .jalShort p => { sel := sfIn 0 p.sf, tags := true, fields := p.short }
  | .jalLong p => { sel := sfIn 0 p.sf, tags := true, fields := true }
  | .jr p => { sel := sfIn 0 p.sf, tags := p.a.sk, fields := dG p.d && p.a.clean }
  | .ret p => { sel := sfIn 0 p.sf, tags := true, fields := true }
  | .loop p => { sel := sfIn 0 p.sf, tags := p.a.isReg && p.b.skl, fields := p.a.clean && p.b.clean && !p.a.zeroVal }
  | .ld p => { sel := !(bit p.sf.toNat 3) && !(decide (p.sf.toNat = 4)), tags := p.a.sk, fields := dG p.d && p.a.clean }
  | .st p => { sel := sfIn 3 p.sf, tags := p.a.sk && p.b.skl, fields := p.a.clean && p.b.clean }
  | .pref p => { sel := sfIn 3 p.sf, tags := p.a.sk, fields := p.a.clean && p.b.isZero }
  | .amo p => { sel := p.msk.legal, tags := p.a.sk && p.b.skl && (if p.sf.toNat % 8 = 2 then p.c.skl else true), fields := dG p.d && p.a.clean && p.b.clean && (if p.sf.toNat % 8 = 2 then p.c.clean else p.c.isZero) && p.msk.zero && p.rmZero }
  | .lr p => { sel := sfIn 1 p.sf, tags := p.a.sk, fields := dG p.d && p.a.clean }
  | .sc p => { sel := sfIn 1 p.sf && p.msk.legal, tags := p.a.sk && p.b.skl, fields := dG p.d && p.a.clean && p.b.clean && p.msk.zero && p.lit.isNone }
  | .trap p => { sel := sfIn 0 p.sf, tags := p.a.skl, fields := dZ p.d && p.a.clean }
  | .eret p => { sel := sfIn 0 p.sf, tags := true, fields := true }
  | .srr p => { sel := sfIn 0 p.sf, tags := true, fields := dG p.d && p.a.isZero && decide (p.imm.toNat < 4096) }
  | .srw p => { sel := sfIn 0 p.sf, tags := p.a.skl, fields := dZ p.d && p.a.clean && decide (p.imm.toNat < 4096) }
  | .pause p => { sel := sfIn 0 p.sf, tags := p.a.skl, fields := dZ p.d && p.a.clean }
  | .pauseExpiry _ => ok
  | .yield p => { sel := sfIn 0 p.sf, tags := p.a.skl, fields := dZ p.d && p.a.clean }
  | .wfev p => { sel := sfIn 0 p.sf, tags := true, fields := true }
  | .fenceSv p => { sel := sfIn 0 p.sf, tags := p.a.lit, fields := dZ p.d }
  | .fenceStk p => { sel := decide (p.sf = 1), tags := p.a.sk, fields := dZ p.d && p.a.clean }
  | .rel p => { sel := p.sf.toNat ≤ 6, tags := (if p.sf.toNat = 4 then p.a.sk else true), fields := dZ p.d && (if p.sf.toNat = 4 then p.a.clean else p.a.isZero) }
  | .acq p => { sel := p.sf.toNat ≤ 6, tags := (if p.sf.toNat = 4 then p.a.sk else true), fields := dZ p.d && (if p.sf.toNat = 4 then p.a.clean else p.a.isZero) }
  | .vsave p => { sel := sfIn 0 p.sf, tags := p.a.sk, fields := dG p.d && p.a.clean }
  | .vrstr p => { sel := sfIn 0 p.sf, tags := p.a.sk, fields := dZ p.d && p.a.clean }
  | .frz p => { sel := sfIn 0 p.sf, tags := true, fields := true }
  | .vcfg p => { sel := etypeOk p.sf.toNat, tags := p.a.skl, fields := dG p.d && p.a.clean }
  | .vsetl p => { sel := sfIn 0 p.sf, tags := p.a.skl, fields := dG p.d && p.a.clean }
  | .vqlen p => { sel := sfIn 0 p.sf, tags := p.a.skl, fields := dG p.d && p.a.clean }
  | .vbind p => { sel := sfIn 0 p.sf && p.msk.legal, tags := p.a.skl && p.b.skl, fields := dZ p.d && p.a.clean && p.b.clean && p.msk.zero && p.lit.isNone }
  | .vbindOff p => { sel := decide (p.sf = 1) && p.msk.legal, tags := true, fields := dZ p.d && p.a.isZero && p.b.isZero && p.msk.zero && p.lit.isNone }
  | .vspill p => { sel := sfIn 0 p.sf, tags := p.a.sk, fields := dG p.d && p.a.clean }
  | .vfill p => { sel := sfIn 0 p.sf, tags := p.a.sk, fields := dG p.d && p.a.clean }
  | .vadd p => { sel := sfIn 0 p.sf && p.msk.legal, tags := true, fields := p.a.clean && p.b.clean && p.msk.clean && p.litOk }
  | .vsub p => { sel := sfIn 0 p.sf && p.msk.legal, tags := true, fields := p.a.clean && p.b.clean && p.msk.clean && p.litOk }
  | .vmul p => { sel := sfIn 0 p.sf && p.msk.legal, tags := true, fields := p.a.clean && p.b.clean && p.msk.clean && p.litOk }
  | .vfma p => { sel := sfIn 0 p.sf && p.msk.legal, tags := true, fields := p.a.clean && p.b.clean && p.c.clean && p.msk.clean && p.immZero }
  | .vfms p => { sel := sfIn 0 p.sf && p.msk.legal, tags := true, fields := p.a.clean && p.b.clean && p.c.clean && p.msk.clean && p.immZero }
  | .vnfma p => { sel := sfIn 0 p.sf && p.msk.legal, tags := true, fields := p.a.clean && p.b.clean && p.c.clean && p.msk.clean && p.immZero }
  | .vdiv p => { sel := sfIn 0 p.sf && p.msk.legal, tags := true, fields := p.a.clean && p.b.clean && p.msk.clean && p.litOk }
  | .vsqrt p => { sel := sfIn 0 p.sf && p.msk.legal, tags := true, fields := p.a.clean && p.b.isZero && p.msk.clean && p.litOk }
  | .vrsqrt p => { sel := sfIn 0 p.sf && p.msk.legal, tags := true, fields := p.a.clean && p.b.isZero && p.msk.clean && p.litOk }
  | .vexp2 p => { sel := sfIn 0 p.sf && p.msk.legal, tags := true, fields := p.a.clean && p.b.isZero && p.msk.clean && p.litOk }
  | .vlog2 p => { sel := sfIn 0 p.sf && p.msk.legal, tags := true, fields := p.a.clean && p.b.isZero && p.msk.clean && p.litOk }
  | .vmin p => { sel := sfIn 0 p.sf && p.msk.legal, tags := true, fields := p.a.clean && p.b.clean && p.msk.clean && p.litOk }
  | .vmax p => { sel := sfIn 0 p.sf && p.msk.legal, tags := true, fields := p.a.clean && p.b.clean && p.msk.clean && p.litOk }
  | .vabs p => { sel := sfIn 0 p.sf && p.msk.legal, tags := true, fields := p.a.clean && p.b.isZero && p.msk.clean && p.litOk }
  | .vneg p => { sel := sfIn 0 p.sf && p.msk.legal, tags := true, fields := p.a.clean && p.b.isZero && p.msk.clean && p.litOk }
  | .vcvt p => { sel := sfIn 3 p.sf && p.msk.legal && cvtOk p.sf.toNat p.cvF p.cvT, tags := true, fields := p.a.clean && p.b.isZero && p.c.isZero && p.msk.clean && p.immIn 8 }
  | .vclass p => { sel := sfIn 0 p.sf && p.msk.legal, tags := true, fields := p.a.clean && p.b.isZero && p.msk.clean && p.lit.isNone }
  | .viadd p => { sel := sfIn 3 p.sf && p.msk.legal, tags := true, fields := p.a.clean && p.b.clean && p.msk.clean && p.litOk }
  | .visub p => { sel := sfIn 3 p.sf && p.msk.legal, tags := true, fields := p.a.clean && p.b.clean && p.msk.clean && p.litOk }
  | .vimul p => { sel := sfIn 0 p.sf && p.msk.legal, tags := true, fields := p.a.clean && p.b.clean && p.msk.clean && p.litOk }
  | .vimulh p => { sel := sfIn 1 p.sf && p.msk.legal, tags := true, fields := p.a.clean && p.b.clean && p.msk.clean && p.litOk }
  | .vand p => { sel := sfIn 0 p.sf && p.msk.legal, tags := true, fields := p.a.clean && p.b.clean && p.msk.clean && p.litOk }
  | .vor p => { sel := sfIn 0 p.sf && p.msk.legal, tags := true, fields := p.a.clean && p.b.clean && p.msk.clean && p.litOk }
  | .vxor p => { sel := sfIn 0 p.sf && p.msk.legal, tags := true, fields := p.a.clean && p.b.clean && p.msk.clean && p.litOk }
  | .vshl p => { sel := sfIn 0 p.sf && p.msk.legal, tags := true, fields := p.a.clean && p.b.clean && p.msk.clean && p.litOk }
  | .vshr p => { sel := sfIn 0 p.sf && p.msk.legal, tags := true, fields := p.a.clean && p.b.clean && p.msk.clean && p.litOk }
  | .vsra p => { sel := sfIn 0 p.sf && p.msk.legal, tags := true, fields := p.a.clean && p.b.clean && p.msk.clean && p.litOk }
  | .vimin p => { sel := sfIn 1 p.sf && p.msk.legal, tags := true, fields := p.a.clean && p.b.clean && p.msk.clean && p.litOk }
  | .vimax p => { sel := sfIn 1 p.sf && p.msk.legal, tags := true, fields := p.a.clean && p.b.clean && p.msk.clean && p.litOk }
  | .fVadd p => { sel := sfIn 0 p.sf && p.msk.legal, tags := p.stk.sk, fields := dM p.d && p.a.cleanF && p.b.cleanF && p.c.isZero && p.msk.zero && p.stk.clean && p.ownZero }
  | .fVsub p => { sel := sfIn 0 p.sf && p.msk.legal, tags := p.stk.sk, fields := dM p.d && p.a.cleanF && p.b.cleanF && p.c.isZero && p.msk.zero && p.stk.clean && p.ownZero }
  | .fVmul p => { sel := sfIn 0 p.sf && p.msk.legal, tags := p.stk.sk, fields := dM p.d && p.a.cleanF && p.b.cleanF && p.c.isZero && p.msk.zero && p.stk.clean && p.ownZero }
  | .fVfma p => { sel := sfIn 0 p.sf && p.msk.legal, tags := p.stk.sk, fields := dM p.d && p.a.cleanF && p.b.cleanF && p.c.cleanF && p.msk.zero && p.stk.clean && p.ownZero }
  | .fVfms p => { sel := sfIn 0 p.sf && p.msk.legal, tags := p.stk.sk, fields := dM p.d && p.a.cleanF && p.b.cleanF && p.c.cleanF && p.msk.zero && p.stk.clean && p.ownZero }
  | .fVnfma p => { sel := sfIn 0 p.sf && p.msk.legal, tags := p.stk.sk, fields := dM p.d && p.a.cleanF && p.b.cleanF && p.c.cleanF && p.msk.zero && p.stk.clean && p.ownZero }
  | .fVmin p => { sel := sfIn 0 p.sf && p.msk.legal, tags := p.stk.sk, fields := dM p.d && p.a.cleanF && p.b.cleanF && p.c.isZero && p.msk.zero && p.stk.clean && p.ownZero }
  | .fVmax p => { sel := sfIn 0 p.sf && p.msk.legal, tags := p.stk.sk, fields := dM p.d && p.a.cleanF && p.b.cleanF && p.c.isZero && p.msk.zero && p.stk.clean && p.ownZero }
  | .fVabs p => { sel := sfIn 0 p.sf && p.msk.legal, tags := p.stk.sk, fields := dM p.d && p.a.cleanF && p.b.isZero && p.c.isZero && p.msk.zero && p.stk.clean && p.ownZero }
  | .fVneg p => { sel := sfIn 0 p.sf && p.msk.legal, tags := p.stk.sk, fields := dM p.d && p.a.cleanF && p.b.isZero && p.c.isZero && p.msk.zero && p.stk.clean && p.ownZero }
  | .fVcvt p => { sel := sfIn 3 p.sf && cvtOk p.sf.toNat p.cvF p.cvT && p.msk.legal, tags := p.stk.sk, fields := dM p.d && p.a.cleanF && p.b.isZero && p.c.isZero && p.msk.zero && p.stk.clean && p.own3Zero }
  | .fViadd p => { sel := sfIn 3 p.sf && p.msk.legal, tags := p.stk.sk, fields := dM p.d && p.a.cleanF && p.b.cleanF && p.c.isZero && p.msk.zero && p.stk.clean && p.ownZero && p.rmZero }
  | .fVisub p => { sel := sfIn 3 p.sf && p.msk.legal, tags := p.stk.sk, fields := dM p.d && p.a.cleanF && p.b.cleanF && p.c.isZero && p.msk.zero && p.stk.clean && p.ownZero && p.rmZero }
  | .fVimul p => { sel := sfIn 0 p.sf && p.msk.legal, tags := p.stk.sk, fields := dM p.d && p.a.cleanF && p.b.cleanF && p.c.isZero && p.msk.zero && p.stk.clean && p.ownZero && p.rmZero }
  | .fVimulh p => { sel := sfIn 1 p.sf && p.msk.legal, tags := p.stk.sk, fields := dM p.d && p.a.cleanF && p.b.cleanF && p.c.isZero && p.msk.zero && p.stk.clean && p.ownZero && p.rmZero }
  | .fVand p => { sel := sfIn 0 p.sf && p.msk.legal, tags := p.stk.sk, fields := dM p.d && p.a.cleanF && p.b.cleanF && p.c.isZero && p.msk.zero && p.stk.clean && p.ownZero && p.rmZero }
  | .fVor p => { sel := sfIn 0 p.sf && p.msk.legal, tags := p.stk.sk, fields := dM p.d && p.a.cleanF && p.b.cleanF && p.c.isZero && p.msk.zero && p.stk.clean && p.ownZero && p.rmZero }
  | .fVxor p => { sel := sfIn 0 p.sf && p.msk.legal, tags := p.stk.sk, fields := dM p.d && p.a.cleanF && p.b.cleanF && p.c.isZero && p.msk.zero && p.stk.clean && p.ownZero && p.rmZero }
  | .fVshl p => { sel := sfIn 0 p.sf && p.msk.legal, tags := p.stk.sk, fields := dM p.d && p.a.cleanF && p.b.cleanF && p.c.isZero && p.msk.zero && p.stk.clean && p.ownZero && p.rmZero }
  | .fVshr p => { sel := sfIn 0 p.sf && p.msk.legal, tags := p.stk.sk, fields := dM p.d && p.a.cleanF && p.b.cleanF && p.c.isZero && p.msk.zero && p.stk.clean && p.ownZero && p.rmZero }
  | .fVsra p => { sel := sfIn 0 p.sf && p.msk.legal, tags := p.stk.sk, fields := dM p.d && p.a.cleanF && p.b.cleanF && p.c.isZero && p.msk.zero && p.stk.clean && p.ownZero && p.rmZero }
  | .fVimin p => { sel := sfIn 1 p.sf && p.msk.legal, tags := p.stk.sk, fields := dM p.d && p.a.cleanF && p.b.cleanF && p.c.isZero && p.msk.zero && p.stk.clean && p.ownZero && p.rmZero }
  | .fVimax p => { sel := sfIn 1 p.sf && p.msk.legal, tags := p.stk.sk, fields := dM p.d && p.a.cleanF && p.b.cleanF && p.c.isZero && p.msk.zero && p.stk.clean && p.ownZero && p.rmZero }
  | .vcmp p => { sel := decide (p.sf.toNat % 8 ≤ 6) && p.msk.legal, tags := true, fields := dQ p.d && p.a.clean && p.b.clean && p.msk.clean && p.litOk }
  | .qand p => { sel := sfIn 0 p.sf, tags := true, fields := dQ p.d }
  | .qor p => { sel := sfIn 0 p.sf, tags := true, fields := dQ p.d }
  | .qnot p => { sel := sfIn 0 p.sf, tags := true, fields := dQ p.d && decide (p.qb = 0) }
  | .qpop p => { sel := sfIn 0 p.sf, tags := true, fields := dG p.d && decide (p.qb = 0) }
  | .qfirst p => { sel := sfIn 0 p.sf, tags := true, fields := dG p.d && decide (p.qb = 0) }
  | .vsel p => { sel := sfIn 0 p.sf && p.msk.legal, tags := true, fields := p.a.clean && p.b.clean && p.msk.clean && p.litOk && !(decide (p.msk.mode = 0)) }
  | .viota p => { sel := sfIn 0 p.sf && p.msk.legal, tags := true, fields := p.a.clean && p.b.isZero && p.msk.clean && p.lit.isNone }
  | .vred p => { sel := sfIn 7 p.sf && p.msk.legal, tags := true, fields := p.a.clean && p.b.clean && p.msk.clean && p.lit.isNone }
  | .vredo p => { sel := sfIn 7 p.sf && p.msk.legal, tags := true, fields := p.a.clean && p.b.clean && p.msk.clean && p.lit.isNone }
  | .fVred p => { sel := sfIn 7 p.sf && p.msk.legal, tags := p.stk.sk, fields := dM p.d && p.a.cleanF && p.b.cleanF && p.c.isZero && p.msk.zero && p.stk.clean && p.ownZero && p.rmZero }
  | .fVredo p => { sel := sfIn 7 p.sf && p.msk.legal, tags := p.stk.sk, fields := dM p.d && p.a.cleanF && p.b.cleanF && p.c.isZero && p.msk.zero && p.stk.clean && p.ownZero && p.rmZero }
  | .vscan p => { sel := p.msk.legal, tags := true, fields := p.a.clean && p.b.clean && p.msk.clean && p.litOk }
  | .vperm p => { sel := sfIn 0 p.sf && p.msk.legal, tags := p.a.isVec && p.b.isVec, fields := p.a.clean && p.b.clean && p.msk.clean && p.litOk }
  | .vslide p => { sel := sfIn 0 p.sf && p.msk.legal, tags := p.a.isVec && p.b.skl, fields := p.a.clean && p.b.clean && p.msk.clean && p.litOk }
  | .vcompress p => { sel := sfIn 0 p.sf && p.msk.legal, tags := p.a.isVec, fields := p.a.clean && p.b.isZero && p.msk.clean && p.litOk }
  | .vexpand p => { sel := sfIn 0 p.sf && p.msk.legal, tags := p.a.isVec, fields := p.a.clean && p.b.isZero && p.msk.clean && p.litOk }
  | .vbcast p => { sel := sfIn 0 p.sf && p.msk.legal, tags := (if p.a.isVec then true else p.b.isVec), fields := p.a.clean && p.b.clean && p.msk.clean && p.litOk && (if p.a.isVec then true else p.b.isZero) }
  | .fVbcast p => { sel := sfIn 0 p.sf && p.msk.legal, tags := p.stk.sk && (if p.a.isVec then true else p.b.isVec), fields := dM p.d && p.a.cleanF && p.b.cleanF && p.c.isZero && p.msk.zero && p.stk.clean && p.ownZero && p.rmZero && (if p.a.isVec then true else p.b.isZero) }
  | .vext p => { sel := sfIn 1 p.sf && p.msk.legal, tags := p.a.isVec && p.b.skl, fields := dG p.d && p.a.clean && p.b.clean && p.msk.zero && p.litOk }
  | .vins p => { sel := sfIn 0 p.sf && p.msk.legal, tags := p.a.skl && p.b.skl, fields := p.a.clean && p.b.clean && p.msk.zero && p.litOk }
  | .vdupm p => { sel := sfIn 0 p.sf && p.msk.legal, tags := p.a.isVec, fields := p.a.clean && p.b.isZero && p.msk.clean && p.litOk }
  | .vsortk p => { sel := sfIn 0 p.sf && p.msk.legal, tags := p.a.isVec && (if p.imm.toNat = 0 then true else p.b.sk), fields := p.a.clean && (if p.imm.toNat = 0 then p.b.isZero else p.b.clean) && p.c.isZero && p.msk.clean && p.rmZero }
  | .vtopk p => { sel := sfIn 3 p.sf && p.msk.legal, tags := p.a.isVec && p.b.skl, fields := p.a.clean && p.b.clean && p.c.isZero && p.msk.clean && p.rmZero && p.immZero }
  | .vld p => { sel := sfIn 0 p.sf && p.msk.legal && p.fmtLegal, tags := p.base.sk && unitX p, fields := true && p.base.clean && p.x.clean && memFields false true p && unitXClean p && p.msk.clean }
  | .vst p => { sel := sfIn 0 p.sf && p.msk.legal && p.fmtLegal, tags := p.base.sk && unitX p, fields := true && p.base.clean && p.x.clean && memFields true true p && unitXClean p && p.msk.clean }
  | .vlds p => { sel := sfIn 0 p.sf && p.msk.legal && p.fmtLegal, tags := p.base.sk && p.x.skl, fields := true && p.base.clean && p.x.clean && memFields false false p && p.msk.clean }
  | .vsts p => { sel := sfIn 0 p.sf && p.msk.legal && p.fmtLegal, tags := p.base.sk && p.x.skl, fields := true && p.base.clean && p.x.clean && memFields true false p && p.msk.clean }
  | .vldx p => { sel := sfIn 7 p.sf && p.msk.legal && p.fmtLegal, tags := p.base.sk && p.x.isVec, fields := true && p.base.clean && p.x.clean && memFields false false p && p.msk.clean }
  | .vstx p => { sel := sfIn 7 p.sf && p.msk.legal && p.fmtLegal, tags := p.base.sk && p.x.isVec, fields := true && p.base.clean && p.x.clean && memFields true false p && p.msk.clean }
  | .vldt p => { sel := sfIn 7 p.sf && p.msk.legal && p.fmtLegal, tags := p.base.sk && p.x.isVec, fields := true && p.base.clean && p.x.clean && memFields false false p && p.msk.clean }
  | .vstt p => { sel := sfIn 7 p.sf && p.msk.legal && p.fmtLegal, tags := p.base.sk && p.x.isVec, fields := true && p.base.clean && p.x.clean && memFields true false p && p.msk.clean }
  | .vamo p => { sel := !(decide (p.sf.toNat % 8 = 2)) && p.msk.legal && p.fmtLegal, tags := p.base.sk && p.x.isVec, fields := true && p.base.clean && p.x.clean && memFields false false p && decide (p.fmt = 0) && p.msk.clean }
  | .vpref p => { sel := sfIn 1 p.sf && p.msk.legal && p.fmtLegal, tags := p.base.sk, fields := dZ p.d && p.base.clean && p.x.clean && prefFields p && p.msk.clean }
  | .fVld p => { sel := sfIn 0 p.sf && p.msk.legal && p.fmtLegal, tags := p.base.sk && unitX p, fields := dM p.d && p.base.clean && p.x.cleanF && memFields false true p && unitXClean p && p.msk.zero }
  | .fVst p => { sel := sfIn 0 p.sf && p.msk.legal && p.fmtLegal, tags := p.base.sk && unitX p, fields := dM p.d && p.base.clean && p.x.cleanF && memFields true true p && unitXClean p && p.msk.zero }
  | .fVlds p => { sel := sfIn 0 p.sf && p.msk.legal && p.fmtLegal, tags := p.base.sk && p.x.skl, fields := dM p.d && p.base.clean && p.x.cleanF && memFields false false p && p.msk.zero }
  | .fVsts p => { sel := sfIn 0 p.sf && p.msk.legal && p.fmtLegal, tags := p.base.sk && p.x.skl, fields := dM p.d && p.base.clean && p.x.cleanF && memFields true false p && p.msk.zero }
  | .fVldx p => { sel := sfIn 7 p.sf && p.msk.legal && p.fmtLegal, tags := p.base.sk && p.x.isVec, fields := dM p.d && p.base.clean && p.x.cleanF && memFields false false p && p.msk.zero }
  | .fVstx p => { sel := sfIn 7 p.sf && p.msk.legal && p.fmtLegal, tags := p.base.sk && p.x.isVec, fields := dM p.d && p.base.clean && p.x.cleanF && memFields true false p && p.msk.zero }
  | .fVamo p => { sel := !(decide (p.sf.toNat % 8 = 2)) && p.msk.legal && p.fmtLegal, tags := p.base.sk && p.x.isVec, fields := dM p.d && p.base.clean && p.x.cleanF && memFields false false p && decide (p.fmt = 0) && p.msk.zero }
  | .fVpref p => { sel := sfIn 0 p.sf && p.msk.legal && p.fmtLegal, tags := p.base.sk, fields := dZ p.d && p.base.clean && p.x.cleanF && prefFields p && p.msk.zero }
  | .fexpr p => { sel := sfIn 0 p.sf && p.msk.legal, tags := p.stk.sk, fields := dM p.d && p.a.cleanF && p.b.cleanF && p.c.cleanF && p.msk.zero && p.stk.clean && p.own3Zero }
  | .fdot p => { sel := p.msk.legal && p.fmtLegal, tags := p.base.sk && (if p.kb then true else p.x.skl), fields := dM p.d && p.base.clean && p.x.cleanF && p.msk.zero && p.matFmt && p.planesOk && (if p.kb then p.x.isZero else true) }
  | .fred p => { sel := sfIn 3 p.sf && p.msk.legal && p.fmtLegal, tags := p.base.sk && p.x.skl, fields := dM p.d && p.base.clean && p.x.cleanF && p.msk.zero && p.floatFmt && p.planesOk && decide (p.rdr = 0) }
  | .fget p => { sel := sfIn 0 p.sf && p.msk.legal, tags := p.stk.sk && p.a.isVec, fields := dZ p.d && p.a.cleanF && p.b.isZero && p.c.isZero && p.msk.zero && p.rmZero && p.stk.clean && p.own6 }
  | .fput p => { sel := sfIn 0 p.sf && p.msk.legal, tags := p.stk.sk, fields := dM p.d && p.a.isZero && p.b.isZero && p.c.isZero && p.msk.zero && p.rmZero && p.stk.clean && p.own6 }
  | .fattn p => { sel := !(bit p.sf.toNat 2) && p.msk.legal && p.fmtLegal, tags := p.base.sk && (if p.kb then true else p.x.skl), fields := dM p.d && p.base.clean && p.x.cleanF && p.msk.zero && p.matFmt && p.planesOk && (if p.kb then p.x.isZero else true) }
  | .farRequestArrival _ => ok
  | .farCompletion _ => ok
  | .mshape p => { sel := sfIn 1 p.sf && p.msk.legal, tags := p.a.skl && p.b.skl && p.c.skl, fields := dG p.d && p.a.clean && p.b.clean && p.c.clean && p.msk.zero && p.rmZero && p.immZero }
  | .mmaO p => { sel := sfIn 1 p.sf && p.msk.legal && p.fmtLegal && !(decide (p.rdr = 15)), tags := p.base.sk && p.x.skl, fields := dQ p.d && p.base.clean && p.x.clean && p.msk.zero && p.matFmt && p.planesOk && matFmtN p.rdr.toNat && planesN p.rdr.toNat p.bPlanes && decide (p.off.toNat % 16 = 0) }
  | .mmaF p => { sel := sfIn 1 p.sf && p.msk.legal && p.fmtLegal && !(decide (p.rdr = 15)), tags := p.base.sk && p.x.skl, fields := dQ p.d && p.base.clean && p.x.clean && p.msk.zero && p.matFmt && p.planesOk && matFmtN p.rdr.toNat && planesN p.rdr.toNat p.bPlanes && decide (p.off.toNat % 16 = 0) }
  | .mgrpO p => { sel := sfIn 0 p.sf && p.msk.legal && p.fmtLegal, tags := p.base.sk && p.x.sk, fields := dQ p.d && p.base.clean && p.x.clean && p.msk.zero && decide (p.fmt = 0) && decide (p.planes = 0) && decide (p.rdr = 0) }
  | .mgrpF p => { sel := sfIn 0 p.sf && p.msk.legal && p.fmtLegal, tags := p.base.sk && p.x.sk, fields := dQ p.d && p.base.clean && p.x.clean && p.msk.zero && decide (p.fmt = 0) && decide (p.planes = 0) && decide (p.rdr = 0) }
  | .mzero p => { sel := sfIn 1 p.sf, tags := true, fields := dQ p.d && p.a.isZero }
  | .mld p => { sel := sfIn 1 p.sf && p.msk.legal && p.fmtLegal, tags := p.base.sk && p.x.skl, fields := dQ p.d && p.base.clean && p.x.clean && p.msk.zero && p.tileFmt && decide (p.planes = 0) && decide (p.rdr = 0) && decide (p.off.toNat = p.spReg * 128) }
  | .mst p => { sel := sfIn 0 p.sf && p.msk.legal && p.fmtLegal, tags := p.base.sk && p.x.skl, fields := dQ p.d && p.base.clean && p.x.clean && p.msk.zero && p.tileFmt && decide (p.planes = 0) && decide (p.off.toNat = p.spReg * 128) }
  | .mmovBodyToVec p => { sel := sfIn 0 p.sf && p.msk.legal, tags := p.a.isVec && p.b.skl, fields := dQ8 p.a && p.b.clean && p.msk.clean && p.lit.isNone }
  | .mmovVecToBody p => { sel := decide (p.sf = 1) && p.msk.legal, tags := p.a.isVec && p.b.skl, fields := dQ p.d && p.a.clean && p.b.clean && p.msk.clean && p.lit.isNone }
  | .mmovStToVec p => { sel := decide (p.sf = 2) && p.msk.legal, tags := p.a.isVec && p.b.skl, fields := dQ8 p.a && p.b.clean && p.msk.clean && p.lit.isNone }
  | .mmovVecToSt p => { sel := decide (p.sf = 3) && p.msk.legal, tags := p.a.isVec && p.b.skl, fields := dQ p.d && p.a.clean && p.b.clean && p.msk.clean && p.lit.isNone }
  | .mscale p => { sel := sfIn 1 p.sf && p.msk.legal, tags := true, fields := dQ p.d && p.a.clean && p.b.isZero && p.msk.zero && p.lit.isNone }
  | .msoft p => { sel := sfIn 0 p.sf && p.msk.legal && p.fmtLegal, tags := p.base.sk && p.x.skl, fields := dQ p.d && p.base.clean && p.x.clean && p.msk.zero && p.matFmt && p.planesOk && decide (p.rdr = 0) && decide (p.off.toNat = p.csTile * 16384 + p.spReg * 128) && !(decide (p.d.toNat = p.csTile)) }
  | .mmask p => { sel := sfIn 1 p.sf && p.msk.legal, tags := p.a.skl && p.b.skl, fields := dQ p.d && p.a.clean && p.b.clean && p.msk.zero && p.lit.isNone }
  | .mmerge p => { sel := sfIn 0 p.sf && p.msk.legal, tags := p.a.isVec && p.b.skl, fields := dQ p.d && dQ8 p.a && p.b.clean && p.msk.zero && p.lit.isNone }
  | .mfin p => { sel := sfIn 0 p.sf && p.msk.legal && p.fmtLegal, tags := p.base.sk && p.x.skl, fields := dQ p.d && p.base.clean && p.x.clean && p.msk.zero && p.tileFmt && decide (p.planes = 0) && decide (p.off.toNat = p.spReg * 128) }
  | .vproj p => { sel := sfIn 1 p.sf && p.msk.legal && p.fmtLegal, tags := p.base.sk && p.x.sk, fields := dQ p.d && p.base.clean && p.x.clean && p.msk.zero && decide (p.fmt = 0) && decide (p.planes = 0) && decide (p.rdr = 0) }
  | .vpmerge p => { sel := sfIn 0 p.sf && p.msk.legal, tags := p.a.isVec && p.b.skl, fields := dQ p.d && dQ8 p.a && p.b.clean && p.msk.zero && p.lit.isNone }
  | .vpfin p => { sel := sfIn 0 p.sf && p.msk.legal && p.fmtLegal, tags := p.base.sk && p.x.skl, fields := dQ p.d && p.base.clean && p.x.clean && p.msk.zero && decide (p.fmt = 0) && decide (p.planes = 0) && decide (p.off.toNat = p.spReg * 128) }
  | .vpgrad p => { sel := sfIn 0 p.sf && p.msk.legal && p.fmtLegal, tags := p.base.sk && p.x.sk, fields := dQ p.d && p.base.clean && p.x.clean && p.msk.zero && decide (p.fmt = 0) && decide (p.planes = 0) && decide (p.rdr = 0) }
  | .eqclaim p => { sel := sfIn 0 p.sf && p.msk.legal, tags := p.a.sk, fields := dG p.d && p.a.clean && p.b.isZero && p.msk.zero && p.lit.isNone }
  | .tsend p => { sel := sfIn 0 p.sf && p.msk.legal, tags := p.a.sk && (p.b.isVec || p.b.sk), fields := dZ p.d && p.a.clean && p.b.clean && p.msk.zero && p.lit.isNone }
  | .ttake p => { sel := sfIn 0 p.sf && p.msk.legal, tags := p.a.sk, fields := p.a.clean && p.b.isZero && p.msk.zero && p.lit.isNone }
  | .ttakeM p => { sel := decide (p.sf = 1) && p.msk.legal, tags := p.a.sk && p.b.sk, fields := dZ p.d && p.a.clean && p.b.clean && p.msk.zero && p.lit.isNone }
  | .tlook p => { sel := sfIn 0 p.sf && p.msk.legal, tags := p.a.sk, fields := p.a.clean && p.b.isZero && p.msk.zero && p.lit.isNone }
  | .tlookM p => { sel := decide (p.sf = 1) && p.msk.legal, tags := p.a.sk && p.b.sk, fields := dZ p.d && p.a.clean && p.b.clean && p.msk.zero && p.lit.isNone }
  | .tdrop p => { sel := sfIn 0 p.sf, tags := p.a.sk, fields := dZ p.d && p.a.clean }
  | .twait p => { sel := sfIn 0 p.sf, tags := p.a.sk, fields := dZ p.d && p.a.clean }
  | .tmark p => { sel := sfIn 0 p.sf, tags := p.a.sk, fields := dZ p.d && p.a.clean }
  | .holdEntryRequest _ => ok
  | .nodeCopy p => { sel := sfIn 0 p.sf && p.msk.legal && decide (p.imm.toNat / 8 % 4 ≤ 1), tags := p.a.sk && p.b.sk && p.c.isVec, fields := dG p.d && p.a.clean && p.b.clean && p.c.clean && p.msk.zero && p.rmZero && p.immIn 9 && !(bit p.imm.toNat 2 && decide (p.imm.toNat / 8 % 4 = 1)) }
  | .nodeCall p => { sel := sfIn 0 p.sf && p.msk.legal, tags := p.a.sk && p.b.sk, fields := dG p.d && p.a.clean && p.b.clean && p.c.isZero && p.msk.zero && p.rmZero && p.immZero }
  | .nodeEdge p => { sel := sfIn 0 p.sf && p.msk.legal, tags := p.a.sk && p.b.sk, fields := dG p.d && p.a.clean && p.b.clean && p.msk.zero && p.lit.isNone }
  | .nodeArm p => { sel := sfIn 0 p.sf, tags := p.a.sk, fields := dZ p.d && p.a.clean }
  | .nodeArmDone p => { sel := decide (p.sf = 1), tags := p.a.sk, fields := dZ p.d && p.a.clean }
  | .nodeWait p => { sel := sfIn 0 p.sf, tags := p.a.sk, fields := dZ p.d && p.a.clean }
  | .copyNodeStart _ _ => ok
  | .copyNodeFinish _ _ => ok
  | .callNodeDelivery _ _ => ok
  | .publish p => { sel := sfIn 0 p.sf, tags := p.a.sk, fields := dZ p.d && p.a.clean }
  | .hwpub p => { sel := sfIn 1 p.sf && p.msk.legal, tags := p.a.skl && p.b.skl, fields := dZ p.d && p.a.clean && p.b.clean && p.msk.zero && p.lit.isNone }
  | .bar p => { sel := sfIn 0 p.sf, tags := p.a.skl, fields := dZ p.d && p.a.clean }
  | .barDom p => { sel := sfIn 0 p.sf, tags := true, fields := dZ p.d && p.a.isZero }
  | .barDomMessage _ => ok
  | .kvmap p => { sel := sfIn 1 p.sf && p.msk.legal, tags := p.a.sk && p.b.skl && p.c.skl, fields := dG p.d && p.a.clean && p.b.clean && p.c.clean && p.msk.zero && p.rmZero && p.immZero }
  | .kvapp p => { sel := sfIn 0 p.sf && p.msk.legal, tags := p.a.sk && p.b.skl, fields := dG p.d && p.a.clean && p.b.clean && p.c.isZero && p.msk.zero && p.rmZero && p.immZero }
  | .kvxl p => { sel := sfIn 0 p.sf && p.msk.legal, tags := p.a.sk && p.b.skl, fields := dG p.d && p.a.clean && p.b.clean && p.c.isZero && p.msk.zero && p.rmZero && p.immZero }
  | .kvxlE p => { sel := decide (p.sf = 1) && p.msk.legal, tags := p.a.sk && p.b.skl, fields := dG p.d && p.a.clean && p.b.clean && p.c.isZero && p.msk.zero && p.rmZero && p.immZero }
  | .kvfork p => { sel := sfIn 0 p.sf && p.msk.legal, tags := p.a.sk && p.b.sk && p.c.skl, fields := dG p.d && p.a.clean && p.b.clean && p.c.clean && p.msk.zero && p.rmZero && p.immZero }
  | .kvrel p => { sel := sfIn 0 p.sf && p.msk.legal, tags := p.a.sk && p.b.skl, fields := dG p.d && p.a.clean && p.b.clean && p.c.isZero && p.msk.zero && p.rmZero && p.immZero }
  | .kvscore p => { sel := sfIn 0 p.sf && p.msk.legal, tags := p.a.sk && p.b.skl && p.c.isVec, fields := dZ p.d && p.a.clean && p.b.clean && p.c.clean && p.msk.zero && p.rmZero && p.immZero }
  | .kvtopk p => { sel := sfIn 0 p.sf && p.msk.legal, tags := p.a.sk && p.b.skl && p.c.skl, fields := p.a.clean && p.b.clean && p.c.clean && p.msk.zero && p.rmZero && p.immZero }
  | .kvkeep p => { sel := sfIn 0 p.sf && p.msk.legal, tags := p.a.sk && p.c.isVec, fields := dG p.d && p.a.clean && p.b.isZero && p.c.clean && p.msk.zero && p.rmZero && p.immZero }
  | .kvpidx p => { sel := sfIn 0 p.sf && p.msk.legal, tags := p.a.sk && p.b.skl, fields := dG p.d && p.a.clean && p.b.clean && p.c.isZero && p.msk.zero && p.rmZero && p.immZero }
  | .kvpidxIns p => { sel := decide (p.sf = 1) && p.msk.legal, tags := p.a.sk && p.b.skl && p.c.skl, fields := dG p.d && p.a.clean && p.b.clean && p.c.clean && p.msk.zero && p.rmZero && p.immZero }
  | .kvRemoteRequest _ => ok
  | .remoteRequestArrival _ => ok
  | .remoteStoreAck _ => ok
  | .staleRefusal _ => ok
  | .mscReadRequest _ => ok
  | .mscWrite _ _ _ => ok
  | .memoryAccessPerform _ => ok
  | .hostMemoryAccess _ _ _ _ => ok
  | .hostQtailWrite _ _ _ => ok
  | .qcfgEnable _ _ _ => ok
  | .qcfgDisable _ _ _ => ok
  | .registerWrite _ _ _ => ok
  | .schedulerPlace _ _ => ok
  | .headAgeExpiry _ _ => ok
  | .marchPacketReceive _ _ => ok
  | .marchArrival _ => ok
  | .marchRelease _ => ok
  | .marchDisarm _ => ok
  | .marchTimeout _ _ => ok
  | .rankEndReport _ => ok
  | .launchCompletion _ _ => ok
  | .noticePost _ _ => ok
  | .forcedPreemption _ => ok
  | .launchSuspend _ _ _ => ok
  | .launchResume _ _ _ _ => ok
  | .watchdogFire _ => ok
  | .deadlockCheck _ => ok
  | .errrecActResume _ _ => ok
  | .errrecActAbort _ _ => ok
  | .errrecValidClear _ _ => ok
  | .domainActAbort _ => ok
  | .errorRecordForward _ => ok
  | .actForward _ => ok
  | .errcntClr _ => ok
  | .stackCountClr _ _ => ok
  | .xrelValidClear _ => ok
  | .tapIdcode _ => ok
  | .tapSolstat _ => ok
  | .tapSolsel _ _ => ok
  | .tapSoldata _ => ok
  | .tapSolfrz _ => ok
  | .tapSolrst _ => ok
  | .tapBypass _ _ => ok
  | .solsticeUnlock _ _ => ok
  | .spdmRequest _ _ => ok
  | .mboebFreeze _ => ok
  | .warmReset _ => ok
  | .powerOnBoot _ _ _ _ _ => ok
  | .d3hotEntry _ => ok
  | .d0Return _ => ok
  | .powerRemoval _ => ok
  | .thermalStepDown _ _ => ok
  | .thermalTrip _ _ => ok
  | .vcoreRemoval _ => ok
  | .powerCapWindow _ _ => ok
  | .refreshCommand _ _ _ _ => ok
  | .rowActivationAlert _ _ _ => ok
  | .activationBackoffEnd _ _ _ => ok
  | .droopVbaseLow _ _ => ok
  | .droopStopEnd _ _ => ok
  | .patrolSweep _ _ _ => ok
  | .bankCountCopy _ _ => ok
  | .migrationTrigger _ _ _ _ => ok
  | .migrationHoldTimeout _ => ok
  | .pageTierMigrate _ _ _ _ => ok
  | .autumnRun _ _ _ _ _ => ok
  | .constBankReload _ _ _ _ _ => ok
  | .tlbInvalidate _ _ _ _ => ok
  | .publishableSetup _ _ _ _ _ _ _ => ok
  | .frzEnable _ => ok
  | .cxlExtentAccept _ _ _ _ => ok
  | .cxlExtentRelease _ _ => ok
  | .ualinkLinkError _ _ => ok
  | .ualinkPortFailure _ _ => ok
  | .rankLost _ _ => ok
  | .hostLinkDown _ => ok
  | .hartResume _ _ => ok
  | .entryGrant _ => ok
  | .linkTrained _ _ => ok
  | .hostLinkUp _ => ok
  | .publishabilityWithdrawal _ _ => ok
  | .indexEntryRemoval _ _ _ _ _ => ok
  | .migratableMarkClear _ _ => ok
  | .forcedExtentWithdrawal _ _ => ok

/-- The lowest cause that an instruction's encoding breaks, or none (R416, R417). -/
def Instr.illFormed (i : Instr) : Option Cause :=
  let r := i.rules
  if !r.sel then some ⟨0x02, 0x08⟩ else if !r.tags then some ⟨0x03, 0x01⟩
  else if !r.fields then some ⟨0x03, 0x02⟩ else none

/-- The encoding rules permit the instruction. -/
def Instr.wellFormed (i : Instr) : Bool := i.illFormed == none

end Sys2Proof
end

