-- ==== Sys2Proof/Machine/Blocks.lean ====
section
/-! DEFINITION. Memory formats: their widths, Widen, Narrow, and the KB blocks. -/

namespace Sys2Proof.Machine

/-- Bits per element in memory of a format code, for a non-KB format; 0x0 is the element type's own (R99). -/
def fmtBits (fmt sew : Nat) : Nat :=
  match fmt with
  | 0x0 => sew
  | 0x1 | 0xA | 0xB => 16
  | 0x2 | 0xC | 0xD => 32
  | 0x3 | 0x4 | 0x8 | 0x9 => 8
  | 0xE => 64
  | _ => 0

/-- The float format of a memory format code (R99). -/
def fmtFT : Nat → Option FT
  | 0x1 => some .bf16
  | 0x2 => some .fp32
  | 0x3 => some .e4m3
  | 0x4 => some .e5m2
  | _ => none

/-- The float format of an element type code (R71). -/
def etypeFT : Nat → Option FT
  | 1 => some .bf16
  | 2 => some .fp32
  | _ => none

/-- Whether an element type code is an integer type (R71). -/
def etypeInt (e : Nat) : Bool := 4 ≤ e && e ≤ 7

/-- The pairing of memory format and element type (R100). -/
def pairOk (load : Bool) (fmt et : Nat) : Bool :=
  if fmt = 0 then true
  else if fmt ≤ 7 then (etypeFT et).isSome && (!load || kbBits fmt > 0 || decide (fmtBits fmt 0 ≤ sewOf et))
  else etypeInt et && (!load || decide (fmtBits fmt 0 ≤ sewOf et))

/-- Widen of a float pattern between formats: exact here; a NaN becomes canonical (R105). -/
def widenFloat (src dst : FT) (n : Nat) : Nat :=
  if src = dst then n % 2 ^ dst.width
  else match unpack src n with
    | .nan _ => dst.nan
    | v => (roundFV dst 0 v).1

/-- Widen of `n` read in a non-KB format into an element type (R105). -/
def widen (fmt et n : Nat) : Nat :=
  match fmtFT fmt, etypeFT et with
  | some f, some t => widenFloat f t n
  | _, _ =>
    let w := fmtBits fmt (sewOf et)
    let sg := fmt = 0x8 || fmt = 0xA || fmt = 0xC || fmt = 0xE
    if sg then wrap (sewOf et) (signed w n) else n % 2 ^ w

/-- Narrow of a float pattern to a float format under RM (R107): saturates with NSAT and NX, never sets OF. -/
def narrowFloat (src dst : FT) (rm n : Nat) : Nat × Flags :=
  if src = dst then (n % 2 ^ dst.width, 0)
  else match unpack src n with
    | .nan _ => (dst.nan, 0)
    | .inf neg => if dst = .e4m3 then (dst.maxFin neg, fNSAT ||| fNX) else (dst.inf neg, 0)
    | .fin neg m e =>
      if m = 0 then (dst.zero neg, 0)
      else
        let r := roundMag dst rm neg m e false
        if r.big dst then (dst.maxFin neg, fNSAT ||| fNX)
        else (pack dst neg r.m r.e, (if r.inexact then fNX else 0) ||| (if r.inexact && r.tiny then fUF else 0))

/-- Narrow of an exact quotient or other datum given with a sticky bit: used where R303 narrows O / l with one rounding. -/
def narrowExact (dst : FT) (neg : Bool) (m : Nat) (e : Int) (sticky : Bool) : Nat × Flags :=
  if m = 0 && !sticky then (dst.zero neg, 0)
  else
    let r := roundMag dst 0 neg m e sticky
    if r.big dst then (dst.maxFin neg, fNSAT ||| fNX)
    else (pack dst neg r.m r.e, (if r.inexact then fNX else 0) ||| (if r.inexact && r.tiny then fUF else 0))

/-- Narrow of an element to an integer memory format: saturates with NSAT (R107). A negative element saturates to 0 in an unsigned format that
is not narrower than SEW too, for which R107 states no value (DESIGN CHOICE, log 69). -/
def narrowInt (fmt sew n : Nat) : Nat × Flags :=
  let w := fmtBits fmt sew
  let sg := fmt = 0x8 || fmt = 0xA || fmt = 0xC || fmt = 0xE
  let x := signed sew n
  let lo : Int := if sg then -((2 ^ (w - 1) : Nat) : Int) else 0
  let hi : Int := ((if sg then 2 ^ (w - 1) - 1 else 2 ^ w - 1 : Nat) : Int)
  if w ≥ sew && sg then (wrap w x, 0)
  else if x < lo then (wrap w lo, fNSAT) else if hi < x then (wrap w hi, fNSAT) else (wrap w x, 0)

/-- Narrow of an element-type pattern to a non-KB format (R107). -/
def narrow (fmt et rm n : Nat) : Nat × Flags :=
  match fmtFT fmt, etypeFT et with
  | some f, some t => narrowFloat t f rm n
  | _, _ => if fmt = 0 then (n % 2 ^ sewOf et, 0) else narrowInt fmt (sewOf et) n

/-- A chunk's bytes for n mantissa bits (R102). -/
def kbChunk (n : Nat) : Nat := 128 + 64 * n

/-- The value that a KB block gives element position `i` from its first `p` mantissa planes (R101, R103): exponent byte,
quarter-shift byte, sign bit and the p most significant mantissa bits. A NaN block gives NaN. -/
def kbValue (ex sh : Nat) (sign : Bool) (mant p i : Nat) : FV :=
  if ex = 255 then .nan false
  else .fin sign mant ((ex : Int) - 127 - (bits sh (2 * (i % 16 / 4)) 2 : Nat) - ((p : Int) - 1))

/-- Widen of a KB value into BF16 or FP32, with the KB7 edge rule's flags (R105, R106). -/
def widenKB (t : FT) : FV → Nat × Flags
  | .nan _ => (t.nan, 0)
  | v => let r := roundFV t 0 v; (r.1, r.2 &&& (fUF ||| fNX))

/-- Quarter `q` holds element position `i` of a block. -/
def inQuarter (q i : Nat) : Bool := i % 16 / 4 == q

/-- The magnitude comparison of R108: RoundInt(a × 2^k) ≤ 2^n − 1 under RNE, an infinity never. -/
def kbFits (n : Nat) (k : Int) : FV → Bool
  | .nan _ => false
  | .inf _ => false
  | .fin _ m e => decide ((roundAt 0 false m (e + k) 0 false).1 ≤ 2 ^ n - 1)

/-- The greater of two magnitudes. -/
def maxMag (a b : FV) : FV :=
  let mag := fun v : FV => match v with
    | .fin _ m e => FV.fin false m e
    | .inf _ => .inf false
    | v => v
  if ltFV (mag a) (mag b) then mag b else mag a

/-- An encoded KB block: exponent, quarter shifts, and for each position sign and mantissa (R101, R108). -/
structure KBlock where
  ex : Nat
  sh : Nat
  signs : List (Nat × Bool)
  mants : List (Nat × Nat)
  flags : Flags
  deriving DecidableEq, Repr

/-- Narrow's encoding of a block from its active elements, each at its position 0 .. 15 (R108). -/
def kbEncode (n : Nat) (act : List (Nat × FV)) : KBlock :=
  if act.any (fun x => x.2.isNan) then ⟨255, 0, [], [], 0⟩
  else
    let zero := FV.fin false 0 0
    let amax := act.foldl (fun acc x => maxMag acc x.2) zero
    let ex := if amax.isZero then 0
      else ((upto 0 255).find? (fun (e : Nat) => kbFits n (127 + n - 1 - (e : Int)) amax)).getD 254
    let shift := fun q =>
      let pq := (act.filter (fun x => inQuarter q x.1)).foldl (fun acc x => maxMag acc x.2) zero
      (([3, 2, 1, 0] : List Nat).find? (fun (s : Nat) => kbFits n (127 + (s : Int) + n - 1 - ex) pq)).getD 0
    let one := fun (x : Nat × FV) =>
      let k : Int := 127 + (shift (x.1 % 16 / 4) : Int) + n - 1 - ex
      match x.2 with
      | .fin _ m e =>
        let r := roundAt 0 false m (e + k) 0 false
        if 2 ^ n - 1 < r.1 then (2 ^ n - 1, fNSAT ||| fNX) else (r.1, if r.2 then fNX else 0)
      | _ => (2 ^ n - 1, fNSAT ||| fNX)
    ⟨ex, shift 0 + 4 * shift 1 + 16 * shift 2 + 64 * shift 3, act.map (fun x => (x.1, x.2.neg)),
      act.map (fun x => (x.1, (one x).1)), act.foldl (fun f x => f ||| (one x).2) 0⟩

end Sys2Proof.Machine
end

