-- ==== Sys2Proof/Config.lean ====
section
/-! DEFINITION. What the spec leaves open: every constant here has no body, so nothing can be proved of its value. -/

namespace Sys2Proof.Config

/-- Cycles that the n-th step of a run takes; the spec's clock is not tied to the model's steps (log 5). -/
opaque stepCycles : Nat → Nat

/-- A choice the engine makes: the chunk order of MMA.F (R115) and the tree of VRED (R244), by choice counter (log 14). -/
opaque choice : Nat → Nat

/-- The ceiling that firmware sets for a stage of a share armed at a step, reduced by the model to the limits of R46 (log 18). -/
opaque ceiling : Nat → Nat → Nat
/-- The rebalance hold that firmware sets for a stage of a share armed at a step, reduced by the model to the limits of R46 (log 18). -/
opaque rebalanceHold : Nat → Nat → Nat

/-- Bits of mask `q` at positions that a VCFG brings into existence, by choice counter (R73 gives them no value, log 55). -/
opaque lostMask : Nat → Nat → Nat

/-- The body bytes of the n-th opaque vector frame and its size in 64-byte blocks (R400: the implementation chooses). -/
opaque frameByte : Nat → Nat → BitVec 8
/-- 64-byte blocks of the n-th opaque vector frame's body, reduced by the model below the limit of R219. -/
opaque frameBlocks : Nat → Nat

/-- The Rolnas device identifier that TAP IDCODE returns (R412); the spec gives no value. -/
opaque idcode : BitVec 32

/-- The word number `w` of Solstice domain `d` as read at the n-th read (R412: the map comes with each firmware release). -/
opaque solWord : Nat → Nat → Nat → BitVec 64

/-- Number of words in Solstice domain `d` (R412). -/
opaque solWords : Nat → Nat

/-- Whether an Ed448 signature verifies a digest under the public key of fuse slot `k` (R373). -/
opaque ed448Ok : Nat → List (BitVec 8) → List (BitVec 8) → Bool

/-- The module's Ed448 signature of a message, made by the Mboeb (R374). -/
opaque ed448Sign : List (BitVec 8) → List (BitVec 8)

/-- Whether an SPDM vendor-defined request is authenticated (R374, R412). -/
opaque spdmAuthentic : List (BitVec 8) → Bool

/-- The Mboeb's own firmware, which it measures (R374). -/
opaque mboebFirmware : List (BitVec 8)

/-- The fuse configuration as bytes, from the rollback counter and the revoked key slots (R374). -/
opaque fuseBytes : Nat → List Nat → List (BitVec 8)

/-- The active operating-point and power-cap settings as bytes (R374). -/
opaque settingBytes : Nat → Nat → List (BitVec 8)

/-- The body of the SPDM 1.3 answer to a request given the measurement blocks (R374). -/
opaque spdmAnswer : List (BitVec 8) → List (List (BitVec 8)) → List (BitVec 8)

/-- The Solstice word map: the number within its domain of the storage word that the machine names by a list of numbers (R459). -/
opaque solWordOf : List Nat → BitVec 40

/-- Average power, in watts, that the module would draw at an operating point, for the n-th 10 ms window (R376). -/
opaque windowPower : Nat → Nat → Nat

/-- The set of a line within its cache, by the cache's kind and the line's number, reduced by the model to the number of sets that the
cache's size and ways give (R134, R138, R140 give no set index, log 11). -/
opaque setIndex : Nat → Nat → Nat

/-- The value a spec rule leaves unstated, for the n-th such use (log 3). -/
opaque unstated : Nat → BitVec 64

end Sys2Proof.Config
end

