-- ==== Sys2Proof/Decode.lean ====
section
/-! DEFINITION. The decoder of heads, tails and lines, total on any bits and rejecting by cause; then the encoder. -/

namespace Sys2Proof

open Machine (bits signed word leNat leBytes)

/-- The tail formats (R179). -/
inductive Fmt where
  | t0 | t16r | t16q | t16j | t32r | t32l | t32s | t32j | t64r | t64l | t64m
  deriving DecidableEq, Repr

/-- The fields of one tail, by format. -/
inductive Body where
  | t0 (p : Head)
  | r1 (p : R1)
  | q (p : Q)
  | j16 (p : J)
  | r2 (p : R2)
  | l (p : L)
  | s (p : S)
  | j32 (p : J)
  | r3 (p : R3)
  | m (p : M)
  deriving DecidableEq, Repr

/-- TL of a format (R179). -/
def Fmt.tl : Fmt → Nat
  | .t0 => 0
  | .t16r | .t16q | .t16j => 1
  | .t32r | .t32l | .t32s | .t32j => 2
  | .t64r | .t64l | .t64m => 3

/-- Halfwords of a tail (R170). -/
def tailLen : Nat → Nat
  | 0 => 0
  | 1 => 1
  | 2 => 2
  | _ => 4

/-- A 10-bit source field read from a number (R174). -/
def readS10 (n : Nat) : S10 := ⟨BitVec.ofNat 2 (n / 256), BitVec.ofNat 8 n⟩
/-- A source field as its ten bits. -/
def S10.num (s : S10) : Nat := s.tag.toNat * 256 + s.val.toNat
/-- A mask field read from a number (R177). -/
def readMk (n : Nat) : Mk := ⟨BitVec.ofNat 2 (n / 8), BitVec.ofNat 3 n⟩
/-- A mask field as its five bits. -/
def Mk.num (m : Mk) : Nat := m.mode.toNat * 8 + m.q.toNat

/-- The fields of a tail value in a format (R179). -/
def readTail (f : Fmt) (sf : BitVec 4) (t : Nat) : Body :=
  match f with
  | .t0 => .t0 ⟨sf⟩
  | .t16r => .r1 ⟨sf, BitVec.ofNat 6 (t / 2 ^ 10), readS10 t⟩
  | .t16q => .q ⟨sf, BitVec.ofNat 6 (t / 2 ^ 10), BitVec.ofNat 3 (t / 2 ^ 7), BitVec.ofNat 3 (t / 2 ^ 4)⟩
  | .t16j => .j16 ⟨sf, (BitVec.ofNat 16 t).signExtend 32⟩
  | .t32r => .r2 ⟨sf, BitVec.ofNat 6 (t / 2 ^ 26), readS10 (t / 2 ^ 16), readS10 (t / 2 ^ 6), readMk (t / 2), none⟩
  | .t32l => .l ⟨sf, BitVec.ofNat 6 (t / 2 ^ 26), readS10 (t / 2 ^ 16), BitVec.ofNat 16 t⟩
  | .t32s => .s ⟨sf, readS10 (t / 2 ^ 22), readS10 (t / 2 ^ 12), BitVec.ofNat 12 t⟩
  | .t32j => .j32 ⟨sf, BitVec.ofNat 32 t⟩
  | .t64r => .r3 ⟨sf, BitVec.ofNat 6 (t / 2 ^ 58), readS10 (t / 2 ^ 48), readS10 (t / 2 ^ 38), readS10 (t / 2 ^ 28),
      readMk (t / 2 ^ 23), BitVec.ofNat 2 (t / 2 ^ 21), BitVec.ofNat 21 t⟩
  | .t64l => .r2 ⟨sf, BitVec.ofNat 6 (t / 2 ^ 58), readS10 (t / 2 ^ 48), readS10 (t / 2 ^ 38), readMk (t / 2 ^ 33),
      some (BitVec.ofNat 32 t)⟩
  | .t64m => .m ⟨sf, BitVec.ofNat 6 (t / 2 ^ 58), readS10 (t / 2 ^ 48), readS10 (t / 2 ^ 38), BitVec.ofNat 4 (t / 2 ^ 34),
      BitVec.ofNat 3 (t / 2 ^ 31), readMk (t / 2 ^ 26), BitVec.ofNat 4 (t / 2 ^ 22), BitVec.ofNat 22 t⟩

/-- The near formats of each major opcode (R182); none for a reserved or far-only opcode. -/
def nearFormats : Nat → List Fmt
  | 0x000 => [.t0]
  | 0x001 => [.t32r, .t64l]
  | 0x002 => [.t32r, .t64l]
  | 0x003 => [.t32r, .t64l]
  | 0x004 => [.t32r, .t64l]
  | 0x005 => [.t32r, .t64l]
  | 0x006 => [.t32r, .t64l]
  | 0x007 => [.t32r, .t64l]
  | 0x008 => [.t32r, .t64l]
  | 0x009 => [.t32r, .t64l]
  | 0x00A => [.t32r, .t64l]
  | 0x00B => [.t32r, .t64l]
  | 0x00C => [.t32r, .t64l]
  | 0x00D => [.t32r, .t64l]
  | 0x00E => [.t32r, .t64l]
  | 0x00F => [.t32r, .t64l]
  | 0x010 => [.t32r, .t64l]
  | 0x011 => [.t32r, .t64l]
  | 0x012 => [.t32r, .t64l]
  | 0x013 => [.t32r, .t64l]
  | 0x014 => [.t32r, .t64l]
  | 0x015 => [.t32r, .t64l]
  | 0x016 => [.t32r, .t64l]
  | 0x017 => [.t32r, .t64l]
  | 0x018 => [.t32r, .t64l]
  | 0x019 => [.t16r]
  | 0x01A => [.t16r]
  | 0x01B => [.t16r]
  | 0x01C => [.t16r]
  | 0x01D => [.t16r]
  | 0x01E => [.t16r, .t64l, .t32l]
  | 0x01F => [.t32r, .t64l]
  | 0x020 => [.t64r]
  | 0x021 => [.t64r]
  | 0x022 => [.t64r]
  | 0x040 => [.t32r, .t64l]
  | 0x041 => [.t32r, .t64l]
  | 0x042 => [.t32r, .t64l]
  | 0x043 => [.t32r, .t64l]
  | 0x044 => [.t16r]
  | 0x045 => [.t64r]
  | 0x046 => [.t32r, .t64l]
  | 0x047 => [.t32r, .t64l]
  | 0x048 => [.t32r, .t64l]
  | 0x049 => [.t64r]
  | 0x04A => [.t16r]
  | 0x060 => [.t32s]
  | 0x061 => [.t16j, .t32j]
  | 0x062 => [.t16j, .t32j]
  | 0x063 => [.t16r]
  | 0x064 => [.t0]
  | 0x065 => [.t32s]
  | 0x080 => [.t32l]
  | 0x081 => [.t32s]
  | 0x082 => [.t32s]
  | 0x083 => [.t64r]
  | 0x084 => [.t16r]
  | 0x085 => [.t32r]
  | 0x0A0 => [.t16r]
  | 0x0A1 => [.t0]
  | 0x0A2 => [.t32l]
  | 0x0A3 => [.t32l]
  | 0x0A4 => [.t16r]
  | 0x0A5 => [.t16r]
  | 0x0A6 => [.t0]
  | 0x0A7 => [.t16r]
  | 0x0A8 => [.t16r]
  | 0x0A9 => [.t16r]
  | 0x0AA => [.t16r]
  | 0x0AB => [.t16r]
  | 0x0AC => [.t0]
  | 0x0C0 => [.t16r]
  | 0x0C1 => [.t16r]
  | 0x0C2 => [.t16r]
  | 0x0C3 => [.t32r]
  | 0x0C4 => [.t32l]
  | 0x0C5 => [.t32l]
  | 0x0E0 => [.t32r, .t64l]
  | 0x0E1 => [.t32r, .t64l]
  | 0x0E2 => [.t32r, .t64l]
  | 0x0E3 => [.t64r]
  | 0x0E4 => [.t64r]
  | 0x0E5 => [.t64r]
  | 0x0E6 => [.t32r, .t64l]
  | 0x0E7 => [.t32r, .t64l]
  | 0x0E8 => [.t32r, .t64l]
  | 0x0E9 => [.t32r, .t64l]
  | 0x0EA => [.t32r, .t64l]
  | 0x0EB => [.t32r, .t64l]
  | 0x0EC => [.t32r, .t64l]
  | 0x0ED => [.t32r, .t64l]
  | 0x0EE => [.t32r, .t64l]
  | 0x0EF => [.t64r]
  | 0x0F0 => [.t32r]
  | 0x100 => [.t32r, .t64l]
  | 0x101 => [.t32r, .t64l]
  | 0x102 => [.t32r, .t64l]
  | 0x103 => [.t32r, .t64l]
  | 0x104 => [.t32r, .t64l]
  | 0x105 => [.t32r, .t64l]
  | 0x106 => [.t32r, .t64l]
  | 0x107 => [.t32r, .t64l]
  | 0x108 => [.t32r, .t64l]
  | 0x109 => [.t32r, .t64l]
  | 0x10A => [.t32r, .t64l]
  | 0x10B => [.t32r, .t64l]
  | 0x120 => [.t32r, .t64l]
  | 0x121 => [.t16q]
  | 0x122 => [.t16q]
  | 0x123 => [.t16q]
  | 0x124 => [.t16q]
  | 0x125 => [.t16q]
  | 0x126 => [.t32r, .t64l]
  | 0x127 => [.t32r]
  | 0x140 => [.t32r]
  | 0x141 => [.t32r]
  | 0x142 => [.t32r, .t64l]
  | 0x143 => [.t32r, .t64l]
  | 0x144 => [.t32r, .t64l]
  | 0x145 => [.t32r, .t64l]
  | 0x146 => [.t32r, .t64l]
  | 0x147 => [.t32r, .t64l]
  | 0x148 => [.t32r, .t64l]
  | 0x149 => [.t32r, .t64l]
  | 0x14A => [.t32r, .t64l]
  | 0x14B => [.t64r]
  | 0x14C => [.t64r]
  | 0x160 => [.t64m]
  | 0x161 => [.t64m]
  | 0x162 => [.t64m]
  | 0x163 => [.t64m]
  | 0x164 => [.t64m]
  | 0x165 => [.t64m]
  | 0x166 => [.t64m]
  | 0x167 => [.t64m]
  | 0x168 => [.t64m]
  | 0x169 => [.t64m]
  | 0x1A0 => [.t64r]
  | 0x1A1 => [.t64m]
  | 0x1A2 => [.t64m]
  | 0x1A3 => [.t64m]
  | 0x1A4 => [.t64m]
  | 0x1A5 => [.t16r]
  | 0x1A6 => [.t64m]
  | 0x1A7 => [.t64m]
  | 0x1A8 => [.t32r]
  | 0x1A9 => [.t32r]
  | 0x1AA => [.t64m]
  | 0x1AB => [.t32r]
  | 0x1AC => [.t64m]
  | 0x1AD => [.t32r]
  | 0x1AE => [.t64m]
  | 0x1AF => [.t32r]
  | 0x1B0 => [.t64m]
  | 0x1B1 => [.t64m]
  | 0x1C0 => [.t32r]
  | 0x1C1 => [.t32r]
  | 0x1C2 => [.t32r]
  | 0x1C3 => [.t16r]
  | 0x1C4 => [.t16r]
  | 0x1C5 => [.t16r]
  | 0x1C6 => [.t64r]
  | 0x1C7 => [.t64r]
  | 0x1C8 => [.t32r]
  | 0x1C9 => [.t16r]
  | 0x1CA => [.t16r]
  | 0x1CB => [.t16r]
  | 0x1CC => [.t32r]
  | 0x1CD => [.t32r]
  | 0x1CE => [.t16r]
  | 0x1CF => [.t16r]
  | 0x1E0 => [.t64r]
  | 0x1E1 => [.t64r]
  | 0x1E2 => [.t64r]
  | 0x1E3 => [.t64r]
  | 0x1E4 => [.t64r]
  | 0x1E5 => [.t64r]
  | 0x1E6 => [.t64r]
  | 0x1E7 => [.t64r]
  | 0x1E8 => [.t64r]
  | _ => []

/-- The far format of each major opcode (R182); none where PL = 1 is an exception condition. -/
def farFormats : Nat → List Fmt
  | 0x0E0 => [.t64r]
  | 0x0E1 => [.t64r]
  | 0x0E2 => [.t64r]
  | 0x0E3 => [.t64r]
  | 0x0E4 => [.t64r]
  | 0x0E5 => [.t64r]
  | 0x0EB => [.t64r]
  | 0x0EC => [.t64r]
  | 0x0ED => [.t64r]
  | 0x0EE => [.t64r]
  | 0x0EF => [.t64r]
  | 0x100 => [.t64r]
  | 0x101 => [.t64r]
  | 0x102 => [.t64r]
  | 0x103 => [.t64r]
  | 0x104 => [.t64r]
  | 0x105 => [.t64r]
  | 0x106 => [.t64r]
  | 0x107 => [.t64r]
  | 0x108 => [.t64r]
  | 0x109 => [.t64r]
  | 0x10A => [.t64r]
  | 0x10B => [.t64r]
  | 0x140 => [.t64r]
  | 0x141 => [.t64r]
  | 0x147 => [.t64r]
  | 0x160 => [.t64m]
  | 0x161 => [.t64m]
  | 0x162 => [.t64m]
  | 0x163 => [.t64m]
  | 0x164 => [.t64m]
  | 0x165 => [.t64m]
  | 0x168 => [.t64m]
  | 0x169 => [.t64m]
  | 0x180 => [.t64r]
  | 0x181 => [.t64m]
  | 0x182 => [.t64m]
  | 0x183 => [.t64r]
  | 0x184 => [.t64r]
  | 0x185 => [.t64m]
  | _ => []

/-- The instruction of a near opcode whose tail has this format (R182). -/
def nearT0 (op : Nat) (p : Head) : Option Instr :=
  match op with
  | 0x000 => some (.nop p)
  | 0x064 => some (.ret p)
  | 0x0A1 => some (.eret p)
  | 0x0A6 => some (.wfev p)
  | 0x0AC => some (.frz p)
  | _ => none

/-- The instruction of a near opcode whose tail has this format (R182). -/
def nearR2 (op : Nat) (p : R2) : Option Instr :=
  match op with
  | 0x001 => some (.add p)
  | 0x002 => some (.sub p)
  | 0x003 => some (.mul p)
  | 0x004 => some (.mulh p)
  | 0x005 => some (.mulhsu p)
  | 0x006 => some (.div p)
  | 0x007 => some (.divu p)
  | 0x008 => some (.rem p)
  | 0x009 => some (.remu p)
  | 0x00A => some (.and p)
  | 0x00B => some (.or p)
  | 0x00C => some (.xor p)
  | 0x00D => some (.andn p)
  | 0x00E => some (.sll p)
  | 0x00F => some (.srl p)
  | 0x010 => some (.sra p)
  | 0x011 => some (.rol p)
  | 0x012 => some (.ror p)
  | 0x013 => some (.slt p)
  | 0x014 => some (.sltu p)
  | 0x015 => some (.min p)
  | 0x016 => some (.max p)
  | 0x017 => some (.minu p)
  | 0x018 => some (.maxu p)
  | 0x01E => some (.liLit32 p)
  | 0x01F => if p.lit.isSome then some (.leaDisp p) else some (.lea p)
  | 0x040 => some (.fadd p)
  | 0x041 => some (.fsub p)
  | 0x042 => some (.fmul p)
  | 0x043 => some (.fdiv p)
  | 0x046 => some (.fmin p)
  | 0x047 => some (.fmax p)
  | 0x048 => some (.fcmp p)
  | 0x085 => some (.sc p)
  | 0x0C3 => if p.sf = 1 then some (.vbindOff p) else some (.vbind p)
  | 0x0E0 => some (.vadd p)
  | 0x0E1 => some (.vsub p)
  | 0x0E2 => some (.vmul p)
  | 0x0E6 => some (.vdiv p)
  | 0x0E7 => some (.vsqrt p)
  | 0x0E8 => some (.vrsqrt p)
  | 0x0E9 => some (.vexp2 p)
  | 0x0EA => some (.vlog2 p)
  | 0x0EB => some (.vmin p)
  | 0x0EC => some (.vmax p)
  | 0x0ED => some (.vabs p)
  | 0x0EE => some (.vneg p)
  | 0x0F0 => some (.vclass p)
  | 0x100 => some (.viadd p)
  | 0x101 => some (.visub p)
  | 0x102 => some (.vimul p)
  | 0x103 => some (.vimulh p)
  | 0x104 => some (.vand p)
  | 0x105 => some (.vor p)
  | 0x106 => some (.vxor p)
  | 0x107 => some (.vshl p)
  | 0x108 => some (.vshr p)
  | 0x109 => some (.vsra p)
  | 0x10A => some (.vimin p)
  | 0x10B => some (.vimax p)
  | 0x120 => some (.vcmp p)
  | 0x126 => some (.vsel p)
  | 0x127 => some (.viota p)
  | 0x140 => some (.vred p)
  | 0x141 => some (.vredo p)
  | 0x142 => some (.vscan p)
  | 0x143 => some (.vperm p)
  | 0x144 => some (.vslide p)
  | 0x145 => some (.vcompress p)
  | 0x146 => some (.vexpand p)
  | 0x147 => some (.vbcast p)
  | 0x148 => some (.vext p)
  | 0x149 => some (.vins p)
  | 0x14A => some (.vdupm p)
  | 0x1A8 => if p.sf = 1 then some (.mmovVecToBody p) else if p.sf = 2 then some (.mmovStToVec p) else if p.sf = 3 then some (.mmovVecToSt p) else some (.mmovBodyToVec p)
  | 0x1A9 => some (.mscale p)
  | 0x1AB => some (.mmerge p)
  | 0x1AD => some (.mmask p)
  | 0x1AF => some (.vpmerge p)
  | 0x1C0 => some (.tsend p)
  | 0x1C1 => if p.sf = 1 then some (.ttakeM p) else some (.ttake p)
  | 0x1C2 => if p.sf = 1 then some (.tlookM p) else some (.tlook p)
  | 0x1C8 => some (.nodeEdge p)
  | 0x1CC => some (.hwpub p)
  | 0x1CD => some (.eqclaim p)
  | _ => none

/-- The instruction of a near opcode whose tail has this format (R182). -/
def nearR1 (op : Nat) (p : R1) : Option Instr :=
  match op with
  | 0x019 => some (.clz p)
  | 0x01A => some (.ctz p)
  | 0x01B => some (.popc p)
  | 0x01C => some (.sext p)
  | 0x01D => some (.zext p)
  | 0x01E => some (.liReg p)
  | 0x044 => some (.fsqrt p)
  | 0x04A => some (.fclass p)
  | 0x063 => some (.jr p)
  | 0x084 => some (.lr p)
  | 0x0A0 => some (.trap p)
  | 0x0A4 => some (.pause p)
  | 0x0A5 => some (.yield p)
  | 0x0A7 => if p.sf = 1 then some (.fenceStk p) else some (.fenceSv p)
  | 0x0A8 => some (.rel p)
  | 0x0A9 => some (.acq p)
  | 0x0AA => some (.vsave p)
  | 0x0AB => some (.vrstr p)
  | 0x0C0 => some (.vcfg p)
  | 0x0C1 => some (.vsetl p)
  | 0x0C2 => some (.vqlen p)
  | 0x1A5 => some (.mzero p)
  | 0x1C3 => some (.tdrop p)
  | 0x1C4 => some (.twait p)
  | 0x1C5 => some (.tmark p)
  | 0x1C9 => if p.sf = 1 then some (.nodeArmDone p) else some (.nodeArm p)
  | 0x1CA => some (.nodeWait p)
  | 0x1CB => some (.publish p)
  | 0x1CE => some (.bar p)
  | 0x1CF => some (.barDom p)
  | _ => none

/-- The instruction of a near opcode whose tail has this format (R182). -/
def nearL (op : Nat) (p : L) : Option Instr :=
  match op with
  | 0x01E => some (.liHn p)
  | 0x080 => some (.ld p)
  | 0x0A2 => some (.srr p)
  | 0x0A3 => some (.srw p)
  | 0x0C4 => some (.vspill p)
  | 0x0C5 => some (.vfill p)
  | _ => none

/-- The instruction of a near opcode whose tail has this format (R182). -/
def nearR3 (op : Nat) (p : R3) : Option Instr :=
  match op with
  | 0x020 => some (.sel p)
  | 0x021 => some (.bfx p)
  | 0x022 => some (.bfi p)
  | 0x045 => some (.fmadd p)
  | 0x049 => some (.fcvt p)
  | 0x083 => some (.amo p)
  | 0x0E3 => some (.vfma p)
  | 0x0E4 => some (.vfms p)
  | 0x0E5 => some (.vnfma p)
  | 0x0EF => some (.vcvt p)
  | 0x14B => some (.vsortk p)
  | 0x14C => some (.vtopk p)
  | 0x1A0 => some (.mshape p)
  | 0x1C6 => some (.nodeCopy p)
  | 0x1C7 => some (.nodeCall p)
  | 0x1E0 => some (.kvmap p)
  | 0x1E1 => some (.kvapp p)
  | 0x1E2 => if p.sf = 1 then some (.kvxlE p) else some (.kvxl p)
  | 0x1E3 => some (.kvfork p)
  | 0x1E4 => some (.kvrel p)
  | 0x1E5 => some (.kvscore p)
  | 0x1E6 => some (.kvtopk p)
  | 0x1E7 => some (.kvkeep p)
  | 0x1E8 => if p.sf = 1 then some (.kvpidxIns p) else some (.kvpidx p)
  | _ => none

/-- The instruction of a near opcode whose tail has this format (R182). -/
def nearS (op : Nat) (p : S) : Option Instr :=
  match op with
  | 0x060 => some (.bCc p)
  | 0x065 => some (.loop p)
  | 0x081 => some (.st p)
  | 0x082 => some (.pref p)
  | _ => none

/-- The instruction of a near opcode whose tail has this format (R182). -/
def nearJ16 (op : Nat) (p : J) : Option Instr :=
  match op with
  | 0x061 => some (.jShort p)
  | 0x062 => some (.jalShort p)
  | _ => none

/-- The instruction of a near opcode whose tail has this format (R182). -/
def nearJ32 (op : Nat) (p : J) : Option Instr :=
  match op with
  | 0x061 => some (.jLong p)
  | 0x062 => some (.jalLong p)
  | _ => none

/-- The instruction of a near opcode whose tail has this format (R182). -/
def nearQ (op : Nat) (p : Q) : Option Instr :=
  match op with
  | 0x121 => some (.qand p)
  | 0x122 => some (.qor p)
  | 0x123 => some (.qnot p)
  | 0x124 => some (.qpop p)
  | 0x125 => some (.qfirst p)
  | _ => none

/-- The instruction of a near opcode whose tail has this format (R182). -/
def nearM (op : Nat) (p : M) : Option Instr :=
  match op with
  | 0x160 => some (.vld p)
  | 0x161 => some (.vst p)
  | 0x162 => some (.vlds p)
  | 0x163 => some (.vsts p)
  | 0x164 => some (.vldx p)
  | 0x165 => some (.vstx p)
  | 0x166 => some (.vldt p)
  | 0x167 => some (.vstt p)
  | 0x168 => some (.vamo p)
  | 0x169 => some (.vpref p)
  | 0x1A1 => some (.mmaO p)
  | 0x1A2 => some (.mmaF p)
  | 0x1A3 => some (.mgrpO p)
  | 0x1A4 => some (.mgrpF p)
  | 0x1A6 => some (.mld p)
  | 0x1A7 => some (.mst p)
  | 0x1AA => some (.msoft p)
  | 0x1AC => some (.mfin p)
  | 0x1AE => some (.vproj p)
  | 0x1B0 => some (.vpfin p)
  | 0x1B1 => some (.vpgrad p)
  | _ => none

/-- The instruction of a far opcode whose tail has this format (R182). -/
def farR3 (op : Nat) (p : R3) : Option Instr :=
  match op with
  | 0x0E0 => some (.fVadd p)
  | 0x0E1 => some (.fVsub p)
  | 0x0E2 => some (.fVmul p)
  | 0x0E3 => some (.fVfma p)
  | 0x0E4 => some (.fVfms p)
  | 0x0E5 => some (.fVnfma p)
  | 0x0EB => some (.fVmin p)
  | 0x0EC => some (.fVmax p)
  | 0x0ED => some (.fVabs p)
  | 0x0EE => some (.fVneg p)
  | 0x0EF => some (.fVcvt p)
  | 0x100 => some (.fViadd p)
  | 0x101 => some (.fVisub p)
  | 0x102 => some (.fVimul p)
  | 0x103 => some (.fVimulh p)
  | 0x104 => some (.fVand p)
  | 0x105 => some (.fVor p)
  | 0x106 => some (.fVxor p)
  | 0x107 => some (.fVshl p)
  | 0x108 => some (.fVshr p)
  | 0x109 => some (.fVsra p)
  | 0x10A => some (.fVimin p)
  | 0x10B => some (.fVimax p)
  | 0x140 => some (.fVred p)
  | 0x141 => some (.fVredo p)
  | 0x147 => some (.fVbcast p)
  | 0x180 => some (.fexpr p)
  | 0x183 => some (.fget p)
  | 0x184 => some (.fput p)
  | _ => none

/-- The instruction of a far opcode whose tail has this format (R182). -/
def farM (op : Nat) (p : M) : Option Instr :=
  match op with
  | 0x160 => some (.fVld p)
  | 0x161 => some (.fVst p)
  | 0x162 => some (.fVlds p)
  | 0x163 => some (.fVsts p)
  | 0x164 => some (.fVldx p)
  | 0x165 => some (.fVstx p)
  | 0x168 => some (.fVamo p)
  | 0x169 => some (.fVpref p)
  | 0x181 => some (.fdot p)
  | 0x182 => some (.fred p)
  | 0x185 => some (.fattn p)
  | _ => none

/-- The instruction of an opcode, a placement and the fields of its tail (R182). -/
def ofBody (op : Nat) (pl : Bool) : Body → Option Instr
  | .t0 p => if pl then none else nearT0 op p
  | .r1 p => if pl then none else nearR1 op p
  | .q p => if pl then none else nearQ op p
  | .j16 p => if pl then none else nearJ16 op p
  | .r2 p => if pl then none else nearR2 op p
  | .l p => if pl then none else nearL op p
  | .s p => if pl then none else nearS op p
  | .j32 p => if pl then none else nearJ32 op p
  | .r3 p => if pl then farR3 op p else nearR3 op p
  | .m p => if pl then farM op p else nearM op p

/-- The format in which the fields of a tail are laid out. -/
def Body.fmt : Body → Fmt
  | .t0 _ => .t0
  | .r1 _ => .t16r
  | .q _ => .t16q
  | .j16 _ => .t16j
  | .r2 p => if p.lit.isSome then .t64l else .t32r
  | .l _ => .t32l
  | .s _ => .t32s
  | .j32 _ => .t32j
  | .r3 _ => .t64r
  | .m _ => .t64m

/-- SF of the head that goes with the fields. -/
def Body.sf : Body → BitVec 4
  | .t0 p => p.sf
  | .r1 p => p.sf
  | .q p => p.sf
  | .j16 p => p.sf
  | .r2 p => p.sf
  | .l p => p.sf
  | .s p => p.sf
  | .j32 p => p.sf
  | .r3 p => p.sf
  | .m p => p.sf

/-- The tail value of the fields (R179). -/
def Body.tail : Body → Nat
  | .t0 _ => 0
  | .r1 p => p.d.toNat * 2 ^ 10 + p.a.num
  | .q p => p.d.toNat * 2 ^ 10 + p.qa.toNat * 2 ^ 7 + p.qb.toNat * 2 ^ 4
  | .j16 p => p.disp.toNat % 2 ^ 16
  | .r2 p => match p.lit with
    | none => p.d.toNat * 2 ^ 26 + p.a.num * 2 ^ 16 + p.b.num * 2 ^ 6 + p.msk.num * 2
    | some v => p.d.toNat * 2 ^ 58 + p.a.num * 2 ^ 48 + p.b.num * 2 ^ 38 + p.msk.num * 2 ^ 33 + v.toNat
  | .l p => p.d.toNat * 2 ^ 26 + p.a.num * 2 ^ 16 + p.imm.toNat
  | .s p => p.a.num * 2 ^ 22 + p.b.num * 2 ^ 12 + p.imm.toNat
  | .j32 p => p.disp.toNat
  | .r3 p => p.d.toNat * 2 ^ 58 + p.a.num * 2 ^ 48 + p.b.num * 2 ^ 38 + p.c.num * 2 ^ 28 + p.msk.num * 2 ^ 23
      + p.rm.toNat * 2 ^ 21 + p.imm.toNat
  | .m p => p.d.toNat * 2 ^ 58 + p.base.num * 2 ^ 48 + p.x.num * 2 ^ 38 + p.fmt.toNat * 2 ^ 34 + p.planes.toNat * 2 ^ 31
      + p.msk.num * 2 ^ 26 + p.rdr.toNat * 2 ^ 22 + p.off.toNat

/-- The head of an opcode, a placement, an SF and a TL (R169). -/
def mkHead (tl op : Nat) (pl : Bool) (sf : BitVec 4) : Half :=
  BitVec.ofNat 16 (tl * 2 ^ 14 + op * 2 ^ 5 + (if pl then 1 else 0) * 2 ^ 4 + sf.toNat)

/-- The format of the placement that has tail length `tl`, if the opcode has one. -/
def pickFmt (tl : Nat) (fs : List Fmt) : Option Fmt := fs.find? (fun f => f.tl == tl)

/-- One head and the value of its tail, decoded; or the cause it reports, in the order of R419 and R416. -/
def decode (head : Half) (tail : Nat) : Except Cause Instr :=
  let h := head.toNat
  let op := bits h 5 9
  let pl := bits h 4 1 == 1
  let tl := bits h 14 2
  let near := nearFormats op
  let far := farFormats op
  if near.isEmpty && far.isEmpty then .error ⟨0x02, 0x04⟩
  else if (pickFmt tl near).isNone && (pickFmt tl far).isNone then .error ⟨0x02, 0x05⟩
  else if pl && far.isEmpty then .error ⟨0x02, 0x06⟩
  else if !pl && near.isEmpty then .error ⟨0x02, 0x07⟩
  else match pickFmt tl (if pl then far else near) with
    | none => .error ⟨0x02, 0x05⟩
    | some f =>
      let b := readTail f (BitVec.ofNat 4 h) tail
      match ofBody op pl b with
      | none => .error ⟨0x02, 0x04⟩
      | some i => match i.illFormed with
        | some c => .error c
        | none => if b.tail = tail then .ok i else .error ⟨0x03, 0x02⟩

/-- TL of a head (R169). -/
def headTl (head : Half) : Nat := bits head.toNat 14 2

/-- What a line's descriptor and heads say: malformed with its cause, or the number of heads (R168, R171, R418). -/
def lineHeads (h : List Half) : Except Cause Nat :=
  let d := (h.getD 0 0).toNat
  let n := d % 32
  let s := ((h.drop 1).take n).foldl (fun acc x => acc + tailLen (headTl x)) 0
  if n = 0 then .error ⟨0x02, 0x01⟩ else if d / 32 ≠ 0 then .error ⟨0x02, 0x02⟩
  else if 31 < n + s then .error ⟨0x02, 0x03⟩ else .ok n

/-- The value of the tail of head `slot`: halfwords from the back of the line in head order (R170). -/
def lineTail (h : List Half) (slot : Nat) : Nat :=
  let s := ((h.drop 1).take (slot - 1)).foldl (fun acc x => acc + tailLen (headTl x)) 0
  let n := tailLen (headTl (h.getD slot 0))
  ((h.drop (32 - s - n)).take n).foldr (fun x acc => x.toNat + 2 ^ 16 * acc) 0

/-- The 32 halfwords of a line's 64 bytes (R168). -/
def halves : List Byte → List Half
  | lo :: hi :: t => BitVec.ofNat 16 (lo.toNat + 256 * hi.toNat) :: halves t
  | _ => []

/-- The opcode, the placement and the tail fields of an instruction; a device event has none (R169, R182). -/
def Instr.body : Instr → Option (Nat × Bool × Body)
  | .nop p => some (0x000, false, .t0 p)
  | .add p => some (0x001, false, .r2 p)
  | .sub p => some (0x002, false, .r2 p)
  | .mul p => some (0x003, false, .r2 p)
  | .mulh p => some (0x004, false, .r2 p)
  | .mulhsu p => some (0x005, false, .r2 p)
  | .div p => some (0x006, false, .r2 p)
  | .divu p => some (0x007, false, .r2 p)
  | .rem p => some (0x008, false, .r2 p)
  | .remu p => some (0x009, false, .r2 p)
  | .and p => some (0x00A, false, .r2 p)
  | .or p => some (0x00B, false, .r2 p)
  | .xor p => some (0x00C, false, .r2 p)
  | .andn p => some (0x00D, false, .r2 p)
  | .sll p => some (0x00E, false, .r2 p)
  | .srl p => some (0x00F, false, .r2 p)
  | .sra p => some (0x010, false, .r2 p)
  | .rol p => some (0x011, false, .r2 p)
  | .ror p => some (0x012, false, .r2 p)
  | .slt p => some (0x013, false, .r2 p)
  | .sltu p => some (0x014, false, .r2 p)
  | .min p => some (0x015, false, .r2 p)
  | .max p => some (0x016, false, .r2 p)
  | .minu p => some (0x017, false, .r2 p)
  | .maxu p => some (0x018, false, .r2 p)
  | .clz p => some (0x019, false, .r1 p)
  | .ctz p => some (0x01A, false, .r1 p)
  | .popc p => some (0x01B, false, .r1 p)
  | .sext p => some (0x01C, false, .r1 p)
  | .zext p => some (0x01D, false, .r1 p)
  | .liReg p => some (0x01E, false, .r1 p)
  | .liLit32 p => some (0x01E, false, .r2 p)
  | .liHn p => some (0x01E, false, .l p)
  | .lea p => some (0x01F, false, .r2 p)
  | .leaDisp p => some (0x01F, false, .r2 p)
  | .sel p => some (0x020, false, .r3 p)
  | .bfx p => some (0x021, false, .r3 p)
  | .bfi p => some (0x022, false, .r3 p)
  | .fadd p => some (0x040, false, .r2 p)
  | .fsub p => some (0x041, false, .r2 p)
  | .fmul p => some (0x042, false, .r2 p)
  | .fdiv p => some (0x043, false, .r2 p)
  | .fsqrt p => some (0x044, false, .r1 p)
  | .fmadd p => some (0x045, false, .r3 p)
  | .fmin p => some (0x046, false, .r2 p)
  | .fmax p => some (0x047, false, .r2 p)
  | .fcmp p => some (0x048, false, .r2 p)
  | .fcvt p => some (0x049, false, .r3 p)
  | .fclass p => some (0x04A, false, .r1 p)
  | .bCc p => some (0x060, false, .s p)
  | .jShort p => some (0x061, false, .j16 p)
  | .jLong p => some (0x061, false, .j32 p)
  | .jalShort p => some (0x062, false, .j16 p)
  | .jalLong p => some (0x062, false, .j32 p)
  | .jr p => some (0x063, false, .r1 p)
  | .ret p => some (0x064, false, .t0 p)
  | .loop p => some (0x065, false, .s p)
  | .ld p => some (0x080, false, .l p)
  | .st p => some (0x081, false, .s p)
  | .pref p => some (0x082, false, .s p)
  | .amo p => some (0x083, false, .r3 p)
  | .lr p => some (0x084, false, .r1 p)
  | .sc p => some (0x085, false, .r2 p)
  | .trap p => some (0x0A0, false, .r1 p)
  | .eret p => some (0x0A1, false, .t0 p)
  | .srr p => some (0x0A2, false, .l p)
  | .srw p => some (0x0A3, false, .l p)
  | .pause p => some (0x0A4, false, .r1 p)
  | .pauseExpiry _ => none
  | .yield p => some (0x0A5, false, .r1 p)
  | .wfev p => some (0x0A6, false, .t0 p)
  | .fenceSv p => some (0x0A7, false, .r1 p)
  | .fenceStk p => some (0x0A7, false, .r1 p)
  | .rel p => some (0x0A8, false, .r1 p)
  | .acq p => some (0x0A9, false, .r1 p)
  | .vsave p => some (0x0AA, false, .r1 p)
  | .vrstr p => some (0x0AB, false, .r1 p)
  | .frz p => some (0x0AC, false, .t0 p)
  | .vcfg p => some (0x0C0, false, .r1 p)
  | .vsetl p => some (0x0C1, false, .r1 p)
  | .vqlen p => some (0x0C2, false, .r1 p)
  | .vbind p => some (0x0C3, false, .r2 p)
  | .vbindOff p => some (0x0C3, false, .r2 p)
  | .vspill p => some (0x0C4, false, .l p)
  | .vfill p => some (0x0C5, false, .l p)
  | .vadd p => some (0x0E0, false, .r2 p)
  | .vsub p => some (0x0E1, false, .r2 p)
  | .vmul p => some (0x0E2, false, .r2 p)
  | .vfma p => some (0x0E3, false, .r3 p)
  | .vfms p => some (0x0E4, false, .r3 p)
  | .vnfma p => some (0x0E5, false, .r3 p)
  | .vdiv p => some (0x0E6, false, .r2 p)
  | .vsqrt p => some (0x0E7, false, .r2 p)
  | .vrsqrt p => some (0x0E8, false, .r2 p)
  | .vexp2 p => some (0x0E9, false, .r2 p)
  | .vlog2 p => some (0x0EA, false, .r2 p)
  | .vmin p => some (0x0EB, false, .r2 p)
  | .vmax p => some (0x0EC, false, .r2 p)
  | .vabs p => some (0x0ED, false, .r2 p)
  | .vneg p => some (0x0EE, false, .r2 p)
  | .vcvt p => some (0x0EF, false, .r3 p)
  | .vclass p => some (0x0F0, false, .r2 p)
  | .viadd p => some (0x100, false, .r2 p)
  | .visub p => some (0x101, false, .r2 p)
  | .vimul p => some (0x102, false, .r2 p)
  | .vimulh p => some (0x103, false, .r2 p)
  | .vand p => some (0x104, false, .r2 p)
  | .vor p => some (0x105, false, .r2 p)
  | .vxor p => some (0x106, false, .r2 p)
  | .vshl p => some (0x107, false, .r2 p)
  | .vshr p => some (0x108, false, .r2 p)
  | .vsra p => some (0x109, false, .r2 p)
  | .vimin p => some (0x10A, false, .r2 p)
  | .vimax p => some (0x10B, false, .r2 p)
  | .fVadd p => some (0x0E0, true, .r3 p)
  | .fVsub p => some (0x0E1, true, .r3 p)
  | .fVmul p => some (0x0E2, true, .r3 p)
  | .fVfma p => some (0x0E3, true, .r3 p)
  | .fVfms p => some (0x0E4, true, .r3 p)
  | .fVnfma p => some (0x0E5, true, .r3 p)
  | .fVmin p => some (0x0EB, true, .r3 p)
  | .fVmax p => some (0x0EC, true, .r3 p)
  | .fVabs p => some (0x0ED, true, .r3 p)
  | .fVneg p => some (0x0EE, true, .r3 p)
  | .fVcvt p => some (0x0EF, true, .r3 p)
  | .fViadd p => some (0x100, true, .r3 p)
  | .fVisub p => some (0x101, true, .r3 p)
  | .fVimul p => some (0x102, true, .r3 p)
  | .fVimulh p => some (0x103, true, .r3 p)
  | .fVand p => some (0x104, true, .r3 p)
  | .fVor p => some (0x105, true, .r3 p)
  | .fVxor p => some (0x106, true, .r3 p)
  | .fVshl p => some (0x107, true, .r3 p)
  | .fVshr p => some (0x108, true, .r3 p)
  | .fVsra p => some (0x109, true, .r3 p)
  | .fVimin p => some (0x10A, true, .r3 p)
  | .fVimax p => some (0x10B, true, .r3 p)
  | .vcmp p => some (0x120, false, .r2 p)
  | .qand p => some (0x121, false, .q p)
  | .qor p => some (0x122, false, .q p)
  | .qnot p => some (0x123, false, .q p)
  | .qpop p => some (0x124, false, .q p)
  | .qfirst p => some (0x125, false, .q p)
  | .vsel p => some (0x126, false, .r2 p)
  | .viota p => some (0x127, false, .r2 p)
  | .vred p => some (0x140, false, .r2 p)
  | .vredo p => some (0x141, false, .r2 p)
  | .fVred p => some (0x140, true, .r3 p)
  | .fVredo p => some (0x141, true, .r3 p)
  | .vscan p => some (0x142, false, .r2 p)
  | .vperm p => some (0x143, false, .r2 p)
  | .vslide p => some (0x144, false, .r2 p)
  | .vcompress p => some (0x145, false, .r2 p)
  | .vexpand p => some (0x146, false, .r2 p)
  | .vbcast p => some (0x147, false, .r2 p)
  | .fVbcast p => some (0x147, true, .r3 p)
  | .vext p => some (0x148, false, .r2 p)
  | .vins p => some (0x149, false, .r2 p)
  | .vdupm p => some (0x14A, false, .r2 p)
  | .vsortk p => some (0x14B, false, .r3 p)
  | .vtopk p => some (0x14C, false, .r3 p)
  | .vld p => some (0x160, false, .m p)
  | .vst p => some (0x161, false, .m p)
  | .vlds p => some (0x162, false, .m p)
  | .vsts p => some (0x163, false, .m p)
  | .vldx p => some (0x164, false, .m p)
  | .vstx p => some (0x165, false, .m p)
  | .vldt p => some (0x166, false, .m p)
  | .vstt p => some (0x167, false, .m p)
  | .vamo p => some (0x168, false, .m p)
  | .vpref p => some (0x169, false, .m p)
  | .fVld p => some (0x160, true, .m p)
  | .fVst p => some (0x161, true, .m p)
  | .fVlds p => some (0x162, true, .m p)
  | .fVsts p => some (0x163, true, .m p)
  | .fVldx p => some (0x164, true, .m p)
  | .fVstx p => some (0x165, true, .m p)
  | .fVamo p => some (0x168, true, .m p)
  | .fVpref p => some (0x169, true, .m p)
  | .fexpr p => some (0x180, true, .r3 p)
  | .fdot p => some (0x181, true, .m p)
  | .fred p => some (0x182, true, .m p)
  | .fget p => some (0x183, true, .r3 p)
  | .fput p => some (0x184, true, .r3 p)
  | .fattn p => some (0x185, true, .m p)
  | .farRequestArrival _ => none
  | .farCompletion _ => none
  | .mshape p => some (0x1A0, false, .r3 p)
  | .mmaO p => some (0x1A1, false, .m p)
  | .mmaF p => some (0x1A2, false, .m p)
  | .mgrpO p => some (0x1A3, false, .m p)
  | .mgrpF p => some (0x1A4, false, .m p)
  | .mzero p => some (0x1A5, false, .r1 p)
  | .mld p => some (0x1A6, false, .m p)
  | .mst p => some (0x1A7, false, .m p)
  | .mmovBodyToVec p => some (0x1A8, false, .r2 p)
  | .mmovVecToBody p => some (0x1A8, false, .r2 p)
  | .mmovStToVec p => some (0x1A8, false, .r2 p)
  | .mmovVecToSt p => some (0x1A8, false, .r2 p)
  | .mscale p => some (0x1A9, false, .r2 p)
  | .msoft p => some (0x1AA, false, .m p)
  | .mmask p => some (0x1AD, false, .r2 p)
  | .mmerge p => some (0x1AB, false, .r2 p)
  | .mfin p => some (0x1AC, false, .m p)
  | .vproj p => some (0x1AE, false, .m p)
  | .vpmerge p => some (0x1AF, false, .r2 p)
  | .vpfin p => some (0x1B0, false, .m p)
  | .vpgrad p => some (0x1B1, false, .m p)
  | .eqclaim p => some (0x1CD, false, .r2 p)
  | .tsend p => some (0x1C0, false, .r2 p)
  | .ttake p => some (0x1C1, false, .r2 p)
  | .ttakeM p => some (0x1C1, false, .r2 p)
  | .tlook p => some (0x1C2, false, .r2 p)
  | .tlookM p => some (0x1C2, false, .r2 p)
  | .tdrop p => some (0x1C3, false, .r1 p)
  | .twait p => some (0x1C4, false, .r1 p)
  | .tmark p => some (0x1C5, false, .r1 p)
  | .holdEntryRequest _ => none
  | .nodeCopy p => some (0x1C6, false, .r3 p)
  | .nodeCall p => some (0x1C7, false, .r3 p)
  | .nodeEdge p => some (0x1C8, false, .r2 p)
  | .nodeArm p => some (0x1C9, false, .r1 p)
  | .nodeArmDone p => some (0x1C9, false, .r1 p)
  | .nodeWait p => some (0x1CA, false, .r1 p)
  | .copyNodeStart _ _ => none
  | .copyNodeFinish _ _ => none
  | .callNodeDelivery _ _ => none
  | .publish p => some (0x1CB, false, .r1 p)
  | .hwpub p => some (0x1CC, false, .r2 p)
  | .bar p => some (0x1CE, false, .r1 p)
  | .barDom p => some (0x1CF, false, .r1 p)
  | .barDomMessage _ => none
  | .kvmap p => some (0x1E0, false, .r3 p)
  | .kvapp p => some (0x1E1, false, .r3 p)
  | .kvxl p => some (0x1E2, false, .r3 p)
  | .kvxlE p => some (0x1E2, false, .r3 p)
  | .kvfork p => some (0x1E3, false, .r3 p)
  | .kvrel p => some (0x1E4, false, .r3 p)
  | .kvscore p => some (0x1E5, false, .r3 p)
  | .kvtopk p => some (0x1E6, false, .r3 p)
  | .kvkeep p => some (0x1E7, false, .r3 p)
  | .kvpidx p => some (0x1E8, false, .r3 p)
  | .kvpidxIns p => some (0x1E8, false, .r3 p)
  | .kvRemoteRequest _ => none
  | .remoteRequestArrival _ => none
  | .remoteStoreAck _ => none
  | .staleRefusal _ => none
  | .mscReadRequest _ => none
  | .mscWrite _ _ _ => none
  | .memoryAccessPerform _ => none
  | .hostMemoryAccess _ _ _ _ => none
  | .hostQtailWrite _ _ _ => none
  | .qcfgEnable _ _ _ => none
  | .qcfgDisable _ _ _ => none
  | .registerWrite _ _ _ => none
  | .schedulerPlace _ _ => none
  | .headAgeExpiry _ _ => none
  | .marchPacketReceive _ _ => none
  | .marchArrival _ => none
  | .marchRelease _ => none
  | .marchDisarm _ => none
  | .marchTimeout _ _ => none
  | .rankEndReport _ => none
  | .launchCompletion _ _ => none
  | .noticePost _ _ => none
  | .forcedPreemption _ => none
  | .launchSuspend _ _ _ => none
  | .launchResume _ _ _ _ => none
  | .watchdogFire _ => none
  | .deadlockCheck _ => none
  | .errrecActResume _ _ => none
  | .errrecActAbort _ _ => none
  | .errrecValidClear _ _ => none
  | .domainActAbort _ => none
  | .errorRecordForward _ => none
  | .actForward _ => none
  | .errcntClr _ => none
  | .stackCountClr _ _ => none
  | .xrelValidClear _ => none
  | .tapIdcode _ => none
  | .tapSolstat _ => none
  | .tapSolsel _ _ => none
  | .tapSoldata _ => none
  | .tapSolfrz _ => none
  | .tapSolrst _ => none
  | .tapBypass _ _ => none
  | .solsticeUnlock _ _ => none
  | .spdmRequest _ _ => none
  | .mboebFreeze _ => none
  | .warmReset _ => none
  | .powerOnBoot _ _ _ _ _ => none
  | .d3hotEntry _ => none
  | .d0Return _ => none
  | .powerRemoval _ => none
  | .thermalStepDown _ _ => none
  | .thermalTrip _ _ => none
  | .vcoreRemoval _ => none
  | .powerCapWindow _ _ => none
  | .refreshCommand _ _ _ _ => none
  | .rowActivationAlert _ _ _ => none
  | .activationBackoffEnd _ _ _ => none
  | .droopVbaseLow _ _ => none
  | .droopStopEnd _ _ => none
  | .patrolSweep _ _ _ => none
  | .bankCountCopy _ _ => none
  | .migrationTrigger _ _ _ _ => none
  | .migrationHoldTimeout _ => none
  | .pageTierMigrate _ _ _ _ => none
  | .autumnRun _ _ _ _ _ => none
  | .constBankReload _ _ _ _ _ => none
  | .tlbInvalidate _ _ _ _ => none
  | .publishableSetup _ _ _ _ _ _ _ => none
  | .frzEnable _ => none
  | .cxlExtentAccept _ _ _ _ => none
  | .cxlExtentRelease _ _ => none
  | .ualinkLinkError _ _ => none
  | .ualinkPortFailure _ _ => none
  | .rankLost _ _ => none
  | .hostLinkDown _ => none
  | .hartResume _ _ => none
  | .entryGrant _ => none
  | .linkTrained _ _ => none
  | .hostLinkUp _ => none
  | .publishabilityWithdrawal _ _ => none
  | .indexEntryRemoval _ _ _ _ _ => none
  | .migratableMarkClear _ _ => none
  | .forcedExtentWithdrawal _ _ => none

/-- The head and the tail value of an instruction; none for a device event. -/
def encode (i : Instr) : Option (Half × Nat) :=
  match i.body with
  | none => none
  | some (op, pl, b) => some (mkHead b.fmt.tl op pl b.sf, b.tail)

/-- The bytes of a line whose only head is `head`, with its tail at the back (R168, R170). -/
def lineOf (head : Half) (tail : Nat) : List Byte :=
  let n := tailLen (headTl head)
  leBytes 2 1 ++ leBytes 2 head.toNat ++ List.replicate (60 - 2 * n) 0 ++ leBytes (2 * n) tail

/-- The instruction the decoder reads from a table word. The table numbers a row's bits with the head in the highest
halfword and the tail below it (log 9). -/
def decodeTableWord (nbits w : Nat) : Option Instr :=
  let head := BitVec.ofNat 16 (w / 2 ^ (nbits - 16))
  let tail := w % 2 ^ (nbits - 16)
  match decode head tail with
  | .ok i => some i
  | .error _ => none

/-- Whether a term is a device event rather than an instruction of a program. -/
def Instr.isEvent (i : Instr) : Bool := i.body.isNone

end Sys2Proof
end

