-- ==== Sys2Proof/Machine/State.lean ====
section
/-! DEFINITION. The machine's state as plain data: harts, launches, modules, memory, fabric; and the state after reset. -/

namespace Sys2Proof.Machine

/-- Memory by location: sorted, no repeats, no entry equal to the zero that an unlisted byte reads as (log 1). -/
abbrev Memory := List Host.Cell

/-- Why a step stops. No instruction and no event of this model raises one: every stop the spec describes is a trap that
the machine takes or a wait, and every open value is a free value. -/
inductive Fault where
  /-- Raised by nothing; the model has no address that stops the machine itself (safe). -/
  | noFault
  deriving DecidableEq, Repr

/-- Why the model gives no meaning. -/
inductive Refusal where
  /-- Raised by the dispatcher for an instruction that has no meaning yet (safe). -/
  | notModelled (mnemonic : String)
  deriving DecidableEq, Repr

/-- The states a hart passes through (R34). -/
inductive Phase where
  | absent | armed | running | waiting | saved | ended
  deriving DecidableEq, Repr

/-- Where a hart is resident: physical core, slot, lane groups held, stage (R32, R33, R44). -/
structure Seat where
  core : Nat
  slot : Nat
  lanes : List Nat
  stage : Nat
  deriving DecidableEq, Repr

/-- sr.vl and sr.vtype (R79, R80). -/
structure VCfg where
  vl : BitVec 18
  ill : Bool
  fresh : Bool
  nregc : BitVec 2
  etype : BitVec 4
  deriving DecidableEq, Repr

/-- sr.bpos and sr.bcell (R83). -/
structure Stream where
  bound : Bool
  cell : BitVec 6
  bpos : BitVec 63
  deriving DecidableEq, Repr

/-- sr.notice: PEND, and LEFT as it stood at the step `since` (R84). -/
structure Notice where
  pend : Bool
  left : BitVec 32
  since : Nat
  deriving DecidableEq, Repr

/-- One accumulator tile: mode, heap tag, body entries by row × columns + column, row state m and l (R75). -/
structure Acc where
  bf16 : Bool
  tag : BitVec 16
  body : Tbl Nat
  m : Tbl Nat
  l : Tbl Nat
  deriving DecidableEq, Repr

/-- sr.estart and sr.rowprog of the unfinished instruction, with the engine's chunk record (R82, R284) and, for each publishable
buffer that it has translated in, the image that it uses: asid, base address, selector (R163, R445). -/
structure Unfinished where
  estart : Nat
  valid : Bool
  acc : BitVec 3
  rows : BitVec 7
  kdone : BitVec 32
  order : Nat
  sels : List (Nat × Nat × Bool)
  deriving DecidableEq, Repr

/-- The trap registers 0x010 to 0x018 (R393, R394). -/
structure TrapRegs where
  tvec : Word
  hm : Bool
  imp : Bool
  fpend : Bool
  pin : Bool
  grnt : BitVec 4
  tepc : Word
  cause : Cause
  tval : Word
  elem : BitVec 18
  head : Half
  tvpc : Word
  scr0 : Word
  scr1 : Word
  deriving DecidableEq, Repr

/-- A fault found by an instruction: its cause, the value for sr.tval, and whether it is imprecise (R389, R392). -/
structure Trap where
  cause : Cause
  tval : Word
  imp : Bool
  deriving DecidableEq, Repr

/-- What another module sends back for a far or key-value request: flags, element data, the element at which it stopped
and the fault (R267, R347, R463). -/
structure FarRes where
  flags : BitVec 9
  data : List (Nat × Nat)
  stop : Option (Nat × Trap)
  deriving DecidableEq, Repr

/-- How far the request of a vector-queue entry to another module has come (R267, R347). -/
inductive Remote where
  | idle
  | sent
  | done (r : FarRes)
  deriving DecidableEq, Repr

/-- An entry of the vector queue held for replay: the instruction, its place, and its scalar and constant sources as
read at issue (R66, R390, R432); `desc` the runs of bytes, by address, of its descriptors as read when it left the vector queue (R161,
R295), `started` that the matrix engine has begun it and takes no other before it completes (R276). -/
structure QEntry where
  instr : Instr
  pc : Word
  head : Half
  g : Vector Word 32
  kb : Tbl Word
  remote : Remote
  trapped : Bool
  desc : List (Nat × List Byte)
  started : Bool
  deriving DecidableEq, Repr

/-- Where a send of the hart at the head of its queue stands (R320, R323, R473). -/
inductive SendState where
  | none
  | asked
  | granted
  | refused
  deriving DecidableEq, Repr

/-- What holds an access: a frame under migration, one that its walk reads (R442), or a module that gives no response (R475). -/
inductive Holder where
  | frame
  | table
  | silent (m : Nat)
  deriving DecidableEq, Repr

/-- An access that is held: the step since which it is, what holds it, its address, whether it is of the vector queue (R442, R475). -/
structure Hold where
  since : Nat
  holder : Holder
  va : Word
  vec : Bool
  deriving DecidableEq, Repr

/-- Where a hart last faulted on the firmware route (in its vector queue at sr.tvpc, or at sr.tepc; sr.estart, ROWS and KDONE), and how
often it has faulted there again since (R410). -/
structure Refault where
  vec : Bool
  pc : Word
  estart : Nat
  rows : BitVec 7
  kdone : BitVec 32
  again : Nat
  deriving DecidableEq, Repr

/-- Architectural state of one hart (R31) and what the device keeps for it; `bank` and `bankPoison` hold its far registers
while it has no slot (R32, R57); `moved` counts the leading entries of `vq` that stand in the matrix queue (R276); `later` that its
own module's stores are posted in this turn (R152, R154); `eager` that no VSETL has executed since it was placed or resumed (R37);
`quietHeld` the watchdog's count when it last stopped counting and `quietFrom` the step since which it counts on (R468);
`seen` is what a waiting bound VSETL last saw: P, the closed bit, PEND (R52, R226); `kheld` the constant bank as read at the issue of
the scalar instruction that waits or is held (R432). -/
structure Hart where
  id : HartId
  mod : Nat
  phase : Phase
  seat : Seat
  pc : Word
  npc : Word
  head : Half
  g : Vector Word 32
  cfg : VCfg
  vec : Vector Nat 64
  mask : Vector Nat 8
  stream : Stream
  notice : Notice
  accs : List Acc
  aflags : BitVec 9
  atp : Word
  unf : Unfinished
  trap : TrapRegs
  resv : Option Nat
  event : Bool
  vq : List QEntry
  moved : Nat
  active : Option QEntry
  later : Bool
  waitOn : Option Word
  waitFrom : Nat
  kheld : Option (Tbl Word)
  send : SendState
  got : Option Nat
  bars : Tbl Nat
  atBar : Bool
  unacked : List Word
  heldFrom : Option Hold
  quietFrom : Nat
  quietHeld : Nat
  lastShift : Option Nat
  eager : Bool
  seen : Option (Nat × Bool × Bool)
  needsAct : Bool
  refault : Option Refault
  bank : Tbl Nat
  bankPoison : List (Nat × Nat × Nat)
  deriving DecidableEq, Repr

/-- A high-water cell: published index and closed bit (R50). -/
structure HwCell where
  index : Nat
  closed : Bool
  deriving DecidableEq, Repr

/-- A placement-table entry: physical core and tile-window base (R40). -/
structure Place where
  core : Nat
  tileBase : Nat
  deriving DecidableEq, Repr

/-- Where a launch's share on one module stands (R54, R368, R370). -/
inductive ShareState where
  | armed
  | running
  | suspending
  | saved
  | gone
  deriving DecidableEq, Repr

/-- The tile a send is for: launch, rank, launch-relative core, tile index (R41). -/
structure TileRef where
  launch : Nat
  rank : Nat
  x : Nat
  y : Nat
  t : Nat
  deriving DecidableEq, Repr

/-- A send: its tile, its data (none for TMARK), and the hart or the task-table entry that it is for (R320, R325, R332). -/
structure Send where
  dest : TileRef
  data : Option Nat
  hart : Option HartId
  node : Option Nat
  deriving DecidableEq, Repr

/-- A launch's share on the module of one rank: `first`, `armedAt` and `savedAt` are steps, `checked` the delivery count at the
last deadlock check and `quiet` whether the share was quiescent then (R470), `awaitAct` that a deadlock record holds it (R471); `savedAt` is 0
until the share is first Saved; `ceilings` and `holds` are its stages' ceilings and rebalance holds (R46). -/
structure Share where
  rank : Nat
  state : ShareState
  place : Tbl Place
  const : Tbl Word
  cells : Tbl HwCell
  first : Option Nat
  armedAt : Nat
  savedAt : Nat
  held : List Send
  delivery : Nat
  checked : Option Nat
  quiet : Bool
  awaitAct : Bool
  ceilings : List Nat
  holds : List Nat
  endSent : Bool
  reported : Bool
  domSeen : List (HartId × Nat)
  deriving DecidableEq, Repr

/-- The parameters of a launch packet (R36, R362). -/
structure Packet where
  wid : Nat
  hgt : Nat
  origin : Option (Nat × Nat)
  stages : Nat
  harts : Nat
  greq : Nat
  gmin : Nat
  entry : List Word
  floor : List Nat
  carry : List Bool
  depth : List Nat
  tiles : Nat
  fused : Bool
  policy : BitVec 2
  smask : BitVec 12
  tasks : Nat
  ser : Bool
  const : Word
  atp : Word
  done : Word
  gen : BitVec 32
  single : Bool
  ranks : List Nat
  tag : Word
  deriving DecidableEq, Repr

/-- A resident, saved or ended launch; `taken` is HEAD as its packet was taken (R479), `endAt` the step of its end (R363), `closed` that its
record is done, `noRecord` that its originating module was reset, `unsure` the ranks that have not confirmed the end that an abort asked of
them, each with the step since which (R478). -/
structure Launch where
  pkt : Packet
  origin : Nat
  queue : Nat
  prio : Nat
  shares : Tbl Share
  arrivals : List Nat
  replicated : Option Nat
  frz : Bool
  finished : Bool
  status : BitVec 64
  taken : BitVec 32
  endAt : Option Nat
  closed : Bool
  noRecord : Bool
  unsure : List (Nat × Nat)
  deriving DecidableEq, Repr

/-- A host launch queue's registers and the scheduler's record of its head (R360, R361, R366). -/
structure Queue where
  base : Word
  ien : Bool
  vec : BitVec 8
  lsize : BitVec 4
  prio : BitVec 2
  en : Bool
  tail : BitVec 32
  head : BitVec 32
  disabling : Bool
  since : Nat
  reserved : Bool
  deriving DecidableEq, Repr

/-- A node of a task table: its module, its entry, its serial (R330, R404). -/
structure NodeRef where
  mod : Nat
  entry : Nat
  serial : BitVec 32
  deriving DecidableEq, Repr

/-- An error record (R406, R407), with the hart or the node that it is for. -/
structure ErrRec where
  valid : Bool
  ovf : Bool
  rank : BitVec 6
  y : BitVec 4
  x : BitVec 4
  hidx : BitVec 3
  imp : Bool
  cause : BitVec 12
  tag : Word
  epc : Word
  vpc : Word
  tval : Word
  info : Word
  cycle : Word
  hart : Option HartId
  node : Option NodeRef
  deriving DecidableEq, Repr

/-- QERR of one queue (R479). -/
structure QErr where
  valid : Bool
  ovf : Bool
  loc : BitVec 32
  code : BitVec 8
  deriving DecidableEq, Repr

/-- One stack's registers, its bank counts, the activation counter of each DRAM row by bank and row, its back-offs by bank with the row
counted, and its droop guard (R145, R274, R460). -/
structure Stack where
  cecnt : BitVec 32
  uecnt : BitVec 16
  uev : Bool
  ueaddr : BitVec 52
  bank : BitVec 12
  bce : Tbl Nat
  bue : Tbl Nat
  dramCe : Tbl Nat
  dramUe : Tbl Nat
  alerts : BitVec 32
  thresh : BitVec 14
  holds : BitVec 32
  stops : BitVec 32
  acts : Tbl Nat
  backoff : Tbl Nat
  droop : Bool
  deriving DecidableEq, Repr

/-- One UALink port's registers (R475). -/
structure Port where
  up : Bool
  degraded : Bool
  retries : BitVec 32
  downs : BitVec 32
  reissued : BitVec 32
  deriving DecidableEq, Repr

/-- Counter pair of one structure code (R459). -/
structure SramCount where
  ue : BitVec 16
  ce : BitVec 32
  deriving DecidableEq, Repr

/-- The on-chip storage error log (R459). -/
structure SramLog where
  valid : Bool
  ovf : Bool
  struct : BitVec 4
  domain : BitVec 12
  word : BitVec 40
  deriving DecidableEq, Repr

/-- A tile: tag, 4,096 bytes little-endian, stage-queue put sequence number (R45, R319). -/
structure Tile where
  full : Bool
  data : Nat
  seq : Nat
  deriving DecidableEq, Repr

/-- States of a task-graph node (R328). -/
inductive NodeState where
  | free | building | armed | ready | running
  deriving DecidableEq, Repr

/-- What a copy node moves (R331). -/
structure CopyJob where
  dst : Word
  src : Word
  scatter : Bool
  tile : Bool
  readers : BitVec 4
  wc : Nat
  dims : List (Int × Nat)
  atp : Word
  deriving DecidableEq, Repr

/-- What a node does (R331, R332). -/
inductive NodeKind where
  | copy (j : CopyJob)
  | call (handle : Word) (arg : Word)
  deriving DecidableEq, Repr

/-- An entry of the task table (R327, R328, R333, R404): `item` is what a copy to a tile has gathered, `send` where its send stands, `replay`
that it has faulted, so that its reads leave reader counts (R439). -/
structure Node where
  serial : BitVec 32
  state : NodeState
  kind : NodeKind
  launch : Nat
  owner : HartId
  preds : Nat
  succs : List Nat
  readyAt : Nat
  block : Nat
  faulted : Bool
  item : Nat
  send : SendState
  replay : Bool
  deriving DecidableEq, Repr

/-- A publishable buffer: range, two images, selector (R163, R335). -/
structure PubBuf where
  asid : Nat
  va : Nat
  len : Nat
  image0 : Nat
  image1 : Nat
  sel : Bool
  dom : Bool
  deriving DecidableEq, Repr

/-- A CXL dynamic-capacity extent placed in the window; `spare` holds the serials of the copy nodes that its closing waits for, `forced`
counts the lines dropped when it was withdrawn by force and has not been reported yet (R143, R448, R449). -/
structure Extent where
  base : Nat
  len : Nat
  off : Nat
  closing : Bool
  spare : List (BitVec 32)
  forced : Option Nat
  deriving DecidableEq, Repr

/-- An entry of the migration table: frame and size, the location that it moves to, and the posted stores held at it: whose, their
addresses, the steps since which they are held (R442, R446). -/
structure Moving where
  frame : Nat
  size : Nat
  dst : Nat
  held : List (HartId × Word × Nat)
  deriving DecidableEq, Repr

/-- The record the base die and firmware keep of a migratable 2 MiB page: remote stores by source module and step, the steps
of its moves, whether it is pinned (R446). -/
structure PageRec where
  stores : List (Nat × Nat)
  moves : List Nat
  pinned : Bool
  deriving DecidableEq, Repr

/-- XREL (R449). -/
structure Xrel where
  valid : Bool
  forced : Bool
  lost : BitVec 32
  base : Word
  deriving DecidableEq, Repr

/-- The Ouvenaern image in the module's flash: image, signature, key slot, version (R373). -/
structure Flash where
  image : List Byte
  signature : List Byte
  key : Nat
  version : Nat
  deriving DecidableEq, Repr

/-- Power states (R377). -/
inductive Power where
  | d0 | d3hot | d3cold
  deriving DecidableEq, Repr

/-- Settings that Ouvenaern holds (R145, R366, R368, R410, R442, R446, R468, R470, R474, R475, R376); `retry` is its limit of repeated
faults at one sr.estart (R410). -/
structure Settings where
  age : Nat
  deadline : Nat
  wdlim : Nat
  dlck : Nat
  mhold : Nat
  mthresh : Nat
  migmax : Nat
  ltimeout : Nat
  marchto : Nat
  pcap : Nat
  retry : Nat
  deriving DecidableEq, Repr

/-- What the device tells the host over PCIe Advanced Error Reporting (R476). -/
inductive AerError where
  | correctable
  | nonFatal
  | fatal
  deriving DecidableEq, Repr

/-- One F4 module. `closed` lists the extents that were released, base offset and length (R434); `fused` and `gated` the clusters in
fused use and without power (R27, R137); `engine` the slot that each core's matrix engine served last (R276); `aer` what it reported
to the host (R476); `bootReports` what the Mboeb reported of failed boots (R373); `leftReset` the step at which it last left
reset (R77); `march` the launches and ranks whose packets it holds unplaced (R370); `asked` the step since which a module has left its
requests without a response (R475); `spares` the 4 KiB frames that its Ouvenaern keeps for page tables, `spaces` the roots of the address
spaces that it keeps beside those in use, each with the domain's ranks (R446). -/
structure Module where
  queues : Tbl Queue
  errs : Tbl ErrRec
  domErr : ErrRec
  pend : List (Nat × ErrRec)
  qerrs : Tbl QErr
  msix : List Nat
  moves : BitVec 32
  pins : BitVec 16
  xrel : Xrel
  sram : Tbl SramCount
  sramLog : SramLog
  hbm : Tbl Stack
  ports : Tbl Port
  staleTiles : BitVec 32
  staleOther : BitVec 32
  holds : Tbl (List Send)
  asking : List Send
  nodes : Tbl Node
  pubs : List PubBuf
  extents : List Extent
  closed : List (Nat × Nat)
  moving : List Moving
  pages : Tbl PageRec
  set : Settings
  lastGen : Option (BitVec 32)
  lost : List Nat
  march : List (Nat × Nat)
  asked : Tbl Nat
  hostUp : Bool
  power : Power
  point : Fin 4
  booted : Bool
  rollback : Nat
  revoked : List Nat
  flash : Option Flash
  frozen : Bool
  source : BitVec 3
  unlock : Bool
  vcoreOff : Bool
  solDomain : BitVec 12
  solWord : BitVec 40
  tapData : Word
  spdmOut : List Byte
  hostData : List Byte
  served : Tbl Nat
  invalidations : List (Option Nat × Nat × Nat)
  lastCheck : Nat
  fused : List Nat
  gated : List Nat
  engine : Tbl Nat
  aer : List AerError
  bootReports : List Nat
  leftReset : Nat
  spares : List Nat
  spaces : List (List Nat × Nat)
  caps : BitVec 12
  deriving DecidableEq, Repr

/-- A line of a memory-side cache: data, reader count, dirty, the on-chip bit (an L1 or L2 of the line's module holds a copy), and
which of its 64-bit words are poisoned (R140, R141, R150, R455). -/
structure MscLine where
  data : List Byte
  count : BitVec 4
  dirty : Bool
  onChip : Bool
  bad : List Nat
  deriving DecidableEq, Repr

/-- A 64-byte line that a core's L1 holds: the core, numbered over the domain, the line's location over 64, whether it is dirty, and
whether L2's copy of it was dirty before (R134, R137, R454). Its bytes are those of the near point. -/
structure L1Line where
  core : Nat
  line : Nat
  dirty : Bool
  under : Bool
  deriving DecidableEq, Repr

/-- A translation structure (R130): a lane group's slice, a lane plane's part of the last-level TLB, the two levels of a base die's
far TLB, the non-leaf entries of a plane's and of a base die's walkers. -/
inductive TlbPlace where
  | slice (m core plane : Nat)
  | last (m plane : Nat)
  | farFirst (home : Nat)
  | farLast (home : Nat)
  | walker (m plane : Nat)
  | farWalker (home w : Nat)
  deriving DecidableEq, Repr

/-- An entry of a translation structure (R125, R128, R130): `page` is the virtual address over the entry's size, `level` 0, 1 or 2 for a
leaf of 4 KiB, 2 MiB or 1 GiB, or the level of the table entry that a walker keeps. -/
structure TlbEntry where
  place : TlbPlace
  asid : Nat
  global : Bool
  page : Nat
  level : Nat
  pte : Nat
  deriving DecidableEq, Repr

/-- A line that a core's instruction buffer holds (R136). -/
structure FetchLine where
  core : Nat
  line : Nat
  bytes : List Byte
  deriving DecidableEq, Repr

/-- A message in flight on UALink; of a store `inOrder` says that it is one of D memory, which performs in order (R54, R127, R166, R267, R320, R363, R407, R473, R474). -/
inductive Msg where
  | farReq (h : HartId) (dst : Nat)
  | farDone (h : HartId) (r : FarRes)
  | kvReq (h : HartId) (dst : Nat)
  | store (h : HartId) (va : Word) (vector far inOrder : Bool) (readers : Nat) (loc : Nat) (bytes : List Byte)
  | ack (h : HartId) (va : Word)
  | entryReq (s : Send)
  | grant (h : HartId)
  | refusal (h : HartId) (sub : Nat) (tval : Word)
  | barDom (l : Nat) (dst : Nat) (h : HartId) (n : Nat)
  | march (l : Nat) (rk : Nat)
  | arrival (l : Nat) (rk : Nat)
  | query (l : Nat) (rk : Nat)
  | release (l : Nat) (rk : Nat)
  | disarm (l : Nat) (rk : Nat) (detail failing : Nat)
  | ended (l : Nat) (rk : Nat)
  | errRec (l : Nat) (r : ErrRec)
  | act (h : HartId) (node : Option NodeRef) (resume : Bool)
  deriving DecidableEq, Repr

/-- What the model keeps of the opaque body of a vector frame that VSAVE wrote, the n-th by the free values' count: the state that VRSTR
restores from it (R400, R401). -/
structure Frame where
  hart : HartId
  n : Nat
  size : Nat
  cfg : VCfg
  vec : Vector Nat 64
  mask : Vector Nat 8
  accs : List Acc
  aflags : BitVec 9
  vq : List QEntry
  moved : Nat
  unf : Unfinished
  poison : List SramWord
  deriving DecidableEq, Repr

/-- What the caches, the translation structures, Ouvenaern and the DRAM do of themselves, for which the opcode table has no row: evict
a line, fill or drop a translation, fetch or drop an instruction line, gate or ungate a cluster, write THRESH or a setting, open
a DRAM row, start a far unit's operation past the start limit, find an LPDDR6 codeword uncorrectable, report an error to the host, abort
a launch whose hart has faulted too often at one place, keep a frame for page tables, keep an address space. -/
inductive Act where
  | evictL1 (core line : Nat)
  | evictL2 (line : Nat)
  | evictMsc (line : Nat)
  | fillTlb (h : HartId) (va : Nat) (far : Option Nat)
  | dropTlb (n : Nat)
  | fillFetch (h : HartId) (va : Nat)
  | dropFetch (n : Nat)
  | gate (m cluster : Nat)
  | ungate (m cluster : Nat)
  | threshold (m stack v : Nat)
  | settings (m : Nat) (v : Settings)
  | rowOpen (m stack bank row : Nat)
  | startLimit (m stack : Nat)
  | tier2Error (m pa : Nat)
  | pcieError (m : Nat) (e : AerError)
  | retryAbort (h : HartId)
  | spareFrame (m frame : Nat)
  | keepSpace (m : Nat) (ranks : List Nat) (root : Nat)
  deriving DecidableEq, Repr

/-- Who acts next: a hart's turn, the turn of a hart's scalar stream ahead of its vector queue, a turn of the hart whose stores are posted
even on its own module, the turn of its vector queue behind its matrix queue, a device event, or an act of the memory system
(log 4, log 7, log 11). -/
inductive Turn where
  | hart (h : HartId)
  | issue (h : HartId)
  | later (h : HartId)
  | vector (h : HartId)
  | event (i : Instr)
  | act (a : Act)
  deriving DecidableEq, Repr

/-- The whole machine: a Fienquel domain of modules (R9, R121). `cur` is the hart whose turn it is; the others stand in
`harts`. `dram` is what HBM, the second tier and the CXL window hold; `near` the bytes of L1 and L2 that are newer than the far point;
`l2` the 128-byte lines that an L2 holds, by location over 128; `badMem` and `badNear` the poisoned words of memory and of L1 and L2, by
location over 8. -/
structure State where
  cur : Hart
  harts : List Hart
  launches : Tbl Launch
  mods : Tbl Module
  dram : Memory
  near : Tbl Byte
  l1 : List L1Line
  l2 : List Nat
  msc : Tbl MscLine
  tlb : List TlbEntry
  ibuf : List FetchLine
  banks : Tbl Nat
  tiles : List (TileRef × Tile)
  fabric : List Msg
  poison : List SramWord
  badMem : List Nat
  badNear : List Nat
  frames : List Frame
  agenda : List Turn
  tick : Nat
  free : Nat
  serial : Nat
  deriving DecidableEq, Repr

/-- A freshly claimed accumulator tile (R75): body +0, m −∞, l +0 as the tables' defaults, FP32 mode, heap tag 0. -/
def Acc.fresh : Acc := ⟨false, 0, [], [], []⟩

/-- sr.vl and sr.vtype when a hart starts (R89). -/
def VCfg.reset : VCfg := ⟨0, true, true, 2, 0⟩

/-- No instruction unfinished (R82). -/
def Unfinished.none : Unfinished := ⟨0, false, 0, 0, 0, 0, []⟩

/-- The trap registers when a hart starts, but for sr.tvec (R394). -/
def TrapRegs.reset : TrapRegs := ⟨0, false, false, false, false, 0, 0, ⟨0, 0⟩, 0, 0, 0, 0, 0, 0⟩

/-- A hart's state when it first starts (R89), before the launch's values are loaded (log 2). -/
def Hart.reset : Hart where
  id := ⟨0, 0, 0, 0, 0⟩
  mod := 0
  phase := .absent
  seat := ⟨0, 0, [], 0⟩
  pc := 0
  npc := 0
  head := 0
  g := Vector.replicate 32 0
  cfg := VCfg.reset
  vec := Vector.replicate 64 0
  mask := Vector.replicate 8 0
  stream := ⟨false, 0, 0⟩
  notice := ⟨false, 0, 0⟩
  accs := []
  aflags := 0
  atp := 0
  unf := Unfinished.none
  trap := TrapRegs.reset
  resv := none
  event := false
  vq := []
  moved := 0
  active := none
  later := false
  waitOn := none
  waitFrom := 0
  kheld := none
  send := .none
  got := none
  bars := []
  atBar := false
  unacked := []
  heldFrom := none
  quietFrom := 0
  quietHeld := 0
  lastShift := none
  eager := true
  seen := none
  needsAct := false
  refault := none
  bank := []
  bankPoison := []

/-- A launch queue's registers after reset: LSIZE 1, all else 0 (R360). -/
def Queue.reset : Queue := ⟨0, false, 0, 1, 0, false, 0, 0, false, 0, false⟩

/-- An error record after reset (R406). -/
def ErrRec.reset : ErrRec := ⟨false, false, 0, 0, 0, 0, false, 0, 0, 0, 0, 0, 0, 0, none, none⟩

/-- QERR after reset (R479). -/
def QErr.reset : QErr := ⟨false, false, 0, 0⟩

/-- A stack's registers after reset: THRESH 2,048, all else 0 (R145, R460). -/
def Stack.reset : Stack := ⟨0, 0, false, 0, 0, [], [], [], [], 0, 2048, 0, 0, [], [], false⟩

/-- A port's registers after reset (R475). -/
def Port.reset : Port := ⟨false, false, 0, 0, 0⟩

/-- An empty tile of zeros (R319). -/
def Tile.reset : Tile := ⟨false, 0, 0⟩

/-- Firmware settings at reset: the values the spec gives (R366, R368, R442, R446, R468, R470, R474, R475, R376); it gives none for the retry
limit (DESIGN CHOICE, log 75). -/
def Settings.reset : Settings where
  age := 2 ^ 21
  deadline := 200000
  wdlim := 2 ^ 24
  dlck := 2 ^ 26
  mhold := 131072
  mthresh := 4096
  migmax := 3
  ltimeout := 2 ^ 21
  marchto := 2 ^ 30
  pcap := 2100
  retry := 0

/-- A module right after its boot has released the management cores (R373); CAPS as R372 gives it. -/
def Module.reset : Module where
  queues := []
  errs := []
  domErr := ErrRec.reset
  pend := []
  qerrs := []
  msix := []
  moves := 0
  pins := 0
  xrel := ⟨false, false, 0, 0⟩
  sram := []
  sramLog := ⟨false, false, 0, 0, 0⟩
  hbm := []
  ports := []
  staleTiles := 0
  staleOther := 0
  holds := []
  asking := []
  nodes := []
  pubs := []
  extents := []
  closed := []
  moving := []
  pages := []
  set := Settings.reset
  lastGen := none
  lost := []
  march := []
  asked := []
  hostUp := true
  power := .d0
  point := 0
  booted := true
  rollback := 0
  revoked := []
  flash := none
  frozen := false
  source := 0
  unlock := false
  vcoreOff := false
  solDomain := 0
  solWord := 0
  tapData := 0
  spdmOut := []
  hostData := []
  served := []
  invalidations := []
  lastCheck := 0
  fused := []
  gated := []
  engine := []
  aer := []
  bootReports := []
  leftReset := 0
  spares := []
  spaces := []
  caps := 2861

/-- The machine right after reset: one module, number 0, in its operating state; no launch, no resident hart, nothing
listed in memory, no turn waiting. -/
def State.reset : State where
  cur := Hart.reset
  harts := []
  launches := []
  mods := [(0, Module.reset)]
  dram := []
  near := []
  l1 := []
  l2 := []
  msc := []
  tlb := []
  ibuf := []
  banks := []
  tiles := []
  fabric := []
  poison := []
  badMem := []
  badNear := []
  frames := []
  agenda := []
  tick := 0
  free := 0
  serial := 0

end Sys2Proof.Machine
end

