-- ==== Sys2Proof/Machine/Ops.lean ====
section
/-! DEFINITION. The named operations over the state: registers, memory, translation, taking an exception and returning. -/

namespace Sys2Proof.Machine

/-! ### The current hart -/

/-- Change the hart whose turn it is. -/
def State.onCur (s : State) (f : Hart → Hart) : State := { s with cur := f s.cur }

/-- g0 reads zero (R62). -/
def Hart.greg (h : Hart) (r : Fin 32) : Word := if r = 0 then 0 else h.g[r]

/-- A write to g0 is discarded (R62). -/
def Hart.setG (h : Hart) (r : Fin 32) (v : Word) : Hart := if r = 0 then h else { h with g := h.g.set r v }

/-- Write a scalar register of the current hart; the write clears its poison (R455). -/
def State.setG (s : State) (r : Fin 32) (v : Word) : State :=
  { s with cur := s.cur.setG r v, poison := s.poison.filter (fun w => !decide (w = .scalar s.cur.id r.val)) }

/-- Set sticky arithmetic flags (R87). -/
def State.raise (s : State) (f : Flags) : State := { s with cur := { s.cur with aflags := s.cur.aflags ||| f } }

/-- Number of named vector registers (R68, R80). -/
def VCfg.nreg (c : VCfg) : Nat := 8 * 2 ^ c.nregc.toNat
/-- SEW in bits (R71). -/
def VCfg.sew (c : VCfg) : Nat := sewOf c.etype.toNat
/-- Grant size (R33). -/
def Hart.grant (h : Hart) : Nat := h.seat.lanes.length
/-- VLMAX under a grant of `g` lane groups (R68); 0 while no type is configured (R81). -/
def VCfg.vlmaxOf (c : VCfg) (g : Nat) : Nat := if c.ill then 0 else g * 131072 / c.nreg / c.sew
/-- VLMAX of a hart (R68). -/
def Hart.vlmax (h : Hart) : Nat := h.cfg.vlmaxOf h.grant
/-- A configured hart has ILL = 0 and FRESH = 0 (R422). -/
def Hart.configured (h : Hart) : Bool := !h.cfg.ill && !h.cfg.fresh
/-- ACNT (R86). -/
def Hart.acnt (h : Hart) : Nat := h.accs.length

/-- Element `i` of near vector register `r` at the current SEW (R69). -/
def Hart.elem (h : Hart) (r : Fin 64) (i : Nat) : Nat := bits h.vec[r] (h.cfg.sew * i) h.cfg.sew
/-- Replace element `i` of near vector register `r` (R69). -/
def Hart.setElem (h : Hart) (r : Fin 64) (i v : Nat) : Hart :=
  { h with vec := h.vec.set r (setBits h.vec[r] (h.cfg.sew * i) h.cfg.sew v) }
/-- Bit `i` of mask `q` (R73). -/
def Hart.maskBit (h : Hart) (q : Fin 8) (i : Nat) : Bool := bit h.mask[q] i
/-- Replace bit `i` of mask `q` (R73). -/
def Hart.setMaskBit (h : Hart) (q : Fin 8) (i : Nat) (b : Bool) : Hart :=
  { h with mask := h.mask.set q (setBits h.mask[q] i 1 (if b then 1 else 0)) }

/-- Every element of every named vector register and of q0–q7 reads zero (R49, R72, R90). -/
def Hart.zeroVectors (h : Hart) : Hart :=
  { h with vec := Vector.replicate 64 0, mask := Vector.replicate 8 0 }

/-! ### Launches, modules, harts -/

/-- The launch with number `l`. -/
def State.launch? (s : State) (l : Nat) : Option Launch := Tbl.find l s.launches
/-- Change a launch that exists. -/
def State.onLaunch (s : State) (l : Nat) (f : Launch → Launch) : State :=
  match s.launch? l with
  | some x => { s with launches := Tbl.put l (f x) s.launches }
  | none => s
/-- A launch's share at a rank. -/
def State.share? (s : State) (l r : Nat) : Option Share := (s.launch? l).bind (fun x => Tbl.find r x.shares)
/-- Change a share that exists. -/
def State.onShare (s : State) (l r : Nat) (f : Share → Share) : State :=
  s.onLaunch l (fun x => match Tbl.find r x.shares with
    | some y => { x with shares := Tbl.put r (f y) x.shares }
    | none => x)
/-- The module with number `m`, its UALink identifier (R362, log 21). -/
def State.mod? (s : State) (m : Nat) : Option Module := Tbl.find m s.mods
/-- Change a module that exists. -/
def State.onMod (s : State) (m : Nat) (f : Module → Module) : State :=
  match s.mod? m with
  | some x => { s with mods := Tbl.put m (f x) s.mods }
  | none => s
/-- Whether a module acts: its cores were released at boot, it has power and its clocks run (R373, R377, R411). -/
def State.modRuns (s : State) (m : Nat) : Bool :=
  match s.mod? m with
  | some x => x.booted && !x.frozen && decide (x.power = .d0)
  | none => false
/-- The module numbers of a launch's ranks; a hart of no launch stands alone on its module (R53). -/
def State.ranksOf (s : State) (h : Hart) : List Nat :=
  match s.launch? h.id.launch with
  | some x => x.pkt.ranks
  | none => [h.mod]
/-- The module of a rank of a launch. -/
def State.rankModule (s : State) (l r : Nat) : Option Nat := (s.launch? l).bind (fun x => x.pkt.ranks[r]?)
/-- Module `m` has a response from module `r` (R475). -/
def State.heard (s : State) (m r : Nat) : State := s.onMod m (fun x => { x with asked := Tbl.del r x.asked })
/-- Every hart of the domain, the current one first. -/
def State.allHarts (s : State) : List Hart := s.cur :: s.harts
/-- The hart with an identity. -/
def State.hart? (s : State) (i : HartId) : Option Hart :=
  s.allHarts.find? (fun h => decide (h.id = i) && !decide (h.phase = .absent))
/-- Change the harts that satisfy `p`. -/
def State.onHarts (s : State) (p : Hart → Bool) (f : Hart → Hart) : State :=
  { s with cur := if p s.cur then f s.cur else s.cur, harts := s.harts.map (fun h => if p h then f h else h) }
/-- Change one hart. -/
def State.onHart (s : State) (i : HartId) (f : Hart → Hart) : State :=
  s.onHarts (fun h => decide (h.id = i) && !decide (h.phase = .absent)) f
/-- Make a hart the current one; the previous one joins the others. -/
def State.focus (s : State) (i : HartId) : State :=
  if s.cur.id = i ∧ s.cur.phase ≠ .absent then s
  else match s.harts.find? (fun h => decide (h.id = i)) with
    | some h => { s with cur := h, harts := (if s.cur.phase = .absent then [] else [s.cur]) ++ s.harts.filter (fun x => !decide (x.id = i)) }
    | none => s
/-- Add a hart to the machine; it takes the current place when that is empty. -/
def State.addHart (s : State) (h : Hart) : State :=
  if s.cur.phase = .absent then { s with cur := h } else { s with harts := s.harts ++ [h] }
/-- Draw the next free value's number (log 3). -/
def State.draw (s : State) : State := { s with free := s.free + 1 }
/-- sr.cycle at a step: the sum of the steps' free lengths (R77, log 5). -/
def cyclesAt : Nat → Nat
  | 0 => 0
  | n + 1 => cyclesAt n + Config.stepCycles n
/-- Cycles now. -/
def State.now (s : State) : Nat := cyclesAt s.tick
/-- Cycles since a step. -/
def State.since (s : State) (t : Nat) : Nat := s.now - cyclesAt t
/-- Cycles from a module's leaving reset to a step (R77). -/
def State.cycleAt (s : State) (m t : Nat) : Nat := cyclesAt t - cyclesAt (((s.mod? m).map (·.leftReset)).getD 0)
/-- Cycles since a module left reset: sr.cycle of its harts (R77). -/
def State.cycle (s : State) (m : Nat) : Nat := s.cycleAt m s.tick

/-! ### The physical map -/

/-- What a device physical address is (R120, R121). -/
inductive Place1 where
  | hbm (stack : Nat)
  | tier2
  | cxl
  deriving DecidableEq, Repr

/-- An address resolved to a module's own memory. -/
structure Spot where
  m : Nat
  pa : Nat
  kind : Place1
  deriving DecidableEq, Repr

/-- The key of a byte of the whole domain's memory. -/
def loc (m pa : Nat) : Nat := m * 2 ^ 52 + pa

/-- The location of a spot. -/
def Spot.loc (x : Spot) : Nat := Machine.loc x.m x.pa
/-- The home stack of a spot, numbered over the domain (R18, R120). -/
def Spot.home (x : Spot) : Option Nat := match x.kind with
  | .hbm k => some (x.m * 16 + k)
  | _ => none

/-- Why an access does not go ahead: a trap, or what holds it (R442, R475). -/
inductive Stop where
  | trap (c : Cause) (tval : Word)
  | hold (holder : Holder) (va : Word)
  deriving DecidableEq, Repr

/-- Resolve an address that is local to module `x` (R120); the causes are sub-causes of 0x07 and 0x0F (R434, R472). -/
def resolveLocal (x : Module) (m pa : Nat) : Except (Nat × Nat) Spot :=
  if pa < 0xC000000000 then .ok ⟨m, pa, .hbm (pa / 0x1000000000)⟩
  else if 0x100000000000 ≤ pa ∧ pa < 0x100000000000 + x.caps.toNat * 2 ^ 30 then .ok ⟨m, pa, .tier2⟩
  else if 0x2000000000000 ≤ pa ∧ pa < 0x4000000000000 then
    let o := pa - 0x2000000000000
    if !x.hostUp then .error (0x0F, 5)
    else match x.extents.find? (fun e => decide (e.off ≤ o) && decide (o < e.off + e.len)) with
      | none => .error (0x07, if x.closed.any (fun e => decide (e.1 ≤ o) && decide (o < e.1 + e.2)) then 4 else 1)
      | some e => if e.closing then .error (0x07, 4) else .ok ⟨m, pa, .cxl⟩
  else .error (0x07, 1)

/-- Resolve a physical address as module `m` of a domain with these ranks sees it (R120, R121). -/
def State.resolve (s : State) (ranks : List Nat) (m pa : Nat) : Except (Nat × Nat) Spot :=
  match s.mod? m with
  | none => .error (0x07, 1)
  | some x =>
    if pa < 2 ^ 51 then resolveLocal x m pa
    else if 2 ^ 52 ≤ pa then .error (0x07, 1)
    else
      let o := pa % 2 ^ 45
      match ranks[(pa - 2 ^ 51) / 2 ^ 45]? with
      | none => .error (0x07, 3)
      | some t =>
        if x.lost.contains t then .error (0x0F, 3)
        else match s.mod? t with
          | none => .error (0x0F, 3)
          | some y => if o < 0xC000000000 ∨ (0x100000000000 ≤ o ∧ o < 0x100000000000 + y.caps.toNat * 2 ^ 30)
              then resolveLocal y t o else .error (0x07, 1)

/-- Whether a spot lies in a frame under migration on its module (R442). -/
def State.movingAt (s : State) (x : Spot) : Bool :=
  match s.mod? x.m with
  | some y => y.moving.any (fun e => decide (e.frame ≤ x.pa) && decide (x.pa < e.frame + e.size))
  | none => false

/-! ### Bytes at the near and far points -/

/-- The byte of DRAM (or of tier-2 or CXL memory) at a location; what an unlisted byte reads as is 0 (log 1). -/
def dramByte (s : State) (a : Nat) : Byte := Tbl.getD s.dram a 0
/-- The byte at the far point: the memory-side cache's line, else DRAM (R148, R150). -/
def farByte (s : State) (a : Nat) : Byte :=
  match Tbl.find (a / 128) s.msc with
  | some l => l.data.getD (a % 128) 0
  | none => dramByte s a
/-- The byte at the near point: an on-chip copy that is newer, else the far point's (R148). -/
def nearByte (s : State) (a : Nat) : Byte := (Tbl.find a s.near).getD (farByte s a)
/-- `n` bytes at the near or the far point. -/
def readBytes (s : State) (far : Bool) (a n : Nat) : List Byte :=
  (upto a n).map (fun i => if far then farByte s i else nearByte s i)

/-- Whether a location lies in HBM (R120). -/
def locHbm (a : Nat) : Bool := decide (a % 2 ^ 52 < 0xC000000000)
/-- Whether a location is homed on a stack numbered over the domain (R18). -/
def locHome (home a : Nat) : Bool :=
  locHbm a && decide (a / 2 ^ 52 = home / 16) && decide (a % 2 ^ 52 / 0x1000000000 = home % 16)

/-! ### Poisoned words -/

/-- Whether the far point's word (its location over 8) is poisoned: the memory-side cache's, else the DRAM codeword's (R455). -/
def farBad (s : State) (w : Nat) : Bool :=
  match Tbl.find (w / 16) s.msc with
  | some l => l.bad.contains (w % 16)
  | none => s.badMem.contains w
/-- Whether the near point's word is poisoned: the L2's copy of the line, else the far point's (R455). -/
def nearBad (s : State) (w : Nat) : Bool := if s.l2.contains (w / 16) then s.badNear.contains w else farBad s w
/-- Whether a read of these bytes at the near or the far point meets a poisoned word; the word's location over 8 (R455, R456). -/
def poisonedAt (s : State) (far : Bool) (a n : Nat) : Option Nat :=
  if s.badMem.isEmpty && s.badNear.isEmpty && s.msc.all (fun c => c.2.bad.isEmpty) then none
  else (upto (a / 8) ((a + n + 7) / 8 - a / 8)).find? (fun w => if far then farBad s w else nearBad s w)

/-- Any observer's write to a reserved word makes the reservation invalid (R211). -/
def Hart.breakResv (h : Hart) (a n : Nat) : Hart :=
  match h.resv with
  | some w => if a < 8 * w + 8 ∧ 8 * w < a + n then { h with resv := none } else h
  | none => h

/-- Invalidate reservations of every hart on the words written. -/
def breakResvs (s : State) (a n : Nat) : State :=
  { s with cur := s.cur.breakResv a n, harts := s.harts.map (fun h => h.breakResv a n) }

/-- Store bytes in DRAM. -/
def putDram (mem : Memory) (a : Nat) : List Byte → Memory
  | [] => mem
  | b :: bs => putDram (Tbl.store 0 a b mem) (a + 1) bs
/-- Store bytes at the near point. -/
def putNear (mem : Tbl Byte) (a : Nat) : List Byte → Tbl Byte
  | [] => mem
  | b :: bs => putNear (Tbl.put a b mem) (a + 1) bs

/-! ### The far point: the memory-side cache and memory -/

/-- The words of a line (0 to 15) whose DRAM codewords are poisoned. -/
def dramBad (s : State) (line : Nat) : List Nat := (upto 0 16).filter (fun k => s.badMem.contains (16 * line + k))

/-- A line as the far point holds it: the memory-side cache's, else a clean copy of memory (R140). -/
def farLine (s : State) (line : Nat) : MscLine :=
  (Tbl.find line s.msc).getD ⟨(upto (128 * line) 128).map (dramByte s), 0, false, false, dramBad s line⟩

/-- Write a line to memory, its poison with it (R455). -/
def putMemLine (s : State) (line : Nat) (l : MscLine) : State :=
  { s with
    dram := putDram s.dram (128 * line) l.data
    badMem := s.badMem.filter (fun w => !decide (w / 16 = line)) ++ l.bad.map (fun k => 16 * line + k) }

/-- The far point takes a line: the memory-side cache allocates it on a read and on a write (R140); a location with no home stack has only
memory behind its L2 (R120, R148). -/
def putFarLine (s : State) (line : Nat) (l : MscLine) : State :=
  if locHbm (128 * line) then { s with msc := Tbl.put line l s.msc } else putMemLine s line l

/-- Bytes laid over a line's data at an offset. -/
def mergeLine (data : List Byte) (off : Nat) (bytes : List Byte) : List Byte :=
  (upto 0 128).map (fun i => if off ≤ i ∧ i < off + bytes.length then bytes.getD (i - off) 0 else data.getD i 0)

/-- A write of `n` bytes at an offset clears the poison of each word of the line that it covers whole (R455). -/
def coverBad (bad : List Nat) (off n : Nat) : List Nat :=
  bad.filter (fun k => !(decide (off ≤ 8 * k) && decide (8 * k + 8 ≤ off + n)))

/-- The far point takes bytes that lie in one 128-byte line: a full-line write that names readers sets the count, any
other merges and leaves an ordinary line (R141). -/
def mscWrite (s : State) (a : Nat) (bytes : List Byte) (readers : Nat) : State :=
  let l := farLine s (a / 128)
  putFarLine s (a / 128) ⟨mergeLine l.data (a % 128) bytes,
    if a % 128 = 0 ∧ bytes.length = 128 then BitVec.ofNat 4 readers else 0, true, l.onChip, coverBad l.bad (a % 128) bytes.length⟩

/-! ### L1 and L2 -/

/-- Whether L1 or L2 holds bytes of a line that are newer than the far point. -/
def dirtyNear (s : State) (line : Nat) : Bool := s.near.any (fun c => c.1 / 128 == line)

/-- A core's number over the domain (R10). -/
def coreKey (m core : Nat) : Nat := m * 256 + core
/-- The cluster of a core (R10). -/
def clusterOf (core : Nat) : Nat := core % 12 / 2 + 6 * (core / 12 / 2)
/-- Core `k` of a cluster (R10). -/
def clusterCore (n k : Nat) : Nat := 12 * (2 * (n / 6) + k / 2) + 2 * (n % 6) + k % 2
/-- The core whose L1 holds the line at a location for a scalar access of `core`: its own, or in fused use cluster core PA[7:6] (R137). -/
def State.l1Core (s : State) (m core a : Nat) : Nat :=
  if ((s.mod? m).map (fun x => x.fused.contains (clusterOf core))).getD false then clusterCore (clusterOf core) (a / 64 % 4) else core

/-- L1s give up the 64-byte lines that `mine` selects; the bytes of a dirty one are those of the near point (R134). -/
def dropL1 (s : State) (mine : L1Line → Bool) : State := { s with l1 := s.l1.filter (fun x => !mine x) }

/-- L1 and L2 write their copy of a line back to the far point, with its poison, and stay clean (R138, R151, R455). A write-back is a
write: the far point's line becomes an ordinary one (R141). -/
def pushLine (s : State) (line : Nat) : State :=
  if dirtyNear s line then
    let l := farLine s line
    let at_ := fun (i : Nat) => Tbl.find (128 * line + i) s.near
    let whole := fun (k : Nat) => (upto (8 * k) 8).all (fun i => (at_ i).isSome)
    let t := putFarLine s line ⟨(upto 0 128).map (fun i => (at_ i).getD (l.data.getD i 0)), 0, true, l.onChip,
      (upto 0 16).filter (fun k => s.badNear.contains (16 * line + k) || (l.bad.contains k && !whole k))⟩
    { t with
      near := t.near.filter (fun c => !(c.1 / 128 == line))
      l1 := t.l1.map (fun x => if x.line / 2 = line then { x with dirty := false, under := false } else x) }
  else s

/-- The on-chip bit of a line of the memory-side cache (R150). -/
def setOnChip (s : State) (line : Nat) (b : Bool) : State :=
  match Tbl.find line s.msc with
  | some l => { s with msc := Tbl.put line { l with onChip := b } s.msc }
  | none => s

/-- L1 and L2 give up their copy of a line as it stands. -/
def dropCopies (s : State) (line : Nat) : State :=
  let t := setOnChip s line false
  { t with
    l1 := t.l1.filter (fun x => !decide (x.line / 2 = line))
    l2 := t.l2.filter (· ≠ line)
    near := t.near.filter (fun c => !(c.1 / 128 == line))
    badNear := t.badNear.filter (fun w => !decide (w / 16 = line)) }

/-- A recall of a line: dirty bytes are written back and every copy is invalidated (R151). -/
def recallLine (s : State) (line : Nat) : State := dropCopies (pushLine s line) line

/-- A read request for a line at the memory-side cache, which allocates it: the count falls, unless the line returns poison; at zero the
line is dropped, or stays an ordinary one when the recall of its near copies returns dirty bytes (R140, R141, R455). -/
def mscRead (s : State) (line : Nat) : State :=
  if locHbm (128 * line) then
    let l := farLine s line
    if l.count = 0 ∨ l.bad ≠ [] then { s with msc := Tbl.put line l s.msc }
    else if l.count = 1 then
      if dirtyNear s line then recallLine s line
      else
        let t := dropCopies s line
        { t with msc := Tbl.del line t.msc }
    else { s with msc := Tbl.put line { l with count := l.count - 1 } s.msc }
  else s

/-- The memory-side cache of a line's stack allocates it as it stands (R140). -/
def fillFar (s : State) (line : Nat) : State :=
  if locHbm (128 * line) then { s with msc := Tbl.put line (farLine s line) s.msc } else s

/-- L2 takes a copy of a line, its poison with it; the memory-side cache holds every line that L2 holds and marks it (R138, R150, R455). -/
def fillCopy (s : State) (line : Nat) : State :=
  if s.l2.contains line then s
  else
    let l := farLine s line
    let t := if locHbm (128 * line) then { s with msc := Tbl.put line { l with onChip := true } s.msc } else s
    { t with
      l2 := line :: t.l2
      badNear := t.badNear.filter (fun w => !decide (w / 16 = line)) ++ l.bad.map (fun k => 16 * line + k) }

/-- A word of memory, by its location over 8, becomes poisoned: in the copy that L2 holds, or at the far point (R454, R455). -/
def State.spoil (s : State) (far : Bool) (w : Nat) : State :=
  if !far && s.l2.contains (w / 16) then { s with badNear := w :: s.badNear.erase w }
  else match Tbl.find (w / 16) s.msc with
    | some l => { s with msc := Tbl.put (w / 16) { l with bad := w % 16 :: l.bad.erase (w % 16) } s.msc }
    | none => { s with badMem := w :: s.badMem.erase w }

/-- An L2 fill that supplies data to a reader is a read request; the line that it drops leaves no copy on chip (R141). A replay's fill leaves
the count (R439). -/
def fillRead (s : State) (replay : Bool) (line : Nat) : State :=
  if s.l2.contains line then s
  else if !replay && decide ((farLine s line).count = 1) && (farLine s line).bad.isEmpty then mscRead s line
  else fillCopy (if replay then s else mscRead s line) line

/-- What a read counts by: its location and its page: 0 a cached one, 1 an NC page, 2 a D page (R126, R127, R141). -/
def reqKey (page a : Nat) : Nat := 4 * a + page

/-- A read request of the current hart for a line: one of its own module's lines goes through L2; another module's line, or an uncached
page's, is read at the owner's memory-side cache (R138, R141). -/
def nearRead (s : State) (replay uncached : Bool) (line : Nat) : State :=
  if uncached || decide (128 * line / 2 ^ 52 ≠ s.cur.mod) then if replay then s else mscRead s line
  else fillRead s replay line

/-- The read requests of some reads, keyed by `reqKey`: each line once, however many elements it serves, but in D memory one for each
element, in order (R127, R141); those of a replayed instruction leave the counts (R439). -/
def readReqs (s : State) (reqs : List Nat) : State :=
  (((reqs.filter (fun r => !decide (r % 4 = 2))).map (fun r => reqKey (r % 4) (r / 4 / 128))).dedup ++
    (reqs.filter (fun r => decide (r % 4 = 2))).map (fun r => reqKey 2 (r / 4 / 128))).foldl
    (fun t k => nearRead t (t.cur.active.any (·.trapped)) (decide (k % 4 ≠ 0)) (k / 4)) s

/-- Whether an L1 line is one of the current hart's core's that some of these reads touch (R135). -/
def State.ownLine (s : State) (reqs : List Nat) (x : L1Line) : Bool :=
  decide (x.core = coreKey s.cur.mod (s.l1Core s.cur.mod s.cur.seat.core (64 * x.line))) &&
    reqs.any (fun r => decide (r % 4 = 0) && decide (r / 4 / 64 = x.line))

/-- The reads of a vector or matrix access: the core's own L1 copies of the 64-byte lines are written back and invalidated first (R135). -/
def countReads (s : State) (reqs : List Nat) : State := readReqs (dropL1 s (s.ownLine reqs)) reqs

/-- The same for the reads of a far execution, none of which looks at L1 or L2 (R141, R150). -/
def countFarReads (s : State) (reqs : List Nat) : State := readReqs s (reqs.map (fun r => reqKey 1 (r / 4)))

/-- The line of a location as the L1 that serves core `c` of module `m` holds it (R134, R137). -/
def State.l1Line (s : State) (m c a : Nat) : Option L1Line :=
  s.l1.find? (fun x => decide (x.core = coreKey m (s.l1Core m c a)) && decide (x.line = a / 64))

/-- A scalar read of core `c` of module `m` that has performed leaves its line, which L2 holds, in that core's L1 (R134, R137). -/
def State.readL1 (s : State) (m c a : Nat) : State :=
  if !s.l2.contains (a / 128) || (s.l1Line m c a).isSome then s
  else { s with l1 := ⟨coreKey m (s.l1Core m c a), a / 64, false, false⟩ :: s.l1 }

/-- A scalar write of core `c` of module `m`, performed by `put`: the line is gained from every other L1 and leaves dirty in that core's own
(R134, R137). -/
def State.writeL1 (s : State) (m c a : Nat) (put : State → State) : State :=
  let t := put s
  if !t.l2.contains (a / 128) then t
  else
    let under := match (s.l1Line m c a).filter (·.dirty) with
      | some x => x.under
      | none => s.near.any (fun b => b.1 / 64 == a / 64)
    { t with l1 := ⟨coreKey m (s.l1Core m c a), a / 64, true, under⟩ :: t.l1.filter (fun x => !decide (x.line = a / 64)) }

/-- Whether L2's own copy of a 128-byte line is dirty, whatever an L1 above it holds (R454). -/
def dirtyL2 (s : State) (line : Nat) : Bool :=
  ([2 * line, 2 * line + 1] : List Nat).any (fun k =>
    s.near.any (fun b => b.1 / 64 == k) && !s.l1.any (fun x => decide (x.line = k) && x.dirty && !x.under))

/-- Write bytes at the far point after recalling their line's near copies (R151); the bytes lie in one line. -/
def farStoreLine (s : State) (a : Nat) (bytes : List Byte) (readers : Nat) : State :=
  mscWrite (recallLine s (a / 128)) a bytes readers

/-- Split a run of bytes at 128-byte lines. -/
def byLines : Nat → Nat → List Byte → List (Nat × List Byte)
  | 0, _, _ => []
  | f + 1, a, bs =>
    if bs.isEmpty then []
    else
      let n := 128 - a % 128
      (a, bs.take n) :: byLines f (a + n) (bs.drop n)

/-- Write bytes at the far point. -/
def storeFar (s : State) (a : Nat) (bytes : List Byte) (readers : Nat) : State :=
  (byLines (bytes.length / 128 + 2) a bytes).foldl (fun t c => farStoreLine t c.1 c.2 readers) (breakResvs s a bytes.length)

/-- Write bytes at the near point (R149): L2 allocates their lines, which is no read request (R141), every L1 copy of their 64-byte lines is
invalidated (R134), and each poisoned word that the bytes cover whole is clean (R455). -/
def storeNear (s : State) (a : Nat) (bytes : List Byte) : State :=
  let t := (upto (a / 128) ((a + bytes.length + 127) / 128 - a / 128)).foldl fillCopy (breakResvs s a bytes.length)
  let t := dropL1 t (fun x => decide (64 * x.line < a + bytes.length) && decide (a < 64 * x.line + 64))
  { t with
    near := putNear t.near a bytes
    badNear := t.badNear.filter (fun w => !(decide (a ≤ 8 * w) && decide (8 * w + 8 ≤ a + bytes.length))) }

/-- Write back the dirty near copies of the lines that `mine` selects, to their far point or memory (R156 step 2); L1 and L2 keep them
clean. -/
def writeBack (s : State) (mine : Nat → Bool) : State :=
  ((s.near.filter (fun c => mine c.1)).map (·.1 / 128)).dedup.foldl pushLine s

/-- Write back every near copy homed on a stack of the domain. -/
def writeBackStack (s : State) (home : Nat) : State := writeBack s (locHome home)
/-- Write back every near copy homed on a stack of module `m`. -/
def writeBackStacks (s : State) (m : Nat) : State := writeBack s (fun a => locHbm a && decide (a / 2 ^ 52 = m))
/-- Write back every near copy of a module to its far point or memory (R167). -/
def writeBackModule (s : State) (m : Nat) : State := writeBack s (fun a => decide (a / 2 ^ 52 = m))

/-! ### Capacity and eviction -/

/-- Sets of an L1, of an L2 slice and of a stack's memory-side cache: size over line over ways (R134, R13, R138, R140). -/
def l1Sets : Nat := 512
def l2Sets : Nat := 512
def mscSets : Nat := 65536

/-- The L2 slice of a line: module, lane plane PA[10:8], slice PA[51:11] mod 12 of that plane (R13, R138). -/
def l2Slice (line : Nat) : Nat :=
  (128 * line / 2 ^ 52 * 8 + line / 2 % 8) * 12 + 128 * line % 2 ^ 52 / 2048 % 12

/-- Which set of which cache holds an L1 line, an L2 line, a line of a memory-side cache. -/
def l1Set (x : L1Line) : Nat := x.core * l1Sets + Config.setIndex 0 x.line % l1Sets
def l2Set (line : Nat) : Nat := l2Slice line * l2Sets + Config.setIndex 1 line % l2Sets
def mscSet (line : Nat) : Nat := 128 * line / 0x1000000000 * mscSets + Config.setIndex 2 line % mscSets

/-- A line of a memory-side cache leaves it: its near copies are recalled first, a dirty line goes to DRAM with its poison, and a count is
discarded (R141, R150, R455). -/
def evictMsc (s : State) (line : Nat) : State :=
  let t := recallLine s line
  match Tbl.find line t.msc with
  | none => t
  | some l =>
    let u := { t with msc := Tbl.del line t.msc }
    if l.dirty then putMemLine u line l else u

/-- A line leaves an L1: a dirty one goes to L2, whose bytes are those of the near point (R134). -/
def evictL1 (s : State) (core line : Nat) : State :=
  { s with l1 := s.l1.filter (fun x => !(decide (x.core = core) && decide (x.line = line))) }

/-- The members of one set that holds more than `ways` of these lines, if some set does. -/
def overfull {α : Type} (ways : Nat) (set : α → Nat) (xs : List α) : Option (List α) :=
  if xs.length ≤ ways then none
  else (xs.find? (fun x => decide (ways < (xs.filter (fun y => set y == set x)).length))).map (fun x =>
    xs.filter (fun y => set y == set x))

/-- The member of an overfull set that makes room: the spec names no replacement rule, so the choice is free (log 11). -/
def victim {α : Type} (seed : Nat) (xs : List α) : Option α := xs[Config.choice seed % xs.length]?

/-- Evict from one overfull set, of an L1, else of L2, else of a memory-side cache (R134, R138, R140). -/
def evictOne (s : State) (seed : Nat) : State :=
  match (overfull 8 l1Set s.l1).bind (victim seed) with
  | some x => evictL1 s x.core x.line
  | none => match (overfull 16 l2Set s.l2).bind (victim seed) with
    | some line => recallLine s line
    | none => match (overfull 16 mscSet (s.msc.map (·.1))).bind (victim seed) with
      | some line => evictMsc s line
      | none => s

/-- Bring every cache within its ways. -/
def trimTo : Nat → State → State
  | 0, s => s
  | n + 1, s => trimTo n (evictOne s (2 ^ 32 * s.tick + n))

/-- Every cache within its ways: no more lines stand in excess than there are lines. -/
def State.trim (s : State) : State :=
  if s.l1.length ≤ 8 ∧ s.l2.length ≤ 16 ∧ s.msc.length ≤ 16 then s
  else trimTo (s.l1.length + s.l2.length + s.msc.length) s

/-! ### Translation -/

/-- What an access wants of a page (R124). -/
inductive Want where
  | load | store | amo | fetch
  deriving DecidableEq, Repr

/-- The page-fault code of an access (R434). -/
def Want.code : Want → Nat
  | .load => 0x05
  | .store | .amo => 0x06
  | .fetch => 0x08

/-- A cause from numbers. -/
def mkCause (c s : Nat) : Cause := ⟨BitVec.ofNat 8 c, BitVec.ofNat 8 s⟩

/-- A translated byte address: its spot, and whether its page is of class D or uncached (R126). -/
structure Phys where
  spot : Spot
  pbmt : Nat
  deriving DecidableEq, Repr

/-- Class D memory (R126). -/
def Phys.dclass (p : Phys) : Bool := p.pbmt == 2
/-- Performs at the far point or memory rather than in L1 or L2: an NC or IO page (R126, R148). -/
def Phys.uncached (p : Phys) : Bool := p.pbmt == 1 || p.pbmt == 2
/-- What a read at the address counts by. -/
def Phys.req (p : Phys) : Nat := reqKey (if p.dclass then 2 else if p.uncached then 1 else 0) p.spot.loc

/-- What the reads of translated runs count by: the 64-byte lines of their first and last bytes. -/
def runReqs (ps : List (Phys × Nat)) : List Nat :=
  ps.flatMap (fun q =>
    let last := { q.1 with spot := { q.1.spot with pa := q.1.spot.pa + (q.2 - 1) } }
    if q.1.spot.pa / 64 = last.spot.pa / 64 then [q.1.req] else [q.1.req, last.req])

/-- Whether an Sv57 entry breaks R124 at a level (R434 sub-cause 3). -/
def pteBad (e level : Nat) : Bool :=
  let leaf := bit e 1 || bit e 2 || bit e 3
  bit e 63 || decide (bits e 54 7 ≠ 0) || decide (bits e 61 2 = 3) || (bit e 2 && !bit e 1) || decide (bits e 50 4 ≠ 0) ||
    (!leaf && (bit e 4 || bit e 6 || bit e 7)) || (!leaf && level == 0)

/-- Whether a leaf lacks a permission that the access needs (R124, R434 sub-cause 5). -/
def pteDenies (e : Nat) (w : Want) : Bool :=
  !bit e 4 || (match w with
    | .load => !bit e 1
    | .store => !bit e 2
    | .amo => !bit e 1 || !bit e 2
    | .fetch => !bit e 3)

/-- What a leaf entry at a level gives: a physical address and PBMT, or the sub-cause it raises (R124, R125, R434). -/
def leafOutcome (e level va : Nat) (w : Want) : Except Nat (Nat × Nat) :=
  let ppn := bits e 10 40
  if ppn % 2 ^ (9 * level) ≠ 0 then .error 4
  else if pteDenies e w then .error 5
  else if !bit e 6 then .error 6
  else if (decide (w = .store) || decide (w = .amo)) && !bit e 7 then .error 7
  else .ok (ppn * 4096 + va % 2 ^ (12 + 9 * level), bits e 61 2)

/-- Which unit translates (R130, R133): a core, a unit of the compute die that has no TLB slice, the base die of a stack. -/
inductive Via where
  | core (c : Nat)
  | engine
  | far (home : Nat)
  deriving DecidableEq, Repr

/-- What a translation is made with: the unit, the domain's ranks, the module in whose physical map it is made (for a far walk on another
module the issuing one, log 62), sr.atp, the image selectors that an unfinished instruction keeps (R163), and whether it is an engine's
view, which writes the shadow image. -/
structure View where
  via : Via
  ranks : List Nat
  m : Nat
  atp : Word
  sels : List (Nat × Nat × Bool)
  shadow : Bool
  deriving DecidableEq, Repr

/-- The ASID of a view (R88). -/
def View.asid (v : View) : Nat := bits v.atp.toNat 44 16

/-- The translation structures that an address looks in, first to last (R130, R131). -/
def View.tlbs (v : View) (va : Nat) : List TlbPlace :=
  let p := va / 256 % 8
  match v.via with
  | .core c => [.slice v.m c p, .last v.m p]
  | .engine => [.last v.m p]
  | .far home => [.farFirst home, .farLast home]

/-- The walkers that serve an address (R130). -/
def View.walkers (v : View) (va : Nat) : List TlbPlace :=
  match v.via with
  | .core _ | .engine => [.walker v.m (va / 256 % 8)]
  | .far home => [.farWalker home 0, .farWalker home 1]

/-- Whether an entry translates an address of an ASID (R128, R130). -/
def TlbEntry.covers (e : TlbEntry) (asid va : Nat) : Bool :=
  (e.global || decide (e.asid = asid)) && decide (e.page = va % 2 ^ 57 / 2 ^ (12 + 9 * e.level))

/-- The leaf that a translation structure holds for an address (R130). -/
def State.heldLeaf (s : State) (v : View) (va : Nat) : Option TlbEntry :=
  firstSome (fun q => s.tlb.find? (fun e => decide (e.place = q) && e.covers v.asid va)) (v.tlbs va)

/-- Where a walk starts: below the deepest non-leaf entry that a walker keeps for the address, else at the root (R130): the levels left and
the table's PPN. -/
def State.walkStart (s : State) (v : View) (va : Nat) : Nat × Nat :=
  match firstSome (fun n => s.tlb.find? (fun e => (v.walkers va).contains e.place && decide (e.level = n) && e.covers v.asid va)) [1, 2, 3, 4] with
  | some e => (e.level, bits e.pte 10 40)
  | none => (5, bits v.atp.toNat 0 40)

/-- Whether a walker reads the table entry at a spot at the far point: a base die's own walker, where the entry is homed on its stack
(R130). -/
def View.readsFar (v : View) (x : Spot) : Bool :=
  match v.via with
  | .far home => decide (x.home = some home)
  | _ => false

/-- What holds an access at a spot: a module of the domain that gives no response, but not to a posted store (R166, R475), or a frame
under migration (R442). -/
def State.holderAt (s : State) (m : Nat) (x : Spot) (posted : Bool) (moving : Holder) : Option Holder :=
  if !posted && decide (x.m ≠ m) && !s.modRuns x.m then some (.silent x.m) else if s.movingAt x then some moving else none

/-- The walk from a table with `n` levels left down to a leaf (R124, R441): the leaf entry and its level. -/
def walk (s : State) (v : View) (va : Nat) (w : Want) : Nat → Nat → Except Stop (Nat × Nat)
  | 0, _ => .error (.trap (mkCause w.code 3) (BitVec.ofNat 64 va))
  | level + 1, ppn =>
    match s.resolve v.ranks v.m (ppn * 4096 + bits va (12 + 9 * level) 9 * 8) with
    | .error (c, k) => .error (.trap (if c = 0x07 ∧ k = 1 then mkCause 0x07 2 else mkCause c k) (BitVec.ofNat 64 va))
    | .ok x => match s.holderAt v.m x false .table with
      | some k => .error (.hold k (BitVec.ofNat 64 va))
      | none => match poisonedAt s (v.readsFar x) x.loc 8 with
        | some p => .error (.trap (mkCause 0x07 5) (BitVec.ofNat 64 (8 * p % 2 ^ 52)))
        | none =>
          let e := leNat (readBytes s (v.readsFar x) x.loc 8)
          if !bit e 0 then .error (.trap (mkCause w.code 1) (BitVec.ofNat 64 va))
          else if pteBad e level then .error (.trap (mkCause w.code 3) (BitVec.ofNat 64 va))
          else if bit e 1 || bit e 2 || bit e 3 then .ok (e, level)
          else walk s v va w level (bits e 10 40)

/-- The leaf entry for an address and its level: held in a translation structure, else walked to (R124, R130). -/
def State.leafFor (s : State) (v : View) (va : Nat) (w : Want) : Except Stop (Nat × Nat) :=
  match s.heldLeaf v va with
  | some e => .ok (e.pte, e.level)
  | none =>
    let r := s.walkStart v va
    walk s v va w r.1 r.2

/-- A canonical Sv57 address: bits [63:57] equal bit 56 (R124). -/
def canonical (va : Nat) : Bool := va < 2 ^ 56 || 2 ^ 64 - 2 ^ 56 ≤ va

/-- The publishable buffer of a module that holds a virtual address (R335). -/
def Module.pub? (x : Module) (asid va : Nat) : Option PubBuf :=
  x.pubs.find? (fun b => b.asid == asid && decide (b.va ≤ va) && decide (va < b.va + b.len))

/-- Which image of a buffer an access uses: the one that the instruction has used before, else the selected one, or the shadow for an
engine (R163, log 20). -/
def PubBuf.image (b : PubBuf) (v : View) : Bool :=
  match v.sels.find? (fun q => decide (q.1 = b.asid) && decide (q.2.1 = b.va)) with
  | some q => q.2.2
  | none => b.sel != v.shadow

/-- The address of one image of a buffer at a virtual address. -/
def PubBuf.addr (b : PubBuf) (image : Bool) (va : Nat) : Nat := (if image then b.image1 else b.image0) + (va - b.va)

/-- Translate a virtual address (R124, R163). -/
def State.translateAs (s : State) (v : View) (va : Nat) (w : Want) : Except Stop Phys :=
  if !canonical va then .error (.trap (mkCause w.code 2) (BitVec.ofNat 64 va))
  else match s.leafFor v va w with
    | .error e => .error e
    | .ok (e, level) => match leafOutcome e level va w with
      | .error k => .error (.trap (mkCause w.code k) (BitVec.ofNat 64 va))
      | .ok (pa0, pbmt) =>
        let pa := match (s.mod? v.m).bind (fun x => x.pub? v.asid va) with
          | some b => b.addr (b.image v) va
          | none => pa0
        match s.resolve v.ranks v.m pa with
        | .error (c, k) => .error (.trap (mkCause c k) (BitVec.ofNat 64 va))
        | .ok x => match s.holderAt v.m x (decide (w = .store)) .frame with
          | some k => .error (.hold k (BitVec.ofNat 64 va))
          | none => .ok ⟨x, pbmt⟩

/-- How the current hart's core translates. -/
def State.view (s : State) : View :=
  ⟨.core s.cur.seat.core, s.ranksOf s.cur, s.cur.mod, s.cur.atp, s.cur.unf.sels, false⟩

/-- How the base die of a stack translates for a far instruction of the current hart (R133). -/
def State.farView (s : State) (home : Nat) : View := { s.view with via := .far home }

/-- Translate for the current hart. -/
def State.translate (s : State) (va : Nat) (w : Want) : Except Stop Phys := s.translateAs s.view va w

/-- A leaf as a translation structure holds it: one larger than 1 GiB as the 1 GiB entry that covers the address (R125). -/
def heldAs (e level va : Nat) : Nat × Nat :=
  if level ≤ 2 then (e, level) else (setBits e 10 40 (bits e 10 40 + va / 2 ^ 30 % 2 ^ (9 * (level - 2)) * 2 ^ 18), 2)

/-- The table entries that a walk reads, the leaf last: the spot, the levels left below, the entry (R124, R130). -/
def walkPath (s : State) (v : View) (va : Nat) : Nat → Nat → List (Spot × Nat × Nat)
  | 0, _ => []
  | level + 1, ppn =>
    match s.resolve v.ranks v.m (ppn * 4096 + bits va (12 + 9 * level) 9 * 8) with
    | .error _ => []
    | .ok x =>
      let e := leNat (readBytes s (v.readsFar x) x.loc 8)
      if (poisonedAt s (v.readsFar x) x.loc 8).isSome then []
      else if !bit e 0 || pteBad e level || bit e 1 || bit e 2 || bit e 3 then [(x, level, e)]
      else (x, level, e) :: walkPath s v va level (bits e 10 40)

/-- Whether a table entry names a further table. -/
def pteNext (e : Nat) : Bool := bit e 0 && !bit e 1 && !bit e 2 && !bit e 3

/-- A walk reads a table entry: a compute die's walker through L2, which allocates the line, a base die's through the memory-side cache of
the entry's stack (R130, R138, R140). It supplies no reader of R141 and leaves a count (DESIGN CHOICE, log 67). -/
def State.walkRead (s : State) (v : View) (x : Spot) : State :=
  match v.via with
  | .far _ => fillFar s (x.loc / 128)
  | _ => if x.m = v.m then fillCopy s (x.loc / 128) else s

/-- Entries of a structure (R130). -/
def TlbPlace.size : TlbPlace → Nat
  | .slice _ _ _ => 64
  | .last _ _ => 2048
  | .farFirst _ => 256
  | .farLast _ => 4096
  | .walker _ _ | .farWalker _ _ => 32

/-- Put an entry into its structure; in a full one it takes the place of another, which one is free (R130, log 6). -/
def State.putTlb (s : State) (e : TlbEntry) : State :=
  let rest := s.tlb.filter (fun x => !(decide (x.place = e.place) && decide (x.level = e.level) && decide (x.page = e.page) &&
    decide (x.asid = e.asid)))
  let mine := rest.filter (fun x => decide (x.place = e.place))
  { s with tlb := e :: (if mine.length < e.place.size then rest
      else match victim s.tick mine with
        | some x => rest.erase x
        | none => rest) }

/-- A walk for an address reads its table entries and fills the structures that look it up with its leaf, and its walker, of a base die's two
either, with the non-leaf entries it passed (R125, R129, R130). No entry is built from one with V = 0, nor from a leaf that R124 forbids. -/
def State.fillTlb (s : State) (v : View) (va : Nat) : State :=
  if !canonical va then s
  else
    let path := walkPath s v va 5 (bits v.atp.toNat 0 40)
    let t := path.foldl (fun u c => u.walkRead v c.1) s
    match walk s v va .load 5 (bits v.atp.toNat 0 40) with
    | .error _ => t
    | .ok (e, level) =>
      if bits e 10 40 % 2 ^ (9 * level) ≠ 0 then t
      else
        let h := heldAs e level va
        let t := (v.tlbs va).foldl (fun u q => u.putTlb ⟨q, v.asid, bit e 5, va % 2 ^ 57 / 2 ^ (12 + 9 * h.2), h.2, h.1⟩) t
        (path.filter (fun c => pteNext c.2.2)).foldl (fun u c => ((victim s.tick (v.walkers va)).toList).foldl (fun u q =>
          u.putTlb ⟨q, v.asid, bit c.2.2 5, va % 2 ^ 57 / 2 ^ (12 + 9 * c.2.1), c.2.1, c.2.2⟩) u) t

/-- The module of a translation structure. -/
def TlbPlace.mod : TlbPlace → Nat
  | .slice m _ _ | .last m _ | .walker m _ => m
  | .farFirst h | .farLast h | .farWalker h _ => h / 16

/-- Invalidate a module's translations of an ASID, or of every one, in a virtual range (R129): when this completes, no walk that began
before is unfinished and no entry that one filled is left. -/
def State.dropTlb (s : State) (m : Nat) (asid : Option Nat) (va len : Nat) : State :=
  { s with tlb := s.tlb.filter (fun e => !(decide (e.place.mod = m) &&
      (match asid with
        | some a => e.global || decide (e.asid = a)
        | none => true) &&
      decide (e.page * 2 ^ (12 + 9 * e.level) < va % 2 ^ 57 + len) &&
      decide (va % 2 ^ 57 < (e.page + 1) * 2 ^ (12 + 9 * e.level)))) }

/-! ### Posted stores -/

/-- Whether a message is a posted store of a hart. -/
def Msg.storeOf (i : HartId) : Msg → Bool
  | .store h _ _ _ _ _ _ _ => decide (h = i)
  | _ => false

/-- Whether a message is a posted store of one stream of a hart (R154). -/
def Msg.storeOn (i : HartId) (vec : Bool) : Msg → Bool
  | .store h _ v _ _ _ _ _ => decide (h = i) && decide (v = vec)
  | _ => false

/-- Count a remote store to a migratable page for the writer's module (R446). -/
def countPage (s : State) (src a : Nat) : State :=
  if src = a / 2 ^ 52 then s
  else s.onMod (a / 2 ^ 52) (fun x => match Tbl.find (a % 2 ^ 52 / 2 ^ 21) x.pages with
    | some p => { x with pages := Tbl.put (a % 2 ^ 52 / 2 ^ 21) { p with stores := p.stores ++ [(src, s.tick)] } x.pages }
    | none => x)

/-- A posted write performs; a scalar one to its hart's own module, at the near point, leaves its line in its core's L1 (R134). -/
def State.putFor (s : State) (h : HartId) (near : Bool) (a : Nat) (put : State → State) : State :=
  match (if near then s.hart? h else none) with
  | some x => s.writeL1 x.mod x.seat.core a put
  | none => put s

/-- A posted store performs at its owner's near point (the far point for an uncached page or a named reader count): a scalar one leaves its
line in its core's L1 (R134); the acknowledgement of a remote one starts back (R166). -/
def performStore (s : State) (src : Nat) : Msg → State
  | .store h va vec far _ readers a bs =>
    let t := countPage (s.putFor h (!vec && !far && decide (src = a / 2 ^ 52)) a (fun u =>
      if far then storeFar u a bs readers else storeNear u a bs)) src a
    if src = a / 2 ^ 52 then t else { t.heard src (a / 2 ^ 52) with fabric := t.fabric ++ [.ack h va] }
  | _ => s

/-- Whether `n` bytes at a location touch a frame under migration on its module (R442). -/
def State.rangeMoves (s : State) (a n : Nat) : Bool :=
  match s.mod? (a / 2 ^ 52) with
  | some y => y.moving.any (fun e => decide (e.frame < a % 2 ^ 52 + n) && decide (a % 2 ^ 52 < e.frame + e.size))
  | none => false

/-- What keeps a posted store of a module from performing: the owner of its bytes gives no response (R475), or a migration holds it at its
frame's home (R442). -/
def State.storeHolder (s : State) (src : Nat) : Msg → Option Holder
  | .store _ _ _ _ _ _ a bs =>
    if decide (a / 2 ^ 52 ≠ src) && !s.modRuns (a / 2 ^ 52) then some (.silent (a / 2 ^ 52))
    else if s.rangeMoves a bs.length then some .frame else none
  | _ => none

/-- Whether a message is a posted store of D memory of one stream of a hart (R127). -/
def Msg.orderedOf (i : HartId) (vec : Bool) : Msg → Bool
  | .store h _ v _ d _ _ _ => d && decide (h = i) && decide (v = vec)
  | _ => false

/-- A posted store of D memory of the current hart while one of its stream is held: they perform in order (R127, R442). -/
def State.inOrderHeld (s : State) (x : Msg) : Bool :=
  ([true, false] : List Bool).any (fun vec => Msg.orderedOf s.cur.id vec x &&
    s.fabric.any (fun y => Msg.orderedOf s.cur.id vec y && (s.storeHolder s.cur.mod y).isSome))

/-- The posted stores of the current hart that `mine` selects perform, in program order; one that a migration or its silent owner holds
stays (R166, R442, R475). -/
def State.drain (s : State) (mine : Msg → Bool) : State :=
  let goes := fun (x : Msg) => Msg.storeOf s.cur.id x && mine x && (s.storeHolder s.cur.mod x).isNone && !s.inOrderHeld x
  (s.fabric.filter goes).foldl (fun t x => performStore t s.cur.mod x) { s with fabric := s.fabric.filter (fun x => !goes x) }

/-- Whether the current hart has stores posted that have not performed. -/
def State.posted (s : State) : Bool := s.fabric.any (Msg.storeOf s.cur.id)

/-- Bring the posted stores of the hart to perform when there are any. -/
def State.settle (s : State) : State := if s.posted then s.drain (fun _ => true) else s

/-- Bring the posted stores of one stream of the hart to perform (R152, R153, R154). -/
def State.settleOn (s : State) (vec : Bool) : State :=
  if s.fabric.any (Msg.storeOn s.cur.id vec) then s.drain (Msg.storeOn s.cur.id vec) else s

/-- A posted store of the current hart that is still held after every other has performed: what holds it, and its address (R442,
R475). -/
def State.stuck (s : State) : Option (Holder × Word) :=
  s.settle.fabric.findSome? (fun x => match x with
    | .store h va _ _ _ _ _ _ => if h = s.cur.id then some ((s.storeHolder s.cur.mod x).getD .frame, va) else none
    | _ => none)

/-- The address that an acknowledgement of the hart confirms. -/
def Msg.ackOf (i : HartId) : Msg → Option Word
  | .ack h va => if h = i then some va else none
  | _ => none

/-- Every remote store of the current hart has performed and its acknowledgement has arrived (R158, R166). -/
def State.acknowledged (s : State) : State :=
  let t := s.settle
  let left := t.fabric.foldl (fun u x => ((x.ackOf s.cur.id).map u.erase).getD u) t.cur.unacked
  { t with
    fabric := t.fabric.filter (fun x => (x.ackOf s.cur.id).isNone)
    cur := { t.cur with unacked := left } }

/-! ### Accesses of the current hart -/

/-- A read of `n` bytes at a translated address (R148): poison stops it (R456). -/
def State.readPhys (s : State) (p : Phys) (n : Nat) (far : Bool) : Except Stop (List Byte) :=
  match poisonedAt s (far || p.uncached) p.spot.loc n with
  | some w => .error (.trap (mkCause 0x07 5) (BitVec.ofNat 64 (8 * w % 2 ^ 52)))
  | none => .ok (readBytes s (far || p.uncached) p.spot.loc n)

/-- Whether a write performs at the far point: an uncached page, or a store that names readers on a stack (R141, R148). -/
def Phys.writesFar (p : Phys) (readers : Nat) : Bool := p.uncached || (decide (0 < readers) && p.spot.home.isSome)
/-- The reader count that a store gives at a page: none on a D page or with no home stack (R141). -/
def Phys.readersAt (p : Phys) (readers : Nat) : Nat := if p.dclass || p.spot.home.isNone then 0 else readers

/-- A write that performs now, at the far point or the near point (R141, R148, R151). -/
def State.putPhys (s : State) (p : Phys) (bytes : List Byte) (readers : Nat) : State :=
  if p.writesFar readers then storeFar s p.spot.loc bytes (p.readersAt readers) else storeNear s p.spot.loc bytes

/-- Whether a scalar access of the current hart leaves its line in L1: one of its own module's, cached, that performs now (R134, R138). -/
def State.inL1 (s : State) (p : Phys) : Bool := !p.uncached && decide (p.spot.m = s.cur.mod)

/-- What a scalar read that has performed leaves: its read request counted, its line in L1 (R134, R141). -/
def State.scalarReadDone (s : State) (p : Phys) : State :=
  let t := readReqs s [p.req]
  if s.inL1 p then t.readL1 s.cur.mod s.cur.seat.core p.spot.loc else t

/-- A scalar write that performs now, its line left in L1 (R134). -/
def State.putScalar (s : State) (p : Phys) (bytes : List Byte) : State :=
  if s.inL1 p then s.writeL1 s.cur.mod s.cur.seat.core p.spot.loc (fun t => t.putPhys p bytes 0) else s.putPhys p bytes 0

/-- A write of one stream of the current hart: posted when the location is on another module (R166) or the hart's own stores are posted
in this turn (R152, R154), else performed now. -/
def State.writePhys (s : State) (vec : Bool) (va : Word) (p : Phys) (bytes : List Byte) (readers : Nat) : State :=
  if p.spot.m ≠ s.cur.mod then
    { s with fabric := s.fabric ++ [.store s.cur.id va vec (p.writesFar readers) p.dclass (p.readersAt readers) p.spot.loc bytes],
             cur := { s.cur with unacked := s.cur.unacked ++ [va] } }
  else if s.cur.later && !p.dclass then
    { s with fabric := s.fabric ++ [.store s.cur.id va vec (p.writesFar readers) p.dclass (p.readersAt readers) p.spot.loc bytes] }
  else if vec then s.putPhys p bytes readers
  else s.putScalar p bytes

/-- Before an access of one stream the posted stores that it must follow have performed: to another module all of the hart's (R166), to its
own those of the same stream (R152, R153); the other stream's stand unordered (R154). -/
def State.settleFor (s : State) (vec : Bool) (p : Phys) : State := if p.spot.m = s.cur.mod then s.settleOn vec else s.settle

/-- Split an access of `n` bytes into runs that each lie within one 128-byte line. -/
def lineRuns : Nat → Nat → Nat → List (Nat × Nat)
  | 0, _, _ => []
  | f + 1, va, n =>
    if n = 0 then []
    else
      let k := min n (128 - va % 128)
      (va, k) :: lineRuns f (va + k) (n - k)

/-- Translate every run of a longer access, addresses wrapping modulo 2^64. -/
def State.transRuns (s : State) (w : Want) : List (Nat × Nat) → Except Stop (List (Phys × Nat))
  | [] => .ok []
  | (va, n) :: rest => match s.translate (va % 2 ^ 64) w with
    | .error e => .error e
    | .ok p => match s.transRuns w rest with
      | .error e => .error e
      | .ok ps => .ok ((p, n) :: ps)

/-- Translate all lines of an access of `n` bytes. -/
def State.transRange (s : State) (va n : Nat) (w : Want) : Except Stop (List (Phys × Nat)) :=
  s.transRuns w (lineRuns (n / 128 + 2) va n)

/-- As `transRuns` under a view, for an operand that may not lie in D memory: the sub-cause of 0x0A that it raises there (R434, R440). -/
def State.transRunsD (s : State) (v : View) (w : Want) (sub : Nat) : List (Nat × Nat) → Except Stop (List (Phys × Nat))
  | [] => .ok []
  | (va, n) :: rest => match s.translateAs v (va % 2 ^ 64) w with
    | .error e => .error e
    | .ok p =>
      if p.dclass then .error (.trap (mkCause 0x0A sub) (BitVec.ofNat 64 va))
      else match s.transRunsD v w sub rest with
        | .error e => .error e
        | .ok ps => .ok ((p, n) :: ps)

/-- Translate all lines of an access of `n` bytes that may not lie in D memory. -/
def State.transRangeD (s : State) (v : View) (va n : Nat) (w : Want) (sub : Nat) : Except Stop (List (Phys × Nat)) :=
  s.transRunsD v w sub (lineRuns (n / 128 + 2) va n)

/-- The location of byte `off` of translated runs. -/
def runLoc : List (Phys × Nat) → Nat → Nat
  | [], _ => 0
  | (p, n) :: rest, off => if off < n then p.spot.loc + off else runLoc rest (off - n)

/-- Whether byte `off` of translated runs is written beyond L2. -/
def runUncached : List (Phys × Nat) → Nat → Bool
  | [], _ => false
  | (p, n) :: rest, off => if off < n then p.uncached else runUncached rest (off - n)

/-- Read translated runs in order. -/
def State.readRuns (s : State) (far : Bool) : List (Phys × Nat) → Except Stop (List Byte)
  | [] => .ok []
  | (p, n) :: rest => match s.readPhys p n far with
    | .error e => .error e
    | .ok b => match s.readRuns far rest with
      | .error e => .error e
      | .ok bs => .ok (b ++ bs)

/-- Write bytes of one stream over translated runs in order. -/
def State.writeRuns (s : State) (vec : Bool) (va : Nat) : List (Phys × Nat) → List Byte → State
  | [], _ => s
  | (p, n) :: rest, bs => (s.writePhys vec (BitVec.ofNat 64 va) p (bs.take n) 0).writeRuns vec (va + n) rest (bs.drop n)

/-- The words at these byte offsets of runs that were just written are poisoned (R455). -/
def State.spoilRuns (s : State) (ps : List (Phys × Nat)) (offs : List Nat) : State :=
  offs.foldl (fun u o => u.settle.spoil (runUncached ps o) (runLoc ps o / 8)) s

/-- The posted stores that a stream's access to these runs must follow have performed. -/
def State.settleRuns (s : State) (vec : Bool) (ps : List (Phys × Nat)) : State := ps.foldl (fun t q => t.settleFor vec q.1) s

/-- Read `n` bytes at a virtual address at the near point, crossing lines and pages, after the hart's own earlier stores of the stream
to them. -/
def State.readVa (s : State) (vec : Bool) (va n : Nat) : Except Stop (List Byte × List (Phys × Nat)) :=
  match s.transRange va n .load with
  | .error e => .error e
  | .ok ps => match (s.settleRuns vec ps).readRuns false ps with
    | .error e => .error e
    | .ok b => .ok (b, ps)

/-! ### Outcomes of an instruction's body -/

/-- What an instruction's body gives: it completes, traps (with the state that R390 leaves), waits (R59), is held by a
migration or by a module that gives no response, or stays for an interlock that is no wait in the sense of R59. -/
inductive Res where
  | ok (s : State)
  | trap (t : Trap) (s : State)
  | wait (on : Word) (s : State)
  | held (holder : Holder) (va : Word) (s : State)
  | stall (s : State)

/-- An instruction that waits until every earlier store of its hart has performed (R158): one that is held, it waits for (R442, R475). -/
def State.afterStores (s : State) (body : State → Res) : Res :=
  match s.stuck with
  | some k => .held k.1 k.2 s
  | none => body s.settle

/-- A precise exception: no effect (R415). -/
def precise (c k : Nat) (tval : Word) (s : State) : Res := .trap ⟨mkCause c k, tval, false⟩ s

/-- An imprecise exception of the whole instruction: sr.estart 0 (R415); `va` is the faulting address of a 0x04 cause (R392). -/
def imprecise (c k va : Nat) (s : State) : Res :=
  .trap ⟨mkCause c k, if c = 0x04 then BitVec.ofNat 64 va else 0, true⟩ s

/-- A stop of an access, precise for the scalar stream and imprecise for the vector queue. -/
def Stop.res (e : Stop) (imp : Bool) (s : State) : Res :=
  match e with
  | .trap c v => .trap ⟨c, v, imp⟩ s
  | .hold w va => .held w va s

/-! ### Traps -/

/-- Codes on route H (R392). -/
def routeH (code : Byte) : Bool := [0x01, 0x02, 0x03, 0x04, 0x09, 0x0A, 0x0E].contains code.toNat

/-- Write the trap registers for a trap (R395 steps 3 and 4): for an imprecise trap sr.tepc is the oldest scalar head not
yet issued and sr.tvpc and HEAD are those of the queue entry; for a precise one sr.tepc is the faulting head, or for TRAP the next. -/
def Hart.record (h : Hart) (t : Trap) : Hart :=
  let e := h.vq.head?
  { h with trap := { h.trap with
      tepc := if t.imp then h.pc else if t.cause.code = 0x01 then h.npc else h.pc
      cause := t.cause
      tval := t.tval
      imp := t.imp
      grnt := BitVec.ofNat 4 h.grant
      elem := if t.imp then BitVec.ofNat 18 h.unf.estart else 0
      head := if t.imp then (e.map (·.head)).getD h.head else h.head
      tvpc := if t.imp then (e.map (·.pc)).getD 0 else 0 } }

/-- sr.notice.LEFT: counted down from the step at which it was set, and held in handler mode (R84, R396). -/
def State.leftOf (s : State) (h : Hart) : Nat :=
  if h.notice.pend && !h.trap.hm then h.notice.left.toNat - s.since h.notice.since else h.notice.left.toNat

/-- The watchdog's counter is frozen in handler mode with FPEND = 1 (R468). -/
def Hart.frozen (h : Hart) : Bool := h.trap.hm && h.trap.fpend

/-- The watchdog's counter: it counts while the hart is Running and not frozen (R468). -/
def State.quietOf (s : State) (h : Hart) : Nat :=
  if h.phase = .running ∧ h.frozen = false then h.quietHeld + s.since h.quietFrom else h.quietHeld

/-- LEFT and the watchdog's counter written back as they stand now. -/
def State.markLeft (s : State) (h : Hart) : Hart :=
  { h with
    notice := { h.notice with left := BitVec.ofNat 32 (s.leftOf h), since := s.tick }
    quietHeld := s.quietOf h
    quietFrom := s.tick }

/-- Enter the program's handler (R395): the vector state freezes in place for an imprecise trap; the reservation is lost (R211). -/
def Hart.enterHandler (h : Hart) (t : Trap) : Hart :=
  let r := h.record t
  { r with
    phase := .running
    resv := none
    kheld := none
    pc := r.trap.tvec
    trap := { r.trap with hm := true, fpend := t.imp || !h.vq.isEmpty } }

/-- sr.tinfo (R394). -/
def TrapRegs.info (t : TrapRegs) : Word := BitVec.ofNat 64 (t.elem.toNat * 2 ^ 32 + t.head.toNat)

/-- The error record of a hart's trap registers (R406). -/
def errRecOf (s : State) (h : Hart) (tag : Word) : ErrRec where
  valid := true
  ovf := false
  rank := BitVec.ofNat 6 h.id.rank
  y := BitVec.ofNat 4 h.id.y
  x := BitVec.ofNat 4 h.id.x
  hidx := BitVec.ofNat 3 h.id.hidx
  imp := h.trap.imp
  cause := BitVec.ofNat 12 (h.trap.cause.code.toNat + 256 * (h.trap.cause.sub.toNat % 16))
  tag := tag
  epc := h.trap.tepc
  vpc := h.trap.tvpc
  tval := h.trap.tval
  info := h.trap.info
  cycle := BitVec.ofNat 64 (s.cycle h.mod)
  hart := some h.id
  node := none

/-- Raise an MSI-X vector; while the host link is down the message is dropped (R476). -/
def raiseMsix (s : State) (m v : Nat) : State :=
  s.onMod m (fun x => if x.hostUp then { x with msix := x.msix ++ [v] } else x)

/-- A queue's registers. -/
def Module.queue (x : Module) (q : Nat) : Queue := (Tbl.find q x.queues).getD Queue.reset
/-- A queue's error record. -/
def Module.err (x : Module) (q : Nat) : ErrRec := (Tbl.find q x.errs).getD ErrRec.reset

/-- The key under which a record waits for the domain error record. -/
def domQueue : Nat := 256

/-- Put a record in a queue's error record and raise its vector (R405, R406). -/
def putErr (s : State) (m q : Nat) (r : ErrRec) : State :=
  match s.mod? m with
  | none => s
  | some x =>
    if q = domQueue then raiseMsix (s.onMod m (fun x => { x with domErr := r })) m 255
    else
      let t := s.onMod m (fun x => { x with errs := Tbl.put q r x.errs })
      if (x.queue q).ien then raiseMsix t m (x.queue q).vec.toNat else t

/-- Write an error record; while the record is VALID only OVF is set and the new record waits (R406, R407). -/
def writeErr (s : State) (m q : Nat) (r : ErrRec) : State :=
  match s.mod? m with
  | none => s
  | some x =>
    if q = domQueue then
      if x.domErr.valid then s.onMod m (fun x => { x with domErr := { x.domErr with ovf := true }, pend := x.pend ++ [(q, r)] })
      else putErr s m q r
    else
      let old := x.err q
      if old.valid then s.onMod m (fun x => { x with errs := Tbl.put q { old with ovf := true } x.errs, pend := x.pend ++ [(q, r)] })
      else putErr s m q r

/-- Deliver a record made on module `m` to the queue its launch came from: at once on the originating module, over UALink
from another rank, in the domain error record when the originating module is lost (R405, R407). -/
def reportRec (s : State) (l m : Nat) (r : ErrRec) : State :=
  match s.launch? l with
  | none => s
  | some x =>
    if x.origin = m then writeErr s m x.queue r
    else if ((s.mod? m).map (fun y => y.lost.contains x.origin)).getD false then
      writeErr s m domQueue { r with tag := BitVec.ofNat 64 (x.pkt.gen.toNat * 2 ^ 32) }
    else { s with fabric := s.fabric ++ [.errRec l r] }

/-- Deliver a hart's record (R405). -/
def reportErr (s : State) (h : Hart) : State :=
  match s.launch? h.id.launch with
  | none => s
  | some l => reportRec s h.id.launch h.mod (errRecOf s h l.pkt.tag)

/-- A saved hart's KVAPP between its steps, or its PUBLISH that has not flipped its selector, starts again when it resumes (R408, R335,
R452). -/
def Hart.withdraw (h : Hart) : Hart :=
  match h.vq.head? with
  | some e => match e.instr with
    | .kvapp _ => { h with got := none }
    | .publish _ => if h.send = .granted then h else { h with got := none }
    | _ => h
  | none => h

/-- A write of these state registers clears their poison (R455). -/
def State.coverSr (s : State) (ns : List Nat) : State :=
  if s.poison.isEmpty then s
  else { s with poison := s.poison.filter (fun w => match w with
    | .scalar h r => !(decide (h = s.cur.id) && decide (32 ≤ r) && ns.contains (r - 32))
    | _ => true) }

/-- Save a hart in place (R405, R408): its state is kept exactly, its reservation is lost (R211). -/
def Hart.saveInPlace (h : Hart) : Hart := { h.withdraw with phase := .saved, resv := none, kheld := none, later := false }

/-- A hart saved in place that waits for ACT: it is saved as by a forced save, so its grant is pinned (R405, R408). -/
def Hart.await (h : Hart) (t : Trap) : Hart :=
  let r := (h.record t).saveInPlace
  { r with needsAct := true, trap := { r.trap with pin := true } }

/-- Ouvenaern's count of the faults of a hart at one place, one more of which its trap registers now show (R410). -/
def Hart.refaulted (h : Hart) : Hart :=
  let pc := if h.trap.imp then h.trap.tvpc else h.trap.tepc
  { h with refault := some ⟨h.trap.imp, pc, h.unf.estart, h.unf.rows, h.unf.kdone, match h.refault with
    | some r => if r.vec = h.trap.imp ∧ r.pc = pc ∧ r.estart = h.unf.estart ∧ r.rows = h.unf.rows ∧ r.kdone = h.unf.kdone then r.again + 1 else 0
    | none => 0⟩ }

/-- An instruction completes, of the vector queue or not: a count of its faults ends (R410). -/
def Hart.passes (h : Hart) (vec : Bool) (pc : Word) : Hart :=
  { h with refault := h.refault.filter (fun r => !(r.vec == vec && decide (r.pc = pc))) }

/-- The firmware route (R405): save the hart in place, write its record, wait for ACT. -/
def firmwareRoute (s : State) (t : Trap) : State :=
  let s1 := { s.coverSr [0x12, 0x13, 0x14, 0x15, 0x16] with cur := ((s.markLeft s.cur).await t).refaulted }
  reportErr s1 s1.cur

/-- A hart that is Ended: it holds no slot, lane group or tile (R34, R76). -/
def Hart.finish (h : Hart) : Hart :=
  { h with phase := .ended, accs := [], resv := none, vq := [], moved := 0, waitOn := none, needsAct := false }

/-- Whether a message belongs to a launch. -/
def Msg.launch : Msg → Option Nat
  | .farReq h _ => some h.launch
  | .farDone h _ => some h.launch
  | .kvReq h _ => some h.launch
  | .store _ _ _ _ _ _ _ _ => none
  | .ack h _ => some h.launch
  | .entryReq x => some x.dest.launch
  | .grant h => some h.launch
  | .refusal h _ _ => some h.launch
  | .barDom l _ _ _ => some l
  | .march l _ => some l
  | .arrival l _ => some l
  | .query l _ => some l
  | .release l _ => some l
  | .disarm l _ _ _ => some l
  | .ended l _ => some l
  | .errRec _ _ => none
  | .act h _ _ => some h.launch

/-- Discard what a launch that ends leaves behind on a module: held sends and task nodes (R473). A record that waits for the error
record to be free stays (R397, R406). -/
def Module.discard (x : Module) (l : Nat) : Module :=
  { x with
    march := x.march.filter (fun c => !(c.1 == l))
    holds := x.holds.map (fun q => (q.1, q.2.filter (fun y => !(y.dest.launch == l))))
    asking := x.asking.filter (fun y => !(y.dest.launch == l))
    nodes := x.nodes.map (fun n => (n.1, if n.2.launch == l then { n.2 with state := .free, faulted := false, succs := [] } else n.2)) }

/-- Discard what a launch that ends leaves behind on the ranks that `out` selects: tile windows too (R473). -/
def discardLaunch (s : State) (l : Nat) (ranks : List Nat) (out : Nat → Bool) : State :=
  { s with
    tiles := s.tiles.filter (fun c => !(c.1.launch == l && out c.1.rank))
    mods := s.mods.map (fun c => (c.1, if ranks.contains c.1 && out (ranks.idxOf c.1) then c.2.discard l else c.2)) }

/-- The status word of a completion record, NOCONF 0 (R477). -/
def statusWord (status detail rank : Nat) : Word := BitVec.ofNat 64 (status + detail % 256 * 2 ^ 8 + rank % 64 * 2 ^ 26)

/-- The status word of an abort that some ranks have not confirmed: NOCONF 1, RANK the lowest of them (R477, R478). -/
def unconfirmed (w : Word) : List Nat → Word
  | [] => w
  | r :: _ => BitVec.ofNat 64 (setBits (setBits w.toNat 16 1 1) 26 6 r)

/-- Every hart of a launch ends at once on the ranks that `out` selects, and what it leaves there is discarded (R473, R478). -/
def State.endRanks (s : State) (l : Nat) (x : Launch) (out : Nat → Bool) : State :=
  let t := s.onLaunch l (fun y => { y with
    shares := y.shares.map (fun c => (c.1, if out c.1 then { c.2 with state := .gone } else c.2)) })
  let t := t.onHarts (fun h => h.id.launch == l && out h.id.rank && !decide (h.phase = .absent)) Hart.finish
  discardLaunch t l x.pkt.ranks out

/-- Abort a launch at module m's request (R478): every hart ends at once on every rank that m reaches, which confirms it; the other ranks'
confirmation is awaited, and then the record is written. A launch that had not started has no count of its end (R363). -/
def abortLaunch (s : State) (m l status detail rank : Nat) : State :=
  match s.launch? l with
  | none => s
  | some x =>
    if x.closed then s
    else
      let lost := ((s.mod? m).map (·.lost)).getD []
      let reached := fun (r : Nat) =>
        let k := x.pkt.ranks.getD r 0
        decide (k = m) || (!lost.contains k && s.modRuns k)
      let t := s.onLaunch l (fun y => { y with
        finished := true
        status := if y.finished then y.status else statusWord status detail rank
        endAt := if y.finished then y.endAt else if y.replicated.isSome then none else some s.tick
        unsure := if y.finished then y.unsure else ((upto 0 x.pkt.ranks.length).filter (fun r => !reached r)).map (fun r => (r, s.tick))
        replicated := none })
      t.endRanks l x reached

/-- Causes on route H: by their code, but for 0x0A.5, which goes on route F (R392, R451). -/
def onH (c : Cause) : Bool := routeH c.code && !(decide (c.code = 0x0A) && decide (c.sub = 5))

/-- Causes that end the launch when there is no handler (R397). -/
def fatalNoHandler (c : Cause) : Bool := onH c

/-- Take a trap (R395, R397, R405): the one shared entry. In handler mode it is cause 0x12 and fatal. -/
def takeTrap (s : State) (t : Trap) : State :=
  if s.cur.trap.hm then
    let t2 : Trap := ⟨⟨0x12, t.cause.code⟩, BitVec.ofNat 64 t.cause.code.toNat, t.imp⟩
    abortLaunch (firmwareRoute s t2) s.cur.mod s.cur.id.launch 0x03 0x12 s.cur.id.rank
  else if onH t.cause && decide (s.cur.trap.tvec ≠ 0) then
    { s.coverSr [0x12, 0x13, 0x14, 0x15, 0x16] with cur := (s.markLeft s.cur).enterHandler t }
  else if fatalNoHandler t.cause then
    abortLaunch (firmwareRoute s t) s.cur.mod s.cur.id.launch 0x03 t.cause.code.toNat s.cur.id.rank
  else firmwareRoute s t

/-! ### Control transfer and the end of a hart -/

/-- The line that the current hart's core holds in its instruction buffer (R136). -/
def State.bufferedLine (s : State) (p : Phys) : Option FetchLine :=
  s.ibuf.find? (fun x => decide (x.core = coreKey s.cur.mod s.cur.seat.core) && decide (x.line = p.spot.loc / 64))

/-- Read the 32 halfwords of the line at a line address, as fetch does: from the core's instruction buffer, which does not snoop stores,
else from L2 (R136, R168). Which of the images that R136 allows a fetch sees is the model's choice: the one that the buffer took, at a turn
of the agenda, else the newest (DESIGN CHOICE, log 70). -/
def State.fetchLine (s : State) (line : Nat) : Except Stop (List Half) :=
  match s.translate line .fetch with
  | .error e => .error e
  | .ok p => match s.bufferedLine p with
    | some x => .ok (halves x.bytes)
    | none => match s.readPhys p 64 false with
      | .error e => .error e
      | .ok b => .ok (halves b)

/-- The fetch of a line that the core's instruction buffer does not hold leaves it in L2, which allocates it (R136, R138); it supplies no
reader of R141 and leaves a count (DESIGN CHOICE, log 67). -/
def State.fetchFill (s : State) (va : Nat) : State :=
  match s.translate (va / 64 * 64) .fetch with
  | .error _ => s
  | .ok p => if p.uncached || decide (p.spot.m ≠ s.cur.mod) || (s.bufferedLine p).isSome then s else fillCopy s (p.spot.loc / 128)

/-- The instruction buffer of the current hart's core takes the line at a virtual address as it now stands (R136). -/
def State.fillFetch (s : State) (va : Nat) : State :=
  match s.translate (va / 64 * 64) .fetch with
  | .error _ => s
  | .ok p => match s.readPhys p 64 false with
    | .error _ => s
    | .ok b =>
      let core := coreKey s.cur.mod s.cur.seat.core
      let s := s.fetchFill va
      { s with ibuf := ⟨core, p.spot.loc / 64, b⟩ ::
          s.ibuf.filter (fun x => !(decide (x.core = core) && decide (x.line = p.spot.loc / 64))) }

/-- Whether an address is a head of its line, as far as a transfer checks it (R420): a malformed or unreachable target line
is reported when it is reached. -/
def State.isHead (s : State) (target : Nat) : Bool :=
  if target % 2 = 1 ∨ target % 64 = 0 then false
  else match s.fetchLine (target / 64 * 64) with
    | .error _ => true
    | .ok h => match lineHeads h with
      | .error _ => true
      | .ok n => decide (target % 64 / 2 ≤ n)

/-- The next head of the head at `pc` in a line of `n` heads (R173). -/
def nextHead (pc : Word) (n : Nat) : Word :=
  if pc.toNat % 64 / 2 < n then pc + 2 else pc - BitVec.ofNat 64 (pc.toNat % 64) + 66

/-- A hart that occupies its slot, lane groups and claims: resident, or saved in place awaiting ACT (R33, R34, R405). -/
def Hart.seated (h : Hart) : Bool :=
  match h.phase with
  | .armed | .running | .waiting => true
  | .saved => h.needsAct
  | _ => false

/-- Physical accumulator tiles of a core that harts hold (R75, R76). -/
def State.tilesHeld (s : State) (m core : Nat) : Nat :=
  ((s.allHarts.filter (fun h => h.seated && h.mod == m && h.seat.core == core)).map Hart.acnt).sum

/-- A store of the hart to a rank that is lost and that was never acknowledged: its address (R475). -/
def State.lostStore (s : State) : Option Word :=
  s.cur.unacked.find? (fun va => match s.translate va.toNat .store with
    | .error (.trap c _) => decide (c.code = 0x0F)
    | _ => false)

/-- The last hart of a one-module launch has ended: the launch's end is now (R35, R363). -/
def State.noteEnd (s : State) : State :=
  let l := s.cur.id.launch
  if s.allHarts.all (fun h => !(h.id.launch == l) || decide (h.phase = .ended)) then
    s.onLaunch l (fun x => if x.pkt.ranks.length ≤ 1 ∧ x.endAt.isNone then { x with endAt := some s.tick } else x)
  else s

/-- End the current hart (R205, R35). -/
def endHart (s : State) : State := ({ s.settle with cur := s.settle.cur.finish } : State).noteEnd

/-- A scalar instruction that first lets every older instruction of the hart complete: it stands while the vector queue holds one, which a
handler's frozen queue does for good (R76, R128, R205, R218, R401, log 30). -/
def afterQueue (s : State) (r : Res) : Res := if s.cur.vq.isEmpty then r else .stall s

/-- Transfer control (R202 to R206, R420): address 0 ends the hart once its queue has drained and its stores have performed (R205, R442); a
target that is not a head raises 0x02.09. -/
def jumpTo (s : State) (target : Word) : Res :=
  if target = 0 then
    afterQueue s (match s.lostStore with
      | some va => .trap ⟨mkCause 0x0F 3, va, false⟩ s
      | none => s.afterStores (fun t => .ok { endHart t with cur := { (endHart t).cur with npc := 0 } }))
  else if s.isHead target.toNat then .ok { s with cur := { s.cur with npc := target } }
  else precise 0x02 0x09 (BitVec.ofNat 64 (target.toNat / 64 * 64)) s

/-! ### Finishing an instruction -/

/-- A hart that is no longer Waiting (R59). -/
def Hart.goesOn (h : Hart) : Hart := { h with waitOn := none, phase := if h.phase = .waiting then .running else h.phase }

/-- An access is held, which is no wait (R59); the time for which it is held runs while it is the same access (R442, R475). -/
def Hart.hold (h : Hart) (holder : Holder) (va : Word) (vec : Bool) (t : Nat) : Hart :=
  { h.goesOn with heldFrom := match h.heldFrom with
    | some x => if x.holder = holder ∧ x.va = va ∧ x.vec = vec then some x else some ⟨t, holder, va, vec⟩
    | none => some ⟨t, holder, va, vec⟩ }

/-- The constant bank of the current hart's launch on its module (R64). -/
def State.constBank (s : State) : Tbl Word := ((s.share? s.cur.id.launch s.cur.id.rank).map (·.const)).getD []

/-- The watchdog's counter starts at 0 again, unless it is frozen (R468). -/
def Hart.quiet (h : Hart) (t : Nat) : Hart :=
  { h with quietFrom := if h.frozen then h.quietFrom else t, quietHeld := if h.frozen then h.quietHeld else 0 }

/-- Progress of the current hart: it is Running and nothing is waited for. -/
def Hart.progress (h : Hart) (t : Nat) : Hart :=
  { h.quiet t with waitOn := none, heldFrom := none, kheld := none, phase := if h.phase = .waiting then .running else h.phase }

/-- A scalar instruction that stays keeps the constant bank that it read at issue (R432). -/
def State.keepBank (s : State) : State := { s with cur := { s.cur with kheld := some (s.cur.kheld.getD s.constBank) } }

/-- The current hart waits on something (R59), since the step at which this wait began. -/
def State.waits (s : State) (on : Word) : State :=
  { s with cur := { s.cur.quiet s.tick with
      phase := .waiting, waitOn := some on, waitFrom := if s.cur.waitOn.isSome then s.cur.waitFrom else s.tick } }

/-- A scalar-stream instruction's outcome: on completion the program counter takes the next head. -/
def retire (r : Res) : Host.Outcome State Fault Refusal :=
  match r with
  | .ok s => .next { s with cur := { (s.cur.passes false s.cur.pc).progress s.tick with pc := s.cur.npc } }
  | .trap t s => .next (takeTrap { s with cur := { s.cur with waitOn := none, heldFrom := none, kheld := none, phase := .running } } t)
  | .wait on s => .next (s.keepBank.waits on)
  | .held w va s => .next { s.keepBank with cur := s.keepBank.cur.hold w va false s.tick }
  | .stall s => .next { s.keepBank with cur := s.keepBank.cur.goesOn }

/-- The entry that a vector-queue instruction occupies, with its sources as read at issue (R66, R432). -/
def State.newEntry (s : State) (i : Instr) : QEntry :=
  ⟨i, s.cur.pc, s.cur.head, s.cur.g, s.constBank, .idle, false, [], false⟩

/-- Hold an unfinished vector-queue instruction at the head of the queue; the scalar stream stands at its successor. One that has trapped,
the matrix engine has left, and it reads its descriptors anew (R403, R415). -/
def State.enqueue (s : State) (i : Instr) (trapped : Bool) : State :=
  match s.cur.active with
  | some e => { s with cur := { s.cur with active := none, vq := { e with
      trapped := trapped || e.trapped, started := e.started && !trapped, desc := if trapped then [] else e.desc } :: s.cur.vq.tail } }
  | none => { s with cur := { s.cur with vq := [{ s.newEntry i with trapped := trapped }], moved := 0, pc := s.cur.npc } }

/-- Instructions that execute on the matrix engine and record their progress in sr.rowprog (R276, R403). -/
def isMatrix : Instr → Bool
  | .mmaO _ | .mmaF _ | .mgrpO _ | .mgrpF _ | .mzero _ | .mld _ | .mst _ | .mmovBodyToVec _ | .mmovVecToBody _
  | .mmovStToVec _ | .mmovVecToSt _ | .mscale _ | .msoft _ | .mmask _ | .mmerge _ | .mfin _ | .vproj _ | .vpmerge _
  | .vpfin _ | .vpgrad _ => true
  | _ => false

/-- The accumulator name that sr.rowprog gives for a matrix instruction (R82). -/
def matrixAcc : Instr → Nat
  | .mmaO p | .mmaF p | .mgrpO p | .mgrpF p | .mld p | .mst p | .msoft p | .mfin p | .vproj p | .vpfin p | .vpgrad p => p.d.toNat % 8
  | .mzero p => p.d.toNat % 8
  | .mmovVecToBody p | .mmovVecToSt p | .mscale p | .mmask p | .mmerge p | .vpmerge p => p.d.toNat % 8
  | .mmovBodyToVec p | .mmovStToVec p => p.a.val.toNat % 8
  | _ => 0

/-- Forget what an unfinished instruction recorded; the entry leaves its queue. -/
def State.finishV (s : State) : State :=
  match s.cur.active with
  | some e => { s with cur := { s.cur.passes true e.pc with
      active := none, vq := s.cur.vq.tail, moved := s.cur.moved - 1, unf := Unfinished.none, send := .none, got := none, atBar := false } }
  | none => { s with cur := { s.cur.passes true s.cur.pc with pc := s.cur.npc, unf := Unfinished.none, send := .none, got := none, atBar := false } }

/-- sr.rowprog names the tile of a matrix instruction that stops (R82). -/
def State.noteMatrix (s : State) (i : Instr) : State :=
  if isMatrix i then { s with cur := { s.cur with unf := { s.cur.unf with valid := true, acc := BitVec.ofNat 3 (matrixAcc i) } } } else s

/-- A vector-queue instruction's outcome: on completion it leaves the queue; otherwise it stays at the queue's head with
its sources held, and traps, waits or is held there (R390, R395, R59). One that is held after it has completed an element or a row has made
progress (R468); `was` is what was recorded of it before. -/
def retireV (i : Instr) (was : Unfinished) (r : Res) : Host.Outcome State Fault Refusal :=
  match r with
  | .ok s => .next { s.finishV with cur := s.finishV.cur.progress s.tick }
  | .trap t s =>
    if t.imp then
      let s2 := (s.noteMatrix i).enqueue i true
      .next (takeTrap { s2 with cur := s2.cur.progress s.tick } t)
    else .next (takeTrap { s with cur := { s.cur with active := none, phase := .running } } t)
  | .wait on s => .next ((s.enqueue i false).waits on)
  | .held w va s =>
    let s2 := s.enqueue i false
    let h := if s.cur.unf = was then s2.cur else s2.cur.quiet s.tick
    .next { s2 with cur := h.hold w va true s.tick }
  | .stall s => .next { s.enqueue i false with cur := (s.enqueue i false).cur.goesOn }

/-- Elements of the instruction at which a written sr.estart abandons it (R398); FRED's count is its own. -/
def elementCount (s : State) (fredN : Option Nat) : Nat := (fredN.getD (max 1 s.cur.cfg.vl.toNat))

/-- Run a vector-queue instruction (R222, R396, R398): in handler mode with FPEND = 1 it does not enter the queue; on
replay a written sr.estart or a cleared VALID abandons it; otherwise its body runs. -/
def runV (i : Instr) (fredN : Option Nat) (body : State → Res) (s : State) : Host.Outcome State Fault Refusal :=
  match s.cur.active with
  | none => if s.cur.trap.fpend then retire (precise 0x03 0x0B 0 s) else retireV i s.cur.unf (body s)
  | some e =>
    if e.trapped && (if isMatrix i then !s.cur.unf.valid else decide (elementCount s fredN ≤ s.cur.unf.estart))
    then retireV i s.cur.unf (.ok s) else retireV i s.cur.unf (body s)

/-- A check list in the order of R416: the first condition that holds is reported. -/
def firstCond : List (Bool × Nat × Nat) → Option (Nat × Nat)
  | [] => none
  | (b, c, k) :: rest => if b then some (c, k) else firstCond rest

/-- Run a body after its whole-instruction conditions (R415, R416); `va` is the address that a 0x04 condition reports. -/
def checkedAt (va : Nat) (conds : List (Bool × Nat × Nat)) (body : State → Res) (s : State) : Res :=
  match firstCond conds with
  | some (c, k) => imprecise c k va s
  | none => body s

/-- Conditions none of which reports an address. -/
def checked (conds : List (Bool × Nat × Nat)) (body : State → Res) (s : State) : Res := checkedAt 0 conds body s

end Sys2Proof.Machine
end

