-- ==== Sys2Proof/Machine/Operands.lean ====
section
/-! DEFINITION. Operand forms: sources of every kind, destinations, masks, far register groups, element addresses. -/

namespace Sys2Proof.Machine

/-- Memory in its canonical form: addresses strictly rising, no entry equal to what an unlisted byte reads as (log 1). -/
def Memory.wf (m : Memory) : Bool := Tbl.rising m && m.all (fun c => !decide (c.2 = 0))

end Sys2Proof.Machine

namespace Sys2Proof

/-- The register that a source field of kind 01 names (R174). -/
def S10.gidx (a : S10) : Fin 32 := ⟨a.val.toNat % 32, Nat.mod_lt _ (by decide)⟩
/-- The near vector register that a source field of kind 00 names (R174). -/
def S10.vidx (a : S10) : Fin 64 := ⟨a.val.toNat % 64, Nat.mod_lt _ (by decide)⟩
/-- The far register that a source field of kind 00 names (R174). -/
def S10.midx (a : S10) : Nat := a.val.toNat % 16
/-- The tile that a source field names in its low three bits (R289). -/
def S10.cidx (a : S10) : Nat := a.val.toNat % 8
/-- The number of the scalar register that a source field names, if it names one (R174). -/
def S10.gnum (a : S10) : Option Nat := if a.tag = 1 then some (a.val.toNat % 32) else none
/-- A short literal: a signed integer (R174). -/
def S10.short (a : S10) : Int := Machine.signed 8 a.val.toNat

end Sys2Proof

namespace Sys2Proof.Machine

/-- The scalar register that D6 names (R176). -/
def gd (d : BitVec 6) : Fin 32 := ⟨d.toNat % 32, Nat.mod_lt _ (by decide)⟩
/-- Write a scalar destination and complete. -/
def State.setD (s : State) (d : BitVec 6) (v : Word) : Res := .ok (s.setG (gd d) v)

/-- The near vector register that D6 names (R176). -/
def vd (d : BitVec 6) : Fin 64 := ⟨d.toNat % 64, Nat.mod_lt _ (by decide)⟩
/-- The mask that D6 names (R176). -/
def qd (d : BitVec 6) : Fin 8 := ⟨d.toNat % 8, Nat.mod_lt _ (by decide)⟩

/-- A scalar register as the executing instruction reads it: at issue, or as held with its queue entry (R66, R390). -/
def State.gread (s : State) (r : Fin 32) : Word :=
  match s.cur.active with
  | some e => if r = 0 then 0 else e.g[r]
  | none => s.cur.greg r

/-- A constant slot as the executing instruction reads it: at issue, or as held with a queue entry or a scalar instruction that waits
(R64, R432). -/
def State.kread (s : State) (k : Nat) : Word :=
  match s.cur.active with
  | some e => Tbl.getD e.kb k 0
  | none => Tbl.getD (s.cur.kheld.getD s.constBank) k 0

/-- The integer literal of a source: LIT32 or the short literal, sign-extended to 64 bits (R175). -/
def litInt (a : S10) (lit : Option (BitVec 32)) : Word :=
  match lit with
  | some l => sext 32 l.toNat
  | none => word a.short

/-- The 64-bit value of a scalar-kind source of an integer or address type (R65, R175). -/
def State.src (s : State) (a : S10) (lit : Option (BitVec 32) := none) : Word :=
  if a.tag = 1 then s.gread a.gidx else if a.tag = 2 then s.kread a.val.toNat else litInt a lit

/-- The bits that a float literal supplies for a format: LIT32 read as FP32 bits, or the short literal's exact value (R175). A LIT32 that
is a NaN gives a source of another format the canonical quiet NaN, and raises nothing (DESIGN CHOICE, log 63). -/
def litFloat (t : FT) (a : S10) (lit : Option (BitVec 32)) : Nat :=
  match lit with
  | some l => if t = .fp32 then l.toNat else (roundFV t 0 (unpack .fp32 l.toNat)).1
  | none => (ofInt t 0 a.short).1

/-- The bits of a scalar-kind source read as a float of a format (R62, R175). -/
def State.srcF (s : State) (t : FT) (a : S10) (lit : Option (BitVec 32) := none) : Nat :=
  if a.tag = 3 then litFloat t a lit else (s.src a lit).toNat % 2 ^ t.width

/-- Element `i` of a near source for integer and bit-copying instructions: a vector element, or the low SEW bits of the
broadcast value (R66, R222). -/
def State.vsrc (s : State) (a : S10) (lit : Option (BitVec 32)) (i : Nat) : Nat :=
  if a.tag = 0 then s.cur.elem a.vidx i else (s.src a lit).toNat % 2 ^ s.cur.cfg.sew

/-- Element `i` of a near float source (R66, R175). -/
def State.vsrcF (s : State) (t : FT) (a : S10) (lit : Option (BitVec 32)) (i : Nat) : Nat :=
  if a.tag = 0 then s.cur.elem a.vidx i else if a.tag = 3 then litFloat t a lit else (s.src a lit).toNat % 2 ^ t.width

/-- Whether element `i` is active under MK5, below sr.vl (R222). -/
def State.activeAt (s : State) (m : Mk) (i : Nat) : Bool :=
  decide (i < s.cur.cfg.vl.toNat) &&
    (if m.mode = 0 then true else s.cur.maskBit ⟨m.q.toNat, by have := m.q.isLt; omega⟩ i != decide (m.mode = 2))

/-- The active elements of an instruction, in ascending order (R222). -/
def State.actives (s : State) (m : Mk) : List Nat := (upto 0 s.cur.cfg.vl.toNat).filter (fun i => s.activeAt m i)

/-- A near vector register named by a source lies below NREG (R223). -/
def State.nearOk (s : State) (a : S10) : Bool := !a.isVec || decide (a.val.toNat < s.cur.cfg.nreg)
/-- A near vector register named by D6 lies below NREG. -/
def State.destOk (s : State) (d : BitVec 6) : Bool := decide (d.toNat < s.cur.cfg.nreg)

/-- Write elements to a near register, one after another. -/
def writeElems (h : Hart) (r : Fin 64) : List (Nat × Nat) → Hart
  | [] => h
  | (i, v) :: rest => writeElems (h.setElem r i v) r rest

/-- Clear the poison of the 64-bit words of one near register that written elements of `w` bits cover whole (R455). -/
def State.coverVec (s : State) (r w : Nat) (els : List Nat) : State :=
  if s.poison.isEmpty then s
  else { s with poison := s.poison.filter (fun x => match x with
    | .vec h k j => !(decide (h = s.cur.id) && k == r && (upto (j * 64 / w) (64 / w)).all els.contains)
    | _ => true) }

/-- Write elements of a near register. -/
def State.writeVec (s : State) (r : Fin 64) (els : List (Nat × Nat)) : State :=
  { s.coverVec r.val s.cur.cfg.sew (els.map (·.1)) with cur := writeElems s.cur r els }

/-- Union of flags. -/
def orFlags (xs : List Flags) : Flags := xs.foldl (· ||| ·) 0

/-- Write mask bits, one after another. -/
def writeMask (h : Hart) (q : Fin 8) : List (Nat × Bool) → Hart
  | [] => h
  | (i, b) :: rest => writeMask (h.setMaskBit q i b) q rest

/-- The 64-bit words of near registers that hold element `i` (R454). -/
def State.vecWords (s : State) (regs : List Nat) (i : Nat) : List SramWord :=
  regs.map (fun r => .vec s.cur.id r (i * s.cur.cfg.sew / 64))
/-- The word of the mask that governs element `i`. -/
def State.maskWords (s : State) (m : Mk) (i : Nat) : List SramWord :=
  if m.mode = 0 then [] else [.mask s.cur.id m.q.toNat (i / 64)]

/-- The least of these elements one of whose words is poisoned (R456). -/
def State.poisonedBy (s : State) (words : Nat → List SramWord) (els : List Nat) : Option Nat :=
  if s.poison.isEmpty then none else els.find? (fun i => (words i).any s.poison.contains)

/-- The active elements not yet performed: those from sr.estart on (R402). -/
def State.pending (s : State) (m : Mk) : List Nat := (s.actives m).filter (fun i => decide (s.cur.unf.estart ≤ i))

/-- Record the element at which an instruction stops (R390). -/
def State.stopAt (s : State) (k : Nat) : State := { s with cur := { s.cur with unf := { s.cur.unf with estart := k } } }

/-- Perform elements up to the least one that reads a poisoned word, which stops the instruction there (R456). -/
def State.stepElems (s : State) (els : List Nat) (words : Nat → List SramWord) (perform : List Nat → State) : Res :=
  match s.poisonedBy words els with
  | none => .ok (perform els)
  | some k => .trap ⟨mkCause 0x0D 1, 0, true⟩ ((perform (els.filter (fun i => decide (i < k)))).stopAt k)

/-- A whole-register instruction reads every element before it performs, so poison leaves sr.estart 0 (R402, R456). -/
def State.readAll (s : State) (els : List Nat) (words : Nat → List SramWord) (body : State → Res) : Res :=
  match s.poisonedBy words els with
  | none => body s
  | some _ => .trap ⟨mkCause 0x0D 1, 0, true⟩ s

/-- The near registers that sources name. -/
def vecsOf (xs : List S10) : List Nat := (xs.filter S10.isVec).map (fun a => a.val.toNat % 64)

/-- Element `i` of a register group whose elements are ρ times the current width; the group's base is `r` (R67, R234). -/
def State.groupElem (s : State) (r : Fin 64) (rho i : Nat) : Nat :=
  let per := s.cur.vlmax / rho
  let k := if per = 0 then 0 else i / per
  let j := if per = 0 then 0 else i % per
  bits (s.cur.vec[(r.val + k) % 64]'(Nat.mod_lt _ (by decide))) (s.cur.cfg.sew * rho * j) (s.cur.cfg.sew * rho)

/-- Replace element `i` of a register group (R234). -/
def Hart.setGroupElem (h : Hart) (r : Fin 64) (rho i v : Nat) : Hart :=
  let per := h.vlmax / rho
  let k := if per = 0 then 0 else i / per
  let j := if per = 0 then 0 else i % per
  let n : Fin 64 := ⟨(r.val + k) % 64, Nat.mod_lt _ (by decide)⟩
  { h with vec := h.vec.set n (setBits h.vec[n] (h.cfg.sew * rho * j) (h.cfg.sew * rho) v) }

/-- A near group's conditions (R423): base at or above NREG, then alignment and last register. -/
def State.groupConds (s : State) (r : Nat) (n : Nat) : List (Bool × Nat × Nat) :=
  [(decide (s.cur.cfg.nreg ≤ r), 0x03, 0x03),
   (decide (r % n ≠ 0) || decide (s.cur.cfg.nreg < r + n), 0x03, 0x04)]

/-- Write bits of a mask; words that the write covers whole lose their poison (R455). -/
def State.writeQ (s : State) (q : Fin 8) (els : List (Nat × Bool)) : State :=
  { s with
    cur := writeMask s.cur q els
    poison := if s.poison.isEmpty then s.poison else s.poison.filter (fun x => match x with
      | .mask h k j => !(decide (h = s.cur.id) && k == q.val && (upto (j * 64) 64).all (els.map (·.1)).contains)
      | _ => true) }

/-- An element-wise instruction: each pending element's value is written and its flags set (R70, R222). -/
def State.elementwise (s : State) (m : Mk) (regs : List Nat) (d : BitVec 6) (f : Nat → Nat × Flags) : Res :=
  s.stepElems (s.pending m) (fun i => s.vecWords regs i ++ s.maskWords m i) (fun els =>
    (s.raise (orFlags (els.map (fun i => (f i).2)))).writeVec (vd d) (els.map (fun i => (i, (f i).1))))

/-- The conditions that a near vector instruction shares (R223, R422, R425), in the order of R416: a register at or above
NREG, the hart not configured, an element type it does not accept. -/
def State.vconds (s : State) (regs : List Nat) (ty : Bool) : List (Bool × Nat × Nat) :=
  [(regs.any (fun r => decide (s.cur.cfg.nreg ≤ r)), 0x03, 0x03), (!s.cur.configured, 0x03, 0x05), (!ty, 0x03, 0x06)]

/-- A float element type is configured (R223). -/
def State.isFloat (s : State) : Bool := (etypeFT s.cur.cfg.etype.toNat).isSome
/-- An integer element type is configured (R223). -/
def State.isInt (s : State) : Bool := etypeInt s.cur.cfg.etype.toNat
/-- The float format of the element type; FP32 stands in when there is none. -/
def State.ft (s : State) : FT := (etypeFT s.cur.cfg.etype.toNat).getD .fp32

/-! ### Accumulator tiles -/

/-- Columns of a tile's body (R75). -/
def Acc.cols (a : Acc) : Nat := if a.bf16 then 128 else 64
/-- Body entry at a row and column: its bits; +0 where nothing is listed. -/
def Acc.at (a : Acc) (r c : Nat) : Nat := Tbl.getD a.body (r * a.cols + c) 0
/-- Replace a body entry. -/
def Acc.put (a : Acc) (r c v : Nat) : Acc := { a with body := Tbl.store 0 (r * a.cols + c) v a.body }
/-- A row's running maximum; −∞ where nothing is listed. -/
def Acc.mAt (a : Acc) (r : Nat) : Nat := Tbl.getD a.m r 0xFF800000
/-- Replace a row's running maximum. -/
def Acc.putM (a : Acc) (r v : Nat) : Acc := { a with m := Tbl.store 0xFF800000 r v a.m }
/-- A row's running denominator. -/
def Acc.lAt (a : Acc) (r : Nat) : Nat := Tbl.getD a.l r 0
/-- Replace a row's running denominator. -/
def Acc.putL (a : Acc) (r v : Nat) : Acc := { a with l := Tbl.store 0 r v a.l }

/-- Tile `c` of the current hart. -/
def State.acc (s : State) (c : Nat) : Acc := s.cur.accs.getD c Acc.fresh
/-- Replace tile `c` of the current hart. -/
def State.setAcc (s : State) (c : Nat) (a : Acc) : State := { s with cur := { s.cur with accs := s.cur.accs.set c a } }

/-! ### Scalar sources and their poison -/

/-- The scalar registers that an instruction's source fields name (R65). -/
def bodyG : Body → List Nat
  | .r1 p => [p.a].filterMap S10.gnum
  | .r2 p => [p.a, p.b].filterMap S10.gnum
  | .l p => [p.a].filterMap S10.gnum
  | .s p => [p.a, p.b].filterMap S10.gnum
  | .r3 p => [p.a, p.b, p.c].filterMap S10.gnum
  | .m p => [p.base, p.x].filterMap S10.gnum
  | _ => []

/-- The scalar registers that an instruction reads without a kind tag, or through the stack operand (R183, R205, R280). -/
def extraG : Instr → List Nat
  | .ret _ => [31]
  | .vspill p => [p.d.toNat % 32]
  | .mmaO p | .mmaF p => [p.spReg, p.sbReg, p.ssReg]
  | .mld p | .mst p | .msoft p | .mfin p | .vpfin p => [p.spReg]
  | .fexpr p | .fVadd p | .fVsub p | .fVmul p | .fVfma p | .fVfms p | .fVnfma p | .fVmin p | .fVmax p | .fVabs p | .fVneg p
  | .fVcvt p | .fViadd p | .fVisub p | .fVimul p | .fVimulh p | .fVand p | .fVor p | .fVxor p | .fVshl p | .fVshr p
  | .fVsra p | .fVimin p | .fVimax p | .fVred p | .fVredo p | .fVbcast p | .fget p | .fput p => [p.stk].filterMap S10.gnum
  | _ => []

/-- Whether an instruction about to issue reads a poisoned scalar register (R456: 0x0D.3). -/
def State.poisonedG (s : State) (i : Instr) : Bool :=
  !s.poison.isEmpty && (((i.body.map (fun x => bodyG x.2.2)).getD [] ++ extraG i).any (fun r =>
    s.poison.contains (.scalar s.cur.id r)))

/-- State registers that a vector-queue instruction reads without naming them: sr.vl and sr.vtype for its elements, the stream binding for a
VSETL and a frame, sr.atp for its accesses (R77, R456). -/
def implicitSr (bound : Bool) : Instr → List Nat
  | .vcfg _ | .vqlen _ | .vbind _ | .vbindOff _ => [0x001]
  | .vsetl _ => if bound then [0x001, 0x006, 0x007] else [0x001]
  | .vspill _ => [0x001, 0x006, 0x007, 0x00C]
  | .vfill _ => [0x001, 0x00C]
  | .vadd _ | .vsub _ | .vmul _ | .vfma _ | .vfms _ | .vnfma _ | .vdiv _ | .vsqrt _ | .vrsqrt _ | .vexp2 _ | .vlog2 _ | .vmin _
  | .vmax _ | .vabs _ | .vneg _ | .vcvt _ | .vclass _ | .viadd _ | .visub _ | .vimul _ | .vimulh _ | .vand _ | .vor _ | .vxor _
  | .vshl _ | .vshr _ | .vsra _ | .vimin _ | .vimax _ | .vcmp _ | .qand _ | .qor _ | .qnot _ | .qpop _ | .qfirst _ | .vsel _
  | .viota _ | .vred _ | .vredo _ | .vscan _ | .vperm _ | .vslide _ | .vcompress _ | .vexpand _ | .vbcast _ | .vext _ | .vins _
  | .vdupm _ | .vsortk _ | .vtopk _ | .mmovBodyToVec _ | .mmovVecToBody _ | .mmovStToVec _ | .mmovVecToSt _ | .mscale _
  | .ttake _ | .tlook _ => [0x000, 0x001]
  | .fVadd _ | .fVsub _ | .fVmul _ | .fVfma _ | .fVfms _ | .fVnfma _ | .fVmin _ | .fVmax _ | .fVabs _ | .fVneg _ | .fVcvt _ | .fViadd _
  | .fVisub _ | .fVimul _ | .fVimulh _ | .fVand _ | .fVor _ | .fVxor _ | .fVshl _ | .fVshr _ | .fVsra _ | .fVimin _ | .fVimax _
  | .fVred _ | .fVredo _ | .fVbcast _ | .vld _ | .vst _ | .vlds _ | .vsts _ | .vldx _ | .vstx _ | .vldt _ | .vstt _ | .vamo _ | .vpref _
  | .fVld _ | .fVst _ | .fVlds _ | .fVsts _ | .fVldx _ | .fVstx _ | .fVamo _ | .fVpref _ | .fexpr _ | .fdot _ | .fred _ | .fget _
  | .fput _ | .fattn _ | .nodeCopy _ | .kvscore _ | .kvtopk _ | .kvkeep _ => [0x000, 0x001, 0x00C]
  | .tsend p => if p.b.isVec then [0x000, 0x001] else [0x00C]
  | .mmaO _ | .mmaF _ | .mgrpO _ | .mgrpF _ | .mld _ | .mst _ | .msoft _ | .mfin _ | .vproj _ | .vpfin _ | .vpgrad _ | .ttakeM _
  | .tlookM _ | .publish _ | .kvmap _ | .kvapp _ | .kvxl _ | .kvxlE _ | .kvfork _ | .kvrel _ | .kvpidx _ | .kvpidxIns _ => [0x00C]
  | _ => []

/-- A state register of the current hart whose storage word is poisoned (R456). -/
def State.poisonedSr (s : State) (n : Nat) : Bool := s.poison.contains (.scalar s.cur.id (32 + n))

/-- An instruction reads a poisoned state register that it does not name (R456). -/
def State.poisonedFor (s : State) (i : Instr) : Bool :=
  !s.poison.isEmpty && (implicitSr s.cur.stream.bound i).any s.poisonedSr

/-! ### Far registers -/

/-- The key of far register `r` of the issuing hart's bank in a stack (R20, R32, R74). -/
def bankKey (home m slot r : Nat) : Nat := ((home * 65536 + m) * 2048 + slot) * 16 + r

/-- Device-wide slot number of a hart (R32). -/
def Hart.devSlot (h : Hart) : Nat := 8 * h.seat.core + h.seat.slot

/-- The stack and far register that a bank key names, when its slot is that of a module (R20). -/
def bankOf (m slot key : Nat) : Option (Nat × Nat) :=
  if key / 16 % 2048 = slot ∧ key / 32768 % 65536 = m then some (key / 2147483648, key % 16) else none

/-- The current hart's far banks leave its slot with it (R32, R57); poison goes with them (R455). -/
def State.stow (s : State) : State :=
  let at_ := bankOf s.cur.mod s.cur.devSlot
  { s with
    banks := s.banks.filter (fun c => (at_ c.1).isNone)
    poison := s.poison.filter (fun w => match w with
      | .far k _ _ => (at_ k).isNone
      | _ => true)
    cur := { s.cur with
      bank := s.banks.filterMap (fun c => (at_ c.1).map (fun r => (16 * r.1 + r.2, c.2)))
      bankPoison := s.poison.filterMap (fun w => match w with
        | .far k m j => (at_ k).map (fun r => (r.1, m, j))
        | _ => none) } }

/-- The current hart's far banks are copied into the banks of its slot, which hold nothing else (R32, R74, R369). -/
def State.unstow (s : State) : State :=
  let at_ := bankOf s.cur.mod s.cur.devSlot
  let clean := s.banks.filter (fun c => (at_ c.1).isNone)
  { s with
    banks := s.cur.bank.foldl (fun t c => Tbl.store 0 (bankKey (c.1 / 16) s.cur.mod s.cur.devSlot (c.1 % 16)) c.2 t) clean
    poison := s.cur.bankPoison.map (fun p => .far (bankKey p.1 s.cur.mod s.cur.devSlot 0) p.2.1 p.2.2) ++
      s.poison.filter (fun w => match w with
        | .far k _ _ => (at_ k).isNone
        | _ => true)
    cur := { s.cur with bank := [], bankPoison := [] } }

/-- Far register `r` of the current hart in a stack: 512 bits (R74). -/
def State.far (s : State) (home r : Nat) : Nat := Tbl.getD s.banks (bankKey home s.cur.mod s.cur.devSlot r) 0

/-- Write a far register. -/
def State.setFar (s : State) (home r v : Nat) : State :=
  { s with banks := Tbl.store 0 (bankKey home s.cur.mod s.cur.devSlot r) v s.banks }

/-- FE, the elements of one far register (R265). -/
def fe (w : Nat) : Nat := 512 / w

/-- Element `i`, of `w` bits, of the far group based at `r` (R265). -/
def State.farElem (s : State) (home r w i : Nat) : Nat := bits (s.far home (r + i / fe w)) (w * (i % fe w)) w

/-- Replace element `i` of a far group (R265). -/
def State.setFarElem (s : State) (home r w i v : Nat) : State :=
  s.setFar home (r + i / fe w) (setBits (s.far home (r + i / fe w)) (w * (i % fe w)) w v)

/-- Write elements of a far group, one after another. -/
def State.writeFar (s : State) (home r w : Nat) : List (Nat × Nat) → State
  | [] => s
  | (i, v) :: rest => (s.setFarElem home r w i v).writeFar home r w rest

/-- Element `i` of a far source (R66, R265). -/
def State.fsrc (s : State) (home : Nat) (a : S10) (i : Nat) : Nat :=
  if a.tag = 0 then s.farElem home a.midx s.cur.cfg.sew i else (s.src a none).toNat % 2 ^ s.cur.cfg.sew

/-- Element `i` of a far float source (R66, R175). -/
def State.fsrcF (s : State) (t : FT) (home : Nat) (a : S10) (i : Nat) : Nat :=
  if a.tag = 0 then s.farElem home a.midx s.cur.cfg.sew i else s.srcF t a none

/-- A far group of n elements ends at or below m15 (R265, R423). -/
def farGroupOk (w r n : Nat) : Bool := decide (r + ceilDiv n (fe w) ≤ 16)

/-- sr.vl fits a far form (R265). -/
def State.farVlOk (s : State) : Bool := decide (s.cur.cfg.vl.toNat ≤ 16 * fe s.cur.cfg.sew)

/-! ### Addresses -/

/-- A address of base and signed offset, modulo 2^64. -/
def addrOf (base : Word) (off : Int) : Nat := (base + word off).toNat

/-- A = (BASE + OFF) mod 2^64 of a memory operand (R254). -/
def State.memBase (s : State) (p : M) : Nat := addrOf (s.src p.base) (signed 22 p.off.toNat)

end Sys2Proof.Machine
end

