-- ==== Sys2Proof/Machine/Flags.lean ====
section
/-! DEFINITION. Flags and conditions: comparisons, and the reading and clearing of sr.aflags. -/

namespace Sys2Proof.Machine

/-- Equality, less-than or their kin on floats, and NV: quiet comparisons set it for a signalling NaN, ordered ones for
any NaN (R199, R238). Condition codes are those of R238. -/
def cmpFloat (t : FT) (cc a b : Nat) : Bool × Flags :=
  let x := unpack t a
  let y := unpack t b
  let any := x.isNan || y.isNan
  let quiet := x.nv ||| y.nv
  let ordered := if any then fNV else 0
  match cc with
  | 0 => (eqFV x y, quiet)
  | 1 => (!eqFV x y, quiet)
  | 2 => (ltFV x y, ordered)
  | 3 => (!any && !ltFV y x, ordered)
  | 4 => (ltFV y x, ordered)
  | 5 => (!any && !ltFV x y, ordered)
  | 6 => (any, quiet)
  | _ => (false, 0)

/-- A comparison of SEW-bit integers, signed or unsigned (R238). -/
def cmpInt (w : Nat) (u : Bool) (cc a b : Nat) : Bool :=
  let x : Int := if u then ((a % 2 ^ w : Nat) : Int) else signed w a
  let y : Int := if u then ((b % 2 ^ w : Nat) : Int) else signed w b
  match cc with
  | 0 => decide (x = y)
  | 1 => decide (x ≠ y)
  | 2 => decide (x < y)
  | 3 => decide (x ≤ y)
  | 4 => decide (y < x)
  | 5 => decide (y ≤ x)
  | _ => false

/-- FCMP's condition code as a code of R238: eq, lt, le, un (R199). -/
def fcmpCode : Nat → Nat
  | 0 => 0
  | 1 => 2
  | 2 => 3
  | _ => 6

/-- A branch condition on 64-bit values (R202). -/
def branchTaken (cc : Nat) (a b : Word) : Bool :=
  match cc with
  | 0 => decide (a = b)
  | 1 => decide (a ≠ b)
  | 2 => decide (a.toInt < b.toInt)
  | 3 => decide (b.toInt ≤ a.toInt)
  | 4 => decide (a.toNat < b.toNat)
  | _ => decide (b.toNat ≤ a.toNat)

/-- W1C on sr.aflags: a 1 clears its flag (R6, R87). -/
def clearFlags (f : Flags) (v : Word) : Flags := f &&& ~~~(v.setWidth 9)

end Sys2Proof.Machine
end

