-- ==== Sys2Proof/Machine/ScalarInt.lean ====
section
/-! DEFINITION. Scalar integer, address and bit-field instructions (R190 to R197). -/

namespace Sys2Proof.Machine

/-- The operands of a two-source integer instruction at its width n: signed and unsigned readings (R192). -/
structure IntIn where
  n : Nat
  xs : Int
  ys : Int
  xu : Nat
  yu : Nat
  deriving DecidableEq, Repr

/-- The operands under W (R192). -/
def intIn (w : Bool) (a b : Word) : IntIn :=
  if w then ⟨32, signed 32 a.toNat, signed 32 b.toNat, a.toNat % 2 ^ 32, b.toNat % 2 ^ 32⟩
  else ⟨64, signed 64 a.toNat, signed 64 b.toNat, a.toNat, b.toNat⟩

/-- The shift amount (R192). -/
def IntIn.sh (x : IntIn) : Nat := x.yu % x.n

/-- A two-source integer instruction: r reduced modulo 2^n and sign-extended from bit n − 1 (R192). -/
def int2 (p : R2) (f : IntIn → Int) (s : State) : Res :=
  let x := intIn (bit p.sf.toNat 0) (s.src p.a p.lit) (s.src p.b p.lit)
  s.setD p.d (sext x.n (wrap x.n (f x)))

/-- A one-source instruction under W on the low n bits (R194). -/
def int1 (p : R1) (f : Nat → Nat → Nat) (s : State) : Res :=
  let n := if bit p.sf.toNat 0 then 32 else 64
  s.setD p.d (BitVec.ofNat 64 (f n ((s.src p.a).toNat % 2 ^ n)))

/-- Leading zeros of an n-bit value (R194). -/
def leadingZeros (n x : Nat) : Nat := n - bitLen x
/-- Trailing zeros of an n-bit value (R194). -/
def trailingZeros : Nat → Nat → Nat
  | 0, _ => 0
  | n + 1, x => if x % 2 = 1 then 0 else 1 + trailingZeros n (x / 2)
/-- Number of 1 bits of an n-bit value (R194). -/
def popCount : Nat → Nat → Nat
  | 0, _ => 0
  | n + 1, x => x % 2 + popCount n (x / 2)
/-- The width that SF[1:0] of SEXT and ZEXT selects (R194). -/
def extWidth (sf : BitVec 4) : Nat := 8 * 2 ^ (sf.toNat % 4)

/-- ADD: xs + ys (R192). -/
def execAdd (p : R2) (s : State) : Host.Outcome State Fault Refusal := retire (int2 p (fun x => x.xs + x.ys) s)

/-- SUB: xs − ys (R192). -/
def execSub (p : R2) (s : State) : Host.Outcome State Fault Refusal := retire (int2 p (fun x => x.xs - x.ys) s)

/-- MUL: xs × ys (R192). -/
def execMul (p : R2) (s : State) : Host.Outcome State Fault Refusal := retire (int2 p (fun x => x.xs * x.ys) s)

/-- MULH: the high half of xs × ys (R192). -/
def execMulh (p : R2) (s : State) : Host.Outcome State Fault Refusal := retire (int2 p (fun x => x.xs * x.ys / (2 ^ x.n : Nat)) s)

/-- MULHSU: the high half of xs × yu (R192). -/
def execMulhsu (p : R2) (s : State) : Host.Outcome State Fault Refusal := retire (int2 p (fun x => x.xs * x.yu / (2 ^ x.n : Nat)) s)

/-- DIV: xs / ys toward zero; −1 by zero (R193). -/
def execDiv (p : R2) (s : State) : Host.Outcome State Fault Refusal := retire (int2 p (fun x => if x.yu = 0 then -1 else x.xs.tdiv x.ys) s)

/-- DIVU: xu / yu; all ones by zero (R193). -/
def execDivu (p : R2) (s : State) : Host.Outcome State Fault Refusal := retire (int2 p (fun x => if x.yu = 0 then (2 ^ x.n - 1 : Nat) else ((x.xu / x.yu : Nat) : Int)) s)

/-- REM: the remainder; the dividend by zero (R193). -/
def execRem (p : R2) (s : State) : Host.Outcome State Fault Refusal := retire (int2 p (fun x => if x.yu = 0 then x.xs else x.xs.tmod x.ys) s)

/-- REMU: the unsigned remainder; the dividend by zero (R193). -/
def execRemu (p : R2) (s : State) : Host.Outcome State Fault Refusal := retire (int2 p (fun x => if x.yu = 0 then x.xu else ((x.xu % x.yu : Nat) : Int)) s)

/-- AND: bitwise (R192). -/
def execAnd (p : R2) (s : State) : Host.Outcome State Fault Refusal := retire (int2 p (fun x => ((x.xu &&& x.yu : Nat) : Int)) s)

/-- OR: bitwise (R192). -/
def execOr (p : R2) (s : State) : Host.Outcome State Fault Refusal := retire (int2 p (fun x => ((x.xu ||| x.yu : Nat) : Int)) s)

/-- XOR: bitwise (R192). -/
def execXor (p : R2) (s : State) : Host.Outcome State Fault Refusal := retire (int2 p (fun x => ((x.xu ^^^ x.yu : Nat) : Int)) s)

/-- ANDN: xu AND NOT yu (R192). -/
def execAndn (p : R2) (s : State) : Host.Outcome State Fault Refusal := retire (int2 p (fun x => ((x.xu &&& (2 ^ x.n - 1 - x.yu) : Nat) : Int)) s)

/-- SLL: xu × 2^sh (R192). -/
def execSll (p : R2) (s : State) : Host.Outcome State Fault Refusal := retire (int2 p (fun x => ((x.xu * 2 ^ x.sh : Nat) : Int)) s)

/-- SRL: floor(xu / 2^sh) (R192). -/
def execSrl (p : R2) (s : State) : Host.Outcome State Fault Refusal := retire (int2 p (fun x => ((x.xu / 2 ^ x.sh : Nat) : Int)) s)

/-- SRA: floor(xs / 2^sh) (R192). -/
def execSra (p : R2) (s : State) : Host.Outcome State Fault Refusal := retire (int2 p (fun x => x.xs / (2 ^ x.sh : Nat)) s)

/-- ROL: xu rotated left (R192). -/
def execRol (p : R2) (s : State) : Host.Outcome State Fault Refusal := retire (int2 p (fun x => ((x.xu * 2 ^ x.sh + x.xu / 2 ^ (x.n - x.sh) : Nat) : Int)) s)

/-- ROR: xu rotated right (R192). -/
def execRor (p : R2) (s : State) : Host.Outcome State Fault Refusal := retire (int2 p (fun x => ((x.xu / 2 ^ x.sh + x.xu * 2 ^ (x.n - x.sh) : Nat) : Int)) s)

/-- SLT: signed less-than (R192). -/
def execSlt (p : R2) (s : State) : Host.Outcome State Fault Refusal := retire (int2 p (fun x => if x.xs < x.ys then 1 else 0) s)

/-- SLTU: unsigned less-than (R192). -/
def execSltu (p : R2) (s : State) : Host.Outcome State Fault Refusal := retire (int2 p (fun x => if x.xu < x.yu then 1 else 0) s)

/-- MIN: the signed lesser (R192). -/
def execMin (p : R2) (s : State) : Host.Outcome State Fault Refusal := retire (int2 p (fun x => if x.xs ≤ x.ys then x.xs else x.ys) s)

/-- MAX: the signed greater (R192). -/
def execMax (p : R2) (s : State) : Host.Outcome State Fault Refusal := retire (int2 p (fun x => if x.xs ≤ x.ys then x.ys else x.xs) s)

/-- MINU: the unsigned lesser (R192). -/
def execMinu (p : R2) (s : State) : Host.Outcome State Fault Refusal := retire (int2 p (fun x => ((if x.xu ≤ x.yu then x.xu else x.yu : Nat) : Int)) s)

/-- MAXU: the unsigned greater (R192). -/
def execMaxu (p : R2) (s : State) : Host.Outcome State Fault Refusal := retire (int2 p (fun x => ((if x.xu ≤ x.yu then x.yu else x.xu : Nat) : Int)) s)

/-- CLZ (R194). -/
def execClz (p : R1) (s : State) : Host.Outcome State Fault Refusal := retire (int1 p leadingZeros s)

/-- CTZ (R194). -/
def execCtz (p : R1) (s : State) : Host.Outcome State Fault Refusal := retire (int1 p trailingZeros s)

/-- POPC (R194). -/
def execPopc (p : R1) (s : State) : Host.Outcome State Fault Refusal := retire (int1 p popCount s)

/-- SEXT (R194). -/
def execSext (p : R1) (s : State) : Host.Outcome State Fault Refusal :=
  retire (s.setD p.d (sext (extWidth p.sf) (s.src p.a).toNat))

/-- ZEXT (R194). -/
def execZext (p : R1) (s : State) : Host.Outcome State Fault Refusal :=
  retire (s.setD p.d (BitVec.ofNat 64 ((s.src p.a).toNat % 2 ^ extWidth p.sf)))

/-- LI from a source of any scalar kind (R195). -/
def execLiReg (p : R1) (s : State) : Host.Outcome State Fault Refusal := retire (s.setD p.d (s.src p.a))

/-- LI of LIT32, sign-extended (R195). -/
def execLiLit32 (p : R2) (s : State) : Host.Outcome State Fault Refusal := retire (s.setD p.d (s.src p.a p.lit))

/-- LI.HN: 16 bits of the source replaced by IMM16 (R195). -/
def execLiHn (p : L) (s : State) : Host.Outcome State Fault Refusal :=
  retire (s.setD p.d (BitVec.ofNat 64 (setBits (s.src p.a).toNat (16 * (p.sf.toNat % 4)) 16 p.imm.toNat)))

/-- LEA: a + b × 2^N (R196). -/
def execLea (p : R2) (s : State) : Host.Outcome State Fault Refusal :=
  retire (s.setD p.d (s.src p.a + s.src p.b * BitVec.ofNat 64 (2 ^ (p.sf.toNat % 4))))

/-- LEA with a displacement: LIT32, sign-extended, added (R196). -/
def execLeaDisp (p : R2) (s : State) : Host.Outcome State Fault Refusal :=
  retire (s.setD p.d (s.src p.a + s.src p.b * BitVec.ofNat 64 (2 ^ (p.sf.toNat % 4)) + sext 32 (p.lit.getD 0).toNat))

/-- SEL (R197). -/
def execSel (p : R3) (s : State) : Host.Outcome State Fault Refusal :=
  retire (s.setD p.d (if s.src p.c ≠ 0 then s.src p.a else s.src p.b))

/-- BFX: a field extracted, zero- or sign-extended (R197). -/
def execBfx (p : R3) (s : State) : Host.Outcome State Fault Refusal :=
  let v := bits (s.src p.a).toNat p.pos p.len
  retire (s.setD p.d (if bit p.sf.toNat 0 then sext p.len v else BitVec.ofNat 64 v))

/-- BFI: a field replaced (R197). -/
def execBfi (p : R3) (s : State) : Host.Outcome State Fault Refusal :=
  retire (s.setD p.d (BitVec.ofNat 64 (setBits (s.src p.a).toNat p.pos p.len (s.src p.b).toNat)))

end Sys2Proof.Machine
end

