-- ==== Sys2Proof/Machine/ScalarMem.lean ====
section
/-! DEFINITION. Scalar loads, stores, atomics and reservations (R207 to R211). -/

namespace Sys2Proof.Machine

/-- Bytes that SF[1:0] of LD and ST selects (R207). -/
def sizeOf (sf : BitVec 4) : Nat := 8 / 2 ^ (sf.toNat % 4)

/-- A naturally aligned scalar access translated for `w`; its misalignment is 0x04.01 (R147, R424). -/
def scalarAccess (s : State) (va n : Nat) (w : Want) (body : Phys → State → Res) : Res :=
  if va % n ≠ 0 then precise 0x04 0x01 (BitVec.ofNat 64 va) s
  else match s.translate va w with
    | .error e => e.res false s
    | .ok p => body p (s.settleFor false p)

/-- Read `n` bytes there and go on with their value. -/
def scalarRead (s : State) (p : Phys) (n : Nat) (body : Nat → Res) : Res :=
  match s.readPhys p n false with
  | .error e => e.res false s
  | .ok b => body (leNat b)

/-- LD (R207). -/
def execLd (p : L) (s : State) : Host.Outcome State Fault Refusal :=
  let n := sizeOf p.sf
  retire (scalarAccess s (addrOf (s.src p.a) (signed 16 p.imm.toNat)) n .load fun q t =>
    scalarRead t q n fun v =>
      (t.scalarReadDone q).setD p.d (if bit p.sf.toNat 2 then BitVec.ofNat 64 v else sext (8 * n) v))

/-- ST (R208). -/
def execSt (p : S) (s : State) : Host.Outcome State Fault Refusal :=
  let n := sizeOf p.sf
  let va := addrOf (s.src p.a) (signed 12 p.imm.toNat)
  retire (scalarAccess s va n .store fun q t =>
    .ok (t.writePhys false (BitVec.ofNat 64 va) q (leBytes n (s.src p.b).toNat) 0))

/-- PREF (R209): the line at a translated cached address of the hart's own module is filled into L2, and into L1 unless SF[1] asks for L2
only; SF[0] asks for a writable line, of which every other L1 gives up its copy. It never faults. The fill is no load's, so it counts no
read request (DESIGN CHOICE, log 67). -/
def State.prefetch (s : State) (va : Nat) (writable l2only : Bool) : State :=
  match s.translate va .load with
  | .error _ => s
  | .ok q =>
    if !s.inL1 q then s
    else
      let t := fillCopy s (q.spot.loc / 128)
      let t := if l2only then t else t.readL1 s.cur.mod s.cur.seat.core q.spot.loc
      if writable then dropL1 t (fun x => decide (x.line = q.spot.loc / 64) &&
        !decide (x.core = coreKey s.cur.mod (s.l1Core s.cur.mod s.cur.seat.core q.spot.loc))) else t

/-- PREF (R209). -/
def execPref (p : S) (s : State) : Host.Outcome State Fault Refusal :=
  retire (.ok (s.prefetch (addrOf (s.src p.a) (signed 12 p.imm.toNat)) (bit p.sf.toNat 0) (bit p.sf.toNat 1)))

/-- What an atomic writes, at `w` bits: nothing when the comparison of CAS fails (R210). -/
def amoNew (op w : Nat) (old b c : Int) : Option Int :=
  match op with
  | 0 => some (old + b)
  | 1 => some b
  | 2 => if wrap w old = wrap w c then some b else none
  | 3 => some (if signed w (wrap w old) ≤ signed w (wrap w b) then old else b)
  | 4 => some (if signed w (wrap w old) ≤ signed w (wrap w b) then b else old)
  | 5 => some ((wrap w old &&& wrap w b : Nat) : Int)
  | 6 => some ((wrap w old ||| wrap w b : Nat) : Int)
  | _ => some ((wrap w old ^^^ wrap w b : Nat) : Int)

/-- AMO: one step at the near point (R160, R210), after which L1 holds the line, of a CAS that fails too (R134). The L2 fill that it makes
allocates the line for its write and counts no read request (DESIGN CHOICE, log 65). -/
def execAmo (p : R3) (s : State) : Host.Outcome State Fault Refusal :=
  let n := if bit p.sf.toNat 3 then 4 else 8
  retire (scalarAccess s (addrOf (s.src p.a) (signed 21 p.imm.toNat)) n .amo fun q t =>
    scalarRead t q n fun v =>
      let old := signed (8 * n) v
      let t := match amoNew (p.sf.toNat % 8) (8 * n) old (s.src p.b).toInt (s.src p.c).toInt with
        | some x => t.putScalar q (leBytes n (wrap (8 * n) x))
        | none => if t.inL1 q then (fillCopy t (q.spot.loc / 128)).readL1 t.cur.mod t.cur.seat.core q.spot.loc else t
      t.setD p.d (word old))

/-- LR: a load that reserves the aligned 8-byte word (R211). It asks the page for read permission, as LD does (DEDUCED, log 66). -/
def execLr (p : R1) (s : State) : Host.Outcome State Fault Refusal :=
  let n := if bit p.sf.toNat 0 then 4 else 8
  retire (scalarAccess s (s.src p.a).toNat n .load fun q t =>
    scalarRead t q n fun v =>
      let t := t.scalarReadDone q
      ({ t with cur := { t.cur with resv := some (q.spot.loc / 8) } } : State).setD p.d (sext (8 * n) v))

/-- SC: stores when the reservation is valid and covers the word, once the hart's own earlier stores, which end a reservation like any
others, have performed; the reservation is gone afterwards (R211). Without a
valid reservation no address is translated; with one, `a` is translated for a store before the words are compared, so that an SC to
another word than the reserved one can fault where R211 gives only gd := 1 (DESIGN CHOICE, log 29). -/
def execSc (p : R2) (s : State) : Host.Outcome State Fault Refusal :=
  let n := if bit p.sf.toNat 0 then 4 else 8
  let va := (s.src p.a).toNat
  let fail := fun t : State => ({ t with cur := { t.cur with resv := none } } : State).setD p.d 1
  retire (match s.cur.resv with
    | none => if va % n ≠ 0 then precise 0x04 0x01 (BitVec.ofNat 64 va) s else fail s
    | some _ => scalarAccess s va n .store fun q t =>
      if decide (q.spot.m ≠ t.cur.mod) && !t.modRuns q.spot.m then .held (.silent q.spot.m) (BitVec.ofNat 64 va) t
      else if t.cur.resv = some (q.spot.loc / 8) then
        let u := t.putScalar q (leBytes n (s.src p.b).toNat)
        ({ u with cur := { u.cur with resv := none } } : State).setD p.d 0
      else fail t)

end Sys2Proof.Machine
end

