-- ==== Sys2Proof/Machine/Elements.lean ====
section
/-! DEFINITION. Element operations that near and far forms share (R232 to R236, R242): bit patterns in, bit pattern and flags out. -/

namespace Sys2Proof.Machine

/-- a + b (R232). -/
def eAdd (t : FT) (rm a b : Nat) : Nat × Flags := addFV t rm (unpack t a) (unpack t b)
/-- a − b (R232). -/
def eSub (t : FT) (rm a b : Nat) : Nat × Flags := addFV t rm (unpack t a) (unpack t b).flip
/-- a × b (R232). -/
def eMul (t : FT) (rm a b : Nat) : Nat × Flags := mulFV t rm (unpack t a) (unpack t b)
/-- a / b (R232). -/
def eDiv (t : FT) (rm a b : Nat) : Nat × Flags := divFV t rm (unpack t a) (unpack t b)
/-- a × b + c, one rounding (R232). -/
def eFma (t : FT) (rm a b c : Nat) : Nat × Flags := fmaFV t rm (unpack t a) (unpack t b) (unpack t c)
/-- a × b − c, one rounding (R232). -/
def eFms (t : FT) (rm a b c : Nat) : Nat × Flags := fmaFV t rm (unpack t a) (unpack t b) (unpack t c).flip
/-- c − a × b, one rounding (R232). -/
def eNfma (t : FT) (rm a b c : Nat) : Nat × Flags := fmaFV t rm (unpack t a).flip (unpack t b) (unpack t c)
/-- The min rows of R112. -/
def eMin (t : FT) (_rm a b : Nat) : Nat × Flags := minMax t false a b
/-- The max rows of R112. -/
def eMax (t : FT) (_rm a b : Nat) : Nat × Flags := minMax t true a b
/-- √a (R232). -/
def eSqrt (t : FT) (rm a : Nat) : Nat × Flags := sqrtFV t rm (unpack t a)
/-- 1 / √a (R232). -/
def eRsqrt (t : FT) (rm a : Nat) : Nat × Flags := rsqrtFV t rm (unpack t a)
/-- a with sign bit 0 (R232). -/
def eAbs (t : FT) (_rm a : Nat) : Nat × Flags := absNeg t false a
/-- a with sign bit inverted (R232). -/
def eNeg (t : FT) (_rm a : Nat) : Nat × Flags := absNeg t true a

/-- A function of FP32 applied after Widen and rounded to the element type under RM (R233, R269). Widen makes a signalling NaN of
BF16 a quiet one, and the operand's NV stands all the same (R112). -/
def viaFp32 (f : Nat → Nat × Flags) (t : FT) (rm a : Nat) : Nat × Flags :=
  let y := f (widenFloat t .fp32 a)
  let nv := (unpack t a).nv
  if t = .bf16 then
    let r := roundFV .bf16 rm (unpack .fp32 y.1)
    (r.1, y.2 ||| r.2 ||| nv)
  else (y.1, y.2 ||| nv)

/-- VEXP2's element (R233). -/
def eExp2 (t : FT) (_rm a : Nat) : Nat × Flags := viaFp32 exp2K t 0 a
/-- VLOG2's element (R233). -/
def eLog2 (t : FT) (_rm a : Nat) : Nat × Flags := viaFp32 log2K t 0 a

/-- Clamp an integer to a `w`-bit range, signed or unsigned. -/
def clampInt (w : Nat) (sg : Bool) (x : Int) : Int :=
  let lo : Int := if sg then -((2 ^ (w - 1) : Nat) : Int) else 0
  let hi : Int := ((if sg then 2 ^ (w - 1) - 1 else 2 ^ w - 1 : Nat) : Int)
  if x < lo then lo else if hi < x then hi else x

/-- A `w`-bit pattern as an integer, signed or, under U, unsigned. -/
def readInt (w : Nat) (u : Bool) (a : Nat) : Int := if u then ((a % 2 ^ w : Nat) : Int) else signed w a

/-- The result of VIADD or VISUB under SAT and U: SF[1] and SF[0] (R236). -/
def satWrap (w sf : Nat) (x : Int) : Nat := wrap w (if bit sf 1 then clampInt w (!bit sf 0) x else x)

/-- VIADD (R236). -/
def iAdd (w sf a b : Nat) : Nat := satWrap w sf (readInt w (bit sf 0) a + readInt w (bit sf 0) b)
/-- VISUB (R236). -/
def iSub (w sf a b : Nat) : Nat := satWrap w sf (readInt w (bit sf 0) a - readInt w (bit sf 0) b)
/-- VIMUL (R236). -/
def iMul (w _sf a b : Nat) : Nat := a * b % 2 ^ w
/-- VIMULH (R236). -/
def iMulh (w sf a b : Nat) : Nat := wrap w (readInt w (bit sf 0) a * readInt w (bit sf 0) b / (2 ^ w : Nat))
/-- VAND (R236). -/
def iAnd (w _sf a b : Nat) : Nat := (a &&& b) % 2 ^ w
/-- VOR (R236). -/
def iOr (w _sf a b : Nat) : Nat := (a ||| b) % 2 ^ w
/-- VXOR (R236). -/
def iXor (w _sf a b : Nat) : Nat := (a ^^^ b) % 2 ^ w
/-- VSHL (R236). -/
def iShl (w _sf a b : Nat) : Nat := a * 2 ^ (b % w) % 2 ^ w
/-- VSHR (R236). -/
def iShr (w _sf a b : Nat) : Nat := a % 2 ^ w / 2 ^ (b % w)
/-- VSRA (R236). -/
def iSra (w _sf a b : Nat) : Nat := wrap w (signed w a / (2 ^ (b % w) : Nat))
/-- VIMIN (R236). -/
def iMin (w sf a b : Nat) : Nat := if readInt w (bit sf 0) a ≤ readInt w (bit sf 0) b then a % 2 ^ w else b % 2 ^ w
/-- VIMAX (R236). -/
def iMax (w sf a b : Nat) : Nat := if readInt w (bit sf 0) a ≤ readInt w (bit sf 0) b then b % 2 ^ w else a % 2 ^ w

/-- One element of VCVT between ETYPE codes f and t under the suffixes of SF (R234). -/
def cvtElem (f t sf rm x : Nat) : Nat × Flags :=
  let u := bit sf 0
  match etypeFT f, etypeFT t with
  | some a, some b => roundFV b rm (unpack a x)
  | none, some b => ofInt b rm (readInt (sewOf f) u x)
  | some a, none => let r := toInt (sewOf t) (!u) rm (unpack a x); (wrap (sewOf t) r.1, r.2)
  | none, none =>
    let v := readInt (sewOf f) u x
    (wrap (sewOf t) (if bit sf 1 then clampInt (sewOf t) (!u) v else v), 0)

/-- One step acc ⊕ x of a reduction (R242): the operation is SF[2:0]. -/
def redStep (float : Bool) (t : FT) (w op acc x : Nat) : Nat × Flags :=
  if float then
    match op with
    | 0 => eAdd t 0 acc x
    | 1 => minMax t true acc x
    | _ => minMax t false acc x
  else
    (match op with
      | 0 => (acc + x) % 2 ^ w
      | 1 => iMax w 0 acc x
      | 2 => iMin w 0 acc x
      | 3 => iMax w 1 acc x
      | 4 => iMin w 1 acc x
      | 5 => iAnd w 0 acc x
      | 6 => iOr w 0 acc x
      | _ => iXor w 0 acc x, 0)

/-- An ordered reduction from an initial value (R243). -/
def redFold (float : Bool) (t : FT) (w op init : Nat) (xs : List Nat) : Nat × Flags :=
  xs.foldl (fun a x => let r := redStep float t w op a.1 x; (r.1, a.2 ||| r.2)) (init, 0)

/-- A float sum over a full binary tree of the leaves, in a shape that the engine's choices select (R244, log 14): two
members are drawn and replaced by their rounded sum until one is left. -/
def redTree (t : FT) (seed : Nat) : Nat → List Nat → Nat × Flags
  | 0, xs => (xs.headD 0, 0)
  | n + 1, xs =>
    if xs.length ≤ 1 then (xs.headD 0, 0)
    else
      let i := Config.choice (2 ^ 32 * seed + 2 * n) % xs.length
      let rest := xs.eraseIdx i
      let j := Config.choice (2 ^ 32 * seed + 2 * n + 1) % rest.length
      let r := eAdd t 0 (xs.getD i 0) (rest.getD j 0)
      let u := redTree t seed n (rest.set j r.1)
      (u.1, r.2 ||| u.2)

end Sys2Proof.Machine
end

