-- ==== Sys2Proof/Machine/VectorMove.lean ====
section
/-! DEFINITION. Near masks, reductions, scans, permutes, conflict detection, sort and top-k (R238 to R252). -/

namespace Sys2Proof.Machine

/-! ### Compares and masks -/

/-- Whether the element type admits VCMP's SF: U is for integers, un for floats (R238, R425). -/
def vcmpTypeOk (s : State) (sf : Nat) : Bool := (s.isFloat && !bit sf 3) || (s.isInt && !decide (sf % 8 = 6))

/-- One comparison of VCMP: the bit and NV (R238). -/
def vcmpElem (s : State) (p : R2) (k : Nat) : Bool × Flags :=
  let a := s.vsrc p.a p.lit k
  let b := s.vsrc p.b p.lit k
  if s.isFloat then cmpFloat s.ft (p.sf.toNat % 8) a b
  else (cmpInt s.cur.cfg.sew (bit p.sf.toNat 3) (p.sf.toNat % 8) a b, 0)

/-- VCMP: writes the mask bits of active elements (R238). -/
def execVcmp (p : R2) (s : State) : Host.Outcome State Fault Refusal :=
  runV (.vcmp p) none (fun s => checked (s.vconds (vecsOf [p.a, p.b]) (vcmpTypeOk s p.sf.toNat)) (fun s =>
    s.stepElems (s.pending p.msk) (fun i => s.vecWords (vecsOf [p.a, p.b]) i ++ s.maskWords p.msk i) (fun els =>
      (s.raise (orFlags (els.map (fun i => (vcmpElem s p i).2)))).writeQ (qd p.d)
        (els.map (fun i => (i, (vcmpElem s p i).1))))) s) s

/-- The mask that a 3-bit field names. -/
def qf (q : BitVec 3) : Fin 8 := ⟨q.toNat, q.isLt⟩

/-- Element positions below sr.vl. -/
def State.below (s : State) : List Nat := upto 0 s.cur.cfg.vl.toNat

/-- A mask-to-mask instruction on the bits below sr.vl (R239). -/
def maskOp (i : Instr) (p : Q) (two : Bool) (f : Bool → Bool → Bool) (s : State) : Host.Outcome State Fault Refusal :=
  runV i none (fun s => checked (s.vconds [] true) (fun s =>
    s.stepElems (s.below.filter (fun k => decide (s.cur.unf.estart ≤ k)))
      (fun k => .mask s.cur.id p.qa.toNat (k / 64) :: (if two then [.mask s.cur.id p.qb.toNat (k / 64)] else []))
      (fun els => s.writeQ (qd p.d) (els.map (fun k => (k, f (s.cur.maskBit (qf p.qa) k) (s.cur.maskBit (qf p.qb) k)))))) s) s

/-- QAND (R239). -/
def execQand (p : Q) (s : State) : Host.Outcome State Fault Refusal := maskOp (.qand p) p true (· && ·) s
/-- QOR (R239). -/
def execQor (p : Q) (s : State) : Host.Outcome State Fault Refusal := maskOp (.qor p) p true (· || ·) s
/-- QNOT (R239). -/
def execQnot (p : Q) (s : State) : Host.Outcome State Fault Refusal := maskOp (.qnot p) p false (fun a _ => !a) s

/-- A scalar computed from a mask's bits below sr.vl (R239). -/
def maskCount (i : Instr) (p : Q) (f : List Nat → Word) (s : State) : Host.Outcome State Fault Refusal :=
  runV i none (fun s => checked (s.vconds [] true) (fun s =>
    s.readAll s.below (fun k => [.mask s.cur.id p.qa.toNat (k / 64)]) (fun s =>
      s.setD p.d (f (s.below.filter (fun k => s.cur.maskBit (qf p.qa) k))))) s) s

/-- QPOP (R239). -/
def execQpop (p : Q) (s : State) : Host.Outcome State Fault Refusal :=
  maskCount (.qpop p) p (fun l => BitVec.ofNat 64 l.length) s
/-- QFIRST: 2^64 − 1 when no bit is set (R239). -/
def execQfirst (p : Q) (s : State) : Host.Outcome State Fault Refusal :=
  maskCount (.qfirst p) p (fun l => (l.head?.map (BitVec.ofNat 64)).getD (BitVec.ofNat 64 (2 ^ 64 - 1))) s

/-- VSEL: the mask selects between a and b for every element below sr.vl (R240). -/
def execVsel (p : R2) (s : State) : Host.Outcome State Fault Refusal :=
  runV (.vsel p) none (fun s => checked (s.vconds (p.d.toNat :: vecsOf [p.a, p.b]) true) (fun s =>
    s.stepElems (s.below.filter (fun k => decide (s.cur.unf.estart ≤ k)))
      (fun k => s.vecWords (vecsOf [p.a, p.b]) k ++ s.maskWords p.msk k)
      (fun els => s.writeVec (vd p.d) (els.map (fun k =>
        (k, if s.activeAt p.msk k then s.vsrc p.a p.lit k else s.vsrc p.b p.lit k))))) s) s

/-- VIOTA: a plus the number of active elements below (R241). -/
def execViota (p : R2) (s : State) : Host.Outcome State Fault Refusal :=
  runV (.viota p) none (fun s => checked (s.vconds (p.d.toNat :: vecsOf [p.a]) s.isInt) (fun s =>
    s.elementwise p.msk (vecsOf [p.a]) p.d (fun i =>
      ((s.vsrc p.a none i + ((s.actives p.msk).filter (· < i)).length) % 2 ^ s.cur.cfg.sew, 0))) s) s

/-! ### Reductions and scans -/

/-- Whether the element type admits the operation of SF[2:0] (R242). -/
def redTypeOk (s : State) (sf : Nat) : Bool := s.isInt || (s.isFloat && decide (sf % 8 ≤ 2))

/-- The elements that VRED and VREDO read: the active ones, and element 0 for b's first when there is none (R243, R244). -/
def State.redReads (s : State) (m : Mk) : List Nat :=
  if s.cur.cfg.vl = 0 then [] else if (s.actives m).isEmpty then [0] else s.actives m

/-- The words that a reduction reads: those of a at the active elements, b's first, and the mask's (R243). -/
def State.redWords (s : State) (a b : S10) (m : Mk) (i : Nat) : List SramWord :=
  (if (s.actives m).contains i then s.vecWords (vecsOf [a]) i ++ s.maskWords m i else []) ++ s.vecWords (vecsOf [b]) 0

/-- Write a reduction's result to element 0 when sr.vl ≥ 1 (R243). -/
def State.setFirst (s : State) (d : BitVec 6) (r : Nat × Flags) : Res :=
  if s.cur.cfg.vl = 0 then .ok s else .ok ((s.raise r.2).writeVec (vd d) [(0, r.1)])

/-- The active elements of a, in ascending order. -/
def State.redLeaves (s : State) (a : S10) (m : Mk) : List Nat := (s.actives m).map (fun i => s.vsrc a none i)

/-- VREDO: in ascending order, rounded at every step (R243). -/
def execVredo (p : R2) (s : State) : Host.Outcome State Fault Refusal :=
  runV (.vredo p) none (fun s => checked (s.vconds (p.d.toNat :: vecsOf [p.a, p.b]) (redTypeOk s p.sf.toNat)) (fun s =>
    s.readAll (s.redReads p.msk) (s.redWords p.a p.b p.msk) (fun s =>
      s.setFirst p.d (redFold s.isFloat s.ft s.cur.cfg.sew (p.sf.toNat % 8) (s.vsrc p.b none 0) (s.redLeaves p.a p.msk)))) s) s

/-- VRED: as VREDO, but a float sum takes a tree that the engine chooses (R244, log 14). -/
def execVred (p : R2) (s : State) : Host.Outcome State Fault Refusal :=
  runV (.vred p) none (fun s => checked (s.vconds (p.d.toNat :: vecsOf [p.a, p.b]) (redTypeOk s p.sf.toNat)) (fun s =>
    s.readAll (s.redReads p.msk) (s.redWords p.a p.b p.msk) (fun s =>
      let xs := s.redLeaves p.a p.msk
      if s.isFloat && decide (p.sf.toNat % 8 = 0) then
        s.draw.setFirst p.d (redTree s.ft s.free (xs.length + 1) (s.vsrc p.b none 0 :: xs))
      else s.setFirst p.d (redFold s.isFloat s.ft s.cur.cfg.sew (p.sf.toNat % 8) (s.vsrc p.b none 0) xs))) s) s

/-- The prefix results of a scan (R245): for each active element its value and flags. -/
def scanElems (float : Bool) (t : FT) (w op : Nat) (excl : Bool) : Nat → List (Nat × Nat) → List (Nat × Nat × Flags)
  | _, [] => []
  | acc, (i, x) :: rest =>
    let r := redStep float t w op acc x
    (i, if excl then acc else r.1, r.2) :: scanElems float t w op excl r.1 rest

/-- VSCAN, inclusive or exclusive (R245). -/
def execVscan (p : R2) (s : State) : Host.Outcome State Fault Refusal :=
  runV (.vscan p) none (fun s => checked (s.vconds (p.d.toNat :: vecsOf [p.a, p.b]) (redTypeOk s p.sf.toNat)) (fun s =>
    s.readAll (s.actives p.msk) (s.redWords p.a p.b p.msk) (fun s =>
      let r := scanElems s.isFloat s.ft s.cur.cfg.sew (p.sf.toNat % 8) (bit p.sf.toNat 3) (s.vsrc p.b p.lit 0)
        ((s.actives p.msk).map (fun i => (i, s.vsrc p.a p.lit i)))
      .ok ((s.raise (orFlags (r.map (·.2.2)))).writeVec (vd p.d) (r.map (fun x => (x.1, x.2.1)))))) s) s

/-! ### Permutes and moves -/

/-- Element k of a near vector register, or zero at or above sr.vl (R246). -/
def State.elemOr0 (s : State) (a : S10) (k : Nat) : Nat := if k < s.cur.cfg.vl.toNat then s.cur.elem a.vidx k else 0

/-- A permute: each pending element takes element `k i` of a, or zero when there is none (R246). -/
def permute (i : Instr) (p : R2) (regs : List Nat) (k : State → Nat → Option Nat) (s : State) :
    Host.Outcome State Fault Refusal :=
  runV i none (fun s => checked (s.vconds (p.d.toNat :: p.a.vidx.val :: regs) true) (fun s =>
    s.stepElems (s.pending p.msk)
      (fun i => ((k s i).map (fun j => s.vecWords [p.a.vidx.val] j)).getD [] ++ s.vecWords regs i ++ s.maskWords p.msk i)
      (fun els => s.writeVec (vd p.d) (els.map (fun i => (i, ((k s i).map (s.elemOr0 p.a)).getD 0))))) s) s

/-- VPERM: b[i] names the element (R246). -/
def execVperm (p : R2) (s : State) : Host.Outcome State Fault Refusal :=
  permute (.vperm p) p (vecsOf [p.b]) (fun s i =>
    let k := s.vsrc p.b p.lit i
    if k < s.cur.cfg.vl.toNat then some k else none) s

/-- VSLIDE: element i + b (R246). -/
def execVslide (p : R2) (s : State) : Host.Outcome State Fault Refusal :=
  permute (.vslide p) p [] (fun s i =>
    let k := (i : Int) + (s.src p.b p.lit).toInt
    if 0 ≤ k ∧ k < (s.cur.cfg.vl.toNat : Int) then some k.toNat else none) s

/-- Active elements below i. -/
def State.rankOf (s : State) (m : Mk) (i : Nat) : Nat := ((s.actives m).filter (· < i)).length

/-- VCOMPRESS: active elements packed to the front (R247). -/
def execVcompress (p : R2) (s : State) : Host.Outcome State Fault Refusal :=
  runV (.vcompress p) none (fun s => checked (s.vconds [p.d.toNat, p.a.vidx.val] true) (fun s =>
    s.stepElems (s.pending p.msk) (fun i => s.vecWords [p.a.vidx.val] i ++ s.maskWords p.msk i)
      (fun els => s.writeVec (vd p.d) (els.map (fun i => (s.rankOf p.msk i, s.cur.elem p.a.vidx i))))) s) s

/-- VEXPAND: packed elements spread to the active positions (R247). -/
def execVexpand (p : R2) (s : State) : Host.Outcome State Fault Refusal :=
  runV (.vexpand p) none (fun s => checked (s.vconds [p.d.toNat, p.a.vidx.val] true) (fun s =>
    s.stepElems (s.pending p.msk) (fun i => s.vecWords [p.a.vidx.val] (s.rankOf p.msk i) ++ s.maskWords p.msk i)
      (fun els => s.writeVec (vd p.d) (els.map (fun i => (i, s.cur.elem p.a.vidx (s.rankOf p.msk i)))))) s) s

/-- The index operand of VBCAST: the unsigned 64-bit value, or a vector's element (R248, log 32). -/
def State.bcastIdx (s : State) (p : R2) (i : Nat) : Nat := if p.b.tag = 0 then s.cur.elem p.b.vidx i else (s.src p.b p.lit).toNat

/-- VBCAST (R248). -/
def execVbcast (p : R2) (s : State) : Host.Outcome State Fault Refusal :=
  if p.a.tag = 0 then
    permute (.vbcast p) p (vecsOf [p.b]) (fun s i =>
      let k := s.bcastIdx p i
      if k < s.cur.cfg.vl.toNat then some k else none) s
  else
    runV (.vbcast p) none (fun s => checked (s.vconds [p.d.toNat] true) (fun s =>
      s.elementwise p.msk [] p.d (fun i => (s.vsrc p.a p.lit i, 0))) s) s

/-- The value that VEXT gives an element: floats with zero above, integers extended (R248). -/
def extValue (s : State) (u : Bool) (x : Nat) : Word :=
  if s.isFloat || u then BitVec.ofNat 64 x else sext s.cur.cfg.sew x

/-- VEXT (R248). -/
def execVext (p : R2) (s : State) : Host.Outcome State Fault Refusal :=
  runV (.vext p) none (fun s => checked (s.vconds [p.a.vidx.val] true) (fun s =>
    let k := (s.src p.b p.lit).toNat
    if k < s.cur.cfg.vl.toNat then
      s.readAll [k] (s.vecWords [p.a.vidx.val]) (fun s => s.setD p.d (extValue s (bit p.sf.toNat 0) (s.cur.elem p.a.vidx k)))
    else s.setD p.d 0) s) s

/-- VINS (R248). -/
def execVins (p : R2) (s : State) : Host.Outcome State Fault Refusal :=
  runV (.vins p) none (fun s => checked (s.vconds [p.d.toNat] true) (fun s =>
    let k := (s.src p.b p.lit).toNat
    if k < s.cur.cfg.vl.toNat then .ok (s.writeVec (vd p.d) [(k, (s.src p.a p.lit).toNat % 2 ^ s.cur.cfg.sew)]) else .ok s) s) s

/-! ### Conflict detection, sort, top-k -/

/-- VDUPM: occurrences of an element's bits among the active elements below it (R249). -/
def execVdupm (p : R2) (s : State) : Host.Outcome State Fault Refusal :=
  runV (.vdupm p) none (fun s => checked (s.vconds [p.d.toNat, p.a.vidx.val] true) (fun s =>
    s.readAll (s.actives p.msk) (fun i => s.vecWords [p.a.vidx.val] i ++ s.maskWords p.msk i) (fun s =>
      .ok (s.writeVec (vd p.d) ((s.actives p.msk).map (fun i =>
        (i, ((s.actives p.msk).filter (fun j => decide (j < i) && s.cur.elem p.a.vidx j == s.cur.elem p.a.vidx i)).length
          % 2 ^ s.cur.cfg.sew)))))) s) s

/-- Insert an item after every item that is not strictly worse. -/
def insertRank (better : Nat → Nat → Bool) (x : Nat) : List Nat → List Nat
  | [] => [x]
  | y :: ys => if better x y then x :: y :: ys else y :: insertRank better x ys

/-- A stable sort by a strict ranking. -/
def rankSort (better : Nat → Nat → Bool) (xs : List Nat) : List Nat := xs.foldl (fun l x => insertRank better x l) []

/-- Translate every address for an access kind before anything performs (R436). -/
def State.transAll (s : State) (w : Want) : List Nat → Except Stop (List Phys)
  | [] => .ok []
  | va :: rest => match s.translate va w with
    | .error e => .error e
    | .ok p => match s.transAll w rest with
      | .error e => .error e
      | .ok ps => .ok (p :: ps)

/-- The count of each bucket below NB that has a key: (key, n), keys ascending (R250). -/
def bucketCounts (nb : Nat) (keys : List Nat) : List (Nat × Nat) :=
  (((rankSort (· < ·) keys).dedup).filter (· < nb)).map (fun k => (k, keys.count k))

/-- The count additions of VSORTK, each one step (R250); every address is translated, and poison looked for, before the first. -/
def addCounts (s : State) (base : Nat) (cs : List (Nat × Nat)) : Except Stop State :=
  let vas := cs.map (fun c => (base + 4 * c.1) % 2 ^ 64)
  match s.transAll .amo vas with
  | .error e => .error e
  | .ok ps =>
    let t := s.settleRuns true (ps.map (fun q => (q, 4)))
    match ps.findSome? (fun q => poisonedAt t q.uncached q.spot.loc 4) with
    | some w => .error (.trap (mkCause 0x07 5) (BitVec.ofNat 64 (8 * w % 2 ^ 52)))
    | none => .ok ((ps.zip cs).foldl (fun t x =>
        let old := leNat (readBytes t x.1.uncached x.1.spot.loc 4)
        t.putPhys x.1 (leBytes 4 (old + x.2.2)) 0) t)

/-- VSORTK: a stable sort of unsigned keys and a count per bucket (R250). -/
def execVsortk (p : R3) (s : State) : Host.Outcome State Fault Refusal :=
  runV (.vsortk p) none (fun s =>
    let base := (s.src p.b).toNat
    let et := s.cur.cfg.etype.toNat
    let nb := p.imm.toNat
    checkedAt base (s.vconds [p.d.toNat, p.a.vidx.val] (decide (5 ≤ et) && decide (et ≤ 7)) ++
      [(decide (nb ≠ 0) && decide (base % 4 ≠ 0), 0x04, 0x04)]) (fun s =>
      s.readAll (s.actives p.msk) (fun i => s.vecWords [p.a.vidx.val] i ++ s.maskWords p.msk i) (fun s =>
        let key := fun i => s.cur.elem p.a.vidx i
        let order := rankSort (fun i j => decide (key i < key j)) (s.actives p.msk)
        match addCounts s base (bucketCounts nb ((s.actives p.msk).map key)) with
        | .error e => e.res true s
        | .ok t => .ok (t.writeVec (vd p.d) (order.zipIdx.map (fun x => (x.2, x.1)))))) s) s

/-- Whether element x ranks strictly before element y (R251). -/
def topBefore (float : Bool) (t : FT) (w : Nat) (least u : Bool) (x y : Nat) : Bool :=
  if float then
    let a := unpack t x
    let b := unpack t y
    if a.isNan then false else if b.isNan then true else if least then ltFV a b else ltFV b a
  else if least then decide (readInt w u x < readInt w u y) else decide (readInt w u y < readInt w u x)

/-- VTOPK: the indexes of the k best active elements (R251). -/
def execVtopk (p : R3) (s : State) : Host.Outcome State Fault Refusal :=
  runV (.vtopk p) none (fun s =>
    let u := bit p.sf.toNat 1
    checked (s.vconds [p.d.toNat, p.a.vidx.val]
      (!decide (s.cur.cfg.etype = 4) && !(s.isFloat && u))) (fun s =>
      s.readAll (s.actives p.msk) (fun i => s.vecWords [p.a.vidx.val] i ++ s.maskWords p.msk i) (fun s =>
        let order := rankSort (fun i j => topBefore s.isFloat s.ft s.cur.cfg.sew (bit p.sf.toNat 0) u
          (s.cur.elem p.a.vidx i) (s.cur.elem p.a.vidx j)) (s.actives p.msk)
        .ok (s.writeVec (vd p.d) ((order.take (s.src p.b).toNat).zipIdx.map (fun x => (x.2, x.1)))))) s) s

end Sys2Proof.Machine
end

