-- ==== Sys2Proof/Machine/VectorMem.lean ====
section
/-! DEFINITION. Near vector loads, stores, tensor accesses, atomics and prefetch (R254 to R264). -/

namespace Sys2Proof.Machine

/-! ### Element loops -/

/-- What a load gets for one element: its value, its flags and the locations read. -/
abbrev Got := Nat × Flags × List Nat

/-- Load elements in order up to the first that stops (R390, R435). -/
def loadLoop (get : Nat → Except Stop Got) : List Nat → List (Nat × Got) × Option (Nat × Stop)
  | [] => ([], none)
  | i :: rest => match get i with
    | .error e => ([], some (i, e))
    | .ok g => let r := loadLoop get rest; ((i, g) :: r.1, r.2)

/-- An instruction that stops keeps, for each publishable buffer that one of these byte ranges, first to last, meets, the image that it used
there (R163, R445). -/
def State.keepSpans (s : State) (spans : List (Nat × Nat)) : State :=
  match s.mod? s.cur.mod with
  | none => s
  | some x =>
    let used := x.pubs.filter (fun b => decide (b.asid = s.view.asid) && spans.any (fun r => decide (b.va ≤ r.2) && decide (r.1 < b.va + b.len)))
    { s with cur := { s.cur with unf := { s.cur.unf with sels := (s.cur.unf.sels ++ used.map (fun b => (b.asid, b.va, b.image s.view))).dedup } } }

/-- The same for single addresses. -/
def State.keepImages (s : State) (vas : List Nat) : State := s.keepSpans (vas.map (fun va => (va, va)))

/-- A load into a near register: performed elements are written, read requests counted, and a stop leaves sr.estart and the images used
(R258, R435); `addr` gives the addresses that an element reads. -/
def State.loadElems (s : State) (d : BitVec 6) (els : List Nat) (addr : Nat → List Nat) (get : Nat → Except Stop Got) : Res :=
  let r := loadLoop get els
  let t := countReads s (r.1.flatMap (fun x => x.2.2.2))
  let t := (t.raise (orFlags (r.1.map (fun x => x.2.2.1)))).writeVec (vd d) (r.1.map (fun x => (x.1, x.2.1)))
  match r.2 with
  | none => .ok t
  | some (i, e) => e.res true ((t.keepImages (r.1.flatMap (fun x => addr x.1))).stopAt i)

/-- One write of a store: virtual address, translated address and bytes. -/
structure Put where
  va : Word
  phys : Phys
  bytes : List Byte
  deriving DecidableEq, Repr

/-- What a store makes for one element or chunk: its writes and flags, or why it stops. -/
def storeLoop (make : Nat → Except Stop (List Put × Flags)) : List Nat → (List Put × Flags) × Option (Nat × Stop)
  | [] => (([], 0), none)
  | i :: rest => match make i with
    | .error e => (([], 0), some (i, e))
    | .ok g => let r := storeLoop make rest; ((g.1 ++ r.1.1, g.2 ||| r.1.2), r.2)

/-- The bytes of puts by location, a later put winning (R153). -/
def putBytes : List Put → Tbl (Word × Phys × Byte) → Tbl (Word × Phys × Byte)
  | [], t => t
  | p :: rest, t => putBytes rest (p.bytes.zipIdx.foldl (fun t b =>
      Tbl.put (p.phys.spot.loc + b.2)
        (p.va + BitVec.ofNat 64 b.2, { p.phys with spot := { p.phys.spot with pa := p.phys.spot.pa + b.2 } }, b.1) t) t)

/-- Whether two writes meet in a byte. -/
def Put.meets (p q : Put) : Bool :=
  decide (p.phys.spot.loc < q.phys.spot.loc + q.bytes.length) && decide (q.phys.spot.loc < p.phys.spot.loc + p.bytes.length)

/-- `n` bytes of a write, from its byte `i` on. -/
def Put.part (p : Put) (i n : Nat) : Put :=
  ⟨p.va + BitVec.ofNat 64 i, { p.phys with spot := { p.phys.spot with pa := p.phys.spot.pa + i } }, (p.bytes.drop i).take n⟩

/-- Ascending numbers as runs: first number and length. -/
def runsOf : List Nat → List (Nat × Nat)
  | [] => []
  | i :: rest => match runsOf rest with
    | (j, n) :: tail => if j = i + 1 then (i, n + 1) :: tail else (i, 1) :: (j, n) :: tail
    | [] => [(i, 1)]

/-- What is left of a write when later ones take their bytes: unbroken runs. -/
def Put.left (p : Put) (later : List Put) : List Put :=
  (runsOf ((upto 0 p.bytes.length).filter (fun i =>
    !later.any (fun q => decide (q.phys.spot.loc ≤ p.phys.spot.loc + i) && decide (p.phys.spot.loc + i < q.phys.spot.loc + q.bytes.length))))).map
      (fun r => p.part r.1 r.2)

/-- The writes of a store with each byte written once, by the highest-numbered element that writes it; an element that keeps all its bytes
stays one write (R127, R147, R153). -/
def lastPuts : List Put → List Put
  | [] => []
  | p :: rest =>
    let later := rest.filter p.meets
    (if later.isEmpty then [p] else p.left later) ++ lastPuts rest

/-- Puts regrouped for a store that names readers: a line that the store fully writes is one write, the others stay as their elements make
them (R141, R147, R259). -/
def linePuts (ps : List Put) : List Put :=
  let t := putBytes ps []
  let full := ((t.map (fun c => c.1 / 128)).dedup).filter (fun l => decide ((t.filter (fun c => c.1 / 128 == l)).length = 128))
  full.flatMap (fun l => match t.filter (fun c => c.1 / 128 == l) with
    | c :: rest => [⟨c.2.1, c.2.2.1, (c :: rest).map (fun x => x.2.2.2)⟩]
    | [] => []) ++ (lastPuts ps).filter (fun p => !full.contains (p.phys.spot.loc / 128))

/-- Perform puts with a reader count: in I memory each byte once (R127, R141), in D memory each element's bytes by themselves, in order
(R127). -/
def State.putAll (s : State) (readers : Nat) (ps : List Put) : State :=
  let free := ps.filter (fun p => !p.phys.dclass)
  ((if readers = 0 then lastPuts free else linePuts free) ++ ps.filter (fun p => p.phys.dclass)).foldl
    (fun t p => t.writePhys true p.va p.phys p.bytes readers) s

/-- A store: the writes of the elements that perform, then a stop, if any, with sr.estart and the images used (R259, R435). -/
def State.storeElems (s : State) (readers : Nat) (els : List Nat) (make : Nat → Except Stop (List Put × Flags)) : Res :=
  let r := storeLoop make els
  let t := ((s.raise r.1.2).settleRuns true (r.1.1.map (fun p => (p.phys, p.bytes.length)))).putAll readers r.1.1
  match r.2 with
  | none => .ok t
  | some (i, e) => e.res true ((t.keepImages (r.1.1.map (·.va.toNat))).stopAt i)

/-! ### One element -/

/-- A trap on a poisoned near register or mask word (R456). -/
def poisonStop (c : Nat) : Stop := .trap (mkCause 0x0D c) 0

/-- Whether any of these words is poisoned. -/
def State.anyPoison (s : State) (ws : List SramWord) : Bool := !s.poison.isEmpty && ws.any s.poison.contains

/-- Translate a naturally aligned element address; misalignment is 0x04.02 (R257, R426). -/
def State.elemPhys (s : State) (va w : Nat) (k : Want) : Except Stop Phys :=
  if va % w ≠ 0 then .error (.trap (mkCause 0x04 0x02) (BitVec.ofNat 64 va)) else s.translate va k

/-- Load one element of a non-KB format from an address (R258). -/
def State.loadElem (s : State) (fmt et : Nat) (va : Nat) : Except Stop Got :=
  let w := fmtBits fmt (sewOf et) / 8
  match s.elemPhys va w .load with
  | .error e => .error e
  | .ok p => match (s.settleFor true p).readPhys p w false with
    | .error e => .error e
    | .ok b => .ok (widen fmt et (leNat b), 0, [p.req])

/-- The put of one element in a non-KB format (R259). -/
def State.storeElem (s : State) (fmt et : Nat) (va v : Nat) : Except Stop (List Put × Flags) :=
  let w := fmtBits fmt (sewOf et) / 8
  match s.elemPhys va w .store with
  | .error e => .error e
  | .ok p => let r := narrow fmt et 0 v; .ok ([⟨BitVec.ofNat 64 va, p, leBytes w r.1⟩], r.2)

/-! ### KB tensors -/

/-- Whether element `e` of a chunk, read with p planes, has a bit in the chunk's byte at an offset (R102). -/
def kbTouches (p e off : Nat) : Bool :=
  decide (off = e / 16) || decide (off = 32 + e / 16) || decide (off = 64 + e / 8) ||
    (decide (128 ≤ off) && decide ((off - 128) / 64 < p) && decide ((off - 128) % 64 = e / 8))

/-- The offsets in a chunk of the bytes of these elements, read with p planes, ascending (R102, R103). -/
def kbOffsets (p : Nat) (es : List Nat) : List Nat := (upto 0 (128 + 64 * p)).filter (fun off => es.any (fun e => kbTouches p e off))

/-- The view under which an operand is translated: the base die's of a stack, or the core's (R133). -/
def State.viewAt (s : State) (home : Option Nat) : View := (home.map s.farView).getD s.view

/-- Why an operand that may not lie in D memory stops there: the sub-cause of 0x0A that `sub` gives (R434). -/
def dStop (sub : Option Nat) (q : Phys) (va : Nat) : Option Stop :=
  match sub with
  | some k => if q.dclass then some (.trap (mkCause 0x0A k) (BitVec.ofNat 64 va)) else none
  | none => none

/-- Read single bytes at ascending offsets from a base; the byte before, with its translation, stands for those of its line. -/
def State.readAt (s : State) (home : Option Nat) (sub : Option Nat) (base : Nat) : Option (Nat × Phys) → List Nat → Except Stop (List (Nat × Byte) × List Nat)
  | _, [] => .ok ([], [])
  | last, off :: rest =>
    let va := (base + off) % 2 ^ 64
    let tr : Except Stop Phys := match last with
      | some (o, q) => if (base + o) / 128 = (base + off) / 128 then .ok { q with spot := { q.spot with pa := q.spot.pa + (off - o) } }
          else s.translateAs (s.viewAt home) va .load
      | none => s.translateAs (s.viewAt home) va .load
    match tr with
    | .error e => .error e
    | .ok q => match dStop sub q va with
      | some e => .error e
      | none => match (if home.isSome then s else s.settleFor true q).readPhys q 1 home.isSome with
        | .error e => .error e
        | .ok b => match s.readAt home sub base (some (off, q)) rest with
          | .error e => .error e
          | .ok r => .ok ((off, b.headD 0) :: r.1, q.req :: r.2)

/-- The bytes of a KB chunk that the elements `es` of it have in p planes, the others left 0, and what the read of each byte counts by, or why
they cannot be read: at the near point, or by the base die of a stack (R102, R103, R127, R435). -/
def State.kbChunkBytes (s : State) (home sub : Option Nat) (base n p c : Nat) (es : List Nat) : Except Stop (List Byte × Tbl Nat) :=
  match s.readAt home sub (base + c * kbChunk n) none (kbOffsets p es) with
  | .error e => .error e
  | .ok r => .ok ((upto 0 (128 + 64 * p)).map (fun off => Tbl.getD r.1 off 0), (kbOffsets p es).zip r.2)

/-- What the reads of one element count by, a line of D memory once: the element's own bytes are not combined with another's (R127, R141). -/
def elemReqs (reqs : List Nat) : List Nat :=
  (reqs.map (fun r => if r % 4 = 2 then reqKey 2 (r / 4 / 128 * 128) else r)).dedup

/-- The value of element e (0 to 511) of a chunk's bytes (R102, R103). -/
def kbElem (bs : List Byte) (p e : Nat) : FV :=
  let byte := fun k => (bs.getD k 0).toNat
  let mant := (upto 0 p).foldl (fun m j => 2 * m + (if bit (byte (128 + 64 * j + e / 8)) (e % 8) then 1 else 0)) 0
  kbValue (byte (e / 16)) (byte (32 + e / 16)) (bit (byte (64 + e / 8)) (e % 8)) mant p e

/-- The plane count that PLANES and a KB format give (R103, R180). -/
def planeCount (n planes : Nat) : Nat := if planes = 0 then n else planes

/-- A KB load's element e0 + i, from chunks read once each (R256, R258). -/
def State.kbGet (s : State) (home sub : Option Nat) (t : FT) (base e0 n p : Nat) (els : List Nat) : Nat → Except Stop Got :=
  let cs : List (Nat × Except Stop (List Byte × Tbl Nat)) :=
    ((els.map (fun i => (e0 + i) / 512)).dedup).map (fun c => (c, s.kbChunkBytes home sub base n p c
      ((els.filter (fun i => (e0 + i) / 512 == c)).map (fun i => (e0 + i) % 512))))
  fun i =>
    match cs.find? (fun c => c.1 == (e0 + i) / 512) with
    | some (_, .ok b) =>
      let r := widenKB t (kbElem b.1 p ((e0 + i) % 512))
      .ok (r.1, r.2, elemReqs ((b.2.filter (fun c => kbTouches p ((e0 + i) % 512) c.1)).map (·.2)))
    | some (_, .error e) => .error e
    | none => .ok (0, 0, [])

/-- The bytes of one encoded block as (offset in chunk, byte) pairs, for block b of the chunk (R102, R104). -/
def blockBytes (n b : Nat) (k : KBlock) : List (Nat × Byte) :=
  let plane := fun (f : Nat → Bool) (half : Nat) =>
    BitVec.ofNat 8 ((upto 0 8).foldl (fun v j => v + (if f (8 * half + j) then 2 ^ j else 0)) 0)
  let sign := fun i => (k.signs.find? (fun x => x.1 == i)).any (·.2)
  let mbit := fun j i => (k.mants.find? (fun x => x.1 == i)).any (fun x => bit x.2 (n - 1 - j))
  [(b, BitVec.ofNat 8 k.ex), (32 + b, BitVec.ofNat 8 k.sh), (64 + 2 * b, plane sign 0), (64 + 2 * b + 1, plane sign 1)] ++
    (upto 0 n).flatMap (fun j => [(128 + 64 * j + 2 * b, plane (mbit j) 0), (128 + 64 * j + 2 * b + 1, plane (mbit j) 1)])

/-- Translate the bytes that a KB store writes in a chunk. -/
def State.bytePuts (s : State) (home sub : Option Nat) (base : Nat) : List (Nat × Byte) → Except Stop (List Put)
  | [] => .ok []
  | (o, b) :: rest => match s.translateAs (s.viewAt home) ((base + o) % 2 ^ 64) .store with
    | .error e => .error e
    | .ok p => match dStop sub p (base + o) with
      | some e => .error e
      | none => match s.bytePuts home sub base rest with
      | .error e => .error e
      | .ok ps => .ok (⟨BitVec.ofNat 64 (base + o), p, [b]⟩ :: ps)

/-- The writes of a KB store in chunk c: every block with an active element, whole (R104, R108). -/
def State.kbMake (s : State) (home sub : Option Nat) (t : FT) (base e0 n : Nat) (act : List Nat) (val : Nat → Nat) (c : Nat) :
    Except Stop (List Put × Flags) :=
  let mine := act.filter (fun i => (e0 + i) / 512 == c)
  let blocks := (mine.map (fun i => (e0 + i) % 512 / 16)).dedup
  let enc := blocks.map (fun b => (b, kbEncode n ((mine.filter (fun i => (e0 + i) % 512 / 16 == b)).map
    (fun i => ((e0 + i) % 16, unpack t (val i))))))
  match s.bytePuts home sub (base + c * kbChunk n) (enc.flatMap (fun x => blockBytes n x.1 x.2)) with
  | .error e => .error e
  | .ok ps => .ok (ps, orFlags (enc.map (fun x => x.2.flags)))

/-! ### Conditions and addresses -/

/-- Conditions of a memory form (R416, R426): registers, index group, configuration, pairing. -/
def State.memConds (s : State) (p : M) (load : Bool) (regs : List Nat) (grp : List (Bool × Nat × Nat)) : List (Bool × Nat × Nat) :=
  let nr := s.cur.cfg.nreg
  [(regs.any (fun r => decide (nr ≤ r)) || (grp.any (fun c => c.1 && c.2.2 == 3)), 0x03, 0x03),
   (grp.any (fun c => c.1 && c.2.2 == 4), 0x03, 0x04), (!s.cur.configured, 0x03, 0x05),
   (!pairOk load p.fmt.toNat s.cur.cfg.etype.toNat, 0x03, 0x06)]

/-- Width of index elements (R255). -/
def State.iw (s : State) : Nat := if s.cur.cfg.sew = 64 then 64 else 32

/-- The index group's conditions (R255, R423). -/
def State.indexConds (s : State) (x : S10) : List (Bool × Nat × Nat) :=
  s.groupConds x.vidx.val (max 1 (s.iw / s.cur.cfg.sew))

/-- Index i of a near index operand, signed or unsigned (R255). -/
def State.index (s : State) (x : S10) (u : Bool) (i : Nat) : Int :=
  readInt s.iw u (s.groupElem x.vidx (max 1 (s.iw / s.cur.cfg.sew)) i)

/-- The word that holds index i. -/
def State.indexWord (s : State) (x : S10) (i : Nat) : SramWord :=
  let rho := max 1 (s.iw / s.cur.cfg.sew)
  let per := max 1 (s.cur.vlmax / rho)
  .vec s.cur.id (x.vidx.val + i / per) (s.cur.cfg.sew * rho * (i % per) / 64)

/-- Bytes of an element in memory. -/
def State.memWidth (s : State) (p : M) : Nat := fmtBits p.fmt.toNat s.cur.cfg.sew / 8

/-- A_i of the unit-stride mode (R254). -/
def State.unitAddr (s : State) (p : M) (i : Nat) : Nat := (s.memBase p + i * s.memWidth p) % 2 ^ 64
/-- A_i of the strided mode (R254). -/
def State.strideAddr (s : State) (p : M) (i : Nat) : Nat := addrOf (BitVec.ofNat 64 (s.memBase p)) (i * (s.src p.x).toInt)
/-- A_i of the indexed mode (R254). -/
def State.indexAddr (s : State) (p : M) (i : Nat) : Nat :=
  addrOf (BitVec.ofNat 64 (s.memBase p)) (s.index p.x (bit p.sf.toNat 2) i * (2 ^ (p.sf.toNat % 4) : Nat))

/-- A load in a mode with one address per element (R258). -/
def loadAt (s : State) (p : M) (words : Nat → List SramWord) (addr : Nat → Nat) : Res :=
  s.loadElems p.d (s.pending p.msk) (fun i => [addr i]) (fun i =>
    if s.anyPoison (words i ++ s.maskWords p.msk i) then .error (poisonStop 1)
    else s.loadElem p.fmt.toNat s.cur.cfg.etype.toNat (addr i))

/-- A store in a mode with one address per element (R259). -/
def storeAt (s : State) (p : M) (words : Nat → List SramWord) (addr : Nat → Nat) : Res :=
  s.storeElems p.rdr.toNat (s.pending p.msk) (fun i =>
    if s.anyPoison (words i ++ s.maskWords p.msk i) then .error (poisonStop 1)
    else match s.storeElem p.fmt.toNat s.cur.cfg.etype.toNat (addr i) (s.cur.elem (vd p.d) i) with
      | .error e => .error e
      | .ok r => if s.anyPoison (s.vecWords [p.d.toNat] i) then .error (poisonStop 1) else .ok r)

/-- The KB base and starting element conditions (R256, R426). -/
def State.kbConds (s : State) (p : M) : List (Bool × Nat × Nat) :=
  [(p.kb && (decide (s.memBase p % 64 ≠ 0) || decide ((s.src p.x).toNat % 16 ≠ 0)), 0x04, 0x03)]

/-- VLD (R254, R256, R258). -/
def execVld (p : M) (s : State) : Host.Outcome State Fault Refusal :=
  runV (.vld p) none (fun s => checkedAt (s.memBase p) (s.memConds p true [p.d.toNat] [] ++ s.kbConds p) (fun s =>
    if p.kb then
      let els := s.pending p.msk
      let n := kbBits p.fmt.toNat
      let e0 := (s.src p.x).toNat
      let get := s.kbGet none none s.ft (s.memBase p) e0 n (planeCount n p.planes.toNat) els
      let chunk := fun (i : Nat) => s.memBase p + (e0 + i) / 512 * kbChunk n
      s.loadElems p.d els (fun i => [chunk i % 2 ^ 64, (chunk i + kbChunk n - 1) % 2 ^ 64]) (fun i => if s.anyPoison (s.maskWords p.msk i) then .error (poisonStop 1) else get i)
    else loadAt s p (fun _ => []) (s.unitAddr p)) s) s

/-- VST (R254, R256, R259). -/
def execVst (p : M) (s : State) : Host.Outcome State Fault Refusal :=
  runV (.vst p) none (fun s => checkedAt (s.memBase p) (s.memConds p false [p.d.toNat] [] ++ s.kbConds p) (fun s =>
    if p.kb then
      let e0 := (s.src p.x).toNat
      let act := s.actives p.msk
      let firsts := ((s.pending p.msk).map (fun i => (e0 + i) / 512)).dedup.filterMap (fun c =>
        (s.pending p.msk).find? (fun i => (e0 + i) / 512 == c))
      s.storeElems p.rdr.toNat firsts (fun i =>
        let mine := act.filter (fun j => (e0 + j) / 512 == (e0 + i) / 512)
        match s.kbMake none none s.ft (s.memBase p) e0 (kbBits p.fmt.toNat) act (s.cur.elem (vd p.d)) ((e0 + i) / 512) with
        | .error e => .error e
        | .ok r => if mine.any (fun j => s.anyPoison (s.vecWords [p.d.toNat] j ++ s.maskWords p.msk j)) then .error (poisonStop 1) else .ok r)
    else storeAt s p (fun _ => []) (s.unitAddr p)) s) s

/-- VLDS (R254, R258). -/
def execVlds (p : M) (s : State) : Host.Outcome State Fault Refusal :=
  runV (.vlds p) none (fun s => checked (s.memConds p true [p.d.toNat] []) (fun s =>
    loadAt s p (fun _ => []) (s.strideAddr p)) s) s

/-- VSTS (R254, R259). -/
def execVsts (p : M) (s : State) : Host.Outcome State Fault Refusal :=
  runV (.vsts p) none (fun s => checked (s.memConds p false [p.d.toNat] []) (fun s =>
    storeAt s p (fun _ => []) (s.strideAddr p)) s) s

/-- VLDX (R254, R255, R258). -/
def execVldx (p : M) (s : State) : Host.Outcome State Fault Refusal :=
  runV (.vldx p) none (fun s => checked (s.memConds p true [p.d.toNat] (s.indexConds p.x)) (fun s =>
    loadAt s p (fun i => [s.indexWord p.x i]) (s.indexAddr p)) s) s

/-- VSTX (R254, R255, R259). -/
def execVstx (p : M) (s : State) : Host.Outcome State Fault Refusal :=
  runV (.vstx p) none (fun s => checked (s.memConds p false [p.d.toNat] (s.indexConds p.x)) (fun s =>
    storeAt s p (fun i => [s.indexWord p.x i]) (s.indexAddr p)) s) s

/-! ### Tensor accesses -/

/-- One dimension of a tensor layout (R261). -/
structure Dim where
  str : Int
  ext : Nat
  org : Int
  box : Nat
  deriving DecidableEq, Repr

/-- Word j of the layout register (R261). -/
def State.layoutWord (s : State) (x : S10) (j : Nat) : Nat := bits s.cur.vec[x.vidx] (64 * j) 64

/-- The D dimensions of a layout register (R261). -/
def State.dims (s : State) (p : M) : List Dim :=
  (upto 0 (p.sf.toNat % 8 + 1)).map (fun d =>
    let a := s.layoutWord p.x (2 * d)
    let b := s.layoutWord p.x (2 * d + 1)
    ⟨signed 32 (a / 2 ^ 32), a % 2 ^ 32, signed 32 (b / 2 ^ 32), b % 2 ^ 32⟩)

/-- The decomposition of element i (R262): what is left over, whether every coordinate is inside, the byte offset. -/
def decompose : List Dim → Nat → Nat × Bool × Int
  | [], t => (t, true, 0)
  | d :: rest, t =>
    let c := d.org + ((t % d.box : Nat) : Int)
    let r := decompose rest (t / d.box)
    (r.1, decide (0 ≤ c) && decide (c < (d.ext : Int)) && r.2.1, c * d.str + r.2.2)

/-- Where element i of a tensor access lies: none when it is outside the tensor (R262). -/
def State.tensorAddr (s : State) (p : M) (i : Nat) : Option Nat :=
  let r := decompose (s.dims p) i
  if r.1 = 0 && r.2.1 then some (addrOf (BitVec.ofNat 64 (s.memBase p)) r.2.2) else none

/-- Conditions of a tensor access (R426): its layout words lie in the register and no extent or box count is 0. -/
def State.tensorConds (s : State) (p : M) (load : Bool) : List (Bool × Nat × Nat) :=
  let d := p.sf.toNat % 8 + 1
  s.memConds p load [p.d.toNat, p.x.vidx.val] [(decide (s.cur.vlmax * s.cur.cfg.sew < 64 * (2 * d + 1)), 0x03, 0x04)] ++
    [((s.dims p).any (fun x => x.ext == 0 || x.box == 0), 0x03, 0x09)]

/-- The least pending element that lies in D memory: 0x0A.1, before any access (R440). -/
def State.tensorD (s : State) (p : M) (w : Want) : Option Nat :=
  (s.pending p.msk).findSome? (fun i =>
    if (decompose (s.dims p) i).1 ≠ 0 then none
    else match s.tensorAddr p i with
      | none => none
      | some va => match s.translate va w with
        | .ok q => if q.dclass then some va else none
        | .error _ => none)

/-- The word of the layout register. -/
def State.layoutWords (s : State) (p : M) : List SramWord :=
  (upto 0 (2 * (p.sf.toNat % 8 + 1) + 1)).map (fun j => .vec s.cur.id p.x.vidx.val j)

/-- An element beyond the box (R426). -/
def boxStop : Stop := .trap (mkCause 0x03 0x09) 0

/-- VLDT (R261, R262). -/
def execVldt (p : M) (s : State) : Host.Outcome State Fault Refusal :=
  runV (.vldt p) none (fun s => checked (s.tensorConds p true) (fun s =>
    match s.tensorD p .load with
    | some va => .trap ⟨mkCause 0x0A 1, BitVec.ofNat 64 va, true⟩ s
    | none => s.loadElems p.d (s.pending p.msk) (fun i => (s.tensorAddr p i).toList) (fun i =>
      if s.anyPoison (s.layoutWords p ++ s.maskWords p.msk i) then .error (poisonStop 1)
      else if (decompose (s.dims p) i).1 ≠ 0 then .error boxStop
      else match s.tensorAddr p i with
        | none => .ok (s.layoutWord p.x (2 * (p.sf.toNat % 8 + 1)) % 2 ^ s.cur.cfg.sew, 0, [])
        | some va => s.loadElem p.fmt.toNat s.cur.cfg.etype.toNat va)) s) s

/-- VSTT (R261, R262). -/
def execVstt (p : M) (s : State) : Host.Outcome State Fault Refusal :=
  runV (.vstt p) none (fun s => checked (s.tensorConds p false) (fun s =>
    match s.tensorD p .store with
    | some va => .trap ⟨mkCause 0x0A 1, BitVec.ofNat 64 va, true⟩ s
    | none => s.storeElems p.rdr.toNat (s.pending p.msk) (fun i =>
      if s.anyPoison (s.layoutWords p ++ s.maskWords p.msk i) then .error (poisonStop 1)
      else if (decompose (s.dims p) i).1 ≠ 0 then .error boxStop
      else match s.tensorAddr p i with
        | none => .ok ([], 0)
        | some va => match s.storeElem p.fmt.toNat s.cur.cfg.etype.toNat va (s.cur.elem (vd p.d) i) with
          | .error e => .error e
          | .ok r => if s.anyPoison (s.vecWords [p.d.toNat] i) then .error (poisonStop 1) else .ok r)) s) s

/-! ### Atomics and prefetch -/

/-- Whether a VAMO or VPREF uses the indexed mode: X other than zero (R254). -/
def memIndexed (p : M) : Bool := !p.x.isZero

/-- A_i of VAMO (R254, R263). -/
def State.amoAddr (s : State) (p : M) (i : Nat) : Nat :=
  if memIndexed p then addrOf (BitVec.ofNat 64 (s.memBase p)) (s.index p.x false i * (s.cur.cfg.sew / 8 : Nat)) else s.unitAddr p i

/-- Translate every element of a VAMO before any performs (R436). -/
def State.amoAll (s : State) (p : M) : List Nat → Except Stop (List (Nat × Phys))
  | [] => .ok []
  | i :: rest =>
    if s.anyPoison ((if memIndexed p then [s.indexWord p.x i] else []) ++ s.maskWords p.msk i) then .error (poisonStop 1)
    else match s.elemPhys (s.amoAddr p i) (s.cur.cfg.sew / 8) .amo with
      | .error e => .error e
      | .ok q => match s.amoAll p rest with
        | .error e => .error e
        | .ok r => .ok ((i, q) :: r)

/-- What an instruction leaves where it traps or is held part way. -/
def Res.onStop (r : Res) (f : State → State) : Res :=
  match r with
  | .trap t s => .trap t (f s)
  | .held k va s => .held k va (f s)
  | r => r

/-- Perform a VAMO's elements in ascending order (R263); poison stops it at its element (R456). -/
def amoLoop (p : M) (orig : State) : List (Nat × Phys) → State → Res
  | [], s => .ok s
  | (i, q) :: rest, s =>
    let w := s.cur.cfg.sew
    match (s.settleFor true q).readPhys q (w / 8) false with
    | .error e => e.res true (s.stopAt i)
    | .ok b =>
      if s.anyPoison (s.vecWords [p.d.toNat] i) then .trap ⟨mkCause 0x0D 1, 0, true⟩ (s.stopAt i)
      else
        let old := leNat b
        let new := (amoNew (p.sf.toNat % 8) w (signed w old) (signed w (orig.cur.elem (vd p.d) i)) 0).getD 0
        let t := (s.settleFor true q).putPhys q (leBytes (w / 8) (wrap w new)) 0
        amoLoop p orig rest (if bit p.sf.toNat 3 then t else t.writeVec (vd p.d) [(i, old)])

/-- VAMO (R263, R436); where it stops it keeps the images that it used (R163, R445). -/
def execVamo (p : M) (s : State) : Host.Outcome State Fault Refusal :=
  runV (.vamo p) none (fun s =>
    let et := s.cur.cfg.etype.toNat
    checked (s.memConds p true [p.d.toNat] (if memIndexed p then s.indexConds p.x else []) ++
      [(!(decide (et = 6) || decide (et = 7)), 0x03, 0x06)]) (fun s =>
      match s.amoAll p (s.pending p.msk) with
      | .error e => e.res true s
      | .ok els => (amoLoop p s els s).onStop (fun t =>
          t.keepImages ((els.filter (fun x => decide (x.1 < t.cur.unf.estart))).map (fun x => s.amoAddr p x.1)))) s) s

/-- The bytes that a prefetch names, as addresses of 64-byte blocks: those that a load of the mode that X selects would read for the active
elements (R254, R264). A VPREF never faults: where its index group is not an acceptable one the spec states no addresses, and the group is
read from the register as it stands (DESIGN CHOICE, log 77). -/
def State.prefBlocks (s : State) (p : M) (index : Nat → Int) : List Nat :=
  let els := s.actives p.msk
  let n := kbBits p.fmt.toNat
  let planes := planeCount n p.planes.toNat
  (if p.kb then els.flatMap (fun i => (kbOffsets planes [i % 512]).map (fun o => (s.memBase p + i / 512 * kbChunk n + o) % 2 ^ 64))
  else els.map (fun i =>
    if p.x.isZero then s.unitAddr p i
    else if p.x.isVec then addrOf (BitVec.ofNat 64 (s.memBase p)) (index i * (s.cur.cfg.sew / 8 : Nat))
    else s.strideAddr p i)).map (fun va => va / 64 * 64) |>.dedup

/-- Near prefetch of one block: its line is filled into L2 where it translates to a cached page of the hart's own module, else nothing is done
(R127, R138, R264). The fill is no load's, so it counts no read request (DESIGN CHOICE, log 67). -/
def State.prefNear (s : State) (va : Nat) : State :=
  match s.translate va .load with
  | .ok q => if q.uncached || decide (q.spot.m ≠ s.cur.mod) then s else fillCopy s (q.spot.loc / 128)
  | .error _ => s

/-- VPREF: the lines of the active elements' bytes are filled into L2; it never faults and writes no register (R264). -/
def execVpref (p : M) (s : State) : Host.Outcome State Fault Refusal :=
  runV (.vpref p) none (fun s => .ok ((s.prefBlocks p (s.index p.x false)).foldl State.prefNear s)) s

end Sys2Proof.Machine
end

