-- ==== Sys2Proof/Machine/Rows.lean ====
section
/-! DEFINITION. Rows of elements that the matrix engine and the far units fetch, and the arithmetic of streaming softmax. -/

namespace Sys2Proof.Machine

/-! ### Operand rows -/

/-- Elements fetched from memory: their values in the operand type, the KB7 edge rule's flags, and the locations read. -/
structure Row where
  vals : List FV
  flags : Flags
  locs : List Nat
  deriving DecidableEq, Repr

/-- Bytes of a fetched range: at the near point, or by the base die of a stack at the far point; never in D memory (R127, R434: sub-cause `sub` of 0x0A). -/
def State.fetchBytes (s : State) (home : Option Nat) (sub va n : Nat) : Except Stop (List Byte × List Nat) :=
  match s.transRangeD (s.viewAt home) va n .load sub with
  | .error e => .error e
  | .ok ps => match (if home.isSome then s else s.settleRuns true ps).readRuns home.isSome ps with
    | .error e => .error e
    | .ok b => .ok (b, runReqs ps)

/-- Elements e0 to e0 + cnt − 1 in a non-KB format, consecutive from a base, as patterns widened to a float type (R105), and the locations
read. -/
def State.plainBits (s : State) (home : Option Nat) (sub : Nat) (t : FT) (fmt base e0 cnt : Nat) : Except Stop (List Nat × List Nat) :=
  let f := (fmtFT fmt).getD .bf16
  let w := f.width / 8
  let va := (base + e0 * w) % 2 ^ 64
  if cnt = 0 then .ok ([], [])
  else if va % w ≠ 0 then .error (.trap (mkCause 0x04 0x02) (BitVec.ofNat 64 va))
  else match s.fetchBytes home sub va (cnt * w) with
    | .error e => .error e
    | .ok r => .ok ((upto 0 cnt).map (fun k => widenFloat f t (leNat ((r.1.drop (k * w)).take w))), r.2)

/-- The same elements as values. -/
def State.plainRow (s : State) (home : Option Nat) (sub : Nat) (t : FT) (fmt base e0 cnt : Nat) : Except Stop Row :=
  match s.plainBits home sub t fmt base e0 cnt with
  | .error e => .error e
  | .ok r => .ok ⟨r.1.map (unpack t), 0, r.2⟩

/-- Elements of one KB tensor chunk from position `e` on, in a float type (R102, R103, R105, R106). -/
def chunkVals (t : FT) (b : List Byte) (p e cnt : Nat) : List (FV × Flags) :=
  (upto 0 cnt).map (fun k => let r := widenKB t (kbElem b p (e + k)); (unpack t r.1, r.2))

/-- KB tensor elements from e0 on, chunk by chunk; `f` bounds the number of chunks (R102, R103). -/
def State.kbRow (s : State) (home : Option Nat) (sub : Nat) (t : FT) (n p base : Nat) : Nat → Nat → Nat → Except Stop Row
  | 0, _, _ => .ok ⟨[], 0, []⟩
  | f + 1, e0, cnt =>
    if cnt = 0 then .ok ⟨[], 0, []⟩
    else
      let k := min cnt (512 - e0 % 512)
      match s.kbChunkBytes home (some sub) base n p (e0 / 512) (upto (e0 % 512) k) with
      | .error e => .error e
      | .ok r =>
        let vs := chunkVals t r.1 p (e0 % 512) k
        match s.kbRow home sub t n p base f (e0 + k) (cnt - k) with
        | .error e => .error e
        | .ok rest => .ok ⟨vs.map (·.1) ++ rest.vals, orFlags (vs.map (·.2)) ||| rest.flags, r.2.map (·.2) ++ rest.locs⟩

/-- A fetched row in any float memory format. -/
def State.row (s : State) (home : Option Nat) (sub : Nat) (t : FT) (fmt planes base e0 cnt : Nat) : Except Stop Row :=
  let n := kbBits fmt
  if n = 0 then s.plainRow home sub t fmt base e0 cnt
  else s.kbRow home sub t n (planeCount n planes) base (cnt / 512 + 2) e0 cnt

/-- The first and last byte that a fetched row reads. -/
def rowSpan (fmt planes base e0 cnt : Nat) : Nat × Nat :=
  let n := kbBits fmt
  if n = 0 then
    let w := ((fmtFT fmt).getD .bf16).width / 8
    (base + e0 * w, base + e0 * w + cnt * w - 1)
  else (base + e0 / 512 * kbChunk n, base + (e0 + cnt - 1) / 512 * kbChunk n + 127 + 64 * planeCount n planes)

/-! ### Sums of products -/

/-- One in FP32. -/
def one32 : FV := .fin false 1 0
/-- An FP32 pattern's value. -/
def f32 (b : Nat) : FV := unpack .fp32 b

/-- Rounding of an exact sum of products by the special values of R112: NV for 0 × ∞, ∞ − ∞ or a signalling NaN, and AINF
for overflow (R299, R301, R462). An accumulator of −0 leaves every sum as it is. -/
def linearIn (t : FT) (sat : Bool) (ps : List (FV × FV)) : Nat × Flags :=
  if ps.any (fun p => p.1.isNan || p.2.isNan) then
    (t.nan, if ps.any (fun p => zeroTimesInf p.1 p.2) then fNV else orFlags (ps.map (fun p => p.1.nv ||| p.2.nv)))
  else accumulate t sat (t.zero true) ps

/-- As `linearIn`, in FP32. -/
def linear (ps : List (FV × FV)) : Nat × Flags := linearIn .fp32 false ps

/-- Far steps over products in order, one rounding each (R116). -/
def farSteps (acc : Nat) (ps : List (FV × FV)) : Nat × Flags :=
  ps.foldl (fun a p => let r := accumulate .fp32 false a.1 [p]; (r.1, a.2 ||| r.2)) (acc, 0)

/-- Products in chunks of `n`; the last may be shorter (R114). -/
def chunksOf (n : Nat) : Nat → List (FV × FV) → List (List (FV × FV))
  | 0, _ => []
  | f + 1, xs => if xs.isEmpty then [] else xs.take n :: chunksOf n f (xs.drop n)

/-- The chunk updates of R114 in ascending order on one FP32 accumulator. -/
def chunkSteps (acc : Nat) (ps : List (FV × FV)) : Nat × Flags :=
  (chunksOf 32 (ps.length / 32 + 1) ps).foldl
    (fun a p => let r := accumulate .fp32 false a.1 p; (r.1, a.2 ||| r.2)) (acc, 0)

/-! ### Streaming softmax -/

/-- −∞ in FP32. -/
def negInf : Nat := 0xFF800000

/-- The greatest of FP32 patterns none of which is a NaN; +0 lies above −0 (R112), so the order of the patterns does not matter (R302). -/
def maxOf (a : Nat) (xs : List Nat) : Nat :=
  xs.foldl (fun m x => if ltFV (f32 m) (f32 x) || (m == 0x80000000 && x == 0) then x else m) a

/-- Exp2K(RoundFP32(x − m)) and the NV of the difference (R299). -/
def expDiff (x m : Nat) : Nat × Flags :=
  let d := eSub .fp32 0 x m
  ((exp2K d.1).1, d.2 &&& fNV)

/-- RoundBF16 of an FP32 pattern, as the FP32 pattern of the same value. -/
def toBf16 (x : Nat) : Nat := (roundFV .bf16 0 (f32 x)).1 * 2 ^ 16

/-- What a row's scores do to its state (R299). -/
inductive SoftRow where
  | nan (flags : Flags)
  | still
  | update (m' alpha : Nat) (p : List Nat) (flags : Flags)
  deriving DecidableEq, Repr

/-- The new maximum, α and p of a row with running maximum m and scores s (R299, R306). -/
def softRow (m : Nat) (s : List Nat) : SoftRow :=
  let bad := s.any (fun x => (f32 x).isNan || x == 0x7F800000)
  if bad || (f32 m).isNan then .nan (if bad then fNV else 0)
  else
    let m' := maxOf m s
    if m' = negInf then .still
    else
      let a := expDiff m m'
      let p := s.map (fun x => expDiff x m')
      .update m' a.1 (p.map (fun x => toBf16 x.1)) (a.2 ||| orFlags (p.map (·.2)))

end Sys2Proof.Machine
end

