-- ==== Sys2Proof/Machine/VectorArith.lean ====
section
/-! DEFINITION. Near vector arithmetic and conversion (R232 to R236). -/

namespace Sys2Proof.Machine

/-- A two-source float instruction, element by element (R232). -/
def float2V (i : Instr) (p : R2) (f : FT → Nat → Nat → Nat → Nat × Flags) (s : State) : Host.Outcome State Fault Refusal :=
  runV i none (fun s => checked (s.vconds (p.d.toNat :: vecsOf [p.a, p.b]) s.isFloat) (fun s =>
    s.elementwise p.msk (vecsOf [p.a, p.b]) p.d (fun k => f s.ft 0 (s.vsrcF s.ft p.a p.lit k) (s.vsrcF s.ft p.b p.lit k))) s) s

/-- A one-source float instruction (R232, R233). -/
def float1V (i : Instr) (p : R2) (f : FT → Nat → Nat → Nat × Flags) (s : State) : Host.Outcome State Fault Refusal :=
  runV i none (fun s => checked (s.vconds (p.d.toNat :: vecsOf [p.a]) s.isFloat) (fun s =>
    s.elementwise p.msk (vecsOf [p.a]) p.d (fun k => f s.ft 0 (s.vsrcF s.ft p.a p.lit k))) s) s

/-- A three-source float instruction under RM (R232). -/
def float3V (i : Instr) (p : R3) (f : FT → Nat → Nat → Nat → Nat → Nat × Flags) (s : State) :
    Host.Outcome State Fault Refusal :=
  runV i none (fun s => checked (s.vconds (p.d.toNat :: vecsOf [p.a, p.b, p.c]) s.isFloat) (fun s =>
    s.elementwise p.msk (vecsOf [p.a, p.b, p.c]) p.d (fun k =>
      f s.ft p.rm.toNat (s.vsrcF s.ft p.a none k) (s.vsrcF s.ft p.b none k) (s.vsrcF s.ft p.c none k))) s) s

/-- A two-source integer instruction under SF (R236). -/
def int2V (i : Instr) (p : R2) (f : Nat → Nat → Nat → Nat → Nat) (s : State) : Host.Outcome State Fault Refusal :=
  runV i none (fun s => checked (s.vconds (p.d.toNat :: vecsOf [p.a, p.b]) s.isInt) (fun s =>
    s.elementwise p.msk (vecsOf [p.a, p.b]) p.d (fun k =>
      (f s.cur.cfg.sew p.sf.toNat (s.vsrc p.a p.lit k) (s.vsrc p.b p.lit k), 0))) s) s

/-- VADD (R232). -/
def execVadd (p : R2) (s : State) : Host.Outcome State Fault Refusal := float2V (.vadd p) p eAdd s

/-- VSUB (R232). -/
def execVsub (p : R2) (s : State) : Host.Outcome State Fault Refusal := float2V (.vsub p) p eSub s

/-- VMUL (R232). -/
def execVmul (p : R2) (s : State) : Host.Outcome State Fault Refusal := float2V (.vmul p) p eMul s

/-- VDIV (R232). -/
def execVdiv (p : R2) (s : State) : Host.Outcome State Fault Refusal := float2V (.vdiv p) p eDiv s

/-- VMIN (R232). -/
def execVmin (p : R2) (s : State) : Host.Outcome State Fault Refusal := float2V (.vmin p) p eMin s

/-- VMAX (R232). -/
def execVmax (p : R2) (s : State) : Host.Outcome State Fault Refusal := float2V (.vmax p) p eMax s

/-- VFMA (R232). -/
def execVfma (p : R3) (s : State) : Host.Outcome State Fault Refusal := float3V (.vfma p) p eFma s

/-- VFMS (R232). -/
def execVfms (p : R3) (s : State) : Host.Outcome State Fault Refusal := float3V (.vfms p) p eFms s

/-- VNFMA (R232). -/
def execVnfma (p : R3) (s : State) : Host.Outcome State Fault Refusal := float3V (.vnfma p) p eNfma s

/-- VSQRT (R232). -/
def execVsqrt (p : R2) (s : State) : Host.Outcome State Fault Refusal := float1V (.vsqrt p) p eSqrt s

/-- VRSQRT (R232). -/
def execVrsqrt (p : R2) (s : State) : Host.Outcome State Fault Refusal := float1V (.vrsqrt p) p eRsqrt s

/-- VEXP2 (R233). -/
def execVexp2 (p : R2) (s : State) : Host.Outcome State Fault Refusal := float1V (.vexp2 p) p eExp2 s

/-- VLOG2 (R233). -/
def execVlog2 (p : R2) (s : State) : Host.Outcome State Fault Refusal := float1V (.vlog2 p) p eLog2 s

/-- VABS (R232). -/
def execVabs (p : R2) (s : State) : Host.Outcome State Fault Refusal := float1V (.vabs p) p eAbs s

/-- VNEG (R232). -/
def execVneg (p : R2) (s : State) : Host.Outcome State Fault Refusal := float1V (.vneg p) p eNeg s

/-- VIADD (R236). -/
def execViadd (p : R2) (s : State) : Host.Outcome State Fault Refusal := int2V (.viadd p) p iAdd s

/-- VISUB (R236). -/
def execVisub (p : R2) (s : State) : Host.Outcome State Fault Refusal := int2V (.visub p) p iSub s

/-- VIMUL (R236). -/
def execVimul (p : R2) (s : State) : Host.Outcome State Fault Refusal := int2V (.vimul p) p iMul s

/-- VIMULH (R236). -/
def execVimulh (p : R2) (s : State) : Host.Outcome State Fault Refusal := int2V (.vimulh p) p iMulh s

/-- VAND (R236). -/
def execVand (p : R2) (s : State) : Host.Outcome State Fault Refusal := int2V (.vand p) p iAnd s

/-- VOR (R236). -/
def execVor (p : R2) (s : State) : Host.Outcome State Fault Refusal := int2V (.vor p) p iOr s

/-- VXOR (R236). -/
def execVxor (p : R2) (s : State) : Host.Outcome State Fault Refusal := int2V (.vxor p) p iXor s

/-- VSHL (R236). -/
def execVshl (p : R2) (s : State) : Host.Outcome State Fault Refusal := int2V (.vshl p) p iShl s

/-- VSHR (R236). -/
def execVshr (p : R2) (s : State) : Host.Outcome State Fault Refusal := int2V (.vshr p) p iShr s

/-- VSRA (R236). -/
def execVsra (p : R2) (s : State) : Host.Outcome State Fault Refusal := int2V (.vsra p) p iSra s

/-- VIMIN (R236). -/
def execVimin (p : R2) (s : State) : Host.Outcome State Fault Refusal := int2V (.vimin p) p iMin s

/-- VIMAX (R236). -/
def execVimax (p : R2) (s : State) : Host.Outcome State Fault Refusal := int2V (.vimax p) p iMax s

/-- VCLASS: the class word of each active element (R235). -/
def execVclass (p : R2) (s : State) : Host.Outcome State Fault Refusal :=
  runV (.vclass p) none (fun s => checked (s.vconds (p.d.toNat :: vecsOf [p.a]) s.isFloat) (fun s =>
    s.elementwise p.msk (vecsOf [p.a]) p.d (fun k => (classWord s.ft (s.vsrcF s.ft p.a none k), 0))) s) s

/-- The ratio of a width to SEW, at least 1. -/
def State.ratio (s : State) (et : Nat) : Nat := max 1 (sewOf et / s.cur.cfg.sew)

/-- Whether the element type is the narrower of F and T (R234). -/
def State.cvtTypeOk (s : State) (f t : Nat) : Bool :=
  let e := s.cur.cfg.etype.toNat
  if sewOf f < sewOf t then e == f else if sewOf t < sewOf f then e == t else e == f || e == t

/-- The conditions of a near VCVT (R423, R425), in the order of R416. -/
def vcvtConds (s : State) (p : R3) : List (Bool × Nat × Nat) :=
  let nr := s.cur.cfg.nreg
  let rf := if sewOf p.cvT < sewOf p.cvF then sewOf p.cvF / sewOf p.cvT else 1
  let rt := if sewOf p.cvF < sewOf p.cvT then sewOf p.cvT / sewOf p.cvF else 1
  let bad := fun r n => decide (r % n ≠ 0) || decide (nr < r + n)
  [(decide (nr ≤ p.d.toNat) || (vecsOf [p.a]).any (fun r => decide (nr ≤ r)), 0x03, 0x03),
   (bad p.d.toNat rt || (vecsOf [p.a]).any (fun r => bad r rf), 0x03, 0x04),
   (!s.cur.configured, 0x03, 0x05), (!s.cvtTypeOk p.cvF p.cvT, 0x03, 0x06)]

/-- Element `i` of VCVT's source, at the width of F: a register group when F is the wider type (R234). -/
def State.cvtSrc (s : State) (p : R3) (i : Nat) : Nat :=
  if p.a.tag = 0 then s.groupElem p.a.vidx (s.ratio p.cvF) i else (s.src p.a).toNat % 2 ^ sewOf p.cvF

/-- The 64-bit word that holds element `i` of a register group. -/
def State.groupWord (s : State) (r rho i : Nat) : SramWord :=
  let per := s.cur.vlmax / rho
  .vec s.cur.id (r + i / max 1 per) (s.cur.cfg.sew * rho * (i % max 1 per) / 64)

/-- Write elements of a register group, one after another. -/
def writeGroup (h : Hart) (r : Fin 64) (rho : Nat) : List (Nat × Nat) → Hart
  | [] => h
  | (i, v) :: rest => writeGroup (h.setGroupElem r rho i v) r rho rest

/-- Write a group destination; words covered whole lose their poison (R455). -/
def State.writeGroupV (s : State) (r : Fin 64) (rho : Nat) (els : List (Nat × Nat)) : State :=
  let per := max 1 (s.cur.vlmax / rho)
  let t := (upto 0 rho).foldl (fun t k => t.coverVec (r.val + k) (s.cur.cfg.sew * rho)
    (((els.map (·.1)).filter (fun i => i / per == k)).map (· % per))) s
  { t with cur := writeGroup s.cur r rho els }

/-- VCVT (R234). -/
def execVcvt (p : R3) (s : State) : Host.Outcome State Fault Refusal :=
  runV (.vcvt p) none (fun s => checked (vcvtConds s p) (fun s =>
    let f := fun i => cvtElem p.cvF p.cvT p.sf.toNat p.rm.toNat (s.cvtSrc p i)
    s.stepElems (s.pending p.msk)
      (fun i => (vecsOf [p.a]).map (fun r => s.groupWord r (s.ratio p.cvF) i) ++ s.maskWords p.msk i)
      (fun els => (s.raise (orFlags (els.map (fun i => (f i).2)))).writeGroupV (vd p.d) (s.ratio p.cvT)
        (els.map (fun i => (i, (f i).1))))) s) s

end Sys2Proof.Machine
end

