-- ==== Sys2Proof/Machine/Far.lean ====
section
/-! DEFINITION. Far forms and far-only instructions (R237, R265 to R273), and their requests to other modules. -/

namespace Sys2Proof.Machine

/-! ### Running a far form in its stack -/

/-- What running a far form in its stack gives: the state with its writes, flags, data for FGET, and where it stops. -/
structure FarOut where
  s : State
  flags : Flags
  data : List (Nat × Nat)
  stop : Option (Nat × Stop)

/-- A far form: its conditions, the address that a 0x04 condition reports, how its stack is chosen, what it does there, and
its own element count and near destination, if any. -/
structure FarOp where
  conds : State → List (Bool × Nat × Nat)
  va : State → Nat
  select : State → Except Stop Nat
  run : State → Nat → FarOut
  count : State → Option Nat
  near : Option (Fin 64)

/-- The stack's droop guard has stopped issue (R274). -/
def State.drooped (s : State) (home : Nat) : Bool :=
  (((s.mod? (home / 16)).bind (fun x => Tbl.find (home % 16) x.hbm)).map (·.droop)).getD false

/-- Flags and data of a finished far form reach the hart (R267, R463). -/
def State.farDone (s : State) (op : FarOp) (flags : Flags) (data : List (Nat × Nat)) : State :=
  match op.near with
  | some v => (s.raise flags).writeVec v data
  | none => s.raise flags

/-- The hart's queue entry with no request outstanding. -/
def State.noRequest (s : State) : State := { s with cur := { s.cur with active := s.cur.active.map (fun e => { e with remote := .idle }) } }

/-- A far form that has run in a stack of this module, or whose completion has come back (R438). -/
def State.farFinish (s : State) (op : FarOp) (flags : Flags) (data : List (Nat × Nat)) (stop : Option (Nat × Stop)) : Res :=
  let t := (s.farDone op flags data).noRequest
  match stop with
  | none => .ok t
  | some (k, e) => e.res true (t.stopAt k)

/-- A far form at the head of the vector queue: checked, then executed in its stack of this module, or sent to another
module (R28, R267). An entry is in the queue before its request leaves. -/
def farBody (op : FarOp) (s : State) : Res :=
  match (s.cur.active.map (·.remote)).getD .idle with
  | .sent => .stall s
  | .done r => s.farFinish op r.flags r.data (r.stop.map (fun x => (x.1, .trap x.2.cause x.2.tval)))
  | .idle => checkedAt (op.va s) (op.conds s) (fun s =>
    match op.select s with
    | .error e => e.res true s
    | .ok home =>
      if home / 16 = s.cur.mod then
        if s.drooped home then .stall s
        else let o := op.run s home; o.s.farFinish op o.flags o.data o.stop
      else match s.cur.active with
        | none => .stall s
        | some e => .stall { s with
            cur := { s.cur with active := some { e with remote := .sent } }
            fabric := s.fabric ++ [.farReq s.cur.id home] }) s

/-- Execute a far form. -/
def runFar (i : Instr) (op : FarOp) (s : State) : Host.Outcome State Fault Refusal := runV i (op.count s) (farBody op) s

/-! ### Stacks, groups, poison -/

/-- The stack that an address chooses; with none, sub-cause `sub` of 0x09 (R133, R434). -/
def State.stackAt (s : State) (va : Nat) (w : Want) (sub : Nat) : Except Stop Nat :=
  match s.translate va w with
  | .error e => .error e
  | .ok p => match p.spot.home with
    | some h => .ok h
    | none => .error (.trap (mkCause 0x09 sub) (BitVec.ofNat 64 va))

/-- The stack operand's stack (R183). -/
def State.stkStack (s : State) (p : R3) : Except Stop Nat := s.stackAt (s.src p.stk).toNat .load 3

/-- How an address that translates under a view fails R122 for a stack: 0x09.1 in another home range, 0x09.2 with no home stack (R434). -/
def State.homeFault (s : State) (v : View) (home va : Nat) (w : Want) : Option Nat :=
  match s.translateAs v (va % 2 ^ 64) w with
  | .error _ => none
  | .ok p => match p.spot.home with
    | some h => if h = home then none else some 1
    | none => some 2

/-- The stack of an operand from its lowest and highest bytes, as the issuing core checks them (R443). -/
def State.spanStack (s : State) (lo hi : Nat) (w : Want) : Except Stop Nat :=
  match s.stackAt (lo % 2 ^ 64) w 2 with
  | .error e => .error e
  | .ok h => match s.homeFault s.view h hi w with
    | some k => .error (.trap (mkCause 0x09 k) (BitVec.ofNat 64 lo))
    | none => .ok h

/-- The first sub-cause of 0x09 among addresses that are checked under a view (R443). -/
def State.homeFaultsAs (s : State) (v : View) (home : Nat) (w : Want) (vas : List Nat) : Option Nat :=
  let ks := vas.filterMap (fun va => s.homeFault v home va w)
  if ks.contains 1 then some 1 else ks.head?
/-- The same for the addresses that the executing stack's far TLB checks. -/
def State.homeFaults (s : State) (home : Nat) (w : Want) (vas : List Nat) : Option Nat := s.homeFaultsAs (s.farView home) home w vas

/-- The issuing core finds a misaligned element before a request for it leaves (R414). At the first element that is to perform no request leaves
at all; what concerns the whole operand (0x09) comes first (R416). With a higher element the request leaves for the elements below it,
which perform, and the instruction stops at that element (R390, R415). With no stack chosen an indexed form has no addresses. -/
def State.aligned (els : List Nat) (addr : Nat → Nat → Nat) (w : Nat) (indexed : Bool) (whole : Nat → Option Stop) (r : Except Stop Nat) :
    Except Stop Nat :=
  match els with
  | [] => r
  | i :: _ =>
    match r with
    | .ok h => if addr h i % w = 0 then r else .error ((whole h).getD (.trap (mkCause 0x04 0x02) (BitVec.ofNat 64 (addr h i))))
    | .error (.trap c v) =>
      if c.code = 0x09 || indexed || decide (addr 0 i % w = 0) then .error (.trap c v)
      else .error (.trap (mkCause 0x04 0x02) (BitVec.ofNat 64 (addr 0 i)))
    | .error e => if indexed || decide (addr 0 i % w = 0) then .error e else .error (.trap (mkCause 0x04 0x02) (BitVec.ofNat 64 (addr 0 i)))

/-- The word of a far group that holds element i of `w` bits (R454). -/
def State.farWord (s : State) (home r w i : Nat) : SramWord :=
  .far (bankKey home s.cur.mod s.cur.devSlot 0) (r + i / fe w) (w * (i % fe w) / 64)

/-- The words of far sources that hold element i. -/
def State.farWords (s : State) (home w : Nat) (xs : List S10) (i : Nat) : List SramWord :=
  (xs.filter S10.isVec).map (fun a => s.farWord home a.midx w i)

/-- Write elements of a far group; words covered whole lose their poison (R455). -/
def State.putFar (s : State) (home r w : Nat) (els : List (Nat × Nat)) : State :=
  let t := if s.poison.isEmpty then s else { s with poison := s.poison.filter (fun x => match x with
    | .far k m j => !(decide (k = bankKey home s.cur.mod s.cur.devSlot 0) && decide (r ≤ m) &&
        (upto ((m - r) * fe w + j * 64 / w) (64 / w)).all (els.map (·.1)).contains)
    | _ => true) }
  t.writeFar home r w els

/-- Poison in a far register (R456). -/
def farPoison : Stop := .trap (mkCause 0x0D 2) 0

/-- Of poison in a far register and another stop of the same element, the lower code is reported (R416). -/
def orPoison (bad : Bool) (e : Stop) : Stop :=
  match e with
  | .trap c _ => if bad && decide (0x0D < c.code.toNat) then farPoison else e
  | .hold _ _ => e

/-- Elements not yet performed, none masked (R265). -/
def State.farEls (s : State) : List Nat := upto s.cur.unf.estart (s.cur.cfg.vl.toNat - s.cur.unf.estart)

/-- An element-wise operation on far registers (R237). -/
def State.farMap (s : State) (home : Nat) (words : Nat → List SramWord) (d wd : Nat) (f : Nat → Nat × Flags) : FarOut :=
  let k := s.poisonedBy words s.farEls
  let els := s.farEls.filter (fun i => (k.map (fun j => decide (i < j))).getD true)
  ⟨s.putFar home d wd (els.map (fun i => (i, (f i).1))), orFlags (els.map (fun i => (f i).2)), [], k.map (fun j => (j, farPoison))⟩

/-- The conditions that far forms share (R416, R422, R426): far groups, configuration, element type, sr.vl. -/
def State.farConds (s : State) (groups : List (Nat × Nat)) (ty : Bool) : List (Bool × Nat × Nat) :=
  [(groups.any (fun g => !farGroupOk g.2 g.1 s.cur.cfg.vl.toNat), 0x03, 0x04), (!s.cur.configured, 0x03, 0x05),
   (!ty, 0x03, 0x06), (!s.farVlOk, 0x03, 0x07)]

/-- The far groups that sources name, at the element width. -/
def State.groupsOf (s : State) (d : BitVec 6) (xs : List S10) : List (Nat × Nat) :=
  (d.toNat % 16, s.cur.cfg.sew) :: (xs.filter S10.isVec).map (fun a => (a.midx, s.cur.cfg.sew))

/-- A far form of an element-wise instruction: sources, type, element function of the executing stack. -/
def farMapOp (p : R3) (xs : List S10) (ty : State → Bool) (f : State → Nat → Nat → Nat × Flags) : FarOp where
  conds := fun s => s.farConds (s.groupsOf p.d xs) (ty s)
  va := fun _ => 0
  select := fun s => s.stkStack p
  run := fun s h => s.farMap h (s.farWords h s.cur.cfg.sew xs) (p.d.toNat % 16) s.cur.cfg.sew (f s h)
  count := fun _ => none
  near := none

/-- Far form of a two-source float instruction (R237). -/
def farFloat2 (p : R3) (f : FT → Nat → Nat → Nat → Nat × Flags) : FarOp :=
  farMapOp p [p.a, p.b] State.isFloat (fun s h i => f s.ft p.rm.toNat (s.fsrcF s.ft h p.a i) (s.fsrcF s.ft h p.b i))
/-- Far form of a one-source float instruction (R237). -/
def farFloat1 (p : R3) (f : FT → Nat → Nat → Nat × Flags) : FarOp :=
  farMapOp p [p.a] State.isFloat (fun s h i => f s.ft p.rm.toNat (s.fsrcF s.ft h p.a i))
/-- Far form of a three-source float instruction (R237). -/
def farFloat3 (p : R3) (f : FT → Nat → Nat → Nat → Nat → Nat × Flags) : FarOp :=
  farMapOp p [p.a, p.b, p.c] State.isFloat (fun s h i =>
    f s.ft p.rm.toNat (s.fsrcF s.ft h p.a i) (s.fsrcF s.ft h p.b i) (s.fsrcF s.ft h p.c i))
/-- Far form of a two-source integer instruction (R237). -/
def farInt2 (p : R3) (f : Nat → Nat → Nat → Nat → Nat) : FarOp :=
  farMapOp p [p.a, p.b] State.isInt (fun s h i => (f s.cur.cfg.sew p.sf.toNat (s.fsrc h p.a i) (s.fsrc h p.b i), 0))

/-- F_VCVT (R234, R237): each group at the width of its own type. -/
def farCvt (p : R3) : FarOp where
  conds := fun s => s.farConds ((p.d.toNat % 16, sewOf p.cvT) :: (if p.a.isVec then [(p.a.midx, sewOf p.cvF)] else []))
    (s.cvtTypeOk p.cvF p.cvT)
  va := fun _ => 0
  select := fun s => s.stkStack p
  run := fun s h => s.farMap h (s.farWords h (sewOf p.cvF) [p.a]) (p.d.toNat % 16) (sewOf p.cvT) (fun i =>
    cvtElem p.cvF p.cvT p.sf.toNat p.rm.toNat
      (if p.a.tag = 0 then s.farElem h p.a.midx (sewOf p.cvF) i else (s.src p.a).toNat % 2 ^ sewOf p.cvF))
  count := fun _ => none
  near := none

/-- A far reduction (R243, R244, R237): element 0 of md, when sr.vl ≥ 1; poison stops it before any effect. -/
def farReduce (p : R3) (f : State → Nat → List Nat → Nat × Flags) : FarOp where
  conds := fun s =>
    let one := (p.d.toNat % 16, s.cur.cfg.sew) :: (if p.b.isVec then [(p.b.midx, s.cur.cfg.sew)] else [])
    (one.any (fun g => decide (16 ≤ g.1)), 0x03, 0x04) ::
      s.farConds (if p.a.isVec then [(p.a.midx, s.cur.cfg.sew)] else []) (redTypeOk s p.sf.toNat)
  va := fun _ => 0
  select := fun s => s.stkStack p
  run := fun s h =>
    let w := s.cur.cfg.sew
    let els := upto 0 s.cur.cfg.vl.toNat
    if s.cur.cfg.vl = 0 then ⟨s, 0, [], none⟩
    else match s.poisonedBy (fun i => s.farWords h w [p.a] i ++ s.farWords h w [p.b] 0) els with
      | some _ => ⟨s, 0, [], some (s.cur.unf.estart, farPoison)⟩
      | none =>
        let r := f s (s.fsrc h p.b 0) (els.map (fun i => s.fsrc h p.a i))
        ⟨s.draw.putFar h (p.d.toNat % 16) w [(0, r.1)], r.2, [], none⟩
  count := fun _ => none
  near := none

/-- The ordered reduction of a far VREDO (R243). -/
def farVredo (p : R3) : FarOp :=
  farReduce p (fun s b xs => redFold s.isFloat s.ft s.cur.cfg.sew (p.sf.toNat % 8) b xs)
/-- The far VRED: a float sum takes a tree that the engine chooses (R244, log 14). -/
def farVred (p : R3) : FarOp :=
  farReduce p (fun s b xs =>
    if s.isFloat && decide (p.sf.toNat % 8 = 0) then redTree s.ft s.free (xs.length + 1) (b :: xs)
    else redFold s.isFloat s.ft s.cur.cfg.sew (p.sf.toNat % 8) b xs)

/-- The far VBCAST (R248): element b of a's group, zero at or above sr.vl, or a broadcast value. -/
def farVbcast (p : R3) : FarOp where
  conds := fun s => s.farConds (s.groupsOf p.d [p.a, p.b]) true
  va := fun _ => 0
  select := fun s => s.stkStack p
  run := fun s h =>
    let k := fun i => if p.b.tag = 0 then s.farElem h p.b.midx s.cur.cfg.sew i else (s.src p.b).toNat
    s.farMap h (fun i => if p.a.tag = 0 then
        s.farWords h s.cur.cfg.sew [p.b] i ++ (if k i < s.cur.cfg.vl.toNat then s.farWords h s.cur.cfg.sew [p.a] (k i) else [])
      else []) (p.d.toNat % 16) s.cur.cfg.sew
      (fun i => (if p.a.tag = 0 then (if k i < s.cur.cfg.vl.toNat then s.farElem h p.a.midx s.cur.cfg.sew (k i) else 0)
        else (s.src p.a).toNat % 2 ^ s.cur.cfg.sew, 0))
  count := fun _ => none
  near := none

/-! ### FGET and FPUT -/

/-- The near register that IMM21[5:0] names (R273). -/
def nearReg (p : R3) : Fin 64 := ⟨p.imm.toNat % 64, Nat.mod_lt _ (by decide)⟩

/-- Conditions of FGET and FPUT (R273, R426). -/
def State.moveConds (s : State) (p : R3) (r : Nat) : List (Bool × Nat × Nat) :=
  (decide (s.cur.cfg.nreg ≤ (nearReg p).val), 0x03, 0x03) :: s.farConds [(r, s.cur.cfg.sew)] true

/-- FGET (R273): the group's bits return as data. -/
def farGet (p : R3) : FarOp where
  conds := fun s => s.moveConds p p.a.midx
  va := fun _ => 0
  select := fun s => s.stkStack p
  run := fun s h =>
    let k := s.poisonedBy (s.farWords h s.cur.cfg.sew [p.a]) s.farEls
    let els := s.farEls.filter (fun i => (k.map (fun j => decide (i < j))).getD true)
    ⟨s, 0, els.map (fun i => (i, s.farElem h p.a.midx s.cur.cfg.sew i)), k.map (fun j => (j, farPoison))⟩
  count := fun _ => none
  near := some (nearReg p)

/-- FPUT (R273): a near register's bits go out with the request. -/
def farPut (p : R3) : FarOp where
  conds := fun s => s.moveConds p (p.d.toNat % 16)
  va := fun _ => 0
  select := fun s => s.stkStack p
  run := fun s h =>
    let k := s.poisonedBy (s.vecWords [(nearReg p).val]) s.farEls
    let els := s.farEls.filter (fun i => (k.map (fun j => decide (i < j))).getD true)
    ⟨s.putFar h (p.d.toNat % 16) s.cur.cfg.sew (els.map (fun i => (i, s.cur.elem (nearReg p) i))), 0, [],
      k.map (fun j => (j, poisonStop 1))⟩
  count := fun _ => none
  near := none

/-! ### FEXPR -/

/-- Values that an operator takes from and leaves on the stack; none for an undefined operator (R269). -/
def exprArity (b : Nat) : Option (Nat × Nat) :=
  if 1 ≤ b ∧ b ≤ 4 then some (0, 1)
  else if b = 5 then some (1, 2)
  else if b = 6 then some (2, 2)
  else if b = 7 then some (1, 0)
  else if b = 0x13 then some (3, 1)
  else if (0x10 ≤ b ∧ b ≤ 0x12) ∨ b = 0x14 ∨ b = 0x15 then some (2, 1)
  else if b = 0x16 ∨ b = 0x17 ∨ b = 0x18 then some (1, 1)
  else if 0x40 ≤ b ∧ b ≤ 0x4F then some (0, 1)
  else none

/-- The operators of the program at slot n up to END, if it is valid (R270): every operator defined, at most 4 values, none
popped that is not there, one left, every slot read existing. `f` counts the bytes left. -/
def exprOps (k : Nat → Word) (n : Nat) : Nat → Nat → Nat → Option (List Nat)
  | 0, _, depth => if depth = 1 then some [] else none
  | f + 1, j, depth =>
    let slot := n + j / 8
    let b := bits (k slot).toNat (8 * (j % 8)) 8
    if 256 ≤ slot then none
    else if b = 0 then (if depth = 1 then some [] else none)
    else match exprArity b with
      | none => none
      | some (pops, pushes) =>
        if depth < pops ∨ 4 < depth - pops + pushes ∨ (0x40 ≤ b ∧ 256 ≤ n + 3 + (b - 0x40)) then none
        else (exprOps k n f (j + 1) (depth - pops + pushes)).map (fun r => b :: r)

/-- EXP2 of FEXPR: RoundX(Exp2K(Widen(x))) under RM (R269). -/
def eExp2Rm (t : FT) (rm a : Nat) : Nat × Flags := viaFp32 exp2K t rm a

/-- One operator on the value stack, its top first (R269). An arithmetic operator sets every flag that the near instruction of its operation
sets, OF, UF and NX among them, EXP2 under BF16 those of its rounding too (DESIGN CHOICE, log 82). -/
def exprStep (t : FT) (rm : Nat) (leaf : Nat → Nat) (b : Nat) (st : List Nat) : List Nat × Flags :=
  match st with
  | y :: x :: rest =>
    if b = 6 then (x :: y :: rest, 0)
    else if b = 0x10 then let r := eAdd t rm x y; (r.1 :: rest, r.2)
    else if b = 0x11 then let r := eSub t rm x y; (r.1 :: rest, r.2)
    else if b = 0x12 then let r := eMul t rm x y; (r.1 :: rest, r.2)
    else if b = 0x13 then (match rest with
      | w :: rest => let r := eFma t rm w x y; (r.1 :: rest, r.2)
      | [] => (st, 0))
    else if b = 0x14 then let r := eMin t rm x y; (r.1 :: rest, r.2)
    else if b = 0x15 then let r := eMax t rm x y; (r.1 :: rest, r.2)
    else exprOne t rm leaf b y (x :: rest)
  | [y] => exprOne t rm leaf b y []
  | [] => ([leaf b], 0)
where
  /-- Operators that look at the top only, and pushes. -/
  exprOne (t : FT) (rm : Nat) (leaf : Nat → Nat) (b y : Nat) (rest : List Nat) : List Nat × Flags :=
    if b = 5 then (y :: y :: rest, 0)
    else if b = 7 then (rest, 0)
    else if b = 0x16 then let r := eNeg t rm y; (r.1 :: rest, r.2)
    else if b = 0x17 then let r := eAbs t rm y; (r.1 :: rest, r.2)
    else if b = 0x18 then let r := eExp2Rm t rm y; (r.1 :: rest, r.2)
    else (leaf b :: y :: rest, 0)

/-- A valid program on an empty stack (R270). -/
def exprEval (t : FT) (rm : Nat) (leaf : Nat → Nat) (ops : List Nat) : Nat × Flags :=
  let r := ops.foldl (fun a b => let x := exprStep t rm leaf b a.1; (x.1, a.2 ||| x.2)) ([], 0)
  (r.1.headD 0, r.2)

/-- The program that FEXPR names (R269). -/
def State.exprProg (s : State) (p : R3) : Option (List Nat) := exprOps s.kread (p.imm.toNat % 256) 24 0 0

/-- FEXPR (R269, R270). -/
def farExpr (p : R3) : FarOp where
  conds := fun s => s.farConds (s.groupsOf p.d [p.a, p.b, p.c]) s.isFloat ++ [((s.exprProg p).isNone, 0x03, 0x0C)]
  va := fun _ => 0
  select := fun s => s.stkStack p
  run := fun s h =>
    let t := s.ft
    let w := s.cur.cfg.sew
    let ops := (s.exprProg p).getD []
    let d := p.d.toNat % 16
    let leaf := fun (i b : Nat) =>
      if b = 1 then s.fsrcF t h p.a i
      else if b = 2 then s.fsrcF t h p.b i
      else if b = 3 then s.fsrcF t h p.c i
      else if b = 4 then s.farElem h d w i
      else (s.kread (p.imm.toNat % 256 + 3 + (b - 0x40))).toNat % 2 ^ w
    let words := fun i => (if ops.contains 4 then [s.farWord h d w i] else []) ++
      s.farWords h w ((if ops.contains 1 then [p.a] else []) ++ (if ops.contains 2 then [p.b] else []) ++
        (if ops.contains 3 then [p.c] else [])) i
    s.farMap h words d w (fun i => exprEval t p.rm.toNat (leaf i) ops)
  count := fun _ => none
  near := none

/-! ### Far memory -/

/-- Index conditions of a far form: the index group at the width IW (R255, R423). -/
def State.farIndexOk (s : State) (p : M) : Bool := farGroupOk s.iw p.x.midx s.cur.cfg.vl.toNat
/-- Index i of a far index operand (R255). -/
def State.farIndex (s : State) (home : Nat) (p : M) (u : Bool) (i : Nat) : Int :=
  readInt s.iw u (s.farElem home p.x.midx s.iw i)
/-- A_i of a far indexed form (R254). -/
def State.farIndexAddr (s : State) (p : M) (home i : Nat) : Nat :=
  addrOf (BitVec.ofNat 64 (s.memBase p)) (s.farIndex home p (bit p.sf.toNat 2) i * (2 ^ (p.sf.toNat % 4) : Nat))
/-- A_i of a far VAMO (R254, R263). -/
def State.farAmoAddr (s : State) (p : M) (home i : Nat) : Nat :=
  if memIndexed p then addrOf (BitVec.ofNat 64 (s.memBase p)) (s.farIndex home p false i * (s.cur.cfg.sew / 8 : Nat)) else s.unitAddr p i

/-- Conditions of a far memory form (R416, R426): far groups, configuration, pairing, sr.vl, KB base and start. -/
def State.farMemConds (s : State) (p : M) (load indexed : Bool) : List (Bool × Nat × Nat) :=
  (!farGroupOk s.cur.cfg.sew (p.d.toNat % 16) s.cur.cfg.vl.toNat || (indexed && !s.farIndexOk p), 0x03, 0x04) ::
    s.farConds [] (pairOk load p.fmt.toNat s.cur.cfg.etype.toNat) ++ s.kbConds p

/-- The lowest and the highest byte of a unit-stride or KB operand (R133, R443). -/
def State.unitSpan (s : State) (p : M) (store : Bool) : Nat × Nat :=
  let a := s.memBase p
  let n := s.cur.cfg.vl.toNat
  if n = 0 then (a, a)
  else if p.kb then
    let e0 := (s.src p.x).toNat
    let b := kbBits p.fmt.toNat
    (a + e0 / 512 * kbChunk b, a + (e0 + n - 1) / 512 * kbChunk b +
      (if store then kbChunk b else 128 + 64 * planeCount b p.planes.toNat) - 1)
  else (a, a + n * s.memWidth p - 1)

/-- The lowest address of a strided operand (R133). -/
def State.strideLow (s : State) (p : M) : Nat :=
  if (s.src p.x).toInt < 0 then s.strideAddr p (s.cur.cfg.vl.toNat - 1) else s.memBase p

/-- An address in every 4 KiB page from lo to hi. -/
def pagesOf (lo hi : Nat) : List Nat := lo :: (upto (lo / 4096 + 1) (hi / 4096 - lo / 4096)).map (· * 4096)

/-- The least of some addresses. -/
def lowest (xs : List Nat) : Nat := xs.foldl min (xs.headD 0)

/-- Whether a translated address may be accessed by a far instruction (R127, R434). -/
def farAccess (p : Phys) (va : Nat) : Except Stop Phys :=
  if p.dclass then .error (.trap (mkCause 0x0A 3) (BitVec.ofNat 64 va)) else .ok p

/-- Translate an aligned element of a far form in its stack (R133, R257, R434). -/
def State.farPhys (s : State) (home va w : Nat) (k : Want) : Except Stop Phys :=
  if va % w ≠ 0 then .error (.trap (mkCause 0x04 0x02) (BitVec.ofNat 64 va))
  else match s.translateAs (s.farView home) va k with
    | .error e => .error e
    | .ok p => farAccess p va

/-- Translate every pending element before any performs (R438). -/
def State.farAll (s : State) (home : Nat) (addr : Nat → Nat) (w : Nat) (k : Want) : List Nat → Except Stop (List (Nat × Phys))
  | [] => .ok []
  | i :: rest => match s.farPhys home (addr i) w k with
    | .error e => .error e
    | .ok p => match s.farAll home addr w k rest with
      | .error e => .error e
      | .ok r => .ok ((i, p) :: r)

/-- A far form that stops with nothing performed (R438). -/
def FarOut.none (s : State) (e : Stop) : FarOut := ⟨s, 0, [], some (s.cur.unf.estart, e)⟩

/-- A far form that stops part way keeps the images of the publishable buffers in the byte ranges that its performed elements, those below
the stop, give (R163, R445). -/
def FarOut.keeping (o : FarOut) (spans : Nat → List (Nat × Nat)) : FarOut :=
  match o.stop with
  | some (k, _) => if (spans k).isEmpty then o else { o with s := o.s.keepSpans (spans k) }
  | Option.none => o

/-- How an operand with one address per element fails the home check: 0x09, with its lowest address (R443). -/
def State.farWhole (s : State) (home w : Nat) (k : Want) (addr : Nat → Nat) : Option Stop :=
  let vas := s.farEls.flatMap (fun i => [addr i, addr i + w - 1])
  (s.homeFaults home k vas).map (fun j => .trap (mkCause 0x09 j) (BitVec.ofNat 64 (lowest vas)))

/-- The elements below the first misaligned one, which the request is for, and where the instruction then stops (R390, R414, R415). -/
def State.farGood (s : State) (w : Nat) (addr : Nat → Nat) : List Nat × Option (Nat × Stop) :=
  match s.farEls.find? (fun i => decide (addr i % w ≠ 0)) with
  | none => (s.farEls, none)
  | some i => (s.farEls.filter (fun j => decide (j < i)), some (i, .trap (mkCause 0x04 0x02) (BitVec.ofNat 64 (addr i))))

/-- A far form with one address per element: the home check, every translation, then its elements in order (R438, R443). -/
def State.farElems (s : State) (home w : Nat) (k : Want) (addr : Nat → Nat) (perform : List (Nat × Phys) → FarOut) : FarOut :=
  match s.farWhole home w k addr with
  | some e => FarOut.none s e
  | none => match s.farAll home addr w k (s.farGood w addr).1 with
    | .error e => FarOut.none s e
    | .ok els =>
      let o := perform els
      ({ o with stop := o.stop.or (s.farGood w addr).2 } : FarOut).keeping (fun j =>
        (s.farEls.filter (fun i => decide (i < j))).map (fun i => (addr i, addr i + w - 1)))

/-- Elements of a far load up to the first that meets poison (R456). -/
def State.farLoads (s : State) (home : Nat) (p : M) (words : Nat → List SramWord) (els : List (Nat × Phys)) : FarOut :=
  let w := s.memWidth p
  let r := loadLoop (fun i => match els.find? (fun x => x.1 == i) with
    | none => .ok (0, 0, [])
    | some x =>
      if s.anyPoison (words i) then .error farPoison
      else match s.readPhys x.2 w true with
        | .error e => .error e
        | .ok b => .ok (widen p.fmt.toNat s.cur.cfg.etype.toNat (leNat b), 0, [x.2.req])) (els.map (·.1))
  let t := countFarReads s (r.1.flatMap (fun x => x.2.2.2))
  ⟨t.putFar home (p.d.toNat % 16) s.cur.cfg.sew (r.1.map (fun x => (x.1, x.2.1))), orFlags (r.1.map (fun x => x.2.2.1)), [], r.2⟩

/-- Puts at the far point, with a reader count (R141, R266). -/
def State.putAllFar (s : State) (readers : Nat) (ps : List Put) : State :=
  (if readers = 0 then ps else linePuts ps).foldl
    (fun t p => storeFar t p.phys.spot.loc p.bytes (p.phys.readersAt readers)) s

/-- A far store's elements up to the first that reads a poisoned far word (R456). -/
def State.farStores (s : State) (home : Nat) (p : M) (words : Nat → List SramWord) (els : List (Nat × Phys)) : FarOut :=
  let et := s.cur.cfg.etype.toNat
  let w := s.memWidth p
  let r := storeLoop (fun i => match els.find? (fun x => x.1 == i) with
    | none => .ok ([], 0)
    | some x =>
      if s.anyPoison (words i ++ [s.farWord home (p.d.toNat % 16) s.cur.cfg.sew i]) then .error farPoison
      else
        let v := narrow p.fmt.toNat et 0 (s.farElem home (p.d.toNat % 16) s.cur.cfg.sew i)
        .ok ([⟨0, x.2, leBytes w v.1⟩], v.2)) (els.map (·.1))
  ⟨s.putAllFar p.rdr.toNat r.1.1, r.1.2, [], r.2⟩

/-- A far KB operand whose pages are checked against its home range first (R443). -/
def State.farKb (s : State) (home : Nat) (p : M) (store : Bool) (body : FarOut) : FarOut :=
  let sp := s.unitSpan p store
  match s.homeFaults home (if store then .store else .load) (if s.cur.cfg.vl = 0 then [] else pagesOf sp.1 sp.2) with
  | some j => FarOut.none s (.trap (mkCause 0x09 j) (BitVec.ofNat 64 sp.1))
  | none => body

/-- The chunks of a far KB operand that hold its performed elements below one, as ranges (R163). -/
def State.farKbUsed (s : State) (p : M) (k : Nat) : List (Nat × Nat) :=
  let c := kbChunk (kbBits p.fmt.toNat)
  (((s.farEls.filter (· < k)).map (fun i => ((s.src p.x).toNat + i) / 512)).dedup).map (fun j => (s.memBase p + j * c, s.memBase p + j * c + c - 1))

/-- A KB load of a far form: every chunk translates before any element performs (R438). -/
def State.farKbLoad (s : State) (home : Nat) (p : M) : FarOut :=
  let els := s.farEls
  let n := kbBits p.fmt.toNat
  let get := s.kbGet (some home) (some 3) s.ft (s.memBase p) (s.src p.x).toNat n (planeCount n p.planes.toNat) els
  let bad := els.findSome? (fun i => match get i with
    | .error (.trap c v) => if c = mkCause 0x07 5 then none else some (Stop.trap c v)
    | .error e => some e
    | .ok _ => none)
  match bad with
  | some e => FarOut.none s e
  | none =>
    let r := loadLoop get els
    let t := countFarReads s (r.1.flatMap (fun x => x.2.2.2))
    (⟨t.putFar home (p.d.toNat % 16) s.cur.cfg.sew (r.1.map (fun x => (x.1, x.2.1))), orFlags (r.1.map (fun x => x.2.2.1)), [], r.2⟩ :
      FarOut).keeping (s.farKbUsed p)

/-- A KB store of a far form, chunk by chunk. -/
def State.farKbStore (s : State) (home : Nat) (p : M) : FarOut :=
  let e0 := (s.src p.x).toNat
  let d := p.d.toNat % 16
  let w := s.cur.cfg.sew
  let all := upto 0 s.cur.cfg.vl.toNat
  let firsts := (s.farEls.map (fun i => (e0 + i) / 512)).dedup.filterMap (fun c =>
    s.farEls.find? (fun i => (e0 + i) / 512 == c))
  let make := fun i => s.kbMake (some home) (some 3) s.ft (s.memBase p) e0 (kbBits p.fmt.toNat) all (s.farElem home d w) ((e0 + i) / 512)
  match firsts.findSome? (fun i => match make i with
    | .error e => some e
    | .ok _ => none) with
  | some e => FarOut.none s e
  | none =>
    let r := storeLoop (fun i =>
      if s.anyPoison ((all.filter (fun j => (e0 + j) / 512 == (e0 + i) / 512)).map (s.farWord home d w)) then .error farPoison
      else make i) firsts
    (⟨s.putAllFar p.rdr.toNat r.1.1, r.1.2, [], r.2⟩ : FarOut).keeping (s.farKbUsed p)

/-- The alignment of a form with one address per element; a KB operand's is a condition of the whole instruction (R256, R257). -/
def State.alignedAt (s : State) (p : M) (addr : Nat → Nat → Nat) (w : Nat) (k : Want) (indexed : Bool) (r : Except Stop Nat) : Except Stop Nat :=
  if p.kb then r else State.aligned s.farEls addr w indexed (fun h => s.farWhole h w k (addr h)) r

/-- F_VLD (R266). -/
def farVld (p : M) : FarOp where
  conds := fun s => s.farMemConds p true false
  va := fun s => s.memBase p
  select := fun s => s.alignedAt p (fun _ => s.unitAddr p) (s.memWidth p) .load false (s.spanStack (s.unitSpan p false).1 (s.unitSpan p false).2 .load)
  run := fun s h => if p.kb then s.farKb h p false (s.farKbLoad h p)
    else s.farElems h (s.memWidth p) .load (s.unitAddr p) (s.farLoads h p (fun _ => []))
  count := fun _ => none
  near := none

/-- F_VST (R266). -/
def farVst (p : M) : FarOp where
  conds := fun s => s.farMemConds p false false
  va := fun s => s.memBase p
  select := fun s => s.alignedAt p (fun _ => s.unitAddr p) (s.memWidth p) .store false (s.spanStack (s.unitSpan p true).1 (s.unitSpan p true).2 .store)
  run := fun s h => if p.kb then s.farKb h p true (s.farKbStore h p)
    else s.farElems h (s.memWidth p) .store (s.unitAddr p) (s.farStores h p (fun _ => []))
  count := fun _ => none
  near := none

/-- F_VLDS (R266). -/
def farVlds (p : M) : FarOp where
  conds := fun s => s.farMemConds p true false
  va := fun _ => 0
  select := fun s => s.alignedAt p (fun _ => s.strideAddr p) (s.memWidth p) .load false (s.stackAt (s.strideLow p) .load 2)
  run := fun s h => s.farElems h (s.memWidth p) .load (s.strideAddr p) (s.farLoads h p (fun _ => []))
  count := fun _ => none
  near := none

/-- F_VSTS (R266). -/
def farVsts (p : M) : FarOp where
  conds := fun s => s.farMemConds p false false
  va := fun _ => 0
  select := fun s => s.alignedAt p (fun _ => s.strideAddr p) (s.memWidth p) .store false (s.stackAt (s.strideLow p) .store 2)
  run := fun s h => s.farElems h (s.memWidth p) .store (s.strideAddr p) (s.farStores h p (fun _ => []))
  count := fun _ => none
  near := none

/-- The words that hold a far index (R456). -/
def State.farIndexWords (s : State) (home : Nat) (p : M) (i : Nat) : List SramWord := [s.farWord home p.x.midx s.iw i]

/-- F_VLDX (R266). -/
def farVldx (p : M) : FarOp where
  conds := fun s => s.farMemConds p true true
  va := fun _ => 0
  select := fun s => s.alignedAt p (s.farIndexAddr p) (s.memWidth p) .load true (s.stackAt (s.memBase p) .load 2)
  run := fun s h => s.farElems h (s.memWidth p) .load (s.farIndexAddr p h) (s.farLoads h p (s.farIndexWords h p))
  count := fun _ => none
  near := none

/-- F_VSTX (R266). -/
def farVstx (p : M) : FarOp where
  conds := fun s => s.farMemConds p false true
  va := fun _ => 0
  select := fun s => s.alignedAt p (s.farIndexAddr p) (s.memWidth p) .store true (s.stackAt (s.memBase p) .store 2)
  run := fun s h => s.farElems h (s.memWidth p) .store (s.farIndexAddr p h) (s.farStores h p (s.farIndexWords h p))
  count := fun _ => none
  near := none

/-- A far VAMO's elements in ascending order at the far point, each after the recall of its line (R151, R160, R263, R266);
poison stops it at its element. -/
def farAmoLoop (p : M) (home : Nat) (orig : State) : List (Nat × Phys) → State → FarOut
  | [], s => ⟨s, 0, [], none⟩
  | (i, q) :: rest, s =>
    let w := s.cur.cfg.sew
    let d := p.d.toNat % 16
    if s.anyPoison ((if memIndexed p then s.farIndexWords home p i else []) ++ [s.farWord home d w i]) then
      ⟨s, 0, [], some (i, farPoison)⟩
    else
      let s := recallLine s (q.spot.loc / 128)
      match s.readPhys q (w / 8) true with
      | .error e => ⟨s, 0, [], some (i, e)⟩
      | .ok b =>
        let old := leNat b
        let new := (amoNew (p.sf.toNat % 8) w (signed w old) (signed w (orig.farElem home d w i)) 0).getD 0
        let t := storeFar s q.spot.loc (leBytes (w / 8) (wrap w new)) 0
        farAmoLoop p home orig rest (if bit p.sf.toNat 3 then t else t.putFar home d w [(i, old)])

/-- F_VAMO (R263, R266). -/
def farVamo (p : M) : FarOp where
  conds := fun s =>
    let et := s.cur.cfg.etype.toNat
    (!farGroupOk s.cur.cfg.sew (p.d.toNat % 16) s.cur.cfg.vl.toNat || (memIndexed p && !s.farIndexOk p), 0x03, 0x04) ::
      s.farConds [] (decide (et = 6) || decide (et = 7))
  va := fun _ => 0
  select := fun s => s.alignedAt p (s.farAmoAddr p) (s.cur.cfg.sew / 8) .amo (memIndexed p)
    (if memIndexed p then s.stackAt (s.memBase p) .amo 2 else s.spanStack (s.unitSpan p false).1 (s.unitSpan p false).2 .amo)
  run := fun s h => s.farElems h (s.cur.cfg.sew / 8) .amo (s.farAmoAddr p h) (fun els => farAmoLoop p h s els s)
  count := fun _ => none
  near := none

/-! ### FDOT and FRED -/

/-- RDR names FDOT's query register (R271). -/
def dotLen (p : M) : Nat := 32 * (p.sf.toNat % 8 + 1)
/-- The base and first element of row r of an FDOT operand (R271). -/
def State.dotRow (s : State) (p : M) (r : Nat) : Nat × Nat :=
  if p.kb then (s.memBase p, r * dotLen p) else (addrOf (BitVec.ofNat 64 (s.memBase p)) (r * (s.src p.x).toInt), 0)

/-- The least and greatest bytes of an FDOT row. -/
def State.dotSpan (s : State) (p : M) (r : Nat) : Nat × Nat :=
  rowSpan p.fmt.toNat p.planes.toNat (s.dotRow p r).1 (s.dotRow p r).2 (dotLen p)

/-- The lowest address of an FDOT operand (R133). -/
def State.dotLow (s : State) (p : M) : Nat := if p.kb then s.memBase p else s.strideLow p

/-- FDOT row by row (R271): a row that stops leaves the rows below it written (R438). -/
def dotLoop (p : M) (home : Nat) (q : List FV) : List Nat → State → Flags → FarOut
  | [], s, f => ⟨s, f, [], none⟩
  | r :: rest, s, f =>
    let d := p.d.toNat % 16
    let bad := s.anyPoison ((if bit p.sf.toNat 3 then [s.farWord home d 32 r] else []) ++
      (upto 0 (dotLen p)).map (s.farWord home p.rdr.toNat 16))
    match s.row (some home) 3 .bf16 p.fmt.toNat p.planes.toNat (s.dotRow p r).1 (s.dotRow p r).2 (dotLen p) with
      | .error e => ⟨s, f, [], some (r, orPoison bad e)⟩
      | .ok row =>
        if bad then ⟨s, f, [], some (r, farPoison)⟩
        else
          let a := farSteps (if bit p.sf.toNat 3 then s.farElem home d 32 r else 0) (row.vals.zip q)
          dotLoop p home q rest ((countFarReads s row.locs).putFar home d 32 [(r, a.1)]) (f ||| row.flags ||| a.2)

/-- The conditions of a far-only memory form's KB base (R256, R426). -/
def State.kbBaseCond (s : State) (p : M) : List (Bool × Nat × Nat) := [(p.kb && decide (s.memBase p % 64 ≠ 0), 0x04, 0x03)]

/-- Width in bytes of an element of a float memory format. -/
def floatWidth (p : M) : Nat := ((fmtFT p.fmt.toNat).getD .bf16).width / 8

/-- How an FDOT operand fails the home check: 0x09, with its lowest address (R438, R443). -/
def State.dotWhole (s : State) (p : M) (home : Nat) : Option Stop :=
  (s.homeFaults home .load ((upto 0 s.cur.cfg.vl.toNat).flatMap (fun r => [(s.dotSpan p r).1, (s.dotSpan p r).2]))).map (fun j =>
    .trap (mkCause 0x09 j) (BitVec.ofNat 64 (s.dotLow p)))

/-- FDOT (R271). -/
def farDot (p : M) : FarOp where
  conds := fun s => (!farGroupOk 16 p.rdr.toNat (dotLen p), 0x03, 0x04) ::
    s.farConds [(p.d.toNat % 16, 32)] (s.cur.cfg.etype.toNat == 2) ++ s.kbBaseCond p
  va := fun s => s.memBase p
  select := fun s =>
    let r := s.stackAt (s.dotLow p) .load 2
    if p.kb then r else State.aligned s.farEls (fun _ j => (s.dotRow p j).1) (floatWidth p) false (s.dotWhole p) r
  run := fun s h =>
    match s.dotWhole p h with
    | some e => FarOut.none s e
    | none =>
      let q := (upto 0 (dotLen p)).map (fun k => unpack .bf16 (s.farElem h p.rdr.toNat 16 k))
      (dotLoop p h q s.farEls s 0).keeping (fun k => (s.farEls.filter (· < k)).map (s.dotSpan p))
  count := fun _ => none
  near := none

/-- FRED's element count (R272). -/
def State.redN (s : State) (p : M) : Nat := (s.src p.x).toNat

/-- One step of FRED (R272). -/
def redOne (op acc : Nat) (x : FV) (bitsX : Nat) : Nat × Flags :=
  match op with
  | 0 => accumulate .fp32 false acc [(x, one32)]
  | 1 => minMax .fp32 true acc bitsX
  | 2 => minMax .fp32 false acc bitsX
  | _ => accumulate .fp32 false acc [(x, x)]

/-- Bits of a value that came from an FP32 pattern without loss; a NaN keeps whether it is signalling (R105, R112). -/
def bits32 (x : FV) : Nat := match x with
  | .nan true => 0x7FA00000
  | .nan false => FT.fp32.nan
  | v => (roundFV .fp32 0 v).1

/-- Elements k .. k + xs.length − 1 into the 16 accumulators (R272). -/
def redInto (op : Nat) : List FV → Nat → List Nat → Flags → List Nat × Flags
  | [], _, acc, f => (acc, f)
  | x :: xs, k, acc, f =>
    let r := redOne op (acc.getD (k % 16) 0) x (bits32 x)
    redInto op xs (k + 1) (acc.set (k % 16) r.1) (f ||| r.2)

/-- Elements from k on whose first byte, or the first byte of whose KB tensor chunk, lies in the 2 MiB chunk where that of k lies (R123,
R438). -/
def State.redPiece (s : State) (p : M) (k left : Nat) : Nat :=
  if p.kb then
    let c := kbChunk (kbBits p.fmt.toNat)
    let a := s.memBase p + k / 512 * c
    min left (512 * (k / 512 + (2 ^ 21 - a % 2 ^ 21 + c - 1) / c) - k)
  else
    let w := floatWidth p
    min left ((2 ^ 21 - (s.memBase p + k * w) % 2 ^ 21 + w - 1) / w)

/-- The elements of a piece that FRED reads, and how it stops there: at the piece's first element when the piece does not translate, else at
the least element one of whose words is poisoned (R438, R456). -/
def State.redRead (s : State) (p : M) (home k n : Nat) : Row × Option (Nat × Stop) :=
  let row := fun (e c : Nat) => s.row (some home) 3 .fp32 p.fmt.toNat p.planes.toNat (s.memBase p) e c
  let sp := rowSpan p.fmt.toNat p.planes.toNat (s.memBase p) k n
  match s.transRangeD (s.farView home) (sp.1 % 2 ^ 64) (sp.2 + 1 - sp.1) .load 3 with
  | .error e => (⟨[], 0, []⟩, some (k, e))
  | .ok _ => match row k n with
    | .ok r => (r, none)
    | .error _ =>
      match (upto 0 n).findSome? (fun i => match row (k + i) 1 with
        | .error e => some (i, e)
        | .ok _ => none) with
      | some (i, e) => ((row k i).toOption.getD ⟨[], 0, []⟩, some (k + i, e))
      | none => (⟨[], 0, []⟩, none)

/-- FRED piece by piece from element k (R272, R438); `f` bounds the number of pieces. -/
def redLoop (p : M) (home n : Nat) : Nat → Nat → State → List Nat → Flags → FarOut
  | 0, _, s, _, f => ⟨s, f, [], none⟩
  | fuel + 1, k, s, acc, f =>
    let put := fun (s : State) (acc : List Nat) => s.putFar home (p.d.toNat % 16) 32 (acc.zipIdx.map (fun x => (x.2, x.1)))
    if n ≤ k then ⟨put s acc, f, [], none⟩
    else
      let r := s.redRead p home k (s.redPiece p k (n - k))
      let a := redInto (p.sf.toNat % 4) r.1.vals k acc 0
      let t := countFarReads s r.1.locs
      match r.2 with
      | some e => ⟨put t a.1, f ||| r.1.flags ||| a.2, [], some e⟩
      | none => redLoop p home n fuel (k + r.1.vals.length) t a.1 (f ||| r.1.flags ||| a.2)

/-- How a FRED operand fails the home check: 0x09 (R438, R443). -/
def State.redWhole (s : State) (p : M) (home : Nat) : Option Stop :=
  let sp := rowSpan p.fmt.toNat p.planes.toNat (s.memBase p) 0 (s.redN p)
  (s.homeFaults home .load (pagesOf sp.1 sp.2)).map (fun j => .trap (mkCause 0x09 j) (BitVec.ofNat 64 (s.memBase p)))

/-- FRED (R272). -/
def farRed (p : M) : FarOp where
  conds := fun s => [(!s.cur.configured, 0x03, 0x05), (!(s.cur.cfg.etype.toNat == 2), 0x03, 0x06),
    (decide (s.redN p = 0) || decide (2 ^ 24 < s.redN p), 0x03, 0x09)] ++ s.kbBaseCond p
  va := fun s => s.memBase p
  select := fun s =>
    let r := s.stackAt (s.memBase p) .load 2
    if p.kb then r else State.aligned [0] (fun _ _ => s.memBase p) (floatWidth p) false (s.redWhole p) r
  run := fun s h =>
    match s.redWhole p h with
    | some e => FarOut.none s e
    | none =>
      let d := p.d.toNat % 16
      let k := s.cur.unf.estart
      if s.anyPoison ((upto 0 16).map (s.farWord h d 32)) then
        FarOut.none s (match (s.redRead p h k (s.redPiece p k (s.redN p - k))).2 with
          | some (j, e) => if j = k then orPoison true e else farPoison
          | none => farPoison)
      else (redLoop p h (s.redN p) (s.redN p + 1) s.cur.unf.estart s ((upto 0 16).map (s.farElem h d 32)) 0).keeping (fun j =>
        if k < j then [rowSpan p.fmt.toNat p.planes.toNat (s.memBase p) k (j - k)] else [])
  count := fun s => some (s.redN p)
  near := none

/-! ### FATTN -/

/-- Head dimension of FATTN (R304). -/
def attnDim (p : M) : Nat := 32 * (p.sf.toNat % 4 + 1)
/-- Tokens that the page holds (R304). -/
def attnT (p : M) : Nat := p.rdr.toNat + 1
/-- The query's base far register: OFF[21:18] (R304). -/
def attnQ (p : M) : Nat := p.off.toNat / 2 ^ 18
/-- The page's base address: OFF[17:0] is a signed byte offset (R304). -/
def State.attnBase (s : State) (p : M) : Nat := addrOf (s.src p.base) (signed 18 (p.off.toNat % 2 ^ 18))
/-- The base and first element of row j of the page: keys 0 to 15, values 16 to 31 (R304). -/
def State.attnRow (s : State) (p : M) (j : Nat) : Nat × Nat :=
  if p.kb then (s.attnBase p, j * attnDim p) else (addrOf (BitVec.ofNat 64 (s.attnBase p)) (j * (s.src p.x).toInt), 0)
/-- Far registers of FATTN: query, state, SC (R304, R306). -/
def attnGroups (p : M) : List (Nat × Nat) :=
  let q := p.sf.toNat % 4 + 1
  [(attnQ p, q), (p.d.toNat % 16, 2 * q + 1 + (if bit p.sf.toNat 3 then 1 else 0))]
/-- The groups lie at or below m15 and do not overlap (R306, R423). -/
def attnGroupsOk (p : M) : Bool :=
  match attnGroups p with
  | [(a, n), (b, m)] => decide (a + n ≤ 16) && decide (b + m ≤ 16) && (decide (a + n ≤ b) || decide (b + m ≤ a))
  | _ => true

/-- The lowest address of the page's rows (R133). -/
def State.attnLow (s : State) (p : M) : Nat :=
  if p.kb then s.attnBase p else if (s.src p.x).toInt < 0 then (s.attnRow p 31).1 else s.attnBase p

/-- A row of the page: its elements in BF16. -/
def State.attnFetch (s : State) (home : Nat) (p : M) (j : Nat) : Except Stop Row :=
  s.row (some home) 3 .bf16 p.fmt.toNat p.planes.toNat (s.attnRow p j).1 (s.attnRow p j).2 (attnDim p)

/-- Several rows of the page, or the first that cannot be read (R438). -/
def State.attnRows (s : State) (home : Nat) (p : M) : List Nat → Except Stop (List Row)
  | [] => .ok []
  | j :: rest => match s.attnFetch home p j with
    | .error e => .error e
    | .ok r => match s.attnRows home p rest with
      | .error e => .error e
      | .ok rs => .ok (r :: rs)

/-- The state that FATTN's row leaves: m, l, O and SC's elements, with flags; `used` that it widened the value rows (R305). -/
structure AttnState where
  m : Nat
  l : Nat
  o : List Nat
  sc : List Nat
  flags : Flags
  used : Bool
  deriving DecidableEq, Repr

/-- FATTN's update from scores and value rows (R305): every addition rounds. -/
def attnUpdate (m l : Nat) (o : List Nat) (s : List Nat) (values : List (List FV)) : AttnState :=
  match softRow m s with
  | .nan f => ⟨FT.fp32.nan, FT.fp32.nan, o.map (fun _ => FT.fp32.nan), s.map (fun _ => FT.fp32.nan), f, false⟩
  | .still => ⟨m, l, o, s.map (fun _ => 0), 0, false⟩
  | .update m' a ps f =>
    let l0 := linear [(f32 l, f32 a)]
    let l1 := ps.foldl (fun x p => let r := linear [(f32 x.1, one32), (f32 p, one32)]; (r.1, x.2 ||| r.2)) l0
    let out := o.zipIdx.map (fun x =>
      let o0 := linear [(f32 x.1, f32 a)]
      let r := farSteps o0.1 ((ps.zip values).map (fun y => (f32 y.1, y.2.getD x.2 (.fin false 0 0))))
      (r.1, o0.2 ||| r.2))
    ⟨m', l1.1, out.map (·.1), ps, f ||| l1.2 ||| orFlags (out.map (·.2)), true⟩

/-- The issuing core finds a misaligned row of a page that holds tokens before the request leaves (R257, R414). Whatever stops a row before
it, and what concerns the whole page, comes first (R416). -/
def State.alignedAttn (s : State) (p : M) (r : Except Stop Nat) : Except Stop Nat :=
  let rows := upto 0 (attnT p) ++ upto 16 (attnT p)
  match if p.kb then none else rows.find? (fun j => decide ((s.attnRow p j).1 % floatWidth p ≠ 0)) with
  | none => r
  | some j =>
    let mine : Except Stop Nat := .error (.trap (mkCause 0x04 0x02) (BitVec.ofNat 64 (s.attnRow p j).1))
    match r with
    | .ok h => match s.attnRows h p (rows.takeWhile (· ≠ j)) with
      | .error e => .error e
      | .ok _ => mine
    | .error e => match e, decide (j = 0) with
      | .trap c v, true => if c.code = 0x09 then .error (.trap c v) else mine
      | _, _ => .error e

/-- FATTN (R304, R305). -/
def farAttn (p : M) : FarOp where
  conds := fun s => [(!attnGroupsOk p, 0x03, 0x04), (!s.cur.configured, 0x03, 0x05),
    (!(s.cur.cfg.etype.toNat == 2), 0x03, 0x06), (p.kb && decide (s.attnBase p % 64 ≠ 0), 0x04, 0x03)]
  va := fun s => s.attnBase p
  select := fun s => s.alignedAttn p (match s.stackAt (s.attnLow p) .load 2 with
    | .error e => .error e
    | .ok h =>
      let spans := (upto 0 32).flatMap (fun j =>
        let sp := rowSpan p.fmt.toNat p.planes.toNat (s.attnRow p j).1 (s.attnRow p j).2 (attnDim p); [sp.1, sp.2])
      match s.homeFaultsAs s.view h .load spans with
      | some k => .error (.trap (mkCause 0x09 k) (BitVec.ofNat 64 (s.attnLow p)))
      | none => .ok h)
  run := fun s h =>
    let d := p.d.toNat % 16
    let dim := attnDim p
    let t := attnT p
    let q := p.sf.toNat % 4 + 1
    let bad := s.anyPoison ((upto 0 dim).map (s.farWord h (attnQ p) 16) ++ (upto 0 dim).map (s.farWord h d 32) ++
      [s.farWord h (d + 2 * q) 32 0])
    match s.attnRows h p (upto 0 t ++ upto 16 t) with
      | .error e => FarOut.none s (orPoison bad e)
      | .ok rows =>
        if bad then FarOut.none s farPoison else
        let query := (upto 0 dim).map (fun k => unpack .bf16 (s.farElem h (attnQ p) 16 k))
        let scores := (rows.take t).map (fun r => farSteps 0 (r.vals.zip query))
        let u := attnUpdate (s.farElem h (d + 2 * q) 32 0) (s.farElem h (d + 2 * q) 32 1) ((upto 0 dim).map (s.farElem h d 32))
          (scores.map (·.1)) ((rows.drop t).map (·.vals))
        let s1 := countFarReads s (rows.flatMap (·.locs))
        let s2 := s1.putFar h d 32 (u.o.zipIdx.map (fun x => (x.2, x.1)))
        let s3 := s2.putFar h (d + 2 * q) 32 [(0, u.m), (1, u.l)]
        let s4 := if bit p.sf.toNat 3 then
          s3.putFar h (d + 2 * q + 1) 32 ((upto 0 16).map (fun i => (i, u.sc.getD i 0))) else s3
        ⟨s4, orFlags ((if u.used then rows else rows.take t).map (·.flags)) ||| orFlags (scores.map (·.2)) ||| u.flags, [], none⟩
  count := fun _ => none
  near := none

/-! ### The instructions -/

/-- The far form that an instruction is (R237, R266 to R273, R304). -/
def farOf : Instr → Option FarOp
  | .fVadd p => some (farFloat2 p eAdd)
  | .fVsub p => some (farFloat2 p eSub)
  | .fVmul p => some (farFloat2 p eMul)
  | .fVmin p => some (farFloat2 p eMin)
  | .fVmax p => some (farFloat2 p eMax)
  | .fVfma p => some (farFloat3 p eFma)
  | .fVfms p => some (farFloat3 p eFms)
  | .fVnfma p => some (farFloat3 p eNfma)
  | .fVabs p => some (farFloat1 p eAbs)
  | .fVneg p => some (farFloat1 p eNeg)
  | .fViadd p => some (farInt2 p iAdd)
  | .fVisub p => some (farInt2 p iSub)
  | .fVimul p => some (farInt2 p iMul)
  | .fVimulh p => some (farInt2 p iMulh)
  | .fVand p => some (farInt2 p iAnd)
  | .fVor p => some (farInt2 p iOr)
  | .fVxor p => some (farInt2 p iXor)
  | .fVshl p => some (farInt2 p iShl)
  | .fVshr p => some (farInt2 p iShr)
  | .fVsra p => some (farInt2 p iSra)
  | .fVimin p => some (farInt2 p iMin)
  | .fVimax p => some (farInt2 p iMax)
  | .fVcvt p => some (farCvt p)
  | .fVred p => some (farVred p)
  | .fVredo p => some (farVredo p)
  | .fVbcast p => some (farVbcast p)
  | .fVld p => some (farVld p)
  | .fVst p => some (farVst p)
  | .fVlds p => some (farVlds p)
  | .fVsts p => some (farVsts p)
  | .fVldx p => some (farVldx p)
  | .fVstx p => some (farVstx p)
  | .fVamo p => some (farVamo p)
  | .fexpr p => some (farExpr p)
  | .fdot p => some (farDot p)
  | .fred p => some (farRed p)
  | .fget p => some (farGet p)
  | .fput p => some (farPut p)
  | .fattn p => some (farAttn p)
  | _ => none

/-- F_VADD (R237). -/
def execFVadd (p : R3) (s : State) : Host.Outcome State Fault Refusal := runFar (.fVadd p) (farFloat2 p eAdd) s
/-- F_VSUB (R237). -/
def execFVsub (p : R3) (s : State) : Host.Outcome State Fault Refusal := runFar (.fVsub p) (farFloat2 p eSub) s
/-- F_VMUL (R237). -/
def execFVmul (p : R3) (s : State) : Host.Outcome State Fault Refusal := runFar (.fVmul p) (farFloat2 p eMul) s
/-- F_VMIN (R237). -/
def execFVmin (p : R3) (s : State) : Host.Outcome State Fault Refusal := runFar (.fVmin p) (farFloat2 p eMin) s
/-- F_VMAX (R237). -/
def execFVmax (p : R3) (s : State) : Host.Outcome State Fault Refusal := runFar (.fVmax p) (farFloat2 p eMax) s
/-- F_VFMA (R237). -/
def execFVfma (p : R3) (s : State) : Host.Outcome State Fault Refusal := runFar (.fVfma p) (farFloat3 p eFma) s
/-- F_VFMS (R237). -/
def execFVfms (p : R3) (s : State) : Host.Outcome State Fault Refusal := runFar (.fVfms p) (farFloat3 p eFms) s
/-- F_VNFMA (R237). -/
def execFVnfma (p : R3) (s : State) : Host.Outcome State Fault Refusal := runFar (.fVnfma p) (farFloat3 p eNfma) s
/-- F_VABS (R237). -/
def execFVabs (p : R3) (s : State) : Host.Outcome State Fault Refusal := runFar (.fVabs p) (farFloat1 p eAbs) s
/-- F_VNEG (R237). -/
def execFVneg (p : R3) (s : State) : Host.Outcome State Fault Refusal := runFar (.fVneg p) (farFloat1 p eNeg) s
/-- F_VIADD (R237). -/
def execFViadd (p : R3) (s : State) : Host.Outcome State Fault Refusal := runFar (.fViadd p) (farInt2 p iAdd) s
/-- F_VISUB (R237). -/
def execFVisub (p : R3) (s : State) : Host.Outcome State Fault Refusal := runFar (.fVisub p) (farInt2 p iSub) s
/-- F_VIMUL (R237). -/
def execFVimul (p : R3) (s : State) : Host.Outcome State Fault Refusal := runFar (.fVimul p) (farInt2 p iMul) s
/-- F_VIMULH (R237). -/
def execFVimulh (p : R3) (s : State) : Host.Outcome State Fault Refusal := runFar (.fVimulh p) (farInt2 p iMulh) s
/-- F_VAND (R237). -/
def execFVand (p : R3) (s : State) : Host.Outcome State Fault Refusal := runFar (.fVand p) (farInt2 p iAnd) s
/-- F_VOR (R237). -/
def execFVor (p : R3) (s : State) : Host.Outcome State Fault Refusal := runFar (.fVor p) (farInt2 p iOr) s
/-- F_VXOR (R237). -/
def execFVxor (p : R3) (s : State) : Host.Outcome State Fault Refusal := runFar (.fVxor p) (farInt2 p iXor) s
/-- F_VSHL (R237). -/
def execFVshl (p : R3) (s : State) : Host.Outcome State Fault Refusal := runFar (.fVshl p) (farInt2 p iShl) s
/-- F_VSHR (R237). -/
def execFVshr (p : R3) (s : State) : Host.Outcome State Fault Refusal := runFar (.fVshr p) (farInt2 p iShr) s
/-- F_VSRA (R237). -/
def execFVsra (p : R3) (s : State) : Host.Outcome State Fault Refusal := runFar (.fVsra p) (farInt2 p iSra) s
/-- F_VIMIN (R237). -/
def execFVimin (p : R3) (s : State) : Host.Outcome State Fault Refusal := runFar (.fVimin p) (farInt2 p iMin) s
/-- F_VIMAX (R237). -/
def execFVimax (p : R3) (s : State) : Host.Outcome State Fault Refusal := runFar (.fVimax p) (farInt2 p iMax) s
/-- F_VCVT (R234, R237). -/
def execFVcvt (p : R3) (s : State) : Host.Outcome State Fault Refusal := runFar (.fVcvt p) (farCvt p) s
/-- F_VRED (R244). -/
def execFVred (p : R3) (s : State) : Host.Outcome State Fault Refusal := runFar (.fVred p) (farVred p) s
/-- F_VREDO (R243). -/
def execFVredo (p : R3) (s : State) : Host.Outcome State Fault Refusal := runFar (.fVredo p) (farVredo p) s
/-- F_VBCAST (R248). -/
def execFVbcast (p : R3) (s : State) : Host.Outcome State Fault Refusal := runFar (.fVbcast p) (farVbcast p) s
/-- F_VLD (R266). -/
def execFVld (p : M) (s : State) : Host.Outcome State Fault Refusal := runFar (.fVld p) (farVld p) s
/-- F_VST (R266). -/
def execFVst (p : M) (s : State) : Host.Outcome State Fault Refusal := runFar (.fVst p) (farVst p) s
/-- F_VLDS (R266). -/
def execFVlds (p : M) (s : State) : Host.Outcome State Fault Refusal := runFar (.fVlds p) (farVlds p) s
/-- F_VSTS (R266). -/
def execFVsts (p : M) (s : State) : Host.Outcome State Fault Refusal := runFar (.fVsts p) (farVsts p) s
/-- F_VLDX (R266). -/
def execFVldx (p : M) (s : State) : Host.Outcome State Fault Refusal := runFar (.fVldx p) (farVldx p) s
/-- F_VSTX (R266). -/
def execFVstx (p : M) (s : State) : Host.Outcome State Fault Refusal := runFar (.fVstx p) (farVstx p) s
/-- F_VAMO (R266). -/
def execFVamo (p : M) (s : State) : Host.Outcome State Fault Refusal := runFar (.fVamo p) (farVamo p) s
/-- FEXPR (R270). -/
def execFexpr (p : R3) (s : State) : Host.Outcome State Fault Refusal := runFar (.fexpr p) (farExpr p) s
/-- FDOT (R271). -/
def execFdot (p : M) (s : State) : Host.Outcome State Fault Refusal := runFar (.fdot p) (farDot p) s
/-- FRED (R272). -/
def execFred (p : M) (s : State) : Host.Outcome State Fault Refusal := runFar (.fred p) (farRed p) s
/-- FGET (R273). -/
def execFget (p : R3) (s : State) : Host.Outcome State Fault Refusal := runFar (.fget p) (farGet p) s
/-- FPUT (R273). -/
def execFput (p : R3) (s : State) : Host.Outcome State Fault Refusal := runFar (.fput p) (farPut p) s
/-- FATTN (R305). -/
def execFattn (p : M) (s : State) : Host.Outcome State Fault Refusal := runFar (.fattn p) (farAttn p) s
/-- Far prefetch of one block: the memory-side cache of the operand's stack takes its line, where its address translates to a page of that
stack that is not in D memory (R127, R264). The fill is no reader's, so it counts no read request (DESIGN CHOICE, log 67). -/
def State.prefFar (home : Nat) (s : State) (va : Nat) : State :=
  match s.translateAs (s.farView home) va .load with
  | .ok q => if q.dclass || decide (q.spot.home ≠ some home) then s
    else fillFar s (q.spot.loc / 128)
  | .error _ => s

/-- F_VPREF: the lines of the active elements' bytes are filled into the memory-side cache of the operand's stack, which its base address
chooses; it never faults and writes no register (R133, R264). -/
def execFVpref (p : M) (s : State) : Host.Outcome State Fault Refusal :=
  runV (.fVpref p) none (fun s => .ok (match s.stackAt (if p.x.isVec || p.x.isZero || p.kb then s.memBase p else s.strideLow p) .load 2 with
    | .ok home => (s.prefBlocks p (s.farIndex home p false)).foldl (State.prefFar home) s
    | .error _ => s)) s

/-! ### Requests to other modules -/

/-- Whether a launch is resident or Saved on a module, so that its traffic is not stale there (R473). -/
def State.liveOn (s : State) (l m : Nat) : Bool :=
  match s.launch? l with
  | none => true
  | some x => !x.finished && x.shares.any (fun c => decide (x.pkt.ranks[c.1]? = some m) && !decide (c.2.state = .gone))

/-- Count other stale traffic that a module drops (R473). -/
def countStale (s : State) (m : Nat) (tile : Bool) : State :=
  s.onMod m (fun x =>
    if tile then { x with staleTiles := if x.staleTiles = BitVec.allOnes 32 then x.staleTiles else x.staleTiles + 1 }
    else { x with staleOther := if x.staleOther = BitVec.allOnes 32 then x.staleOther else x.staleOther + 1 })

/-- The modules from which and to which a request goes (R475). -/
def Msg.between (s : State) : Msg → Option (Nat × Nat)
  | .farReq h home => (s.rankModule h.launch h.rank).map (fun m => (m, home / 16))
  | .kvReq h dst => (s.rankModule h.launch h.rank).map (fun m => (m, dst))
  | .store h _ _ _ _ _ a _ => (s.rankModule h.launch h.rank).map (fun m => (m, a / 2 ^ 52))
  | .entryReq x => match x.hart.bind (fun h => s.rankModule h.launch h.rank), s.rankModule x.dest.launch x.dest.rank with
    | some m, some r => some (m, r)
    | _, _ => none
  | .barDom l dst h _ => (s.rankModule l h.rank).map (fun m => (m, dst))
  | .march l r => match s.launch? l, s.rankModule l r with
    | some x, some m => some (x.origin, m)
    | _, _ => none
  | .arrival l r | .query l r | .ended l r => match s.rankModule l r, s.rankModule l 0 with
    | some m, some z => some (m, z)
    | _, _ => none
  | .release l r => match s.rankModule l 0, s.rankModule l r with
    | some z, some m => some (z, m)
    | _, _ => none
  | .errRec l r => match s.rankModule l r.rank.toNat, s.launch? l with
    | some m, some x => some (m, x.origin)
    | _, _ => none
  | .act h _ _ => match s.launch? h.launch, s.rankModule h.launch h.rank with
    | some x, some m => some (x.origin, m)
    | _, _ => none
  | .disarm _ _ _ _ | .farDone _ _ | .ack _ _ | .grant _ | .refusal _ _ _ => none

/-- Take a message out of the fabric: the module that takes a request answers its sender (R475). -/
def State.dropMsg (s : State) (n : Nat) : State :=
  let t := { s with fabric := s.fabric.eraseIdx n }
  match (s.fabric[n]?).bind (Msg.between s) with
  | some (m, r) => t.heard m r
  | none => t

/-- The modules from and to which an access of a hart that a silent module holds goes (R475). -/
def Hart.silentWay (h : Hart) : Option (Nat × Nat) :=
  match h.heldFrom with
  | some ⟨_, .silent r, _, _⟩ => some (h.mod, r)
  | _ => none

/-- For every module that a module's requests are on their way to, the step since which none has been answered (R475). -/
def State.noteAsked (s : State) : State :=
  if s.fabric.isEmpty && s.mods.all (fun c => c.2.asked.isEmpty) && s.allHarts.all (fun h => h.silentWay.isNone) then s
  else
    let ways := s.fabric.filterMap (Msg.between s) ++ s.allHarts.filterMap Hart.silentWay
    { s with mods := s.mods.map (fun c =>
        (c.1, { c.2 with asked := ((ways.filter (fun w => decide (w.1 = c.1) && decide (w.2 ≠ c.1))).map (·.2)).dedup.foldl (fun t r =>
          Tbl.put r ((Tbl.find r c.2.asked).getD s.tick) t) [] })) }

/-- Do something as another hart, which keeps its own place afterwards. -/
def State.asHart (s : State) (h : HartId) (f : State → State) : State :=
  if s.cur.id = h ∧ s.cur.phase ≠ .absent then f s
  else
    let back := s.cur
    let t := f (s.focus h)
    if back.phase = .absent then t else t.focus back.id

/-- The operand address that a stale far request reports (R472). -/
def farOperand (s : State) : Instr → Word
  | .fVld p | .fVst p | .fVlds p | .fVsts p | .fVldx p | .fVstx p | .fVamo p | .fdot p | .fred p =>
    BitVec.ofNat 64 (s.memBase p)
  | .fattn p => BitVec.ofNat 64 (s.attnBase p)
  | .fVadd p | .fVsub p | .fVmul p | .fVfma p | .fVfms p | .fVnfma p | .fVmin p | .fVmax p | .fVabs p | .fVneg p
  | .fVcvt p | .fViadd p | .fVisub p | .fVimul p | .fVimulh p | .fVand p | .fVor p | .fVxor p | .fVshl p | .fVshr p
  | .fVsra p | .fVimin p | .fVimax p | .fVred p | .fVredo p | .fVbcast p | .fexpr p | .fget p | .fput p => s.src p.stk
  | _ => 0

/-- What a stop of a remote request sends back; one that something holds stays at its module. -/
def stopTrap : Nat × Stop → Option (Nat × Trap)
  | (k, .trap c v) => some (k, ⟨c, v, true⟩)
  | (_, .hold _ _) => none

/-- A remote request that a migration or a silent module holds stays at its module (R442, R475). -/
def State.holdStop (s : State) : Stop → State
  | .hold w va => { s with cur := s.cur.hold w va true s.tick }
  | .trap _ _ => s

/-- A far request executes in its stack (R267): its writes perform, its completion starts back, and the hart has made progress (R468). The
root PPN of the request and the entries of its walk are read as the issuing module's physical map resolves them (DESIGN CHOICE,
log 62). -/
def State.farArrive (s : State) (n : Nat) (home : Nat) : State :=
  match s.cur.vq.head? with
  | none => s.dropMsg n
  | some e => match farOf e.instr with
    | none => s.dropMsg n
    | some op =>
      let o := op.run { s.dropMsg n with cur := { s.cur with active := some e } } home
      let back := fun (r : FarRes) =>
        let t := { o.s with cur := { o.s.cur.quiet s.tick with active := none } }
        { t with fabric := t.fabric ++ [.farDone t.cur.id r] }
      match o.stop with
      | none => back ⟨o.flags, o.data, none⟩
      | some x => match stopTrap x with
        | some y => back ⟨o.flags, o.data, some y⟩
        | none => s.holdStop x.2

/-- A save lets the current hart's request to a stack, or for scores, reach a recorded point (R408, R467): one that has executed delivers its
completion, one that has not is withdrawn and sent again when its instruction replays. -/
def State.settleRequest (s : State) : State :=
  match s.cur.vq with
  | [] => s
  | e :: rest =>
    if e.remote ≠ .sent then s
    else
      let mine := fun (x : Msg) => match x with
        | .farReq h _ | .kvReq h _ | .farDone h _ => decide (h = s.cur.id)
        | _ => false
      let came := s.fabric.findSome? (fun x => match x with
        | .farDone h r => if h = s.cur.id then some r else none
        | _ => none)
      if s.fabric.any mine then
        { s with
          fabric := s.fabric.filter (fun x => !mine x)
          cur := { s.cur with vq := { e with remote := (came.map Remote.done).getD .idle } :: rest } }
      else s

/-- FAR_REQUEST_ARRIVAL: message n of the fabric reaches its stack (R267); stale traffic is refused (R473). -/
def execFarRequestArrival (n : Nat) (s : State) : Host.Outcome State Fault Refusal :=
  match s.fabric[n]? with
  | some (.farReq h home) =>
    if !s.modRuns (home / 16) then .next s
    else if !s.liveOn h.launch (home / 16) then
      let t := countStale (s.dropMsg n) (home / 16) false
      let va := (s.hart? h).bind (fun x => x.vq.head?.map (fun e => farOperand { s with cur := { x with active := some e } } e.instr))
      .next { t with fabric := t.fabric ++ [.refusal h 2 (va.getD 0)] }
    else match s.hart? h with
      | none => .next (s.dropMsg n)
      | some x =>
        if decide (x.phase = .ended) then .next (s.dropMsg n)
        else if s.drooped home then .next s
        else .next (s.asHart h (fun t => t.farArrive n home))
  | _ => .next s

/-- FAR_COMPLETION: message n returns to the issuing core (R267). -/
def execFarCompletion (n : Nat) (s : State) : Host.Outcome State Fault Refusal :=
  match s.fabric[n]? with
  | some (.farDone h r) =>
    .next ((s.dropMsg n).onHart h (fun x => { x.quiet s.tick with
      heldFrom := none
      vq := match x.vq with
        | e :: rest => (if e.remote = .sent then { e with remote := .done r } else e) :: rest
        | [] => [] }))
  | _ => .next s

end Sys2Proof.Machine
end

