-- ==== Sys2Proof/Machine/Fetch.lean ====
section
/-! DEFINITION. Fetching a head and its tail, and placing a program from outside. -/

namespace Sys2Proof.Machine

/-- What reaching the current program counter gives: a decoded instruction with its head and next head, or what stops it. -/
inductive Fetched where
  | run (i : Instr) (head : Half) (next : Word)
  | stop (r : Res)

/-- A faulting head whose halfword is in its line (R394). -/
def State.atHead (s : State) (h : Half) : State := { s with cur := { s.cur with head := h } }
/-- A faulting head address at which no head was read: sr.tinfo.HEAD is a free value (R394, log 3). -/
def State.noHead (s : State) : State := (s.atHead ((Config.unstated s.free).setWidth 16)).draw

/-- The walk of a fetch has ended in a line: what stops the fetch is the line itself (R456). -/
def State.fetchWalked (s : State) (line : Nat) : Bool :=
  match s.translate line .fetch with
  | .ok _ => true
  | .error _ => false

/-- Fetch and decode at the program counter (R136, R168 to R173, R418 to R420): the line must translate with permission X,
be well formed, and have a head at the slot; sr.tval holds the line address for cause 0x02, the head address for 0x08. A hart that ERET left at address 0 ends once its queue has drained (R398). A poisoned sr.atp, or a state register that the
instruction reads without naming it, stops it with 0x0D.3 (R456). -/
def fetch (s : State) : Fetched :=
  let pc := s.cur.pc.toNat
  let line := pc / 64 * 64
  if s.cur.pc = 0 ∧ s.cur.npc = 0 then .stop (jumpTo s 0)
  else if s.poisonedSr 0x00C then .stop (precise 0x0D 3 0 s.noHead)
  else match s.fetchLine line with
  | .error (.trap c v) =>
    if c = mkCause 0x07 5 ∧ s.fetchWalked line = true then .stop (precise 0x0D 5 0 s.noHead)
    else .stop (.trap ⟨c, if c.code = 0x08 then s.cur.pc else v, false⟩ s.noHead)
  | .error (.hold w va) => .stop (.held w va s)
  | .ok h =>
    match lineHeads h with
    | .error c => .stop (.trap ⟨c, BitVec.ofNat 64 line, false⟩ s.noHead)
    | .ok n =>
      let slot := pc % 64 / 2
      let head := h.getD slot 0
      if pc % 2 = 1 ∨ slot = 0 ∨ n < slot then .stop (precise 0x02 0x09 (BitVec.ofNat 64 line) s.noHead)
      else match decode head (lineTail h slot) with
        | .error c => .stop (.trap ⟨c, if c.code = 0x02 then BitVec.ofNat 64 line else 0, false⟩ (s.atHead head))
        | .ok i => if s.poisonedG i || s.poisonedFor i then .stop (precise 0x0D 3 0 (s.atHead head)) else .run i head (nextHead s.cur.pc n)

/-- The step at which the first hart of a share issues its first instruction (R363). -/
def State.markFirst (s : State) : State :=
  match s.share? s.cur.id.launch s.cur.id.rank with
  | none => s
  | some sh => if sh.first.isSome then s
    else s.onShare s.cur.id.launch s.cur.id.rank (fun y => { y with first := some s.tick })

/-- A line placed from outside at virtual and physical address 0x2000 of the current hart's module, under a root table at
0x1000 whose entry 0 is one 256 TiB leaf with every permission; the hart is Running at its slot 1 (log 10). -/
def placeLine (s : State) (line : List Byte) : State :=
  let m := s.cur.mod
  let s1 := storeFar s (loc m 0x1000) (leBytes 8 0xDF) 0
  let s2 := storeFar s1 (loc m 0x2000) line 0
  { s2 with
    agenda := []
    tlb := []
    ibuf := []
    cur := { s2.cur with phase := .running, atp := 0xA000000000000001, pc := 0x2002, vq := [], moved := 0, active := none } }

end Sys2Proof.Machine
end

