-- ==== Sys2Proof/Machine/System.lean ====
section
/-! DEFINITION. Traps, state registers, waiting, ordering, opaque frames and the freeze (R212 to R220, R398 to R401). -/

namespace Sys2Proof.Machine

/-- NOP has no effect (R221). -/
def execNop (_p : Head) (s : State) : Host.Outcome State Fault Refusal := retire (.ok s)

/-- TRAP: a precise software trap that records a (R215, R395). -/
def execTrap (p : R1) (s : State) : Host.Outcome State Fault Refusal :=
  retire (.trap ⟨mkCause 0x01 0, s.src p.a, false⟩ s)

/-- An instruction that is legal in handler mode only: 0x03.0B outside it (R396, R424). -/
def handlerOnly (s : State) (body : Res) : Res := if s.cur.trap.hm then body else precise 0x03 0x0B 0 s

/-- The hart after ERET's steps 1 to 4 (R398): handler mode and IMP end, a frozen vector queue resumes, the notice counts again. -/
def Hart.leaveHandler (h : Hart) (tick : Nat) : Hart :=
  { h with
    npc := h.trap.tepc
    notice := { h.notice with since := tick }
    quietFrom := tick
    trap := { h.trap with hm := false, imp := false, fpend := false } }

/-- ERET: to sr.tepc, which is 0 or a head; with 0 the hart ends once its queue has drained (R398, R420). A poisoned sr.tepc traps
(R456). -/
def execEret (_p : Head) (s : State) : Host.Outcome State Fault Refusal :=
  retire (handlerOnly s (
    let t := { s with cur := s.cur.leaveHandler s.tick }
    if s.poisonedSr 0x012 then precise 0x0D 3 0 s
    else if s.cur.trap.tepc = 0 then
      if s.cur.vq.isEmpty then
        match jumpTo t 0 with
        | .ok u => .ok u
        | .trap e _ => .trap e s
        | r => r
      else .ok t
    else if s.isHead s.cur.trap.tepc.toNat then .ok t
    else precise 0x02 0x09 0 s))

/-! ### State registers -/

/-- sr.rowprog as a word (R82). -/
def Unfinished.rowprog (u : Unfinished) : Nat :=
  (if u.valid then 2 ^ 63 else 0) + u.acc.toNat * 2 ^ 48 + u.rows.toNat * 2 ^ 40 + u.kdone.toNat

/-- sr.meshpos (R85). -/
def State.meshpos (s : State) : Nat :=
  let (w, h) := match s.launch? s.cur.id.launch with
    | some l => (l.pkt.wid, l.pkt.hgt)
    | none => (0, 0)
  s.cur.id.rank * 2 ^ 24 + s.cur.seat.stage * 2 ^ 20 + s.cur.id.hidx * 2 ^ 16 + h * 2 ^ 12 + w * 2 ^ 8 +
    s.cur.id.y * 2 ^ 4 + s.cur.id.x

/-- sr.vtype (R80). -/
def VCfg.word (c : VCfg) : Nat :=
  (if c.ill then 2 ^ 63 else 0) + (if c.fresh then 2 ^ 62 else 0) + c.nregc.toNat * 2 ^ 10 + c.etype.toNat * 2 ^ 4

/-- sr.bcell (R83). -/
def Stream.cellWord (b : Stream) : Nat := (if b.bound then 2 ^ 6 else 0) + b.cell.toNat

/-- sr.tstat (R394). -/
def TrapRegs.stat (t : TrapRegs) : Nat :=
  (if t.hm then 2 ^ 7 else 0) + (if t.imp then 2 ^ 6 else 0) + (if t.fpend then 2 ^ 5 else 0) + (if t.pin then 2 ^ 4 else 0) +
    t.grnt.toNat

/-- The value of a state register; none for a number that is not assigned (R77 to R88, R393, R394). -/
def State.readSr (s : State) (n : Nat) : Option Word :=
  let h := s.cur
  match n with
  | 0x000 => some (BitVec.ofNat 64 h.cfg.vl.toNat)
  | 0x001 => some (BitVec.ofNat 64 h.cfg.word)
  | 0x002 => some (BitVec.ofNat 64 h.vlmax)
  | 0x003 => some (BitVec.ofNat 64 h.grant)
  | 0x004 => some (BitVec.ofNat 64 (h.unf.estart % 2 ^ 18))
  | 0x005 => some (BitVec.ofNat 64 h.unf.rowprog)
  | 0x006 => some (BitVec.ofNat 64 h.stream.bpos.toNat)
  | 0x007 => some (BitVec.ofNat 64 h.stream.cellWord)
  | 0x008 => some (BitVec.ofNat 64 ((if h.notice.pend then 2 ^ 63 else 0) + s.leftOf h))
  | 0x009 => some (BitVec.ofNat 64 s.meshpos)
  | 0x00A => some (BitVec.ofNat 64 h.acnt)
  | 0x00B => some (BitVec.ofNat 64 h.aflags.toNat)
  | 0x00C => some h.atp
  | 0x00D => some (BitVec.ofNat 64 (s.cycle h.mod))
  | 0x010 => some h.trap.tvec
  | 0x011 => some (BitVec.ofNat 64 h.trap.stat)
  | 0x012 => some h.trap.tepc
  | 0x013 => some (BitVec.ofNat 64 (h.trap.cause.sub.toNat * 256 + h.trap.cause.code.toNat))
  | 0x014 => some h.trap.tval
  | 0x015 => some h.trap.info
  | 0x016 => some h.trap.tvpc
  | 0x017 => some h.trap.scr0
  | 0x018 => some h.trap.scr1
  | 0x019 | 0x01A | 0x01B | 0x01C | 0x01D | 0x01E | 0x01F => some 0
  | _ => none

/-- SRR: reads a state register; a number that is not assigned raises 0x03.0A (R78, R214). -/
def execSrr (p : L) (s : State) : Host.Outcome State Fault Refusal :=
  let n := p.imm.toNat % 4096
  retire (match s.readSr n with
    | none => precise 0x03 0x0A 0 s
    | some v => if s.poisonedSr n then precise 0x0D 3 0 s else s.setD p.d v)

/-- A write of sr.aclaim (R76, R86): claims fresh tiles up to the core's free ones, or releases the highest names. -/
def State.claim (s : State) (v : Word) : State :=
  let req := min 8 (v.toNat % 16)
  let held := s.cur.acnt
  let free := 8 - s.tilesHeld s.cur.mod s.cur.seat.core
  let accs := if held ≤ req then s.cur.accs ++ List.replicate (min req (held + free) - held) Acc.fresh else s.cur.accs.take req
  { s with
    cur := { s.cur with accs := accs }
    poison := s.poison.filter (fun w => match w with
      | .acc h k _ => !(decide (h = s.cur.id) && decide (min req held ≤ k))
      | _ => true) }

/-- A copy node of the current hart that has not finished (R128). -/
def State.nodesPending (s : State) : Bool :=
  match s.mod? s.cur.mod with
  | some x => x.nodes.any (fun n => decide (n.2.owner = s.cur.id) && !decide (n.2.state = .free) &&
      (match n.2.kind with
        | .copy _ => true
        | .call _ _ => false))
  | none => false

/-- A write of a trap register or another handler-only register in handler mode (R77, R394). -/
def Hart.writeTrap (h : Hart) (n : Nat) (v : Word) : Hart :=
  let t := h.trap
  match n with
  | 0x004 => if h.vq.isEmpty then h else { h with unf := { h.unf with estart := v.toNat % 2 ^ 18 } }
  | 0x005 => if h.vq.isEmpty then h else
    { h with unf := { h.unf with
        valid := bit v.toNat 63
        acc := BitVec.ofNat 3 (v.toNat / 2 ^ 48)
        rows := BitVec.ofNat 7 (v.toNat / 2 ^ 40)
        kdone := BitVec.ofNat 32 v.toNat } }
  | 0x010 => { h with trap := { t with tvec := BitVec.ofNat 64 (v.toNat / 2 * 2) } }
  | 0x012 => { h with trap := { t with tepc := v } }
  | 0x013 => { h with trap := { t with cause := ⟨BitVec.ofNat 8 v.toNat, BitVec.ofNat 8 (v.toNat / 256)⟩ } }
  | 0x014 => { h with trap := { t with tval := v } }
  | 0x015 => { h with trap := { t with elem := BitVec.ofNat 18 (v.toNat / 2 ^ 32), head := BitVec.ofNat 16 v.toNat } }
  | 0x016 => { h with trap := { t with tvpc := v } }
  | 0x017 => { h with trap := { t with scr0 := v } }
  | 0x018 => { h with trap := { t with scr1 := v } }
  | _ => h

/-- Handler-only registers whose write has an effect (R77, R394): sr.estart and sr.rowprog while an instruction is unfinished (log 44). -/
def Hart.writable (h : Hart) (n : Nat) : Bool :=
  if n = 0x004 ∨ n = 0x005 then !h.vq.isEmpty else decide (n = 0x010) || (decide (0x012 ≤ n) && decide (n ≤ 0x018))

/-- SRW: by the register's access code (R6, R77, R214): a write that is not honoured has no effect. A write of sr.aclaim or sr.atp follows
every older instruction of the vector queue, and one of sr.atp every store and copy node of the hart (R76, R128); under a queue that the
handler holds frozen sr.aclaim is written at once, so that the handler can correct what the queue's head lacks (R415). -/
def execSrw (p : L) (s : State) : Host.Outcome State Fault Refusal :=
  let n := p.imm.toNat % 4096
  let v := s.src p.a
  retire (match s.readSr n with
    | none => precise 0x03 0x0A 0 s
    | some _ =>
      if n = 0x00A then if s.cur.frozen then .ok ((s.claim v).coverSr [n]) else afterQueue s (.ok ((s.claim v).coverSr [n]))
      else if n = 0x00B then .ok { s with cur := { s.cur with aflags := clearFlags s.cur.aflags v } }
      else if !s.cur.trap.hm then .ok s
      else if n = 0x00C then
        if bits v.toNat 60 4 ≠ 0xA then precise 0x03 0x09 0 s
        else if s.nodesPending then .stall s
        else afterQueue s (s.afterStores fun t =>
          .ok { t.coverSr [n] with cur := { t.cur with atp := BitVec.ofNat 64 (setBits v.toNat 40 4 0) } })
      else if s.cur.writable n then .ok { s.coverSr [n] with cur := s.cur.writeTrap n v }
      else .ok s)

/-! ### Waiting -/

/-- PAUSE: waits for min(a, 2^20) cycles (R216). -/
def execPause (p : R1) (s : State) : Host.Outcome State Fault Refusal :=
  let n := min (s.src p.a).toNat 1048576
  retire (if n = 0 || (s.cur.waitOn.isSome && decide (n ≤ s.since s.cur.waitFrom)) then .ok s else .wait 0 s)

/-- PAUSE_EXPIRY: a hart whose PAUSE interval has run goes on; any other hart is left as it is (R59, R216). -/
def execPauseExpiry (h : HartId) (s : State) : Host.Outcome State Fault Refusal :=
  let t := s.focus h
  if t.cur.id = h ∧ t.cur.phase = .waiting ∧ t.cur.vq = [] then
    match fetch t with
    | .run (.pause p) head next => execPause p { t with cur := { t.cur with head := head, npc := next } }
    | _ => .next s
  else .next s

/-- WFEV: takes the event bit, or waits for it (R217). -/
def execWfev (_p : Head) (s : State) : Host.Outcome State Fault Refusal :=
  retire (if s.cur.event then .ok { s with cur := { s.cur with event := false } } else .wait 0 s)

/-- The hart as YIELD saves it (R57, R58): elements and mask bits at or above n are dropped, sr.vl is 0, the notice, the
reservation, the event bit and PIN clear. -/
def Hart.yielded (h : Hart) (n : Nat) : Hart :=
  { h with
    phase := .saved
    vec := h.vec.map (fun v => v % 2 ^ (n * h.cfg.sew))
    mask := h.mask.map (fun v => v % 2 ^ n)
    cfg := { h.cfg with vl := 0 }
    notice := ⟨false, 0, 0⟩
    resv := none
    event := false
    trap := { h.trap with pin := false } }

/-- Words of near registers and masks that YIELD zeroes whole lose their poison (R455). -/
def State.coverYield (s : State) (n : Nat) : State :=
  if s.poison.isEmpty then s
  else { s with poison := s.poison.filter (fun w => match w with
    | .vec h _ k => !(decide (h = s.cur.id) && decide (n * s.cur.cfg.sew ≤ 64 * k))
    | .mask h _ k => !(decide (h = s.cur.id) && decide (n ≤ 64 * k))
    | _ => true) }

/-- The current hart's save by YIELD: its far banks leave the slot with it (R57). -/
def State.yield (s : State) (n : Nat) : State :=
  let t := (s.coverYield n).stow
  { t with cur := (s.markLeft t.cur).yielded n }

/-- YIELD (R57, R218): n at most the one-lane-group VLMAX (0x03.07); it follows every older instruction and store of the hart; an
unacknowledged store to a lost rank is 0x0F.3 (R475). The firmware-owned area into which the hart is saved has no address in the spec, so
what is saved stays in the hart and writes no byte of memory (DESIGN CHOICE, log 64). -/
def execYield (p : R1) (s : State) : Host.Outcome State Fault Refusal :=
  let n := (s.src p.a).toNat
  retire (if s.cur.cfg.vlmaxOf 1 < n then precise 0x03 0x07 0 s
    else afterQueue s (match s.lostStore with
      | some va => .trap ⟨mkCause 0x0F 3, va, false⟩ s
      | none => s.afterStores fun t => .ok (t.yield n)))

/-! ### Ordering -/

/-- FENCE.SV (R154): loads perform as they execute, so what is left to order are posted stores: the scalar stream's before later vector
accesses (bits 2 and 3), the vector queue's before later scalar accesses (bits 6 and 7). A store that is held, it waits for; bits 4 to 7 order
accesses of older queue entries, which a handler's frozen queue has not made (log 30). -/
def execFenceSv (p : R1) (s : State) : Host.Outcome State Fault Refusal :=
  let ty := p.a.val.toNat
  let t := if bit ty 2 || bit ty 3 then s.settleOn false else s
  let u := if bit ty 6 || bit ty 7 then t.settleOn true else t
  let left := fun (x : Msg) => (Msg.storeOn s.cur.id false x && (bit ty 2 || bit ty 3)) || (Msg.storeOn s.cur.id true x && (bit ty 6 || bit ty 7))
  let r := match u.fabric.find? left with
    | some (.store h va v f o rd a bs) => .held ((s.storeHolder s.cur.mod (.store h va v f o rd a bs)).getD .frame) va s
    | _ => .ok u
  retire (if 16 ≤ ty then afterQueue s r else r)

/-- The effect of FENCE.STK on the stack that an address names; one with no home stack, or that does not translate, names
every stack of the local module. The address is no access: while a migration hides what it names the fence stands, and it never
faults (R156). -/
def fenceStack (s : State) (va : Nat) : Res :=
  s.afterStores fun t =>
    match t.translate va .load with
    | .error (.hold _ _) => .stall s
    | .error (.trap _ _) => .ok (writeBackStacks t t.cur.mod)
    | .ok p => match p.spot.home with
      | some k => .ok (writeBackStack t k)
      | none => .ok (writeBackStacks t t.cur.mod)

/-- FENCE.STK (R156, R212): it follows every older access of the hart, those of a frozen queue too (log 30). -/
def execFenceStk (p : R1) (s : State) : Host.Outcome State Fault Refusal := retire (afterQueue s (fenceStack s (s.src p.a).toNat))

/-- What REL and ACQ order at a scope (R155, R157, R158): the hart's posted stores perform; a scope that contains far units (the hart in its
far streams, a stack, the device, the domain) has the near copies of its stacks written back; domain scope also has every remote store
acknowledged, and an unanswered one faults (R475). -/
def scopeOrder (p : R1) (s : State) : Res :=
  match p.sf.toNat with
  | 0 => s.afterStores fun t => .ok (writeBack t (fun a => locHbm a && (s.ranksOf s.cur).contains (a / 2 ^ 52)))
  | 4 => fenceStack s (s.src p.a).toNat
  | 5 => s.afterStores fun t => .ok (writeBackStacks t t.cur.mod)
  | 6 => match s.lostStore with
    | some va => .trap ⟨mkCause 0x0F 3, va, false⟩ s
    | none => s.afterStores fun _ => .ok (writeBack s.acknowledged locHbm)
  | _ => s.afterStores .ok

/-- REL (R158): it follows every older access of the hart, those of a frozen queue too (log 30). -/
def execRel (p : R1) (s : State) : Host.Outcome State Fault Refusal := retire (afterQueue s (scopeOrder p s))

/-- ACQ (R158): the hart's earlier loads have performed as they executed. At a scope with far units its earlier near accesses come before its
later far reads (R155, R444); at domain scope an unanswered remote store faults (R475). -/
def execAcq (p : R1) (s : State) : Host.Outcome State Fault Refusal :=
  retire (afterQueue s (if p.sf = 1 ∨ p.sf = 2 ∨ p.sf = 3 then .ok s else scopeOrder p s))

/-! ### Opaque frames -/

/-- The bytes that a frame's CHECK covers, hashed (R400). -/
def frameCheck (header body : List Byte) : Nat := leNat (shake256 8 (header.take 56 ++ body))

/-- The first 56 bytes of a frame of `size` bytes (R400). -/
def frameHeader (h : Hart) (size : Nat) : List Byte :=
  leBytes 8 (0x0001 * 2 ^ 48 + size) ++
    leBytes 8 ((h.vq.length - h.moved) % 64 * 2 ^ 16 + h.acnt * 2 ^ 12 + h.cfg.nregc.toNat * 2 ^ 10 + h.cfg.etype.toNat * 2 ^ 4 + h.grant) ++
    leBytes 8 h.unf.estart ++ leBytes 8 h.unf.rowprog ++ leBytes 8 h.cfg.vl.toNat ++ leBytes 8 h.stream.bpos.toNat ++
    leBytes 8 h.stream.cellWord

/-- Poisoned vector, mask and accumulator words of a hart (R455). -/
def hartPoison (i : HartId) : SramWord → Bool
  | .vec h _ _ => decide (h = i)
  | .mask h _ _ => decide (h = i)
  | .acc h _ _ => decide (h = i)
  | _ => false

/-- The condition on a frame's address: 4,096-aligned, and not in D memory (R401, R434). -/
def frameAccess (s : State) (va n : Nat) (w : Want) (body : List (Phys × Nat) → Res) : Res :=
  if va % 4096 ≠ 0 then precise 0x04 0x04 (BitVec.ofNat 64 va) s
  else match s.transRange va n w with
    | .error e => e.res false s
    | .ok ps => if ps.any (fun p => p.1.dclass) then precise 0x0A 6 (BitVec.ofNat 64 va) s else body ps

/-- What VSAVE leaves in the hart (R401). -/
def Hart.vsaved (h : Hart) : Hart :=
  { h.zeroVectors with
    vq := []
    moved := 0
    unf := Unfinished.none
    cfg := { h.cfg with vl := 0 }
    trap := { h.trap with fpend := false } }

/-- The body of the n-th opaque frame, `size` bytes with its header (R400): the implementation chooses it, so its bytes are free. -/
def frameBody (n size : Nat) : List Byte := (upto 0 (size - 64)).map (Config.frameByte n)

/-- The byte offsets of the words of a vector frame's body to which `k` poisoned words of the hart are copied, poisoned; where a word stands
in the body is the implementation's choice (R400, R455, log 15). -/
def bodyPoison (n size k : Nat) : List Nat :=
  if size ≤ 64 then [] else (upto 0 k).map (fun i => 64 + 8 * (Config.choice (n + i) % ((size - 64) / 8)))

/-- VSAVE: writes the opaque frame as vector-queue stores, poisoned words as poisoned, and its size, and empties the vector state (R219, R400,
R401, R455). What the body's bytes stand for is kept in the frame's record (log 15). -/
def execVsave (p : R1) (s : State) : Host.Outcome State Fault Refusal :=
  let va := (s.src p.a).toNat
  let n := s.free
  let size := 64 * (1 + Config.frameBlocks n % 8192)
  retire (handlerOnly s (frameAccess s va size .store fun ps =>
    let body := frameBody n size
    let hd := frameHeader s.cur size
    let t := (s.draw.settleRuns true ps).writeRuns true va ps (hd ++ leBytes 8 (frameCheck hd body) ++ body)
    let t := t.spoilRuns ps (bodyPoison n size (s.poison.filter (hartPoison s.cur.id)).length)
    let rec_ : Frame := ⟨s.cur.id, n, size, s.cur.cfg, s.cur.vec, s.cur.mask, s.cur.accs, s.cur.aflags, s.cur.vq, s.cur.moved,
      s.cur.unf, s.poison.filter (hartPoison s.cur.id)⟩
    ({ t with
      cur := t.cur.vsaved
      poison := t.poison.filter (fun w => match w with
        | .vec h _ _ => !decide (h = s.cur.id)
        | .mask h _ _ => !decide (h = s.cur.id)
        | _ => true)
      frames := rec_ :: t.frames } : State).setD p.d (BitVec.ofNat 64 size)))

/-- What VRSTR restores from a frame: the queue, the lane and matrix state as the body holds them; sr.estart, sr.rowprog, sr.vl,
sr.vtype, sr.bpos and sr.bcell as the header does; FPEND = 1 (R400, R401). -/
def Hart.vrestored (h : Hart) (f : Frame) (hd : List Byte) : Hart :=
  let w := fun (k : Nat) => leNat ((hd.drop (8 * k)).take 8)
  { h with
    cfg := { f.cfg with vl := BitVec.ofNat 18 (w 4), nregc := BitVec.ofNat 2 (bits (w 1) 10 2), etype := BitVec.ofNat 4 (bits (w 1) 4 4) }
    vec := f.vec
    mask := f.mask
    accs := f.accs
    aflags := f.aflags
    vq := f.vq
    moved := f.moved
    unf := { f.unf with
      estart := w 2 % 2 ^ 18
      valid := bit (w 3) 63
      acc := BitVec.ofNat 3 (w 3 / 2 ^ 48)
      rows := BitVec.ofNat 7 (w 3 / 2 ^ 40)
      kdone := BitVec.ofNat 32 (w 3) }
    stream := ⟨bit (w 6) 6, BitVec.ofNat 6 (w 6), BitVec.ofNat 63 (w 5)⟩
    trap := { h.trap with fpend := true } }

/-- Whether the frame's header passes FVER, SIZE, GRNT and ACNT (R401). -/
def headerOk (h : Hart) (hd : List Byte) : Bool :=
  let w0 := leNat (hd.take 8)
  let w1 := leNat ((hd.drop 8).take 8)
  decide (w0 / 2 ^ 48 = 1) && decide (w0 % 2 ^ 48 ≤ 524288) && decide (64 ≤ w0 % 2 ^ 48) && decide (bits w1 0 4 = h.grant) &&
    decide (bits w1 12 4 = h.acnt)

/-- VRSTR: follows every older instruction (a frozen queue's are replaced), checks a frame and reloads it (R219, R401, log 30); a failed check
is 0x03.0F. A frame is valid only
for the hart that wrote it: a body that no VSAVE of the hart wrote fails the check too (log 15). -/
def execVrstr (p : R1) (s : State) : Host.Outcome State Fault Refusal :=
  let va := (s.src p.a).toNat
  retire (handlerOnly s ((if s.cur.trap.fpend then id else afterQueue s) (frameAccess s va 64 .load fun ps =>
    match (s.settleRuns true ps).readRuns false ps with
    | .error e => e.res false s
    | .ok hd =>
      let size := leNat (hd.take 8) % 2 ^ 48
      if !headerOk s.cur hd then precise 0x03 0x0F 0 s
      else frameAccess s va size .load fun qs =>
        let t := s.settleRuns true qs
        match t.readRuns false qs with
        | .error e => e.res false s
        | .ok all =>
          if leNat ((all.drop 56).take 8) ≠ frameCheck all (all.drop 64) then precise 0x03 0x0F 0 s
          else match s.frames.find? (fun f => decide (f.hart = s.cur.id) && f.size == size && (all.drop 64 == frameBody f.n size)) with
            | none => precise 0x03 0x0F 0 s
            | some f => .ok { t with
                cur := t.cur.vrestored f all
                poison := f.poison ++ t.poison.filter (fun w => !hartPoison s.cur.id w) })))

/-! ### The freeze -/

/-- Freeze a module (R411): every clock stops; the source is recorded. A frozen module stays as it is. -/
def freezeModule (s : State) (m : Nat) (source : BitVec 3) : State :=
  s.onMod m (fun x => if x.frozen then x else { x with frozen := true, source := source })

/-- FRZ: in handler mode of a launch that Ouvenaern has enabled for it, freezes the module and does not retire (R220, R411). -/
def execFrz (_p : Head) (s : State) : Host.Outcome State Fault Refusal :=
  if s.cur.trap.hm && ((s.launch? s.cur.id.launch).map (·.frz)).getD false then .next (freezeModule s s.cur.mod 1)
  else retire (precise 0x03 0x0B 0 s)

end Sys2Proof.Machine
end

