-- ==== Sys2Proof/Machine/VectorCfg.lean ====
section
/-! DEFINITION. Vector configuration, stream binding, the stage arbiter and spill frames (R47 to R52, R93, R225 to R231). -/

namespace Sys2Proof.Machine

/-- The NREGC code of a register count (R80). -/
def nregCode : Nat → Option Nat
  | 8 => some 0
  | 16 => some 1
  | 32 => some 2
  | 64 => some 3
  | _ => none

/-- A mask of VLMAX bits under a new VLMAX: bits at positions that no longer exist are lost (R73); what stands at positions that
were not there before is not stated: it is free (log 55). -/
def keepMask (old new v free : Nat) : Nat := (if old < new then v % 2 ^ old + free * 2 ^ old else v) % 2 ^ new

/-- The hart after VCFG (R72, R225): a change of NREG zeroes registers and masks; a change of ETYPE alone keeps their bits,
each mask at the positions that exist before and after. -/
def Hart.configure (h : Hart) (code et free : Nat) : Hart :=
  let c : VCfg := ⟨0, false, h.cfg.fresh, BitVec.ofNat 2 code, BitVec.ofNat 4 et⟩
  if code = h.cfg.nregc.toNat then
    { h with cfg := c, mask := Vector.ofFn (fun q => keepMask h.vlmax (c.vlmaxOf h.grant) h.mask[q] (Config.lostMask free q)) }
  else { h.zeroVectors with cfg := c }

/-- No near vector or mask word of the current hart is poisoned (R455: zeroing clears poison). -/
def State.cleanVec (s : State) : State :=
  { s with poison := s.poison.filter (fun w => match w with
    | .vec h _ _ => !decide (h = s.cur.id)
    | .mask h _ _ => !decide (h = s.cur.id)
    | _ => true) }

/-- VCFG (R225). -/
def execVcfg (p : R1) (s : State) : Host.Outcome State Fault Refusal :=
  runV (.vcfg p) none (fun s =>
    match nregCode (s.src p.a).toNat with
    | none => imprecise 0x03 0x09 0 s
    | some c =>
      let t := if c = s.cur.cfg.nregc.toNat then s else s.cleanVec
      let t := { t.draw.coverSr [0x000, 0x001] with cur := t.cur.configure c p.sf.toNat s.free }
      t.setD p.d (BitVec.ofNat 64 t.cur.vlmax)) s

/-! ### The stage arbiter -/

/-- Index of the first tile of stage queue q in the launch's window (R44). -/
def Packet.queueBase (p : Packet) (q : Nat) : Nat := (p.depth.take q).sum

/-- The tile at a reference. -/
def State.tile (s : State) (r : TileRef) : Tile := ((s.tiles.find? (fun c => decide (c.1 = r))).map (·.2)).getD Tile.reset

/-- The tiles of stage queue q on the current hart's core. -/
def State.queueTiles (s : State) (p : Packet) (q : Nat) : List TileRef :=
  (upto (p.queueBase q) (p.depth.getD q 0)).map (fun t => ⟨s.cur.id.launch, s.cur.id.rank, s.cur.id.x, s.cur.id.y, t⟩)

/-- Full tiles of a stage queue. -/
def State.fullTiles (s : State) (p : Packet) (q : Nat) : Nat := ((s.queueTiles p q).filter (fun r => (s.tile r).full)).length
/-- Empty tiles of a stage queue. -/
def State.emptyTiles (s : State) (p : Packet) (q : Nat) : Nat := ((s.queueTiles p q).filter (fun r => !(s.tile r).full)).length

/-- The demand of stage x (R47). -/
def State.demand (s : State) (p : Packet) (x : Nat) : Nat :=
  if x + 1 < p.stages ∧ s.emptyTiles p x = 0 then 0
  else if 0 < x ∧ s.fullTiles p (x - 1) = 0 then 0
  else if x = 0 then s.emptyTiles p 0 else s.fullTiles p (x - 1)

/-- One stage in the arbiter: floor or pinned size as the target so far, ceiling, demand. -/
structure Stage where
  t : Nat
  c : Nat
  dem : Nat
  deriving DecidableEq, Repr

/-- The stage that wins the next lane group (R47): the largest D / t, compared exactly, the lowest stage on a tie. -/
def bestStage : List (Nat × Stage) → Option (Nat × Stage)
  | [] => none
  | x :: rest =>
    let r := bestStage rest
    if x.2.t < x.2.c ∧ 0 < x.2.dem then
      match r with
      | some y => if y.2.dem * x.2.t ≤ x.2.dem * y.2.t then some x else r
      | none => some x
    else r

/-- Hand out the spare lane groups (R47). -/
def spread : Nat → List Stage → List Stage
  | 0, xs => xs
  | n + 1, xs => match bestStage (xs.zipIdx.map (fun y => (y.2, y.1))) with
    | none => xs
    | some (k, x) => spread n (xs.set k { x with t := x.t + 1 })

/-- The hart of each stage on the current hart's core. -/
def State.stageHart (s : State) (x : Nat) : Option Hart :=
  s.allHarts.find? (fun h => h.seated && h.id.launch == s.cur.id.launch && h.id.rank == s.cur.id.rank && h.id.x == s.cur.id.x &&
    h.id.y == s.cur.id.y && h.seat.stage == x)

/-- The target grants (R47); a pinned stage's target is its pinned size (R409), a carry stage's its floor. -/
def State.targets (s : State) (l : Launch) (sh : Share) : List Nat :=
  let p := l.pkt
  let xs := (upto 0 p.stages).map (fun x =>
    let f := p.floor.getD x 1
    match s.stageHart x with
    | some h => if h.trap.pin then (⟨h.trap.grnt.toNat, h.trap.grnt.toNat, 0⟩ : Stage)
      else ⟨f, if p.carry.getD x false then f else sh.ceilings.getD x 8, s.demand p x⟩
    | none => ⟨f, if p.carry.getD x false then f else sh.ceilings.getD x 8, s.demand p x⟩)
  (spread (8 - (xs.map (·.t)).sum) xs).map (·.t)

/-- Lane groups of a core that no grant holds (R33, R48). -/
def State.pool (s : State) (m core : Nat) : List Nat :=
  (upto 0 8).filter (fun k => !(s.allHarts.any (fun h => h.seated && h.mod == m && h.seat.core == core && h.seat.lanes.contains k)))

/-- Merge sorted lane numbers. -/
def laneSet (xs : List Nat) : List Nat := (upto 0 8).filter xs.contains

/-- The hart with a new grant: registers and masks read zero (R49). -/
def State.regrant (s : State) (lanes : List Nat) : State :=
  { s.cleanVec with cur := { s.cur.zeroVectors with
      seat := { s.cur.seat with lanes := lanes }
      lastShift := some s.tick } }

/-- The grant rule at a VSETL (R48): the first of the two rules that holds, once the rebalance hold has passed, which does not apply to the
first VSETL after placement or resumption (R37). The hold is that of the hart's own stage (R46) and counts from its last change of size; before a
first change there is none (DESIGN CHOICE, log 76). A stage whose hart holds no grant (it is Saved by itself, or Ended) counts as no stage r
with g_r below its target (DESIGN CHOICE, log 68). -/
def State.rebalance (s : State) : State :=
  match s.launch? s.cur.id.launch, s.share? s.cur.id.launch s.cur.id.rank with
  | some l, some sh =>
    let x := s.cur.seat.stage
    let held := match s.cur.lastShift with
      | some t => decide (s.since t < sh.holds.getD x 0)
      | none => false
    if l.pkt.stages < 2 || l.pkt.carry.getD x false || s.cur.trap.pin || (held && !s.cur.eager) then s
    else
      let ts := s.targets l sh
      let g := s.cur.grant
      let t := ts.getD x g
      let wants := (upto 0 l.pkt.stages).any (fun r =>
        match s.stageHart r with
        | some h => decide (h.grant < ts.getD r 0)
        | none => false)
      let free := s.pool s.cur.mod s.cur.seat.core
      if t < g && wants then s.regrant (s.cur.seat.lanes.take t)
      else if g < t && !free.isEmpty then s.regrant (laneSet (s.cur.seat.lanes ++ free.take (t - g)))
      else s
  | _, _ => s

/-- The high-water cell of the binding (R50, R52). -/
def State.boundCell (s : State) : HwCell :=
  ((s.share? s.cur.id.launch s.cur.id.rank).map (fun sh => Tbl.getD sh.cells s.cur.stream.cell.toNat ⟨0, false⟩)).getD ⟨0, false⟩

/-- Set sr.vl and the destination (R226); the write clears what was poisoned of sr.vl, and of sr.bpos when that is written with it
(R455). -/
def State.setVl (s : State) (d : BitVec 6) (n : Nat) (cover : List Nat := [0x000]) : Res :=
  ({ s.coverSr cover with
      cur := { s.cur with cfg := { s.cur.cfg with vl := BitVec.ofNat 18 n }, eager := false, seen := none } } : State).setD d (BitVec.ofNat 64 n)

/-- What a waiting bound VSETL watches: P, the closed bit and the notice (R52). -/
def State.watched (s : State) : Nat × Bool × Bool := (s.boundCell.index, s.boundCell.closed, s.cur.notice.pend && !s.cur.trap.hm)

/-- VSETL once it is configured and fresh registers are zeroed (R52, R226); one that waits evaluates again only when what it watches has
changed. -/
def vsetlBody (p : R1) (s : State) : Res :=
  if s.cur.seen = some s.watched then .wait (BitVec.ofNat 64 s.cur.stream.cell.toNat) s
  else if s.cur.notice.pend && !s.cur.trap.hm then s.setVl p.d 0
  else
    let t := s.rebalance
    let want := min (s.src p.a).toNat t.cur.vlmax
    if t.cur.stream.bound then
      let c := t.boundCell
      let pos := t.cur.stream.bpos.toNat
      if pos < c.index then
        let n := min want (c.index - pos)
        ({ t with cur := { t.cur with stream := { t.cur.stream with bpos := BitVec.ofNat 63 (pos + n) } } } : State).setVl p.d n [0x000, 0x006]
      else if c.closed then t.setVl p.d 0
      else .wait (BitVec.ofNat 64 t.cur.stream.cell.toNat) { t with cur := { t.cur with seen := some t.watched } }
    else t.setVl p.d want

/-- VSETL (R226). -/
def execVsetl (p : R1) (s : State) : Host.Outcome State Fault Refusal :=
  runV (.vsetl p) none (checked [(s.cur.cfg.ill, 0x03, 0x05)] (fun s =>
    vsetlBody p (if s.cur.cfg.fresh then
      { s.cleanVec with cur := { s.cur.zeroVectors with cfg := { s.cur.cfg with fresh := false } } } else s))) s

/-- Bytes of the register part of one register, and of one mask, in a frame for n (R93). -/
def regBytes (c : VCfg) (n : Nat) : Nat := ceilDiv (n * c.sew) 512 * 64
/-- Bytes of one mask in a frame for n (R93). -/
def maskBytes (n : Nat) : Nat := ceilDiv n 512 * 64
/-- Size of the frame of R93 for n (R228). -/
def Hart.frameSize (h : Hart) (n : Nat) : Nat :=
  64 + h.cfg.nreg * regBytes h.cfg n + 8 * maskBytes n + h.acnt * 25408

/-- VQLEN (R228). -/
def execVqlen (p : R1) (s : State) : Host.Outcome State Fault Refusal :=
  runV (.vqlen p) none (fun s => checked [(s.cur.cfg.ill, 0x03, 0x05), (decide (16384 < (s.src p.a).toNat), 0x03, 0x09)]
    (fun s => s.setD p.d (BitVec.ofNat 64 (s.cur.frameSize (s.src p.a).toNat))) s) s

/-- Set sr.bpos and sr.bcell (R83). -/
def State.bind (s : State) (b : Stream) : Res := .ok { s.coverSr [0x006, 0x007] with cur := { s.cur with stream := b } }

/-- VBIND: a cell at or above 64 unbinds (R52, R229). -/
def execVbind (p : R2) (s : State) : Host.Outcome State Fault Refusal :=
  runV (.vbind p) none (fun s =>
    checked [(!s.cur.configured, 0x03, 0x05), (decide (2 ^ 63 ≤ (s.src p.b).toNat), 0x03, 0x09)] (fun s =>
      let a := (s.src p.a).toNat
      if a < 64 then s.bind ⟨true, BitVec.ofNat 6 a, BitVec.ofNat 63 (s.src p.b).toNat⟩ else s.bind ⟨false, 0, 0⟩) s) s

/-- VBIND.OFF (R229). -/
def execVbindOff (p : R2) (s : State) : Host.Outcome State Fault Refusal :=
  runV (.vbindOff p) none (fun s => checked [(!s.cur.configured, 0x03, 0x05)] (fun s => s.bind ⟨false, 0, 0⟩) s) s

/-! ### Spill frames -/

/-- The bytes of one accumulator tile in a frame: header, body row by row, and (m, l) pairs (R93). -/
def Acc.bytes (a : Acc) : List Byte :=
  let w := if a.bf16 then 2 else 4
  [if a.bf16 then 1 else 0, 0] ++ leBytes 2 a.tag.toNat ++ List.replicate 60 0 ++
    (upto 0 (96 * a.cols)).flatMap (fun i => leBytes w (Tbl.getD a.body i 0)) ++
    (upto 0 96).flatMap (fun r => leBytes 4 (a.mAt r) ++ leBytes 4 (a.lAt r))

/-- A tile read from its 25,408 bytes. -/
def accOfBytes (bs : List Byte) : Acc :=
  let bf := bit (leNat (bs.take 1)) 0
  let w := if bf then 2 else 4
  let body := bs.drop 64
  let ml := bs.drop (64 + 24576)
  { bf16 := bf
    tag := BitVec.ofNat 16 (leNat ((bs.drop 2).take 2))
    body := (upto 0 (24576 / w)).foldr (fun i t => Tbl.store 0 i (leNat ((body.drop (w * i)).take w)) t) []
    m := (upto 0 96).foldr (fun r t => Tbl.store 0xFF800000 r (leNat ((ml.drop (8 * r)).take 4)) t) []
    l := (upto 0 96).foldr (fun r t => Tbl.store 0 r (leNat ((ml.drop (8 * r + 4)).take 4)) t) [] }

/-- The frame of R93 for n. -/
def Hart.frame (h : Hart) (n : Nat) : List Byte :=
  leBytes 8 (n % 2 ^ 18 + h.cfg.etype.toNat * 2 ^ 20 + h.cfg.nregc.toNat * 2 ^ 24 + h.acnt * 2 ^ 28) ++
    leBytes 8 h.stream.bpos.toNat ++ leBytes 8 ((if h.stream.bound then 2 ^ 6 else 0) + h.stream.cell.toNat) ++
    leBytes 8 h.aflags.toNat ++ List.replicate 32 0 ++
    (h.vec.toList.take h.cfg.nreg).flatMap (fun v => leBytes (regBytes h.cfg n) (v % 2 ^ (n * h.cfg.sew))) ++
    h.mask.toList.flatMap (fun v => leBytes (maskBytes n) (v % 2 ^ n)) ++
    h.accs.flatMap Acc.bytes

/-- Byte offsets in the frame for n of the words that are poisoned (R93, R455). -/
def State.framePoison (s : State) (n : Nat) : List Nat :=
  let h := s.cur
  let masks := 64 + h.cfg.nreg * regBytes h.cfg n
  let accs := masks + 8 * maskBytes n
  s.poison.flatMap (fun w => match w with
    | .vec i r k => if i = h.id ∧ k * 64 < n * h.cfg.sew then [64 + r * regBytes h.cfg n + 8 * k] else []
    | .mask i r k => if i = h.id ∧ k * 64 < n then [masks + r * maskBytes n + 8 * k] else []
    | .acc i c r =>
      if i = h.id then
        (upto 0 32).map (fun k => accs + c * 25408 + 64 + 256 * r + 8 * k) ++ [accs + c * 25408 + 64 + 24576 + 8 * r]
      else []
    | _ => [])

/-- The frame address of VSPILL and VFILL (R230). -/
def State.frameAddr (s : State) (p : L) : Nat := addrOf (s.src p.a) (signed 16 p.imm.toNat)

/-- VSPILL: the frame of R93 for the n in gn, poisoned words as poisoned (R230, R455). -/
def execVspill (p : L) (s : State) : Host.Outcome State Fault Refusal :=
  runV (.vspill p) none (fun s =>
    let n := (s.gread (gd p.d)).toNat
    let va := s.frameAddr p
    checkedAt va [(!s.cur.configured, 0x03, 0x05), (decide (s.cur.vlmax < n), 0x03, 0x07), (decide (va % 64 ≠ 0), 0x04, 0x04)]
      (fun s => match s.transRangeD s.view va (s.cur.frameSize n) .store 6 with
        | .error e => e.res true s
        | .ok ps =>
          let t := (s.settleRuns true ps).writeRuns true va ps (s.cur.frame n)
          .ok (t.spoilRuns ps (s.framePoison n))) s) s

/-- The hart after VFILL of a frame's bytes for n (R231). -/
def Hart.fill (h : Hart) (n : Nat) (bs : List Byte) : Hart :=
  let rb := regBytes h.cfg n
  let masks := 64 + h.cfg.nreg * rb
  let accs := masks + 8 * maskBytes n
  let w := fun k => leNat ((bs.drop (8 * k)).take 8)
  { h with
    vec := Vector.ofFn (fun (r : Fin 64) =>
      if r.val < h.cfg.nreg then leNat ((bs.drop (64 + r.val * rb)).take rb) % 2 ^ (n * h.cfg.sew) else 0)
    mask := Vector.ofFn (fun (r : Fin 8) => leNat ((bs.drop (masks + r.val * maskBytes n)).take (maskBytes n)) % 2 ^ n)
    accs := (upto 0 h.acnt).map (fun c => accOfBytes (bs.drop (accs + c * 25408)))
    stream := ⟨bit (w 2) 6, BitVec.ofNat 6 (w 2), BitVec.ofNat 63 (w 1)⟩
    aflags := h.aflags ||| BitVec.ofNat 9 (w 3)
    cfg := { h.cfg with vl := 0 } }

/-- VFILL: a header that does not agree with the hart is 0x03.0F (R231, R425). -/
def execVfill (p : L) (s : State) : Host.Outcome State Fault Refusal :=
  runV (.vfill p) none (fun s =>
    let va := s.frameAddr p
    checkedAt va [(!s.cur.configured, 0x03, 0x05), (decide (va % 64 ≠ 0), 0x04, 0x04)] (fun s =>
      match s.transRangeD s.view va 64 .load 6 with
      | .error e => e.res true s
      | .ok ps => match (s.settleRuns true ps).readRuns false ps with
        | .error e => e.res true s
        | .ok hd =>
          let w0 := leNat (hd.take 8)
          let n := bits w0 0 18
          if bits w0 20 4 ≠ s.cur.cfg.etype.toNat || bits w0 24 2 ≠ s.cur.cfg.nregc.toNat || bits w0 28 4 ≠ s.cur.acnt ||
            decide (s.cur.vlmax < n) then imprecise 0x03 0x0F 0 s
          else match s.transRangeD s.view va (s.cur.frameSize n) .load 6 with
            | .error e => e.res true s
            | .ok qs => match (s.settleRuns true qs).readRuns false qs with
              | .error e => e.res true s
              | .ok bs =>
                let t := countReads ((s.settleRuns true qs).coverSr [0x000, 0x006, 0x007]) (runReqs qs)
                let clean := t.poison.filter (fun w => match w with
                  | .vec h _ _ => !decide (h = s.cur.id)
                  | .mask h _ _ => !decide (h = s.cur.id)
                  | .acc h _ _ => !decide (h = s.cur.id)
                  | _ => true)
                ({ t with cur := t.cur.fill n bs, poison := clean } : State).setD p.d (BitVec.ofNat 64 n)) s) s

end Sys2Proof.Machine
end

