-- ==== Sys2Proof/Machine/Tiles.lean ====
section
/-! DEFINITION. Tagged tiles: handles, sends and hold queues, and the tile instructions (R318 to R326). -/

namespace Sys2Proof.Machine

/-! ### Handles -/

/-- What a handle word names (R318). -/
inductive Handle where
  | tile (r : TileRef)
  | queue (q : Nat)
  deriving DecidableEq, Repr

/-- The key of a placement-table entry (R40). -/
def placeKey (x y : Nat) : Nat := 16 * y + x

/-- The handle word of a tile (R318). -/
def TileRef.handle (r : TileRef) : Word := BitVec.ofNat 64 (r.rank * 2 ^ 24 + r.y * 2 ^ 16 + r.x * 2 ^ 12 + r.t)

/-- What a handle word names for a launch, if it names anything (R318, R428). -/
def handleOf (l : Nat) (p : Packet) (v : Nat) : Option Handle :=
  let rank := bits v 24 6
  let y := bits v 16 4
  let x := bits v 12 4
  let t := bits v 0 8
  if bits v 30 32 ≠ 0 ∨ bits v 20 4 ≠ 0 ∨ bits v 8 4 ≠ 0 then none
  else match bits v 62 2 with
    | 0 =>
      if rank < p.ranks.length ∧ x < p.wid ∧ y < p.hgt ∧ p.depth.sum ≤ t ∧ t < p.tiles then some (.tile ⟨l, rank, x, y, t⟩) else none
    | 1 => if rank = 0 ∧ x = 0 ∧ y = 0 ∧ t + 1 < p.stages then some (.queue t) else none
    | _ => none

/-- The handle in a word, for the current hart's launch. -/
def State.handle (s : State) (v : Word) : Option Handle :=
  (s.launch? s.cur.id.launch).bind (fun l => handleOf s.cur.id.launch l.pkt v.toNat)

/-- A tile of the current hart's own core (R322). -/
def State.ownTile (s : State) (r : TileRef) : Bool := r.rank == s.cur.id.rank && r.x == s.cur.id.x && r.y == s.cur.id.y

/-- The handle of a put: any tile, or the queue that the hart's stage feeds (R323). -/
def State.putHandle (s : State) (v : Word) : Option Handle :=
  match s.handle v with
  | some (.queue q) => if s.cur.seat.stage = q then some (.queue q) else none
  | h => h

/-- The handle of a take, look or wait: a tile of the own core, or the queue that feeds the hart's stage (R322, R324). -/
def State.getHandle (s : State) (v : Word) : Option Handle :=
  match s.handle v with
  | some (.queue q) => if s.cur.seat.stage = q + 1 then some (.queue q) else none
  | some (.tile r) => if s.ownTile r then some (.tile r) else none
  | none => none

/-- The handle of TDROP and TMARK: a tile of the own core (R322, R325). -/
def State.localTile (s : State) (v : Word) : Option TileRef :=
  match s.handle v with
  | some (.tile r) => if s.ownTile r then some r else none
  | _ => none

/-- Module and core of a tile whose launch is resident there, through its placement table (R40, R41, R467). -/
def State.coreOf (s : State) (r : TileRef) : Option (Nat × Nat) :=
  match s.rankModule r.launch r.rank, s.share? r.launch r.rank with
  | some m, some sh =>
    if sh.state = .saved ∨ sh.state = .gone then none else (Tbl.find (placeKey r.x r.y) sh.place).map (fun p => (m, p.core))
  | _, _ => none

/-! ### Tags -/

/-- Replace a tile. -/
def State.putTile (s : State) (r : TileRef) (t : Tile) : State :=
  { s with tiles := (r, t) :: s.tiles.filter (fun c => !decide (c.1 = r)) }

/-- A change that the delivery count of a share counts (R470). -/
def State.bump (s : State) (l r : Nat) : State := s.onShare l r (fun sh => { sh with delivery := sh.delivery + 1 })

/-- A poisoned word of a tile (R456). -/
def State.tilePoisoned (s : State) (r : TileRef) : Bool :=
  s.poison.any (fun w => match w with
    | .tile l rk x y t _ => decide (r = ⟨l, rk, x, y, t⟩)
    | _ => false)

/-- A delivery or a put: data and tag in one step (R164, R320); a mark leaves the data (R325). It sets the event bit of the
launch's harts on the core (R217), and whole new data clears poison (R455). -/
def State.fillTile (s : State) (r : TileRef) (data : Option Nat) (seq : Nat) : State :=
  let t := s.putTile r ⟨true, data.getD (s.tile r).data, seq⟩
  let t := if data.isNone then t else { t with poison := t.poison.filter (fun w => match w with
    | .tile l rk x y k _ => !decide (r = ⟨l, rk, x, y, k⟩)
    | _ => true) }
  (t.bump r.launch r.rank).onHarts (fun h => h.id.launch == r.launch && h.id.rank == r.rank && h.id.x == r.x && h.id.y == r.y)
    (fun h => { h with event := true })

/-- A tile becomes empty. -/
def State.emptyTile (s : State) (r : TileRef) : State :=
  (s.putTile r { s.tile r with full := false }).bump r.launch r.rank

/-! ### Hold queues and waiting instructions -/

/-- How an instruction waits on a full tile (R321). -/
inductive Get where
  | take | look | wait
  deriving DecidableEq, Repr

/-- TTAKE, TLOOK and TWAIT by how they wait. -/
def getKind : Instr → Option Get
  | .ttake _ | .ttakeM _ => some .take
  | .tlook _ | .tlookM _ => some .look
  | .twait _ => some .wait
  | _ => none

/-- The hart waits on a full tile at the head of its queue, not yet served (R321). -/
def Hart.waitsFor (h : Hart) (r : TileRef) : Bool :=
  decide (h.phase = .waiting) && h.id.launch == r.launch && h.id.rank == r.rank && h.id.x == r.x && h.id.y == r.y &&
    decide (h.waitOn = some r.handle) && h.got.isNone && ((h.vq.head?.bind (fun e => getKind e.instr)).isSome)

/-- The hart that has waited longest of those in a list. -/
def longest : List Hart → Option Hart
  | [] => none
  | h :: rest => match longest rest with
    | some g => if g.waitFrom < h.waitFrom then some g else some h
    | none => some h

/-- The longest waiting instruction for a full tile is served: it has the tile's data, and a TTAKE empties the tile (R321). -/
def State.serve (s : State) (r : TileRef) : Option State :=
  if !(s.tile r).full || s.tilePoisoned r then none
  else match longest (s.allHarts.filter (fun h => h.waitsFor r)) with
    | none => none
    | some h =>
      let t := s.onHart h.id (fun x => { x with got := some (s.tile r).data })
      some (if (h.vq.head?.bind (fun e => getKind e.instr)) = some .take then t.emptyTile r else t)

/-- Hold-queue entries of a core. -/
def Module.holdsOf (x : Module) (core : Nat) : List Send := Tbl.getD x.holds core []

/-- The tile of a held send is empty and no older send for it is held (R320): its place in the queue. -/
def State.deliverable (s : State) : List TileRef → List Send → Nat → Option Nat
  | _, [], _ => none
  | seen, x :: rest, k =>
    if seen.contains x.dest || (s.tile x.dest).full then s.deliverable (x.dest :: seen) rest (k + 1) else some k

/-- A node's item has been delivered: a call node is Running from then on (R328). -/
def State.nodeDelivered (s : State) (m : Nat) (x : Send) : State :=
  match x.node with
  | none => s
  | some i => s.onMod m (fun y => match Tbl.find i y.nodes with
    | none => y
    | some n => { y with nodes := Tbl.put i (match n.kind with
        | .call _ _ => { n with send := .granted, state := .running }
        | .copy _ => { n with send := .granted }) y.nodes })

/-- A send's delivery: data and tag in one step, then its entry is free (R320). -/
def State.deliver (s : State) (m core k : Nat) (x : Send) : State :=
  let t := s.onMod m (fun y => { y with holds := Tbl.put core ((y.holdsOf core).eraseIdx k) y.holds })
  (t.fillTile x.dest x.data (s.tile x.dest).seq).nodeDelivered m x

/-- A send has its entry: a hart of this module may go on, one of another is told by a message (R320, R323). -/
def State.granted (s : State) (m : Nat) (x : Send) : State :=
  match x.hart with
  | none => s
  | some h =>
    if s.rankModule h.launch h.rank = some m then s.onHart h (fun y => { y with send := .granted })
    else { s with fabric := s.fabric ++ [.grant h] }

/-- The first request for an entry of this core (R320). -/
def State.firstAsking (s : State) (m core : Nat) : Option (Nat × Send) :=
  (s.mod? m).bind (fun y => (y.asking.zipIdx.find? (fun c => decide (s.coreOf c.1.dest = some (m, core)))).map (fun c => (c.2, c.1)))

/-- A request takes an entry when fewer than 16 are held (R320). -/
def State.takeEntry (s : State) (m core : Nat) : Option State :=
  match s.mod? m with
  | none => none
  | some y =>
    if 16 ≤ (y.holdsOf core).length then none
    else match s.firstAsking m core with
      | none => none
      | some (k, x) => some ((s.onMod m (fun y => { y with
          asking := y.asking.eraseIdx k
          holds := Tbl.put core (y.holdsOf core ++ [x]) y.holds })).granted m x)

/-- One thing that happens at a core's tiles: a waiting instruction is served, a held send delivered, an entry granted. -/
def State.coreStep (s : State) (m core : Nat) : Option State :=
  match (s.tiles.map (·.1)).findSome? (fun r => if s.coreOf r = some (m, core) then s.serve r else none) with
  | some t => some t
  | none => match s.mod? m with
    | none => none
    | some y => match s.deliverable [] (y.holdsOf core) 0 with
      | some k => match (y.holdsOf core)[k]? with
        | some x => some (s.deliver m core k x)
        | none => none
      | none => s.takeEntry m core

/-- Everything that can happen at a core's tiles happens. -/
def State.pumpFor : Nat → State → Nat → Nat → State
  | 0, s, _, _ => s
  | f + 1, s, m, core => match s.coreStep m core with
    | some t => State.pumpFor f t m core
    | none => s

/-- Bring a core's tiles to rest (R320, R321); each send and each waiting hart takes at most two steps. -/
def State.pump (s : State) (m core : Nat) : State :=
  let n := match s.mod? m with
    | some y => (y.holdsOf core).length + y.asking.length
    | none => 0
  State.pumpFor (2 * n + s.allHarts.length + 1) s m core

/-- Bring the tiles of the core that holds a tile to rest. -/
def State.pumpAt (s : State) (r : TileRef) : State :=
  match s.coreOf r with
  | some c => s.pump c.1 c.2
  | none => s

/-! ### TSEND and TMARK -/

/-- Forget a send that did not succeed. -/
def State.unsent (s : State) : State := { s with cur := { s.cur with send := .none, got := none } }

/-- Without an entry a TSEND waits and a TMARK, which R59 does not list, stays (R59, R325, R467, R473). -/
def Res.unheld (mark : Bool) (v : Word) (s : State) : Res := if mark then .stall s else .wait v s

/-- A send asks the destination core for an entry: at once on this module, by a message to another (R320, R323). -/
def State.ask (s : State) (v : Word) (m : Nat) (x : Send) : Res :=
  let t := { s with cur := { s.cur with send := .asked } }
  if m = s.cur.mod then
    let u := (t.onMod m (fun y => { y with asking := y.asking ++ [x] })).pumpAt x.dest
    if u.cur.send = .granted then .ok u else Res.unheld x.data.isNone v u
  else Res.unheld x.data.isNone v { t with fabric := t.fabric ++ [.entryReq x] }

/-- A rank that this hart's module has declared lost (R475). -/
def State.rankLost (s : State) (m : Nat) : Bool := ((s.mod? s.cur.mod).map (fun x => x.lost.contains m)).getD false

/-- A TSEND or TMARK that has asked for its entry (R323, R472, R473). -/
def State.sending (s : State) (mark : Bool) (v : Word) (m : Option Nat) (first : State → Res) : Res :=
  match s.cur.send with
  | .granted => .ok s
  | .refused => .trap ⟨mkCause 0x0F 1, v, true⟩ s.unsent
  | .asked => if m.any s.rankLost then .trap ⟨mkCause 0x0F 4, v, true⟩ s.unsent else Res.unheld mark v s
  | .none => first s

/-- The 4,096 bytes of a send's data, as a little-endian number (R323). -/
def State.sendData (s : State) (b : S10) : Except Stop Nat :=
  if b.isVec then
    if (upto 0 s.cur.cfg.vl.toNat).any (fun i => s.anyPoison (s.vecWords [b.val.toNat] i)) then .error (poisonStop 1)
    else .ok (s.cur.vec[b.vidx] % 2 ^ (s.cur.cfg.vl.toNat * s.cur.cfg.sew))
  else match s.transRange (s.src b).toNat 4096 .load with
    | .error e => .error e
    | .ok ps => match (s.settleRuns true ps).readRuns false ps with
      | .error e => .error e
      | .ok bs => .ok (leNat bs)

/-- The lines that a send's data is read from. -/
def State.sendReads (s : State) (b : S10) : List Nat :=
  if b.isVec then [] else match s.transRange (s.src b).toNat 4096 .load with
    | .error _ => []
    | .ok ps => runReqs ps

/-- The conditions of a register form (R428) and of an address (R416). -/
def State.tileConds (s : State) (v : Option S10) (r : Nat) (named : Bool) (va : Nat) : List (Bool × Nat × Nat) :=
  let reg := v.isSome
  [(reg && decide (s.cur.cfg.nreg ≤ r), 0x03, 0x03), (reg && !s.cur.configured, 0x03, 0x05),
   (reg && decide (4096 < s.cur.cfg.vl.toNat * s.cur.cfg.sew / 8), 0x03, 0x07), (!named, 0x03, 0x0D),
   (decide (va % 64 ≠ 0), 0x04, 0x04)]

/-- A put into a stage queue: the lowest empty tile, the next sequence number (R45). -/
def State.queuePut (s : State) (q : Nat) (v : Word) (data : Nat) : Res :=
  match s.launch? s.cur.id.launch with
  | none => .ok s
  | some l =>
    let ts := s.queueTiles l.pkt q
    match ts.find? (fun r => !(s.tile r).full) with
    | none => .wait v { s with cur := { s.cur with got := some data } }
    | some r => .ok (s.fillTile r (some data) (1 + (ts.map (fun x => (s.tile x).seq)).foldl max 0))

/-- The release of a TSEND (R164): at launch scope every posted store performs; at domain scope, for a tile of another module, an
unanswered remote store faults (R475). -/
def State.sendRelease (s : State) (m : Nat) (v : Word) (body : State → Res) : Res :=
  if m = s.cur.mod then s.afterStores body
  else match s.lostStore with
    | some va => .trap ⟨mkCause 0x0F 3, va, true⟩ s
    | none =>
      if s.rankLost m then .trap ⟨mkCause 0x0F 4, v, true⟩ s
      else s.afterStores fun _ => body (writeBack s.acknowledged locHbm)

/-- TSEND at the head of the queue (R323). -/
def tsendBody (p : R2) (s : State) : Res :=
  let v := s.src p.a
  let va := if p.b.isVec then 0 else (s.src p.b).toNat
  let dest := match s.handle v with
    | some (.tile r) => s.rankModule r.launch r.rank
    | _ => none
  s.sending false v dest (checkedAt va
    (s.tileConds (if p.b.isVec then some p.b else none) p.b.val.toNat (s.putHandle v).isSome va) (fun s =>
      match s.putHandle v, s.cur.got with
      | some (.queue q), some d => s.queuePut q v d
      | some (.queue q), none => s.sendRelease s.cur.mod v (fun t => match t.sendData p.b with
        | .error e => e.res true t
        | .ok d => (countReads t (t.sendReads p.b)).queuePut q v d)
      | some (.tile r), _ =>
        let m := dest.getD s.cur.mod
        s.sendRelease m v (fun t => match t.sendData p.b with
          | .error e => e.res true t
          | .ok d => (countReads t (t.sendReads p.b)).ask v m ⟨r, some d, some s.cur.id, none⟩)
      | none, _ => .ok s))

/-- TSEND (R323). -/
def execTsend (p : R2) (s : State) : Host.Outcome State Fault Refusal := runV (.tsend p) none (tsendBody p) s

/-- TMARK at the head of the queue: a release at launch scope, then a send that sets the tag and leaves the data (R325). -/
def tmarkBody (p : R1) (s : State) : Res :=
  let v := s.src p.a
  s.sending true v none (checked [((s.localTile v).isNone, 0x03, 0x0D)] (fun s =>
    match s.localTile v with
    | some r => s.afterStores fun t => t.ask v s.cur.mod ⟨r, none, some s.cur.id, none⟩
    | none => .ok s))

/-- TMARK (R325). -/
def execTmark (p : R1) (s : State) : Host.Outcome State Fault Refusal := runV (.tmark p) none (tmarkBody p) s

/-! ### TTAKE, TLOOK, TWAIT and TDROP -/

/-- The full tile of a queue with the lowest sequence number (R45). -/
def State.queueFront (s : State) (q : Nat) : Option TileRef :=
  match s.launch? s.cur.id.launch with
  | none => none
  | some l => ((s.queueTiles l.pkt q).filter (fun r => (s.tile r).full)).foldl (fun b r =>
      match b with
      | none => some r
      | some c => if (s.tile r).seq < (s.tile c).seq then some r else b) none

/-- The tile that a get reads now, if one is full (R324). -/
def State.getTile (s : State) (h : Handle) : Option TileRef :=
  match h with
  | .tile r => if (s.tile r).full then some r else none
  | .queue q => s.queueFront q

/-- The acquire of a get: a send of another module's hart makes its scope the domain, whose far units see the hart's earlier near accesses from
then on (R155, R164, R444). -/
def State.acquired (s : State) : State := if (s.ranksOf s.cur).length ≤ 1 then s else writeBack s.settle locHbm

/-- A get at the head of the queue: it goes on with the tile's data, at once or as it was served while it waited, or waits
(R321, R324, R325); a poisoned tile stops a read before it happens (R456). -/
def State.getBody (s : State) (k : Get) (v : Word) (body : Nat → State → Res) : Res :=
  match s.cur.got with
  | some d => body d ({ s with cur := { s.cur with got := none } } : State).acquired
  | none => match (s.getHandle v).bind s.getTile with
    | none => .wait v s
    | some r =>
      if k ≠ .wait ∧ s.tilePoisoned r then .trap ⟨mkCause 0x0D 6, 0, true⟩ s
      else body (s.tile r).data (if k = .take then (s.emptyTile r).pumpAt r else s).acquired

/-- TTAKE and TLOOK into a register: every element below sr.vl, whatever the masks (R324). -/
def getVec (k : Get) (p : R2) (s : State) : Res :=
  let v := s.src p.a
  checked (s.tileConds (some p.a) p.d.toNat (s.getHandle v).isSome 0) (fun s =>
    s.getBody k v (fun d t => .ok (t.writeVec (vd p.d)
      ((upto 0 s.cur.cfg.vl.toNat).map (fun i => (i, bits d (i * s.cur.cfg.sew) s.cur.cfg.sew)))))) s

/-- TTAKE.M and TLOOK.M: 4,096 bytes to memory, whose translation comes first (R324). -/
def getMem (k : Get) (p : R2) (s : State) : Res :=
  let v := s.src p.a
  let va := (s.src p.b).toNat
  checkedAt va (s.tileConds none 0 (s.getHandle v).isSome va) (fun s =>
    match s.transRange va 4096 .store with
    | .error e => e.res true s
    | .ok ps => s.getBody k v (fun d t => .ok ((t.settleRuns true ps).writeRuns true va ps (leBytes 4096 d)))) s

/-- TTAKE (R324). -/
def execTtake (p : R2) (s : State) : Host.Outcome State Fault Refusal := runV (.ttake p) none (getVec .take p) s
/-- TTAKE.M (R324). -/
def execTtakeM (p : R2) (s : State) : Host.Outcome State Fault Refusal := runV (.ttakeM p) none (getMem .take p) s
/-- TLOOK (R324). -/
def execTlook (p : R2) (s : State) : Host.Outcome State Fault Refusal := runV (.tlook p) none (getVec .look p) s
/-- TLOOK.M (R324). -/
def execTlookM (p : R2) (s : State) : Host.Outcome State Fault Refusal := runV (.tlookM p) none (getMem .look p) s

/-- TWAIT at the head of the queue (R325). -/
def twaitBody (p : R1) (s : State) : Res :=
  let v := s.src p.a
  checked [((s.getHandle v).isNone, 0x03, 0x0D)] (fun s => s.getBody .wait v (fun _ t => .ok t)) s

/-- TWAIT (R325). -/
def execTwait (p : R1) (s : State) : Host.Outcome State Fault Refusal := runV (.twait p) none (twaitBody p) s

/-- TDROP at the head of the queue: a full tile becomes empty and a held send may be delivered (R325). -/
def tdropBody (p : R1) (s : State) : Res :=
  let v := s.src p.a
  checked [((s.localTile v).isNone, 0x03, 0x0D)] (fun s =>
    match s.localTile v with
    | some r => .ok (if (s.tile r).full then (s.emptyTile r).pumpAt r else s)
    | none => .ok s) s

/-- TDROP (R325). -/
def execTdrop (p : R1) (s : State) : Host.Outcome State Fault Refusal := runV (.tdrop p) none (tdropBody p) s

/-! ### Sends between modules -/

/-- HOLD_ENTRY_REQUEST: message n, a request for an entry, reaches its module (R320); stale, it is refused (R473). -/
def execHoldEntryRequest (n : Nat) (s : State) : Host.Outcome State Fault Refusal :=
  match s.fabric[n]? with
  | some (.entryReq x) => match s.rankModule x.dest.launch x.dest.rank with
    | none => .next (s.dropMsg n)
    | some m =>
      if !s.modRuns m then .next s
      else if s.liveOn x.dest.launch m then
        .next (((s.dropMsg n).onMod m (fun y => { y with asking := y.asking ++ [x] })).pumpAt x.dest)
      else
        let t := countStale (s.dropMsg n) m true
        .next (match x.hart with
          | some h => { t with fabric := t.fabric ++ [.refusal h 1 x.dest.handle] }
          | none => t)
  | _ => .next s

/-- ENTRY_GRANT: message n tells a sender that it holds its entry (R323). -/
def execEntryGrant (n : Nat) (s : State) : Host.Outcome State Fault Refusal :=
  match s.fabric[n]? with
  | some (.grant h) => .next ((s.dropMsg n).onHart h (fun x => if x.send = .asked then { x with send := .granted } else x))
  | _ => .next s

/-- STALE_REFUSAL: message n returns to the sender, which faults with 0x0F.1 or 0x0F.2; it is discarded when the sender's own
launch is neither resident nor Saved on its module (R473). -/
def execStaleRefusal (n : Nat) (s : State) : Host.Outcome State Fault Refusal :=
  match s.fabric[n]? with
  | some (.refusal h _ tval) =>
    let t := s.dropMsg n
    match s.rankModule h.launch h.rank with
    | none => .next t
    | some m =>
      if !s.liveOn h.launch m then .next t
      else .next (t.onHart h (fun x => { x with
        send := if x.send = .asked then .refused else x.send
        vq := match x.vq with
          | e :: rest => (if e.remote = .sent then { e with remote := .done ⟨0, [], some (0, ⟨mkCause 0x0F 2, tval, true⟩)⟩ } else e) :: rest
          | [] => [] }))
  | _ => .next s

end Sys2Proof.Machine
end

