-- ==== Sys2Proof/Machine/Tasks.lean ====
section
/-! DEFINITION. The task graph and copy engines, PUBLISH, HWPUB and the barriers (R327 to R337, R404). -/

namespace Sys2Proof.Machine

/-! ### The task table -/

/-- A node word (R327). -/
def nodeWord (serial : BitVec 32) (i : Nat) : Word := BitVec.ofNat 64 (serial.toNat * 4096 + i)

/-- An entry of a module's task table that is not Free. -/
def Module.node? (x : Module) (i : Nat) : Option Node :=
  (Tbl.find i x.nodes).bind (fun n => if n.state = .free then none else some n)

/-- The live node of a launch that a node word names on a module (R327, R334). -/
def State.nodeAt (s : State) (m l : Nat) (v : Word) : Option (Nat × Node) :=
  let i := v.toNat % 4096
  ((s.mod? m).bind (fun x => x.node? i)).bind (fun n =>
    if v = nodeWord n.serial i ∧ n.launch = l then some (i, n) else none)

/-- The node of the current hart's launch that a word names. -/
def State.myNode (s : State) (v : Word) : Option (Nat × Node) := s.nodeAt s.cur.mod s.cur.id.launch v

/-- Change a node. -/
def State.onNode (s : State) (m i : Nat) (f : Node → Node) : State :=
  s.onMod m (fun x => match Tbl.find i x.nodes with
    | some n => { x with nodes := Tbl.put i (f n) x.nodes }
    | none => x)

/-- An Armed node whose predecessors have all finished is Ready (R328). -/
def Node.settle (n : Node) (t : Nat) : Node :=
  if n.state = .armed ∧ n.preds = 0 then { n with state := .ready, readyAt := t } else n

/-- A predecessor has finished (R328). -/
def Node.release (n : Node) (t : Nat) : Node := ({ n with preds := n.preds - 1 } : Node).settle t

/-- A node finishes: its entry is Free, its successors' counts fall, the creating hart's event bit is set (R217, R328). -/
def State.finishNode (s : State) (m i : Nat) (n : Node) : State :=
  let t := s.onNode m i (fun x => { x with state := .free, succs := [], faulted := false })
  let t := n.succs.foldl (fun u k => u.onNode m k (fun x => x.release s.tick)) t
  t.onHart n.owner (fun h => { h with event := true })

/-- The lowest Free entry, when the launch's allotment has one (R327, R331; which Free entry is taken is the model's choice, log 14). -/
def State.freeEntry (s : State) (m l : Nat) : Option Nat :=
  match s.mod? m, s.launch? l with
  | some x, some y =>
    if (x.nodes.filter (fun n => n.2.launch == l && !decide (n.2.state = .free))).length < y.pkt.tasks then
      (upto 0 4096).find? (fun i => (x.node? i).isNone)
    else none
  | _, _ => none

/-- Create a node in the Building state and write its word, or 0 when no entry is Free (R327, R328, R331). -/
def State.createNode (s : State) (d : BitVec 6) (k : NodeKind) : Res :=
  match s.freeEntry s.cur.mod s.cur.id.launch with
  | none => s.setD d 0
  | some i =>
    let serial := (((s.mod? s.cur.mod).bind (fun x => Tbl.find i x.nodes)).map (fun n => n.serial + 1)).getD 1
    let n : Node := ⟨serial, .building, k, s.cur.id.launch, s.cur.id, 0, [], 0, 0, false, 0, .none, false⟩
    (s.onMod s.cur.mod (fun x => { x with nodes := Tbl.put i n x.nodes })).setD d (nodeWord serial i)

/-- A tile of the launch on this module (R331, R332). -/
def State.rankTile (s : State) (v : Word) : Option TileRef :=
  match s.handle v with
  | some (.tile r) => if r.rank = s.cur.id.rank then some r else none
  | _ => none

/-! ### NODE.COPY -/

/-- Elements that a job copies: the product of its extents (R331). -/
def CopyJob.count (j : CopyJob) : Nat := (j.dims.map (·.2)).foldl (· * ·) 1
/-- Bytes of an element (R331). -/
def CopyJob.width (j : CopyJob) : Nat := 2 ^ j.wc
/-- Elements of a 4 KiB block. -/
def CopyJob.per (j : CopyJob) : Nat := 4096 / j.width
/-- Blocks of a job. -/
def CopyJob.blocks (j : CopyJob) : Nat := ceilDiv (j.count * j.width) 4096

/-- The byte offset of element i: Σ c_d × S_d, its coordinates the mixed-radix digits of i (R331). -/
def stridedOffset : List (Int × Nat) → Nat → Int
  | [], _ => 0
  | (st, e) :: rest, i => ((i % e : Nat) : Int) * st + stridedOffset rest (i / e)

/-- The layout that NODE.COPY captures: dimension d from element d of the layout register (R331). -/
def State.copyDims (s : State) (c : S10) : List (Int × Nat) :=
  (upto 0 s.cur.cfg.vl.toNat).map (fun d => let w := s.cur.elem c.vidx d; (signed 32 (w / 2 ^ 32), w % 2 ^ 32))

/-- The job of a NODE.COPY (R331). -/
def State.copyJob (s : State) (p : R3) : CopyJob where
  dst := s.src p.a
  src := s.src p.b
  scatter := bit p.imm.toNat 2
  tile := bit p.imm.toNat 3
  readers := BitVec.ofNat 4 (p.imm.toNat / 32)
  wc := p.imm.toNat % 4
  dims := s.copyDims p.c
  atp := s.cur.atp

/-- NODE.COPY at the head of the queue (R331, R428). -/
def nodeCopyBody (p : R3) (s : State) : Res :=
  let j := s.copyJob p
  checked [(decide (s.cur.cfg.nreg ≤ p.c.val.toNat), 0x03, 0x03), (!s.cur.configured, 0x03, 0x05),
    (!decide (s.cur.cfg.etype = 7), 0x03, 0x06), (decide (s.cur.cfg.vl.toNat < 1) || decide (8 < s.cur.cfg.vl.toNat), 0x03, 0x07),
    (j.dims.any (fun d => d.2 == 0) || decide (2 ^ 36 < j.count * j.width) || (j.tile && decide (4096 < j.count * j.width)), 0x03, 0x09),
    (j.tile && (s.rankTile j.dst).isNone, 0x03, 0x0D)] (fun s =>
    s.readAll (upto 0 s.cur.cfg.vl.toNat) (fun i => s.vecWords [p.c.val.toNat] i) (fun s => s.createNode p.d (.copy j))) s

/-- NODE.COPY (R331). -/
def execNodeCopy (p : R3) (s : State) : Host.Outcome State Fault Refusal := runV (.nodeCopy p) none (nodeCopyBody p) s

/-- NODE.CALL at the head of the queue (R332, R428). -/
def nodeCallBody (p : R3) (s : State) : Res :=
  checked [((s.rankTile (s.src p.a)).isNone, 0x03, 0x0D)] (fun s => s.createNode p.d (.call (s.src p.a) (s.src p.b))) s

/-- NODE.CALL (R332). -/
def execNodeCall (p : R3) (s : State) : Host.Outcome State Fault Refusal := runV (.nodeCall p) none (nodeCallBody p) s

/-! ### Edges, arming, waiting -/

/-- A Building node that the current hart created (R333, R334). -/
def State.ownBuilding (s : State) (v : Word) : Option (Nat × Node) :=
  (s.myNode v).bind (fun n => if n.2.state = .building ∧ n.2.owner = s.cur.id then some n else none)

/-- NODE.EDGE at the head of the queue: b becomes a predecessor of a, unless it has finished (R333, R334). -/
def nodeEdgeBody (p : R2) (s : State) : Res :=
  let a := s.src p.a
  let b := s.src p.b
  match s.ownBuilding a, s.myNode b with
  | none, _ => imprecise 0x03 0x0D 0 s
  | some _, none => if a = b then imprecise 0x03 0x0D 0 s else s.setD p.d 0
  | some x, some y =>
    if a = b ∨ 16 ≤ y.2.succs.length then imprecise 0x03 0x0D 0 s
    else ((s.onNode s.cur.mod y.1 (fun n => { n with succs := n.succs ++ [x.1] })).onNode s.cur.mod x.1
      (fun n => { n with preds := n.preds + 1 })).setD p.d 1

/-- NODE.EDGE (R333). -/
def execNodeEdge (p : R2) (s : State) : Host.Outcome State Fault Refusal := runV (.nodeEdge p) none (nodeEdgeBody p) s

/-- NODE.ARM at the head of the queue: the hart's earlier accesses have performed before the node starts (R162, R334). -/
def nodeArmBody (p : R1) (s : State) : Res :=
  match s.ownBuilding (s.src p.a) with
  | none => imprecise 0x03 0x0D 0 s
  | some x => s.afterStores fun t => .ok (t.onNode s.cur.mod x.1 (fun n => ({ n with state := .armed } : Node).settle s.tick))

/-- NODE.ARM (R334). -/
def execNodeArm (p : R1) (s : State) : Host.Outcome State Fault Refusal := runV (.nodeArm p) none (nodeArmBody p) s

/-- NODE.ARM.DONE at the head of the queue: REL at device scope, then the call node finishes (R334). -/
def nodeArmDoneBody (p : R1) (s : State) : Res :=
  match s.myNode (s.src p.a) with
  | none => imprecise 0x03 0x0D 0 s
  | some x => match x.2.kind with
    | .copy _ => imprecise 0x03 0x0D 0 s
    | .call _ _ =>
      if x.2.state = .running then s.afterStores fun t => .ok ((writeBackStacks t s.cur.mod).finishNode s.cur.mod x.1 x.2)
      else imprecise 0x03 0x0D 0 s

/-- NODE.ARM.DONE (R334). -/
def execNodeArmDone (p : R1) (s : State) : Host.Outcome State Fault Refusal :=
  runV (.nodeArmDone p) none (nodeArmDoneBody p) s

/-- NODE.WAIT at the head of the queue: it waits while the word names a live node of the launch; then it is an ACQ at device scope
(R334). -/
def nodeWaitBody (p : R1) (s : State) : Res :=
  let v := s.src p.a
  if (s.myNode v).isSome then .wait v s else s.afterStores fun t => .ok (writeBackStacks t t.cur.mod)

/-- NODE.WAIT (R334). -/
def execNodeWait (p : R1) (s : State) : Host.Outcome State Fault Refusal := runV (.nodeWait p) none (nodeWaitBody p) s

/-! ### The copy engines -/

/-- The virtual ranges of block k on the strided or the packed side of a job (R331). -/
def CopyJob.pieces (j : CopyJob) (strided : Bool) (base : Word) (k : Nat) : List (Nat × Nat) :=
  let i0 := k * j.per
  let n := min j.per (j.count - i0)
  if strided then (upto i0 n).map (fun i => (addrOf base (stridedOffset j.dims i), j.width))
  else [((base.toNat + i0 * j.width) % 2 ^ 64, n * j.width)]

/-- How a copy engine of a module translates; it writes the shadow image of a publishable buffer (R130, R163). -/
def engView (ranks : List Nat) (m : Nat) (atp : Word) (w : Want) : View := ⟨.engine, ranks, m, atp, [], decide (w = .store)⟩

/-- Translate one run for a copy engine: D memory is 0x0A.4 (R163, R434, R440). -/
def State.engPhys (s : State) (ranks : List Nat) (m : Nat) (atp : Word) (w : Want) (va : Nat) : Except Stop Phys :=
  match s.translateAs (engView ranks m atp w) (va % 2 ^ 64) w with
  | .error e => .error e
  | .ok p => if p.dclass then .error (.trap (mkCause 0x0A 4) (BitVec.ofNat 64 va)) else .ok p

/-- Translate runs for a copy engine. -/
def State.engRuns (s : State) (ranks : List Nat) (m : Nat) (atp : Word) (w : Want) : List (Nat × Nat) → Except Stop (List (Nat × Phys × Nat))
  | [] => .ok []
  | (va, n) :: rest => match s.engPhys ranks m atp w va with
    | .error e => .error e
    | .ok p => match s.engRuns ranks m atp w rest with
      | .error e => .error e
      | .ok ps => .ok ((va, p, n) :: ps)

/-- Read translated runs for a copy engine, at the near point (R162). -/
def State.engRead (s : State) : List (Nat × Phys × Nat) → Except Stop (List Byte)
  | [] => .ok []
  | (_, p, n) :: rest => match s.readPhys p n false with
    | .error e => .error e
    | .ok b => match s.engRead rest with
      | .error e => .error e
      | .ok bs => .ok (b ++ bs)

/-- The writes of a copy engine as puts. -/
def engPuts : List (Nat × Phys × Nat) → List Byte → List Put
  | [], _ => []
  | (va, p, n) :: rest, bs => ⟨BitVec.ofNat 64 va, p, bs.take n⟩ :: engPuts rest (bs.drop n)

/-- One write of a copy engine: at the far point where the location has a home stack, else at the near point (R162). -/
def State.engPut (s : State) (readers : Nat) (p : Put) : State :=
  if p.phys.spot.home.isSome || p.phys.uncached then storeFar s p.phys.spot.loc p.bytes (p.phys.readersAt readers)
  else storeNear s p.phys.spot.loc p.bytes

/-- Runs within lines of a list of ranges. -/
def rangeRuns (xs : List (Nat × Nat)) : List (Nat × Nat) := xs.flatMap (fun x => lineRuns (x.2 / 128 + 2) x.1 x.2)

/-- The state as a copy node translates in it: an extent whose closing waits for the node is still open to it (R448). -/
def State.openedFor (s : State) (m : Nat) (serial : BitVec 32) : State :=
  s.onMod m (fun x => { x with extents := x.extents.map (fun e => if e.spare.contains serial then { e with closing := false } else e) })

/-- The read requests of a copy engine: each line once; those of a node that has faulted leave the counts (R141, R439). -/
def State.engCount (s : State) (replay : Bool) (rs : List (Nat × Phys × Nat)) : State :=
  if replay then s else (rs.map (fun r => r.2.1.spot.loc / 128)).dedup.foldl mscRead s

/-- Block k of a node's job: all of it is read, then all of it is written (R331). The result holds the gathered bytes; a stop, what the reads
issued before it leave (R439). -/
def State.copyBlock (s : State) (ranks : List Nat) (m : Nat) (n : Node) (j : CopyJob) (k : Nat) : Except (Stop × State) (State × List Byte) :=
  match (s.openedFor m n.serial).engRuns ranks m j.atp .load (rangeRuns (j.pieces (!j.scatter) j.src k)) with
  | .error e => .error (e, s)
  | .ok rs => match s.engRead rs with
    | .error e => .error (e, s)
    | .ok bs =>
      let t := s.engCount n.replay rs
      if j.tile then .ok (t, bs)
      else match (t.openedFor m n.serial).engRuns ranks m j.atp .store (rangeRuns (j.pieces j.scatter j.dst k)) with
        | .error e => .error (e, t)
        | .ok ws => .ok ((linePuts (engPuts ws bs)).foldl (fun u p => u.engPut j.readers.toNat p) t, bs)

/-- The error record of a faulted copy node (R404, R406): the creating hart's identity, VPC 0, the node word in INFO. What EPC
holds is not stated: it is free (log 33). -/
def nodeErr (s : State) (tag : Word) (m i : Nat) (n : Node) (c : Cause) (tval : Word) : ErrRec where
  valid := true
  ovf := false
  rank := BitVec.ofNat 6 n.owner.rank
  y := BitVec.ofNat 4 n.owner.y
  x := BitVec.ofNat 4 n.owner.x
  hidx := BitVec.ofNat 3 n.owner.hidx
  imp := false
  cause := BitVec.ofNat 12 (c.code.toNat + 256 * (c.sub.toNat % 16))
  tag := tag
  epc := Config.unstated s.free
  vpc := 0
  tval := tval
  info := nodeWord n.serial i
  cycle := BitVec.ofNat 64 (s.cycle m)
  hart := some n.owner
  node := some ⟨m, i, n.serial⟩

/-- A copy node faults: it stays Running in the Faulted condition, its record holds the block not yet written (R404). -/
def State.faultNode (s : State) (m i : Nat) (n : Node) (c : Cause) (tval : Word) : State :=
  let tag := ((s.launch? n.launch).map (·.pkt.tag)).getD 0
  reportRec ((s.onNode m i (fun x => { x with faulted := true, replay := true })).draw) n.launch m (nodeErr s tag m i n c tval)

/-- Whether a virtual range of n bytes meets a publishable buffer. -/
def PubBuf.meets (b : PubBuf) (asid va n : Nat) : Bool := b.asid == asid && decide (va < b.va + b.len) && decide (b.va < va + n)

/-- Whether a job writes a publishable buffer (R335). -/
def CopyJob.writes (j : CopyJob) (b : PubBuf) : Bool :=
  !j.tile && (upto 0 j.blocks).any (fun k => (j.pieces j.scatter j.dst k).any (fun x => b.meets (bits j.atp.toNat 44 16) x.1 x.2))

/-- The publishable buffer that a waiting PUBLISH of a hart names, and the step at which it reached the buffer. -/
def State.publishing (s : State) (h : Hart) : Option (Nat × PubBuf) :=
  match h.got, h.vq.head? with
  | some t, some e => match e.instr with
    | .publish p =>
      let va := ({ s with cur := { h with active := some e } } : State).src p.a
      ((s.mod? h.mod).bind (fun x => x.pub? (bits h.atp.toNat 44 16) va.toNat)).map (fun b => (t, b))
    | _ => none
  | _, _ => none

/-- Whether a buffer as module `m` has it and one as module `n` has it are the same: a domain buffer is one over all modules (R335). -/
def PubBuf.same (b c : PubBuf) (m n : Nat) : Bool :=
  b.asid == c.asid && b.va == c.va && b.dom == c.dom && (b.dom || decide (m = n))

/-- A node that started after a waiting PUBLISH reached its buffer does not write before the flip, nor before the old image is given to the
engine (R163, R335). -/
def State.behindPublish (s : State) (m : Nat) (n : Node) (j : CopyJob) : Bool :=
  s.allHarts.any (fun h => match s.publishing h with
    | some (t, b) => decide (t < n.readyAt) && (b.dom || decide (h.mod = m)) && j.writes b
    | none => false)

/-- Move blocks of a Running node in order, at most `f` of them; a fault stops it at the recorded block, a migration holds it (R404, R331). -/
def State.moveBlocks (s : State) (m i : Nat) (j : CopyJob) : Nat → State
  | 0 => s
  | f + 1 => match (s.mod? m).bind (fun x => x.node? i) with
    | none => s
    | some n =>
      if n.faulted || decide (j.blocks ≤ n.block) || s.behindPublish m n j then s
      else match s.copyBlock (((s.launch? n.launch).map (·.pkt.ranks)).getD [m]) m n j n.block with
        | .error (.trap c v, t) => t.faultNode m i n c v
        | .error (.hold _ _, _) => s
        | .ok (t, bs) => (t.onNode m i (fun x => { x with
            block := n.block + 1
            item := if j.tile then leNat bs else 0 })).moveBlocks m i j f

/-- The first Ready copy node in the order in which nodes became Ready (R329); of several that became so in one step, the one of the lowest
entry (DESIGN CHOICE, log 83). -/
def Module.firstReady (x : Module) : Option Nat :=
  (x.nodes.filter (fun n => decide (n.2.state = .ready) && (match n.2.kind with
    | .copy _ => true
    | .call _ _ => false))).foldl (fun b n => match b with
      | none => some n
      | some c => if n.2.readyAt < c.2.readyAt then some n else b) none |>.map (·.1)

/-- Copy engines in use: those of the Running copy nodes, a Faulted one's among them (R329, R404). -/
def Module.busyEngines (x : Module) : Nat :=
  (x.nodes.filter (fun n => decide (n.2.state = .running) && (match n.2.kind with
    | .copy _ => true
    | .call _ _ => false))).length

/-- COPY_NODE_START: the first Ready copy node takes a free engine (R329); a node that is already Running moves its next block (log 25). -/
def execCopyNodeStart (m i : Nat) (s : State) : Host.Outcome State Fault Refusal :=
  match (s.mod? m).bind (fun x => (x.node? i).map (fun n => (x, n))) with
  | none => .next s
  | some (x, n) => match n.kind with
    | .call _ _ => .next s
    | .copy j =>
      if !s.modRuns m then .next s
      else if n.state = .running then .next (s.moveBlocks m i j 1)
      else if x.firstReady = some i ∧ x.busyEngines < 16 then
        .next (s.onNode m i (fun y => { y with state := .running, readyAt := s.tick }))
      else .next s

/-- COPY_NODE_FINISH: a Running node's remaining blocks move; then it finishes, a tile's item once it is delivered (R162, R328, R331). -/
def execCopyNodeFinish (m i : Nat) (s : State) : Host.Outcome State Fault Refusal :=
  match (s.mod? m).bind (fun x => x.node? i) with
  | none => .next s
  | some n => match n.kind with
    | .call _ _ => .next s
    | .copy j =>
      if !s.modRuns m || !decide (n.state = .running) then .next s
      else
        let t := s.moveBlocks m i j (j.blocks - n.block)
        match (t.mod? m).bind (fun x => x.node? i) with
        | none => .next t
        | some k =>
          if k.faulted || decide (k.block < j.blocks) then .next t
          else if !j.tile then .next (t.finishNode m i k)
          else match k.send with
            | .granted => .next (t.finishNode m i k)
            | .asked => .next t
            | _ => match (t.launch? k.launch).bind (fun l => handleOf k.launch l.pkt j.dst.toNat) with
              | some (.tile r) =>
                let u := (t.onNode m i (fun y => { y with send := .asked })).onMod m (fun x => { x with
                  asking := x.asking ++ [⟨r, some k.item, none, some i⟩] })
                let u := u.pumpAt r
                match (u.mod? m).bind (fun x => x.node? i) with
                | some z => .next (if z.send = .granted then u.finishNode m i z else u)
                | none => .next u
              | _ => .next t

/-- The item of a call node: its word and its argument (R332). -/
def callItem (n : Node) (i : Nat) (arg : Word) : Nat := (nodeWord n.serial i).toNat + arg.toNat * 2 ^ 64

/-- CALL_NODE_DELIVERY: a Ready call node sends its item, and is Running once it is delivered (R328, R332). -/
def execCallNodeDelivery (m i : Nat) (s : State) : Host.Outcome State Fault Refusal :=
  match (s.mod? m).bind (fun x => x.node? i) with
  | none => .next s
  | some n => match n.kind with
    | .copy _ => .next s
    | .call hd arg =>
      if !s.modRuns m || !decide (n.state = .ready) || !decide (n.send = .none) then .next s
      else match (s.launch? n.launch).bind (fun l => handleOf n.launch l.pkt hd.toNat) with
        | some (.tile r) => .next (((s.onNode m i (fun y => { y with send := .asked })).onMod m (fun x => { x with
            asking := x.asking ++ [⟨r, some (callItem n i arg), none, some i⟩] })).pumpAt r)
        | _ => .next s

/-! ### PUBLISH and HWPUB -/

/-- Flip the selector of the buffer at an address: on one module, or on every module for a domain buffer (R163, R335). -/
def State.flip (s : State) (m asid va : Nat) (dom : Bool) : State :=
  { s with mods := s.mods.map (fun c =>
      if dom || c.1 == m then
        (c.1, { c.2 with pubs := c.2.pubs.map (fun b =>
          if b.asid == asid && decide (b.va ≤ va) && decide (va < b.va + b.len) && b.dom == dom then { b with sel := !b.sel } else b) })
      else c) }

/-- An access that translated a buffer under an image has not performed yet: a store that is posted there, or an unfinished instruction that
keeps the image (R163 step 3). -/
def State.imageInUse (s : State) (b : PubBuf) (m : Nat) (image : Bool) : Bool :=
  s.allHarts.any (fun h => !decide (h.phase = .absent) && (b.dom || decide (h.mod = m)) && decide (bits h.atp.toNat 44 16 = b.asid) &&
    (h.unf.sels.contains (b.asid, b.va, image) ||
      s.fabric.any (fun x => match x with
        | .store i va _ _ _ _ a _ => decide (i = h.id) && decide (b.va ≤ va.toNat) && decide (va.toNat < b.va + b.len) &&
            (match s.resolve (s.ranksOf h) h.mod (b.addr image va.toNat) with
              | .ok q => decide (q.loc = a)
              | .error _ => false)
        | _ => false)))

/-- PUBLISH at the head of the queue: in arrival order, once the copy nodes that write the buffer and had started have finished, the selector
flips; then it waits until every access under the old selector has performed, which gives the old image to the engine (R163, R335).
Its waiting is not a wait of R59. That it has flipped the selector is kept in the hart as a granted send. -/
def publishBody (p : R1) (s : State) : Res :=
  let va := (s.src p.a).toNat
  let asid := bits s.cur.atp.toNat 44 16
  match (s.mod? s.cur.mod).bind (fun x => (x.pub? asid va).map (fun b => (x, b))) with
  | none => imprecise 0x03 0x0D 0 s
  | some (x, b) =>
    if s.cur.send = .granted then if s.imageInUse b s.cur.mod (!b.sel) then .stall s else .ok s
    else
      let at_ := s.cur.got.getD s.tick
      let writing := x.nodes.any (fun n => decide (n.2.state = .running) && decide (n.2.readyAt ≤ at_) && (match n.2.kind with
        | .copy j => j.writes b
        | .call _ _ => false))
      let earlier := s.harts.any (fun h => match s.publishing h with
        | some (t, c) => decide (t < at_) && b.same c s.cur.mod h.mod
        | none => false)
      let t := { s with cur := { s.cur with got := some at_ } }
      if writing || earlier then .stall t
      else
        let u := t.flip s.cur.mod asid va b.dom
        if u.imageInUse b s.cur.mod b.sel then .stall { u with cur := { u.cur with send := .granted } } else .ok u

/-- PUBLISH (R335). -/
def execPublish (p : R1) (s : State) : Host.Outcome State Fault Refusal := runV (.publish p) none (publishBody p) s

/-- The update of a high-water cell (R50): the maximum, and closed for good when asked; harts bound to it see an event when
it advances or closes (R217). -/
def State.publishCell (s : State) (l r n v : Nat) (close : Bool) : State :=
  let c := ((s.share? l r).map (fun sh => Tbl.getD sh.cells n ⟨0, false⟩)).getD ⟨0, false⟩
  let c' : HwCell := ⟨max c.index v, c.closed || close⟩
  let t := (s.onShare l r (fun sh => { sh with cells := Tbl.put n c' sh.cells })).bump l r
  if c' = c then t
  else t.onHarts (fun h => h.id.launch == l && h.id.rank == r && h.stream.bound && h.stream.cell.toNat == n)
    (fun h => { h with event := true })

/-- HWPUB at the head of the queue (R51, R336). -/
def hwpubBody (p : R2) (s : State) : Res :=
  let n := (s.src p.a).toNat
  let v := (s.src p.b).toNat
  checked [(decide (64 ≤ n) || decide (2 ^ 63 ≤ v), 0x03, 0x09)] (fun s =>
    s.afterStores fun t => .ok (t.publishCell s.cur.id.launch s.cur.id.rank n v (bit p.sf.toNat 0))) s

/-- HWPUB (R336). -/
def execHwpub (p : R2) (s : State) : Host.Outcome State Fault Refusal := runV (.hwpub p) none (hwpubBody p) s

/-! ### Barriers -/

/-- The key under which a hart counts its BAR.DOMs. -/
def domKey : Nat := 256

/-- The current hart arrives at a barrier of a size: once per instruction (R337). -/
def State.arrive (s : State) (key : Nat) : State :=
  if s.cur.atBar then s
  else
    let t := s.bump s.cur.id.launch s.cur.id.rank
    { t with cur := { t.cur with atBar := true, bars := Tbl.put key (Tbl.getD t.cur.bars key 0 + 1) t.cur.bars } }

/-- A hart has arrived at the n-th barrier of a size, or has Ended (R337). -/
def Hart.arrivedAt (h : Hart) (key n : Nat) : Bool := decide (h.phase = .ended) || decide (n ≤ Tbl.getD h.bars key 0)

/-- The harts of the current hart's launch on its module. -/
def State.peers (s : State) : List Hart :=
  s.allHarts.filter (fun h => h.id.launch == s.cur.id.launch && h.id.rank == s.cur.id.rank && !decide (h.phase = .absent))

/-- BAR at the head of the queue: a release at launch scope, then the n-th barrier of its size over the hart's aligned
subrectangle (R43, R165, R337). -/
def barBody (p : R1) (s : State) : Res :=
  let v := s.src p.a
  let (w, h) := match s.launch? s.cur.id.launch with
    | some l => (l.pkt.wid, l.pkt.hgt)
    | none => (1, 1)
  let bw := if bits v.toNat 0 4 = 0 then w else bits v.toNat 0 4
  let bh := if bits v.toNat 4 4 = 0 then h else bits v.toNat 4 4
  checked [(decide (w % bw ≠ 0) || decide (h % bh ≠ 0), 0x03, 0x0D)] (fun s => s.afterStores fun u =>
    let key := bw + 16 * bh
    let t := u.arrive key
    let n := Tbl.getD t.cur.bars key 0
    let mine := t.peers.filter (fun g => g.id.x / bw == t.cur.id.x / bw && g.id.y / bh == t.cur.id.y / bh)
    if mine.all (fun g => g.arrivedAt key n) then .ok t else .wait v t) s

/-- BAR (R337). -/
def execBar (p : R1) (s : State) : Host.Outcome State Fault Refusal := runV (.bar p) none (barBody p) s

/-- The arrivals that a share has seen from harts of other modules: the count of one hart. -/
def Share.seen (sh : Share) (h : HartId) : Nat := ((sh.domSeen.find? (fun c => decide (c.1 = h))).map (·.2)).getD 0

/-- A BAR.DOM arrival is told to every other module of the launch (R337). -/
def State.tellArrival (s : State) (ranks : List Nat) : State :=
  if s.cur.atBar then s
  else
    let t := s.arrive domKey
    { t with fabric := t.fabric ++ (ranks.filter (· ≠ s.cur.mod)).map (fun m =>
        Msg.barDom s.cur.id.launch m s.cur.id (Tbl.getD t.cur.bars domKey 0)) }

/-- A BAR.DOM that faults arrives again when it is replayed (R473). -/
def State.unarrive (s : State) : State :=
  let n := Tbl.getD s.cur.bars domKey 0
  { s with cur := { s.cur with
      atBar := false
      send := .none
      bars := (if s.cur.atBar then Tbl.put domKey (n - 1) s.cur.bars else s.cur.bars) } }

/-- BAR.DOM at the head of the queue: release at domain scope, then arrival at every module of the launch (R165, R337); a
lost rank is 0x0F.3 or 0x0F.4 (R475), a stale arrival 0x0F.2 (R473). -/
def barDomBody (s : State) : Res :=
  let ranks := s.ranksOf s.cur
  if s.cur.send = .refused then .trap ⟨mkCause 0x0F 2, 0, true⟩ s.unarrive
  else match s.lostStore with
    | some va => .trap ⟨mkCause 0x0F 3, va, true⟩ s.unarrive
    | none =>
      if ranks.any s.rankLost then .trap ⟨mkCause 0x0F 4, 0, true⟩ s.unarrive
      else s.afterStores fun _ =>
        let t := (if s.cur.atBar then s else writeBack s.acknowledged locHbm).tellArrival ranks
        let t := { t with cur := { t.cur with send := .asked } }
        let n := Tbl.getD t.cur.bars domKey 0
        let seen := fun h : Hart => match t.share? t.cur.id.launch t.cur.id.rank with
          | some sh => decide (h.phase = .ended) || decide (n ≤ sh.seen h.id)
          | none => true
        let others := t.allHarts.filter (fun h => h.id.launch == t.cur.id.launch && !(h.id.rank == t.cur.id.rank) && !decide (h.phase = .absent))
        if t.peers.all (fun g => g.arrivedAt domKey n) && others.all seen then .ok t else .wait 0 t

/-- BAR.DOM (R337). -/
def execBarDom (p : R1) (s : State) : Host.Outcome State Fault Refusal := runV (.barDom p) none barDomBody s

/-- BAR_DOM_MESSAGE: message n, an arrival of a hart of another module (R337); stale, it is refused (R473). -/
def execBarDomMessage (n : Nat) (s : State) : Host.Outcome State Fault Refusal :=
  match s.fabric[n]? with
  | some (.barDom l m h k) =>
    if !s.modRuns m then .next s
    else if !s.liveOn l m then
      let t := countStale (s.dropMsg n) m false
      .next { t with fabric := t.fabric ++ [.refusal h 2 0] }
    else
      let r := (((s.launch? l).map (·.pkt.ranks)).getD []).idxOf m
      Host.Outcome.next (((s.dropMsg n).onShare l r (fun sh => { sh with
        domSeen := (h, max k (sh.seen h)) :: sh.domSeen.filter (fun c => !decide (c.1 = h)) })).bump l r)
  | _ => .next s

end Sys2Proof.Machine
end

