-- ==== Sys2Proof/Machine/Cache.lean ====
section
/-! DEFINITION. Key-value cache paging: structures, the key-value instructions, Autumn and index removal (R339 to R359, R451 to R453). -/

namespace Sys2Proof.Machine

/-! ### Accesses to structures -/

/-- Who works on the cache: the domain's modules by rank, the acting module, its page tables and its cache root. -/
structure KvCx where
  ranks : List Nat
  m : Nat
  atp : Word
  root : Nat

/-- A computation on the cache: it gives a value and a new state, or stops and changes nothing (R451). -/
abbrev Kv := StateT State (Except Stop)

/-- A key-value structure fault (R434): sr.tval holds the address of the structure (R392). -/
def kvFail {α : Type} (sub va : Nat) : Kv α := fun _ => .error (.trap (mkCause 0x0C sub) (BitVec.ofNat 64 va))

/-- Raise a structure fault when a condition holds. -/
def kvCheck (b : Bool) (sub va : Nat) : Kv Unit := fun s =>
  if b then .error (.trap (mkCause 0x0C sub) (BitVec.ofNat 64 va)) else .ok ((), s)

/-- How module `m` translates the addresses of structures: under the acting hart's sr.atp (R341, log 34). -/
def KvCx.view (cx : KvCx) (m : Nat) : View := ⟨.engine, cx.ranks, m, cx.atp, [], false⟩

/-- Translate the runs of a structure on a module (R341). -/
def kvRuns (cx : KvCx) (m : Nat) (w : Want) (s : State) : List (Nat × Nat) → Except Stop (List (Phys × Nat))
  | [] => .ok []
  | (va, n) :: rest => match s.translateAs (cx.view m) (va % 2 ^ 64) w with
    | .error e => .error e
    | .ok p => match kvRuns cx m w s rest with
      | .error e => .error e
      | .ok ps => .ok ((p, n) :: ps)

/-- Read `n` bytes of a structure at the near point of module `m` (R347). -/
def kvRead (cx : KvCx) (m va n : Nat) : Kv Nat := fun s =>
  match kvRuns cx m .load s (lineRuns (n / 128 + 2) va n) with
  | .error e => .error e
  | .ok ps => match s.readRuns false ps with
    | .error e => .error e
    | .ok bs => .ok (leNat bs, s)

/-- The same as a vector-queue read of the current hart: after its own earlier stores of that queue, and counted (R153, R355). -/
def kvReadVec (cx : KvCx) (m va n : Nat) : Kv Nat := fun s =>
  match kvRuns cx m .load s (lineRuns (n / 128 + 2) va n) with
  | .error e => .error e
  | .ok ps => match (s.settleRuns true ps).readRuns false ps with
    | .error e => .error e
    | .ok bs => .ok (leNat bs, countReads (s.settleRuns true ps) (runReqs ps))

/-- Write bytes over runs, at the near point or, for an uncached page, the far point. -/
def putRuns (s : State) : List (Phys × Nat) → List Byte → State
  | [], _ => s
  | (p, n) :: rest, bs => putRuns (s.putPhys p (bs.take n) 0) rest (bs.drop n)

/-- Write `n` bytes of a structure (R347). -/
def kvWrite (cx : KvCx) (m va n v : Nat) : Kv Unit := fun s =>
  match kvRuns cx m .store s (lineRuns (n / 128 + 2) va n) with
  | .error e => .error e
  | .ok ps => .ok ((), putRuns s ps (leBytes n v))

/-! ### The cache root -/

/-- A cache root (R341): its module, address and words. -/
structure KvRoot where
  m : Nat
  va : Nat
  base : Nat
  geo : Nat
  gtab : Nat
  ng : Nat
  gfree : Nat
  sfree : List Nat
  pidx : Nat
  nb : Nat
  deriving DecidableEq, Repr

/-- Q of the geometry word, as D = 32Q (R339, R341). -/
def KvRoot.dim (r : KvRoot) : Nat := 32 * (r.geo % 4 + 1)
/-- NR (R341). -/
def KvRoot.nr (r : KvRoot) : Nat := bits r.geo 8 6 + 1

/-- Read a root of a module and check its alignments (R341, R359); its words that have no field go with it. What its translation raises is the
lower code and comes first (R416). -/
def kvRootRead (cx : KvCx) (m : Nat) : Kv (KvRoot × Nat) := do
  let w ← kvRead cx m cx.root 128
  kvCheck (cx.root % 64 != 0) 1 cx.root
  let f := fun k => bits w (64 * k) 64
  let r : KvRoot := ⟨m, cx.root, f 0, f 1, f 2, f 3 % 2 ^ 32, f 4, (upto 5 8).map f, f 13, f 14 % 2 ^ 32⟩
  kvCheck (r.gtab % 8 != 0 || r.gfree % 8 != 0 || r.sfree.any (fun a => a % 8 != 0) || r.pidx % 512 != 0) 1 cx.root
  return (r, f 3 / 2 ^ 32 + f 14 / 2 ^ 32 + f 15)

/-- Check the fields of a root (R341, R359). -/
def kvRootCheck (cx : KvCx) (r : KvRoot × Nat) : Kv Unit :=
  kvCheck (r.1.base % 2 ^ 47 != 0 || bits r.1.geo 14 50 != 0 || bits r.1.geo 3 5 != 0 || r.2 != 0 || r.1.ng == 0 || r.1.nb == 0 ||
    decide (2 ^ 24 < r.1.nb) || r.1.nb &&& (r.1.nb - 1) != 0) 2 cx.root

/-- Read and check a root of a module (R341, R359). -/
def kvRootAt (cx : KvCx) (m : Nat) : Kv KvRoot := do
  let r ← kvRootRead cx m
  kvRootCheck cx r
  return r.1

/-- The root of a rank, whose geometry word agrees with that of the acting module's root (R341, R359); a rank outside the
domain is 0x0C.5 at `va`, a lost one 0x0F.3 (R475). -/
def kvRoot (cx : KvCx) (rank va : Nat) : Kv KvRoot := do
  match cx.ranks[rank]? with
  | none => kvFail 5 va
  | some m =>
    let s ← get
    if ((s.mod? cx.m).map (fun x => x.lost.contains m)).getD false then
      (fun _ => .error (.trap (mkCause 0x0F 3) (BitVec.ofNat 64 cx.root)) : Kv Unit)
    let mine ← kvRootAt cx cx.m
    if m = cx.m then return mine
    let r ← kvRootAt cx m
    kvCheck (r.geo != mine.geo) 2 cx.root
    return r

/-! ### Pages -/

/-- Slot size of a class (R339). -/
def slotSize (dim cls : Nat) : Nat := ([16, 32, 48, 64].getD cls 64) * dim

/-- Slots per 2 MiB chunk (R340). -/
def slotsPer (dim cls : Nat) : Nat := 2 ^ 21 / slotSize dim cls

/-- A slot index beyond its slab (R340). -/
def slotBad (dim cls j : Nat) : Bool := decide (2 ^ 17 * slotsPer dim cls ≤ j)

/-- The virtual address of a slot (R340). -/
def pageVa (base dim rank tier cls j : Nat) : Nat :=
  (base + rank * 2 ^ 41 + tier * 2 ^ 40 + cls * 2 ^ 38 + j / slotsPer dim cls * 2 ^ 21 +
    j % slotsPer dim cls * slotSize dim cls) % 2 ^ 64

/-- Row r of a page as (offset, length) pieces: a run of bytes, or each field of the blocks of a KB row (R102, R339). -/
def rowPieces (dim cls r : Nat) : List (Nat × Nat) :=
  match cls with
  | 1 => [(r * dim, dim)]
  | 3 => [(r * (2 * dim), 2 * dim)]
  | _ =>
    let n := if cls = 0 then 2 else 7
    (upto 0 (dim / 16)).flatMap (fun b =>
      let e := r * dim + 16 * b
      let c := e / 512 * kbChunk n
      let k := e % 512 / 16
      [(c + k, 1), (c + 32 + k, 1), (c + 64 + 2 * k, 2)] ++ (upto 0 n).map (fun j => (c + 128 + 64 * j + 2 * k, 2)))

/-- Copy bytes between pages: read at the near point as vector-queue reads of the hart, written at the far point of the home stack, never in D memory (R347, R440). -/
def kvCopy (cx : KvCx) (src dst n : Nat) : Kv Unit := fun s =>
  let trans := fun (va : Nat) (w : Want) => match kvRuns cx cx.m w s (lineRuns (n / 128 + 2) va n) with
    | .error e => (.error e : Except Stop (List (Phys × Nat)))
    | .ok ps => if ps.any (fun p => p.1.dclass) then .error (.trap (mkCause 0x0A 5) (BitVec.ofNat 64 va)) else .ok ps
  match trans src .load with
  | .error e => .error e
  | .ok ps => match trans dst .store with
    | .error e => .error e
    | .ok qs => match (s.settleRuns true ps).readRuns false ps with
      | .error e => .error e
      | .ok bs =>
        let t := countReads (s.settleRuns true ps) (runReqs ps)
        .ok ((), (qs.foldl (fun (c : State × List Byte) q =>
          (c.1.engPut 0 ⟨0, q.1, c.2.take q.2⟩, c.2.drop q.2)) (t, bs)).1)

/-- Copy one row between pages. -/
def kvRow (cx : KvCx) (dim cls src dst r q : Nat) : Kv Unit :=
  ((rowPieces dim cls r).zip (rowPieces dim cls q)).forM (fun x => kvCopy cx (src + x.1.1) (dst + x.2.1) x.1.2)

/-- Copy the key row and the value row of a token (R350, R356). -/
def kvToken (cx : KvCx) (dim cls src dst r q : Nat) : Kv Unit := do
  kvRow cx dim cls src dst r q
  kvRow cx dim cls src dst (16 + r) (16 + q)

/-! ### Free stacks and second-stage entries -/

/-- Pop a free stack (R342). -/
def kvPop (cx : KvCx) (m va : Nat) : Kv Nat := do
  let h ← kvRead cx m va 8
  let top := h % 2 ^ 32
  kvCheck (top == 0) 4 va
  let v ← kvRead cx m (va + 8 + 4 * (top - 1)) 4
  kvWrite cx m va 8 (h - 1)
  return v

/-- Push onto a free stack (R342). -/
def kvPush (cx : KvCx) (m va v : Nat) : Kv Unit := do
  let h ← kvRead cx m va 8
  let top := h % 2 ^ 32
  kvCheck (decide (h / 2 ^ 32 ≤ top)) 0xC va
  kvWrite cx m (va + 8 + 4 * top) 4 v
  kvWrite cx m va 8 (h + 1)

/-- A Live second-stage entry that a block word names. -/
structure KvEntry where
  root : KvRoot
  rank : Nat
  tier : Nat
  gbn : Nat
  ea : Nat
  word : Nat
  deriving DecidableEq, Repr

/-- Class of an entry (R344). -/
def KvEntry.cls (x : KvEntry) : Nat := bits x.word 48 2
/-- Reference count of an entry (R344). -/
def KvEntry.ref (x : KvEntry) : Nat := bits x.word 32 16
/-- Slot of an entry (R344). -/
def KvEntry.slot (x : KvEntry) : Nat := x.word % 2 ^ 32
/-- Address of the entry's page (R340, R344). -/
def KvEntry.page (x : KvEntry) (base : Nat) : Nat := pageVa base x.root.dim x.rank x.tier x.cls x.slot

/-- The Live entry that a block word names; `va` is the structure that holds the word (R344, R359, R434). Only a Live entry's SLOT is tested
against its slab: one that is not Live is 0x0C.6 whatever its SLOT holds (DESIGN CHOICE, log 85). -/
def kvEntry (cx : KvCx) (w va : Nat) : Kv KvEntry := do
  kvCheck (!bit w 63 || bits w 56 7 != 0 || bits w 32 16 != 0 || decide (1 < bits w 54 2)) 5 va
  let r ← kvRoot cx (bits w 48 6) va
  let g := w % 2 ^ 32
  kvCheck (decide (r.ng ≤ g)) 5 va
  let ea := r.gtab + 8 * g
  let x ← kvRead cx r.m ea 8
  let e : KvEntry := ⟨r, bits w 48 6, bits w 54 2, g, ea, x⟩
  kvCheck (bit x 62 && !bit x 63 && slotBad r.dim e.cls e.slot) 2 ea
  kvCheck (bits x 50 2 != bits w 54 2) 5 va
  kvCheck (bits x 62 2 != 1) 6 ea
  return e

/-- Write an entry's reference count; above 65,535 it is 0x0C.7 (R352). -/
def kvSetRef (cx : KvCx) (x : KvEntry) (n : Nat) : Kv Unit := do
  kvCheck (decide (65535 < n)) 7 x.ea
  kvWrite cx x.root.m x.ea 8 (setBits x.word 32 16 n)

/-- One more reference to the page of a block word (R352). -/
def kvShare (cx : KvCx) (w va : Nat) : Kv Unit := do
  let x ← kvEntry cx w va
  kvSetRef cx x (x.ref + 1)

/-- One reference fewer; at zero the page is freed: its slot, then its block number are pushed (R352, R387). The number of
pages freed. -/
def kvDrop (cx : KvCx) (w va : Nat) : Kv Nat := do
  let x ← kvEntry cx w va
  if 1 < x.ref then
    kvSetRef cx x (x.ref - 1)
    return 0
  else
    kvWrite cx x.root.m x.ea 8 (setBits (setBits x.word 32 16 0) 62 2 0)
    kvPush cx x.root.m (x.root.sfree.getD (4 * x.tier + x.cls) 0) x.slot
    kvPush cx x.root.m x.root.gfree x.gbn
    return 1

/-- A new page of a rank, tier and class (R350): its block word and its address. -/
def kvAlloc (cx : KvCx) (base rank tier cls va : Nat) : Kv (Nat × Nat) := do
  let r ← kvRoot cx rank va
  let g ← kvPop cx r.m r.gfree
  let j ← kvPop cx r.m (r.sfree.getD (4 * tier + cls) 0)
  kvCheck (slotBad r.dim cls j) 2 (r.sfree.getD (4 * tier + cls) 0)
  kvCheck (decide (r.ng ≤ g)) 5 r.gfree
  kvWrite cx r.m (r.gtab + 8 * g) 8 (2 ^ 62 + tier * 2 ^ 50 + cls * 2 ^ 48 + 2 ^ 32 + j)
  return (2 ^ 63 + tier * 2 ^ 54 + rank * 2 ^ 48 + g, pageVa base r.dim rank tier cls j)

/-! ### Sequence descriptors -/

/-- A sequence descriptor (R343). -/
structure KvSeq where
  va : Nat
  ltab : Nat
  cap : Nat
  len : Nat
  stab : Nat
  arank : Nat
  atier : Nat
  acls : Nat
  deriving DecidableEq, Repr

/-- Blocks of a sequence: ⌈LEN / 16⌉ (R343). -/
def KvSeq.blocks (d : KvSeq) : Nat := ceilDiv d.len 16

/-- Read and check a descriptor, and with it the cache root of its module (R343, R359); what its translation raises comes first (R416). -/
def kvSeq (cx : KvCx) (va : Nat) : Kv KvSeq := do
  let w ← kvRead cx cx.m va 64
  kvCheck (va % 64 != 0) 1 va
  let f := fun k => bits w (64 * k) 64
  let d : KvSeq := ⟨va, f 0, f 1 / 2 ^ 32, f 1 % 2 ^ 32, f 2, bits (f 3) 8 6, bits (f 3) 2 2, f 3 % 4⟩
  kvCheck (d.ltab % 8 != 0 || d.stab % 4 != 0) 1 va
  let r ← kvRootRead cx cx.m
  kvCheck (d.cap == 0 || decide (2 ^ 26 < d.cap) || decide (16 * d.cap < d.len) || bits (f 3) 14 50 != 0 || bits (f 3) 4 4 != 0 ||
    decide (1 < d.atier) || decide (cx.ranks.length ≤ d.arank) || bits w 256 256 != 0) 2 va
  kvRootCheck cx r
  return d

/-- Entry b of the local table (R343). -/
def kvLocal (cx : KvCx) (d : KvSeq) (b : Nat) : Kv Nat := kvRead cx cx.m (d.ltab + 8 * b) 8
/-- Write entry b of the local table. -/
def kvSetLocal (cx : KvCx) (d : KvSeq) (b w : Nat) : Kv Unit := kvWrite cx cx.m (d.ltab + 8 * b) 8 w
/-- Write LEN. -/
def kvSetLen (cx : KvCx) (d : KvSeq) (n : Nat) : Kv Unit := kvWrite cx cx.m (d.va + 8) 8 (d.cap * 2 ^ 32 + n)

/-! ### The operations -/

/-- The page word (R345). -/
def pageWord (va n row : Nat) : Nat := va + n * 2 ^ 4 + row

/-- KVXL (R349). KVXL.E returns the block word as it stands: none of R344's and R359's conditions on a block word is tested, since the instruction
follows it nowhere (DESIGN CHOICE, log 84). -/
def kvTranslate (cx : KvCx) (e : Bool) (a b : Nat) : Kv Nat := do
  let d ← kvSeq cx a
  kvCheck (decide (d.len ≤ b)) 3 a
  let w ← kvLocal cx d (b / 16)
  if e then return w
  let x ← kvEntry cx w a
  let r ← kvRootAt cx cx.m
  return pageWord (x.page r.base) (min 16 (d.len - 16 * (b / 16))) (b % 16)

/-- Release blocks in ascending order (R352, R387): the pages freed. -/
def kvReleaseAll (cx : KvCx) (d : KvSeq) : List Nat → Kv Nat
  | [] => return 0
  | b :: rest => do
    let w ← kvLocal cx d b
    let n ← kvDrop cx w d.va
    kvSetLocal cx d b 0
    let k ← kvReleaseAll cx d rest
    return n + k

/-- KVREL (R352). -/
def kvRelease (cx : KvCx) (a b : Nat) : Kv Nat := do
  let d ← kvSeq cx a
  let n ← kvReleaseAll cx d (upto b (d.blocks - b))
  kvSetLen cx d (min d.len (16 * b))
  return n

/-- Set scores from a position on to +0 (R350). -/
def kvClear (cx : KvCx) (d : KvSeq) (p n : Nat) : Kv Unit :=
  if d.stab = 0 then return () else (upto p n).forM (fun k => kvWrite cx cx.m (d.stab + 4 * k) 4 0)

/-- The page of a sequence's last block that a KVAPP would find shared (R350, R452): the first of its two steps. -/
def kvShared (cx : KvCx) (a : Nat) : Kv Bool := do
  let d ← kvSeq cx a
  if d.len % 16 = 0 ∨ d.cap ≤ d.len / 16 then return false
  let w ← kvLocal cx d (d.len / 16)
  let x ← kvEntry cx w a
  return decide (1 < x.ref)

/-- KVAPP (R350), with the outcome of its copy-on-write test (R452). -/
def kvAppend (cx : KvCx) (shared : Bool) (a b : Nat) : Kv Nat := do
  let d ← kvSeq cx a
  let blk := d.len / 16
  let row := d.len % 16
  let n := min b (16 - row)
  kvCheck (decide (d.cap ≤ blk)) 3 a
  let r ← kvRootAt cx cx.m
  let page ← (if row = 0 then do
      let p ← kvAlloc cx r.base d.arank d.atier d.acls a
      kvSetLocal cx d blk p.1
      return p.2
    else do
      let w ← kvLocal cx d blk
      let x ← kvEntry cx w a
      if shared then
        let p ← kvAlloc cx r.base d.arank d.atier x.cls a
        (upto 0 row).forM (fun k => kvToken cx r.dim x.cls (x.page r.base) p.2 k k)
        let _ ← kvDrop cx w a
        kvSetLocal cx d blk p.1
        return p.2
      else return x.page r.base : Kv Nat)
  kvClear cx d d.len n
  kvSetLen cx d (d.len + n)
  return pageWord page n row

/-- KVMAP (R351). -/
def kvInstall (cx : KvCx) (own : Bool) (a b c : Nat) : Kv Nat := do
  let d ← kvSeq cx a
  let append := decide (d.len % 16 = 0) && decide (b = d.len / 16) && decide (b < d.cap)
  kvCheck (!decide (b < d.blocks) && !append) 3 a
  let x ← kvEntry cx c a
  if b < d.blocks then
    let old ← kvLocal cx d b
    let y ← kvEntry cx old a
    if y.root.m = x.root.m ∧ y.gbn = x.gbn then
      if own then
        let _ ← kvDrop cx old a
    else
      if !own then kvSetRef cx x (x.ref + 1)
      let _ ← kvDrop cx old a
    kvSetLocal cx d b c
    return old
  else
    if !own then kvSetRef cx x (x.ref + 1)
    kvSetLocal cx d b c
    kvSetLen cx d (d.len + 16)
    return 0

/-- KVFORK (R352). -/
def kvFork (cx : KvCx) (a b n : Nat) : Kv Nat := do
  let src ← kvSeq cx a
  let tgt ← kvSeq cx b
  let nb := ceilDiv n 16
  kvCheck (decide (tgt.cap < nb)) 3 b
  kvCheck (decide (tgt.len ≠ 0) || decide (src.len < n)) 8 b
  (upto 0 nb).forM (fun k => do
    let w ← kvLocal cx src k
    kvShare cx w a
    kvSetLocal cx tgt k w)
  kvSetLen cx tgt n
  return nb

/-- The old pages of a KVKEEP: their addresses, each of class ACLASS (R356). -/
def kvOldPages (cx : KvCx) (d : KvSeq) (base : Nat) : List Nat → Kv (List Nat)
  | [] => return []
  | b :: rest => do
    let w ← kvLocal cx d b
    let x ← kvEntry cx w d.va
    kvCheck (x.cls != d.acls) 0xA d.va
    let ps ← kvOldPages cx d base rest
    return x.page base :: ps

/-- Allocate the new pages of a KVKEEP in ascending order (R356, R387). -/
def kvNewPages (cx : KvCx) (d : KvSeq) (base : Nat) : Nat → Kv (List (Nat × Nat))
  | 0 => return []
  | n + 1 => do
    let p ← kvAlloc cx base d.arank d.atier d.acls d.va
    let ps ← kvNewPages cx d base n
    return p :: ps

/-- KVKEEP (R356); an empty keep-set has the effect of KVREL with b = 0. -/
def kvKeep (cx : KvCx) (a : Nat) (keep : List Nat) : Kv Nat := do
  if keep.isEmpty then kvRelease cx a 0
  else
    let d ← kvSeq cx a
    let r ← kvRootAt cx cx.m
    kvCheck (keep.any (fun p => decide (d.len ≤ p))) 0xA a
    let old ← kvOldPages cx d r.base (upto 0 d.blocks)
    let new ← kvNewPages cx d r.base (ceilDiv keep.length 16)
    (keep.zipIdx).forM (fun x => do
      kvToken cx r.dim d.acls (old.getD (x.1 / 16) 0) ((new.getD (x.2 / 16) (0, 0)).2) (x.1 % 16) (x.2 % 16)
      if d.stab ≠ 0 then
        let v ← kvRead cx cx.m (d.stab + 4 * x.1) 4
        kvWrite cx cx.m (d.stab + 4 * x.2) 4 v)
    let _ ← kvReleaseAll cx d (upto 0 d.blocks)
    (new.zipIdx).forM (fun x => kvSetLocal cx d x.2 x.1.1)
    kvSetLen cx d keep.length
    return keep.length

/-- The address of a score table for an instruction that needs one (R354, R355, R434). -/
def kvScores (cx : KvCx) (a : Nat) : Kv KvSeq := do
  let d ← kvSeq cx a
  kvCheck (d.stab == 0) 9 a
  return d

/-- Whether score x ranks before score y: greater first, −0 equal to +0, a NaN last (R355). -/
def scoreBefore (x y : Nat) : Bool := (!(f32 x).isNan && (f32 y).isNan) || ltFV (f32 y) (f32 x)

/-- KVTOPK: the positions chosen, ascending (R355). -/
def kvTop (cx : KvCx) (a k lo hi : Nat) : Kv (List Nat) := do
  let d ← kvScores cx a
  let n := min hi d.len - lo
  if k = 0 ∨ n = 0 then return []
  let all ← kvReadVec cx cx.m (d.stab + 4 * lo) (4 * n)
  let score := fun p => bits all (32 * (p - lo)) 32
  return rankSort (fun p q => decide (p < q)) ((rankSort (fun p q => scoreBefore (score p) (score q)) (upto lo n)).take k)

/-- The message that a prefix-index key hashes: ids, then the parent link (R357). -/
def kvKey (ids link : Nat) : Nat := leNat (shake256 8 (leBytes 64 ids ++ leBytes 8 link))

/-- Entry k of a bucket of 512 bytes. -/
def bucketEntry (w k : Nat) : Nat := bits w (1024 * k) 1024

/-- An entry matches key, parent link and ids (R357). -/
def entryMatches (e key link ids : Nat) : Bool :=
  bit (bits e 128 64) 63 && bits e 0 64 == key && bits e 64 64 == link && bits e 256 512 == ids

/-- KVPIDX on the owning rank's bucket (R358). -/
def kvIndex (cx : KvCx) (ids link key : Nat) (ins : Option Nat) : Kv Nat := do
  let r0 ← kvRootAt cx cx.m
  kvCheck (decide (cx.ranks.length ≤ key % r0.nr)) 2 cx.root
  let r ← kvRoot cx (key % r0.nr) cx.root
  let va := r.pidx + 512 * (key / 64 % r.nb)
  let w ← kvRead cx r.m va 512
  match (upto 0 4).find? (fun k => entryMatches (bucketEntry w k) key link ids) with
  | some k =>
    let bw := bits (bucketEntry w k) 128 64
    kvShare cx bw va
    return bw
  | none => match ins with
    | none => return 0
    | some c => do
      kvShare cx c va
      match (upto 0 4).find? (fun k => !bit (bits (bucketEntry w k) 128 64) 63) with
      | none => kvFail 0xB va
      | some k =>
        kvWrite cx r.m (va + 128 * k) 128 (key + link * 2 ^ 64 + c * 2 ^ 128 + ids * 2 ^ 256)
        return c

/-! ### Running a key-value instruction -/

/-- What running gives: its result, or a second step that is still to come (R452). -/
inductive KvOut where
  | done (o : FarOut)
  | again (s : State)

/-- A key-value instruction: its 0x03 conditions, the module that executes it, what it does, and what it has read before
its request leaves. -/
structure KvOp where
  conds : State → List (Bool × Nat × Nat)
  home : State → Except Stop Nat
  run : State → KvOut
  keep : State → Option Nat := fun _ => none

/-- The cache context of the current hart: its root is in k255 (R341). -/
def State.kvCx (s : State) : KvCx := ⟨s.ranksOf s.cur, s.cur.mod, s.cur.atp, (s.kread 255).toNat⟩

/-- The module that holds a descriptor (R343); a misaligned one is found where it is issued, after what its translation raises (R416). -/
def State.kvHome (s : State) (va : Nat) : Except Stop Nat :=
  match s.translate va .load with
  | .error e => .error e
  | .ok p => if va % 64 ≠ 0 then .error (.trap (mkCause 0x0C 1) (BitVec.ofNat 64 va)) else .ok p.spot.m

/-- A result that is one register value, from a computation on the cache. -/
def kvRun (s : State) (f : Kv Nat) : KvOut :=
  match f s with
  | .ok (v, t) => .done ⟨t, 0, [(0, v)], none⟩
  | .error e => .done ⟨s, 0, [], some (0, e)⟩

/-- Location of a descriptor, by which operations on it are ordered (R347). -/
def State.seqLoc (s : State) (va : Nat) : Option Nat :=
  match s.translate va .load with
  | .ok p => some p.spot.loc
  | .error _ => none

/-- Another hart's KVAPP on a descriptor is between its two steps (R347, R452). -/
def State.seqBusy (s : State) (vas : List Nat) : Bool :=
  s.harts.any (fun h => match h.got, h.vq.head? with
    | some x, some e => (match e.instr with
      | .kvapp _ => vas.any (fun v => s.seqLoc v == some x)
      | _ => false)
    | _, _ => false)

/-- Run a computation on descriptors unless one of them is between the steps of another hart's KVAPP. -/
def kvOn (s : State) (vas : List Nat) (f : State → KvOut) : KvOut := if s.seqBusy vas then .again s else f s

/-- The result reaches the hart: flags, and a scalar register or the elements of a vector register. -/
def kvFinish (d : BitVec 6) (vec : Bool) (s : State) (flags : Flags) (data : List (Nat × Nat)) (stop : Option (Nat × Stop)) : Res :=
  let t := (s.raise flags).noRequest
  let t := { t with cur := { t.cur with got := none } }
  match stop with
  | some (k, e) => e.res true (t.stopAt k)
  | none =>
    if vec then .ok (t.writeVec (vd d) data)
    else .ok (match data.head? with
      | some x => t.setG (gd d) (BitVec.ofNat 64 x.2)
      | none => t)

/-- A key-value instruction at the head of the queue: checked, then executed at the module that owns its structure (R346, R347). -/
def kvBody (op : KvOp) (d : BitVec 6) (vec : Bool) (s : State) : Res :=
  match (s.cur.active.map (·.remote)).getD .idle with
  | .sent => .stall s
  | .done r => kvFinish d vec s r.flags r.data (r.stop.map (fun x => (x.1, .trap x.2.cause x.2.tval)))
  | .idle => checked (op.conds s) (fun s =>
    match op.home s with
    | .error e => kvFinish d vec s 0 [] (some (s.cur.unf.estart, e))
    | .ok m =>
      if m = s.cur.mod then
        match op.run s with
        | .again t => .stall t
        | .done o => kvFinish d vec o.s o.flags o.data o.stop
      else match s.cur.active with
        | none => .stall s
        | some e => .stall { s with
            cur := { s.cur with active := some { e with remote := .sent }, got := op.keep s }
            fabric := s.fabric ++ [.kvReq s.cur.id m] }) s

/-! ### The instructions -/

/-- KVXL and KVXL.E. -/
def opKvxl (e : Bool) (p : R3) : KvOp where
  conds := fun _ => []
  home := fun s => s.kvHome (s.src p.a).toNat
  run := fun s => kvOn s [(s.src p.a).toNat] (fun s => kvRun s (kvTranslate s.kvCx e (s.src p.a).toNat (s.src p.b).toNat))

/-- KVREL. -/
def opKvrel (p : R3) : KvOp where
  conds := fun _ => []
  home := fun s => s.kvHome (s.src p.a).toNat
  run := fun s => kvOn s [(s.src p.a).toNat] (fun s => kvRun s (kvRelease s.kvCx (s.src p.a).toNat (s.src p.b).toNat))

/-- KVMAP. -/
def opKvmap (p : R3) : KvOp where
  conds := fun _ => []
  home := fun s => s.kvHome (s.src p.a).toNat
  run := fun s => kvOn s [(s.src p.a).toNat] (fun s =>
    kvRun s (kvInstall s.kvCx (bit p.sf.toNat 0) (s.src p.a).toNat (s.src p.b).toNat (s.src p.c).toNat))

/-- KVFORK: applied at the source's home module. -/
def opKvfork (p : R3) : KvOp where
  conds := fun _ => []
  home := fun s => s.kvHome (s.src p.a).toNat
  run := fun s => kvOn s [(s.src p.a).toNat, (s.src p.b).toNat] (fun s =>
    kvRun s (kvFork s.kvCx (s.src p.a).toNat (s.src p.b).toNat (s.src p.c).toNat))

/-- KVAPP: a test that finds the page shared is one step, the copy and the decrement a later one (R350, R452). -/
def opKvapp (p : R3) : KvOp where
  conds := fun s => [(decide ((s.src p.b).toNat < 1) || decide (16 < (s.src p.b).toNat), 0x03, 0x09)]
  home := fun s => s.kvHome (s.src p.a).toNat
  run := fun s =>
    let a := (s.src p.a).toNat
    let b := (s.src p.b).toNat
    kvOn s [a] (fun s =>
      if s.cur.got.isSome then kvRun s (kvAppend s.kvCx true a b)
      else match kvShared s.kvCx a s with
        | .error e => .done ⟨s, 0, [], some (0, e)⟩
        | .ok (false, _) => kvRun s (kvAppend s.kvCx false a b)
        | .ok (true, _) => .again { s with cur := { s.cur with got := s.seqLoc a } })

/-- Translate every element of a KVSCORE before any performs (R436). -/
def scoreAll (s : State) (d : KvSeq) (p0 : Nat) : List Nat → Except Stop (List (Nat × Phys))
  | [] => .ok []
  | i :: rest => match s.translate (d.stab + 4 * (p0 + i)) .amo with
    | .error e => .error e
    | .ok q => match scoreAll s d p0 rest with
      | .error e => .error e
      | .ok r => .ok ((i, q) :: r)

/-- The additions of a KVSCORE in ascending order (R354); poison stops it at its element (R456). -/
def scoreLoop (v : Fin 64) (orig : State) : List (Nat × Phys) → State → Flags → FarOut
  | [], s, f => ⟨s, f, [], none⟩
  | (i, q) :: rest, s, f =>
    match (s.settleFor true q).readPhys q 4 false with
    | .error e => ⟨s, f, [], some (i, e)⟩
    | .ok b =>
      if s.anyPoison (orig.vecWords [v.val] i) then ⟨s, f, [], some (i, poisonStop 1)⟩
      else
        let r := eAdd .fp32 0 (leNat b) (orig.cur.elem v i)
        scoreLoop v orig rest ((s.settleFor true q).putPhys q (leBytes 4 r.1) 0) (f ||| r.2)

/-- KVSCORE. -/
def opKvscore (p : R3) : KvOp where
  conds := fun s => [(decide (s.cur.cfg.nreg ≤ p.c.val.toNat), 0x03, 0x03), (!s.cur.configured, 0x03, 0x05),
    (!decide (s.cur.cfg.etype = 2), 0x03, 0x06)]
  home := fun s => s.kvHome (s.src p.a).toNat
  run := fun s => kvOn s [(s.src p.a).toNat] (fun s =>
    match kvScores s.kvCx (s.src p.a).toNat s with
    | .error e => .done ⟨s, 0, [], some (s.cur.unf.estart, e)⟩
    | .ok (d, _) =>
      let b := (s.src p.b).toNat
      let els := (upto s.cur.unf.estart (s.cur.cfg.vl.toNat - s.cur.unf.estart)).filter (fun i => decide (b + i < d.len))
      match scoreAll s d b els with
      | .error e => .done ⟨s, 0, [], some (s.cur.unf.estart, e)⟩
      | .ok qs => .done (scoreLoop p.c.vidx s qs s 0))

/-- KVTOPK. -/
def opKvtopk (p : R3) : KvOp where
  conds := fun s => [(decide (s.cur.cfg.nreg ≤ p.d.toNat), 0x03, 0x03), (!s.cur.configured, 0x03, 0x05),
    (!decide (s.cur.cfg.etype = 6), 0x03, 0x06), (decide (s.cur.cfg.vl.toNat < (s.src p.b).toNat), 0x03, 0x07)]
  home := fun s => s.kvHome (s.src p.a).toNat
  run := fun s => kvOn s [(s.src p.a).toNat] (fun s =>
    let c := (s.src p.c).toNat
    match kvTop s.kvCx (s.src p.a).toNat (s.src p.b).toNat (c % 2 ^ 32) (c / 2 ^ 32) s with
    | .error e => .done ⟨s, 0, [], some (0, e)⟩
    | .ok (ps, t) => .done ⟨t, 0, ps.zipIdx.map (fun x => (x.2, x.1)), none⟩)

/-- The keep-set of a KVKEEP (R356). -/
def State.keepSet (s : State) (p : R3) : List Nat := (upto 0 s.cur.cfg.vl.toNat).map (s.cur.elem p.c.vidx)

/-- Strictly ascending. -/
def ascending : List Nat → Bool
  | [] => true
  | [_] => true
  | a :: b :: rest => decide (a < b) && ascending (b :: rest)

/-- KVKEEP. -/
def opKvkeep (p : R3) : KvOp where
  conds := fun s => [(decide (s.cur.cfg.nreg ≤ p.c.val.toNat), 0x03, 0x03), (!s.cur.configured, 0x03, 0x05),
    (!decide (s.cur.cfg.etype = 6), 0x03, 0x06), (!ascending (s.keepSet p), 0x03, 0x09)]
  home := fun s =>
    if (upto 0 s.cur.cfg.vl.toNat).any (fun i => s.anyPoison (s.vecWords [p.c.val.toNat] i)) then .error (poisonStop 1)
    else s.kvHome (s.src p.a).toNat
  run := fun s => kvOn s [(s.src p.a).toNat] (fun s => kvRun s (kvKeep s.kvCx (s.src p.a).toNat (s.keepSet p)))

/-- The 16 ids that KVPIDX reads (R358): as read when its request left, or now. -/
def State.kvIds (s : State) (p : R3) : Except Stop Nat :=
  match s.cur.got with
  | some ids => .ok ids
  | none =>
    let a := (s.src p.a).toNat
    match s.transRange a 64 .load with
    | .error e => .error e
    | .ok ps => match (s.settleRuns true ps).readRuns false ps with
      | .error e => .error e
      | .ok bs => if a % 64 ≠ 0 then .error (.trap (mkCause 0x0C 1) (BitVec.ofNat 64 a)) else .ok (leNat bs)

/-- KVPIDX and KVPIDX.INS: applied at the owning rank (R357, R358). -/
def opKvpidx (ins : Bool) (p : R3) : KvOp where
  conds := fun _ => []
  home := fun s => match s.kvIds p with
    | .error e => .error e
    | .ok ids => match kvRootAt s.kvCx s.cur.mod s with
      | .error e => .error e
      | .ok (r, _) => match s.kvCx.ranks[kvKey ids (s.src p.b).toNat % r.nr]? with
        | none => .error (.trap (mkCause 0x0C 2) (BitVec.ofNat 64 s.kvCx.root))
        | some m => .ok m
  run := fun s => match s.kvIds p with
    | .error e => .done ⟨s, 0, [], some (0, e)⟩
    | .ok ids =>
      let link := (s.src p.b).toNat
      kvRun s (kvIndex s.kvCx ids link (kvKey ids link) (if ins then some (s.src p.c).toNat else none))
  keep := fun s => match s.kvIds p with
    | .ok ids => some ids
    | .error _ => none

/-- The key-value operation of an instruction, for a request that arrives at another module. -/
def kvOf : Instr → Option KvOp
  | .kvmap p => some (opKvmap p)
  | .kvapp p => some (opKvapp p)
  | .kvxl p => some (opKvxl false p)
  | .kvxlE p => some (opKvxl true p)
  | .kvfork p => some (opKvfork p)
  | .kvrel p => some (opKvrel p)
  | .kvscore p => some (opKvscore p)
  | .kvtopk p => some (opKvtopk p)
  | .kvkeep p => some (opKvkeep p)
  | .kvpidx p => some (opKvpidx false p)
  | .kvpidxIns p => some (opKvpidx true p)
  | _ => none

/-- The operand address of a key-value instruction (R472). -/
def kvOperand (s : State) : Instr → Word
  | .kvmap p | .kvapp p | .kvxl p | .kvxlE p | .kvfork p | .kvrel p | .kvscore p | .kvtopk p | .kvkeep p | .kvpidx p | .kvpidxIns p =>
    s.src p.a
  | _ => 0

/-- KVMAP (R351). -/
def execKvmap (p : R3) (s : State) : Host.Outcome State Fault Refusal := runV (.kvmap p) none (kvBody (opKvmap p) p.d false) s
/-- KVAPP (R350). -/
def execKvapp (p : R3) (s : State) : Host.Outcome State Fault Refusal := runV (.kvapp p) none (kvBody (opKvapp p) p.d false) s
/-- KVXL (R349). -/
def execKvxl (p : R3) (s : State) : Host.Outcome State Fault Refusal := runV (.kvxl p) none (kvBody (opKvxl false p) p.d false) s
/-- KVXL.E (R349). -/
def execKvxlE (p : R3) (s : State) : Host.Outcome State Fault Refusal := runV (.kvxlE p) none (kvBody (opKvxl true p) p.d false) s
/-- KVFORK (R352). -/
def execKvfork (p : R3) (s : State) : Host.Outcome State Fault Refusal := runV (.kvfork p) none (kvBody (opKvfork p) p.d false) s
/-- KVREL (R352). -/
def execKvrel (p : R3) (s : State) : Host.Outcome State Fault Refusal := runV (.kvrel p) none (kvBody (opKvrel p) p.d false) s
/-- KVSCORE (R354). -/
def execKvscore (p : R3) (s : State) : Host.Outcome State Fault Refusal := runV (.kvscore p) none (kvBody (opKvscore p) 0 true) s
/-- KVTOPK (R355). -/
def execKvtopk (p : R3) (s : State) : Host.Outcome State Fault Refusal := runV (.kvtopk p) none (kvBody (opKvtopk p) p.d true) s
/-- KVKEEP (R356). -/
def execKvkeep (p : R3) (s : State) : Host.Outcome State Fault Refusal := runV (.kvkeep p) none (kvBody (opKvkeep p) p.d false) s
/-- KVPIDX (R358). -/
def execKvpidx (p : R3) (s : State) : Host.Outcome State Fault Refusal := runV (.kvpidx p) none (kvBody (opKvpidx false p) p.d false) s
/-- KVPIDX.INS (R358). -/
def execKvpidxIns (p : R3) (s : State) : Host.Outcome State Fault Refusal :=
  runV (.kvpidxIns p) none (kvBody (opKvpidx true p) p.d false) s

/-! ### Requests to other modules, Autumn and index removal -/

/-- A key-value request executes at its module; its result starts back (R347). -/
def State.kvArrive (s : State) (n : Nat) : State :=
  match s.cur.vq.head? with
  | none => s.dropMsg n
  | some e => match kvOf e.instr with
    | none => s.dropMsg n
    | some op => match op.run { s.dropMsg n with cur := { s.cur with active := some e } } with
      | .again t => { t with cur := { t.cur with active := none }, fabric := t.fabric ++ (s.fabric[n]?).toList }
      | .done o =>
        let back := fun (r : FarRes) =>
          let t := { o.s with cur := { o.s.cur.quiet s.tick with active := none } }
          { t with fabric := t.fabric ++ [.farDone t.cur.id r] }
        match o.stop with
        | none => back ⟨o.flags, o.data, none⟩
        | some x => match stopTrap x with
          | some y => back ⟨o.flags, o.data, some y⟩
          | none => s.holdStop x.2

/-- KV_REMOTE_REQUEST: message n reaches the home module of its descriptor or the owning rank of its bucket (R347, R358). -/
def execKvRemoteRequest (n : Nat) (s : State) : Host.Outcome State Fault Refusal :=
  match s.fabric[n]? with
  | some (.kvReq h m) =>
    match s.hart? h with
    | none => .next (s.dropMsg n)
    | some x =>
      if decide (x.phase = .ended) then .next (s.dropMsg n)
      else if !s.modRuns m then .next s
      else .next (s.asHart h (fun t => t.kvArrive n))
  | _ => .next s

/-- The domain's modules by rank as Ouvenaern of module `m` knows them: those of a launch that includes it, else every
module (log 34). -/
def State.domainRanks (s : State) (m : Nat) : List Nat :=
  match s.launches.find? (fun c => c.2.pkt.ranks.contains m && !c.2.pkt.single) with
  | some c => c.2.pkt.ranks
  | none => if (s.mods.map (·.1)).contains m then s.mods.map (·.1) else [m]

/-- The slots that a free stack holds (R342). -/
def kvStackSlots (cx : KvCx) (m va : Nat) : Kv (Nat × List Nat) := do
  let h ← kvRead cx m va 8
  let w ← kvRead cx m (va + 8) (4 * (h % 2 ^ 32))
  return (h / 2 ^ 32, (upto 0 (h % 2 ^ 32)).map (fun i => bits w (32 * i) 32))

/-- The Live entries of a tier and class, as (slot, block number) (R353). -/
def kvSlab (cx : KvCx) (r : KvRoot) (tier cls : Nat) : Kv (List (Nat × Nat)) := do
  let w ← kvRead cx r.m r.gtab (8 * r.ng)
  return (upto 0 r.ng).filterMap (fun g =>
    let x := bits w (64 * g) 64
    if bits x 62 2 = 1 ∧ bits x 50 2 = tier ∧ bits x 48 2 = cls then some (x % 2 ^ 32, g) else none)

/-- Autumn's first step: the highest Live slot moves to the lowest free one while that lies below it; its entry is Moving until the copy
and the rewrite of SLOT are complete (R353). -/
def kvCompact (cx : KvCx) (r : KvRoot) (rank tier cls : Nat) : Nat → List (Nat × Nat) → List Nat → Kv (List Nat)
  | 0, _, free => return free
  | f + 1, live, free => do
    let h := live.foldl (fun b x => if b.1 < x.1 then x else b) (0, 0)
    let lo := lowest free
    if live.isEmpty || free.isEmpty || decide (h.1 ≤ lo) then return free
    let va := fun j => pageVa r.base r.dim rank tier cls j
    let x ← kvRead cx r.m (r.gtab + 8 * h.2) 8
    kvWrite cx r.m (r.gtab + 8 * h.2) 8 (setBits x 62 2 2)
    kvCopy cx (va h.1) (va lo) (slotSize r.dim cls)
    kvWrite cx r.m (r.gtab + 8 * h.2) 8 (setBits x 0 32 lo)
    kvCompact cx r rank tier cls f ((live.erase h) ++ [(lo, h.2)]) ((free.erase lo) ++ [h.1])

/-- Autumn on one slab (R353). -/
def kvAutumn (cx : KvCx) (rank tier cls : Nat) : Kv Unit := do
  let r ← kvRootAt cx cx.m
  let va := r.sfree.getD (4 * tier + cls) 0
  let (cap, free) ← kvStackSlots cx cx.m va
  let live ← kvSlab cx r tier cls
  let left ← kvCompact cx r rank tier cls (live.length + 1) live free
  let down := (rankSort (fun a b => decide (b < a)) left)
  kvWrite cx cx.m (va + 8) (4 * down.length) (down.foldr (fun v acc => v + 2 ^ 32 * acc) 0)
  kvWrite cx cx.m va 8 (cap * 2 ^ 32 + down.length)

/-- A launch of a module that names a cache root is neither Saved nor ended on some rank (R353). -/
def State.rootInUse (s : State) (m root : Nat) : Bool :=
  s.launches.any (fun c => c.2.pkt.ranks.contains m &&
    c.2.shares.any (fun sh => (Tbl.getD sh.2.const 255 0).toNat == root) &&
    c.2.shares.any (fun sh => !decide (sh.2.state = .saved) && !decide (sh.2.state = .gone)))

/-- Run a computation of Ouvenaern on the cache; one that cannot go through changes nothing. -/
def kvQuiet (s : State) (f : Kv Unit) : State :=
  match f s with
  | .ok (_, t) => t
  | .error _ => s

/-- AUTUMN_RUN: Autumn compacts one slab of a module while no launch that names the root is resident (R353). -/
def execAutumnRun (m root tier cls : Nat) (atp : Word) (s : State) : Host.Outcome State Fault Refusal :=
  if !s.modRuns m || s.rootInUse m root || decide (1 < tier) || decide (3 < cls) then .next s
  else
    let ranks := s.domainRanks m
    .next (kvQuiet s (kvAutumn ⟨ranks, m, atp, root⟩ (ranks.idxOf m) tier cls))

/-- INDEX_ENTRY_REMOVAL: Ouvenaern empties one entry of a bucket and drops the index's reference (R352, R358, R453). -/
def kvRemove (cx : KvCx) (bucket slot : Nat) : Kv Unit := do
  let r ← kvRootAt cx cx.m
  let va := r.pidx + 512 * (bucket % r.nb) + 128 * (slot % 4)
  let w ← kvRead cx r.m (va + 16) 8
  if bit w 63 then
    let _ ← kvDrop cx w va
    kvWrite cx r.m (va + 16) 8 0

/-- INDEX_ENTRY_REMOVAL (R358, R453). -/
def execIndexEntryRemoval (m root bucket slot : Nat) (atp : Word) (s : State) : Host.Outcome State Fault Refusal :=
  if !s.modRuns m then .next s
  else .next (kvQuiet s (kvRemove ⟨s.domainRanks m, m, atp, root⟩ bucket slot))

end Sys2Proof.Machine
end

