-- ==== Sys2Proof/Machine/Fabric.lean ====
section
/-! DEFINITION. Memory events: remote stores, memory-side caches, host accesses, DRAM maintenance, publishable buffers, extents (R129, R140 to
R146, R163, R166, R167, R274, R442, R448, R449, R460, R461, R476). -/

namespace Sys2Proof.Machine

/-! ### Remote stores -/

/-- Whether two byte ranges meet. -/
def rangesMeet (a n b k : Nat) : Bool := decide (a < b + k) && decide (b < a + n)

/-- Whether a store must wait for an earlier one of the same hart that has not performed: to an overlapping byte, on another module (R166)
and within one stream on its own (R152, R153, R154), and of D memory in one stream, whose elements perform in order (R127). -/
def behindStore (h : HartId) (vec remote inOrder : Bool) (a n : Nat) : List Msg → Bool
  | [] => false
  | .store g _ v _ d _ b bs :: rest =>
    (decide (g = h) && (((remote || v == vec) && rangesMeet a n b bs.length) || (v == vec && inOrder && d))) ||
      behindStore h vec remote inOrder a n rest
  | _ :: rest => behindStore h vec remote inOrder a n rest

/-- A posted store waits at the frame of a migration, from its arrival on (R442). -/
def Moving.keep (e : Moving) (h : HartId) (va : Word) (a n t : Nat) : Moving :=
  if rangesMeet (a % 2 ^ 52) n e.frame e.size && !e.held.any (fun c => decide (c.1 = h) && decide (c.2.1 = va)) then
    { e with held := e.held ++ [(h, va, t)] }
  else e

/-- Message n, a posted store, performs at its owner, unless an earlier one to its bytes has not or the owner does not run; a migration
holds it at its frame (R166, R442). -/
def arriveStore (s : State) (n : Nat) : State :=
  match s.fabric[n]? with
  | some (.store h va vec far d rd a bs) =>
    let src := (s.rankModule h.launch h.rank).getD 0
    if !s.modRuns (a / 2 ^ 52) || behindStore h vec (decide (src ≠ a / 2 ^ 52)) d a bs.length (s.fabric.take n) then s
    else if s.rangeMoves a bs.length then
      s.onMod (a / 2 ^ 52) (fun x => { x with moving := x.moving.map (fun e => e.keep h va a bs.length s.tick) })
    else performStore (s.dropMsg n) src (.store h va vec far d rd a bs)
  | _ => s

/-- REMOTE_REQUEST_ARRIVAL: message n, a remote store, performs at the near point of its owner (R166). A remote load or atomic
performs within its instruction's own step (log 19), at the near point of the owner, which is where this message performs too. -/
def execRemoteRequestArrival (n : Nat) (s : State) : Host.Outcome State Fault Refusal := .next (arriveStore s n)

/-- REMOTE_STORE_ACK: message n completes a remote store at its sender (R166). -/
def execRemoteStoreAck (n : Nat) (s : State) : Host.Outcome State Fault Refusal :=
  match s.fabric[n]? with
  | some (.ack h va) => .next ((s.dropMsg n).onHart h (fun x => { x with unacked := x.unacked.erase va }))
  | _ => .next s

/-- MEMORY_ACCESS_PERFORM: the oldest outstanding access of a hart performs (R146). What can be outstanding between steps is a
posted store; every other access performs within its instruction's step (log 4). -/
def execMemoryAccessPerform (h : HartId) (s : State) : Host.Outcome State Fault Refusal :=
  .next (arriveStore s (s.fabric.findIdx (Msg.storeOf h)))

/-! ### Memory-side caches -/

/-- MSC_READ_REQUEST: a read request for the line at a location (R141); one that returns poison does not count (R455), and one to a frame
under migration is held at its home (R442). -/
def execMscReadRequest (loc : Nat) (s : State) : Host.Outcome State Fault Refusal :=
  if !s.modRuns (loc / 2 ^ 52) || !locHbm loc || s.rangeMoves loc 1 then .next s
  else .next (mscRead s (loc / 128))

/-- MSC_WRITE: a write of bytes within one line reaches the memory-side cache (R141, R151), unless a migration holds it (R442). -/
def execMscWrite (loc : Nat) (bytes : List Byte) (readers : BitVec 4) (s : State) : Host.Outcome State Fault Refusal :=
  if !s.modRuns (loc / 2 ^ 52) || !locHbm loc || bytes.isEmpty || decide (128 < loc % 128 + bytes.length) ||
      s.rangeMoves loc bytes.length then .next s
  else .next (storeFar s loc bytes readers.toNat)

/-! ### The host -/

/-- Whether n bytes at a physical address lie in one of the module's own memories that the host link reaches (R120, R167). -/
def hostReach (x : Module) (m pa n : Nat) : Bool :=
  match resolveLocal x m pa, resolveLocal x m (pa + n - 1) with
  | .ok a, .ok b => decide (0 < n) && decide (a.kind ≠ .cxl) && decide (b.kind ≠ .cxl) && decide (a.kind = .tier2 ↔ b.kind = .tier2)
  | _, _ => false

/-- HOST_MEMORY_ACCESS: the host writes, or reads n bytes, over the host link: at the memory-side cache or the memory (R140,
R141, R167). A write recalls near copies, so every observer sees it (log 11); poison answers no data (log 28). At which point a host read of
a location with no home stack performs is the model's choice: it returns the copy that L1 or L2 holds (DESIGN CHOICE, log 71). An access to
a frame under migration is held at its home: the host's access does not perform yet (R442). -/
def execHostMemoryAccess (m pa n : Nat) (write : Option (List Byte)) (s : State) : Host.Outcome State Fault Refusal :=
  match s.mod? m with
  | none => .next s
  | some x =>
    if !s.modRuns m || !x.hostUp || s.rangeMoves (loc m pa) ((write.map List.length).getD n) then .next s
    else match write with
      | some bs => if hostReach x m pa bs.length then .next (storeFar s (loc m pa) bs 0) else .next s
      | none =>
        if !hostReach x m pa n then .next s
        else if (poisonedAt s (locHbm (loc m pa)) (loc m pa) n).isSome then .next (s.onMod m (fun y => { y with hostData := [] }))
        else
          let t := s.onMod m (fun y => { y with hostData := readBytes s (locHbm (loc m pa)) (loc m pa) n })
          .next (if locHbm (loc m pa) then
            ((lineRuns (n / 128 + 2) (loc m pa) n).map (fun r => r.1 / 128)).foldl mscRead t else t)

/-! ### DRAM maintenance -/

/-- A count that stops at its largest value. -/
def satInc {w : Nat} (c : BitVec w) : BitVec w := if c = BitVec.allOnes w then c else c + 1

/-- A stack's registers. -/
def Module.stack (x : Module) (k : Nat) : Stack := (Tbl.find k x.hbm).getD Stack.reset

/-- Change a stack's registers. -/
def State.onStack (s : State) (m k : Nat) (f : Stack → Stack) : State :=
  s.onMod m (fun x => { x with hbm := Tbl.put k (f (x.stack k)) x.hbm })

/-- One more of a bank's counts. -/
def bankInc (t : Tbl Nat) (bank : Nat) : Tbl Nat := Tbl.put bank (Tbl.getD t bank 0 + 1) t

/-- A word of DRAM or of the second tier takes the poison pattern; what a cache holds of its line stays as it is (R454, R455, R461). -/
def State.spoilDram (s : State) (m pa : Nat) : State :=
  let w := loc m pa / 8
  if s.badMem.contains w then s else { s with badMem := s.badMem ++ [w] }

/-- A codeword is found uncorrectable: its word is poisoned, counted and recorded (R461, log 28). -/
def scrubPoison (s : State) (m k bank pa : Nat) : State :=
  (s.spoilDram m pa).onStack m k (fun y => { y with
    uecnt := satInc y.uecnt
    uev := true
    ueaddr := BitVec.ofNat 52 pa
    bue := bankInc y.bue bank
    dramUe := bankInc y.dramUe bank })

/-- REFRESH_COMMAND: a per-bank refresh checks one codeword row: nothing, a correction in place, or poison (R144, R461). -/
def execRefreshCommand (m k bank : Nat) (found : Finding) (s : State) : Host.Outcome State Fault Refusal :=
  if !s.modRuns m || decide (12 ≤ k) || decide (4096 ≤ bank) then .next s
  else match found with
    | .clean => .next s
    | .corrected => .next (s.onStack m k (fun y => { y with cecnt := satInc y.cecnt, dramCe := bankInc y.dramCe bank }))
    | .uncorrectable pa => if pa / 2 ^ 36 = k then .next (scrubPoison s m k bank pa) else .next s

/-- The key of a row's activation counter (R145). -/
def rowKey (bank row : Nat) : Nat := row * 4096 + bank

/-- A bank that does not back off opens and closes a row, whose counter goes up (R145, log 57). -/
def Stack.open (y : Stack) (bank row : Nat) : Stack :=
  if (Tbl.find bank y.backoff).isSome || decide (4096 ≤ bank) then y
  else { y with acts := Tbl.put (rowKey bank row) (Tbl.getD y.acts (rowKey bank row) 0 + 1) y.acts }

/-- A row of a bank whose count has reached THRESH (R145). -/
def Stack.hot (y : Stack) (bank : Nat) : Option Nat :=
  (y.acts.find? (fun c => decide (c.1 % 4096 = bank) && decide (y.thresh.toNat ≤ c.2))).map (·.1 / 4096)

/-- ROW_ACTIVATION_ALERT: a row's count has reached THRESH; its bank backs off (R145, R460). -/
def execRowActivationAlert (m k bank : Nat) (s : State) : Host.Outcome State Fault Refusal :=
  match s.mod? m with
  | none => .next s
  | some x =>
    if !s.modRuns m || decide (12 ≤ k) || (Tbl.find bank (x.stack k).backoff).isSome then .next s
    else match (x.stack k).hot bank with
      | none => .next s
      | some row => .next (s.onStack m k (fun y => { y with alerts := satInc y.alerts, backoff := Tbl.put bank row y.backoff }))

/-- ACTIVATION_BACKOFF_END: the rows are refreshed, the counted row's counter is reset and the bank goes on (R145). -/
def execActivationBackoffEnd (m k bank : Nat) (s : State) : Host.Outcome State Fault Refusal :=
  if !s.modRuns m then .next s
  else .next (s.onStack m k (fun y => match Tbl.find bank y.backoff with
    | some row => { y with backoff := Tbl.del bank y.backoff, acts := Tbl.del (rowKey bank row) y.acts }
    | none => y))

/-- DROOP_VBASE_LOW: VBASE below 610 mV stops issue in every far unit of the stack (R274, R460). -/
def execDroopVbaseLow (m k : Nat) (s : State) : Host.Outcome State Fault Refusal :=
  if !s.modRuns m || decide (12 ≤ k) then .next s
  else .next (s.onStack m k (fun y => { y with droop := true, stops := satInc y.stops }))

/-- DROOP_STOP_END: the stop of eight cycles ends (R274). -/
def execDroopStopEnd (m k : Nat) (s : State) : Host.Outcome State Fault Refusal :=
  if !s.modRuns m then .next s else .next (s.onStack m k (fun y => { y with droop := false }))

/-- BANK_COUNT_COPY: the base die copies the per-bank counts from the DRAM mode registers (R144, R460). -/
def execBankCountCopy (m k : Nat) (s : State) : Host.Outcome State Fault Refusal :=
  if !s.modRuns m || decide (12 ≤ k) then .next s
  else .next (s.onStack m k (fun y => { y with bce := y.dramCe, bue := y.dramUe }))

/-- STACK_COUNT_CLR: CLR clears every count of the stack (R460). -/
def execStackCountClr (m k : Nat) (s : State) : Host.Outcome State Fault Refusal :=
  if !s.modRuns m || decide (12 ≤ k) then .next s
  else .next (s.onStack m k (fun y => { y with
    cecnt := 0, uecnt := 0, bce := [], bue := [], dramCe := [], dramUe := [], alerts := 0, holds := 0, stops := 0 }))

/-! ### Translations -/

/-- TLB_INVALIDATE: translations of an address space, or of all, in a range are gone from every TLB, far TLBs and walkers included;
completion is recorded (R129). -/
def execTlbInvalidate (m : Nat) (asid : Option Nat) (va len : Nat) (s : State) : Host.Outcome State Fault Refusal :=
  if !s.modRuns m then .next s
  else .next ((s.dropTlb m asid va len).onMod m (fun x => { x with invalidations := x.invalidations ++ [(asid, va, len)] }))

/-! ### Publishable buffers and extents -/

/-- PUBLISHABLE_SETUP: Ouvenaern makes a virtual range publishable, on one module or on the whole domain (R163, R335); each image lies on
its own pages, so that an address and its image agree below 4 KiB (R131). -/
def execPublishableSetup (m asid va len image0 image1 : Nat) (dom : Bool) (s : State) : Host.Outcome State Fault Refusal :=
  let b : PubBuf := ⟨asid, va, len, image0, image1, false, dom⟩
  let here := fun k => dom || k == m
  if !s.modRuns m || decide (len = 0) || decide (image0 % 4096 ≠ va % 4096) || decide (image1 % 4096 ≠ va % 4096) ||
      s.mods.any (fun c => here c.1 && c.2.pubs.any (fun y => y.meets asid va len)) then .next s
  else .next { s with mods := s.mods.map (fun c => if here c.1 then (c.1, { c.2 with pubs := c.2.pubs ++ [b] }) else c) }

/-- Running copy nodes of a module that write a buffer. -/
def Module.writersOf (x : Module) (b : PubBuf) : List (Nat × Node) :=
  x.nodes.filter (fun n => decide (n.2.state = .running) && !n.2.faulted && (match n.2.kind with
    | .copy j => j.writes b
    | .call _ _ => false))

/-- PUBLISHABILITY_WITHDRAWAL: the i-th buffer of a module is no longer publishable; a copy node that still writes it takes an
engine fault 0x07.1 (R445). -/
def execPublishabilityWithdrawal (m i : Nat) (s : State) : Host.Outcome State Fault Refusal :=
  match (s.mod? m).bind (fun x => x.pubs[i]?) with
  | none => .next s
  | some b =>
    let here := fun k => b.dom || k == m
    let same := fun y : PubBuf => y.asid == b.asid && y.va == b.va && y.dom == b.dom
    if !s.modRuns m then .next s
    else
      let t := { s with mods := s.mods.map (fun c =>
        if here c.1 then (c.1, { c.2 with pubs := c.2.pubs.filter (fun y => !same y) }) else c) }
      .next ((s.mods.filter (fun c => here c.1)).foldl (fun u c =>
        (c.2.writersOf b).foldl (fun v n => v.faultNode c.1 n.1 n.2 (mkCause 0x07 1) (BitVec.ofNat 64 b.va)) u) t)

/-- What a range leaves of another: the parts before and after it. -/
def cutRange (e : Nat × Nat) (off len : Nat) : List (Nat × Nat) :=
  ([(e.1, min (e.1 + e.2) off - e.1), (max e.1 (off + len), e.1 + e.2 - max e.1 (off + len))] : List (Nat × Nat)).filter (fun c => decide (0 < c.2))

/-- CXL_EXTENT_ACCEPT: the driver places an accepted extent in the window (R143). -/
def execCxlExtentAccept (m base len off : Nat) (s : State) : Host.Outcome State Fault Refusal :=
  match s.mod? m with
  | none => .next s
  | some x =>
    if !s.modRuns m || !x.hostUp || decide (len = 0) || decide (base % 2 ^ 21 ≠ 0) || decide (len % 2 ^ 21 ≠ 0) ||
        decide (off % 2 ^ 21 ≠ 0) || decide (2 ^ 49 < off + len) || x.extents.any (fun e => rangesMeet e.off e.len off len) then .next s
    else .next (s.onMod m (fun y => { y with
      extents := y.extents ++ [⟨base, len, off, false, [], none⟩]
      closed := y.closed.flatMap (fun e => cutRange e off len) }))

/-- The location of a window offset of a module. -/
def windowLoc (m off : Nat) : Nat := loc m (0x2000000000000 + off)

/-- Whether a location lies in an extent. -/
def Extent.holds (e : Extent) (m a : Nat) : Bool := decide (windowLoc m e.off ≤ a) && decide (a < windowLoc m e.off + e.len)

/-- The location in an extent to which a posted store goes. -/
def Msg.storeIn (m : Nat) (e : Extent) : Msg → Option Nat
  | .store _ _ _ _ _ _ a _ => if e.holds m a then some a else none
  | _ => none

/-- The 128-byte lines of an extent that a store has written and that have not reached it: dirty, or still on their way (R448). -/
def State.dirtyLines (s : State) (m : Nat) (e : Extent) : Nat :=
  (((s.near.map (·.1)).filter (e.holds m) ++ s.fabric.filterMap (Msg.storeIn m e)).map (· / 128)).dedup.length

/-- Every on-chip copy of an extent's lines is gone, dirty ones with what they held, and every store on its way there (R448). -/
def State.dropCached (s : State) (m : Nat) (e : Extent) : State :=
  { s with
    fabric := s.fabric.filter (fun x => (x.storeIn m e).isNone)
    near := s.near.filter (fun c => !e.holds m c.1)
    l1 := s.l1.filter (fun x => !e.holds m (64 * x.line))
    l2 := s.l2.filter (fun k => !e.holds m (128 * k))
    badNear := s.badNear.filter (fun w => !e.holds m (8 * w))
    ibuf := s.ibuf.filter (fun x => !e.holds m (64 * x.line)) }

/-- What lay in an extent goes with it (log 1). -/
def State.dropWindow (s : State) (m : Nat) (e : Extent) : State :=
  let t := s.dropCached m e
  { t with
    dram := t.dram.filter (fun c => !e.holds m c.1)
    badMem := t.badMem.filter (fun w => !e.holds m (8 * w)) }

/-- An extent leaves the window and is reported in XREL; an access to it is one to a closed extent from then on (R434, R448, R449). -/
def State.reportExtent (s : State) (m : Nat) (e : Extent) (forced : Bool) (lost : Nat) : State :=
  (s.dropWindow m e).onMod m (fun x => { x with
    extents := x.extents.filter (fun y => !(y.off == e.off))
    closed := x.closed ++ [(e.off, e.len)]
    xrel := ⟨true, forced, BitVec.ofNat 32 lost, BitVec.ofNat 64 e.off⟩ })

/-- Change the extent of a module at a window offset. -/
def State.onExtent (s : State) (m off : Nat) (f : Extent → Extent) : State :=
  s.onMod m (fun x => { x with extents := x.extents.map (fun z => if z.off == off then f z else z) })

/-- An extent is withdrawn by force: it closes, its dirty lines are dropped and counted, and it is reported once XREL is free
(R448, R449). -/
def State.forceExtent (s : State) (m : Nat) (e : Extent) : State :=
  let n := e.forced.getD (s.dirtyLines m e)
  match s.mod? m with
  | none => s
  | some x =>
    if !x.xrel.valid then s.reportExtent m e true n
    else (s.dropCached m e).onExtent m e.off (fun z => { z with closing := true, spare := [], forced := some n })

/-- A copy node that has started or can start (R328, R329). -/
def Node.works (n : Node) : Bool := decide (n.state = .ready) || decide (n.state = .running)

/-- The module as it would be with one extent alone, closed, in its window. -/
def State.onlyClosed (s : State) (m : Nat) (e : Extent) : State :=
  s.onMod m (fun x => { x with extents := [{ e with closing := true, spare := [] }], closed := [] })

/-- A copy node touches an extent: one of the pieces that it has still to move translates into it (R448). -/
def State.nodeTouches (s : State) (m : Nat) (e : Extent) (n : Node) : Bool :=
  let v := s.onlyClosed m e
  let ranks := ((s.launch? n.launch).map (·.pkt.ranks)).getD [m]
  let into := fun (j : CopyJob) (w : Want) (x : Nat × Nat) => (rangeRuns [x]).any (fun c =>
    match v.translateAs (engView ranks m j.atp w) (c.1 % 2 ^ 64) w with
    | .error (.trap c _) => decide (c = mkCause 0x07 4)
    | _ => false)
  match n.kind with
  | .call _ _ => false
  | .copy j => n.works && (upto n.block (j.blocks - n.block)).any (fun k =>
      (j.pieces (!j.scatter) j.src k).any (into j .load) || (!j.tile && (j.pieces j.scatter j.dst k).any (into j .store)))

/-- Whether a posted store into an extent has not performed. -/
def State.storeInto (s : State) (m : Nat) (e : Extent) : Bool := s.fabric.any (fun x => (x.storeIn m e).isSome)

/-- CXL_EXTENT_RELEASE: an extent closes; when the event comes again, once every store that translated before, and every copy node that was
Ready or Running then and touches it, has performed, and XREL is free, its dirty lines are written back and its release is reported
(R448, R449). -/
def execCxlExtentRelease (m off : Nat) (s : State) : Host.Outcome State Fault Refusal :=
  match s.mod? m with
  | none => .next s
  | some x => match x.extents.find? (fun e => e.off == off) with
    | none => .next s
    | some e =>
      if !s.modRuns m then .next s
      else if e.forced.isSome then .next (s.forceExtent m e)
      else if !e.closing then
        .next (s.onExtent m off (fun z => { z with closing := true, spare := (x.nodes.filter (fun n => n.2.works)).map (·.2.serial) }))
      else if x.xrel.valid || s.storeInto m e || x.nodes.any (fun n => e.spare.contains n.2.serial && s.nodeTouches m e n.2) then .next s
      else if !x.hostUp then .next (s.forceExtent m e)
      else .next (s.reportExtent m e false 0)

/-- FORCED_EXTENT_WITHDRAWAL: the fabric manager withdraws an extent before its write-back completes (R448). -/
def execForcedExtentWithdrawal (m off : Nat) (s : State) : Host.Outcome State Fault Refusal :=
  match (s.mod? m).bind (fun x => x.extents.find? (fun e => e.off == off)) with
  | none => .next s
  | some e => if s.modRuns m then .next (s.forceExtent m e) else .next s

/-- XREL_VALID_CLEAR: VALID is cleared, so that the next release can be reported (R449). -/
def execXrelValidClear (m : Nat) (s : State) : Host.Outcome State Fault Refusal :=
  if !s.modRuns m then .next s else .next (s.onMod m (fun x => { x with xrel := { x.xrel with valid := false } }))

/-- HOST_LINK_DOWN: the host link is lost: the window faults, every accepted extent is released as forced, and AER reports the loss as
fatal (R476). -/
def execHostLinkDown (m : Nat) (s : State) : Host.Outcome State Fault Refusal :=
  match s.mod? m with
  | none => .next s
  | some x =>
    if !x.hostUp then .next s
    else .next (x.extents.foldl (fun t e => t.forceExtent m e) (s.onMod m (fun y => { y with hostUp := false, aer := y.aer ++ [.fatal] })))

/-- HOST_LINK_UP: the host link returns (R476). -/
def execHostLinkUp (m : Nat) (s : State) : Host.Outcome State Fault Refusal :=
  .next (s.onMod m (fun x => { x with hostUp := true }))

end Sys2Proof.Machine
end

