-- ==== Sys2Proof/Machine/Launch.lean ====
section
/-! DEFINITION. Queues, launch packets, placement, the March and completion (R35 to R42, R53, R54, R89, R360 to R366, R370,
R474, R477 to R479, R489). -/

namespace Sys2Proof.Machine

/-! ### Queue registers -/

/-- Change a queue's registers. -/
def State.onQueue (s : State) (m q : Nat) (f : Queue → Queue) : State :=
  s.onMod m (fun x => { x with queues := Tbl.put q (f (x.queue q)) x.queues })

/-- Raise a queue's vector when its IEN is 1 (R360, R479). -/
def queueMsix (s : State) (m q : Nat) : State :=
  match s.mod? m with
  | none => s
  | some x => if (x.queue q).ien then raiseMsix s m (x.queue q).vec.toNat else s

/-- A queue error: QERR takes it, its OVF as the host has left it, or OVF is set; the vector is raised (R479). -/
def queueErr (s : State) (m q code : Nat) (loc : BitVec 32) : State :=
  queueMsix (s.onMod m (fun x =>
    let old := (Tbl.find q x.qerrs).getD QErr.reset
    { x with qerrs := Tbl.put q (if old.valid then { old with ovf := true } else ⟨true, old.ovf, loc, BitVec.ofNat 8 code⟩) x.qerrs })) m q

/-- Whether the host reaches a module's registers. -/
def State.hostReaches (s : State) (m : Nat) : Bool := s.modRuns m && ((s.mod? m).map (·.hostUp)).getD false

/-- A cleared EN takes effect: EN, HEAD and TAIL are 0 (R360). -/
def Queue.close (x : Queue) : Queue := { x with en := false, head := 0, tail := 0, disabling := false, reserved := false }

/-- QCFG fields other than EN: LSIZE and PRIO are taken only while EN is 0 (R360). -/
def Queue.configure (x : Queue) (v : Word) : Queue :=
  let y := { x with ien := bit v.toNat 16, vec := BitVec.ofNat 8 (v.toNat / 256) }
  if x.en then y else { y with lsize := BitVec.ofNat 4 (v.toNat / 16), prio := BitVec.ofNat 2 (v.toNat / 2) }

/-- Whether a queue's ring lies wholly in HBM (R360). -/
def Queue.ringOk (x : Queue) : Bool := decide (x.base.toNat + 256 * 2 ^ x.lsize.toNat ≤ 0xC000000000)

/-- HOST_QTAIL_WRITE (R361): a TAIL that passes the ring is discarded and recorded in QERR with CODE 0x01 (R479). -/
def execHostQtailWrite (m q : Nat) (tail : BitVec 32) (s : State) : Host.Outcome State Fault Refusal :=
  match s.mod? m with
  | none => .next s
  | some x =>
    let y := x.queue q
    if !s.hostReaches m || decide (64 ≤ q) then .next s
    else if 2 ^ y.lsize.toNat < (tail - y.head).toNat then .next (queueErr s m q 1 tail)
    else .next (s.onQueue m q (fun y => { y with tail := tail, since := if y.head = y.tail then s.tick else y.since }))

/-- QCFG_ENABLE: a write of QCFG with EN = 1 checks LSIZE, then the ring, and enables the queue (R360, R479). While EN is 1, a cleared EN
pending or not, such a write sets IEN and VEC and leaves the clearing as it is (DESIGN CHOICE, log 86). -/
def execQcfgEnable (m q : Nat) (v : Word) (s : State) : Host.Outcome State Fault Refusal :=
  match s.mod? m with
  | none => .next s
  | some x =>
    if !s.hostReaches m || decide (64 ≤ q) then .next s
    else
      let y := (x.queue q).configure v
      let t := s.onQueue m q (fun _ => y)
      if y.en then .next t
      else if y.lsize = 0 ∨ 12 < y.lsize.toNat then .next (queueErr t m q 5 (y.lsize.setWidth 32))
      else if !y.ringOk then .next (queueErr t m q 2 0)
      else .next (t.onQueue m q (fun y => { y with en := true, since := s.tick }))

/-- QCFG_DISABLE: a write of QCFG with EN = 0 takes effect at once when the queue is empty, else after its head (R360). -/
def execQcfgDisable (m q : Nat) (v : Word) (s : State) : Host.Outcome State Fault Refusal :=
  if !s.hostReaches m || decide (64 ≤ q) then .next s
  else .next (s.onQueue m q (fun y =>
    let z := y.configure v
    if !y.en then z else if y.head = y.tail then z.close else { z with disabling := true }))

/-! ### The launch packet -/

/-- The words of the packet at the head of a queue (R361, R362). -/
def State.packetWords (s : State) (m : Nat) (y : Queue) : List Nat :=
  let pa := y.base.toNat + 256 * (y.head.toNat % 2 ^ y.lsize.toNat)
  (upto 0 32).map (fun k => leNat (readBytes s false (loc m (pa + 8 * k)) 8))

/-- The parameters in a packet's words, for a packet taken on module m (R36, R362). -/
def packetOf (m : Nat) (w : List Nat) : Packet :=
  let k := fun i => w.getD i 0
  let st := bits (k 1) 0 3 + 1
  let single := bits (k 14) 0 6 == 0
  { wid := bits (k 0) 0 4
    hgt := bits (k 0) 4 4
    origin := if bit (k 0) 16 then none else some (bits (k 0) 8 4, bits (k 0) 12 4)
    stages := st
    harts := bits (k 1) 3 3 + 1
    greq := bits (k 1) 6 3 + 1
    gmin := bits (k 1) 9 3 + 1
    entry := (upto 0 st).map (fun i => BitVec.ofNat 64 (k (3 + i)))
    floor := (upto 0 st).map (fun i => bits (k 1) (32 + 3 * i) 3 + 1)
    carry := (upto 0 st).map (fun i => bit (k 1) (56 + i))
    depth := (upto 0 (st - 1)).map (fun i => bits (k 2) (7 * i) 7)
    tiles := bits (k 0) 39 9
    fused := bit (k 0) 38
    policy := BitVec.ofNat 2 (bits (k 0) 36 2)
    smask := BitVec.ofNat 12 (bits (k 0) 24 12)
    tasks := bits (k 0) 48 13
    ser := bit (k 0) 61
    const := BitVec.ofNat 64 (k 11)
    atp := BitVec.ofNat 64 (setBits (k 12) 40 4 0)
    done := BitVec.ofNat 64 (k 13)
    gen := BitVec.ofNat 32 (bits (k 14) 32 32)
    single := single
    ranks := if single then [m] else (upto 0 (bits (k 14) 0 6 + 1)).map (fun r => bits (k (16 + r / 4)) (16 * (r % 4)) 16)
    tag := BitVec.ofNat 64 (k 15) }

/-- How Ouvenaern of a module translates in a launch's address space. -/
def mgmtView (ranks : List Nat) (m : Nat) (atp : Word) : View := ⟨.engine, ranks, m, atp, [], false⟩

/-- Read bytes under an address space from outside any hart (R489, R432). -/
def State.readAs (s : State) (ranks : List Nat) (m : Nat) (atp : Word) : List (Nat × Nat) → Except Stop (List Byte)
  | [] => .ok []
  | (va, n) :: rest => match s.translateAs (mgmtView ranks m atp) (va % 2 ^ 64) .load with
    | .error e => .error e
    | .ok p => match s.readPhys p n false with
      | .error e => .error e
      | .ok bs => match s.readAs ranks m atp rest with
        | .error e => .error e
        | .ok cs => .ok (bs ++ cs)

/-- A launch's constant bank as module m reads it (R64, R489). -/
def State.readBank (s : State) (m : Nat) (p : Packet) : Except Stop (List Byte) :=
  s.readAs p.ranks m p.atp (lineRuns 18 p.const.toNat 2048)

/-- The bank's slots. -/
def bankSlots (bs : List Byte) : Tbl Word := (upto 0 256).map (fun k => (k, BitVec.ofNat 64 (leNat ((bs.drop (8 * k)).take 8))))

/-- A bank that cannot be read, because it does not translate or a word of it is poisoned; a migration only holds it. -/
def State.bankFails (s : State) (m : Nat) (p : Packet) : Bool :=
  match s.readBank m p with
  | .error (.trap _ _) => true
  | _ => false

/-- Where the completion record goes: an address whose page is not PMA, or to which nothing translates, is none (R362, R478). -/
def State.donePhys (s : State) (m : Nat) (p : Packet) : Except Stop Phys :=
  match s.translateAs (mgmtView p.ranks m p.atp) p.done.toNat .store with
  | .ok x => if x.pbmt = 0 then .ok x else .error (.trap (mkCause 0x04 0) p.done)
  | e => e

/-- A completion record that cannot be written; a migration only holds it. -/
def State.doneFails (s : State) (m : Nat) (p : Packet) : Bool :=
  match s.donePhys m p with
  | .error (.trap _ _) => true
  | _ => false

/-- The words of a packet at which a check of R36, R362 or R489 fails; a check of several words counts at the highest. Under a MODE other than
0b1010 nothing translates, so that the constant bank cannot be read: word 11 fails beside word 12 (DESIGN CHOICE, log 87). -/
def packetFaults (w : List Nat) (p : Packet) (bankFails doneFails : Bool) : List Nat :=
  let k := fun i => w.getD i 0
  let ox := bits (k 0) 8 4
  let oy := bits (k 0) 12 4
  let any := bit (k 0) 16
  let st := p.stages
  let f := fun (i : Nat) (b : Bool) => if b then [i] else []
  f 0 (decide (bits (k 0) 62 2 ≠ 0) || decide (bits (k 0) 17 7 ≠ 0) || decide (p.policy = 3) ||
      (decide (p.policy ≠ 2) && decide (p.smask ≠ 0)) || (any && decide (ox + oy ≠ 0)) || decide (p.wid < 1) || decide (12 < p.wid) ||
      decide (p.hgt < 1) || decide (12 < p.hgt) || decide (4096 < p.tasks) || decide (256 < p.tiles) ||
      (!any && (decide (12 < ox + p.wid) || decide (12 < oy + p.hgt))) ||
      (p.fused && (decide (p.wid % 2 = 1) || decide (p.hgt % 2 = 1) || decide (ox % 2 = 1) || decide (oy % 2 = 1)))) ++
  f 1 (decide (bits (k 1) 12 20 ≠ 0) || decide (bits (k 1) (56 + st) (8 - st) ≠ 0) || decide (bits (k 1) (32 + 3 * st) (24 - 3 * st) ≠ 0) ||
      (if 2 ≤ st then decide (p.harts ≠ st) || decide (bits (k 1) 6 6 ≠ 0) || decide (8 < p.floor.sum)
        else decide (p.greq < p.gmin) || decide (8 < p.harts * p.gmin))) ++
  f 2 (decide (k 2 / 2 ^ (7 * (st - 1)) ≠ 0) || p.depth.any (fun n => decide (n < 2) || decide (64 < n)) || decide (p.tiles < p.depth.sum)) ++
  (upto st (8 - st)).flatMap (fun i => f (3 + i) (decide (k (3 + i) ≠ 0))) ++
  f 11 (decide (p.const.toNat % 8 ≠ 0) || bankFails || decide (bits (k 12) 60 4 ≠ 0xA)) ++
  f 12 (decide (bits (k 12) 60 4 ≠ 0xA)) ++
  f 13 (decide (p.done.toNat % 32 ≠ 0) || doneFails) ++
  f 14 (decide (bits (k 14) 6 26 ≠ 0)) ++
  (upto (bits (k 14) 0 6 + 1) (63 - bits (k 14) 0 6)).flatMap (fun r =>
    f (16 + r / 4) (decide (bits (k (16 + r / 4)) (16 * (r % 4)) 16 ≠ 0)))

/-! ### Free cores -/

/-- A launch that holds whole cores (R37, R364). -/
def Packet.whole (p : Packet) : Bool := decide (2 ≤ p.stages) || p.fused

/-- Whether a share occupies its cores (R364, R368). -/
def Share.resident (x : Share) : Bool :=
  match x.state with
  | .armed | .running | .suspending => true
  | .saved | .gone => false

/-- The shares of launches on a module. -/
def State.sharesOn (s : State) (m : Nat) : List (Nat × Launch × Nat × Share) :=
  s.launches.flatMap (fun l => l.2.shares.filterMap (fun c =>
    if l.2.pkt.ranks[c.1]? = some m then some (l.1, l.2, c.1, c.2) else none))

/-- The resident launches on a core, each with the base of its tile window. -/
def State.users (s : State) (m core : Nat) : List (Packet × Nat) :=
  (s.sharesOn m).flatMap (fun c => if c.2.2.2.resident then
    (c.2.2.2.place.filter (fun e => e.2.core == core)).map (fun e => (c.2.1.pkt, e.2.tileBase)) else [])

/-- Whether a hart keeps its slot: it is seated, or saved by itself while its launch is resident (R32, R368). -/
def State.keepsSlot (s : State) (h : Hart) : Bool :=
  h.seated || (decide (h.phase = .saved) && ((s.share? h.id.launch h.id.rank).map Share.resident).getD false)

/-- Free slots of a core, lowest first. -/
def State.freeSlots (s : State) (m core : Nat) : List Nat :=
  (upto 0 8).filter (fun k => !(s.allHarts.any (fun h => s.keepsSlot h && h.mod == m && h.seat.core == core && h.seat.slot == k)))

/-- The lowest base at which a window of T tiles fits on a core (R36, R364). -/
def State.window (s : State) (m core t : Nat) : Option Nat :=
  if t = 0 then some 0
  else (upto 0 (257 - t)).find? (fun b => (s.users m core).all (fun u => decide (u.1.tiles = 0) || !rangesMeet b t u.2 u.1.tiles))

/-- Whether a core has power: its cluster is not gated (R27). -/
def State.corePowered (s : State) (m core : Nat) : Bool :=
  match s.mod? m with
  | some x => !x.gated.contains (clusterOf core)
  | none => false

/-- Harts that stand on a core: resident, or saved and keeping their slot (R33, R405). -/
def State.standing (s : State) (m core : Nat) : List Hart :=
  s.allHarts.filter (fun h => s.keepsSlot h && h.mod == m && h.seat.core == core)

/-- A core has power and what a launch needs: all of it, or n slots, g lane groups and T tiles (R27, R37, R364). -/
def State.coreFits (s : State) (m core : Nat) (p : Packet) (n g : Nat) : Bool :=
  let us := s.users m core
  decide (core < 144) && s.corePowered m core && (!p.whole || (s.standing m core).isEmpty) && (s.window m core p.tiles).isSome && (!p.whole || us.isEmpty) && us.all (fun u => !u.1.whole) &&
    decide (n ≤ (s.freeSlots m core).length) && decide (g ≤ (s.pool m core).length)

/-- Lane groups that a launch needs on each core before it starts (R37, R364). -/
def Packet.lanes (p : Packet) : Nat := if 2 ≤ p.stages then p.floor.sum else p.harts * p.gmin

/-- The cores of a rectangle at a physical position, in order of launch-relative y, then x (R42). -/
def Packet.rect (p : Packet) (x0 y0 : Nat) : List ((Nat × Nat) × Nat) :=
  (upto 0 p.hgt).flatMap (fun y => (upto 0 p.wid).map (fun x => ((x, y), 12 * (y0 + y) + x0 + x)))

/-- Task-table entries that launches hold on a module (R327, R364, R466). -/
def State.tasksHeld (s : State) (m : Nat) : Nat :=
  ((s.sharesOn m).map (fun c => if c.2.2.2.state = .gone then 0 else c.2.1.pkt.tasks)).sum

/-- Where a launch goes at first placement: its origin when those cores are free, else the lowest free position (R42, R364). -/
def State.spot (s : State) (m : Nat) (p : Packet) : Option (List ((Nat × Nat) × Nat)) :=
  let all := (upto 0 (13 - p.hgt)).flatMap (fun y => (upto 0 (13 - p.wid)).map (fun x => (x, y)))
  let tries := (match p.origin with
    | some o => [o]
    | none => []) ++ (if p.fused then all.filter (fun o => o.1 % 2 == 0 && o.2 % 2 == 0) else all)
  if 4096 < s.tasksHeld m + p.tasks then none
  else (tries.find? (fun o => (p.rect o.1 o.2).all (fun c => s.coreFits m c.2 p p.harts p.lanes))).map (fun o => p.rect o.1 o.2)

/-! ### Arming and starting -/

/-- The grant of hart k of a core: a stage's floor, or what is wanted between Gmin and G while Gmin stays for the others (R37). -/
def Packet.grantOf (p : Packet) (want free k : Nat) : Nat :=
  if 2 ≤ p.stages then p.floor.getD k 1 else max p.gmin (min (min want p.greq) (free - (p.harts - 1 - k) * p.gmin))

/-- sr.tvec as a hart's start loads it from slot k254 of the constant bank (R394, R432). -/
def startTvec (bank : Tbl Word) : Word := BitVec.ofNat 64 ((Tbl.getD bank 254 0).toNat / 2 * 2)

/-- A hart as it is armed (R34, R89, R394). -/
def newHart (id : HartId) (m : Nat) (p : Packet) (bank : Tbl Word) (seat : Seat) (tick : Nat) : Hart :=
  let pc := p.entry.getD seat.stage 0
  { Hart.reset with
    id := id
    mod := m
    phase := .armed
    seat := seat
    pc := pc
    npc := pc
    atp := p.atp
    trap := { TrapRegs.reset with tvec := startTvec bank }
    quietFrom := tick }

/-- Arm hart k of a launch on a core: the lowest free slot, the lowest free lane groups, far banks of zeros (R32, R37, R74). -/
def State.armHart (s : State) (l r m : Nat) (p : Packet) (bank : Tbl Word) (want : List Nat) (c : (Nat × Nat) × Nat) (k : Nat) : State :=
  let free := s.pool m c.2
  let w := want.getD ((c.1.2 * p.wid + c.1.1) * p.harts + k) p.greq
  let st := if 2 ≤ p.stages then k else 0
  let id : HartId := ⟨l, r, c.1.1, c.1.2, k⟩
  let h := newHart id m p bank ⟨c.2, (s.freeSlots m c.2).headD 0, free.take (p.grantOf w free.length k), st⟩ s.tick
  (s.addHart h).asHart id State.unstow

/-- A share as it is armed: nothing saved, every cell open at 0 (R50). -/
def newShare (r : Nat) (state : ShareState) (place : Tbl Place) (bank : Tbl Word) (tick : Nat) : Share where
  rank := r
  state := state
  place := place
  const := bank
  cells := []
  first := none
  armedAt := tick
  savedAt := 0
  held := []
  delivery := 0
  checked := none
  quiet := false
  awaitAct := false
  ceilings := []
  holds := []
  endSent := false
  reported := false
  domSeen := []

/-- The placement table of a list of cores (R40). -/
def State.placeTable (s : State) (m : Nat) (p : Packet) (cores : List ((Nat × Nat) × Nat)) : Tbl Place :=
  cores.map (fun c => (placeKey c.1.1 c.1.2, ⟨c.2, (s.window m c.2 p.tiles).getD 0⟩))

/-- The stages' ceilings and rebalance holds, which firmware sets within the limits of R46: free values (log 18). -/
def Share.tune (sh : Share) (p : Packet) (tick : Nat) : Share :=
  { sh with
    ceilings := p.floor.zipIdx.map (fun f => f.1 + Config.ceiling tick f.2 % (9 - f.1))
    holds := p.floor.zipIdx.map (fun f => 256 + Config.rebalanceHold tick f.2 % (65536 - 256 + 1)) }

/-- A cluster changes between fused and unfused use: its four L1s are written back and invalidated first (R137). -/
def State.fuseCluster (s : State) (m : Nat) (fused : Bool) (n : Nat) : State :=
  match s.mod? m with
  | none => s
  | some x =>
    if x.fused.contains n = fused then s
    else ({ s with l1 := s.l1.filter (fun y => !decide (y.core / 256 = m ∧ clusterOf (y.core % 256) = n)) } : State).onMod m (fun z =>
      { z with fused := if fused then n :: z.fused else z.fused.erase n })

/-- Cores take a launch: their clusters are in fused use or not, as it asks (R137), and their instruction buffers hold no line from before
it (R136). -/
def State.readyCores (s : State) (m : Nat) (p : Packet) (cores : List Nat) : State :=
  let t := ((cores.map clusterOf).dedup).foldl (fun u n => u.fuseCluster m p.fused n) s
  { t with ibuf := t.ibuf.filter (fun x => !decide (x.core / 256 = m ∧ cores.contains (x.core % 256))) }

/-- Arm a launch's share on a module: placement, tile windows, constant bank, far banks, harts (R54, R319, R366). -/
def State.armShare (s : State) (l r m : Nat) (p : Packet) (bank : Tbl Word) (want : List Nat) (cores : List ((Nat × Nat) × Nat)) : State :=
  let t := s.onLaunch l (fun x => { x with shares := Tbl.put r ((newShare r .armed (s.placeTable m p cores) bank s.tick).tune p s.tick) x.shares })
  cores.foldl (fun u c => (upto 0 p.harts).foldl (fun v k => v.armHart l r m p bank want c k) u) (t.readyCores m p (cores.map (·.2)))

/-- A share starts: its Armed harts are Running (R34, R54); at its first start each loads sr.tvec (R394, R432). -/
def State.startShare (s : State) (l r : Nat) : State :=
  let first := (s.share? l r).filter (fun x => decide (x.savedAt = 0))
  (s.onShare l r (fun x => { x with state := .running })).onHarts
    (fun h => h.id.launch == l && h.id.rank == r && decide (h.phase = .armed))
    (fun h => { h with
      phase := .running
      quietFrom := s.tick
      trap := { h.trap with tvec := (first.map (fun x => startTvec x.const)).getD h.trap.tvec } })

/-- Take harts out of the machine. -/
def State.dropHarts (s : State) (p : Hart → Bool) : State :=
  { s with
    harts := s.harts.filter (fun h => !p h)
    cur := if p s.cur then { s.cur with phase := .absent } else s.cur }

/-- A rank releases its share, or the packet that it holds unplaced, without starting a hart (R474). -/
def State.dropShare (s : State) (l r : Nat) : State :=
  let t := (s.onShare l r (fun x => { x with state := .gone })).dropHarts (fun h => h.id.launch == l && h.id.rank == r)
  match s.rankModule l r with
  | some m => t.onMod m (fun x => { x with march := x.march.erase (l, r) })
  | none => t

/-! ### Completion -/

/-- Write the completion record of a launch, STATUS last (R363): only at a 32-aligned DONE on a PMA page (R478), else QERR
records CODE 0x04; then the vector is raised. A frame under migration holds it (none). -/
def State.writeRecord (s : State) (m q : Nat) (p : Packet) (status first last : Word) (taken : BitVec 32) : Option State :=
  match (if p.done.toNat % 32 = 0 then s.donePhys m p else .error (.trap (mkCause 0x04 0) p.done)) with
  | .error (.hold _ _) => none
  | .error (.trap _ _) => some (queueMsix (queueErr s m q 4 taken) m q)
  | .ok x =>
    let t := storeFar s (x.spot.loc + 8) (leBytes 8 p.tag.toNat ++ leBytes 8 first.toNat ++ leBytes 8 last.toNat) 0
    some (queueMsix (storeFar t x.spot.loc (leBytes 8 status.toNat) 0) m q)

/-- A lost rank stays lost until its domain launch ends (R475): no module of it holds that rank lost any longer, unless another
launch that is not over has both. -/
def State.findRanks (s : State) (p : Packet) : State :=
  let others := (s.launches.filter (fun c => !c.2.closed)).map (·.2.pkt.ranks)
  { s with mods := s.mods.map (fun c => if p.ranks.contains c.1 then
      (c.1, { c.2 with lost := c.2.lost.filter (fun r => !p.ranks.contains r || others.any (fun o => o.contains c.1 && o.contains r)) }) else c) }

/-- A launch is over: what it leaves is discarded on every rank (R473); its entry stays, so that late traffic is known as stale. -/
def State.forgetLaunch (s : State) (l : Nat) : State :=
  match s.launch? l with
  | none => s
  | some x => (((discardLaunch s l x.pkt.ranks (fun _ => true)).dropHarts (fun h => h.id.launch == l)).onLaunch l (fun y => { y with
      closed := true
      finished := true
      shares := y.shares.map (fun c => (c.1, { c.2 with state := .gone })) })).findRanks x.pkt

/-- A word of a completion record that holds the originating module's count at a step, or 0 when there is none (R363). -/
def State.countWord (s : State) (x : Launch) (at_ : Option Nat) : Word :=
  match at_ with
  | some t => BitVec.ofNat 64 (s.cycleAt x.origin t)
  | none => 0

/-- The originating module writes a launch's record, after the write-back of every rank that it reaches, and the launch is over (R363, R478);
word 2 is 0 when no hart on it has issued an instruction (DESIGN CHOICE, log 89). -/
def State.closeLaunch (s : State) (l : Nat) (x : Launch) (status : Word) : State :=
  if x.noRecord then s.forgetLaunch l
  else
    let a := s.countWord x ((Tbl.find (x.pkt.ranks.idxOf x.origin) x.shares).bind (·.first))
    let b := s.countWord x x.endAt
    let sure := (x.pkt.ranks.zipIdx.filter (fun c => !x.unsure.any (fun u => u.1 == c.2))).map (·.1)
    match (sure.foldl writeBackModule s).writeRecord x.origin x.queue x.pkt status a b x.taken with
    | none => s
    | some t => t.forgetLaunch l

/-- Every hart of a share has ended (R35). -/
def State.shareEnded (s : State) (l r : Nat) : Bool :=
  s.allHarts.all (fun h => !(h.id.launch == l && h.id.rank == r) || decide (h.phase = .absent) || decide (h.phase = .ended))

/-- The module of rank 0 of a launch. -/
def Launch.rank0 (x : Launch) : Nat := x.pkt.ranks.headD 0

/-- Every rank has reported its end to rank 0 (R363). -/
def Launch.allReported (x : Launch) : Bool :=
  (upto 0 x.pkt.ranks.length).all (fun r => ((Tbl.find r x.shares).map (·.reported)).getD false)

/-- Rank 0 has a rank's report; the last one is the launch's end (R363). -/
def State.noteReport (s : State) (l r : Nat) : State :=
  (s.onShare l r (fun y => { y with reported := true })).onLaunch l (fun z =>
    if z.allReported && z.endAt.isNone then { z with endAt := some s.tick } else z)

/-- A rank whose harts have all ended writes back (R167) and reports its end to rank 0: itself, or over UALink (R363). -/
def State.reportEnd (s : State) (l r m : Nat) (x : Launch) : State :=
  let t := (writeBackModule s m).onShare l r (fun y => { y with endSent := true })
  if r = 0 then t.noteReport l 0 else if m = x.rank0 then t.noteReport l r else { t with fabric := t.fabric ++ [.ended l r] }

/-- A rank's module answers the originating module: it runs and is not lost (R475). -/
def State.answers (s : State) (x : Launch) (r : Nat) : Bool :=
  let k := x.pkt.ranks.getD r 0
  s.modRuns k && !((s.mod? x.origin).map (fun y => y.lost.contains k)).getD false

/-- Ranks that an abort had not reached end their harts and confirm it, once they answer; the end of the abort is now (R363, R478). -/
def State.confirmRanks (s : State) (l : Nat) (x : Launch) : State :=
  let now := (x.unsure.map (·.1)).filter (s.answers x)
  if now.isEmpty then s
  else (s.endRanks l x now.contains).onLaunch l (fun y => { y with
    unsure := y.unsure.filter (fun c => !now.contains c.1)
    endAt := y.endAt.map (fun _ => s.tick) })

/-- Every rank that has not confirmed an abort is lost, or has had LTIMEOUT cycles (R478). -/
def State.gaveUp (s : State) (x : Launch) : Bool :=
  match s.mod? x.origin with
  | none => false
  | some y => x.unsure.all (fun c => y.lost.contains (x.pkt.ranks.getD c.1 0) || decide (y.set.ltimeout ≤ s.since c.2))

/-- LAUNCH_COMPLETION: all harts of a rank have ended: it reports its end; once rank 0 has every report, or once the launch was
aborted and each rank has confirmed it or LTIMEOUT has passed, the originating module writes the record (R363, R477, R478, logs 35, 54). -/
def execLaunchCompletion (l rk : Nat) (s : State) : Host.Outcome State Fault Refusal :=
  match s.launch? l with
  | none => .next s
  | some x =>
    if x.closed then .next s
    else if x.finished then
      if !s.modRuns x.origin then .next s
      else
        let t := s.confirmRanks l x
        match t.launch? l with
        | none => .next t
        | some z =>
          let gone := ((Tbl.find (z.pkt.ranks.idxOf z.origin) z.shares).map (fun y => decide (y.state = .gone))).getD true
          if gone && t.gaveUp z then .next (t.closeLaunch l z (unconfirmed z.status (z.unsure.map (·.1)))) else .next t
    else match x.pkt.ranks[rk]?, Tbl.find rk x.shares with
      | some m, some y =>
        if !s.modRuns m || !(decide (y.state = .running) || decide (y.state = .suspending)) || !s.shareEnded l rk then .next s
        else
          let t := if y.endSent then s else s.reportEnd l rk m x
          match t.launch? l with
          | none => .next t
          | some z => if z.allReported && t.modRuns z.origin then .next (t.closeLaunch l z 0) else .next t
      | _, _ => .next s

/-- RANK_END_REPORT: message n, a rank's end, reaches rank 0 (R363). -/
def execRankEndReport (n : Nat) (s : State) : Host.Outcome State Fault Refusal :=
  match s.fabric[n]? with
  | some (.ended l r) => match s.launch? l with
    | none => .next (s.dropMsg n)
    | some x => if s.modRuns x.rank0 then .next ((s.dropMsg n).noteReport l r) else .next s
  | _ => .next s

/-! ### Taking a head packet -/

/-- The head packet has been placed or refused: HEAD advances; a pending disable takes effect (R360, R361). -/
def State.takeHead (s : State) (m q : Nat) : State :=
  s.onMod m (fun x =>
    let y := x.queue q
    let z := { y with head := y.head + 1, since := s.tick, reserved := false }
    { x with
      queues := Tbl.put q (if y.disabling then z.close else z) x.queues
      served := Tbl.put y.prio.toNat q x.served })

/-- The head packet is refused: QERR CODE 0x03, then its record with STATUS 0x01 (R361, R478, R479). -/
def State.refuse (s : State) (m q : Nat) (y : Queue) (p : Packet) (word : Nat) : Option State :=
  (writeBackModule (queueErr (s.takeHead m q) m q 3 y.head) m).writeRecord m q p (statusWord 1 word 0) 0 0 y.head

/-- Serial-number arithmetic modulo 2^32: a is later than b (R53). -/
def laterGen (a b : BitVec 32) : Bool := decide (a ≠ b) && decide ((a - b).toNat < 2 ^ 31)

/-- Whether a reserved head keeps a candidate of a level from being placed (R366): one of a higher level, or of its own level
that is another and, when the candidate is reserved too, has waited longer. -/
def Module.blocked (x : Module) (prio : Nat) (q : Option Nat) : Bool :=
  x.queues.any (fun c => c.2.reserved && !decide (q = some c.1) && (decide (prio < c.2.prio.toNat) ||
    (decide (prio = c.2.prio.toNat) && (match q with
      | none => true
      | some k => !(x.queue k).reserved || decide (c.2.since < (x.queue k).since)))))

/-- Whether a reserved head of another rank than the originating module keeps it from arming its share, which it places at the
priority that the packet carries (R366, R370). -/
def State.marchBlocked (s : State) (l m : Nat) (x : Module) : Bool :=
  match s.launch? l with
  | some y => decide (y.origin ≠ m) && x.blocked y.prio none
  | none => false

/-- A rank tells rank 0 that the start fails (R474). -/
def State.refuseRank (s : State) (l r detail failing : Nat) : State :=
  { s.dropShare l r with fabric := s.fabric ++ [.disarm l 0 detail failing] }

/-- Whether a rank takes part in the start barrier that is under way: every rank at a launch's start (R54); at a resumption,
a rank that holds the launch Saved, is still saving it, or has armed it again (R370, log 35). -/
def Launch.takesPart (x : Launch) (r : Nat) : Bool :=
  x.replicated.isSome || ((Tbl.find r x.shares).map (fun y =>
    decide (y.state = .armed) || decide (y.state = .suspending) || decide (y.state = .saved))).getD false

/-- The lowest rank that takes part in a launch's barrier, whose arrival rank 0 does not hold and which rank 0's module m has lost (R474). -/
def State.lostPart (s : State) (l m : Nat) : Option Nat :=
  match s.launch? l, s.mod? m with
  | some x, some y => (upto 0 x.pkt.ranks.length).find? (fun k =>
      y.lost.contains (x.pkt.ranks.getD k 0) && x.takesPart k && !x.arrivals.contains k)
  | _, _ => none

/-- A rank arms its share of a domain launch, or tells rank 0 why it does not (R53, R54, R474): `none` while it cannot place. A
module that has armed no domain launch holds no generation. Rank 0 abandons the start when it has lost another rank before its arrival. -/
def State.armRank (s : State) (l r m : Nat) (p : Packet) (want : List Nat) : Option State :=
  match s.mod? m with
  | none => none
  | some x =>
    if x.lastGen.any (fun g => !laterGen p.gen g) then some (s.refuseRank l r 1 r)
    else match (if r = 0 then s.lostPart l m else none), s.readBank m p with
      | some k, _ => some (s.refuseRank l r 3 k)
      | none, .error (.trap _ _) => some (s.refuseRank l r 2 r)
      | none, .error (.hold _ _) => none
      | none, .ok bs => match (if s.marchBlocked l m x then none else s.spot m p) with
        | none => none
        | some cores =>
          let t := (s.armShare l r m p (bankSlots bs) want cores).onMod m (fun x => { x with lastGen := some p.gen })
          some { t with fabric := t.fabric ++ [.arrival l r] }

/-- A launch as its packet is taken. -/
def newLaunch (m q : Nat) (y : Queue) (p : Packet) (tick : Nat) : Launch where
  pkt := p
  origin := m
  queue := q
  prio := y.prio.toNat
  shares := []
  arrivals := []
  replicated := if p.single then none else some tick
  frz := false
  finished := false
  status := 0
  taken := y.head
  endAt := none
  closed := false
  noRecord := false
  unsure := []

/-- Place a head packet (R42, R365): a launch on one module starts at once; a domain launch is replicated to the other ranks
(R53, R370) and arms its own share. -/
def State.placeHead (s : State) (m q : Nat) (y : Queue) (p : Packet) (want : List Nat) : Option State :=
  let l := s.serial
  let t := { s with serial := l + 1, launches := Tbl.put l (newLaunch m q y p s.tick) s.launches }
  if p.single then
    match s.readBank m p, s.spot m p with
    | .ok bs, some cores => some (((t.armShare l 0 m p (bankSlots bs) want cores).startShare l 0).takeHead m q)
    | _, _ => none
  else
    let own := p.ranks.idxOf m
    let others := (upto 0 p.ranks.length).filter (· ≠ own)
    let u := { t with fabric := t.fabric ++ others.map (Msg.march l) }
    if own < p.ranks.length then (u.armRank l own m p want).map (fun v => v.takeHead m q) else some (u.takeHead m q)

/-- The queue has a launch that has not completed (R362, R364). -/
def State.queueBusy (s : State) (m q : Nat) : Bool :=
  s.launches.any (fun l => l.2.origin == m && l.2.queue == q && !l.2.closed)

/-- What becomes of the head packet of a queue: refused, placed, or none while it is not placeable (R361, R364, R489). -/
def State.tryHead (s : State) (m q : Nat) (want : List Nat) : Option State :=
  match s.mod? m with
  | none => none
  | some x =>
    let y := x.queue q
    if !y.en || decide (y.head = y.tail) then none
    else
      let w := s.packetWords m y
      let p := packetOf m w
      match packetFaults w p (s.bankFails m p) (s.doneFails m p) with
      | k :: _ => s.refuse m q y p k
      | [] => if p.ser && s.queueBusy m q then none else s.placeHead m q y p want

/-- HEAD_AGE_EXPIRY: a head packet that has waited for AGE cycles becomes reserved (R366). -/
def execHeadAgeExpiry (m q : Nat) (s : State) : Host.Outcome State Fault Refusal :=
  match s.mod? m with
  | none => .next s
  | some x =>
    let y := x.queue q
    if s.modRuns m && decide (q < 64) && y.en && decide (y.head ≠ y.tail) && decide (x.set.age ≤ s.since y.since) then
      .next (s.onQueue m q (fun z => { z with reserved := true }))
    else .next s

/-! ### The March -/

/-- Rank 0 abandons a start: it sends a disarm to every other rank and releases its own share; the originating module will
write STATUS 0x04. At a resumption the launch is aborted (R370, R474). -/
def State.abandon (s : State) (l detail failing : Nat) : State :=
  match s.launch? l with
  | none => s
  | some x =>
    if x.finished then s
    else if x.replicated.isNone then abortLaunch s x.rank0 l 4 detail failing
    else
      let t := s.onLaunch l (fun y => { y with finished := true, status := statusWord 4 detail failing, replicated := none })
      let t := t.dropShare l 0
      { t with fabric := t.fabric.filter (fun m => match m with
          | .march k _ => !(k == l)
          | _ => true) ++ (upto 1 (x.pkt.ranks.length - 1)).map (fun r => Msg.disarm l r detail failing) }

/-- The lowest rank that takes part whose arrival rank 0 does not hold (R54, R474). -/
def Launch.missing (x : Launch) : Option Nat :=
  (upto 0 x.pkt.ranks.length).find? (fun r => x.takesPart r && !x.arrivals.contains r)

/-- Rank 0 holds every arrival: it sends a release to every rank (R54, R370). -/
def State.releaseAll (s : State) (l : Nat) : State :=
  match s.launch? l with
  | none => s
  | some x =>
    if x.missing.isNone then
      let t := s.onLaunch l (fun y => { y with arrivals := [], replicated := none })
      { t with fabric := t.fabric ++ (upto 0 x.pkt.ranks.length).map (Msg.release l) }
    else s

/-- MARCH_ARRIVAL: message n reaches rank 0 (R54); one of no live launch is stale (R473). -/
def execMarchArrival (n : Nat) (s : State) : Host.Outcome State Fault Refusal :=
  match s.fabric[n]? with
  | some (.arrival l r) => match s.launch? l with
    | none => .next (s.dropMsg n)
    | some x =>
      if !s.modRuns x.rank0 then .next s
      else if x.finished then .next (countStale (s.dropMsg n) x.rank0 false)
      else .next (((s.dropMsg n).onLaunch l (fun y => { y with arrivals := if y.arrivals.contains r then y.arrivals else y.arrivals ++ [r] })).releaseAll l)
  | _ => .next s

/-- MARCH_RELEASE: message n reaches a rank, which starts its Armed harts (R54). -/
def execMarchRelease (n : Nat) (s : State) : Host.Outcome State Fault Refusal :=
  match s.fabric[n]? with
  | some (.release l r) => match s.rankModule l r with
    | none => .next (s.dropMsg n)
    | some m =>
      if !s.modRuns m then .next s
      else if !s.liveOn l m then .next (countStale (s.dropMsg n) m false)
      else if ((s.share? l r).map (fun y => decide (y.state = .armed))).getD false then .next ((s.dropMsg n).startShare l r)
      else .next (s.dropMsg n)
  | _ => .next s

/-- MARCH_DISARM: message n reaches a rank, which releases its share; at rank 0 it is a rank's failure, on which rank 0
abandons the start (R474). One of a launch that no share is resident or Saved for is stale (R473). -/
def execMarchDisarm (n : Nat) (s : State) : Host.Outcome State Fault Refusal :=
  match s.fabric[n]? with
  | some (.disarm l r detail failing) => match s.rankModule l r with
    | none => .next (s.dropMsg n)
    | some m =>
      if !s.modRuns m then .next s
      else if r = 0 then
        if ((s.launch? l).map (·.finished)).getD true then .next (countStale (s.dropMsg n) m false)
        else .next ((s.dropMsg n).abandon l detail failing)
      else if ((s.share? l r).map (fun y => decide (y.state ≠ .gone))).getD false then .next ((s.dropMsg n).dropShare l r)
      else .next (countStale ((s.dropMsg n).dropShare l r) m false)
  | _ => .next s

/-- The record of a rank that disarms because rank 0 is lost (R407, R474); what its other words hold is not stated (log 33). -/
def disarmErr (s : State) (x : Launch) (r : Nat) : ErrRec where
  valid := true
  ovf := false
  rank := BitVec.ofNat 6 r
  y := (Config.unstated s.free).setWidth 4
  x := (Config.unstated (s.free + 1)).setWidth 4
  hidx := (Config.unstated (s.free + 2)).setWidth 3
  imp := false
  cause := 0x40F
  tag := BitVec.ofNat 64 (x.pkt.gen.toNat * 2 ^ 32)
  epc := Config.unstated (s.free + 3)
  vpc := Config.unstated (s.free + 4)
  tval := 0
  info := Config.unstated (s.free + 5)
  cycle := BitVec.ofNat 64 (s.cycle (x.pkt.ranks.getD r 0))
  hart := none
  node := none

/-- MARCH_TIMEOUT: at rank 0, MARCHTO cycles after replication (or after it was armed again) an arrival is missing; at another
rank, MARCHTO cycles after its arrival there is no release, and it queries rank 0, which answers, or does not and is found lost (R370,
R474). -/
def execMarchTimeout (l rk : Nat) (s : State) : Host.Outcome State Fault Refusal :=
  match s.launch? l with
  | none => .next s
  | some x => match x.pkt.ranks[rk]? with
    | none => .next s
    | some m => match s.mod? m with
      | none => .next s
      | some y =>
        if !s.modRuns m || x.finished || x.pkt.single then .next s
        else
          let armed := (Tbl.find rk x.shares).bind (fun z => if z.state = .armed then some z.armedAt else none)
          if rk = 0 then
            match (if x.replicated.isSome then x.replicated else armed), x.missing with
            | some t, some r => if y.set.marchto ≤ s.since t then .next (s.abandon l 4 r) else .next s
            | _, _ => .next s
          else match armed with
            | none => .next s
            | some t =>
              let rest := s.fabric.filter (fun q => decide (q ≠ .query l rk))
              if s.since t < y.set.marchto then .next s
              else if y.lost.contains x.rank0 then
                .next (writeErr ({ s with free := s.free + 6, fabric := rest }.dropShare l rk) m domQueue (disarmErr s x rk))
              else if s.modRuns x.rank0 then .next ({ s with fabric := rest }.heard m x.rank0)
              else if s.fabric.contains (.query l rk) then .next s
              else .next { s with fabric := s.fabric ++ [.query l rk] }

/-! ### Lost ranks and ports -/

/-- Messages of module m that cannot reach a rank that it has lost (R475). -/
def State.lostMsg (s : State) (m lost : Nat) (x : Msg) : Bool := decide (x.between s = some (m, lost))

/-- The operand address of a request to another module (R472). -/
def requestOperand (s : State) (i : Instr) : Word := if (farOf i).isSome then farOperand s i else kvOperand s i

/-- The outstanding request of a hart is unanswered: it faults with 0x0F.3 at its operand (R475). -/
def State.failRequest (s : State) (i : HartId) : State :=
  s.onHart i (fun h => { h with vq := match h.vq with
    | e :: rest =>
      let va := requestOperand { s with cur := { h with active := some e } } e.instr
      (if e.remote = .sent then { e with remote := .done ⟨0, [], some (0, ⟨mkCause 0x0F 3, va, true⟩)⟩ } else e) :: rest
    | [] => [] })

/-- What a message that cannot reach a lost rank leads to: its request fails, and rank 0 is told of a start that cannot reach a rank (R474,
R475). -/
def State.lose (s : State) (m : Nat) : Msg → State
  | .farReq h _ | .kvReq h _ => s.failRequest h
  | .errRec l r => reportRec s l m r
  | .march l r => if (s.launch? l).any (fun x => decide (x.rank0 ≠ m)) then { s with fabric := s.fabric ++ [.disarm l 0 3 r] } else s
  | _ => s

/-- RANK_LOST: a module declares a rank lost from which no port has carried a response for LTIMEOUT cycles while requests to it are
outstanding: those requests fault their issuers, a start that waits for it fails, records for it go to the domain error record (R407,
R474, R475). -/
def execRankLost (m lost : Nat) (s : State) : Host.Outcome State Fault Refusal :=
  match s.mod? m with
  | none => .next s
  | some x =>
    let late := match Tbl.find lost x.asked with
      | some t => decide (x.set.ltimeout ≤ s.since t)
      | none => false
    if !s.modRuns m || decide (m = lost) || x.lost.contains lost || !late then .next s
    else
      let t := s.onMod m (fun y => { y with lost := y.lost ++ [lost] })
      let dead := t.fabric.filter (t.lostMsg m lost)
      let t := dead.foldl (fun u y => u.lose m y) { t with fabric := t.fabric.filter (fun y => !t.lostMsg m lost y) }
      .next (s.launches.foldl (fun u c =>
        let r := c.2.pkt.ranks.idxOf lost
        let armed := ((Tbl.find 0 c.2.shares).map (fun z => decide (z.state = .armed))).getD false
        if !c.2.pkt.single && decide (c.2.rank0 = m) && decide (r < c.2.pkt.ranks.length) && !c.2.arrivals.contains r &&
          (c.2.replicated.isSome || (armed && c.2.takesPart r)) then u.abandon c.1 3 r else u) t)

/-- A port's registers. -/
def Module.port (x : Module) (p : Nat) : Port := (Tbl.find p x.ports).getD Port.reset

/-- Change a port's registers (R372: 18 ports). -/
def State.onPort (s : State) (m p : Nat) (f : Port → Port) : State :=
  if s.modRuns m && decide (p < 18) then s.onMod m (fun x => { x with ports := Tbl.put p (f (x.port p)) x.ports }) else s

/-- A saturating sum of 32 bits. -/
def satAdd (c : BitVec 32) (n : Nat) : BitVec 32 := if 2 ^ 32 ≤ c.toNat + n then BitVec.allOnes 32 else c + BitVec.ofNat 32 n

/-- UALINK_LINK_ERROR: link-level retry corrects an error; whether the retry rate is above firmware's limit is free (R475, log 3). -/
def execUalinkLinkError (m p : Nat) (s : State) : Host.Outcome State Fault Refusal :=
  .next (s.onPort m p (fun y => { y with retries := satInc y.retries, degraded := (Config.unstated s.free).getLsbD 0 })).draw

/-- UALINK_PORT_FAILURE: a port goes down; its outstanding requests, as many as the free value says, are reissued on the
others (R475, log 3). -/
def execUalinkPortFailure (m p : Nat) (s : State) : Host.Outcome State Fault Refusal :=
  let n := (Config.unstated s.free).toNat % (s.fabric.length + 1)
  .next (s.onPort m p (fun y => if y.up then { y with up := false, downs := satInc y.downs, reissued := satAdd y.reissued n } else y)).draw

/-- LINK_TRAINED: a port finishes training (R475). -/
def execLinkTrained (m p : Nat) (s : State) : Host.Outcome State Fault Refusal :=
  .next (s.onPort m p (fun y => { y with up := true }))

/-! ### Firmware's requests -/

/-- CONST_BANK_RELOAD: slots ka to kb of a launch's bank on one module are replaced at one switch point from an image in the
launch's address space; instructions that have issued keep what they read (R432). -/
def execConstBankReload (l rk ka kb : Nat) (image : Word) (s : State) : Host.Outcome State Fault Refusal :=
  match s.launch? l, s.rankModule l rk with
  | some x, some m =>
    let n := kb + 1 - ka
    if !s.modRuns m || x.finished || decide (kb < ka) || decide (255 < kb) then .next s
    else match s.readAs x.pkt.ranks m x.pkt.atp (lineRuns (n / 16 + 2) image.toNat (8 * n)) with
      | .error _ => .next s
      | .ok bs => .next (s.onShare l rk (fun y => { y with
          const := (upto 0 n).foldl (fun t i => Tbl.put (ka + i) (BitVec.ofNat 64 (leNat ((bs.drop (8 * i)).take 8))) t) y.const }))
  | _, _ => .next s

/-- FRZ_ENABLE: Ouvenaern enables FRZ for a launch (R220). -/
def execFrzEnable (l : Nat) (s : State) : Host.Outcome State Fault Refusal := .next (s.onLaunch l (fun x => { x with frz := true }))

end Sys2Proof.Machine
end

