-- ==== Sys2Proof/Machine/Pages.lean ====
section
/-! DEFINITION. Moving pages: migration, the accesses that it holds, pages that follow their writer (R142, R442, R446, R447). -/

namespace Sys2Proof.Machine

/-- Every on-chip and memory-side copy of a byte range reaches its memory, which alone holds it then (R446 step 2). -/
def State.flushRange (s : State) (a n : Nat) : State :=
  let inside := fun (line : Nat) => decide (a / 128 ≤ line) && decide (128 * line < a + n)
  let t := ((s.l2 ++ s.near.map (fun (c : Nat × Byte) => c.1 / 128)).dedup.filter inside).foldl recallLine s
  ((t.msc.map (fun (c : Nat × MscLine) => c.1)).filter inside).foldl evictMsc t

/-- The bytes of one range become those of another; what they held is gone (R446 step 3). -/
def Memory.copyRange (mem : Memory) (src dst n : Nat) : Memory :=
  (mem.filter (fun c => decide (src ≤ c.1) && decide (c.1 < src + n))).foldl (fun t c => Tbl.store 0 (c.1 - src + dst) c.2 t)
    (mem.filter (fun c => !(decide (dst ≤ c.1) && decide (c.1 < dst + n))))

/-- Poison moves with the words of a page (R455). -/
def copyBad (bad : List Nat) (src dst n : Nat) : List Nat :=
  bad.filter (fun w => !(decide (dst ≤ 8 * w) && decide (8 * w < dst + n))) ++
    ((bad.filter (fun w => decide (src ≤ 8 * w) && decide (8 * w < src + n))).map (fun w => w + dst / 8 - src / 8))

/-- The tables of an address space that a module walks: each entry's location with its level, from a root (R124). -/
def State.tableEntries (s : State) (ranks : List Nat) (m : Nat) : Nat → Nat → List (Nat × Nat)
  | 0, _ => []
  | level + 1, ppn => (upto 0 512).flatMap (fun i =>
      match s.resolve ranks m (ppn * 4096 + 8 * i) with
      | .error _ => []
      | .ok x =>
        let e := leNat (readBytes s false x.loc 8)
        if !bit e 0 || pteBad e level then []
        else if bit e 1 || bit e 2 || bit e 3 then [(x.loc, level)]
        else s.tableEntries ranks m level (bits e 10 40))

/-- The packets that a module's queues hold, the head first (R361). -/
def State.packets (s : State) (m : Nat) : List Packet :=
  match s.mod? m with
  | none => []
  | some x => x.queues.flatMap (fun c => (upto 0 (c.2.tail - c.2.head).toNat).map (fun k =>
      packetOf m (s.packetWords m { c.2 with head := c.2.head + BitVec.ofNat 32 k })))

/-- The address spaces that the device knows, each with its ranks, the module that walks it and its root: those of harts, of launches, of
copy nodes, of the packets in the queues, and those that its Ouvenaern keeps besides (R88, log 26). -/
def State.roots (s : State) : List (List Nat × Nat × Nat) :=
  let ofPacket := fun (p : Packet) => p.ranks.map (fun m => (p.ranks, m, bits p.atp.toNat 0 40))
  ((s.allHarts.filter (fun h => !decide (h.phase = .absent))).map (fun h => (s.ranksOf h, h.mod, bits h.atp.toNat 0 40)) ++
    s.launches.flatMap (fun l => ofPacket l.2.pkt) ++
    s.mods.flatMap (fun c => c.2.nodes.filterMap (fun n => match n.2.kind with
      | .copy j => some (((s.launch? n.2.launch).map (·.pkt.ranks)).getD [c.1], c.1, bits j.atp.toNat 0 40)
      | .call _ _ => none)) ++
    s.mods.flatMap (fun c => (s.packets c.1).flatMap ofPacket) ++
    s.mods.flatMap (fun c => c.2.spaces.flatMap (fun q => q.1.map (fun m => (q.1, m, q.2))))).dedup

/-- The address by which every module of a domain names a byte of one module's HBM or second tier (R120, R121). -/
def seenAs (ranks : List Nat) (t pa : Nat) : Nat :=
  if ranks.length ≤ 1 ∨ !ranks.contains t then pa else 2 ^ 51 + ranks.idxOf t * 2 ^ 45 + pa

/-- The location and the size of what a leaf at a level maps, as a module of a domain sees it. -/
def State.leafSpan (s : State) (ranks : List Nat) (m : Nat) (x : Nat × Nat) : Option (Nat × Nat) :=
  match s.resolve ranks m (bits (leNat (readBytes s false x.1 8)) 10 40 * 4096) with
  | .error _ => none
  | .ok p => some (p.loc, 2 ^ (12 + 9 * x.2))

/-- Ouvenaern writes table entries, at the far point: every walker then reads them (R130, R151). -/
def State.putEntries (s : State) (a : Nat) (es : List Nat) : State := storeFar s a (es.flatMap (leBytes 8)) 0

/-- A leaf that maps part of the old frame names the new one from now on (R446 step 4). -/
def State.rewriteLeaf (s : State) (ranks : List Nat) (m src dst n : Nat) (x : Nat × Nat) : State :=
  match s.leafSpan ranks m x with
  | none => s
  | some (a, k) =>
    if src ≤ a ∧ a + k ≤ src + n then
      let q := a - src + dst
      s.putEntries x.1 [setBits (leNat (readBytes s false x.1 8)) 10 40 (seenAs ranks (q / 2 ^ 52) (q % 2 ^ 52) / 4096)]
    else s

/-- The leaves of the address spaces that the device knows, each with the ranks and the module that walk to it. -/
def State.leaves (s : State) : List (List Nat × Nat × (Nat × Nat)) :=
  s.roots.flatMap (fun r => (s.tableEntries r.1 r.2.1 5 r.2.2).map (fun x => (r.1, r.2.1, x)))

/-- Rewrite the leaves that map a frame and invalidate the translations made from them (R129, R446 step 4). -/
def State.rewriteLeaves (s : State) (src dst n : Nat) : State :=
  { s.leaves.foldl (fun u x => u.rewriteLeaf x.1 x.2.1 src dst n x.2.2) s with tlb := [] }

/-- A leaf that maps bytes of a frame and bytes beside it: a larger one, which cannot name another frame for this one alone. -/
def State.straddling (s : State) (src n : Nat) : Option (List Nat × Nat × (Nat × Nat)) :=
  s.leaves.find? (fun x => match s.leafSpan x.1 x.2.1 x.2.2 with
    | some (a, k) => rangesMeet a k src n && !(decide (src ≤ a) && decide (a + k ≤ src + n))
    | none => false)

/-- A leaf becomes a table of 512 leaves that map what it mapped, in a frame that Ouvenaern keeps for tables; none while it keeps none
(R124, R125, log 26). -/
def State.splitLeaf (s : State) (ranks : List Nat) (x : Nat × Nat) : Option State :=
  match ((s.mod? (x.1 / 2 ^ 52)).map (·.spares)).getD [] with
  | [] => none
  | f :: rest =>
    let e := leNat (readBytes s false x.1 8)
    let t := s.onMod (x.1 / 2 ^ 52) (fun y => { y with spares := rest })
    let t := t.putEntries (loc (x.1 / 2 ^ 52) f) ((upto 0 512).map (fun i => setBits e 10 40 (bits e 10 40 + i * 2 ^ (9 * (x.2 - 1)))))
    some (t.putEntries x.1 [1 + seenAs ranks (x.1 / 2 ^ 52) f / 4096 * 1024])

/-- Leaves are split until each maps bytes of a frame alone, or none of them. -/
def splitLeaves (src n : Nat) : Nat → State → Option State
  | 0, _ => none
  | f + 1, s => match s.straddling src n with
    | none => some s
    | some x => (s.splitLeaf x.1 x.2.2).bind (splitLeaves src n f)

/-- A posted store that was held at the old frame goes to the new one (R446). -/
def Msg.moved (src dst n : Nat) : Msg → Msg
  | .store h va vec far d rd a bs => .store h va vec far d rd (if src ≤ a ∧ a < src + n then a - src + dst else a) bs
  | x => x

/-- Steps 2 to 5 of a move: copies recalled, the page copied, its leaves rewritten, the migration entry cleared (R446); none while a larger
leaf waits for a table. -/
def State.finishMove (s : State) (src dst n : Nat) : Option State :=
  (splitLeaves src n (16 * s.leaves.length + 1) s).map (fun s =>
    let t := (s.flushRange src n).flushRange dst n
    let t := { t with dram := Memory.copyRange t.dram src dst n, badMem := copyBad t.badMem src dst n }
    let t := t.rewriteLeaves src dst n
    ({ t with fabric := t.fabric.map (Msg.moved src dst n) }).onMod (src / 2 ^ 52) (fun x =>
      { x with moving := x.moving.filter (fun e => !(e.frame == src % 2 ^ 52)) }))

/-- Step 1 of a move: the frame, no part of which moves already, enters the migration table while it has room (R442, R446). -/
def State.startMove (s : State) (src dst n : Nat) : State :=
  if s.rangeMoves src n || s.rangeMoves dst n then s
  else s.onMod (src / 2 ^ 52) (fun x =>
    if 32 ≤ x.moving.length then x else { x with moving := x.moving ++ [⟨src % 2 ^ 52, n, dst, []⟩] })

/-- Where a frame that stands in the migration table of its module moves to, and its size. -/
def State.movesTo (s : State) (src : Nat) : Option (Nat × Nat) :=
  match s.mod? (src / 2 ^ 52) with
  | some x => (x.moving.find? (fun e => e.frame == src % 2 ^ 52)).map (fun e => (e.dst, e.size))
  | none => none

/-- One more move, or one more pin, in a module's MIGSTAT (R447). -/
def State.migstat (s : State) (m : Nat) (pin : Bool) : State :=
  s.onMod m (fun x => if pin then { x with pins := x.pins + 1 } else { x with moves := x.moves + 1 })

/-- Whether a source's remote stores to a page have reached MTHRESH within 2^24 cycles (R446). -/
def State.pastThreshold (s : State) (x : Module) (p : PageRec) (src : Nat) : Bool :=
  decide (x.set.mthresh ≤ (p.stores.filter (fun c => c.1 == src && decide (s.since c.2 ≤ 2 ^ 24))).length)

/-- Whether a page has moved MIGMAX times within 2^30 cycles (R446). -/
def State.movedOften (s : State) (x : Module) (p : PageRec) : Bool :=
  decide (x.set.migmax ≤ (p.moves.filter (fun t => decide (s.since t ≤ 2 ^ 30))).length)

/-- MIGRATION_TRIGGER: a rank's stores to a migratable page reach MTHRESH: the page is pinned, or its frame is recorded; when
the event comes again the page moves to the free frame on that rank (R446, R447, log 26). -/
def execMigrationTrigger (m page src frame : Nat) (s : State) : Host.Outcome State Fault Refusal :=
  match s.mod? m with
  | none => .next s
  | some x => match Tbl.find page x.pages with
    | none => .next s
    | some p =>
      let a := loc m (page * 2 ^ 21)
      let b := loc src (frame * 2 ^ 21)
      if !s.modRuns m || !s.modRuns src || decide (m = src) || decide (0x60000 ≤ frame) || decide (0x60000 ≤ page) then .next s
      else if (s.movesTo a).isSome then
        match (if s.movesTo a = some (b, 2 ^ 21) then s.finishMove a b (2 ^ 21) else none) with
        | none => .next s
        | some t =>
          let t := t.onMod m (fun y => { y with pages := Tbl.del page y.pages })
          let t := t.onMod src (fun y => { y with pages := Tbl.put frame ⟨[], p.moves ++ [s.tick], false⟩ y.pages })
          .next ((t.migstat m false).migstat src false)
      else if p.pinned || !s.pastThreshold x p src then .next s
      else if s.movedOften x p then
        .next (((s.onMod m (fun y => { y with pages := Tbl.put page { p with pinned := true } y.pages })).migstat m true).migstat src true)
      else .next (s.startMove a b (2 ^ 21))

/-- PAGE_TIER_MIGRATE: Ouvenaern moves a frame of 4 KiB to 2 MiB between HBM and the second tier: its frame is recorded; when
the event comes again for that frame the move is done (R142, R442, log 26). -/
def execPageTierMigrate (m src dst size : Nat) (s : State) : Host.Outcome State Fault Refusal :=
  match s.mod? m with
  | none => .next s
  | some x => match resolveLocal x m src, resolveLocal x m dst, resolveLocal x m (dst + size - 1) with
    | .ok p, .ok q, .ok r =>
      if !s.modRuns m || decide (p.kind = .cxl) || decide (q.kind = .cxl) || decide (r.kind = .cxl) ||
          decide (p.kind = .tier2 ↔ q.kind = .tier2) || decide (size < 4096) || decide (2 ^ 21 < size) ||
          decide (size % 4096 ≠ 0) || decide (src % size ≠ 0) || decide (dst % size ≠ 0) then .next s
      else match s.movesTo (loc m src) with
        | some b => if b = (loc m dst, size) then .next ((s.finishMove (loc m src) b.1 size).getD s) else .next s
        | none => .next (s.startMove (loc m src) (loc m dst) size)
    | _, _, _ => .next s

/-- The vector-queue head of the current hart, which stops at its recorded point and is replayed (R390, R403). -/
def State.trapHead (s : State) : State :=
  match s.cur.vq with
  | [] => s
  | e :: rest => ({ s with cur := { s.cur with vq := { e with trapped := true } :: rest } } : State).noteMatrix e.instr

/-- A posted store of a hart that a migration has held for longer than `n` cycles: its address (R442). -/
def State.heldLong (s : State) (h : HartId) (n : Nat) : Option Word :=
  s.mods.findSome? (fun c => c.2.moving.findSome? (fun e =>
    (e.held.find? (fun k => decide (k.1 = h) && decide (n < s.since k.2.2))).map (·.2.1)))

/-- The time for which a hart's posted stores have been held starts again. -/
def State.holdAgain (s : State) (h : HartId) : State :=
  { s with mods := s.mods.map (fun c => (c.1, { c.2 with moving := c.2.moving.map (fun e =>
      { e with held := e.held.map (fun k => if k.1 = h then (k.1, k.2.1, s.tick) else k) }) })) }

/-- What a migration holds: an access, or a walk's read of a table entry (R442); a module that gives no response holds for itself (R475). -/
def Holder.subCause : Holder → Option Nat
  | .frame => some 1
  | .table => some 2
  | .silent _ => none

/-- MIGRATION_HOLD_TIMEOUT: an access of a hart that has been held for longer than MHOLD cycles raises 0x0B.1, or 0x0B.2 for
a table entry (R442); one that was posted raises it at the hart's next instruction (log 36). The hart's request to another module reaches
a recorded point first (R405, R408). -/
def execMigrationHoldTimeout (h : HartId) (s : State) : Host.Outcome State Fault Refusal :=
  match s.hart? h with
  | none => .next s
  | some x => match s.mod? x.mod with
    | none => .next s
    | some y =>
      if !decide (x.phase = .running) || !s.modRuns x.mod then .next s
      else match (x.heldFrom.filter (fun k => decide (y.set.mhold < s.since k.since))).bind (fun k => k.holder.subCause.map (fun c => (k, c))) with
        | some (k, c) => .next (s.asHart h (fun t =>
            let u := { t.settleRequest with cur := { t.settleRequest.cur with heldFrom := none } }
            takeTrap (if k.vec then u.trapHead else u) ⟨mkCause 0x0B c, k.va, k.vec⟩))
        | none => match s.heldLong h y.set.mhold with
          | none => .next s
          | some va => .next ((s.holdAgain h).asHart h (fun t => takeTrap t.settleRequest ⟨mkCause 0x0B 1, va, false⟩))

/-- MIGRATABLE_MARK_CLEAR: the driver clears a page's migratable mark, and with it its pin (R446). -/
def execMigratableMarkClear (m page : Nat) (s : State) : Host.Outcome State Fault Refusal :=
  if !s.modRuns m then .next s else .next (s.onMod m (fun x => { x with pages := Tbl.del page x.pages }))

end Sys2Proof.Machine
end

