-- ==== Sys2Proof/Machine/Recovery.lean ====
section
/-! DEFINITION. Notices, forced saves, suspension, resumption, the scheduler, the watchdog, deadlock checks and error records
(R56 to R58, R365, R368, R369, R405 to R409, R465 to R471). -/

namespace Sys2Proof.Machine

/-! ### Notices and saves -/

/-- Post a notice to a hart (R56, R84, R217). -/
def Hart.notify (h : Hart) (deadline : BitVec 32) (tick : Nat) : Hart :=
  { h with notice := ⟨true, deadline, tick⟩, event := true }

/-- A hart that can be given a notice: it is resident and started. -/
def Hart.active? (h : Hart) : Bool := decide (h.phase = .running) || decide (h.phase = .waiting)

/-- NOTICE_POST: firmware posts a notice with a deadline of at least 4,096 cycles (R56, R410). -/
def execNoticePost (h : HartId) (deadline : BitVec 32) (s : State) : Host.Outcome State Fault Refusal :=
  match s.hart? h with
  | none => .next s
  | some x =>
    if s.modRuns x.mod && x.active? && decide (4096 ≤ deadline.toNat) then .next (s.onHart h (fun y => y.notify deadline s.tick))
    else .next s

/-- A hart saved by force: its state is kept exactly; sr.tepc is the oldest scalar head not yet issued, sr.tcause is 0x10 with
sr.tval 0, the grant size is recorded and pinned; sr.tinfo and sr.tvpc keep their values (R392, R408, log 24). -/
def Hart.forced (h : Hart) : Hart :=
  let r := h.saveInPlace
  { r with
    waitOn := none
    heldFrom := none
    needsAct := false
    seen := none
    trap := { r.trap with tepc := h.pc, cause := mkCause 0x10 0, tval := 0, grnt := BitVec.ofNat 4 h.grant, pin := true } }

/-- Save a hart by force: a request of its to a stack or to another module reaches a recorded point first; it leaves its slot, and its far
banks with it (R408, R467). -/
def State.forceSave (s : State) (h : HartId) : State :=
  s.asHart h (fun t =>
    let u := t.settleRequest.stow
    { u with cur := { (u.markLeft u.cur).forced with notice := u.cur.notice } })

/-- FORCED_PREEMPTION: LEFT has reached 0 with PEND = 1: the hart is saved by force; in handler mode the notice is held (R396,
R408). -/
def execForcedPreemption (h : HartId) (s : State) : Host.Outcome State Fault Refusal :=
  match s.hart? h with
  | none => .next s
  | some x =>
    if s.modRuns x.mod && x.active? && x.notice.pend && !x.trap.hm && decide (s.leftOf x = 0) then .next (s.forceSave h) else .next s

/-! ### Suspension -/

/-- The harts of a share. -/
def State.shareHarts (s : State) (l r : Nat) : List Hart :=
  s.allHarts.filter (fun h => h.id.launch == l && h.id.rank == r && !decide (h.phase = .absent))

/-- Every hart of a share is Saved or Ended (R368). -/
def State.allSaved (s : State) (l r : Nat) : Bool :=
  (s.shareHarts l r).all (fun h => decide (h.phase = .saved) || decide (h.phase = .ended))

/-- Sends held for a share. -/
def Send.isFor (x : Send) (l r : Nat) : Bool := x.dest.launch == l && x.dest.rank == r

/-- A share becomes Saved: its held sends are saved in order with its window (R41, R320, R368). -/
def State.saveShare (s : State) (l r m : Nat) : State :=
  match s.mod? m with
  | none => s
  | some x =>
    let mine := x.holds.flatMap (fun c => c.2.filter (fun y => y.isFor l r))
    let t := s.onMod m (fun y => { y with holds := y.holds.map (fun c => (c.1, c.2.filter (fun z => !z.isFor l r))) })
    let t := t.onShare l r (fun y => { y with state := .saved, savedAt := s.tick, held := mine })
    x.holds.foldl (fun u c => u.pump m c.1) t

/-- LAUNCH_SUSPEND: a notice with one deadline goes to every hart of the launch on the module; when the event comes again and
each hart is Saved or Ended, the launch is Saved (R368, log 35). -/
def execLaunchSuspend (l rk : Nat) (deadline : BitVec 32) (s : State) : Host.Outcome State Fault Refusal :=
  match s.share? l rk, s.rankModule l rk with
  | some y, some m =>
    if !s.modRuns m || decide (deadline.toNat < 4096) then .next s
    else if y.state = .running then
      let t := (s.onShare l rk (fun z => { z with state := .suspending })).onHarts
        (fun h => h.id.launch == l && h.id.rank == rk && h.active?) (fun h => h.notify deadline s.tick)
      .next (if t.allSaved l rk then t.saveShare l rk m else t)
    else if y.state = .suspending ∧ s.allSaved l rk then .next (s.saveShare l rk m)
    else .next s
  | _, _ => .next s

/-! ### Resumption -/

/-- Lane groups that a saved hart needs at least: exactly GRNT when it is pinned, a stage's floor, or Gmin (R37, R409). -/
def Hart.needs (h : Hart) (p : Packet) : Nat :=
  if h.trap.pin then h.trap.grnt.toNat else if 2 ≤ p.stages then p.floor.getD h.seat.stage 1 else p.gmin

/-- The harts of a share on a launch-relative core that resume, in order of their index, which is their stage (R37, R44). -/
def State.toResume (s : State) (l r x y : Nat) : List Hart :=
  (upto 0 8).filterMap (fun k =>
    (s.shareHarts l r).find? (fun h => h.id.x == x && h.id.y == y && decide (h.id.hidx = k) && decide (h.phase = .saved)))

/-- Room in a core's hold queue for the held sends that go there (R465). -/
def State.holdRoom (s : State) (m core : Nat) (n : Nat) : Bool :=
  match s.mod? m with
  | some x => decide ((x.holdsOf core).length + n ≤ 16)
  | none => false

/-- A core takes one launch-relative core: H slots, H × Gmin lane groups or what its harts need, its window, claims and held sends, whichever
of its harts have ended (R364, R409, R465). -/
def State.resumeFits (s : State) (l r m : Nat) (x : Launch) (y : Share) (c : (Nat × Nat) × Nat) : Bool :=
  let hs := s.toResume l r c.1.1 c.1.2
  s.coreFits m c.2 x.pkt x.pkt.harts (max x.pkt.lanes ((hs.map (fun h => h.needs x.pkt)).sum)) &&
    decide ((hs.map Hart.acnt).sum + s.tilesHeld m c.2 ≤ 8) &&
    s.holdRoom m c.2 ((y.held.filter (fun z => z.dest.x == c.1.1 && z.dest.y == c.1.2)).length)

/-- With fused L1 each aligned 2 × 2 block lies in one physical cluster (R42, R465). -/
def blocksOk (p : Packet) (cs : List ((Nat × Nat) × Nat)) : Bool :=
  !p.fused || cs.all (fun a => cs.all (fun b =>
    !(a.1.1 / 2 == b.1.1 / 2 && a.1.2 / 2 == b.1.2 / 2) || clusterOf a.2 == clusterOf b.2))

/-- The cores chosen for a launch, in order of launch-relative y, then x. -/
def Packet.cells (p : Packet) (cores : List Nat) : List ((Nat × Nat) × Nat) :=
  ((upto 0 p.hgt).flatMap (fun y => (upto 0 p.wid).map (fun x => (x, y)))).zip cores

/-- Whether a Saved share resumes on these cores (R364, R369, R465); one whose harts or whose deadlock record await ACT does
not (R405, R471), nor one that a reserved head of its level or a higher one keeps back (R366). -/
def State.canResume (s : State) (l r m : Nat) (x : Launch) (y : Share) (cores : List Nat) : Bool :=
  decide (y.state = .saved) && !x.finished && !y.awaitAct && !((s.mod? m).map (fun z => z.blocked x.prio none)).getD false && (s.shareHarts l r).all (fun h => !h.needsAct) &&
    decide (cores.length = x.pkt.wid * x.pkt.hgt) && decide cores.Nodup && blocksOk x.pkt (x.pkt.cells cores) &&
    (x.pkt.cells cores).all (fun c => s.resumeFits l r m x y c)

/-- A saved hart in its slot again, with a grant (R58, R369, R409): the notice clears, its next VSETL is its first (R37); a pinned hart's
resumption ends with an implicit ERET. -/
def Hart.reseat (h : Hart) (seat : Seat) (tick : Nat) : Hart :=
  { h with
    seat := seat
    phase := .armed
    needsAct := false
    notice := ⟨false, 0, 0⟩
    waitOn := none
    eager := true
    seen := none
    quietFrom := tick
    quietHeld := 0
    trap := if h.trap.pin then { h.trap with hm := false, imp := false, fpend := false } else h.trap }

/-- Seat a saved hart: far banks copied into the slot, claims with it (R32, R76, R369). -/
def State.seatHart (s : State) (h : HartId) (core slot : Nat) (lanes : List Nat) : State :=
  (s.asHart h (fun t => { t with cur := t.cur.reseat ⟨core, slot, lanes, t.cur.seat.stage⟩ t.tick })).asHart h State.unstow

/-- The grant of hart i of those that resume on a core: what is wanted within its limits while the others keep theirs (R37). -/
def resumeGrant (p : Packet) (h : Hart) (want free others : Nat) : Nat :=
  if h.trap.pin || decide (2 ≤ p.stages) then h.needs p else max p.gmin (min (min want p.greq) (free - others))

/-- Seat the harts of one core one after the other. -/
def State.seatHarts (s : State) (m core : Nat) (p : Packet) (want : List Nat) : List Hart → State
  | [] => s
  | h :: rest =>
    let free := s.pool m core
    let w := want.getD ((h.id.y * p.wid + h.id.x) * p.harts + h.id.hidx) p.greq
    let n := resumeGrant p h w free.length ((rest.map (fun k => k.needs p)).sum)
    (s.seatHart h.id core ((s.freeSlots m core).headD 0) (free.take n)).seatHarts m core p want rest

/-- The held sends for tiles of a launch-relative core stand in its core's hold queue again (R320, R369). -/
def Module.restoreHeld (x : Module) (c : (Nat × Nat) × Nat) (held : List Send) : Module :=
  let mine := held.filter (fun k => k.dest.x == c.1.1 && k.dest.y == c.1.2)
  { x with holds := Tbl.put c.2 (x.holdsOf c.2 ++ mine) x.holds }

/-- Resume a Saved share (R369): the placement table, the held sends, the far banks, the claims, the Armed harts; while its harts are seated
one after the other, those still to come hold no slot (R32). A launch on one module starts; a rank of a domain launch sends its arrival,
and rank 0 abandons the barrier when it has lost a rank that takes part before its arrival (R370, R474). -/
def State.resumeShare (s : State) (l r m : Nat) (x : Launch) (y : Share) (cores : List Nat) (want : List Nat) : State :=
  let cs := x.pkt.cells cores
  let hs := cs.map (fun c => (c.2, s.toResume l r c.1.1 c.1.2))
  let t := s.readyCores m x.pkt (cs.map (·.2))
  let t := hs.foldl (fun u c => u.seatHarts m c.1 x.pkt want c.2) t
  let t := t.onShare l r (fun z => { z with
    state := .armed, armedAt := s.tick, held := [], checked := none, quiet := false, place := s.placeTable m x.pkt cs })
  let t := cs.foldl (fun u c => u.onMod m (fun z => z.restoreHeld c y.held)) t
  let t := if x.pkt.single then t.startShare l r else { t with fabric := t.fabric ++ [.arrival l r] }
  let t := cs.foldl (fun u c => u.pump m c.2) t
  match (if r = 0 then t.lostPart l m else none) with
  | some k => t.abandon l 3 k
  | none => t

/-- LAUNCH_RESUME: Ouvenaern resumes a Saved launch on the cores it chooses, with grants as it chooses within the limits (R369). -/
def execLaunchResume (l rk : Nat) (cores want : List Nat) (s : State) : Host.Outcome State Fault Refusal :=
  match s.launch? l, s.share? l rk, s.rankModule l rk with
  | some x, some y, some m =>
    if s.modRuns m && s.canResume l rk m x y cores then .next (s.resumeShare l rk m x y cores want) else .next s
  | _, _, _ => .next s

/-- HART_RESUME: a hart saved by itself, while its launch runs, is resumed in its own slot with a grant between Gmin and G, its
stage's floor, or GRNT when it is pinned (R37, R368, R409). -/
def execHartResume (h : HartId) (lanes : Nat) (s : State) : Host.Outcome State Fault Refusal :=
  match s.hart? h, s.launch? h.launch, s.share? h.launch h.rank with
  | some x, some l, some y =>
    let n := if x.trap.pin || decide (2 ≤ l.pkt.stages) then x.needs l.pkt else lanes
    let free := s.pool x.mod x.seat.core
    if s.modRuns x.mod && decide (x.phase = .saved) && !x.needsAct && decide (y.state = .running) && decide (n ≤ free.length) &&
        (x.trap.pin || decide (2 ≤ l.pkt.stages) || (decide (l.pkt.gmin ≤ n) && decide (n ≤ l.pkt.greq))) &&
        decide (x.acnt + s.tilesHeld x.mod x.seat.core ≤ 8) then
      .next ((s.seatHart h x.seat.core x.seat.slot (free.take n)).onHart h (fun z => { z with phase := .running }))
    else .next s
  | _, _, _ => .next s

/-! ### The scheduler -/

/-- The lowest free cores on which a Saved share resumes: its last rectangle's shape at the lowest position (R42, R364). -/
def State.resumeSpot (s : State) (l r m : Nat) (x : Launch) (y : Share) : Option (List Nat) :=
  let all := (upto 0 (13 - x.pkt.hgt)).flatMap (fun y0 => (upto 0 (13 - x.pkt.wid)).map (fun x0 => (x.pkt.rect x0 y0).map (·.2)))
  all.find? (fun cs => s.canResume l r m x y cs)

/-- Saved shares of a level on a module, oldest suspension first (R365). -/
def State.savedAt (s : State) (m prio : Nat) : List (Nat × Launch × Nat × Share) :=
  ((s.sharesOn m).filter (fun c => c.2.1.prio == prio && decide (c.2.2.2.state = .saved) && !c.2.1.finished)).mergeSort
    (fun a b => decide (a.2.2.2.savedAt ≤ b.2.2.2.savedAt))

/-- The queues of a level, round-robin after the one served last (R365). -/
def Module.robin (x : Module) (prio : Nat) : List Nat :=
  let after := ((Tbl.find prio x.served).map (· + 1)).getD 0
  ((upto 0 64).map (fun i => (after + i) % 64)).filter (fun q => (x.queue q).prio.toNat == prio)

/-- The shares of domain launches of a level whose packets a module holds unplaced (R370). -/
def State.marchAt (s : State) (x : Module) (prio : Nat) : List (Nat × Nat × Launch) :=
  x.march.filterMap (fun c => match s.launch? c.1 with
    | some y => if y.prio = prio ∧ y.finished = false then some (c.1, c.2, y) else none
    | none => none)

/-- The candidate of a level that is placed: a Saved launch, else a domain launch's share, which has the priority of its originating queue,
else a head packet (R365, R370); a share before the head packets of its level is the model's choice (DESIGN CHOICE, log 73). -/
def State.placeAt (s : State) (m prio : Nat) (want : List Nat) : Option State :=
  match s.mod? m with
  | none => none
  | some x =>
    match (if x.blocked prio none then none else (s.savedAt m prio).findSome? (fun c =>
        (s.resumeSpot c.1 c.2.2.1 m c.2.1 c.2.2.2).map (fun cs => s.resumeShare c.1 c.2.2.1 m c.2.1 c.2.2.2 cs want))) with
    | some t => some t
    | none => match (s.marchAt x prio).findSome? (fun c =>
        (s.onMod m (fun y => { y with march := y.march.erase (c.1, c.2.1) })).armRank c.1 c.2.1 m c.2.2.pkt want) with
    | some t => some t
    | none => (x.robin prio).findSome? (fun q => if x.blocked prio (some q) then none else s.tryHead m q want)

/-- SCHEDULER_PLACE: the candidate of the highest level that holds a placeable one is placed, or a head is refused (R365). -/
def execSchedulerPlace (m : Nat) (want : List Nat) (s : State) : Host.Outcome State Fault Refusal :=
  if !s.modRuns m then .next s
  else .next ((([3, 2, 1, 0] : List Nat).findSome? (fun p => s.placeAt m p want)).getD s)

/-- MARCH_PACKET_RECEIVE: message n, a replicated packet, reaches its rank, which holds it as a candidate of its priority (R53, R54, R370,
R474); if nothing of that level or a higher one comes first, its share is armed or refused. A rank that cannot place delays. -/
def execMarchPacketReceive (n : Nat) (want : List Nat) (s : State) : Host.Outcome State Fault Refusal :=
  match s.fabric[n]? with
  | some (.march l r) => match s.launch? l with
    | none => .next (s.dropMsg n)
    | some x => match x.pkt.ranks[r]? with
      | none => .next (s.dropMsg n)
      | some m => if !s.modRuns m then .next s
        else
          let t := (s.dropMsg n).onMod m (fun y => { y with march := y.march ++ [(l, r)] })
          .next (((([3, 2, 1, 0] : List Nat).filter (fun p => decide (x.prio ≤ p))).findSome? (fun p => t.placeAt m p want)).getD t)
  | _ => .next s

/-! ### The watchdog -/

/-- WATCHDOG_FIRE: a Running hart has made no progress for WDLIM cycles; a handler with a frozen vector queue is exempt. The
hart traps with cause 0x11.1 at its current sr.estart or sr.rowprog (R468, R469). -/
def execWatchdogFire (h : HartId) (s : State) : Host.Outcome State Fault Refusal :=
  match s.hart? h with
  | none => .next s
  | some x => match s.mod? x.mod with
    | none => .next s
    | some y =>
      if s.modRuns x.mod && decide (x.phase = .running) && !x.frozen && decide (y.set.wdlim ≤ s.quietOf x) then
        .next (s.asHart h (fun t =>
          let u := ({ t.settleRequest with cur := { t.settleRequest.cur with heldFrom := none } } : State).trapHead
          takeTrap u ⟨mkCause 0x11 1, 0, !u.cur.vq.isEmpty⟩))
      else .next s

/-! ### Deadlock -/

/-- The instructions of the vector queue that wait (R59). -/
def waitRun : Instr → Option (State → Host.Outcome State Fault Refusal)
  | .ttake p => some (execTtake p)
  | .ttakeM p => some (execTtakeM p)
  | .tlook p => some (execTlook p)
  | .tlookM p => some (execTlookM p)
  | .twait p => some (execTwait p)
  | .tsend p => some (execTsend p)
  | .vsetl p => some (execVsetl p)
  | .bar p => some (execBar p)
  | .barDom p => some (execBarDom p)
  | .nodeWait p => some (execNodeWait p)
  | _ => none

/-- A Waiting hart whose wait is not over, and which is not in PAUSE: its oldest instruction would wait again (R59, R470). -/
def State.stillWaits (s : State) (h : Hart) : Bool :=
  let t := s.focus h.id
  decide (h.phase = .waiting) && (match (if h.trap.fpend then none else h.vq.head?) with
    | some e => match waitRun e.instr with
      | some f => match f { t with cur := { t.cur with active := some e } } with
        | .next u => decide (u.cur.phase = .waiting)
        | _ => true
      | none => true
    | none => match fetch t with
      | .run (.wfev _) _ _ => !h.event
      | .run (.pause _) _ _ => false
      | _ => true)

/-- A message that a launch's share has outstanding (R470). -/
def Msg.outstanding (l r : Nat) : Msg → Bool
  | .farReq h _ | .farDone h _ | .kvReq h _ | .store h _ _ _ _ _ _ _ | .ack h _ | .grant h | .refusal h _ _ | .act h _ _ =>
    h.launch == l && h.rank == r
  | .entryReq x => x.hart.any (fun h => h.launch == l && h.rank == r)
  | .barDom k _ h _ => k == l && h.rank == r
  | .errRec k e => k == l && e.rank.toNat == r
  | .march _ _ | .arrival _ _ | .query _ _ | .release _ _ | .disarm _ _ _ _ | .ended _ _ => false

/-- A share whose harts have all Ended or wait on something other than PAUSE, with no node at work and nothing outstanding (R470). -/
def State.still (s : State) (l r m : Nat) : Bool :=
  (s.shareHarts l r).all (fun h => decide (h.phase = .ended) || s.stillWaits h) &&
    ((s.mod? m).map (fun x => x.nodes.all (fun n =>
      !(n.2.launch == l) || !(decide (n.2.state = .ready) || decide (n.2.state = .running))))).getD true &&
    s.fabric.all (fun x => !x.outstanding l r)

/-- A key in the order (rank, y, x, hart index) (R471). -/
def hartOrder (h : HartId) : Nat := ((h.rank * 16 + h.y) * 16 + h.x) * 8 + h.hidx

/-- The waiting hart with the lowest (rank, y, x, hart index) (R471). -/
def lowestHart : List Hart → Option Hart
  | [] => none
  | h :: rest => match lowestHart rest with
    | some g => if hartOrder h.id ≤ hartOrder g.id then some h else some g
    | none => some h

/-- The record of a deadlock: the lowest waiting hart's oldest instruction and the operand it waits on (R471). -/
def deadErr (s : State) (h : Hart) (tag : Word) : ErrRec :=
  let e := h.vq.head?
  { errRecOf s h tag with
    imp := e.isSome
    cause := 0x211
    epc := h.pc
    vpc := (e.map (·.pc)).getD 0
    tval := h.waitOn.getD 0
    info := BitVec.ofNat 64 (h.unf.estart % 2 ^ 18 * 2 ^ 32 + ((e.map (·.head)).getD h.head).toNat) }

/-- Deadlock: the launch is suspended on every rank, its harts saved unretired, one record is written, ACT is awaited (R471). -/
def State.deadlock (s : State) (m l : Nat) (x : Launch) : State :=
  let hs := s.allHarts.filter (fun h => h.id.launch == l && decide (h.phase = .waiting))
  match lowestHart hs with
  | none => s
  | some h =>
    let r := deadErr s h x.pkt.tag
    let t := hs.foldl (fun u k => u.forceSave k.id) s
    let t := x.shares.foldl (fun u c => u.saveShare l c.1 (x.pkt.ranks.getD c.1 0)) t
    let t := t.onLaunch l (fun z => { z with shares := z.shares.map (fun c => (c.1, { c.2 with awaitAct := true })) })
    reportRec t l m r

/-- One launch at a check: it is deadlocked when its shares are quiescent at two successive checks (R470). -/
def State.checkLaunch (s : State) (m l : Nat) : State :=
  match s.launch? l with
  | none => s
  | some x =>
    if x.finished || decide (x.rank0 ≠ m) || x.shares.isEmpty || !x.shares.all (fun c => decide (c.2.state = .running)) then s
    else
      let sum := (x.shares.map (fun c => c.2.delivery)).sum
      let y := (Tbl.find 0 x.shares).getD (newShare 0 .gone [] [] 0)
      let quiet := x.shares.all (fun c => s.still l c.1 (x.pkt.ranks.getD c.1 0)) && decide (y.checked = some sum)
      if quiet && y.quiet then s.deadlock m l x
      else s.onShare l 0 (fun z => { z with checked := some sum, quiet := quiet })

/-- DEADLOCK_CHECK: every DLCK cycles Ouvenaern checks the resident shares; rank 0 checks a domain launch (R470). -/
def execDeadlockCheck (m : Nat) (s : State) : Host.Outcome State Fault Refusal :=
  match s.mod? m with
  | none => .next s
  | some x =>
    if s.modRuns m && decide (x.set.dlck ≤ s.since x.lastCheck) then
      .next ((s.launches.map (·.1)).foldl (fun t l => t.checkLaunch m l) (s.onMod m (fun y => { y with lastCheck := s.tick })))
    else .next s

/-! ### Error records -/

/-- A hart that waits for ACT goes on at replay (R405, R409); in a launch that is being suspended or is Saved it stays Saved, its request to
another module at a recorded point (R408), and gives up its slot. -/
def State.resumeHart (s : State) (h : HartId) : State :=
  match s.hart? h with
  | none => s
  | some x =>
    if !x.needsAct || !decide (x.phase = .saved) then s
    else if ((s.share? h.launch h.rank).map (fun y => decide (y.state = .saved) || decide (y.state = .suspending))).getD false then
      (s.asHart h (fun t => t.settleRequest.stow)).onHart h (fun y => { y with needsAct := false })
    else s.onHart h (fun y => { y.reseat y.seat s.tick with phase := .running, eager := y.eager })

/-- A newer record for the hart or node of a record waits to be written, or is on its way: ACT on the older one does not resume it (R406,
R407). -/
def State.recWaits (s : State) (x : Module) (r : ErrRec) : Bool :=
  let same := fun (k : ErrRec) => decide (k.hart = r.hart) && decide (k.node = r.node)
  x.pend.any (fun c => same c.2) || s.fabric.any (fun y => match y with
    | .errRec _ k => same k
    | _ => false)

/-- ACT resume reaches the faulting rank: the copy node of the record, if its entry still holds it, restarts at its block (R404), a deadlocked
launch may be placed again (R471), a hart continues (R405). -/
def State.applyResume (s : State) (h : HartId) (node : Option NodeRef) : State :=
  match node with
  | some r => s.onNode r.mod r.entry (fun n => if n.serial = r.serial then { n with faulted := false } else n)
  | none =>
    if ((s.share? h.launch h.rank).map (·.awaitAct)).getD false then
      s.onLaunch h.launch (fun z => { z with shares := z.shares.map (fun c => (c.1, { c.2 with awaitAct := false })) })
    else s.resumeHart h

/-- ERRREC_ACT_RESUME: ACT = 0b01 in queue q's error record, ignored while VALID = 0; it is forwarded to another rank (R405 to
R407). -/
def execErrrecActResume (m q : Nat) (s : State) : Host.Outcome State Fault Refusal :=
  match s.mod? m with
  | none => .next s
  | some x =>
    let r := x.err q
    if !s.hostReaches m || !r.valid || s.recWaits x r then .next s
    else match r.hart with
      | none => .next s
      | some h => match s.rankModule h.launch h.rank with
        | none => .next s
        | some k => if k = m then .next (s.applyResume h r.node) else .next { s with fabric := s.fabric ++ [.act h r.node true] }

/-- The abort that a record leads to: STATUS 0x02 with its cause code and rank (R478). -/
def State.actAbort (s : State) (m : Nat) (r : ErrRec) : State :=
  match r.hart with
  | none => s
  | some h => abortLaunch s m h.launch 2 (r.cause.toNat % 256) r.rank.toNat

/-- ERRREC_ACT_ABORT: ACT = 0b10 in queue q's error record aborts the launch (R406, R478). -/
def execErrrecActAbort (m q : Nat) (s : State) : Host.Outcome State Fault Refusal :=
  match s.mod? m with
  | none => .next s
  | some x => if s.hostReaches m && (x.err q).valid then .next (s.actAbort m (x.err q)) else .next s

/-- DOMAIN_ACT_ABORT: ACT = 0b10 in the domain error record aborts the domain launch (R407). -/
def execDomainActAbort (m : Nat) (s : State) : Host.Outcome State Fault Refusal :=
  match s.mod? m with
  | none => .next s
  | some x => if s.hostReaches m && x.domErr.valid then .next (s.actAbort m x.domErr) else .next s

/-- ACT_FORWARD: message n, an ACT, reaches the faulting rank and is applied (R407). -/
def execActForward (n : Nat) (s : State) : Host.Outcome State Fault Refusal :=
  match s.fabric[n]? with
  | some (.act h node resume) => match s.rankModule h.launch h.rank with
    | none => .next (s.dropMsg n)
    | some m =>
      if !s.modRuns m then .next s
      else if resume then .next ((s.dropMsg n).applyResume h node)
      else .next (abortLaunch (s.dropMsg n) m h.launch 2 0 0)
  | _ => .next s

/-- ERROR_RECORD_FORWARD: message n, a record of another rank, reaches the originating module and is written in the queue's
error record (R407). -/
def execErrorRecordForward (n : Nat) (s : State) : Host.Outcome State Fault Refusal :=
  match s.fabric[n]? with
  | some (.errRec l r) => match s.launch? l with
    | none => .next (s.dropMsg n)
    | some x => if s.modRuns x.origin then .next (writeErr (s.dropMsg n) x.origin x.queue r) else .next s
  | _ => .next s

/-- The first record that waits for a queue's error record. -/
def Module.nextErr (x : Module) (q : Nat) : Option (Nat × ErrRec) :=
  (x.pend.zipIdx.find? (fun c => c.1.1 == q)).map (fun c => (c.2, c.1.2))

/-- A record that waited is written; OVF stays as it is (R406). -/
def State.writeNext (s : State) (m q : Nat) : State :=
  match s.mod? m with
  | none => s
  | some x => match x.nextErr q with
    | none => s
    | some (k, r) =>
      let ovf := if q = domQueue then x.domErr.ovf else (x.err q).ovf
      putErr (s.onMod m (fun y => { y with pend := y.pend.eraseIdx k })) m q { r with ovf := ovf }

/-- ERRREC_VALID_CLEAR: VALID is cleared; a record that waited is then written (R406). q = 256 names the domain error record (R407). -/
def execErrrecValidClear (m q : Nat) (s : State) : Host.Outcome State Fault Refusal :=
  if !s.hostReaches m then .next s
  else .next ((s.onMod m (fun x =>
    if q = domQueue then { x with domErr := { x.domErr with valid := false } }
    else if q < 64 then { x with errs := Tbl.put q { x.err q with valid := false } x.errs } else x)).writeNext m q)

end Sys2Proof.Machine
end

