-- ==== Sys2Proof/Machine/Device.lean ====
section
/-! DEFINITION. Register writes, storage checks, Solstice, reset, boot, attestation, power and thermal events (R6, R7, R373 to
R377, R406, R411 to R413, R449, R454, R459, R460, R479). -/

namespace Sys2Proof.Machine

/-! ### BAR0 -/

/-- Clear the bits of a W1C pair VALID and OVF that a write names (R6). -/
def w1c (old : Bool) (v : Word) (k : Nat) : Bool := old && !bit v.toNat k

/-- A write to BAR0 as far as it meets fields that have no behaviour of their own (R6, R7): QBASE, QCFG without EN, UEV, BANK, the
log's and QERR's VALID and OVF, OVF of the error records. TAIL, EN, VALID of the error records and of XREL, ACT and CLR have
events of their own; every other bit is read-only or reserved. A write at an offset that is no multiple of 8, or that holds no register, is
ignored, which is the model's choice (DESIGN CHOICE, log 58). -/
def Module.regWrite (x : Module) (off : Nat) (v : Word) : Module :=
  if off % 8 ≠ 0 then x
  else if 0x100000 ≤ off ∧ off < 0x100800 then
    let q := (off - 0x100000) / 32
    let y := x.queue q
    let z := match off % 32 with
      | 0 => if y.en then y else { y with base := BitVec.ofNat 64 (v.toNat / 4096 * 4096) }
      | 8 => y.configure v
      | _ => y
    { x with queues := Tbl.put q z x.queues }
  else if 0x200000 ≤ off ∧ off < 0x201000 then
    let q := (off - 0x200000) / 64
    if off % 64 = 0 then { x with errs := Tbl.put q { x.err q with ovf := w1c (x.err q).ovf v 62 } x.errs } else x
  else if off = 0x201000 then { x with domErr := { x.domErr with ovf := w1c x.domErr.ovf v 62 } }
  else if 0x400000 ≤ off ∧ off < 0x400300 then
    let k := (off - 0x400000) / 64
    let y := x.stack k
    let z := match off % 64 with
      | 0x10 => { y with uev := w1c y.uev v 63 }
      | 0x18 => { y with bank := BitVec.ofNat 12 v.toNat }
      | _ => y
    { x with hbm := Tbl.put k z x.hbm }
  else if off = 0x410080 then
    { x with sramLog := { x.sramLog with valid := w1c x.sramLog.valid v 63, ovf := w1c x.sramLog.ovf v 62 } }
  else if 0x500000 ≤ off ∧ off < 0x500200 then
    let q := (off - 0x500000) / 8
    let y := (Tbl.find q x.qerrs).getD QErr.reset
    { x with qerrs := Tbl.put q { y with valid := w1c y.valid v 63, ovf := w1c y.ovf v 62 } x.qerrs }
  else x

/-- A bit at a position of a word. -/
def atBit (b : Bool) (k : Nat) : Nat := if b then 2 ^ k else 0

/-- Word i of an error record as the host reads it; ACT reads zero (R6, R406, R407). -/
def ErrRec.word (r : ErrRec) (i : Nat) : Nat :=
  match i with
  | 0 => atBit r.valid 63 + atBit r.ovf 62 + r.rank.toNat * 2 ^ 24 + r.y.toNat * 2 ^ 20 + r.x.toNat * 2 ^ 16 + r.hidx.toNat * 2 ^ 13 +
      atBit r.imp 12 + r.cause.toNat
  | 1 => r.tag.toNat
  | 2 => r.epc.toNat
  | 3 => r.vpc.toNat
  | 4 => r.tval.toNat
  | 5 => r.info.toNat
  | 6 => r.cycle.toNat
  | _ => 0

/-- Word i of a queue's registers as the host reads it (R360). -/
def Queue.word (y : Queue) (i : Nat) : Nat :=
  match i with
  | 0 => y.base.toNat
  | 1 => atBit y.ien 16 + y.vec.toNat * 2 ^ 8 + y.lsize.toNat * 2 ^ 4 + y.prio.toNat * 2 + atBit y.en 0
  | 2 => y.tail.toNat
  | _ => y.head.toNat

/-- Word i of a stack's registers as the host reads it; CLR reads zero (R460). -/
def Stack.word (y : Stack) (i : Nat) : Nat :=
  match i with
  | 0 => y.cecnt.toNat
  | 1 => y.uecnt.toNat
  | 2 => atBit y.uev 63 + y.ueaddr.toNat
  | 3 => y.bank.toNat
  | 4 => Tbl.getD y.bue y.bank.toNat 0 % 2 ^ 16 * 2 ^ 48 + Tbl.getD y.bce y.bank.toNat 0 % 2 ^ 32
  | 5 => y.alerts.toNat * 2 ^ 32 + y.thresh.toNat
  | 6 => y.holds.toNat * 2 ^ 32 + y.stops.toNat
  | _ => 0

/-- Word i of a port's registers as the host reads it (R475). -/
def Port.word (y : Port) (i : Nat) : Nat :=
  if i = 0 then atBit y.up 63 + atBit y.degraded 62 + y.retries.toNat else y.downs.toNat * 2 ^ 32 + y.reissued.toNat

/-- What the host reads in BAR0 of module m at an offset: the field maps of R360, R372, R406, R407, R447, R449, R459, R460, R473,
R475 and R479; a reserved field reads zero (R6, R7). A read changes nothing. An offset that is no multiple of 8, or that holds no
register, reads zero, which is the model's choice (DESIGN CHOICE, log 58). -/
def Module.regRead (x : Module) (m off : Nat) : Nat :=
  if off % 8 ≠ 0 then 0
  else if off = 0 then x.caps.toNat + m % 2 ^ 16 * 2 ^ 16
  else if 0x100000 ≤ off ∧ off < 0x100800 then (x.queue ((off - 0x100000) / 32)).word (off % 32 / 8)
  else if 0x200000 ≤ off ∧ off < 0x201000 then (x.err ((off - 0x200000) / 64)).word (off % 64 / 8)
  else if 0x201000 ≤ off ∧ off < 0x201040 then x.domErr.word (off % 64 / 8)
  else if off = 0x300000 then x.pins.toNat * 2 ^ 48 + x.moves.toNat
  else if off = 0x300010 then atBit x.xrel.valid 63 + atBit x.xrel.forced 62 + x.xrel.lost.toNat
  else if off = 0x300018 then x.xrel.base.toNat
  else if 0x400000 ≤ off ∧ off < 0x400300 then (x.stack ((off - 0x400000) / 64)).word (off % 64 / 8)
  else if 0x410000 ≤ off ∧ off < 0x410040 then
    let c := (Tbl.find ((off - 0x410000) / 8) x.sram).getD ⟨0, 0⟩
    c.ue.toNat * 2 ^ 48 + c.ce.toNat
  else if off = 0x410080 then
    atBit x.sramLog.valid 63 + atBit x.sramLog.ovf 62 + x.sramLog.struct.toNat * 2 ^ 52 + x.sramLog.domain.toNat * 2 ^ 40 + x.sramLog.word.toNat
  else if 0x500000 ≤ off ∧ off < 0x500200 then
    let y := (Tbl.find ((off - 0x500000) / 8) x.qerrs).getD QErr.reset
    atBit y.valid 63 + atBit y.ovf 62 + y.loc.toNat * 2 ^ 8 + y.code.toNat
  else if 0x510000 ≤ off ∧ off < 0x510120 then (x.port ((off - 0x510000) / 16)).word (off % 16 / 8)
  else if off = 0x510200 then x.staleTiles.toNat * 2 ^ 32 + x.staleOther.toNat
  else 0

/-- REGISTER_WRITE: the host writes a register (R6). -/
def execRegisterWrite (m off : Nat) (v : Word) (s : State) : Host.Outcome State Fault Refusal :=
  if s.hostReaches m then .next (s.onMod m (fun x => x.regWrite off v)) else .next s

/-- ERRCNT_CLR: CLR clears every storage error counter (R459). -/
def execErrcntClr (m : Nat) (s : State) : Host.Outcome State Fault Refusal :=
  if s.hostReaches m then .next (s.onMod m (fun x => { x with sram := [] })) else .next s

/-! ### Storage checks -/

/-- The structure code of a storage word (R454). -/
def structCode : SramWord → Nat
  | .vec _ _ _ | .mask _ _ _ => 0
  | .far _ _ _ => 1
  | .scalar _ _ => 2
  | .acc _ _ _ => 3
  | .fetch _ _ => 4
  | .tile _ _ _ _ _ _ => 5
  | .l1 _ _ | .l2 _ => 6
  | .msc _ => 7

/-- The numbers by which the model names a word within its array. -/
def wordKey : SramWord → List Nat
  | .vec h r w => [0, h.hidx, r, w]
  | .mask h r w => [1, h.hidx, r, w]
  | .far k r w => [2, k, r, w]
  | .scalar h r => [3, h.hidx, r]
  | .acc h a r => [4, h.hidx, a, r]
  | .fetch c l => [5, c, l]
  | .tile l rk x y t w => [6, l, rk, x, y, t, w]
  | .l1 c a => [7, c, a]
  | .l2 a => [8, a]
  | .msc a => [9, a]

/-- The module and the Solstice domain that hold a word, when there is such a word (R412, R459): a core's number for what stands in a core,
an L1 among it, else the stack or the L2 plane. -/
def State.holder (s : State) (m : Nat) : SramWord → Option (Nat × Nat)
  | .vec h _ _ | .mask h _ _ | .scalar h _ | .acc h _ _ => ((s.hart? h).bind (fun x => if s.keepsSlot x then some (x.mod, x.seat.core) else none))
  | .far k _ _ => some (k / 32768 % 65536, 0x90 + k / 2147483648 % 16)
  | .fetch c l => if s.ibuf.any (fun x => decide (x.core = coreKey m c ∧ x.line = l)) then some (m, c) else none
  | .tile l rk x y t _ => s.coreOf ⟨l, rk, x, y, t⟩
  | .l1 c a => if s.l1.any (fun x => decide (x.core = c ∧ x.line = a / 64)) then some (c / 256, c % 256) else none
  | .l2 a => if s.l2.contains (a / 128) then some (a / 2 ^ 52, 0xA0 + a / 256 % 8) else none
  | .msc a => if (Tbl.find (a / 128) s.msc).isSome then some (a / 2 ^ 52, 0x90 + a % 2 ^ 52 / 2 ^ 36) else none

/-- A corrected or an uncorrectable error in the counters of its structure (R459). -/
def Module.countSram (x : Module) (code : Nat) (ue : Bool) : Module :=
  let c := (Tbl.find code x.sram).getD ⟨0, 0⟩
  { x with sram := Tbl.put code (if ue then { c with ue := satInc c.ue } else { c with ce := satInc c.ce }) x.sram }

/-- A word that is poisoned for the first time is logged; while a location is logged only OVF is set (R459). -/
def Module.logSram (x : Module) (code dom : Nat) (word : BitVec 40) : Module :=
  if x.sramLog.valid then { x with sramLog := { x.sramLog with ovf := true } }
  else { x with sramLog := ⟨true, x.sramLog.ovf, BitVec.ofNat 4 code, BitVec.ofNat 12 dom, word⟩ }

/-- Whether a word is poisoned. -/
def State.wordBad (s : State) : SramWord → Bool
  | .l1 _ a | .l2 a => nearBad s (a / 8)
  | .msc a => farBad s (a / 8)
  | w => s.poison.contains w

/-- A line of L2 that is clean is invalidated and filled again: clean L1 copies go with it, a dirty one above it stays (R138, R454). -/
def State.refreshL2 (s : State) (line : Nat) : State :=
  let own := fun (w : Nat) => decide (w / 16 = line) && !s.l1.any (fun x => decide (x.line = w / 8) && x.dirty)
  { s with
    l1 := s.l1.filter (fun x => !decide (x.line / 2 = line) || x.dirty)
    badNear := s.badNear.filter (fun w => !own w) ++ ((farLine s line).bad.map (fun k => 16 * line + k)).filter own }

/-- A word that an uncorrectable error does not poison: an instruction line, and a clean line of L1 or L2, is invalidated and filled again
(R454, R458). -/
def State.refill (s : State) (m : Nat) : SramWord → Option State
  | .fetch c l => some { s with ibuf := s.ibuf.filter (fun x => !decide (x.core = coreKey m c ∧ x.line = l)) }
  | .l1 c a => if s.l1.any (fun x => decide (x.core = c ∧ x.line = a / 64) && x.dirty) then none else some (evictL1 s c (a / 64))
  | .l2 a => if dirtyL2 s (a / 128) then none else some (s.refreshL2 (a / 128))
  | _ => none

/-- Poison a word (R454): a word of a cache where the cache holds it, any other by its name. A word of L2 under a dirty L1 line is one that L1's
write-back covers whole (R134, R455). -/
def State.poisonWord (s : State) : SramWord → State
  | .l1 _ a => s.spoil false (a / 8)
  | .l2 a => if s.l1.any (fun x => decide (x.line = a / 64) && x.dirty) then s else s.spoil false (a / 8)
  | .msc a => s.spoil true (a / 8)
  | w => { s with poison := w :: s.poison }

/-- PATROL_SWEEP: a storage word is read and checked: nothing, a correction in place, or poison (R454, R459). The event stands for
the check on access too, which is how a scalar register or an instruction line meets one (log 28). -/
def execPatrolSweep (m : Nat) (w : SramWord) (found : Finding) (s : State) : Host.Outcome State Fault Refusal :=
  match s.holder m w with
  | none => .next s
  | some (k, dom) =>
    if k ≠ m || !s.modRuns m then .next s
    else match found with
      | .clean => .next s
      | .corrected => .next (s.onMod m (fun x => x.countSram (structCode w) false))
      | .uncorrectable _ =>
        if s.wordBad w then .next s
        else match s.refill m w with
          | some t => .next (t.onMod m (fun x => x.countSram (structCode w) (decide (structCode w ≠ 4))))
          | none => .next ((s.poisonWord w).onMod m (fun x =>
              (x.countSram (structCode w) true).logSram (structCode w) dom (Config.solWordOf (dom :: wordKey w))))

/-! ### Solstice -/

/-- Whether a module's test port and Mboeb have power (R377). -/
def State.powered (s : State) (m : Nat) : Bool :=
  match s.mod? m with
  | some x => decide (x.power ≠ .d3cold)
  | none => false

/-- The TAP returns a word. -/
def State.tapOut (s : State) (m : Nat) (v : Word) : State := if s.powered m then s.onMod m (fun x => { x with tapData := v }) else s

/-- TAP_IDCODE (R412, log 16). -/
def execTapIdcode (m : Nat) (s : State) : Host.Outcome State Fault Refusal := .next (s.tapOut m (Config.idcode.setWidth 64))

/-- The SOLSTAT word (R412). -/
def Module.solstat (x : Module) : Nat :=
  (if x.frozen then 1 else 0) + x.source.toNat * 2 + (if x.unlock then 16 else 0) + (if x.vcoreOff then 32 else 0)

/-- TAP_SOLSTAT (R412). -/
def execTapSolstat (m : Nat) (s : State) : Host.Outcome State Fault Refusal :=
  match s.mod? m with
  | none => .next s
  | some x => .next (s.tapOut m (BitVec.ofNat 64 x.solstat))

/-- TAP_SOLSEL: DOMAIN and WORD are selected (R412). -/
def execTapSolsel (m : Nat) (v : Word) (s : State) : Host.Outcome State Fault Refusal :=
  if s.powered m then .next (s.onMod m (fun x => { x with solDomain := BitVec.ofNat 12 (v.toNat / 2 ^ 48), solWord := BitVec.ofNat 40 v.toNat }))
  else .next s

/-- TAP_SOLDATA: the selected word, zero unless UNLOCK = 1 and past the end of a domain; then WORD advances (R412, log 16). -/
def execTapSoldata (m : Nat) (s : State) : Host.Outcome State Fault Refusal :=
  match s.mod? m with
  | none => .next s
  | some x =>
    let v : Word := if x.unlock && decide (x.solWord.toNat < Config.solWords x.solDomain.toNat) then
      Config.solWord x.solDomain.toNat x.solWord.toNat s.free else 0
    if s.powered m then .next ((s.tapOut m v).draw.onMod m (fun y => { y with solWord := y.solWord + 1 })) else .next s

/-- TAP_BYPASS: the one-bit register of IEEE 1149.1 (R412). -/
def execTapBypass (m : Nat) (b : Bool) (s : State) : Host.Outcome State Fault Refusal := .next (s.tapOut m (if b then 1 else 0))

/-- TAP_SOLFRZ: the TAP asserts the freeze, source 4 (R411). -/
def execTapSolfrz (m : Nat) (s : State) : Host.Outcome State Fault Refusal :=
  if s.powered m then .next (freezeModule s m 4) else .next s

/-- MBOEB_FREEZE: the Mboeb commands the freeze, source 3 (R411). -/
def execMboebFreeze (m : Nat) (s : State) : Host.Outcome State Fault Refusal :=
  if s.powered m then .next (freezeModule s m 3) else .next s

/-- SOLSTICE_UNLOCK: the Mboeb sets UNLOCK after an authenticated vendor-defined request (R374, R412, log 17). -/
def execSolsticeUnlock (m : Nat) (req : List Byte) (s : State) : Host.Outcome State Fault Refusal :=
  if s.powered m && Config.spdmAuthentic req then .next (s.onMod m (fun x => { x with unlock := true })) else .next s

/-- VCORE_REMOVAL: VCORE is removed after a thermal freeze (R411). -/
def execVcoreRemoval (m : Nat) (s : State) : Host.Outcome State Fault Refusal :=
  .next (s.onMod m (fun x => if x.frozen && decide (x.source = 2) then { x with vcoreOff := true } else x))

/-! ### Attestation and boot -/

/-- The measurement blocks: 64-byte SHAKE256 digests (R374). -/
def Module.measurements (x : Module) : List (List Byte) :=
  ([Config.mboebFirmware, (x.flash.map (·.image)).getD [], Config.fuseBytes x.rollback x.revoked,
    Config.settingBytes x.point.val x.set.pcap] : List (List Byte)).map (shake256 64)

/-- SPDM_REQUEST: the answer over DOE, signed with Ed448 (R374, log 17). -/
def execSpdmRequest (m : Nat) (req : List Byte) (s : State) : Host.Outcome State Fault Refusal :=
  match s.mod? m with
  | none => .next s
  | some x =>
    let body := Config.spdmAnswer req x.measurements
    if s.powered m then .next (s.onMod m (fun y => { y with spdmOut := body ++ Config.ed448Sign body })) else .next s

/-- The check of the image in flash that fails, if one does: there is none (0), its signature under a key that is not revoked (1), its
version (2) (R373). -/
def Module.bootFault (x : Module) : Option Flash → Option Nat
  | none => some 0
  | some f =>
    if !(decide (f.key < 3) && !x.revoked.contains f.key && Config.ed448Ok f.key (shake256 64 f.image) f.signature) then some 1
    else if f.version < x.rollback then some 2
    else none

/-- What a module keeps through a reset: fuses, counter, flash, sizes, power (R373, R413). A failed check leaves it out of the operating
state and is reported; sr.cycle starts again (R77). -/
def Module.rebooted (x : Module) (f : Option Flash) (p : Power) (tick : Nat) : Module :=
  { Module.reset with
    rollback := x.rollback
    revoked := x.revoked
    flash := f
    caps := x.caps
    power := p
    booted := (x.bootFault f).isNone
    bootReports := x.bootReports ++ (x.bootFault f).toList
    leftReset := tick }

/-- The launches of a module are discarded with all hart state, tiles and task nodes; nobody writes a record for those that
came from it (R413, R478). -/
def State.discardModule (s : State) (m : Nat) : State :=
  let mine := fun h : Hart => h.mod == m && !decide (h.phase = .absent)
  let t := s.dropHarts mine
  { t with
    launches := t.launches.map (fun c =>
      let only := c.2.pkt.ranks.all (· == m)
      (c.1, { c.2 with
        noRecord := c.2.noRecord || c.2.origin == m
        closed := c.2.closed || only
        finished := c.2.finished || only
        shares := c.2.shares.map (fun y => (y.1, if c.2.pkt.ranks[y.1]? = some m then { y.2 with state := .gone } else y.2)) }))
    tiles := t.tiles.filter (fun c => !decide (s.rankModule c.1.launch c.1.rank = some m))
    banks := t.banks.filter (fun c => !(c.1 / 32768 % 65536 == m))
    poison := t.poison.filter (fun w => !decide ((s.holder m w).map (·.1) = some m))
    frames := t.frames.filter (fun f => !decide (s.rankModule f.hart.launch f.hart.rank = some m))
    fabric := t.fabric.filter (fun x => match x with
      | .store h _ _ _ _ _ _ _ | .farReq h _ | .kvReq h _ => !decide (s.rankModule h.launch h.rank = some m)
      | _ => true) }

/-- Dirty memory-side cache lines of a module reach DRAM unless a storage error in them is recorded (R413). -/
def State.drainMsc (s : State) (m : Nat) : State :=
  let mine := s.msc.filter (fun c => decide (128 * c.1 / 2 ^ 52 = m))
  mine.foldl (fun t c => if c.2.dirty && c.2.bad.isEmpty then putMemLine t c.1 c.2 else t)
    { s with msc := s.msc.filter (fun c => !decide (128 * c.1 / 2 ^ 52 = m)) }

/-- What a module's compute die holds of memory and of translations is gone. -/
def State.clearChip (s : State) (m : Nat) : State :=
  { s with
    near := s.near.filter (fun c => !decide (c.1 / 2 ^ 52 = m))
    badNear := s.badNear.filter (fun w => !decide (8 * w / 2 ^ 52 = m))
    l1 := s.l1.filter (fun x => !decide (x.core / 256 = m))
    l2 := s.l2.filter (fun k => !decide (128 * k / 2 ^ 52 = m))
    tlb := s.tlb.filter (fun e => !decide (e.place.mod = m))
    ibuf := s.ibuf.filter (fun x => !decide (x.core / 256 = m)) }

/-- Warm reset (R413): DRAM, the memory-side caches' write-backs and the second tier are kept, what only L1 and L2 held is not;
R373 runs again; every launch, queue, hart and node is discarded. -/
def warmResetModule (s : State) (m : Nat) : State :=
  match s.mod? m with
  | none => s
  | some x =>
    if x.power = .d3cold then s
    else
      (((s.drainMsc m).discardModule m).clearChip m).onMod m (fun y => y.rebooted y.flash .d0 s.tick)

/-- TAP_SOLRST: the TAP requests warm reset (R412, R413). -/
def execTapSolrst (m : Nat) (s : State) : Host.Outcome State Fault Refusal := .next (warmResetModule s m)

/-- WARM_RESET: the Mboeb commands warm reset (R413). -/
def execWarmReset (m : Nat) (s : State) : Host.Outcome State Fault Refusal := .next (warmResetModule s m)

/-- POWER_ON_BOOT: power comes on, the Mboeb verifies the image in its flash and releases the management cores, or leaves the
module out of the operating state (R373). A number that no module has joins the domain. -/
def execPowerOnBoot (m : Nat) (image signature : List Byte) (key version : Nat) (s : State) : Host.Outcome State Fault Refusal :=
  let f : Flash := ⟨image, signature, key, version⟩
  match s.mod? m with
  | none => .next { s with mods := Tbl.put m (Module.reset.rebooted (some f) .d0 s.tick) s.mods }
  | some x => if x.power = .d3cold then .next (s.onMod m (fun y => y.rebooted (some f) .d0 s.tick)) else .next s

/-! ### Power and temperature -/

/-- Whether a module is idle: every queue empty, no launch resident or Saved (R377). -/
def State.idle (s : State) (m : Nat) : Bool :=
  (match s.mod? m with
    | some x => x.queues.all (fun c => decide (c.2.head = c.2.tail))
    | none => false) &&
    (s.sharesOn m).all (fun c => decide (c.2.2.2.state = .gone))

/-- A cluster without a launch on it and without a hart is gated (R27). What its cores then hold is the model's choice: their L1s are written
back and lose their lines, their instruction buffers too, and their TLB slices keep their entries (DESIGN CHOICE, log 80). -/
def State.gateCluster (s : State) (m n : Nat) : State :=
  let cores := (upto 0 4).map (clusterCore n)
  if decide (36 ≤ n) || cores.any (fun c => !(s.users m c).isEmpty || !(s.standing m c).isEmpty) then s
  else
    let off := fun (c : Nat) => decide (c / 256 = m) && cores.contains (c % 256)
    ({ s with l1 := s.l1.filter (fun x => !off x.core), ibuf := s.ibuf.filter (fun x => !off x.core) } : State).onMod m (fun x =>
      { x with gated := if x.gated.contains n then x.gated else n :: x.gated })

/-- D3HOT_ENTRY: the driver places an idle module in D3hot: its 36 clusters are gated, memory is kept (R377). -/
def execD3hotEntry (m : Nat) (s : State) : Host.Outcome State Fault Refusal :=
  if s.modRuns m && s.idle m then
    .next (((upto 0 36).foldl (fun t n => t.gateCluster m n) (writeBackModule s m)).onMod m (fun x => { x with power := .d3hot }))
  else .next s

/-- D0_RETURN: the module returns from D3hot (R377); its clusters have power again (DESIGN CHOICE, log 80). -/
def execD0Return (m : Nat) (s : State) : Host.Outcome State Fault Refusal :=
  .next (s.onMod m (fun x => if x.power = .d3hot then { x with power := .d0, gated := [] } else x))

/-- POWER_REMOVAL: the module is unpowered, its memory is lost (R377). -/
def execPowerRemoval (m : Nat) (s : State) : Host.Outcome State Fault Refusal :=
  match s.mod? m with
  | none => .next s
  | some _ =>
    let t := (s.discardModule m).clearChip m
    let keep := fun a => !decide (a / 2 ^ 52 = m)
    .next (({ t with
      dram := t.dram.filter (fun c => keep c.1)
      msc := t.msc.filter (fun c => keep (128 * c.1))
      badMem := t.badMem.filter (fun w => keep (8 * w)) } : State).onMod m (fun y =>
        { y.rebooted y.flash .d3cold s.tick with booted := false, bootReports := y.bootReports }))

/-- One operating point down (R375, R376). -/
def stepDown (p : Fin 4) : Fin 4 := if p = 3 then 3 else p + 1

/-- THERMAL_STEP_DOWN: at 100 °C or more the Mboeb steps one point down (R376). A change of point changes no state of a hart (R375). -/
def execThermalStepDown (m temp : Nat) (s : State) : Host.Outcome State Fault Refusal :=
  if s.modRuns m && decide (100 ≤ temp) then .next (s.onMod m (fun x => { x with point := stepDown x.point })) else .next s

/-- THERMAL_TRIP: at 110 °C or more the module is frozen, source 2 (R376, R411). -/
def execThermalTrip (m temp : Nat) (s : State) : Host.Outcome State Fault Refusal :=
  if s.powered m && decide (110 ≤ temp) then .next (freezeModule s m 2) else .next s

/-- POWER_CAP_WINDOW: the Mboeb chooses a point at which the average power stays at or below PCAP: the one proposed, when it
does, else the lowest (R376). -/
def execPowerCapWindow (m : Nat) (point : Fin 4) (s : State) : Host.Outcome State Fault Refusal :=
  match s.mod? m with
  | none => .next s
  | some x =>
    if !s.modRuns m then .next s
    else .next (s.draw.onMod m (fun y => { y with point := if Config.windowPower s.free point.val ≤ x.set.pcap then point else 3 }))

end Sys2Proof.Machine
end

