-- ==== Sys2Proof/Machine/Acts.lean ====
section
/-! DEFINITION. What the memory system, the DRAM, Ouvenaern and the links do of themselves, for which the opcode table has no row (R27,
R125, R130, R136, R138, R141, R145, R274, R376, R454, R460, R476). -/

namespace Sys2Proof.Machine

/-- A module acts when it runs. -/
def State.actOn (s : State) (m : Nat) (f : State → State) : State := if s.modRuns m then f s else s

/-- A walk on behalf of a hart fills the translation structures of its core, or of a stack's base die (R130). -/
def State.walkFor (s : State) (h : HartId) (va : Nat) (far : Option Nat) : State :=
  match s.hart? h with
  | none => s
  | some x => s.actOn x.mod (fun t => t.asHart h (fun u =>
      u.fillTlb (match far with
        | some home => u.farView home
        | none => u.view) va))

/-- The limits within which Ouvenaern sets its settings (R366, R368, R376, R442, R446, R468, R470, R474, R475). -/
def Settings.ok (v : Settings) : Bool :=
  let within := fun (lo x hi : Nat) => decide (lo ≤ x) && decide (x ≤ hi)
  within (2 ^ 16) v.age (2 ^ 32 - 1) && within 4096 v.deadline (2 ^ 32 - 1) && within (2 ^ 16) v.wdlim (2 ^ 32 - 1) &&
    within (2 ^ 20) v.dlck (2 ^ 32 - 1) && within 4096 v.mhold (2 ^ 24) && within 64 v.mthresh (2 ^ 20) && within 1 v.migmax 15 &&
    within (2 ^ 16) v.ltimeout (2 ^ 28) && within (2 ^ 20) v.marchto (2 ^ 34) && within 800 v.pcap 2100

/-- Ouvenaern ends the launch of a hart that awaits ACT and has faulted at one place more often than its retry limit: STATUS 0x03 with the
cause (R410, R440, R478; which status it writes is the model's choice, log 75). -/
def State.retryAbort (s : State) (h : HartId) : State :=
  match s.hart? h with
  | none => s
  | some x => s.actOn x.mod (fun t =>
      let limit := ((t.mod? x.mod).map (·.set.retry)).getD 0
      if x.needsAct && x.refault.any (fun r => decide (limit < r.again)) then
        abortLaunch t x.mod h.launch 3 x.trap.cause.code.toNat h.rank else t)

/-- Change the registers of one of a module's twelve stacks. -/
def State.stackAct (s : State) (m k : Nat) (f : Stack → Stack) : State := if k < 12 then s.onStack m k f else s

/-- An act of the memory system, the DRAM, Ouvenaern or a link; one that cannot take place leaves everything as it is. -/
def runAct (a : Act) (s : State) : State :=
  match a with
  | .evictL1 core line => s.actOn (core / 256) (fun t => evictL1 t core line)
  | .evictL2 line => s.actOn (128 * line / 2 ^ 52) (fun t => recallLine t line)
  | .evictMsc line => s.actOn (128 * line / 2 ^ 52) (fun t => evictMsc t line)
  | .fillTlb h va far => s.walkFor h va far
  | .dropTlb n => { s with tlb := s.tlb.eraseIdx n }
  | .fillFetch h va => match s.hart? h with
    | some x => s.actOn x.mod (fun t => t.asHart h (fun u => u.fillFetch va))
    | none => s
  | .dropFetch n => { s with ibuf := s.ibuf.eraseIdx n }
  | .gate m n => s.actOn m (fun t => t.gateCluster m n)
  | .ungate m n => s.actOn m (fun t => t.onMod m (fun x => { x with gated := x.gated.filter (· ≠ n) }))
  | .threshold m k v => s.actOn m (fun t =>
      if 256 ≤ v ∧ v ≤ 8192 then t.stackAct m k (fun y => { y with thresh := BitVec.ofNat 14 v }) else t)
  | .settings m v => s.actOn m (fun t => if v.ok then t.onMod m (fun x => { x with set := v }) else t)
  | .rowOpen m k bank row => s.actOn m (fun t => t.stackAct m k (fun y => y.open bank row))
  | .startLimit m k => s.actOn m (fun t => t.stackAct m k (fun y => { y with holds := satInc y.holds }))
  | .tier2Error m pa => s.actOn m (fun t => match t.mod? m with
      | some x => match resolveLocal x m pa with
        | .ok q => if q.kind = .tier2 then t.spoilDram m pa else t
        | .error _ => t
      | none => t)
  | .retryAbort h => s.retryAbort h
  | .spareFrame m f => s.actOn m (fun t => t.onMod m (fun x =>
      match resolveLocal x m f with
      | .ok q => if q.kind = .cxl ∨ f % 4096 ≠ 0 ∨ x.spares.contains f then x else { x with spares := x.spares ++ [f] }
      | .error _ => x))
  | .keepSpace m ranks root => s.actOn m (fun t => t.onMod m (fun x =>
      { x with spaces := if x.spaces.contains (ranks, root) then x.spaces.erase (ranks, root) else x.spaces ++ [(ranks, root)] }))
  | .pcieError m e => s.actOn m (fun t => t.onMod m (fun x =>
      if decide (e ≠ .fatal) && x.hostUp then { x with aer := x.aer ++ [e] } else x))

end Sys2Proof.Machine
end

