-- ==== Sys2Proof/Machine/Control.lean ====
section
/-! DEFINITION. Control transfer (R202 to R206). -/

namespace Sys2Proof.Machine

/-- PC + 2 × a displacement in halfwords (R202, R203). -/
def State.relTarget (s : State) (disp : Int) : Word := s.cur.pc + word (2 * disp)

/-- Transfer control and write a register, or trap with neither done (R415). -/
def State.jumpLink (s : State) (r : Fin 32) (v : Word) (target : Word) : Res :=
  match jumpTo s target with
  | .ok t => .ok (t.setG r v)
  | e => e

/-- B.CC (R202). -/
def execBCc (p : S) (s : State) : Host.Outcome State Fault Refusal :=
  retire (if branchTaken p.sf.toNat (s.src p.a) (s.src p.b) then jumpTo s (s.relTarget (signed 12 p.imm.toNat)) else .ok s)

/-- J, short form (R203). -/
def execJShort (p : J) (s : State) : Host.Outcome State Fault Refusal := retire (jumpTo s (s.relTarget p.disp.toInt))

/-- J, long form (R203). -/
def execJLong (p : J) (s : State) : Host.Outcome State Fault Refusal := retire (jumpTo s (s.relTarget p.disp.toInt))

/-- JAL, short form: g31 takes the next head (R203). -/
def execJalShort (p : J) (s : State) : Host.Outcome State Fault Refusal :=
  retire (s.jumpLink 31 s.cur.npc (s.relTarget p.disp.toInt))

/-- JAL, long form (R203). -/
def execJalLong (p : J) (s : State) : Host.Outcome State Fault Refusal :=
  retire (s.jumpLink 31 s.cur.npc (s.relTarget p.disp.toInt))

/-- JR: the target is read before the next head is written to gd (R204). -/
def execJr (p : R1) (s : State) : Host.Outcome State Fault Refusal :=
  retire (s.jumpLink (gd p.d) s.cur.npc (s.src p.a))

/-- RET: to the address in g31 (R205). -/
def execRet (_p : Head) (s : State) : Host.Outcome State Fault Refusal := retire (jumpTo s (s.gread 31))

/-- LOOP: the counter falls by the step and the branch is taken while it is positive (R206). -/
def execLoop (p : S) (s : State) : Host.Outcome State Fault Refusal :=
  let v := s.src p.a - s.src p.b
  retire (if 0 < v.toInt then s.jumpLink p.a.gidx v (s.relTarget (signed 12 p.imm.toNat)) else .ok (s.setG p.a.gidx v))

end Sys2Proof.Machine
end

