-- ==== Sys2Proof/Machine/Matrix.lean ====
section
/-! DEFINITION. Matrix instructions, grouped multiplication and Equinox claims (R276 to R296). -/

namespace Sys2Proof.Machine

/-! ### Tiles and progress -/

/-- A register that OFF names, read at issue (R280). -/
def State.goff (s : State) (n : Nat) : Word := s.gread ⟨n % 32, Nat.mod_lt _ (by decide)⟩

/-- M of a shape word (R278). -/
def shapeM (w : Word) : Nat := bits w.toNat 0 8
/-- N of a shape word (R278). -/
def shapeN (w : Word) : Nat := bits w.toNat 8 8
/-- K of a shape word (R278). -/
def shapeK (w : Word) : Nat := bits w.toNat 16 14

/-- The number format of a tile's body (R75). -/
def Acc.fmt (a : Acc) : FT := if a.bf16 then .bf16 else .fp32

/-- Tiles that an instruction names lie below ACNT (R76, R427). -/
def State.tilesOk (s : State) (cs : List Nat) : Bool := cs.all (fun c => decide (c < s.cur.acnt))
/-- Tiles that an instruction needs in FP32 mode (R427). -/
def State.tilesFp32 (s : State) (cs : List Nat) : Bool := s.tilesOk cs && cs.all (fun c => !(s.acc c).bf16)

/-- Conditions of a shape word on a tile (R278, R296, R427). -/
def shapeConds (bf16 : Bool) (w : Word) (kRead : Bool) : List (Bool × Nat × Nat) :=
  [(!bf16 && decide (64 < shapeN w), 0x03, 0x08),
   (decide (96 < shapeM w) || decide (128 < shapeN w) || (kRead && decide (8192 < shapeK w)), 0x03, 0x09)]

/-- Record where a matrix instruction stops (R284). -/
def State.stopRow (s : State) (rows kdone : Nat) : State :=
  { s with cur := { s.cur with unf := { s.cur.unf with valid := true, rows := BitVec.ofNat 7 rows, kdone := BitVec.ofNat 32 kdone } } }

/-- Rows at which a row instruction starts or resumes (R403). -/
def State.fromRow (s : State) (m : Nat) : List Nat := upto s.cur.unf.rows.toNat (m - s.cur.unf.rows.toNat)

/-- The first of some tiles whose row is poisoned (R457). -/
def State.badRow (s : State) (cs : List Nat) (r : Nat) : Option Nat :=
  if s.poison.isEmpty then none else cs.find? (fun c => s.poison.contains (.acc s.cur.id c r))

/-- A poisoned row is rewritten whole as NaN, which clears its poison (R457). -/
def State.nanRow (s : State) (c r : Nat) : State :=
  let a := s.acc c
  let b := (upto 0 a.cols).foldl (fun a n => a.put r n a.fmt.nan) a
  { s.setAcc c ((b.putM r FT.fp32.nan).putL r FT.fp32.nan) with poison := s.poison.filter (fun w => !decide (w = .acc s.cur.id c r)) }

/-- Poison of an accumulator row. -/
def rowPoison : Stop := .trap (mkCause 0x0D 4) 0

/-- Clear the poison of a tile's rows that are rewritten whole (R455). -/
def State.cleanRows (s : State) (c : Nat) (rows : List Nat) : State :=
  if s.poison.isEmpty then s else { s with poison := s.poison.filter (fun w => match w with
    | .acc h k r => !(decide (h = s.cur.id) && k == c && rows.contains r)
    | _ => true) }

/-- Row by row: the tiles' rows are checked for poison, then updated; a stop records the row (R403, R457). -/
def rowLoop (cs : List Nat) (step : Nat → State → Except Stop State) : List Nat → State → Res
  | [], s => .ok s
  | r :: rest, s =>
    match s.badRow cs r with
    | some c => rowPoison.res true ((s.nanRow c r).stopRow r 0)
    | none => match step r s with
      | .error e => e.res true (s.stopRow r 0)
      | .ok t => rowLoop cs step rest t

/-- A store-side instruction, row by row: the rows above the stop are written, and sr.rowprog counts them (R437). -/
def State.storeRows (s : State) (cs : List Nat) (readers : Nat) (rows : List Nat)
    (make : Nat → Except Stop (List Put × Flags)) : Res :=
  let r := storeLoop (fun i => match s.badRow cs i with
    | some _ => .error rowPoison
    | none => make i) rows
  let t := ((s.raise r.1.2).settleRuns true (r.1.1.map (fun p => (p.phys, p.bytes.length)))).putAll readers r.1.1
  match r.2 with
  | none => .ok t
  | some (i, e) => match s.badRow cs i with
    | some c => e.res true ((t.nanRow c i).stopRow i 0)
    | none => e.res true (t.stopRow i 0)

/-! ### Operand rows -/

/-- Fetch several rows; each is a base, a first element and a count. -/
def State.rowsOf (s : State) (fmt planes : Nat) : List (Nat × Nat × Nat) → Except Stop (List Row)
  | [] => .ok []
  | (b, e0, n) :: rest => match s.row none 2 .bf16 fmt planes b e0 n with
    | .error e => .error e
    | .ok r => match s.rowsOf fmt planes rest with
      | .error e => .error e
      | .ok rs => .ok (r :: rs)

/-- The first address of these spans that lies in D memory (R434, R440). -/
def State.inD (s : State) (w : Want) (spans : List (Nat × Nat)) : Option Nat :=
  (spans.flatMap (fun x => pagesOf x.1 x.2)).find? (fun va => match s.translate (va % 2 ^ 64) w with
    | .ok p => p.dclass
    | .error _ => false)
where
  /-- An address in every 4 KiB page from lo to hi. -/
  pagesOf (lo hi : Nat) : List Nat := lo :: (upto (lo / 4096 + 1) (hi / 4096 - lo / 4096)).map (· * 4096)

/-- A matrix instruction that stops part way keeps the images of the publishable buffers in these byte ranges (R163, R445). -/
def Res.keeping (r : Res) (spans : List (Nat × Nat)) : Res :=
  r.onStop (fun t => if t.cur.unf.rows = 0 ∧ t.cur.unf.kdone = 0 then t else t.keepSpans spans)

/-- Go on unless some operand row lies in D memory: 0x0A.2, before the first access (R440). -/
def State.noD (s : State) (w : Want) (spans : List (Nat × Nat)) (body : State → Res) : Res :=
  match s.inD w spans with
  | some va => .trap ⟨mkCause 0x0A 2, BitVec.ofNat 64 va, true⟩ s
  | none => (body s).keeping spans

/-- The row that a base and a stride give an instruction's M form (R280). -/
def State.tileRow (s : State) (p : M) (r : Nat) : Nat := addrOf (s.src p.base) ((r : Int) * (s.src p.x).toInt)

/-- The memory rows of MLD, MST and MFIN, first byte and last (R287, R288, R303). -/
def State.tileSpans (s : State) (p : M) : List (Nat × Nat) :=
  let w := s.goff p.spReg
  if shapeM w = 0 ∨ shapeN w = 0 then [] else (upto 0 (shapeM w)).map (fun r => rowSpan p.fmt.toNat 0 (s.tileRow p r) 0 (shapeN w))

/-- KB row bases are multiples of 64: 0x04.03 (R281, R427). -/
def kbBasesOk (fmt : Nat) (bases : List Nat) (s : State) (body : State → Res) : Res :=
  match if kbBits fmt = 0 then none else bases.find? (fun b => decide (b % 64 ≠ 0)) with
  | some b => imprecise 0x04 0x03 (b % 2 ^ 64) s
  | none => body s

/-! ### The chunked multiply -/

/-- A multiply into a tile: its size, the bases of its operand rows, their formats, the layout of B (R280, R281). -/
structure Mul where
  c : Nat
  m : Nat
  n : Nat
  k : Nat
  ordered : Bool
  aRow : Nat → Nat
  bRow : Nat → Nat
  aFmt : Nat
  aPl : Nat
  bFmt : Nat
  bPl : Nat
  trans : Bool

/-- The operand B of one chunk: its value at (j, n), flags and locations (R281). -/
structure ChunkB where
  at' : Nat → Nat → FV
  flags : Flags
  locs : List Nat

/-- Fetch the chunk of B from element k0 (R281). -/
def State.chunkB (s : State) (x : Mul) (k0 kn : Nat) : Except Stop ChunkB :=
  let z : FV := .fin false 0 0
  let spec := if x.trans then (upto k0 kn).map (fun j => (x.bRow j, 0, x.n)) else (upto 0 x.n).map (fun n => (x.bRow n, k0, kn))
  match s.rowsOf x.bFmt x.bPl spec with
  | .error e => .error e
  | .ok rows =>
    .ok ⟨fun j n => if x.trans then ((rows[j]?).map (fun r => r.vals.getD n z)).getD z else ((rows[n]?).map (fun r => r.vals.getD j z)).getD z,
      orFlags (rows.map (·.flags)), rows.flatMap (·.locs)⟩

/-- One row's update by one chunk (R114, R282). -/
def Acc.chunkRow (a : Acc) (r n kn : Nat) (row : Row) (b : ChunkB) : Acc × Flags :=
  (upto 0 n).foldl (fun x col =>
    let v := accumulate a.fmt a.bf16 (a.at r col) ((upto 0 kn).map (fun j => (row.vals.getD j (.fin false 0 0), b.at' j col)))
    (x.1.put r col v.1, x.2 ||| v.2)) (a, 0)

/-- Update the rows of a band. -/
def State.bandUpdate (s : State) (x : Mul) (kn : Nat) (b : ChunkB) : List (Nat × Row) → State
  | [] => s
  | (r, row) :: rest =>
    let u := (s.acc x.c).chunkRow r x.n kn row b
    ((s.raise (u.2 ||| row.flags)).setAcc x.c { u.1 with tag := 0 }).bandUpdate x kn b rest

/-- Where a multiply stands: the state, the lines read, how it stopped. -/
structure MulOut where
  s : State
  locs : List Nat
  stop : Option (Nat × Nat × Stop)

/-- The bands of one chunk at position `pos` of the order, from row `r0` on; the three rows of a band are checked before any is written (R284,
R437, R457); `f` bounds the bands. -/
def bandLoop (x : Mul) (b : Except Stop ChunkB) (k0 kn pos : Nat) : Nat → Nat → Bool → MulOut → MulOut
  | 0, _, _, o => o
  | f + 1, r0, fetched, o =>
    if x.m ≤ r0 then o
    else
      let band := r0 / 3 * 3
      let rows := upto r0 (min x.m (band + 3) - r0)
      match (upto band 3).find? (fun r => (o.s.badRow [x.c] r).isSome) with
      | some r => ⟨o.s.nanRow x.c r, o.locs, some (r0, 32 * pos, rowPoison)⟩
      | none => match b with
        | .error e => ⟨o.s, o.locs, some (r0, 32 * pos, e)⟩
        | .ok b => match o.s.rowsOf x.aFmt x.aPl (rows.map (fun r => (x.aRow r, k0, kn))) with
          | .error e => ⟨if fetched then o.s else o.s.raise b.flags, o.locs, some (r0, 32 * pos, e)⟩
          | .ok as =>
            let s := if fetched then o.s else o.s.raise b.flags
            bandLoop x (.ok b) k0 kn pos f (band + 3) true
              ⟨s.bandUpdate x kn b (rows.zip as), o.locs ++ (if fetched then [] else b.locs) ++ as.flatMap (·.locs), none⟩

/-- Chunks in order (R114, R115, R403): the first starts at the row that sr.rowprog names. -/
def chunkLoop (x : Mul) : List (Nat × Nat) → Nat → MulOut → MulOut
  | [], _, o => o
  | (pos, c) :: rest, r0, o =>
    let kn := min 32 (x.k - 32 * c)
    let u := bandLoop x (if r0 < x.m then o.s.chunkB x (32 * c) kn else .ok ⟨fun _ _ => .fin false 0 0, 0, []⟩)
      (32 * c) kn pos (x.m + 1) r0 false o
    match u.stop with
    | some _ => u
    | none => chunkLoop x rest 0 u

/-- A permutation of the chunks that the engine's choices select (R115, log 14). -/
def chunkOrder (seed : Nat) : Nat → List Nat → List Nat
  | 0, xs => xs
  | f + 1, xs =>
    if xs.isEmpty then []
    else
      let i := Config.choice (2 ^ 32 * seed + f) % xs.length
      xs.getD i 0 :: chunkOrder seed f (xs.eraseIdx i)

/-- Run a multiply whose conditions hold, from where sr.rowprog says (R282 to R284, R403). -/
def State.multiply (s : State) (x : Mul) : Res :=
  let s := if x.ordered || s.cur.unf.valid then s else { s.draw with cur := { s.cur with unf := { s.cur.unf with order := s.free } } }
  let cs := upto 0 (ceilDiv x.k 32)
  let order := if x.ordered then cs else chunkOrder s.cur.unf.order cs.length cs
  let done := s.cur.unf.kdone.toNat / 32
  let o := chunkLoop x ((cs.zip order).drop done) s.cur.unf.rows.toNat ⟨s, [], none⟩
  let t := countReads o.s o.locs
  match o.stop with
  | none => .ok t
  | some (r, k, e) => e.res true (t.stopRow r k)

/-- The operand rows of a multiply, first byte and last (R280, R281). -/
def Mul.spans (x : Mul) : List (Nat × Nat) :=
  if x.m = 0 ∨ x.n = 0 ∨ x.k = 0 then []
  else (upto 0 x.m).map (fun r => rowSpan x.aFmt x.aPl (x.aRow r) 0 x.k) ++
    (upto 0 (if x.trans then x.k else x.n)).map (fun j => rowSpan x.bFmt x.bPl (x.bRow j) 0 (if x.trans then x.n else x.k))

/-- The whole-instruction checks of a multiply's operands, then the multiply: KB row bases, D memory (R427, R440). -/
def State.mulRun (s : State) (x : Mul) : Res :=
  let as := (upto 0 x.m).map x.aRow
  let bs := (upto 0 (if x.trans then x.k else x.n)).map x.bRow
  if x.m = 0 ∨ x.n = 0 ∨ x.k = 0 then .ok s
  else kbBasesOk x.aFmt as s (kbBasesOk x.bFmt bs · (fun s =>
    s.noD .load x.spans (fun s => s.multiply x)))

/-- The multiply that MMA names (R280, R281). -/
def State.mma (s : State) (p : M) (ordered : Bool) : Mul :=
  let w := s.goff p.spReg
  let a := s.src p.base
  let sa := (s.src p.x).toInt
  let b := s.goff p.sbReg
  let sb := (s.goff p.ssReg).toInt
  { c := p.d.toNat % 8, m := shapeM w, n := shapeN w, k := shapeK w, ordered := ordered,
    aRow := fun r => addrOf a (r * sa), bRow := fun r => addrOf b (r * sb),
    aFmt := p.fmt.toNat, aPl := p.planes.toNat, bFmt := p.rdr.toNat, bPl := p.bPlanes, trans := bit p.sf.toNat 0 }

/-- MMA.O and MMA.F (R282). -/
def mmaBody (p : M) (ordered : Bool) (s : State) : Res :=
  let c := p.d.toNat % 8
  checked ((!s.tilesOk [c], 0x03, 0x08) :: shapeConds (s.acc c).bf16 (s.goff p.spReg) true) (fun s => s.mulRun (s.mma p ordered)) s

/-- MMA.O (R282). -/
def execMmaO (p : M) (s : State) : Host.Outcome State Fault Refusal := runV (.mmaO p) none (mmaBody p true) s
/-- MMA.F (R282, R115). -/
def execMmaF (p : M) (s : State) : Host.Outcome State Fault Refusal := runV (.mmaF p) none (mmaBody p false) s

/-- MSHAPE: clamps a shape (R279). -/
def execMshape (p : R3) (s : State) : Host.Outcome State Fault Refusal :=
  retire (s.setD p.d (BitVec.ofNat 64 (min (s.src p.a).toNat 96 + min (s.src p.b).toNat (if bit p.sf.toNat 0 then 128 else 64) * 2 ^ 8 +
    min (s.src p.c).toNat 8192 * 2 ^ 16)))

/-! ### Tile moves -/

/-- MZERO (R286). -/
def execMzero (p : R1) (s : State) : Host.Outcome State Fault Refusal :=
  let c := p.d.toNat % 8
  runV (.mzero p) none (checked [(!s.tilesOk [c], 0x03, 0x08)] (fun s =>
    .ok ((s.setAcc c { Acc.fresh with bf16 := bit p.sf.toNat 0 }).cleanRows c (upto 0 96)))) s

/-- A tile's bytes read in the other mode: an FP32 entry is two BF16 entries (R75). -/
def Acc.recast (a : Acc) (bf16 : Bool) : Acc :=
  if a.bf16 = bf16 then a
  else if bf16 then { a with bf16 := true, body := a.body.foldr (fun e t =>
    Tbl.store 0 (2 * e.1) (e.2 % 2 ^ 16) (Tbl.store 0 (2 * e.1 + 1) (e.2 / 2 ^ 16) t)) [] }
  else { a with bf16 := false, body := (upto 0 6144).foldr (fun i t =>
    Tbl.store 0 i (Tbl.getD a.body (2 * i) 0 + 2 ^ 16 * Tbl.getD a.body (2 * i + 1) 0) t) [] }

/-- Row r of a tile that MLD loads: its entries, the rest +0, m −∞ and l +0 (R287). -/
def State.loadRow (s : State) (c r : Nat) (bf16 : Bool) (vs : List Nat) : State :=
  let a := (s.acc c).recast bf16
  let b := (upto 0 a.cols).foldl (fun x n => x.put r n (vs.getD n 0)) a
  (s.setAcc c { (b.putM r negInf).putL r 0 with tag := 0 }).cleanRows c [r]

/-- MLD (R287). -/
def mldBody (p : M) (s : State) : Res :=
  let c := p.d.toNat % 8
  let bf := bit p.sf.toNat 0
  let w := s.goff p.spReg
  let t := if bf then FT.bf16 else .fp32
  checked ([(bf && decide (p.fmt.toNat = 2), 0x03, 0x06), (!s.tilesOk [c], 0x03, 0x08)] ++ shapeConds bf w false) (fun s =>
    if shapeM w = 0 ∨ shapeN w = 0 then .ok s
    else s.noD .load (s.tileSpans p) (fun s =>
      match rowLoop [] (fun r s => match s.plainBits none 2 t p.fmt.toNat (s.tileRow p r) 0 (shapeN w) with
        | .error e => .error e
        | .ok row => .ok ((countReads s row.2).loadRow c r bf row.1)) (s.fromRow (shapeM w)) s with
      | .ok s => .ok ((upto (shapeM w) (96 - shapeM w)).foldl (fun s r => s.loadRow c r bf []) s)
      | r => r)) s

/-- MLD (R287). -/
def execMld (p : M) (s : State) : Host.Outcome State Fault Refusal := runV (.mld p) none (mldBody p) s

/-- The puts of one row of bytes at an address, no byte in D memory (R434); each element is aligned (R427). -/
def State.rowPuts (s : State) (va w : Nat) (bs : List Byte) : Except Stop (List Put) :=
  if va % w ≠ 0 then .error (.trap (mkCause 0x04 0x02) (BitVec.ofNat 64 va))
  else match s.transRangeD s.view va bs.length .store 2 with
    | .error e => .error e
    | .ok ps => .ok (cut va ps bs)
where
  /-- The bytes of each run. -/
  cut : Nat → List (Phys × Nat) → List Byte → List Put
    | _, [], _ => []
    | va, (p, n) :: rest, bs => ⟨BitVec.ofNat 64 va, p, bs.take n⟩ :: cut (va + n) rest (bs.drop n)

/-- The puts of a row of elements already narrowed to bytes. -/
def State.elemPuts (s : State) (va w : Nat) (els : List (Nat × Flags)) : Except Stop (List Put × Flags) :=
  match s.rowPuts (va % 2 ^ 64) w (els.flatMap (fun e => leBytes w e.1)) with
  | .error e => .error e
  | .ok ps => .ok (ps, orFlags (els.map (·.2)))

/-- MST (R288). -/
def mstBody (p : M) (s : State) : Res :=
  let c := p.d.toNat % 8
  let w := s.goff p.spReg
  let a := s.acc c
  let f := (fmtFT p.fmt.toNat).getD .fp32
  checked ((!s.tilesOk [c], 0x03, 0x08) :: shapeConds a.bf16 w false) (fun s =>
    if shapeM w = 0 ∨ shapeN w = 0 then .ok s
    else s.noD .store (s.tileSpans p) (fun s =>
      s.storeRows [c] p.rdr.toNat (s.fromRow (shapeM w)) (fun r =>
        s.elemPuts (s.tileRow p r) (f.width / 8) ((upto 0 (shapeN w)).map (fun n => narrowFloat a.fmt f 0 (a.at r n)))))) s

/-- MST (R288). -/
def execMst (p : M) (s : State) : Host.Outcome State Fault Refusal := runV (.mst p) none (mstBody p) s

/-- Entries of a row that MMOV counts: columns of the body, or m and l (R289). -/
def mmovPer (a : Acc) (st : Bool) : Nat := if st then 2 else a.cols

/-- Conditions of MMOV (R289, R427): near register, configuration, element type, tile name, rows. -/
def State.mmovConds (s : State) (c v : Nat) (st : Bool) (m : Mk) (row0 : Nat) : List (Bool × Nat × Nat) :=
  let e := s.cur.cfg.etype.toNat
  let need := if st || !(s.acc c).bf16 then 2 else 1
  [(decide (s.cur.cfg.nreg ≤ v), 0x03, 0x03), (!s.cur.configured, 0x03, 0x05),
   ((if s.tilesOk [c] then !(e == need) else !(e == 2 || (e == 1 && !st))), 0x03, 0x06), (!s.tilesOk [c], 0x03, 0x08),
   ((s.actives m).any (fun i => decide (96 ≤ row0 + i / mmovPer (s.acc c) st)), 0x03, 0x09)]

/-- The tile entry of element i. -/
def Acc.mmovGet (a : Acc) (st : Bool) (row0 i : Nat) : Nat :=
  if st then (if i % 2 = 0 then a.mAt (row0 + i / 2) else a.lAt (row0 + i / 2)) else a.at (row0 + i / a.cols) (i % a.cols)
/-- Replace the tile entry of element i. -/
def Acc.mmovPut (a : Acc) (st : Bool) (row0 i v : Nat) : Acc :=
  if st then (if i % 2 = 0 then a.putM (row0 + i / 2) v else a.putL (row0 + i / 2) v) else a.put (row0 + i / a.cols) (i % a.cols) v

/-- MMOV from a tile to a vector register, leading rows first (R284, R289). A poisoned mask word stops it at its element, the lower elements
performed (R456), a poisoned row at that row (R457). -/
def mmovOut (p : R2) (st : Bool) (s : State) : Res :=
  let c := p.a.cidx
  let row0 := (s.src p.b).toNat
  checked (s.mmovConds c p.d.toNat st p.msk row0) (fun s =>
    let per := mmovPer (s.acc c) st
    let els := (s.actives p.msk).filter (fun i => decide (s.cur.unf.rows.toNat ≤ i / per))
    let upTo := fun (k : Nat) => s.writeVec (vd p.d) ((els.filter (· < k)).map (fun i => (i, (s.acc c).mmovGet st row0 i)))
    let badMask := fun (i : Nat) => s.anyPoison (s.maskWords p.msk i)
    match els.find? (fun i => badMask i || (s.badRow [c] (row0 + i / per)).isSome) with
    | none => .ok (s.writeVec (vd p.d) (els.map (fun i => (i, (s.acc c).mmovGet st row0 i))))
    | some k =>
      if (s.badRow [c] (row0 + k / per)).isSome then rowPoison.res true (((upTo (k / per * per)).nanRow c (row0 + k / per)).stopRow (k / per) 0)
      else (poisonStop 1).res true (((upTo k).stopRow (k / per) 0).stopAt k)) s

/-- MMOV from a vector register to a tile (R289): vs is read whole first. -/
def mmovIn (p : R2) (st : Bool) (s : State) : Res :=
  let c := p.d.toNat % 8
  let row0 := (s.src p.b).toNat
  checked (s.mmovConds c p.a.vidx.val st p.msk row0) (fun s =>
    let els := s.actives p.msk
    s.readAll els (fun i => s.vecWords [p.a.vidx.val] i ++ s.maskWords p.msk i) (fun s =>
      let a := els.foldl (fun a i => a.mmovPut st row0 i (s.cur.elem p.a.vidx i)) (s.acc c)
      .ok (s.setAcc c a))) s

/-- MMOV, body to vector (R289). -/
def execMmovBodyToVec (p : R2) (s : State) : Host.Outcome State Fault Refusal := runV (.mmovBodyToVec p) none (mmovOut p false) s
/-- MMOV, vector to body (R289). -/
def execMmovVecToBody (p : R2) (s : State) : Host.Outcome State Fault Refusal := runV (.mmovVecToBody p) none (mmovIn p false) s
/-- MMOV, row state to vector (R289). -/
def execMmovStToVec (p : R2) (s : State) : Host.Outcome State Fault Refusal := runV (.mmovStToVec p) none (mmovOut p true) s
/-- MMOV, vector to row state (R289). -/
def execMmovVecToSt (p : R2) (s : State) : Host.Outcome State Fault Refusal := runV (.mmovVecToSt p) none (mmovIn p true) s

/-- The factor of entry (r, n) of MSCALE; none where the entry has none (R290). -/
def State.scaleFactor (s : State) (p : R2) (r n : Nat) : Option Nat :=
  if p.a.tag ≠ 0 then some (s.srcF .fp32 p.a p.lit)
  else
    let i := if bit p.sf.toNat 0 then n else r
    if i < s.cur.cfg.vl.toNat then some (s.cur.elem p.a.vidx i) else none

/-- One row of MSCALE (R290). -/
def scaleRow (p : R2) (c r : Nat) (s : State) : State :=
  let a := s.acc c
  let u := (upto 0 a.cols).foldl (fun x n => match s.scaleFactor p r n with
    | none => x
    | some f =>
      let v := linearIn a.fmt a.bf16 [(unpack a.fmt (a.at r n), f32 f)]
      (x.1.put r n v.1, x.2 ||| v.2)) (a, (0 : Flags))
  (s.raise u.2).setAcc c { u.1 with tag := 0 }

/-- MSCALE (R290). -/
def mscaleBody (p : R2) (s : State) : Res :=
  let c := p.d.toNat % 8
  let vec := p.a.tag == 0
  let vl := s.cur.cfg.vl.toNat
  let col := bit p.sf.toNat 0
  checked [(vec && decide (s.cur.cfg.nreg ≤ p.a.vidx.val), 0x03, 0x03), (s.cur.cfg.ill || (vec && s.cur.cfg.fresh), 0x03, 0x05),
    (!(s.cur.cfg.etype.toNat == 2), 0x03, 0x06),
    (vec && (if col then s.tilesOk [c] && decide ((s.acc c).cols < vl) else decide (96 < vl)), 0x03, 0x07),
    (!s.tilesOk [c], 0x03, 0x08)] (fun s =>
    s.readAll (if vec then upto 0 vl else []) (fun i => s.vecWords [p.a.vidx.val] i) (fun s =>
      rowLoop [c] (fun r s => .ok (scaleRow p c r s)) (s.fromRow (if vec && !col then vl else 96)) s)) s

/-- MSCALE (R290). -/
def execMscale (p : R2) (s : State) : Host.Outcome State Fault Refusal := runV (.mscale p) none (mscaleBody p) s

/-! ### Grouped multiplication -/

/-- A signed 57-bit address field. -/
def addr57 (n : Nat) : Nat := wrap 64 (signed 57 n)

/-- The grouped-multiply descriptor's words 0 to 6 (R291). -/
structure Grouped where
  w : List Nat
  deriving DecidableEq, Repr

/-- A word of a descriptor. -/
def Grouped.word (d : Grouped) (i : Nat) : Nat := d.w.getD i 0
/-- TABLE (R291). -/
def Grouped.table (d : Grouped) : Nat := addr57 (d.word 5 % 2 ^ 57)
/-- APLANES and WPLANES. -/
def Grouped.aPl (d : Grouped) : Nat := bits (d.word 5) 57 3
/-- WPLANES. -/
def Grouped.wPl (d : Grouped) : Nat := bits (d.word 5) 60 3
/-- AFMT. -/
def Grouped.aFmt (d : Grouped) : Nat := bits (d.word 6) 56 4
/-- WFMT. -/
def Grouped.wFmt (d : Grouped) : Nat := bits (d.word 6) 60 4
/-- G. -/
def Grouped.g (d : Grouped) : Nat := bits (d.word 6) 43 13
/-- K. -/
def Grouped.k (d : Grouped) : Nat := bits (d.word 6) 22 21
/-- N. -/
def Grouped.n (d : Grouped) : Nat := bits (d.word 6) 0 22

/-- Every field in its range (R291, R427). -/
def Grouped.ok (d : Grouped) : Bool :=
  !bit (d.word 5) 63 && decide (1 ≤ d.g) && decide (d.g ≤ 4096) && decide (1 ≤ d.k) && decide (1 ≤ d.n) &&
    matFmtN d.aFmt && matFmtN d.wFmt && planesN d.aFmt d.aPl && planesN d.wFmt d.wPl

/-- Little-endian words of bytes. -/
def wordsOf (w : Nat) : Nat → List Byte → List Nat
  | 0, _ => []
  | f + 1, bs => leNat (bs.take w) :: wordsOf w f (bs.drop w)

/-- Tiles of a group of n rows with NB column blocks (R292). -/
def groupTiles (nb n : Nat) : Nat := ceilDiv n 96 * nb

/-- The tile word of a tile (R292); of a first row of 2^20 or more, which the field ROW cannot hold and for which the spec says nothing, it
keeps the low 20 bits (DESIGN CHOICE, log 78). -/
def tileWord (row grp cb nt mt : Nat) : Nat := row % 2 ^ 20 * 2 ^ 44 + grp * 2 ^ 32 + cb * 2 ^ 16 + nt * 2 ^ 8 + mt

/-- The tile word of tile t of a pool, 0 beyond it (R292, R293). -/
def poolTile (n : Nat) : List Nat → Nat → Nat → Nat → Nat
  | [], _, _, _ => 0
  | ng :: rest, g, off, t =>
    let nb := ceilDiv n 64
    let cnt := groupTiles nb ng
    if t < cnt then
      let rb := t / nb
      let cb := t % nb
      tileWord (off + 96 * rb) g cb (min 64 (n - 64 * cb)) (min 96 (ng - 96 * rb))
    else poolTile n rest (g + 1) (off + ng) (t - cnt)

/-- The multiply that MGRP names, its conditions met (R295). -/
def Grouped.mul (d : Grouped) (c row g cb m : Nat) (ordered : Bool) : Mul where
  c := c
  m := m
  n := min 64 (d.n - 64 * cb)
  k := d.k
  ordered := ordered
  aRow := fun r => addrOf (BitVec.ofNat 64 (d.word 0)) ((row + r : Nat) * signed 64 (d.word 1))
  bRow := fun j => addrOf (BitVec.ofNat 64 (d.word 2)) (g * signed 64 (d.word 3) + (64 * cb + j : Nat) * signed 64 (d.word 4))
  aFmt := d.aFmt
  aPl := d.aPl
  bFmt := d.wFmt
  bPl := d.wPl
  trans := false

/-- Bytes of a descriptor or a group table: as they were read when the instruction left the vector queue, else as they stand (R161, R295). -/
def State.descBytes (s : State) (va n : Nat) : Except Stop (List Byte × List Nat) :=
  match (s.cur.active.bind (fun e => Tbl.find va e.desc)).filter (fun b => decide (b.length = n)) with
  | some b => .ok (b, [])
  | none => s.fetchBytes none 2 va n

/-- The multiply that an MGRP's descriptor and group table give, and what their reads count by: the group, its offset and count (R295). -/
def State.mgrpRead (s : State) (p : M) : Except Stop (Grouped × List Nat × List Nat) :=
  match s.descBytes (s.memBase p) 56 with
  | .error e => .error e
  | .ok r =>
    let d : Grouped := ⟨wordsOf 8 7 r.1⟩
    if !d.ok || decide (d.table % 4 ≠ 0) then .ok (d, [], r.2)
    else match s.descBytes d.table (4 * d.g) with
      | .error e => .error e
      | .ok t => .ok (d, wordsOf 4 d.g t.1, r.2 ++ t.2)

/-- MGRP.O and MGRP.F (R295). -/
def mgrpBody (p : M) (ordered : Bool) (s : State) : Res :=
  let c := p.d.toNat % 8
  let va := s.memBase p
  let tw := (s.src p.x).toNat
  let g := bits tw 32 12
  let cb := bits tw 16 16
  let row := bits tw 44 20
  checkedAt va [(!s.tilesOk [c], 0x03, 0x08), (decide (va % 64 ≠ 0), 0x04, 0x04)] (fun s =>
    match s.mgrpRead p with
    | .error e => e.res true s
    | .ok (d, ns, reqs) =>
      checkedAt d.table [(!d.ok, 0x03, 0x09), (decide (d.g ≤ g) || decide (ceilDiv d.n 64 ≤ cb), 0x03, 0x0E),
        (decide (d.table % 4 ≠ 0), 0x04, 0x04)] (fun s =>
          let off := (ns.take g).sum
          let ng := ns.getD g 0
          let s := countReads s reqs
          checked [(decide (row < off) || decide (off + ng ≤ row) || decide ((row - off) % 96 ≠ 0), 0x03, 0x0E)] (fun s =>
            s.mulRun (d.mul c row g cb (min 96 (ng - (row - off))) ordered)) s) s) s

/-- MGRP.O (R295). -/
def execMgrpO (p : M) (s : State) : Host.Outcome State Fault Refusal := runV (.mgrpO p) none (mgrpBody p true) s
/-- MGRP.F (R295, R115). -/
def execMgrpF (p : M) (s : State) : Host.Outcome State Fault Refusal := runV (.mgrpF p) none (mgrpBody p false) s

/-- EQCLAIM (R293): one atomic step, then the reads; a fault anywhere leaves no effect (R415). A descriptor field that it reads outside its
range and a misaligned group table are its conditions too (R296, R424), precise since it executes in the scalar stream (log 61). On a descriptor or table in D memory, which R434 does not list as an exception of
EQCLAIM, it performs the claim (DESIGN CHOICE, log 79). -/
def execEqclaim (p : R2) (s : State) : Host.Outcome State Fault Refusal :=
  let a := (s.src p.a).toNat
  retire (if a % 64 ≠ 0 then precise 0x04 0x04 (s.src p.a) s
    else match s.translate ((a + 56) % 2 ^ 64) .amo with
    | .error e => e.res false s
    | .ok q =>
      let u := s.settleFor false q
      match u.readPhys q 8 false with
      | .error e => e.res false s
      | .ok old =>
        let t := u.putPhys q (leBytes 8 ((leNat old + 1) % 2 ^ 64)) 0
        match t.readVa false (a + 40) 16 with
        | .error e => e.res false s
        | .ok r =>
          let d : Grouped := ⟨List.replicate 5 0 ++ wordsOf 8 2 r.1⟩
          if !d.ok then precise 0x03 0x09 0 s
          else if d.table % 4 ≠ 0 then precise 0x04 0x04 (BitVec.ofNat 64 d.table) s
          else match t.readVa false d.table (4 * d.g) with
          | .error e => e.res false s
          | .ok n => (countReads t (runReqs (r.2 ++ n.2))).setD p.d
              (BitVec.ofNat 64 (poolTile d.n (wordsOf 4 d.g n.1) 0 0 (leNat old))))

end Sys2Proof.Machine
end

