-- ==== Sys2Proof/Machine/ScalarFloat.lean ====
section
/-! DEFINITION. Scalar floating-point instructions (R198 to R201). -/

namespace Sys2Proof.Machine

/-- FP32, or FP64 with SF[0] = 1 (R198). -/
def fpType (sf : BitVec 4) : FT := if bit sf.toNat 0 then .fp64 else .fp32

/-- Write a float result, zero above its width, and its sticky flags (R62, R198). -/
def State.setF (s : State) (d : BitVec 6) (r : Nat × Flags) : Res := (s.raise r.2).setD d (BitVec.ofNat 64 r.1)

/-- A two-source float instruction on data (R198). -/
def float2 (p : R2) (f : FT → FV → FV → Nat × Flags) (s : State) : Res :=
  let t := fpType p.sf
  s.setF p.d (f t (unpack t (s.srcF t p.a p.lit)) (unpack t (s.srcF t p.b p.lit)))

/-- FADD (R198). -/
def execFadd (p : R2) (s : State) : Host.Outcome State Fault Refusal := retire (float2 p (fun t a b => addFV t 0 a b) s)

/-- FSUB (R198). -/
def execFsub (p : R2) (s : State) : Host.Outcome State Fault Refusal :=
  retire (float2 p (fun t a b => addFV t 0 a b.flip) s)

/-- FMUL (R198). -/
def execFmul (p : R2) (s : State) : Host.Outcome State Fault Refusal := retire (float2 p (fun t a b => mulFV t 0 a b) s)

/-- FDIV (R198). -/
def execFdiv (p : R2) (s : State) : Host.Outcome State Fault Refusal := retire (float2 p (fun t a b => divFV t 0 a b) s)

/-- FSQRT (R198). -/
def execFsqrt (p : R1) (s : State) : Host.Outcome State Fault Refusal :=
  retire (s.setF p.d (sqrtFV (fpType p.sf) 0 (unpack (fpType p.sf) (s.srcF (fpType p.sf) p.a))))

/-- FMADD: one rounding under RM (R198). -/
def execFmadd (p : R3) (s : State) : Host.Outcome State Fault Refusal :=
  let t := fpType p.sf
  retire (s.setF p.d (fmaFV t p.rm.toNat (unpack t (s.srcF t p.a)) (unpack t (s.srcF t p.b)) (unpack t (s.srcF t p.c))))

/-- A scalar minimum or maximum (R112, R198). -/
def floatMinMax (mx : Bool) (p : R2) (s : State) : Res :=
  let t := fpType p.sf
  s.setF p.d (minMax t mx (s.srcF t p.a p.lit) (s.srcF t p.b p.lit))

/-- FMIN (R198). -/
def execFmin (p : R2) (s : State) : Host.Outcome State Fault Refusal := retire (floatMinMax false p s)

/-- FMAX (R198). -/
def execFmax (p : R2) (s : State) : Host.Outcome State Fault Refusal := retire (floatMinMax true p s)

/-- FCMP: 1 or 0 under the condition of SF[2:1] (R199). -/
def execFcmp (p : R2) (s : State) : Host.Outcome State Fault Refusal :=
  let t := fpType p.sf
  let r := cmpFloat t (fcmpCode (bits p.sf.toNat 1 2)) (s.srcF t p.a p.lit) (s.srcF t p.b p.lit)
  retire (s.setF p.d (if r.1 then 1 else 0, r.2))

/-- The float type of an FCVT type code (R200). -/
def cvtFT : Nat → Option FT
  | 0 => some .fp32
  | 1 => some .fp64
  | 2 => some .bf16
  | _ => none

/-- Width and signedness of an FCVT integer type code (R200). -/
def cvtInt : Nat → Nat × Bool
  | 3 => (32, true)
  | 4 => (32, false)
  | 5 => (64, true)
  | _ => (64, false)

/-- Float to float of FCVT: with F = T unchanged but for a signalling NaN (R200). -/
def cvtFF (f t : FT) (rm n : Nat) : Nat × Flags :=
  match unpack f n with
  | .nan false => if f = t then (n, 0) else (t.nan, 0)
  | v => if f = t && !v.isNan then (n, 0) else roundFV t rm v

/-- FCVT (R200): the register bits and flags of the result. -/
def fcvtResult (s : State) (p : R3) : Word × Flags :=
  match cvtFT p.cvF, cvtFT p.cvT with
  | some f, some t => let r := cvtFF f t p.rm.toNat (s.srcF f p.a); (BitVec.ofNat 64 r.1, r.2)
  | some f, none =>
    let r := toInt (cvtInt p.cvT).1 (cvtInt p.cvT).2 p.rm.toNat (unpack f (s.srcF f p.a))
    (word r.1, r.2)
  | none, some t =>
    let w := (cvtInt p.cvF).1
    let x := (s.src p.a).toNat
    let r := ofInt t p.rm.toNat (if (cvtInt p.cvF).2 then signed w x else ((x % 2 ^ w : Nat) : Int))
    (BitVec.ofNat 64 r.1, r.2)
  | none, none => (0, 0)

/-- FCVT (R200). -/
def execFcvt (p : R3) (s : State) : Host.Outcome State Fault Refusal :=
  let r := fcvtResult s p
  retire ((s.raise r.2).setD p.d r.1)

/-- FCLASS: a word with one bit set, no flag (R201). -/
def execFclass (p : R1) (s : State) : Host.Outcome State Fault Refusal :=
  retire (s.setD p.d (BitVec.ofNat 64 (classWord (fpType p.sf) (s.srcF (fpType p.sf) p.a))))

end Sys2Proof.Machine
end

