-- ==== Sys2Proof/Machine/Softmax.lean ====
section
/-! DEFINITION. Streaming softmax: MSOFT, MMASK, MMERGE, MFIN (R297 to R303). -/

namespace Sys2Proof.Machine

/-- Write the first entries of a row. -/
def Acc.putCols (a : Acc) (r : Nat) (vs : List Nat) : Acc := vs.zipIdx.foldl (fun a x => a.put r x.2 x.1) a

/-- Replace a tile and forget its heap tag (R309). -/
def State.setUntagged (s : State) (c : Nat) (a : Acc) : State := s.setAcc c { a with tag := 0 }

/-- The row update of MSOFT over value rows (R299). A row whose values stay still loses the heap tag (R309 names the instruction). -/
def softUpdate (s : State) (c r n : Nat) (scores : List Nat) (values : Except Stop (List Row)) (first : Bool) : Except Stop State :=
  let a := s.acc c
  match softRow (a.mAt r) scores with
  | .nan f => .ok ((s.raise f).setUntagged c (((a.putCols r (List.replicate n FT.fp32.nan)).putM r FT.fp32.nan).putL r FT.fp32.nan))
  | .still => .ok (s.setUntagged c a)
  | .update m' al ps f => match values with
    | .error e => .error e
    | .ok rows =>
      let l := linear ((f32 (a.lAt r), f32 al) :: ps.map (fun p => (f32 p, one32)))
      let out := (upto 0 n).map (fun col =>
        let o := linear [(f32 (a.at r col), f32 al)]
        let u := chunkSteps o.1 ((ps.zip rows).map (fun x => (f32 x.1, x.2.vals.getD col (.fin false 0 0))))
        (u.1, o.2 ||| u.2))
      let t := s.raise (f ||| l.2 ||| orFlags (out.map (·.2)) ||| orFlags (rows.map (·.flags)))
      let t := if first then countReads t (rows.flatMap (·.locs)) else t
      .ok (t.setUntagged c (((a.putCols r (out.map (·.1))).putM r m').putL r l.1))

/-- The value rows of MSOFT, first byte and last (R298). -/
def State.valueSpans (s : State) (p : M) : List (Nat × Nat) :=
  let w := s.goff p.spReg
  if shapeM w = 0 ∨ shapeN w = 0 then []
  else (upto 0 (shapeK w)).map (fun j => rowSpan p.fmt.toNat p.planes.toNat (s.tileRow p j) 0 (shapeN w))

/-- MSOFT (R298, R299). -/
def msoftBody (p : M) (s : State) : Res :=
  let c := p.d.toNat % 8
  let w := s.goff p.spReg
  let n := shapeN w
  let k := shapeK w
  checked ((!s.tilesFp32 [c, p.csTile], 0x03, 0x08) :: shapeConds false w true ++ [(decide (64 < n) || decide (64 < k), 0x03, 0x09)])
    (fun s =>
      if shapeM w = 0 ∨ n = 0 ∨ k = 0 then .ok s
      else kbBasesOk p.fmt.toNat ((upto 0 k).map (s.tileRow p)) s (fun s =>
        s.noD .load (s.valueSpans p) (fun s =>
          let values := s.rowsOf p.fmt.toNat p.planes.toNat ((upto 0 k).map (fun j => (s.tileRow p j, 0, n)))
          let rows := s.fromRow (shapeM w)
          rowLoop [c, p.csTile] (fun r t =>
            softUpdate t c r n ((upto 0 k).map (fun j => (t.acc p.csTile).at r j)) values (rows.head? == some r)) rows s))) s

/-- MSOFT (R299). -/
def execMsoft (p : M) (s : State) : Host.Outcome State Fault Refusal := runV (.msoft p) none (msoftBody p) s

/-- Whether MMASK masks row r, column n (R300). -/
def masked (causal : Bool) (a b r n : Nat) : Bool :=
  let qpos := a % 2 ^ 32 + r
  let kpos := b % 2 ^ 32 + n
  let win := a / 2 ^ 32
  let klim := b / 2 ^ 32
  (causal && decide (qpos < kpos)) || (decide (0 < win) && decide (win + kpos ≤ qpos)) || (decide (0 < klim) && decide (klim ≤ kpos))

/-- MMASK (R300). -/
def mmaskBody (p : R2) (s : State) : Res :=
  let c := p.d.toNat % 8
  checked [(!s.tilesFp32 [c], 0x03, 0x08)] (fun s =>
    rowLoop [c] (fun r t => .ok (t.setUntagged c ((upto 0 64).foldl (fun a n =>
      if masked (bit p.sf.toNat 0) (s.src p.a).toNat (s.src p.b).toNat r n then a.put r n negInf else a) (t.acc c))))
      (s.fromRow 96) s) s

/-- MMASK (R300). -/
def execMmask (p : R2) (s : State) : Host.Outcome State Fault Refusal := runV (.mmask p) none (mmaskBody p) s

/-- What a merge of two row states gives: m, l, the two factors, or none when both rows are empty (R301). -/
structure Merged where
  m : Nat
  l : Nat
  a1 : Nat
  a2 : Nat
  nan : Bool
  flags : Flags
  deriving DecidableEq, Repr

/-- The merge of (m1, l1) and (m2, l2) (R301). -/
def mergeRows (m1 l1 m2 l2 : Nat) : Option Merged :=
  if (f32 m1).isNan || (f32 m2).isNan then some ⟨FT.fp32.nan, FT.fp32.nan, 0, 0, true, 0⟩
  else
    let m' := maxOf m1 [m2]
    if m' = negInf then none
    else
      let a1 := expDiff m1 m'
      let a2 := expDiff m2 m'
      let l := linear [(f32 l1, f32 a1.1), (f32 l2, f32 a2.1)]
      some ⟨m', l.1, a1.1, a2.1, false, a1.2 ||| a2.2 ||| l.2⟩

/-- One row of MMERGE (R301). Two empty rows change no value, and the heap tag goes all the same (R309 names the instruction). -/
def mergeRow (s : State) (d a n r : Nat) : State :=
  let x := s.acc d
  let y := s.acc a
  match mergeRows (x.mAt r) (x.lAt r) (y.mAt r) (y.lAt r) with
  | none => s.setUntagged d x
  | some g =>
    let out := (upto 0 n).map (fun c =>
      if g.nan then (FT.fp32.nan, 0) else linear [(f32 (x.at r c), f32 g.a1), (f32 (y.at r c), f32 g.a2)])
    (s.raise (g.flags ||| orFlags (out.map (·.2)))).setUntagged d (((x.putCols r (out.map (·.1))).putM r g.m).putL r g.l)

/-- MMERGE (R301). -/
def mmergeBody (p : R2) (s : State) : Res :=
  let d := p.d.toNat % 8
  let w := s.src p.b
  checked ((!s.tilesFp32 [d, p.a.cidx], 0x03, 0x08) :: shapeConds false w false ++ [(decide (64 < shapeN w), 0x03, 0x09)]) (fun s =>
    if shapeM w = 0 ∨ shapeN w = 0 then .ok s
    else rowLoop [d, p.a.cidx] (fun r t => .ok (mergeRow t d p.a.cidx (shapeN w) r)) (s.fromRow (shapeM w)) s) s

/-- MMERGE (R301). -/
def execMmerge (p : R2) (s : State) : Host.Outcome State Fault Refusal := runV (.mmerge p) none (mmergeBody p) s

/-- O[n] / l narrowed with one rounding (R303, R462). -/
def finish (f : FT) (o l : Nat) : Nat × Flags :=
  if l = 0 then (f.zero false, fMROW)
  else
    let a := f32 o
    let b := f32 l
    if a.isNan || b.isNan then (f.nan, a.nv ||| b.nv)
    else match a, b with
      | .inf _, .inf _ => (f.nan, fNV)
      | .inf x, v => if f = .e4m3 then (f.maxFin (x != v.neg), fNSAT ||| fNX) else (f.inf (x != v.neg), 0)
      | v, .inf y => (f.zero (v.neg != y), 0)
      | .fin x m e, .fin y n g =>
        if n = 0 then (if m = 0 then (f.nan, fNV) else if f = .e4m3 then (f.maxFin (x != y), fNSAT ||| fNX) else (f.inf (x != y), 0))
        else
          let k := 32 + bitLen n
          narrowExact f (x != y) (m * 2 ^ k / n) (e - g - k) (decide (m * 2 ^ k % n ≠ 0))
      | _, _ => (f.nan, 0)

/-- MFIN (R303). -/
def mfinBody (p : M) (s : State) : Res :=
  let c := p.d.toNat % 8
  let w := s.goff p.spReg
  let a := s.acc c
  let f := (fmtFT p.fmt.toNat).getD .fp32
  checked ((!s.tilesFp32 [c], 0x03, 0x08) :: shapeConds false w false ++ [(decide (64 < shapeN w), 0x03, 0x09)]) (fun s =>
    if shapeM w = 0 ∨ shapeN w = 0 then .ok s
    else s.noD .store (s.tileSpans p) (fun s =>
      s.storeRows [c] p.rdr.toNat (s.fromRow (shapeM w)) (fun r =>
        s.elemPuts (s.tileRow p r) (f.width / 8) ((upto 0 (shapeN w)).map (fun n => finish f (a.at r n) (a.lAt r)))))) s

/-- MFIN (R303). -/
def execMfin (p : M) (s : State) : Host.Outcome State Fault Refusal := runV (.mfin p) none (mfinBody p) s

end Sys2Proof.Machine
end

