-- ==== Sys2Proof/Machine/Vocab.lean ====
section
/-! DEFINITION. Vocabulary projection with heaps and labels (R307 to R315, R464). -/

namespace Sys2Proof.Machine

/-- A projection descriptor's eight words (R307). -/
structure Proj where
  w : List Nat
  deriving DecidableEq, Repr

/-- A word of the descriptor. -/
def Proj.word (d : Proj) (i : Nat) : Nat := d.w.getD i 0
/-- LBASE. -/
def Proj.lbase (d : Proj) : Nat := d.word 4
/-- Whether there are labels. -/
def Proj.lbl (d : Proj) : Bool := decide (d.lbase ≠ 0)
/-- G0. -/
def Proj.g0 (d : Proj) : Nat := d.word 5 / 2 ^ 32
/-- V. -/
def Proj.v (d : Proj) : Nat := d.word 5 % 2 ^ 32
/-- WFMT. -/
def Proj.wFmt (d : Proj) : Nat := bits (d.word 6) 60 4
/-- HFMT. -/
def Proj.hFmt (d : Proj) : Nat := bits (d.word 6) 56 4
/-- WPLANES. -/
def Proj.wPl (d : Proj) : Nat := bits (d.word 6) 53 3
/-- HPLANES. -/
def Proj.hPl (d : Proj) : Nat := bits (d.word 6) 50 3
/-- KH. -/
def Proj.kh (d : Proj) : Nat := bits (d.word 6) 44 6
/-- M. -/
def Proj.m (d : Proj) : Nat := bits (d.word 6) 36 8
/-- K. -/
def Proj.k (d : Proj) : Nat := bits (d.word 6) 0 21
/-- NBASE. -/
def Proj.nbase (d : Proj) : Nat := addr57 (d.word 7 % 2 ^ 57)
/-- Every field in its range (R307, R427). -/
def Proj.ok (d : Proj) : Bool :=
  decide (bits (d.word 6) 21 15 = 0) && decide (d.word 7 / 2 ^ 57 = 0) && decide (1 ≤ d.kh) &&
    decide (d.kh ≤ if d.lbl then 31 else 32) && decide (1 ≤ d.m) && decide (d.m ≤ 96) && decide (1 ≤ d.k) &&
    decide (1 ≤ d.v) && decide (d.v + d.g0 ≤ 2 ^ 32) && matFmtN d.wFmt && matFmtN d.hFmt && planesN d.wFmt d.wPl && planesN d.hFmt d.hPl
/-- The heap tag that the descriptor makes (R75, R309). -/
def Proj.tag (d : Proj) : BitVec 16 := BitVec.ofNat 16 (d.kh + (if d.lbl then 2 ^ 6 else 0) + d.m * 2 ^ 8)
/-- Base of hidden row r. -/
def Proj.hRow (d : Proj) (r : Nat) : Nat := addrOf (BitVec.ofNat 64 (d.word 0)) (r * signed 64 (d.word 1))
/-- Base of weight row j. -/
def Proj.wRow (d : Proj) (j : Nat) : Nat := addrOf (BitVec.ofNat 64 (d.word 2)) (j * signed 64 (d.word 3))

/-- What VPROJ and VPGRAD know once their conditions hold: descriptor, strip, labels, normalisers, weight rows. -/
structure Strip where
  d : Proj
  j0 : Nat
  nv : Nat
  labels : List Nat
  norms : List Nat
  weights : Except Stop (List Row)

/-- M 32-bit words at an address. -/
def State.words32 (s : State) (va m : Nat) : Except Stop (List Nat × List Nat) :=
  match s.fetchBytes none 2 va (4 * m) with
  | .error e => .error e
  | .ok r => .ok (wordsOf 4 m r.1, r.2)

/-- What VPROJ and VPGRAD read beside their descriptor, first byte and last: hidden and weight rows, labels, normalisers (R308, R311, R315). -/
def Proj.spans (d : Proj) (grad : Bool) (j0 nv : Nat) : List (Nat × Nat) :=
  if nv = 0 then []
  else (upto 0 d.m).map (fun r => rowSpan d.hFmt d.hPl (d.hRow r) 0 d.k) ++ (upto j0 nv).map (fun j => rowSpan d.wFmt d.wPl (d.wRow j) 0 d.k) ++
    (if d.lbl then [(d.lbase, d.lbase + 4 * d.m - 1)] else []) ++ (if grad then [(d.nbase, d.nbase + 4 * d.m - 1)] else [])

/-- The checks that VPROJ and VPGRAD share (R308, R416, R427): tile, descriptor, its fields, the strip, the tag, operand
rows, label and normaliser arrays, of which none is read when NV = 0 (R311, R315); then the body. -/
def stripChecks (p : M) (grad : Bool) (tagOk : State → Proj → Bool) (body : Strip → State → Res) (s : State) : Res :=
  let c := p.d.toNat % 8
  let va := s.memBase p
  let x := (s.src p.x).toNat
  let j0 := x % 2 ^ 32
  let nv := x / 2 ^ 32
  checkedAt va [(!s.tilesFp32 [c], 0x03, 0x08), (grad && decide (64 < nv), 0x03, 0x09), (decide (va % 64 ≠ 0), 0x04, 0x04)] (fun s =>
    match s.descBytes va 64 with
    | .error e => e.res true s
    | .ok r =>
      let d : Proj := ⟨wordsOf 8 8 r.1⟩
      let js := upto j0 nv
      let rs := if nv = 0 then [] else upto 0 d.m
      checked [(!d.ok || decide (d.v < j0 + nv), 0x03, 0x09), (!tagOk s d, 0x03, 0x0E)] (fun s =>
        kbBasesOk d.hFmt (rs.map d.hRow) s (kbBasesOk d.wFmt (js.map d.wRow) · (fun s =>
          checkedAt d.lbase [(decide (d.lbase % 4 ≠ 0), 0x04, 0x04)] (fun s =>
            checkedAt d.nbase [(grad && decide (d.nbase % 4 ≠ 0), 0x04, 0x04)] (fun s =>
              s.noD .load (rs.map (fun r => rowSpan d.hFmt d.hPl (d.hRow r) 0 d.k) ++
                  js.map (fun j => rowSpan d.wFmt d.wPl (d.wRow j) 0 d.k)) (fun s =>
                match (if d.lbl && decide (nv ≠ 0) then s.words32 d.lbase d.m else .ok ([], [])) with
                | .error e => e.res true s
                | .ok ls => match (if grad && decide (nv ≠ 0) then s.words32 d.nbase d.m else .ok ([], [])) with
                  | .error e => e.res true s
                  | .ok ns =>
                    let ws := s.rowsOf d.wFmt d.wPl (js.map (fun j => (d.wRow j, 0, d.k)))
                    let locs := match ws with
                      | .ok rows => rows.flatMap (·.locs)
                      | .error _ => []
                    (body ⟨d, j0, nv, ls.1, ns.1, ws⟩ (countReads s (r.2 ++ ls.2 ++ ns.2 ++ locs))).keeping ((va, va + 63) :: d.spans grad j0 nv))) s) s)))  s) s

/-- The logits of hidden row r over the strip, with their flags and the lines read (R308). -/
def State.logits (s : State) (x : Strip) (r : Nat) : Except Stop (List (Nat × Flags) × List Nat) :=
  if x.nv = 0 then .ok ([], [])
  else match s.row none 2 .bf16 x.d.hFmt x.d.hPl (x.d.hRow r) 0 x.d.k with
    | .error e => .error e
    | .ok h => match x.weights with
      | .error e => .error e
      | .ok ws => .ok (ws.map (fun w =>
          let z := chunkSteps 0 (h.vals.zip w.vals)
          (z.1, z.2 ||| h.flags ||| w.flags)), h.locs)

/-- Whether an FP32 pattern is a NaN or an infinity. -/
def notFinite (z : Nat) : Bool := (f32 z).isNan || (f32 z).isInf

/-! ### Heaps -/

/-- Candidate a ranks before b (R310). -/
def ranksBefore (a b : Nat × Nat) : Bool :=
  ltFV (f32 b.1) (f32 a.1) || (!ltFV (f32 a.1) (f32 b.1) && decide (a.2 < b.2))
/-- Equal value and index (R312). -/
def sameCand (a b : Nat × Nat) : Bool := !ltFV (f32 a.1) (f32 b.1) && !ltFV (f32 b.1) (f32 a.1) && a.2 == b.2

/-- Insert a candidate in rank order; a pair that is there already counts once (R310, R312). -/
def heapInsert (x : Nat × Nat) : List (Nat × Nat) → List (Nat × Nat)
  | [] => [x]
  | y :: rest => if sameCand x y then y :: rest else if ranksBefore x y then x :: y :: rest else y :: heapInsert x rest

/-- The candidates of a row's heap (R309). -/
def Acc.heap (a : Acc) (r kh : Nat) : List (Nat × Nat) :=
  ((upto 0 kh).map (fun p => (a.at r p, a.at r (32 + p)))).filter (fun c => !notFinite c.1)

/-- A row's heap slots: the first KH candidates, unfilled beyond them (R309). -/
def Acc.putHeap (a : Acc) (r kh : Nat) (h : List (Nat × Nat)) : Acc :=
  (upto 0 kh).foldl (fun a p =>
    let c := h.getD p (negInf, 0xFFFFFFFF)
    (a.put r p c.1).put r (32 + p) c.2) a

/-- The first KH of a set of candidates by R310. -/
def topK (kh : Nat) (xs : List (Nat × Nat)) : List (Nat × Nat) := (xs.foldl (fun h x => heapInsert x h) []).take kh

/-! ### VPROJ -/

/-- m and l of a row over its logits (R311). -/
def projNorm (m l : Nat) (z : List Nat) : Nat × Nat × Flags :=
  if z.any notFinite || (f32 m).isNan then (FT.fp32.nan, FT.fp32.nan, fNV)
  else
    let m' := maxOf m z
    let al := expDiff m m'
    let l0 := linear [(f32 l, f32 al.1)]
    let l1 := (chunksOf 32 (z.length / 32 + 1) (z.map (fun x => (f32 (expDiff x m').1, one32)))).foldl
      (fun a c => let r := linear ((f32 a.1, one32) :: c); (r.1, a.2 ||| r.2)) l0
    (m', l1.1, al.2 ||| l1.2)

/-- One row of VPROJ (R311). -/
def projRow (x : Strip) (c : Nat) (init : Bool) (r : Nat) (s : State) : Except Stop State :=
  let d := x.d
  let a0 := s.acc c
  let a := if init then
      let b := ((a0.putM r negInf).putL r 0).putHeap r d.kh []
      if d.lbl then (b.put r 31 FT.fp32.nan).put r 63 0xFFFFFFFF else b
    else a0
  let tagged := fun (a : Acc) => if init then { a with tag := d.tag } else a
  if x.nv = 0 then .ok (s.setAcc c (tagged a))
  else match s.logits x r with
    | .error e => .error e
    | .ok (zs, locs) =>
      let z := zs.map (·.1)
      let n := projNorm (a.mAt r) (a.lAt r) z
      let cands := (z.zipIdx.filter (fun y => !notFinite y.1)).map (fun y => (y.1, d.g0 + x.j0 + y.2))
      let b := ((a.putM r n.1).putL r n.2.1).putHeap r d.kh (topK d.kh (a.heap r d.kh ++ cands))
      let lab := x.labels.getD r 0
      let j := lab - d.g0 - x.j0
      let b := if d.lbl && decide (d.g0 + x.j0 ≤ lab) && decide (lab < d.g0 + x.j0 + x.nv) then (b.put r 31 (z.getD j 0)).put r 63 lab else b
      .ok (((countReads s locs).raise (n.2.2 ||| orFlags (zs.map (·.2)))).setAcc c (tagged b))

/-- VPROJ (R311). -/
def execVproj (p : M) (s : State) : Host.Outcome State Fault Refusal :=
  let c := p.d.toNat % 8
  let init := bit p.sf.toNat 0
  runV (.vproj p) none (stripChecks p false (fun s d => init || decide ((s.acc c).tag = d.tag)) (fun x s =>
    rowLoop [c] (projRow x c init) (s.fromRow x.d.m) s)) s

/-! ### VPMERGE, VPFIN, VPGRAD -/

/-- One row of VPMERGE (R312). -/
def vpmergeRow (s : State) (d a : Nat) (tag : BitVec 16) (r : Nat) : State :=
  let x := s.acc d
  let y := s.acc a
  let kh := tag.toNat % 64
  let h := topK kh (x.heap r kh ++ y.heap r kh)
  let b := x.putHeap r kh h
  let b := if bit tag.toNat 6 && x.at r 31 == FT.fp32.nan && x.at r 63 == 0xFFFFFFFF then (b.put r 31 (y.at r 31)).put r 63 (y.at r 63) else b
  match mergeRows (x.mAt r) (x.lAt r) (y.mAt r) (y.lAt r) with
  | none => s.setAcc d b
  | some g => (s.raise g.flags).setAcc d ((b.putM r g.m).putL r g.l)

/-- VPMERGE (R312). -/
def execVpmerge (p : R2) (s : State) : Host.Outcome State Fault Refusal :=
  let d := p.d.toNat % 8
  runV (.vpmerge p) none (fun s =>
    let tag := (s.src p.b).setWidth 16
    checked [(!s.tilesFp32 [d, p.a.cidx], 0x03, 0x08), (decide ((s.acc d).tag ≠ tag), 0x03, 0x0E)] (fun s =>
      rowLoop [d, p.a.cidx] (fun r t => .ok (vpmergeRow t d p.a.cidx tag r)) (s.fromRow (tag.toNat / 256)) s) s) s

/-- The record of a row (R314): normaliser, label logit, candidates; and its flags. -/
def finRecord (a : Acc) (r ko : Nat) : List Byte × Flags :=
  let l := a.lAt r
  let lg := log2K l
  let n : Nat × Flags := if l = 0 then (negInf, fMROW)
    else ((linear [(f32 (a.mAt r), one32), (f32 lg.1, one32)]).1, lg.2 &&& (fNV ||| fDZ))
  (leBytes 4 n.1 ++ leBytes 4 (if bit a.tag.toNat 6 then a.at r 31 else FT.fp32.nan) ++
    (upto 0 ko).flatMap (fun p => leBytes 4 (a.at r p) ++ leBytes 4 (a.at r (32 + p))), n.2)

/-- The records of VPFIN, first byte and last (R314). -/
def State.recordSpans (s : State) (p : M) : List (Nat × Nat) :=
  let w := (s.goff p.spReg).toNat
  (upto 0 (bits w 8 8)).map (fun r => (s.tileRow p r, s.tileRow p r + 8 + 8 * bits w 0 6 - 1))

/-- VPFIN (R314, R464): its conditions in the order of R464. -/
def vpfinBody (p : M) (s : State) : Res :=
  let c := p.d.toNat % 8
  let w := (s.goff p.spReg).toNat
  let ko := bits w 0 6
  let m := bits w 8 8
  let a := s.acc c
  let bad := ((upto 0 m).map (s.tileRow p)).find? (fun b => decide (b % 4 ≠ 0))
  checked [(!s.tilesFp32 [c], 0x03, 0x08), (decide (a.tag = 0) || decide (a.tag.toNat / 256 ≠ m), 0x03, 0x0E), (decide (ko = 0), 0x03, 0x09)] (fun s =>
    checkedAt (bad.getD 0) [(bad.isSome, 0x04, 0x04)] (fun s =>
      s.noD .store (s.recordSpans p) (fun s =>
        checked [(decide (a.tag.toNat % 64 < ko), 0x0E, 0x01)] (fun s =>
          s.storeRows [c] p.rdr.toNat (s.fromRow m) (fun r =>
            let rec' := finRecord a r ko
            match s.rowPuts (s.tileRow p r) 4 rec'.1 with
            | .error e => .error e
            | .ok ps => .ok (ps, rec'.2))) s)) s) s

/-- VPFIN (R314). -/
def execVpfin (p : M) (s : State) : Host.Outcome State Fault Refusal := runV (.vpfin p) none (vpfinBody p) s

/-- One entry of VPGRAD's row: its value and flags (R315). -/
def gradEntry (nrm : Nat) (z : Nat × Flags) (isLabel : Bool) : Nat × Flags :=
  let g := exp2K (eSub .fp32 0 z.1 nrm).1
  let h := if isLabel then eSub .fp32 0 g.1 0x3F800000 else (g.1, 0)
  (h.1, if (f32 nrm).isNan then 0 else z.2 ||| (g.2 &&& (fOF ||| fUF)) ||| (h.2 &&& ieeeFlags))

/-- One row of VPGRAD (R315). -/
def gradRow (x : Strip) (c r : Nat) (s : State) : Except Stop State :=
  match s.logits x r with
  | .error e => .error e
  | .ok (zs, locs) =>
    let nrm := x.norms.getD r 0
    let es := zs.zipIdx.map (fun z => gradEntry nrm z.1 (x.d.lbl && decide (x.labels.getD r 0 = x.d.g0 + x.j0 + z.2)))
    .ok (((countReads s locs).raise (orFlags (es.map (·.2)))).setUntagged c
      ((s.acc c).putCols r ((upto 0 64).map (fun n => (es.map (·.1)).getD n 0))))

/-- VPGRAD (R315). -/
def execVpgrad (p : M) (s : State) : Host.Outcome State Fault Refusal :=
  let c := p.d.toNat % 8
  runV (.vpgrad p) none (stripChecks p true (fun _ _ => true) (fun x s =>
    rowLoop [c] (gradRow x c) (s.fromRow x.d.m) s)) s

end Sys2Proof.Machine
end

