-- ==== Sys2Proof/Machine/Dispatch.lean ====
section
/-! DEFINITION. The dispatcher: one arm per constructor of Instr. -/

namespace Sys2Proof.Machine

/-- The meaning of each instruction and each device event. -/
def exec (i : Instr) (s : State) : Host.Outcome State Fault Refusal :=
  match i with
  | .nop p => Sys2Proof.Machine.execNop p s
  | .add p => Sys2Proof.Machine.execAdd p s
  | .sub p => Sys2Proof.Machine.execSub p s
  | .mul p => Sys2Proof.Machine.execMul p s
  | .mulh p => Sys2Proof.Machine.execMulh p s
  | .mulhsu p => Sys2Proof.Machine.execMulhsu p s
  | .div p => Sys2Proof.Machine.execDiv p s
  | .divu p => Sys2Proof.Machine.execDivu p s
  | .rem p => Sys2Proof.Machine.execRem p s
  | .remu p => Sys2Proof.Machine.execRemu p s
  | .and p => Sys2Proof.Machine.execAnd p s
  | .or p => Sys2Proof.Machine.execOr p s
  | .xor p => Sys2Proof.Machine.execXor p s
  | .andn p => Sys2Proof.Machine.execAndn p s
  | .sll p => Sys2Proof.Machine.execSll p s
  | .srl p => Sys2Proof.Machine.execSrl p s
  | .sra p => Sys2Proof.Machine.execSra p s
  | .rol p => Sys2Proof.Machine.execRol p s
  | .ror p => Sys2Proof.Machine.execRor p s
  | .slt p => Sys2Proof.Machine.execSlt p s
  | .sltu p => Sys2Proof.Machine.execSltu p s
  | .min p => Sys2Proof.Machine.execMin p s
  | .max p => Sys2Proof.Machine.execMax p s
  | .minu p => Sys2Proof.Machine.execMinu p s
  | .maxu p => Sys2Proof.Machine.execMaxu p s
  | .clz p => Sys2Proof.Machine.execClz p s
  | .ctz p => Sys2Proof.Machine.execCtz p s
  | .popc p => Sys2Proof.Machine.execPopc p s
  | .sext p => Sys2Proof.Machine.execSext p s
  | .zext p => Sys2Proof.Machine.execZext p s
  | .liReg p => Sys2Proof.Machine.execLiReg p s
  | .liLit32 p => Sys2Proof.Machine.execLiLit32 p s
  | .liHn p => Sys2Proof.Machine.execLiHn p s
  | .lea p => Sys2Proof.Machine.execLea p s
  | .leaDisp p => Sys2Proof.Machine.execLeaDisp p s
  | .sel p => Sys2Proof.Machine.execSel p s
  | .bfx p => Sys2Proof.Machine.execBfx p s
  | .bfi p => Sys2Proof.Machine.execBfi p s
  | .fadd p => Sys2Proof.Machine.execFadd p s
  | .fsub p => Sys2Proof.Machine.execFsub p s
  | .fmul p => Sys2Proof.Machine.execFmul p s
  | .fdiv p => Sys2Proof.Machine.execFdiv p s
  | .fsqrt p => Sys2Proof.Machine.execFsqrt p s
  | .fmadd p => Sys2Proof.Machine.execFmadd p s
  | .fmin p => Sys2Proof.Machine.execFmin p s
  | .fmax p => Sys2Proof.Machine.execFmax p s
  | .fcmp p => Sys2Proof.Machine.execFcmp p s
  | .fcvt p => Sys2Proof.Machine.execFcvt p s
  | .fclass p => Sys2Proof.Machine.execFclass p s
  | .bCc p => Sys2Proof.Machine.execBCc p s
  | .jShort p => Sys2Proof.Machine.execJShort p s
  | .jLong p => Sys2Proof.Machine.execJLong p s
  | .jalShort p => Sys2Proof.Machine.execJalShort p s
  | .jalLong p => Sys2Proof.Machine.execJalLong p s
  | .jr p => Sys2Proof.Machine.execJr p s
  | .ret p => Sys2Proof.Machine.execRet p s
  | .loop p => Sys2Proof.Machine.execLoop p s
  | .ld p => Sys2Proof.Machine.execLd p s
  | .st p => Sys2Proof.Machine.execSt p s
  | .pref p => Sys2Proof.Machine.execPref p s
  | .amo p => Sys2Proof.Machine.execAmo p s
  | .lr p => Sys2Proof.Machine.execLr p s
  | .sc p => Sys2Proof.Machine.execSc p s
  | .trap p => Sys2Proof.Machine.execTrap p s
  | .eret p => Sys2Proof.Machine.execEret p s
  | .srr p => Sys2Proof.Machine.execSrr p s
  | .srw p => Sys2Proof.Machine.execSrw p s
  | .pause p => Sys2Proof.Machine.execPause p s
  | .pauseExpiry h => Sys2Proof.Machine.execPauseExpiry h s
  | .yield p => Sys2Proof.Machine.execYield p s
  | .wfev p => Sys2Proof.Machine.execWfev p s
  | .fenceSv p => Sys2Proof.Machine.execFenceSv p s
  | .fenceStk p => Sys2Proof.Machine.execFenceStk p s
  | .rel p => Sys2Proof.Machine.execRel p s
  | .acq p => Sys2Proof.Machine.execAcq p s
  | .vsave p => Sys2Proof.Machine.execVsave p s
  | .vrstr p => Sys2Proof.Machine.execVrstr p s
  | .frz p => Sys2Proof.Machine.execFrz p s
  | .vcfg p => Sys2Proof.Machine.execVcfg p s
  | .vsetl p => Sys2Proof.Machine.execVsetl p s
  | .vqlen p => Sys2Proof.Machine.execVqlen p s
  | .vbind p => Sys2Proof.Machine.execVbind p s
  | .vbindOff p => Sys2Proof.Machine.execVbindOff p s
  | .vspill p => Sys2Proof.Machine.execVspill p s
  | .vfill p => Sys2Proof.Machine.execVfill p s
  | .vadd p => Sys2Proof.Machine.execVadd p s
  | .vsub p => Sys2Proof.Machine.execVsub p s
  | .vmul p => Sys2Proof.Machine.execVmul p s
  | .vfma p => Sys2Proof.Machine.execVfma p s
  | .vfms p => Sys2Proof.Machine.execVfms p s
  | .vnfma p => Sys2Proof.Machine.execVnfma p s
  | .vdiv p => Sys2Proof.Machine.execVdiv p s
  | .vsqrt p => Sys2Proof.Machine.execVsqrt p s
  | .vrsqrt p => Sys2Proof.Machine.execVrsqrt p s
  | .vexp2 p => Sys2Proof.Machine.execVexp2 p s
  | .vlog2 p => Sys2Proof.Machine.execVlog2 p s
  | .vmin p => Sys2Proof.Machine.execVmin p s
  | .vmax p => Sys2Proof.Machine.execVmax p s
  | .vabs p => Sys2Proof.Machine.execVabs p s
  | .vneg p => Sys2Proof.Machine.execVneg p s
  | .vcvt p => Sys2Proof.Machine.execVcvt p s
  | .vclass p => Sys2Proof.Machine.execVclass p s
  | .viadd p => Sys2Proof.Machine.execViadd p s
  | .visub p => Sys2Proof.Machine.execVisub p s
  | .vimul p => Sys2Proof.Machine.execVimul p s
  | .vimulh p => Sys2Proof.Machine.execVimulh p s
  | .vand p => Sys2Proof.Machine.execVand p s
  | .vor p => Sys2Proof.Machine.execVor p s
  | .vxor p => Sys2Proof.Machine.execVxor p s
  | .vshl p => Sys2Proof.Machine.execVshl p s
  | .vshr p => Sys2Proof.Machine.execVshr p s
  | .vsra p => Sys2Proof.Machine.execVsra p s
  | .vimin p => Sys2Proof.Machine.execVimin p s
  | .vimax p => Sys2Proof.Machine.execVimax p s
  | .fVadd p => Sys2Proof.Machine.execFVadd p s
  | .fVsub p => Sys2Proof.Machine.execFVsub p s
  | .fVmul p => Sys2Proof.Machine.execFVmul p s
  | .fVfma p => Sys2Proof.Machine.execFVfma p s
  | .fVfms p => Sys2Proof.Machine.execFVfms p s
  | .fVnfma p => Sys2Proof.Machine.execFVnfma p s
  | .fVmin p => Sys2Proof.Machine.execFVmin p s
  | .fVmax p => Sys2Proof.Machine.execFVmax p s
  | .fVabs p => Sys2Proof.Machine.execFVabs p s
  | .fVneg p => Sys2Proof.Machine.execFVneg p s
  | .fVcvt p => Sys2Proof.Machine.execFVcvt p s
  | .fViadd p => Sys2Proof.Machine.execFViadd p s
  | .fVisub p => Sys2Proof.Machine.execFVisub p s
  | .fVimul p => Sys2Proof.Machine.execFVimul p s
  | .fVimulh p => Sys2Proof.Machine.execFVimulh p s
  | .fVand p => Sys2Proof.Machine.execFVand p s
  | .fVor p => Sys2Proof.Machine.execFVor p s
  | .fVxor p => Sys2Proof.Machine.execFVxor p s
  | .fVshl p => Sys2Proof.Machine.execFVshl p s
  | .fVshr p => Sys2Proof.Machine.execFVshr p s
  | .fVsra p => Sys2Proof.Machine.execFVsra p s
  | .fVimin p => Sys2Proof.Machine.execFVimin p s
  | .fVimax p => Sys2Proof.Machine.execFVimax p s
  | .vcmp p => Sys2Proof.Machine.execVcmp p s
  | .qand p => Sys2Proof.Machine.execQand p s
  | .qor p => Sys2Proof.Machine.execQor p s
  | .qnot p => Sys2Proof.Machine.execQnot p s
  | .qpop p => Sys2Proof.Machine.execQpop p s
  | .qfirst p => Sys2Proof.Machine.execQfirst p s
  | .vsel p => Sys2Proof.Machine.execVsel p s
  | .viota p => Sys2Proof.Machine.execViota p s
  | .vred p => Sys2Proof.Machine.execVred p s
  | .vredo p => Sys2Proof.Machine.execVredo p s
  | .fVred p => Sys2Proof.Machine.execFVred p s
  | .fVredo p => Sys2Proof.Machine.execFVredo p s
  | .vscan p => Sys2Proof.Machine.execVscan p s
  | .vperm p => Sys2Proof.Machine.execVperm p s
  | .vslide p => Sys2Proof.Machine.execVslide p s
  | .vcompress p => Sys2Proof.Machine.execVcompress p s
  | .vexpand p => Sys2Proof.Machine.execVexpand p s
  | .vbcast p => Sys2Proof.Machine.execVbcast p s
  | .fVbcast p => Sys2Proof.Machine.execFVbcast p s
  | .vext p => Sys2Proof.Machine.execVext p s
  | .vins p => Sys2Proof.Machine.execVins p s
  | .vdupm p => Sys2Proof.Machine.execVdupm p s
  | .vsortk p => Sys2Proof.Machine.execVsortk p s
  | .vtopk p => Sys2Proof.Machine.execVtopk p s
  | .vld p => Sys2Proof.Machine.execVld p s
  | .vst p => Sys2Proof.Machine.execVst p s
  | .vlds p => Sys2Proof.Machine.execVlds p s
  | .vsts p => Sys2Proof.Machine.execVsts p s
  | .vldx p => Sys2Proof.Machine.execVldx p s
  | .vstx p => Sys2Proof.Machine.execVstx p s
  | .vldt p => Sys2Proof.Machine.execVldt p s
  | .vstt p => Sys2Proof.Machine.execVstt p s
  | .vamo p => Sys2Proof.Machine.execVamo p s
  | .vpref p => Sys2Proof.Machine.execVpref p s
  | .fVld p => Sys2Proof.Machine.execFVld p s
  | .fVst p => Sys2Proof.Machine.execFVst p s
  | .fVlds p => Sys2Proof.Machine.execFVlds p s
  | .fVsts p => Sys2Proof.Machine.execFVsts p s
  | .fVldx p => Sys2Proof.Machine.execFVldx p s
  | .fVstx p => Sys2Proof.Machine.execFVstx p s
  | .fVamo p => Sys2Proof.Machine.execFVamo p s
  | .fVpref p => Sys2Proof.Machine.execFVpref p s
  | .fexpr p => Sys2Proof.Machine.execFexpr p s
  | .fdot p => Sys2Proof.Machine.execFdot p s
  | .fred p => Sys2Proof.Machine.execFred p s
  | .fget p => Sys2Proof.Machine.execFget p s
  | .fput p => Sys2Proof.Machine.execFput p s
  | .fattn p => Sys2Proof.Machine.execFattn p s
  | .farRequestArrival n => Sys2Proof.Machine.execFarRequestArrival n s
  | .farCompletion n => Sys2Proof.Machine.execFarCompletion n s
  | .mshape p => Sys2Proof.Machine.execMshape p s
  | .mmaO p => Sys2Proof.Machine.execMmaO p s
  | .mmaF p => Sys2Proof.Machine.execMmaF p s
  | .mgrpO p => Sys2Proof.Machine.execMgrpO p s
  | .mgrpF p => Sys2Proof.Machine.execMgrpF p s
  | .mzero p => Sys2Proof.Machine.execMzero p s
  | .mld p => Sys2Proof.Machine.execMld p s
  | .mst p => Sys2Proof.Machine.execMst p s
  | .mmovBodyToVec p => Sys2Proof.Machine.execMmovBodyToVec p s
  | .mmovVecToBody p => Sys2Proof.Machine.execMmovVecToBody p s
  | .mmovStToVec p => Sys2Proof.Machine.execMmovStToVec p s
  | .mmovVecToSt p => Sys2Proof.Machine.execMmovVecToSt p s
  | .mscale p => Sys2Proof.Machine.execMscale p s
  | .msoft p => Sys2Proof.Machine.execMsoft p s
  | .mmask p => Sys2Proof.Machine.execMmask p s
  | .mmerge p => Sys2Proof.Machine.execMmerge p s
  | .mfin p => Sys2Proof.Machine.execMfin p s
  | .vproj p => Sys2Proof.Machine.execVproj p s
  | .vpmerge p => Sys2Proof.Machine.execVpmerge p s
  | .vpfin p => Sys2Proof.Machine.execVpfin p s
  | .vpgrad p => Sys2Proof.Machine.execVpgrad p s
  | .eqclaim p => Sys2Proof.Machine.execEqclaim p s
  | .tsend p => Sys2Proof.Machine.execTsend p s
  | .ttake p => Sys2Proof.Machine.execTtake p s
  | .ttakeM p => Sys2Proof.Machine.execTtakeM p s
  | .tlook p => Sys2Proof.Machine.execTlook p s
  | .tlookM p => Sys2Proof.Machine.execTlookM p s
  | .tdrop p => Sys2Proof.Machine.execTdrop p s
  | .twait p => Sys2Proof.Machine.execTwait p s
  | .tmark p => Sys2Proof.Machine.execTmark p s
  | .holdEntryRequest n => Sys2Proof.Machine.execHoldEntryRequest n s
  | .nodeCopy p => Sys2Proof.Machine.execNodeCopy p s
  | .nodeCall p => Sys2Proof.Machine.execNodeCall p s
  | .nodeEdge p => Sys2Proof.Machine.execNodeEdge p s
  | .nodeArm p => Sys2Proof.Machine.execNodeArm p s
  | .nodeArmDone p => Sys2Proof.Machine.execNodeArmDone p s
  | .nodeWait p => Sys2Proof.Machine.execNodeWait p s
  | .copyNodeStart m ix => Sys2Proof.Machine.execCopyNodeStart m ix s
  | .copyNodeFinish m ix => Sys2Proof.Machine.execCopyNodeFinish m ix s
  | .callNodeDelivery m ix => Sys2Proof.Machine.execCallNodeDelivery m ix s
  | .publish p => Sys2Proof.Machine.execPublish p s
  | .hwpub p => Sys2Proof.Machine.execHwpub p s
  | .bar p => Sys2Proof.Machine.execBar p s
  | .barDom p => Sys2Proof.Machine.execBarDom p s
  | .barDomMessage n => Sys2Proof.Machine.execBarDomMessage n s
  | .kvmap p => Sys2Proof.Machine.execKvmap p s
  | .kvapp p => Sys2Proof.Machine.execKvapp p s
  | .kvxl p => Sys2Proof.Machine.execKvxl p s
  | .kvxlE p => Sys2Proof.Machine.execKvxlE p s
  | .kvfork p => Sys2Proof.Machine.execKvfork p s
  | .kvrel p => Sys2Proof.Machine.execKvrel p s
  | .kvscore p => Sys2Proof.Machine.execKvscore p s
  | .kvtopk p => Sys2Proof.Machine.execKvtopk p s
  | .kvkeep p => Sys2Proof.Machine.execKvkeep p s
  | .kvpidx p => Sys2Proof.Machine.execKvpidx p s
  | .kvpidxIns p => Sys2Proof.Machine.execKvpidxIns p s
  | .kvRemoteRequest n => Sys2Proof.Machine.execKvRemoteRequest n s
  | .remoteRequestArrival n => Sys2Proof.Machine.execRemoteRequestArrival n s
  | .remoteStoreAck n => Sys2Proof.Machine.execRemoteStoreAck n s
  | .staleRefusal n => Sys2Proof.Machine.execStaleRefusal n s
  | .mscReadRequest loc => Sys2Proof.Machine.execMscReadRequest loc s
  | .mscWrite loc bytes readers => Sys2Proof.Machine.execMscWrite loc bytes readers s
  | .memoryAccessPerform h => Sys2Proof.Machine.execMemoryAccessPerform h s
  | .hostMemoryAccess m pa n write => Sys2Proof.Machine.execHostMemoryAccess m pa n write s
  | .hostQtailWrite m q tail => Sys2Proof.Machine.execHostQtailWrite m q tail s
  | .qcfgEnable m q v => Sys2Proof.Machine.execQcfgEnable m q v s
  | .qcfgDisable m q v => Sys2Proof.Machine.execQcfgDisable m q v s
  | .registerWrite m off v => Sys2Proof.Machine.execRegisterWrite m off v s
  | .schedulerPlace m want => Sys2Proof.Machine.execSchedulerPlace m want s
  | .headAgeExpiry m q => Sys2Proof.Machine.execHeadAgeExpiry m q s
  | .marchPacketReceive n want => Sys2Proof.Machine.execMarchPacketReceive n want s
  | .marchArrival n => Sys2Proof.Machine.execMarchArrival n s
  | .marchRelease n => Sys2Proof.Machine.execMarchRelease n s
  | .marchDisarm n => Sys2Proof.Machine.execMarchDisarm n s
  | .marchTimeout l rk => Sys2Proof.Machine.execMarchTimeout l rk s
  | .rankEndReport n => Sys2Proof.Machine.execRankEndReport n s
  | .launchCompletion l rk => Sys2Proof.Machine.execLaunchCompletion l rk s
  | .noticePost h deadline => Sys2Proof.Machine.execNoticePost h deadline s
  | .forcedPreemption h => Sys2Proof.Machine.execForcedPreemption h s
  | .launchSuspend l rk deadline => Sys2Proof.Machine.execLaunchSuspend l rk deadline s
  | .launchResume l rk cores want => Sys2Proof.Machine.execLaunchResume l rk cores want s
  | .watchdogFire h => Sys2Proof.Machine.execWatchdogFire h s
  | .deadlockCheck m => Sys2Proof.Machine.execDeadlockCheck m s
  | .errrecActResume m q => Sys2Proof.Machine.execErrrecActResume m q s
  | .errrecActAbort m q => Sys2Proof.Machine.execErrrecActAbort m q s
  | .errrecValidClear m q => Sys2Proof.Machine.execErrrecValidClear m q s
  | .domainActAbort m => Sys2Proof.Machine.execDomainActAbort m s
  | .errorRecordForward n => Sys2Proof.Machine.execErrorRecordForward n s
  | .actForward n => Sys2Proof.Machine.execActForward n s
  | .errcntClr m => Sys2Proof.Machine.execErrcntClr m s
  | .stackCountClr m st => Sys2Proof.Machine.execStackCountClr m st s
  | .xrelValidClear m => Sys2Proof.Machine.execXrelValidClear m s
  | .tapIdcode m => Sys2Proof.Machine.execTapIdcode m s
  | .tapSolstat m => Sys2Proof.Machine.execTapSolstat m s
  | .tapSolsel m v => Sys2Proof.Machine.execTapSolsel m v s
  | .tapSoldata m => Sys2Proof.Machine.execTapSoldata m s
  | .tapSolfrz m => Sys2Proof.Machine.execTapSolfrz m s
  | .tapSolrst m => Sys2Proof.Machine.execTapSolrst m s
  | .tapBypass m b => Sys2Proof.Machine.execTapBypass m b s
  | .solsticeUnlock m req => Sys2Proof.Machine.execSolsticeUnlock m req s
  | .spdmRequest m req => Sys2Proof.Machine.execSpdmRequest m req s
  | .mboebFreeze m => Sys2Proof.Machine.execMboebFreeze m s
  | .warmReset m => Sys2Proof.Machine.execWarmReset m s
  | .powerOnBoot m image signature key version => Sys2Proof.Machine.execPowerOnBoot m image signature key version s
  | .d3hotEntry m => Sys2Proof.Machine.execD3hotEntry m s
  | .d0Return m => Sys2Proof.Machine.execD0Return m s
  | .powerRemoval m => Sys2Proof.Machine.execPowerRemoval m s
  | .thermalStepDown m temp => Sys2Proof.Machine.execThermalStepDown m temp s
  | .thermalTrip m temp => Sys2Proof.Machine.execThermalTrip m temp s
  | .vcoreRemoval m => Sys2Proof.Machine.execVcoreRemoval m s
  | .powerCapWindow m point => Sys2Proof.Machine.execPowerCapWindow m point s
  | .refreshCommand m st bank found => Sys2Proof.Machine.execRefreshCommand m st bank found s
  | .rowActivationAlert m st bank => Sys2Proof.Machine.execRowActivationAlert m st bank s
  | .activationBackoffEnd m st bank => Sys2Proof.Machine.execActivationBackoffEnd m st bank s
  | .droopVbaseLow m st => Sys2Proof.Machine.execDroopVbaseLow m st s
  | .droopStopEnd m st => Sys2Proof.Machine.execDroopStopEnd m st s
  | .patrolSweep m w found => Sys2Proof.Machine.execPatrolSweep m w found s
  | .bankCountCopy m st => Sys2Proof.Machine.execBankCountCopy m st s
  | .migrationTrigger m page src frame => Sys2Proof.Machine.execMigrationTrigger m page src frame s
  | .migrationHoldTimeout h => Sys2Proof.Machine.execMigrationHoldTimeout h s
  | .pageTierMigrate m src dst size => Sys2Proof.Machine.execPageTierMigrate m src dst size s
  | .autumnRun m root tier cls atp => Sys2Proof.Machine.execAutumnRun m root tier cls atp s
  | .constBankReload l rk ka kb image => Sys2Proof.Machine.execConstBankReload l rk ka kb image s
  | .tlbInvalidate m asid va len => Sys2Proof.Machine.execTlbInvalidate m asid va len s
  | .publishableSetup m asid va len image0 image1 dom => Sys2Proof.Machine.execPublishableSetup m asid va len image0 image1 dom s
  | .frzEnable l => Sys2Proof.Machine.execFrzEnable l s
  | .cxlExtentAccept m base len off => Sys2Proof.Machine.execCxlExtentAccept m base len off s
  | .cxlExtentRelease m off => Sys2Proof.Machine.execCxlExtentRelease m off s
  | .ualinkLinkError m p => Sys2Proof.Machine.execUalinkLinkError m p s
  | .ualinkPortFailure m p => Sys2Proof.Machine.execUalinkPortFailure m p s
  | .rankLost m lost => Sys2Proof.Machine.execRankLost m lost s
  | .hostLinkDown m => Sys2Proof.Machine.execHostLinkDown m s
  | .hartResume h lanes => Sys2Proof.Machine.execHartResume h lanes s
  | .entryGrant n => Sys2Proof.Machine.execEntryGrant n s
  | .linkTrained m p => Sys2Proof.Machine.execLinkTrained m p s
  | .hostLinkUp m => Sys2Proof.Machine.execHostLinkUp m s
  | .publishabilityWithdrawal m ix => Sys2Proof.Machine.execPublishabilityWithdrawal m ix s
  | .indexEntryRemoval m root bucket slot atp => Sys2Proof.Machine.execIndexEntryRemoval m root bucket slot atp s
  | .migratableMarkClear m page => Sys2Proof.Machine.execMigratableMarkClear m page s
  | .forcedExtentWithdrawal m off => Sys2Proof.Machine.execForcedExtentWithdrawal m off s

end Sys2Proof.Machine
end

