-- ==== Sys2Proof/Machine/Overlap.lean ====
section
/-! DEFINITION. Which vector instructions go on ahead of a hart's unfinished matrix instructions: the registers that they name and the bytes
of memory that both touch (R153, R276, R277). -/

namespace Sys2Proof.Machine

/-! ### The older matrix instruction -/

/-- The near vector register that a matrix instruction writes (R289). -/
def matrixDest : Instr → List Nat
  | .mmovBodyToVec p | .mmovStToVec p => [(vd p.d).val]
  | _ => []

/-- The near vector registers that a matrix instruction reads when it executes (R289, R290). -/
def matrixSource : Instr → List Nat
  | .mmovVecToBody p | .mmovVecToSt p | .mscale p => vecsOf [p.a]
  | _ => []

/-- Whether a matrix instruction uses sr.vl, its element type or a mask when it executes (R289, R290). -/
def usesVector : Instr → Bool
  | .mmovBodyToVec _ | .mmovStToVec _ | .mmovVecToBody _ | .mmovVecToSt _ | .mscale _ => true
  | _ => false

/-- The multiply that a tile word names in a grouped multiplication whose groups hold `ns` rows (R292, R295). -/
def Grouped.tileMul (d : Grouped) (tw : Nat) (ns : List Nat) : Mul :=
  let g := bits tw 32 12
  let row := bits tw 44 20
  d.mul 0 row g (bits tw 16 16) (min 96 (ns.getD g 0 - (row - (ns.take g).sum))) true

/-- Descriptor, operand rows and arrays of VPROJ and VPGRAD (R311, R315). -/
def State.stripSpans (s : State) (p : M) (grad : Bool) : Option (List (Nat × Nat)) :=
  match s.descBytes (s.memBase p) 64 with
  | .error _ => none
  | .ok r =>
    let x := (s.src p.x).toNat
    some ((s.memBase p, s.memBase p + 63) :: (Proj.mk (wordsOf 8 8 r.1)).spans grad (x % 2 ^ 32) (x / 2 ^ 32))

/-- The bytes of memory that a matrix instruction accesses, as ranges, first byte and last; none where its descriptor cannot be read
(R277). -/
def State.matrixSpans (s : State) : Instr → Option (List (Nat × Nat))
  | .mmaO p | .mmaF p => some (s.mma p true).spans
  | .mgrpO p | .mgrpF p => match s.mgrpRead p with
    | .error _ => none
    | .ok (d, ns, _) => some ((s.memBase p, s.memBase p + 55) :: (d.table, d.table + 4 * d.g - 1) :: (d.tileMul (s.src p.x).toNat ns).spans)
  | .mld p | .mst p | .mfin p => some (s.tileSpans p)
  | .msoft p => some (s.valueSpans p)
  | .vproj p => s.stripSpans p false
  | .vpgrad p => s.stripSpans p true
  | .vpfin p => some (s.recordSpans p)
  | _ => some []

/-! ### The younger vector instruction -/

/-- The registers of an index group (R255). -/
def State.indexGroup (s : State) (x : S10) : List Nat := upto x.vidx.val (max 1 (s.iw / s.cur.cfg.sew))

/-- The near vector registers that a vector instruction names, and those of them that it writes; none for an instruction that never goes ahead
of an unfinished matrix instruction (R277, log 4). -/
def State.nearRegs (s : State) : Instr → Option (List Nat × List Nat)
  | .vadd p | .vsub p | .vmul p | .vdiv p | .vmin p | .vmax p | .viadd p | .visub p | .vimul p | .vimulh p | .vand p | .vor p | .vxor p
  | .vshl p | .vshr p | .vsra p | .vimin p | .vimax p | .vsel p | .vred p | .vredo p | .vscan p | .vperm p | .vslide p | .vbcast p | .vins p =>
    some ((vd p.d).val :: vecsOf [p.a, p.b], [(vd p.d).val])
  | .vsqrt p | .vrsqrt p | .vexp2 p | .vlog2 p | .vabs p | .vneg p | .vclass p | .viota p | .vcompress p | .vexpand p | .vdupm p =>
    some ((vd p.d).val :: vecsOf [p.a], [(vd p.d).val])
  | .vfma p | .vfms p | .vnfma p => some ((vd p.d).val :: vecsOf [p.a, p.b, p.c], [(vd p.d).val])
  | .vsortk p | .vtopk p => some ((vd p.d).val :: vecsOf [p.a], [(vd p.d).val])
  | .vcvt p =>
    let d := upto (vd p.d).val (s.ratio p.cvT)
    some (d ++ (vecsOf [p.a]).flatMap (fun r => upto r (s.ratio p.cvF)), d)
  | .vcmp p => some (vecsOf [p.a, p.b], [])
  | .vext p => some (vecsOf [p.a], [])
  | .qand _ | .qor _ | .qnot _ | .qpop _ | .qfirst _ | .vqlen _ | .vbind _ | .vbindOff _ | .vsetl _ => some ([], [])
  | .vld p | .vlds p => some ([(vd p.d).val], [(vd p.d).val])
  | .vst p | .vsts p => some ([(vd p.d).val], [])
  | .vldt p => some ([(vd p.d).val, p.x.vidx.val], [(vd p.d).val])
  | .vstt p => some ([(vd p.d).val, p.x.vidx.val], [])
  | .vldx p => some ((vd p.d).val :: s.indexGroup p.x, [(vd p.d).val])
  | .vstx p => some ((vd p.d).val :: s.indexGroup p.x, [])
  | .vamo p => some ((vd p.d).val :: (if memIndexed p then s.indexGroup p.x else []), if bit p.sf.toNat 3 then [] else [(vd p.d).val])
  | .vpref p => some (if p.x.isVec && memIndexed p then s.indexGroup p.x else [], [])
  | .fVadd _ | .fVsub _ | .fVmul _ | .fVfma _ | .fVfms _ | .fVnfma _ | .fVmin _ | .fVmax _ | .fVabs _ | .fVneg _ | .fVcvt _ | .fViadd _
  | .fVisub _ | .fVimul _ | .fVimulh _ | .fVand _ | .fVor _ | .fVxor _ | .fVshl _ | .fVshr _ | .fVsra _ | .fVimin _ | .fVimax _
  | .fVred _ | .fVredo _ | .fVbcast _ | .fexpr _ | .fVld _ | .fVst _ | .fVlds _ | .fVsts _ | .fVldx _ | .fVstx _ | .fVamo _ | .fVpref _
  | .fdot _ | .fred _ | .fattn _ => some ([], [])
  | .fget p => some ([(nearReg p).val], [(nearReg p).val])
  | .fput p => some ([(nearReg p).val], [])
  | _ => none

/-- Vector instructions that write a mask (R238, R239). -/
def writesMask : Instr → Bool
  | .vcmp _ | .qand _ | .qor _ | .qnot _ => true
  | _ => false

/-- Elements of `w` bytes at some addresses, as ranges. -/
def elemSpans (w : Nat) (addrs : List Nat) : List (Nat × Nat) := addrs.map (fun a => (a, a + w - 1))

/-- The bytes of a KB operand of the active elements: what a load fetches of their chunks (R103), or the blocks that a store writes (R104). -/
def State.kbSpans (s : State) (p : M) (els : List Nat) (load : Bool) : List (Nat × Nat) :=
  let n := kbBits p.fmt.toNat
  let e0 := (s.src p.x).toNat
  let chunk := fun (c : Nat) => s.memBase p + c * kbChunk n
  ((els.map (fun i => (e0 + i) / 512)).dedup).flatMap (fun c =>
    if load then [(chunk c, chunk c + 127 + 64 * planeCount n p.planes.toNat)]
    else (runsOf (kbOffsets n ((els.filter (fun i => (e0 + i) / 512 == c)).flatMap (fun i => upto ((e0 + i) % 512 / 16 * 16) 16)))).map
      (fun r => (chunk c + r.1, chunk c + r.1 + r.2 - 1)))

/-- The stack of an indexed far form (R133). -/
def State.homeOf (s : State) (p : M) : Nat := (s.stackAt (s.memBase p) .load 2).toOption.getD 0

/-- The bytes of memory that a vector instruction accesses, as ranges, first byte and last (R254, R261, R266, R271, R272, R304). -/
def State.vectorSpans (s : State) (i : Instr) : List (Nat × Nat) :=
  let all := upto 0 s.cur.cfg.vl.toNat
  match i with
  | .vld p => if p.kb then s.kbSpans p (s.actives p.msk) true else elemSpans (s.memWidth p) ((s.actives p.msk).map (s.unitAddr p))
  | .vst p => if p.kb then s.kbSpans p (s.actives p.msk) false else elemSpans (s.memWidth p) ((s.actives p.msk).map (s.unitAddr p))
  | .vlds p | .vsts p => elemSpans (s.memWidth p) ((s.actives p.msk).map (s.strideAddr p))
  | .vldx p | .vstx p => elemSpans (s.memWidth p) ((s.actives p.msk).map (s.indexAddr p))
  | .vldt p | .vstt p => elemSpans (s.memWidth p) ((s.actives p.msk).filterMap (s.tensorAddr p))
  | .vamo p => elemSpans (s.cur.cfg.sew / 8) ((s.actives p.msk).map (s.amoAddr p))
  | .vsortk p => elemSpans 4 ((bucketCounts p.imm.toNat ((s.actives p.msk).map (s.cur.elem p.a.vidx))).map (fun c => (s.src p.b).toNat + 4 * c.1))
  | .fVld p => if p.kb then s.kbSpans p all true else elemSpans (s.memWidth p) (all.map (s.unitAddr p))
  | .fVst p => if p.kb then s.kbSpans p all false else elemSpans (s.memWidth p) (all.map (s.unitAddr p))
  | .fVlds p | .fVsts p => elemSpans (s.memWidth p) (all.map (s.strideAddr p))
  | .fVldx p | .fVstx p => elemSpans (s.memWidth p) (all.map (s.farIndexAddr p (s.homeOf p)))
  | .fVamo p => elemSpans (s.cur.cfg.sew / 8) (all.map (s.farAmoAddr p (s.homeOf p)))
  | .fdot p => all.map (s.dotSpan p)
  | .fred p => [rowSpan p.fmt.toNat p.planes.toNat (s.memBase p) 0 (s.redN p)]
  | .fattn p => (upto 0 (attnT p) ++ upto 16 (attnT p)).map (fun j =>
      rowSpan p.fmt.toNat p.planes.toNat (s.attnRow p j).1 (s.attnRow p j).2 (attnDim p))
  | _ => []

/-! ### Overlap -/

/-- The location of a virtual address of the current hart, whether or not something holds an access there; none where its translation
stops. -/
def State.locate (s : State) (va : Nat) : Option Nat :=
  if !canonical va then none
  else match s.leafFor s.view va .load with
    | .error _ => none
    | .ok (e, level) =>
      let pa := match (s.mod? s.cur.mod).bind (fun x => x.pub? s.view.asid va) with
        | some b => b.addr (b.image s.view) va
        | none => bits e 10 40 * 4096 + va % 2 ^ (12 + 9 * level)
      (s.resolve s.view.ranks s.cur.mod pa).toOption.map Spot.loc

/-- Runs of locations, first and last, that ranges of bytes lie at, page by page; none where one of them cannot be told. -/
def State.locRuns (s : State) : List (Nat × Nat) → Option (List (Nat × Nat))
  | [] => some []
  | (lo, hi) :: rest =>
    let here := (pagesOf lo hi).map (fun a => (s.locate (a % 2 ^ 64)).map (fun l => (l, l + (min hi (a / 4096 * 4096 + 4095) - a))))
    match s.locRuns rest with
    | none => none
    | some rs => if here.contains none then none else some (here.filterMap id ++ rs)

/-- Whether two lists of runs share a byte; what cannot be told counts as shared. -/
def runsMeet (a b : Option (List (Nat × Nat))) : Bool :=
  match a, b with
  | some x, some y => x.any (fun p => y.any (fun q => decide (p.1 ≤ q.2) && decide (q.1 ≤ p.2)))
  | _, _ => true

/-- The state as an entry of the queues sees it. -/
def State.asEntry (s : State) (e : QEntry) : State := { s with cur := { s.cur with active := some e } }

/-- Where the bytes of an entry that is a matrix instruction lie. -/
def State.matrixRuns (s : State) (e : QEntry) : Option (List (Nat × Nat)) := ((s.asEntry e).matrixSpans e.instr).bind s.locRuns

/-- A vector instruction `e` waits for the unfinished matrix instruction `o` (R277): it names a vector register that `o` writes, or writes what
`o` reads (its vector register, its mask, sr.vl), or they overlap in a byte. -/
def State.follows (s : State) (e o : QEntry) (named written : List Nat) : Bool :=
  named.any (matrixDest o.instr).contains || written.any (matrixSource o.instr).contains ||
    (usesVector o.instr && (writesMask e.instr || (match e.instr with
      | .vsetl _ => true
      | _ => false))) ||
    (let mine := (s.asEntry e).vectorSpans e.instr
     !mine.isEmpty && runsMeet (s.locRuns mine) (s.matrixRuns o))

/-- Whether the vector queue's head, an instruction that is no matrix instruction, is free of every unfinished matrix instruction of the hart
(R277). A VSETL whose registers read fresh rewrites them all (R49). -/
def State.goesAhead (s : State) (e : QEntry) : Bool :=
  match s.nearRegs e.instr with
  | none => false
  | some r => !s.cur.cfg.fresh && (s.cur.vq.take s.cur.moved).all (fun o => !s.follows e o r.1 r.2)

/-- The bytes of the descriptor and the table that a matrix instruction reads as it leaves the vector queue (R161). -/
def State.descSpans (s : State) : Instr → List (Nat × Nat)
  | .mgrpO p | .mgrpF p =>
    (s.memBase p, s.memBase p + 55) :: (match s.mgrpRead p with
      | .error _ => []
      | .ok (d, _, _) => [(d.table, d.table + 4 * d.g - 1)])
  | .vproj p | .vpgrad p => [(s.memBase p, s.memBase p + 63)]
  | _ => []

/-- A matrix instruction leaves the vector queue unless it would then read a descriptor or a table in bytes of an unfinished matrix instruction
(R161, R277). -/
def State.mayLeave (s : State) (e : QEntry) : Bool :=
  let mine := (s.asEntry e).descSpans e.instr
  mine.isEmpty || (s.cur.vq.take s.cur.moved).all (fun o => !runsMeet (s.locRuns mine) (s.matrixRuns o))

/-- The descriptor and the table that a matrix instruction reads as it leaves the vector queue, each by its address; what cannot be read then
is read, and stops it, where it executes (R161, R295). -/
def State.descriptors (s : State) : Instr → List (Nat × List Byte) × List Nat
  | .mgrpO p | .mgrpF p =>
    let va := s.memBase p
    if va % 64 ≠ 0 then ([], [])
    else match s.fetchBytes none 2 va 56 with
      | .error _ => ([], [])
      | .ok r =>
        let d : Grouped := ⟨wordsOf 8 7 r.1⟩
        if !d.ok || decide (d.table % 4 ≠ 0) then ([(va, r.1)], r.2)
        else match s.fetchBytes none 2 d.table (4 * d.g) with
          | .error _ => ([(va, r.1)], r.2)
          | .ok t => (if d.table = va then [(va, r.1)] else [(va, r.1), (d.table, t.1)], r.2 ++ t.2)
  | .vproj p | .vpgrad p =>
    let va := s.memBase p
    if va % 64 ≠ 0 then ([], [])
    else match s.fetchBytes none 2 va 64 with
      | .error _ => ([], [])
      | .ok r => ([(va, r.1)], r.2)
  | _ => ([], [])

/-- An entry with its descriptors as they read now; their reads count (R141, R161). -/
def State.describe (s : State) (e : QEntry) : State × QEntry :=
  let r := (s.asEntry e).descriptors e.instr
  let t := countReads (s.asEntry e) r.2
  ({ t with cur := { t.cur with active := s.cur.active } }, { e with desc := r.1 })

end Sys2Proof.Machine
end

