-- ==== Sys2Proof/Machine/Issue.lean ====
section
/-! DEFINITION. A hart's turn (the head of its vector queue, else the instruction at its program counter), the scalar stream's own turn, in
which it issues ahead of that queue, and the vector queue's, in which it goes on behind the matrix queue (R11, R152, R224, R276, R277). -/

namespace Sys2Proof.Machine

/-- Whether the current hart may act: it is Running or Waiting and its module runs (R34, R377, R411). -/
def State.canRun (s : State) : Bool :=
  (decide (s.cur.phase = .running) || decide (s.cur.phase = .waiting)) && s.modRuns s.cur.mod

/-- The state in which the instruction at the program counter executes: its head and its next head are known, and its line has been fetched
(R136, R138). -/
def State.issued (s : State) (head : Half) (next : Word) : State :=
  { (s.fetchFill s.cur.pc.toNat).markFirst with cur := { s.cur with head := head, npc := next } }

/-! ### The matrix engine -/

/-- Whether a hart on a core has an entry for the matrix engine: in its matrix queue, which no handler holds frozen (R276, R395). -/
def Hart.engineReady (h : Hart) (m core : Nat) : Bool :=
  h.seated && h.mod == m && h.seat.core == core && decide (0 < h.moved) && decide (h.phase = .running) && !h.trap.fpend

/-- The slot that the engine of the current hart's core served last; 7 before the first (R276). -/
def State.served (s : State) : Nat := ((s.mod? s.cur.mod).map (fun x => Tbl.getD x.engine s.cur.seat.core 7)).getD 7

/-- Whether the engine has begun the entry at the head of a hart's queues. -/
def Hart.headStarted (h : Hart) : Bool := (h.vq.head?.map (·.started)).getD false

/-- The engine of the current hart's core takes the current hart's instruction next (R276): it has begun it, or it is in the middle of no
other hart's and none of the others with an entry comes between the slot just served and this hart's, in ascending order with a wrap from 7
to 0. -/
def State.engineTurn (s : State) : Bool :=
  let after := fun (slot : Nat) => (slot + 7 - s.served) % 8
  let others := s.harts.filter (fun h => h.engineReady s.cur.mod s.cur.seat.core)
  (decide (s.cur.seat.slot = s.served) && s.cur.headStarted) ||
    (!others.any (fun h => decide (h.seat.slot = s.served) && h.headStarted) &&
      others.all (fun h => decide (after s.cur.seat.slot ≤ after h.seat.slot)))

/-- The engine of the current hart's core serves its slot (R276). -/
def State.serveEngine (s : State) : State :=
  s.onMod s.cur.mod (fun x => { x with engine := Tbl.put s.cur.seat.core s.cur.seat.slot x.engine })

/-- Entry `n` of the queues reads its descriptors (R161, R295). -/
def State.describeAt (s : State) (n : Nat) : State :=
  match s.cur.vq[n]? with
  | none => s
  | some e =>
    let r := s.describe e
    { r.1 with cur := { r.1.cur with vq := r.1.cur.vq.set n r.2 } }

/-- The head of the vector queue moves into the matrix queue and reads its descriptors as it does (R161, R276, R295). -/
def State.moveOne (s : State) : State :=
  let t := s.describeAt s.cur.moved
  { t with cur := { t.cur with moved := t.cur.moved + 1 } }

/-- The engine begins the entry at the head of the queues: one that has trapped since it left the vector queue reads its descriptors anew. -/
def State.beginHead (s : State) : State :=
  let t := if ((s.cur.vq.head?.map (fun e => e.trapped && !e.started && e.desc.isEmpty)).getD false) then s.describeAt 0 else s
  { t.serveEngine with cur := { t.cur with vq := match t.cur.vq with
    | e :: rest => { e with started := true } :: rest
    | [] => [] } }

/-! ### Turns -/

/-- The entry at the head of the queues executes. -/
def runHead (s : State) : Host.Outcome State Fault Refusal :=
  match s.cur.vq with
  | [] => .next s
  | e :: _ => exec e.instr { s with cur := { s.cur with active := some e } }

/-- Execute the entry at the head of the current hart's queues, a matrix instruction when the engine comes to the hart (R276). A poisoned state
register that it reads without naming it stops it with 0x0D.3 (R456, log 88). -/
def queueTurn (e : QEntry) (s : State) : Host.Outcome State Fault Refusal :=
  if s.poisonedFor e.instr then retire (precise 0x0D 3 0 s)
  else if isMatrix e.instr then
    let t := if s.cur.moved = 0 then s.moveOne else s
    if t.engineTurn then runHead t.beginHead else .next t
  else runHead s

/-- Execute an instruction at the program counter. A matrix instruction goes through the hart's queues (R276). -/
def issueOne (i : Instr) (s : State) : Host.Outcome State Fault Refusal :=
  if isMatrix i && !s.cur.trap.fpend then
    queueTurn (s.newEntry i) { s with cur := { s.cur with vq := [s.newEntry i], moved := 0, pc := s.cur.npc } }
  else exec i s

/-- Execute the instruction at the program counter. -/
def fetchTurn (s : State) : Host.Outcome State Fault Refusal :=
  match fetch s with
  | .run i head next => issueOne i (s.issued head next)
  | .stop r => retire r

/-- The current hart's turn: the entry at the head of its queues, else the instruction at its program counter. While
FPEND holds the queues frozen, the handler's instructions run (R395, R396). -/
def turn (s : State) : Host.Outcome State Fault Refusal :=
  if s.canRun then
    match s.cur.vq with
    | e :: _ => if s.cur.trap.fpend then fetchTurn s else queueTurn e s
    | [] => fetchTurn s
  else .next s

/-- A turn in which the hart's stores are posted even on its own module, to perform later (R152, R154). -/
def laterTurn (s : State) : Host.Outcome State Fault Refusal :=
  match turn { s with cur := { s.cur with later := true } } with
  | .next t => .next { t with cur := { t.cur with later := false } }
  | r => r

/-! ### The vector queue behind the matrix queue -/

/-- The next `n` entries of the queues, executed in order as things stand, trap nowhere: each completes, or something holds it (R389). -/
def State.noneTraps : Nat → State → Bool
  | 0, _ => true
  | n + 1, s => match s.cur.vq with
    | [] => true
    | e :: rest => if s.poisonedFor e.instr then false
      else match runHead s with
      | .next t =>
        if t.cur.vq = rest then decide (t.cur.trap = s.cur.trap) && decide (t.cur.phase = .running) && State.noneTraps n t
        else t.cur.heldFrom.isSome && decide (t.cur.trap = s.cur.trap) && decide (t.cur.phase = .running)
      | _ => false

/-- The entry behind `n` others stands first, none of its elements performed. -/
def State.bringForward (s : State) (n : Nat) : State :=
  { s with cur := { s.cur with
      vq := (s.cur.vq.drop n).take 1 ++ s.cur.vq.take n ++ s.cur.vq.drop (n + 1)
      moved := s.cur.moved + 1
      unf := Unfinished.none
      send := .none
      got := none } }

/-- What follows when the vector queue's head executes before the unfinished matrix instructions in front of it (R277): it completes, with the
grant as it was, and they stand as before; none where it does not complete so. -/
def State.overtakes (s : State) : Option State :=
  let u := s.bringForward s.cur.moved
  match runHead u with
  | .next t =>
    if t.cur.vq = u.cur.vq.tail ∧ t.cur.trap = s.cur.trap ∧ t.cur.phase = .running ∧ t.cur.seat = s.cur.seat then
      some { t with cur := { t.cur with
        unf := s.cur.unf, send := s.cur.send, got := s.cur.got, atBar := s.cur.atBar, heldFrom := s.cur.heldFrom } }
    else none
  | _ => none

/-- The vector queue's own turn: a matrix instruction at its head moves into the matrix queue of 4 entries; a vector instruction that neither
overlaps an unfinished matrix instruction nor names a vector register of one executes, unless one of those would trap, since a younger
instruction has then not started (R161, R276, R277, R389). Everything else waits for them (R159, R162, R164, R165, R225, R226, R230, R231;
log 4). -/
def vectorTurn (s : State) : Host.Outcome State Fault Refusal :=
  if !s.canRun || s.cur.trap.fpend || decide (s.cur.phase ≠ .running) then .next s
  else match s.cur.vq[s.cur.moved]? with
    | none => .next s
    | some e =>
      if isMatrix e.instr then if decide (s.cur.moved < 4) && s.mayLeave e then .next s.moveOne else .next s
      else if s.cur.moved = 0 then queueTurn e s
      else if !s.poisonedFor e.instr && s.goesAhead e && s.noneTraps s.cur.moved then .next (s.overtakes.getD s)
      else .next s

/-! ### The scalar stream ahead of the queues -/

/-- Scalar-stream instructions that need nothing of the vector queue but the registers that they name. -/
def runsAhead : Instr → Bool
  | .nop _ | .add _ | .sub _ | .mul _ | .mulh _ | .mulhsu _ | .div _ | .divu _ | .rem _ | .remu _ | .and _ | .or _ | .xor _
  | .andn _ | .sll _ | .srl _ | .sra _ | .rol _ | .ror _ | .slt _ | .sltu _ | .min _ | .max _ | .minu _ | .maxu _ | .clz _
  | .ctz _ | .popc _ | .sext _ | .zext _ | .liReg _ | .liLit32 _ | .liHn _ | .lea _ | .leaDisp _ | .sel _ | .bfx _ | .bfi _
  | .fadd _ | .fsub _ | .fmul _ | .fdiv _ | .fsqrt _ | .fmadd _ | .fmin _ | .fmax _ | .fcmp _ | .fcvt _ | .fclass _
  | .bCc _ | .jShort _ | .jLong _ | .jalShort _ | .jalLong _ | .jr _ | .ret _ | .loop _ | .ld _ | .st _ | .pref _ | .amo _
  | .lr _ | .sc _ | .wfev _ | .mshape _ | .eqclaim _ => true
  -- SRR interlocks on the registers that older queue entries write (R78).
  | .srr p => !decide (p.imm.toNat % 4096 < 8 ∨ p.imm.toNat % 4096 = 0x00B)
  | .srw p => decide (0x010 ≤ p.imm.toNat % 4096)
  -- TYPE bits [7:4] order vector-queue accesses before scalar ones (R154).
  | .fenceSv p => decide (p.a.val.toNat < 16)
  | _ => false

/-- Scalar-stream instructions that stand until the vector queue has drained: those that save, order or end the whole hart. -/
def standsBehind : Instr → Bool
  | .srr _ | .srw _ | .fenceSv _ | .fenceStk _ | .rel _ | .acq _ | .trap _ | .eret _ | .pause _ | .yield _ | .vsave _
  | .vrstr _ | .frz _ => true
  | _ => false

/-- The scalar register that an instruction's destination field would name. -/
def bodyD : Body → List Nat
  | .r1 p => [p.d.toNat % 32]
  | .q p => [p.d.toNat % 32]
  | .r2 p => [p.d.toNat % 32]
  | .l p => [p.d.toNat % 32]
  | .r3 p => [p.d.toNat % 32]
  | .m p => [p.d.toNat % 32]
  | .j16 _ | .j32 _ => [31]
  | _ => []

/-- Scalar registers that an instruction may read or write, g0 apart. -/
def touchesG (i : Instr) : List Nat :=
  ((i.body.map (fun x => bodyG x.2.2 ++ bodyD x.2.2)).getD [] ++ extraG i).filter (· ≠ 0)

/-- The scalar register that a vector-queue instruction writes when it executes (R224, R330, R346). -/
def queueG (i : Instr) : List Nat :=
  match i with
  | .vcfg _ | .vsetl _ | .vqlen _ | .vfill _ | .vext _ | .qpop _ | .qfirst _ | .nodeCopy _ | .nodeCall _ | .nodeEdge _
  | .kvmap _ | .kvapp _ | .kvxl _ | .kvxlE _ | .kvfork _ | .kvrel _ | .kvscore _ | .kvtopk _ | .kvkeep _ | .kvpidx _
  | .kvpidxIns _ => ((i.body.map (fun x => bodyD x.2.2)).getD []).filter (· ≠ 0)
  | _ => []

/-- Whether an instruction names a scalar register that an entry of the queue has still to write (R224). -/
def State.interlocked (s : State) (i : Instr) : Bool :=
  (touchesG i).any (fun r => s.cur.vq.any (fun e => (queueG e.instr).contains r))

/-- Queue instructions that behave as ACQ when they return: no later access performs before them (R158, R162, R164, R165). -/
def acquires : Instr → Bool
  | .ttake _ | .ttakeM _ | .tlook _ | .tlookM _ | .twait _ | .bar _ | .barDom _ | .nodeWait _ => true
  | _ => false

/-- Queue instructions that behave as REL: no later store performs before them (R158, R164, R165), or that wait for every
earlier write of the hart (R51, R163, R334). -/
def releases : Instr → Bool
  | .tsend _ | .tmark _ | .bar _ | .barDom _ | .hwpub _ | .publish _ | .nodeArmDone _ => true
  | _ => false

/-- Whether a VSETL of the queue may find itself bound, by a VBIND or a VFILL before it too, so that its cell read comes before every later access
of the hart (R51, R229, R231). -/
def State.bindsAhead (s : State) (i : Instr) : Bool :=
  (match i with
    | .vsetl _ => true
    | _ => false) && (s.cur.stream.bound || s.cur.vq.any (fun e => match e.instr with
    | .vbind _ | .vfill _ => true
    | _ => false))

/-- Whether a scalar access must stand behind an entry of the queue that acquires or releases (R51, R158). -/
def State.ordered (s : State) : Instr → Bool
  | .ld _ | .lr _ | .pref _ => s.cur.vq.any (fun e => acquires e.instr || s.bindsAhead e.instr)
  | .st _ | .sc _ | .amo _ | .eqclaim _ => s.cur.vq.any (fun e => acquires e.instr || releases e.instr || s.bindsAhead e.instr)
  | _ => false

/-- A scalar instruction that completed ahead of the queue: what the queue's head waits for stands. -/
def keepsQueue (s t : State) : Bool :=
  decide (t.cur.id = s.cur.id) && decide (t.cur.waitOn = none) && decide (t.cur.heldFrom = none) &&
    decide (t.cur.trap.hm = s.cur.trap.hm) && decide (t.cur.phase = .running) && decide (t.cur.vq = s.cur.vq)

/-- Execute a scalar instruction ahead of the queue. One that would trap, wait or end the hart stands until the queue has
drained (R205, R389). -/
def aheadTurn (i : Instr) (s : State) (t : State) : Host.Outcome State Fault Refusal :=
  match exec i { t with cur := { t.cur with phase := .running, waitOn := none, heldFrom := none } } with
  | .next u => if keepsQueue s u then
      .next { u with cur := { u.cur with
        phase := s.cur.phase, waitOn := s.cur.waitOn, waitFrom := s.cur.waitFrom, heldFrom := s.cur.heldFrom } }
    else .next s
  | r => r

/-- The scalar stream's own turn: it issues its next instruction whether or not the vector queue has drained. An instruction
bound for the queue enters it, which holds 32 entries beside those of the matrix queue, with its sources as read now (R11, R66); a scalar instruction
executes. An interlock, a full queue or an instruction that stands behind the queue leaves everything as it is. -/
def issueTurn (s : State) : Host.Outcome State Fault Refusal :=
  if !s.canRun then .next s
  else if s.cur.trap.fpend then turn s
  else match fetch s with
    | .stop r => if s.cur.vq.isEmpty then retire r else .next s
    | .run i head next =>
      let t := s.issued head next
      if runsAhead i || standsBehind i then
        if s.cur.vq.isEmpty then exec i t
        else if standsBehind i && !runsAhead i || s.interlocked i || s.ordered i then .next s
        else aheadTurn i s t
      else if s.interlocked i || decide (32 + s.cur.moved ≤ s.cur.vq.length) then .next s
      else .next { t with cur := { t.cur with vq := t.cur.vq ++ [t.newEntry i], pc := next } }

end Sys2Proof.Machine
end

