-- ==== Sys2Proof/Machine/Step.lean ====
section
/-! DEFINITION. One step of the machine: the next turn of the agenda: a turn of a hart or of one of its streams, a device event or an act
of the memory system. -/

namespace Sys2Proof.Machine

/-- A step passes: time moves on, every cache stands within its ways, and the time of unanswered requests is noted (R138, R475). -/
def State.ticked (s : State) : State := ({ s with tick := s.tick + 1 } : State).trim.noteAsked

/-- One step: the agenda's next turn, or the current hart's. -/
def step (s : State) : Host.Outcome State Fault Refusal :=
  match s.agenda with
  | .event i :: rest => if i.isEvent then exec i { s.ticked with agenda := rest } else .next { s.ticked with agenda := rest }
  | .hart h :: rest => turn ({ s.ticked with agenda := rest }.focus h)
  | .issue h :: rest => issueTurn ({ s.ticked with agenda := rest }.focus h)
  | .later h :: rest => laterTurn ({ s.ticked with agenda := rest }.focus h)
  | .vector h :: rest => vectorTurn ({ s.ticked with agenda := rest }.focus h)
  | .act a :: rest => .next (runAct a { s.ticked with agenda := rest })
  | [] => turn s.ticked

/-- The machine with one instruction stored where the next step fetches: a line from outside whose one head and tail are
the table word's (log 9, log 10). -/
def State.withFetchWord (s : State) (nbits w : Nat) : State :=
  placeLine s (lineOf (BitVec.ofNat 16 (w / 2 ^ (nbits - 16))) (w % 2 ^ (nbits - 16)))

end Sys2Proof.Machine
end

