-- ==== Sys2Proof/Safety.lean ====
section
/-! DEFINITION. The terms in which claims speak of a run: what it is for an instruction to complete, what stands in its way,
what it leaves alone, and the form that memory keeps. -/

namespace Sys2Proof.Machine

/-- A scalar-stream instruction has completed with the effect `s`: the program counter stands at the next head and nothing
is waited for. -/
def State.completed (s : State) : State := { s with cur := { (s.cur.passes false s.cur.pc).progress s.tick with pc := s.cur.npc } }

/-- A scalar-stream instruction stands at an interlock that is no wait (R59): the hart goes on, and the constant bank that it read is kept
(R432). -/
def State.stands (s : State) : State := { s.keepBank with cur := s.keepBank.cur.goesOn }

/-- A scalar-stream instruction is held: what holds it and its address, since when (R442, R475). -/
def State.heldBy (s : State) (k : Holder) (va : Word) : State := { s.keepBank with cur := s.keepBank.cur.hold k va false s.tick }

/-- A vector-queue instruction has completed with the effect `s`: issued in order, it leaves the program counter at the next
head; executed from the queue, it leaves the queue. -/
def State.completedV (s : State) : State := { s.finishV with cur := s.finishV.cur.progress s.tick }

/-- Nothing keeps a vector-queue instruction from executing: issued in order, no unfinished instruction freezes the queue
(R396); taken from the queue, it is not the replay of one that trapped (R402). -/
def State.executes (s : State) : Bool :=
  match s.cur.active with
  | none => !s.cur.trap.fpend
  | some e => !e.trapped

/-- No storage word of a register array is poisoned (R454). -/
def State.clean (s : State) : Bool := s.poison.isEmpty

/-- None of these exception conditions holds (R416). -/
def noCond (conds : List (Bool × Nat × Nat)) : Prop := ∀ c ∈ conds, c.1 = false

/-! ### What stays as it is -/

/-- What an observer of the location's own module reads there: the byte at the near point (R148). -/
def State.byteAt (s : State) (a : Nat) : Byte := nearByte s a

/-- Every byte of memory reads as before, at the near point, at the far point and in memory itself (R148). -/
def sameMemory (s t : State) : Prop :=
  ∀ a, t.byteAt a = s.byteAt a ∧ farByte t a = farByte s a ∧ dramByte t a = dramByte s a

/-- Everything but the acting hart and memory: the other harts, the launches, the modules, the tiles, the far banks and what
is in flight. -/
def sameOthers (s t : State) : Prop :=
  t.harts = s.harts ∧ t.launches = s.launches ∧ t.mods = s.mods ∧ t.tiles = s.tiles ∧ t.banks = s.banks ∧ t.fabric = s.fabric

/-- The acting hart's general registers. -/
def sameG (s t : State) : Prop := ∀ r, t.cur.greg r = s.cur.greg r
/-- The acting hart's general registers but for one. -/
def sameGBut (d : Fin 32) (s t : State) : Prop := ∀ r, r ≠ d → t.cur.greg r = s.cur.greg r
/-- The acting hart's near vector registers and masks. -/
def sameVec (s t : State) : Prop := t.cur.vec = s.cur.vec ∧ t.cur.mask = s.cur.mask
/-- The acting hart's special registers, accumulators and exception registers: all but its program counter, its general,
vector and mask registers and its sticky flags. -/
def sameSpecial (s t : State) : Prop :=
  t.cur.accs = s.cur.accs ∧ t.cur.cfg = s.cur.cfg ∧ t.cur.stream = s.cur.stream ∧ t.cur.notice = s.cur.notice ∧
  t.cur.atp = s.cur.atp ∧ t.cur.trap = s.cur.trap ∧ t.cur.resv = s.cur.resv ∧ t.cur.event = s.cur.event ∧ t.cur.seat = s.cur.seat
/-- The sticky flags. -/
def sameFlags (s t : State) : Prop := t.cur.aflags = s.cur.aflags

/-- A scalar instruction that writes at most `d` and does not touch flags, special registers, memory or anything else. -/
def onlyWrites (d : Fin 32) (s t : State) : Prop :=
  sameGBut d s t ∧ sameVec s t ∧ sameSpecial s t ∧ sameFlags s t ∧ sameMemory s t ∧ sameOthers s t

/-! ### Results -/

/-- The state in which a transfer of control to `a` leaves the hart, before it completes. -/
def State.headed (s : State) (a : Word) : State := { s with cur := { s.cur with npc := a } }

/-- A result at 64 bits, or at 32 bits sign-extended (R192). -/
def atWidth (w : Bool) (f : (n : Nat) → BitVec n → BitVec n → BitVec n) (a b : Word) : Word :=
  if w then (f 32 (a.setWidth 32) (b.setWidth 32)).signExtend 64 else f 64 a b

/-- The near vector instruction `d` wrote exactly the elements in `P`, each with the low SEW bits of its value (R70). -/
def wroteElems (s t : State) (d : BitVec 6) (P : Nat → Prop) (f : Nat → Nat) : Prop :=
  (∀ i, P i → t.cur.elem (vd d) i = f i % 2 ^ s.cur.cfg.sew) ∧
  (∀ i, ¬ P i → t.cur.elem (vd d) i = s.cur.elem (vd d) i) ∧
  ∀ r, r ≠ vd d → t.cur.vec[r] = s.cur.vec[r]

/-- The mask instruction wrote exactly the bits in `P` of the mask that `d` names. -/
def wroteMask (s t : State) (d : BitVec 6) (P : Nat → Prop) (f : Nat → Bool) : Prop :=
  (∀ i, P i → t.cur.maskBit (qd d) i = f i) ∧ (∀ i, ¬ P i → t.cur.maskBit (qd d) i = s.cur.maskBit (qd d) i) ∧
  ∀ q, q ≠ qd d → t.cur.mask[q] = s.cur.mask[q]

/-- A flag is set afterwards exactly when it was set before or some element in `P` raised it (R87). -/
def raisedBy (s t : State) (P : Nat → Prop) (fl : Nat → Flags) : Prop :=
  ∀ k, t.cur.aflags.getLsbD k = true ↔ s.cur.aflags.getLsbD k = true ∨ ∃ i, P i ∧ (fl i).getLsbD k = true

/-- Element `i` is performed: active, and not done before an earlier stop (R222, R402). -/
def State.performs (s : State) (m : Mk) (i : Nat) : Prop := s.activeAt m i = true ∧ s.cur.unf.estart ≤ i

/-- A vector-queue instruction is over: the program counter has moved on or the entry has left the queue, and nothing of it
is recorded as unfinished (R82, R224). -/
def finishes (s t : State) : Prop :=
  (match s.cur.active with
    | none => t.cur.pc = s.cur.npc ∧ t.cur.vq = s.cur.vq
    | some _ => t.cur.pc = s.cur.pc ∧ t.cur.vq = s.cur.vq.tail) ∧
  t.cur.active = none ∧ t.cur.unf = Unfinished.none ∧ t.cur.waitOn = none

/-- A near vector instruction that wrote vector or mask registers left everything else of the machine alone, the flags apart. -/
def vecFrame (s t : State) : Prop := sameG s t ∧ sameSpecial s t ∧ sameMemory s t ∧ sameOthers s t ∧ finishes s t

/-- A near vector instruction can execute: its entry is not frozen, no register word is poisoned and the hart is configured
(R223, R396, R422, R454). -/
def State.vecReady (s : State) : Prop := s.executes = true ∧ s.clean = true ∧ s.cur.configured = true

/-! ### The form of memory -/

/-- Memory in its canonical form: DRAM lists rising addresses and no zero byte (log 1); the near copies and the lines of the
memory-side caches rise; every such line holds 128 bytes and lies in HBM, which alone has such a cache (R140). -/
def State.memOk (s : State) : Prop :=
  Memory.wf s.dram = true ∧ Tbl.rising s.near = true ∧ Tbl.rising s.msc = true ∧
    ∀ c ∈ s.msc, c.2.data.length = 128 ∧ locHbm (128 * c.1) = true

end Sys2Proof.Machine
end

