-- ==== Sys2Proof/Certificates/Slice0/Obligations.lean ====
section
/-! DEFINITION. The statements for the provers: what the spec's numbered rules say of each instruction and of the machine. -/

open Sys2Proof Sys2Proof.Machine

/-! ### Scalar integer instructions -/

namespace Sys2Proof.Machine

/-- An instruction of R192 always completes, and writes gd its result at its width. -/
def WritesInt (c : R2 → Instr) (f : (n : Nat) → BitVec n → BitVec n → BitVec n) : Prop :=
  ∀ (p : R2) (s : State), exec (c p) s =
    .next (s.setG (gd p.d) (atWidth (p.sf.getLsbD 0) f (s.src p.a p.lit) (s.src p.b p.lit))).completed

/-- An instruction that completes with one general register written. -/
def SetsG (i : Instr) (s : State) (d : BitVec 6) (v : Word) : Prop := exec i s = .next (s.setG (gd d) v).completed

/-- An instruction of one shape that, whenever it answers a next state, writes at most its D6 register and no flag. -/
def OnlyD (c : R2 → Instr) : Prop := ∀ p s t, exec (c p) s = .next t → onlyWrites (gd p.d) s t

/-- The bits of an n-bit word that are 1. -/
def onesOf {n : Nat} (x : BitVec n) : Nat := (List.range n).countP (fun i => x.getLsbD i)

/-- `k` is the number of leading zeros of `x`. -/
def IsClz {n : Nat} (x : BitVec n) (k : Nat) : Prop :=
  k ≤ n ∧ (∀ i, i < k → x.getLsbD (n - 1 - i) = false) ∧ (k < n → x.getLsbD (n - 1 - k) = true)
/-- `k` is the number of trailing zeros of `x`. -/
def IsCtz {n : Nat} (x : BitVec n) (k : Nat) : Prop :=
  k ≤ n ∧ (∀ i, i < k → x.getLsbD i = false) ∧ (k < n → x.getLsbD k = true)

end Sys2Proof.Machine

/-- R192, R193: each of the 24 two-source integer instructions completes in every state and writes gd its result at 64 bits, or
at 32 bits sign-extended under W; division by zero and the overflowing division as R193 gives them. -/
def Sys2Proof.Machine.IntegerTwoSourceResults : Prop :=
  WritesInt .add (fun _ x y => x + y) ∧ WritesInt .sub (fun _ x y => x - y) ∧ WritesInt .mul (fun _ x y => x * y) ∧
  WritesInt .mulh (fun n x y => BitVec.ofInt n (x.toInt * y.toInt / 2 ^ n)) ∧
  WritesInt .mulhsu (fun n x y => BitVec.ofInt n (x.toInt * y.toNat / 2 ^ n)) ∧
  WritesInt .div (fun _ x y => if y = 0 then -1 else x.sdiv y) ∧
  WritesInt .divu (fun _ x y => if y = 0 then -1 else x.udiv y) ∧
  WritesInt .rem (fun _ x y => if y = 0 then x else x.srem y) ∧
  WritesInt .remu (fun _ x y => if y = 0 then x else x.umod y) ∧
  WritesInt .and (fun _ x y => x &&& y) ∧ WritesInt .or (fun _ x y => x ||| y) ∧ WritesInt .xor (fun _ x y => x ^^^ y) ∧
  WritesInt .andn (fun _ x y => x &&& ~~~y) ∧
  WritesInt .sll (fun n x y => x <<< (y.toNat % n)) ∧ WritesInt .srl (fun n x y => x >>> (y.toNat % n)) ∧
  WritesInt .sra (fun n x y => x.sshiftRight (y.toNat % n)) ∧
  WritesInt .rol (fun n x y => x.rotateLeft (y.toNat % n)) ∧ WritesInt .ror (fun n x y => x.rotateRight (y.toNat % n)) ∧
  WritesInt .slt (fun _ x y => if x.slt y then 1 else 0) ∧ WritesInt .sltu (fun _ x y => if x.ult y then 1 else 0) ∧
  WritesInt .min (fun _ x y => if x.sle y then x else y) ∧ WritesInt .max (fun _ x y => if x.sle y then y else x) ∧
  WritesInt .minu (fun _ x y => if x.ule y then x else y) ∧ WritesInt .maxu (fun _ x y => if x.ule y then y else x)

/-- R194: CLZ, CTZ and POPC complete and write gd the count of R194 over the 64 bits of a, or over its low 32 under W; SEXT and
ZEXT (SF[1:0] 0, 1, 2) extend its low 8, 16 or 32 bits. -/
def Sys2Proof.Machine.IntegerOneSourceResults : Prop :=
  (∀ (p : R1) (s : State), p.sf.getLsbD 0 = false →
    (∃ k, IsClz (s.src p.a) k ∧ SetsG (.clz p) s p.d (BitVec.ofNat 64 k)) ∧
    (∃ k, IsCtz (s.src p.a) k ∧ SetsG (.ctz p) s p.d (BitVec.ofNat 64 k)) ∧
    SetsG (.popc p) s p.d (BitVec.ofNat 64 (onesOf (s.src p.a)))) ∧
  (∀ (p : R1) (s : State), p.sf.getLsbD 0 = true →
    (∃ k, IsClz ((s.src p.a).setWidth 32) k ∧ SetsG (.clz p) s p.d (BitVec.ofNat 64 k)) ∧
    (∃ k, IsCtz ((s.src p.a).setWidth 32) k ∧ SetsG (.ctz p) s p.d (BitVec.ofNat 64 k)) ∧
    SetsG (.popc p) s p.d (BitVec.ofNat 64 (onesOf ((s.src p.a).setWidth 32)))) ∧
  (∀ (p : R1) (s : State), p.sf = 0 →
    SetsG (.sext p) s p.d (((s.src p.a).setWidth 8).signExtend 64) ∧ SetsG (.zext p) s p.d (((s.src p.a).setWidth 8).setWidth 64)) ∧
  (∀ (p : R1) (s : State), p.sf = 1 →
    SetsG (.sext p) s p.d (((s.src p.a).setWidth 16).signExtend 64) ∧
    SetsG (.zext p) s p.d (((s.src p.a).setWidth 16).setWidth 64)) ∧
  ∀ (p : R1) (s : State), p.sf = 2 →
    SetsG (.sext p) s p.d (((s.src p.a).setWidth 32).signExtend 64) ∧ SetsG (.zext p) s p.d (((s.src p.a).setWidth 32).setWidth 64)

/-- R192 to R194: the two-source and the one-source integer instructions complete and write their results. -/
def Sys2Proof.Machine.IntegerResults : Prop :=
  Sys2Proof.Machine.IntegerTwoSourceResults ∧ Sys2Proof.Machine.IntegerOneSourceResults

/-- R195, R197: LI in its three forms, SEL, BFX and BFI complete and write gd what the rules give, bit by bit for LI.HN and BFI. -/
def Sys2Proof.Machine.MoveAndFieldResults : Prop :=
  (∀ (p : R1) (s : State), SetsG (.liReg p) s p.d (s.src p.a)) ∧
  (∀ (p : R2) (s : State) (v : BitVec 32), p.a.tag = 3 → p.lit = some v → SetsG (.liLit32 p) s p.d (v.signExtend 64)) ∧
  (∀ (p : L) (s : State), ∃ v : Word, SetsG (.liHn p) s p.d v ∧ ∀ k, k < 64 → v.getLsbD k =
    if 16 * (p.sf.toNat % 4) ≤ k ∧ k < 16 * (p.sf.toNat % 4) + 16 then p.imm.getLsbD (k - 16 * (p.sf.toNat % 4))
    else (s.src p.a).getLsbD k) ∧
  (∀ (p : R3) (s : State), SetsG (.sel p) s p.d (if s.src p.c = 0 then s.src p.b else s.src p.a)) ∧
  (∀ (p : R3) (s : State), 1 ≤ p.len → p.pos + p.len ≤ 64 →
    SetsG (.bfx p) s p.d (if p.sf.getLsbD 0 then ((s.src p.a).extractLsb' p.pos p.len).signExtend 64
      else ((s.src p.a).extractLsb' p.pos p.len).setWidth 64)) ∧
  ∀ (p : R3) (s : State), 1 ≤ p.len → p.pos + p.len ≤ 64 → ∃ v : Word, SetsG (.bfi p) s p.d v ∧ ∀ k, k < 64 → v.getLsbD k =
    if p.pos ≤ k ∧ k < p.pos + p.len then (s.src p.b).getLsbD (k - p.pos) else (s.src p.a).getLsbD k

/-- R192 to R195, R197: the scalar integer instructions, the moves and the field instructions complete and write their results. -/
def Obligations.IntegerAndMoveResults : Prop :=
  Sys2Proof.Machine.IntegerResults ∧ Sys2Proof.Machine.MoveAndFieldResults

/-- R196, whole: LEA's opcode, formats, SF and source kinds; its value; and that it accesses nothing. -/
def Obligations.LeaComputesAnAddress : Prop :=
  (∀ p : R2, (Instr.lea p).body = some (0x01F, false, .r2 p) ∧ (Instr.leaDisp p).body = some (0x01F, false, .r2 p)) ∧
  (∀ p : R2, (Instr.lea p).wellFormed = true →
    (Body.r2 p).fmt = .t32r ∧ p.sf.toNat ≤ 3 ∧ p.a.tag ≠ 0 ∧ p.b.tag ≠ 0) ∧
  (∀ p : R2, (Instr.leaDisp p).wellFormed = true →
    (Body.r2 p).fmt = .t64l ∧ p.sf.toNat ≤ 3 ∧ (p.a.tag = 1 ∨ p.a.tag = 2) ∧ (p.b.tag = 1 ∨ p.b.tag = 2)) ∧
  (∀ (p : R2) (s : State), p.sf.toNat ≤ 3 → SetsG (.lea p) s p.d (s.src p.a + (s.src p.b <<< p.sf.toNat))) ∧
  (∀ (p : R2) (s : State) (v : BitVec 32), p.sf.toNat ≤ 3 → p.lit = some v →
    SetsG (.leaDisp p) s p.d (s.src p.a + (s.src p.b <<< p.sf.toNat) + v.signExtend 64)) ∧
  OnlyD .lea ∧ OnlyD .leaDisp

/-- Frame of the integer instructions (R62, R193): whenever one answers a next state, it has written at most gd, no flag, no
special register, no byte of memory and nothing else of the machine. -/
def Sys2Proof.Machine.IntegerFrame : Prop :=
  OnlyD .add ∧ OnlyD .sub ∧ OnlyD .mul ∧ OnlyD .mulh ∧ OnlyD .mulhsu ∧ OnlyD .div ∧ OnlyD .divu ∧ OnlyD .rem ∧ OnlyD .remu ∧
  OnlyD .and ∧ OnlyD .or ∧ OnlyD .xor ∧ OnlyD .andn ∧ OnlyD .sll ∧ OnlyD .srl ∧ OnlyD .sra ∧ OnlyD .rol ∧ OnlyD .ror ∧
  OnlyD .slt ∧ OnlyD .sltu ∧ OnlyD .min ∧ OnlyD .max ∧ OnlyD .minu ∧ OnlyD .maxu ∧ OnlyD .liLit32 ∧
  (∀ p s t, (exec (.clz p) s = .next t ∨ exec (.ctz p) s = .next t ∨ exec (.popc p) s = .next t ∨ exec (.sext p) s = .next t ∨
    exec (.zext p) s = .next t ∨ exec (.liReg p) s = .next t) → onlyWrites (gd p.d) s t) ∧
  (∀ p s t, exec (.liHn p) s = .next t → onlyWrites (gd p.d) s t) ∧
  (∀ p s t, (exec (.sel p) s = .next t ∨ exec (.bfx p) s = .next t ∨ exec (.bfi p) s = .next t) → onlyWrites (gd p.d) s t)

namespace Sys2Proof.Machine

/-- The general register that an instruction writes, where it names one: its gd, or the counter of LOOP. -/
def namedG : Instr → Option (Fin 32)
  | .add p | .sub p | .mul p | .mulh p | .mulhsu p | .div p | .divu p | .rem p | .remu p | .and p | .or p | .xor p | .andn p | .sll p | .srl p
  | .sra p | .rol p | .ror p | .slt p | .sltu p | .min p | .max p | .minu p | .maxu p | .liLit32 p | .lea p | .leaDisp p | .fadd p | .fsub p
  | .fmul p | .fdiv p | .fmin p | .fmax p | .fcmp p | .sc p | .qpop p | .qfirst p | .vext p | .eqclaim p => some (gd p.d)
  | .clz p | .ctz p | .popc p | .sext p | .zext p | .liReg p | .fsqrt p | .fclass p | .jr p | .lr p | .mshape p | .vsave p | .vcfg p
  | .vsetl p | .vqlen p => some (gd p.d)
  | .liHn p | .ld p | .srr p | .vfill p => some (gd p.d)
  | .sel p | .bfx p | .bfi p | .fmadd p | .fcvt p | .amo p | .nodeCopy p | .nodeCall p | .nodeEdge p | .kvmap p | .kvapp p | .kvxl p | .kvxlE p
  | .kvfork p | .kvrel p | .kvkeep p | .kvpidx p | .kvpidxIns p => some (gd p.d)
  | .loop p => some p.a.gidx
  | _ => none

end Sys2Proof.Machine

/-- R62: g0 reads zero in every state, and an instruction that names g0 as its destination writes no register: a write to it is discarded. An
integer, move, field or float instruction then completes all the same. -/
def Obligations.ZeroRegister : Prop :=
  (∀ h : Hart, h.greg 0 = 0) ∧ (∀ (s : State) (v : Word), (s.setG 0 v).cur = s.cur) ∧
  (∀ (s : State) (r : Fin 32) (v : Word), r ≠ 0 → (s.setG r v).cur.greg r = v) ∧
  (∀ (i : Instr) (s t : State), namedG i = some 0 → exec i s = .next t → sameG s t) ∧
  ∀ (p : R2) (s : State), gd p.d = 0 → ∃ t, exec (.add p) s = .next t ∧ sameG s t ∧ t.cur.pc = s.cur.npc

/-! ### Scalar floating point -/

namespace Sys2Proof.Machine

/-- A float instruction completes: gd takes the bits, zero above their width, and the flags are raised. -/
def SetsF (i : Instr) (s : State) (d : BitVec 6) (r : Nat × Flags) : Prop :=
  exec i s = .next ((s.raise r.2).setG (gd d) (BitVec.ofNat 64 r.1)).completed

/-- An operand of a scalar float instruction: the low bits of its source, or its literal's value (R175, R198). -/
def State.fop (s : State) (sf : BitVec 4) (a : S10) (lit : Option (BitVec 32) := none) : FV :=
  unpack (if sf.getLsbD 0 then .fp64 else .fp32) (s.srcF (if sf.getLsbD 0 then .fp64 else .fp32) a lit)

end Sys2Proof.Machine

/-- R112, R113: what the shared float operations give for special operands, over every format and rounding mode: a NaN operand, ∞ − ∞, 0 × ∞,
0 / 0, ∞ / ∞, x / 0, an infinite operand, the root of a negative number and of −0; a minimum or maximum with NaNs or with zeros of both
signs; on finite operands, the exact sum or product rounded once. -/
def Sys2Proof.Machine.SpecialFloatRows : Prop :=
  (∀ (t : FT) (rm : Nat) (x y : FV), (x.isNan = true ∨ y.isNan = true) →
    addFV t rm x y = (t.nan, x.nv ||| y.nv) ∧ mulFV t rm x y = (t.nan, x.nv ||| y.nv) ∧ divFV t rm x y = (t.nan, x.nv ||| y.nv)) ∧
  (∀ (t : FT) (rm : Nat) (x y z : FV), (x.isNan = true ∨ y.isNan = true ∨ z.isNan = true) →
    fmaFV t rm x y z = (t.nan, x.nv ||| y.nv ||| z.nv ||| (if zeroTimesInf x y then fNV else 0))) ∧
  (∀ (t : FT) (rm : Nat) (a b : Bool) (m n : Nat) (e f : Int),
    addFV t rm (.inf a) (.inf b) = (if a = b then (t.inf a, 0) else (t.nan, fNV)) ∧
    addFV t rm (.inf a) (.fin b n f) = (t.inf a, 0) ∧ addFV t rm (.fin a m e) (.inf b) = (t.inf b, 0) ∧
    addFV t rm (.fin a m e) (.fin b n f) = roundSum t rm [(a, m, e), (b, n, f)] ∧
    mulFV t rm (.fin a 0 e) (.inf b) = (t.nan, fNV) ∧ mulFV t rm (.inf a) (.fin b 0 f) = (t.nan, fNV) ∧
    mulFV t rm (.inf a) (.inf b) = (t.inf (a != b), 0) ∧
    (0 < m → mulFV t rm (.fin a m e) (.inf b) = (t.inf (a != b), 0) ∧ divFV t rm (.fin a m e) (.fin b 0 f) = (t.inf (a != b), fDZ)) ∧
    mulFV t rm (.fin a m e) (.fin b n f) = roundVal t rm (a != b) (m * n) (e + f) ∧
    divFV t rm (.fin a 0 e) (.fin b 0 f) = (t.nan, fNV) ∧ divFV t rm (.inf a) (.inf b) = (t.nan, fNV) ∧
    divFV t rm (.inf a) (.fin b n f) = (t.inf (a != b), 0) ∧ divFV t rm (.fin a m e) (.inf b) = (t.zero (a != b), 0) ∧
    (0 < m → sqrtFV t rm (.fin true m e) = (t.nan, fNV)) ∧ sqrtFV t rm (.fin a 0 e) = (t.zero a, 0) ∧
    sqrtFV t rm (.inf a) = (if a then (t.nan, fNV) else (t.inf false, 0)) ∧
    (∀ s, sqrtFV t rm (.nan s) = (t.nan, (FV.nan s).nv)) ∧
    ∀ z : FV, z.isNan = false → fmaFV t rm (.fin a 0 e) (.inf b) z = (t.nan, fNV) ∧
      fmaFV t rm (.inf b) (.fin a 0 e) z = (t.nan, fNV) ∧
      fmaFV t rm (.fin a m e) (.fin b n f) z = addFV t rm (.fin (a != b) (m * n) (e + f)) z) ∧
  ∀ (t : FT) (mx : Bool) (a b : Nat), let x := unpack t a
    let y := unpack t b
    (minMax t mx a b).2 = x.nv ||| y.nv ∧
    (x.isNan = true → y.isNan = true → (minMax t mx a b).1 = t.nan) ∧ (x.isNan = true → y.isNan = false → (minMax t mx a b).1 = b) ∧
    (x.isNan = false → y.isNan = true → (minMax t mx a b).1 = a) ∧
    (x.isNan = false → y.isNan = false →
      (x.isZero = true → y.isZero = true → (minMax t mx a b).1 = t.zero (if mx then x.neg && y.neg else x.neg || y.neg)) ∧
      (ltFV x y = true → (minMax t mx a b).1 = if mx then b else a) ∧ (ltFV y x = true → (minMax t mx a b).1 = if mx then a else b))

/-- R198, R199: in every state, on every operand, the scalar float instructions complete and write gd the rounded result, zero above its
width, with its flags: FADD to FMAX by the shared float operations, FCMP 1 or 0. -/
def Sys2Proof.Machine.ScalarFloatResults : Prop :=
  (∀ (p : R2) (s : State), let t := if p.sf.getLsbD 0 then FT.fp64 else FT.fp32
    SetsF (.fadd p) s p.d (addFV t 0 (s.fop p.sf p.a p.lit) (s.fop p.sf p.b p.lit)) ∧
    SetsF (.fsub p) s p.d (addFV t 0 (s.fop p.sf p.a p.lit) (s.fop p.sf p.b p.lit).flip) ∧
    SetsF (.fmul p) s p.d (mulFV t 0 (s.fop p.sf p.a p.lit) (s.fop p.sf p.b p.lit)) ∧
    SetsF (.fdiv p) s p.d (divFV t 0 (s.fop p.sf p.a p.lit) (s.fop p.sf p.b p.lit)) ∧
    SetsF (.fmin p) s p.d (minMax t false (s.srcF t p.a p.lit) (s.srcF t p.b p.lit)) ∧
    SetsF (.fmax p) s p.d (minMax t true (s.srcF t p.a p.lit) (s.srcF t p.b p.lit)) ∧
    ∃ r : Bool × Flags, SetsF (.fcmp p) s p.d (if r.1 then 1 else 0, r.2) ∧
      let x := s.fop p.sf p.a p.lit
      let y := s.fop p.sf p.b p.lit
      let nan := x.isNan || y.isNan
      let sig := if x.nv ||| y.nv = 0 then (0 : Flags) else fNV
      let any := if nan then fNV else (0 : Flags)
      (p.sf.toNat / 2 = 0 → r = (!nan && !ltFV x y && !ltFV y x, sig)) ∧ (p.sf.toNat / 2 = 1 → r = (!nan && ltFV x y, any)) ∧
      (p.sf.toNat / 2 = 2 → r = (!nan && !ltFV y x, any)) ∧ (p.sf.toNat / 2 = 3 → r = (nan, sig))) ∧
  (∀ (p : R1) (s : State),
    SetsF (.fsqrt p) s p.d (sqrtFV (if p.sf.getLsbD 0 then .fp64 else .fp32) 0 (s.fop p.sf p.a))) ∧
  ∀ (p : R3) (s : State),
    SetsF (.fmadd p) s p.d (fmaFV (if p.sf.getLsbD 0 then .fp64 else .fp32) p.rm.toNat (s.fop p.sf p.a) (s.fop p.sf p.b) (s.fop p.sf p.c))

/-- R200: FCVT completes in every state, and for each pair of type codes that is not reserved writes gd the value converted under RM. To an
integer: a NaN gives 0 with NV; a value beyond the integer type, ±∞ too, gives its bound with NV; an inexact one sets NX. To a float: an
integer, or a float of another type, is rounded once; a float of the same type is unchanged; a NaN is canonical, or unchanged when it is
quiet and of the same type, with NV when it was signalling. The examples of R200. Two integer codes, and a code above 6, are ill-formed. -/
def Sys2Proof.Machine.ConversionResults : Prop :=
  (∀ (p : R3) (s : State), ∃ (v : Word) (f : Flags), exec (.fcvt p) s = .next ((s.raise f).setG (gd p.d) v).completed) ∧
  (∀ (p : R3), (Instr.fcvt p).wellFormed = true → p.cvF ≤ 6 ∧ p.cvT ≤ 6 ∧ ¬ (3 ≤ p.cvF ∧ 3 ≤ p.cvT)) ∧
  (∀ (p : R3) (s : State) (t : FT), ((p.cvT = 0 ∧ t = .fp32) ∨ (p.cvT = 1 ∧ t = .fp64) ∨ (p.cvT = 2 ∧ t = .bf16)) →
    let gives := fun (r : Nat × Flags) => exec (.fcvt p) s = .next ((s.raise r.2).setG (gd p.d) (BitVec.ofNat 64 r.1)).completed
    let x := (s.src p.a).toNat
    let ofInteger := fun (v : Int) => gives (roundVal t p.rm.toNat (decide (v < 0)) v.natAbs 0)
    (p.cvF = 3 → ofInteger (BitVec.ofNat 32 x).toInt) ∧ (p.cvF = 4 → ofInteger ((x % 2 ^ 32 : Nat) : Int)) ∧
    (p.cvF = 5 → ofInteger (s.src p.a).toInt) ∧ (p.cvF = 6 → ofInteger (x : Int)) ∧
    ∀ f : FT, ((p.cvF = 0 ∧ f = .fp32) ∨ (p.cvF = 1 ∧ f = .fp64) ∨ (p.cvF = 2 ∧ f = .bf16)) →
      let n := s.srcF f p.a
      (unpack f n = .nan true → gives (t.nan, fNV)) ∧ (unpack f n = .nan false → gives (if f = t then n else t.nan, 0)) ∧
      ((unpack f n).isNan = false → gives (if f = t then (n, 0) else roundFV t p.rm.toNat (unpack f n)))) ∧
  (∀ (p : R3) (s : State) (f : FT) (w : Nat) (sg : Bool),
    ((p.cvF = 0 ∧ f = .fp32) ∨ (p.cvF = 1 ∧ f = .fp64) ∨ (p.cvF = 2 ∧ f = .bf16)) →
    ((p.cvT = 3 ∧ w = 32 ∧ sg = true) ∨ (p.cvT = 4 ∧ w = 32 ∧ sg = false) ∨ (p.cvT = 5 ∧ w = 64 ∧ sg = true) ∨
      (p.cvT = 6 ∧ w = 64 ∧ sg = false)) →
    let x := unpack f (s.srcF f p.a)
    let lo : Int := if sg then -2 ^ (w - 1) else 0
    let hi : Int := if sg then 2 ^ (w - 1) - 1 else 2 ^ w - 1
    (x.isNan = true → exec (.fcvt p) s = .next ((s.raise fNV).setG (gd p.d) 0).completed) ∧
    (∀ neg : Bool, x = .inf neg → exec (.fcvt p) s = .next ((s.raise fNV).setG (gd p.d) (BitVec.ofInt 64 (if neg then lo else hi))).completed) ∧
    ∀ (neg : Bool) (m : Nat) (e : Int), x = .fin neg m e →
      let k := roundInt p.rm.toNat neg m e
      (k.1 < lo → exec (.fcvt p) s = .next ((s.raise fNV).setG (gd p.d) (BitVec.ofInt 64 lo)).completed) ∧
      (hi < k.1 → exec (.fcvt p) s = .next ((s.raise fNV).setG (gd p.d) (BitVec.ofInt 64 hi)).completed) ∧
      (lo ≤ k.1 → k.1 ≤ hi →
        exec (.fcvt p) s = .next ((s.raise (if k.2 then fNX else 0)).setG (gd p.d) (BitVec.ofInt 64 k.1)).completed)) ∧
  toInt 32 true 0 (unpack .fp64 0x4004000000000000) = (2, fNX) ∧ toInt 32 true 3 (unpack .fp64 0x4004000000000000) = (3, fNX) ∧
  toInt 32 true 0 (unpack .fp32 0xCF32D05E) = (-2147483648, fNV)

/-- R112, R113, R198 to R200: the scalar float instructions and the conversions complete and write their results and flags, special values
included. -/
def Obligations.FloatAndConversionResults : Prop :=
  Sys2Proof.Machine.SpecialFloatRows ∧ Sys2Proof.Machine.ScalarFloatResults ∧ Sys2Proof.Machine.ConversionResults

namespace Sys2Proof.Machine

/-- The class bit that R201 gives an IEEE datum with a `w`-bit exponent field and an `f`-bit fraction field. -/
def classBit (w f n : Nat) : Nat :=
  let neg := n / 2 ^ (w + f) % 2 = 1
  let ex := n / 2 ^ f % 2 ^ w
  let fr := n % 2 ^ f
  if ex = 2 ^ w - 1 then
    if fr = 0 then (if neg then 0 else 7) else if fr < 2 ^ (f - 1) then 8 else 9
  else if ex = 0 then
    if fr = 0 then (if neg then 3 else 4) else if neg then 2 else 5
  else if neg then 1 else 6

end Sys2Proof.Machine

/-- R201, whole: FCLASS's opcode, format and variants, the one bit set by the class of a, and that no flag is set. -/
def Obligations.ClassWordHasOneBit : Prop :=
  ∀ (p : R1) (s : State),
    (Instr.fclass p).body = some (0x04A, false, .r1 p) ∧ ((Instr.fclass p).wellFormed = true → p.sf = 0 ∨ p.sf = 1) ∧
    (p.sf = 0 → SetsG (.fclass p) s p.d (BitVec.ofNat 64 (2 ^ classBit 8 23 (s.srcF .fp32 p.a)))) ∧
    (p.sf = 1 → SetsG (.fclass p) s p.d (BitVec.ofNat 64 (2 ^ classBit 11 52 (s.srcF .fp64 p.a)))) ∧
    ∀ t, exec (.fclass p) s = .next t → sameFlags s t

/-- Frame of the scalar float instructions (R62, R198): each answers a next state in every state, and has written at most gd and sticky
flags; no flag is cleared. -/
def Sys2Proof.Machine.ScalarFloatFrame : Prop :=
  ∀ (d : BitVec 6) (i : Instr) (s : State),
    ((∃ p : R2, p.d = d ∧ (i = .fadd p ∨ i = .fsub p ∨ i = .fmul p ∨ i = .fdiv p ∨ i = .fmin p ∨ i = .fmax p ∨ i = .fcmp p)) ∨
      (∃ p : R1, p.d = d ∧ (i = .fsqrt p ∨ i = .fclass p)) ∨ ∃ p : R3, p.d = d ∧ (i = .fmadd p ∨ i = .fcvt p)) →
    ∃ t, exec i s = .next t ∧
    sameGBut (gd d) s t ∧ sameVec s t ∧ sameSpecial s t ∧ sameMemory s t ∧ sameOthers s t ∧
    ∀ k, s.cur.aflags.getLsbD k = true → t.cur.aflags.getLsbD k = true

/-- Frame of the scalar register instructions: the integer ones change gd alone, the float ones gd and the sticky flags. -/
def Obligations.ScalarFrame : Prop :=
  Sys2Proof.Machine.IntegerFrame ∧ Sys2Proof.Machine.ScalarFloatFrame


/-! ### Control transfer -/

namespace Sys2Proof.Machine

/-- The condition that SF of B.CC selects (R202). -/
def branchHolds (sf : BitVec 4) (a b : Word) : Prop :=
  (sf = 0 ∧ a = b) ∨ (sf = 1 ∧ a ≠ b) ∨ (sf = 2 ∧ a.toInt < b.toInt) ∨ (sf = 3 ∧ b.toInt ≤ a.toInt) ∨
  (sf = 4 ∧ a.toNat < b.toNat) ∨ (sf = 5 ∧ b.toNat ≤ a.toNat)

/-- PC + 2 × a displacement of `n` bits in halfwords (R173). -/
def State.target {n : Nat} (s : State) (d : BitVec n) : Word := s.cur.pc + d.signExtend 64 + d.signExtend 64

/-- The address to which a transfer instruction goes when it transfers control (R202 to R206). -/
def transferTo (i : Instr) (s : State) : Option Word :=
  match i with
  | .bCc p => some (s.target p.imm)
  | .jShort p | .jLong p | .jalShort p | .jalLong p => some (s.target p.disp)
  | .jr p => some (s.src p.a)
  | .ret _ => some (s.gread 31)
  | .loop p => some (s.target p.imm)
  | _ => none

/-- A transfer instruction transfers control: always, or when its condition holds (R202, R206). -/
def transfers (i : Instr) (s : State) : Prop :=
  match i with
  | .bCc p => branchHolds p.sf (s.src p.a) (s.src p.b)
  | .loop p => 0 < (s.src p.a - s.src p.b).toInt
  | .jShort _ | .jLong _ | .jalShort _ | .jalLong _ | .jr _ | .ret _ => True
  | _ => False

end Sys2Proof.Machine

/-- R202 to R206: where the target is a head and not 0, each transfer goes there, JAL and JR with the next head in their link
register (JR's target read first) and LOOP with its counter written back; B.CC and LOOP whose condition fails go on to the next
head. -/
def Obligations.ControlTransferResults : Prop :=
  (∀ (s : State) (a : Word), a ≠ 0 → s.isHead a.toNat = true →
    (∀ p : S, p.sf.toNat ≤ 5 → branchHolds p.sf (s.src p.a) (s.src p.b) → a = s.target p.imm →
      exec (.bCc p) s = .next (s.headed a).completed) ∧
    (∀ p : J, a = s.target p.disp →
      exec (.jShort p) s = .next (s.headed a).completed ∧ exec (.jLong p) s = .next (s.headed a).completed ∧
      exec (.jalShort p) s = .next ((s.headed a).setG 31 s.cur.npc).completed ∧
      exec (.jalLong p) s = .next ((s.headed a).setG 31 s.cur.npc).completed) ∧
    (∀ p : R1, a = s.src p.a → exec (.jr p) s = .next ((s.headed a).setG (gd p.d) s.cur.npc).completed) ∧
    (∀ p : Head, a = s.gread 31 → exec (.ret p) s = .next (s.headed a).completed) ∧
    ∀ p : S, a = s.target p.imm → 0 < (s.src p.a - s.src p.b).toInt →
      exec (.loop p) s = .next ((s.headed a).setG p.a.gidx (s.src p.a - s.src p.b)).completed) ∧
  (∀ (p : S) (s : State), p.sf.toNat ≤ 5 → ¬ branchHolds p.sf (s.src p.a) (s.src p.b) → exec (.bCc p) s = .next s.completed) ∧
  ∀ (p : S) (s : State), (s.src p.a - s.src p.b).toInt ≤ 0 →
    exec (.loop p) s = .next (s.setG p.a.gidx (s.src p.a - s.src p.b)).completed

/-- R205: a transfer whose target is address 0 stands while the vector queue holds an instruction, then ends the hart: it is Ended, holds no
accumulator tile, no reservation and no queue entry, and its posted stores have performed; while one of them is held the hart stays (R442). A
store to a lost rank that was never acknowledged stops it instead (R475). -/
def Sys2Proof.Machine.TransferToZeroEndsTheHart : Prop :=
  ∀ (i : Instr) (s : State), transferTo i s = some 0 → transfers i s →
    (s.cur.vq ≠ [] → exec i s = .next s.stands) ∧
    (∀ k, s.cur.vq = [] → s.lostStore = none → s.stuck = some k → exec i s = .next (s.heldBy k.1 k.2)) ∧
    (s.cur.vq = [] → s.lostStore = none → s.stuck = none → ∃ t, exec i s = .next t ∧ t.cur.phase = .ended ∧ t.cur.accs = [] ∧ t.cur.resv = none ∧ t.cur.vq = [] ∧
      t.dram = s.settle.dram ∧ t.near = s.settle.near ∧ t.msc = s.settle.msc ∧ t.fabric = s.settle.fabric) ∧
    ∀ va, s.cur.vq = [] → s.lostStore = some va → s.cur.trap.hm = false →
      ∃ t, exec i s = .next t ∧ t.cur.phase = .saved ∧ t.cur.trap.cause = ⟨0x0F, 3⟩ ∧ t.cur.trap.tval = va

/-- R173, R420: a transfer to an address that is no head traps with 0x02.09 and the target's line address, and neither
transfers nor links. -/
def Sys2Proof.Machine.TransferToNoHeadTraps : Prop :=
  ∀ (i : Instr) (s : State) (a : Word), transferTo i s = some a → transfers i s → a ≠ 0 → s.isHead a.toNat = false →
    s.cur.trap.hm = false → s.cur.trap.tvec ≠ 0 →
    ∃ t, exec i s = .next t ∧ t.cur.pc = s.cur.trap.tvec ∧ t.cur.trap.cause = ⟨0x02, 0x09⟩ ∧ t.cur.trap.tepc = s.cur.pc ∧
      t.cur.trap.tval = BitVec.ofNat 64 (a.toNat / 64 * 64) ∧ sameG s t ∧ sameVec s t ∧ sameFlags s t ∧ sameMemory s t

/-- R205, R420: a transfer to address 0 ends the hart; a transfer to an address that is no head traps. -/
def Obligations.TransfersThatDoNotArrive : Prop :=
  Sys2Proof.Machine.TransferToZeroEndsTheHart ∧ Sys2Proof.Machine.TransferToNoHeadTraps

/-! ### Scalar memory -/

/-- R207: an aligned LD whose address translates and whose bytes are not poisoned completes: gd takes the little-endian value
at the near point (at the far point for an uncached page), sign-extended, or zero-extended under SF[2]. -/
def Sys2Proof.Machine.LoadResults : Prop :=
  ∀ (p : L) (s : State) (q : Phys), let n := Machine.sizeOf p.sf
    let va := (s.src p.a + p.imm.signExtend 64).toNat
    let u := s.settleFor false q
    va % n = 0 → s.translate va .load = .ok q → poisonedAt u q.uncached q.spot.loc n = none →
    let v := BitVec.ofNat (8 * n) (leNat (readBytes u q.uncached q.spot.loc n))
    exec (.ld p) s = .next ((u.scalarReadDone q).setG (gd p.d)
      (if p.sf.getLsbD 2 then v.setWidth 64 else v.signExtend 64)).completed

/-- R211: LR loads like LD and reserves the aligned 8-byte word in place of any earlier reservation; SC whose reservation still covers its word
once the hart's own earlier stores have performed stores and writes 0, any other SC writes 1 and stores nothing; afterwards there is no
reservation. An SC to a module that gives no response is held (R475). The model's choices: LR asks the page for read permission (log 66), and an SC
without a reservation completes at any aligned address, none of which it translates (log 29). -/
def Sys2Proof.Machine.ReservationPair : Prop :=
  (∀ (p : R1) (s : State) (q : Phys), let n := if p.sf.getLsbD 0 then 4 else 8
    (s.src p.a).toNat % n = 0 → s.translate (s.src p.a).toNat .load = .ok q →
    poisonedAt (s.settleFor false q) q.uncached q.spot.loc n = none →
    ∃ t, exec (.lr p) s = .next t ∧ t.cur.resv = some (q.spot.loc / 8) ∧ t.cur.pc = s.cur.npc ∧
      (gd p.d ≠ 0 → t.cur.greg (gd p.d) =
        (BitVec.ofNat (8 * n) (leNat (readBytes (s.settleFor false q) q.uncached q.spot.loc n))).signExtend 64)) ∧
  (∀ (p : R2) (s : State) (q : Phys), let n := if p.sf.getLsbD 0 then 4 else 8
    let u := s.settleFor false q
    (s.src p.a).toNat % n = 0 → s.translate (s.src p.a).toNat .store = .ok q → s.cur.resv.isSome = true →
    (q.spot.m = s.cur.mod ∨ u.modRuns q.spot.m = true →
      (u.cur.resv = some (q.spot.loc / 8) →
        ∃ t, exec (.sc p) s = .next t ∧ t.cur.resv = none ∧ t.cur.pc = s.cur.npc ∧ (gd p.d ≠ 0 → t.cur.greg (gd p.d) = 0) ∧
          t.dram = (u.putPhys q (leBytes n (s.src p.b).toNat) 0).dram ∧ t.near = (u.putPhys q (leBytes n (s.src p.b).toNat) 0).near ∧
          t.msc = (u.putPhys q (leBytes n (s.src p.b).toNat) 0).msc) ∧
      (u.cur.resv ≠ some (q.spot.loc / 8) →
        ∃ t, exec (.sc p) s = .next t ∧ t.cur.resv = none ∧ t.cur.pc = s.cur.npc ∧ (gd p.d ≠ 0 → t.cur.greg (gd p.d) = 1) ∧
          sameMemory u t)) ∧
    (q.spot.m ≠ s.cur.mod → u.modRuns q.spot.m = false → exec (.sc p) s = .next (u.heldBy (.silent q.spot.m) (s.src p.a)))) ∧
  ∀ (p : R2) (s : State), (s.src p.a).toNat % (if p.sf.getLsbD 0 then 4 else 8) = 0 → s.cur.resv = none →
    ∃ t, exec (.sc p) s = .next t ∧ t.cur.resv = none ∧ t.cur.pc = s.cur.npc ∧ (gd p.d ≠ 0 → t.cur.greg (gd p.d) = 1) ∧ sameMemory s t

/-- R208: an aligned ST whose address translates completes: the low bytes of b are written there, little-endian, now on the
hart's own module, as a posted store on another (R166). -/
def Sys2Proof.Machine.StoreResults : Prop :=
  ∀ (p : S) (s : State) (q : Phys), let n := Machine.sizeOf p.sf
    let va := s.src p.a + p.imm.signExtend 64
    va.toNat % n = 0 → s.translate va.toNat .store = .ok q →
    exec (.st p) s = .next ((s.settleFor false q).writePhys false va q (leBytes n (s.src p.b).toNat) 0).completed ∧
    (q.spot.m = s.cur.mod → s.cur.later = false → s.memOk → ∃ t, exec (.st p) s = .next t ∧ ∀ k, k < n →
      (t.byteAt (q.spot.loc + k)).toNat = (s.src p.b).toNat / 256 ^ k % 256)

namespace Sys2Proof.Machine

/-- What an AMO writes (R210), at the width of its access; none where CAS does not match. -/
def amoWrites {n : Nat} (op : Nat) (old b c : BitVec n) : Option (BitVec n) :=
  if op = 0 then some (old + b) else if op = 1 then some b else if op = 2 then (if old = c then some b else none)
  else if op = 3 then some (if old.sle b then old else b) else if op = 4 then some (if old.sle b then b else old)
  else if op = 5 then some (old &&& b) else if op = 6 then some (old ||| b) else some (old ^^^ b)

end Sys2Proof.Machine

/-- R210, R160: an aligned AMO whose address translates and is not poisoned completes in one step: gd takes the old value,
sign-extended, and memory the new one, where the operation writes. -/
def Sys2Proof.Machine.AtomicResults : Prop :=
  ∀ (p : R3) (s : State) (q : Phys) (n : Nat), (n = if p.sf.getLsbD 3 then 4 else 8) →
    let va := (s.src p.a + p.imm.signExtend 64).toNat
    va % n = 0 → s.translate va .amo = .ok q → let u := s.settleFor false q
    poisonedAt u q.uncached q.spot.loc n = none →
    let old := BitVec.ofNat (8 * n) (leNat (readBytes u q.uncached q.spot.loc n))
    exec (.amo p) s = .next ((match amoWrites (p.sf.toNat % 8) old ((s.src p.b).setWidth _) ((s.src p.c).setWidth _) with
      | some x => u.putScalar q (leBytes n x.toNat)
      | none => if u.inL1 q then (fillCopy u (q.spot.loc / 128)).readL1 u.cur.mod u.cur.seat.core q.spot.loc else u).setG (gd p.d) (old.signExtend 64)).completed

/-- R207, R208, R210: an aligned LD, ST or AMO whose address translates completes with its value and its write. -/
def Obligations.ScalarMemoryResults : Prop :=
  Sys2Proof.Machine.LoadResults ∧ Sys2Proof.Machine.StoreResults ∧ Sys2Proof.Machine.AtomicResults

/-- R148, R149, R151: a write at the near point is what the near point then reads, byte by byte, and every other byte reads as
before; the far point and memory keep theirs. A write at the far point is what both points read, near copies of its lines being
recalled. -/
def Obligations.WrittenBytesReadBack : Prop :=
  ∀ (s : State) (a : Nat) (bs : List Byte), s.memOk →
    (∀ k (h : k < bs.length), (storeNear s a bs).byteAt (a + k) = bs[k]) ∧
    (∀ x, x < a ∨ a + bs.length ≤ x → (storeNear s a bs).byteAt x = s.byteAt x) ∧
    (∀ x, farByte (storeNear s a bs) x = farByte s x ∧ dramByte (storeNear s a bs) x = dramByte s x) ∧
    ∀ readers, (∀ k (h : k < bs.length), farByte (storeFar s a bs readers) (a + k) = bs[k] ∧ (storeFar s a bs readers).byteAt (a + k) = bs[k]) ∧
      ∀ x, x < a ∨ a + bs.length ≤ x → (storeFar s a bs readers).byteAt x = s.byteAt x

/-- Frame of the scalar loads, stores and atomics (R207 to R211), none of the hart's stores being posted before. An LD or an LR changes gd alone,
an LR the reservation too, and no byte of a line of which no memory-side cache counts readers. An ST that performs now, an SC and an AMO leave every
byte outside the bytes at their translated address as it was at the near point, on whichever module they lie, and every register but their gd; an ST
that is posted (R166) leaves every byte as it was and adds its one message. -/
def Obligations.ScalarMemoryFrame : Prop :=
  (∀ (p : L) (s t : State) (q : Phys), let n := Machine.sizeOf p.sf
    let va := (s.src p.a + p.imm.signExtend 64).toNat
    s.memOk → va % n = 0 → s.translate va .load = .ok q → s.posted = false →
    poisonedAt s q.uncached q.spot.loc n = none → exec (.ld p) s = .next t →
    sameGBut (gd p.d) s t ∧ sameVec s t ∧ sameSpecial s t ∧ sameFlags s t ∧
    ∀ x, (∀ l, Tbl.find (x / 128) s.msc = some l → l.count = 0) → t.byteAt x = s.byteAt x) ∧
  (∀ (p : R1) (s t : State) (q : Phys), let n := if p.sf.getLsbD 0 then 4 else 8
    s.memOk → (s.src p.a).toNat % n = 0 → s.translate (s.src p.a).toNat .load = .ok q → s.posted = false →
    poisonedAt s q.uncached q.spot.loc n = none → exec (.lr p) s = .next t →
    sameGBut (gd p.d) s t ∧ sameVec s t ∧ sameFlags s t ∧ t.cur.trap = s.cur.trap ∧ t.cur.accs = s.cur.accs ∧ t.cur.cfg = s.cur.cfg ∧
    t.cur.atp = s.cur.atp ∧ ∀ x, (∀ l, Tbl.find (x / 128) s.msc = some l → l.count = 0) → t.byteAt x = s.byteAt x) ∧
  (∀ (p : S) (s t : State) (q : Phys), let n := Machine.sizeOf p.sf
    let va := (s.src p.a + p.imm.signExtend 64).toNat
    s.memOk → va % n = 0 → s.translate va .store = .ok q → s.posted = false → exec (.st p) s = .next t →
    sameG s t ∧ sameVec s t ∧ sameFlags s t ∧ t.cur.trap = s.cur.trap ∧ t.cur.accs = s.cur.accs ∧
    (q.spot.m = s.cur.mod ∧ (s.cur.later = false ∨ q.dclass = true) →
      ∀ x, x < q.spot.loc ∨ q.spot.loc + n ≤ x → t.byteAt x = s.byteAt x) ∧
    (q.spot.m ≠ s.cur.mod ∨ (s.cur.later = true ∧ q.dclass = false) → sameMemory s t ∧ ∃ m, t.fabric = s.fabric ++ [m])) ∧
  (∀ (p : R2) (s t : State) (q : Phys), let n := if p.sf.getLsbD 0 then 4 else 8
    let va := (s.src p.a).toNat
    s.memOk → va % n = 0 → s.translate va .store = .ok q → s.posted = false → exec (.sc p) s = .next t →
    sameGBut (gd p.d) s t ∧ sameVec s t ∧ sameFlags s t ∧ t.cur.trap = s.cur.trap ∧ t.cur.accs = s.cur.accs ∧
    ∀ x, x < q.spot.loc ∨ q.spot.loc + n ≤ x → t.byteAt x = s.byteAt x) ∧
  ∀ (p : R3) (s t : State) (q : Phys), let n := if p.sf.getLsbD 3 then 4 else 8
    let va := (s.src p.a + p.imm.signExtend 64).toNat
    s.memOk → va % n = 0 → s.translate va .amo = .ok q → s.posted = false →
    poisonedAt s q.uncached q.spot.loc n = none → exec (.amo p) s = .next t →
    sameGBut (gd p.d) s t ∧ sameVec s t ∧ sameFlags s t ∧ t.cur.trap = s.cur.trap ∧ t.cur.accs = s.cur.accs ∧
    ∀ x, x < q.spot.loc ∨ q.spot.loc + n ≤ x → t.byteAt x = s.byteAt x

/-- R211: any observer's write to a reserved word ends the reservation, of the acting hart and of every other; a write that
touches no byte of the word leaves it. -/
def Sys2Proof.Machine.WritesEndReservations : Prop :=
  ∀ (s : State) (a : Nat) (bs : List Byte) (h : Hart) (w : Nat), h.resv = some w →
    (a < 8 * w + 8 ∧ 8 * w < a + bs.length → (h.breakResv a bs.length).resv = none) ∧
    (¬ (a < 8 * w + 8 ∧ 8 * w < a + bs.length) → h.breakResv a bs.length = h) ∧
    (storeNear s a bs).cur = s.cur.breakResv a bs.length ∧
    (storeNear s a bs).harts = s.harts.map (fun x => x.breakResv a bs.length) ∧
    ∀ readers, (storeFar s a bs readers).cur = s.cur.breakResv a bs.length ∧
      (storeFar s a bs readers).harts = s.harts.map (fun x => x.breakResv a bs.length)

/-- R211: LR, SC and what ends a reservation. -/
def Obligations.ReservationResults : Prop :=
  Sys2Proof.Machine.ReservationPair ∧ Sys2Proof.Machine.WritesEndReservations

/-- R147, R392, R395: a scalar access whose address is no multiple of its size enters the handler with 0x04.01, the address in
sr.tval and the head's address in sr.tepc; no register, byte or reservation-independent state changes. -/
def Obligations.MisalignedScalarAccessTraps : Prop :=
  ∀ (i : Instr) (s : State) (va : Word),
    ((∃ p : L, i = .ld p ∧ va = s.src p.a + p.imm.signExtend 64 ∧ va.toNat % Machine.sizeOf p.sf ≠ 0) ∨
     (∃ p : S, i = .st p ∧ va = s.src p.a + p.imm.signExtend 64 ∧ va.toNat % Machine.sizeOf p.sf ≠ 0) ∨
     (∃ p : R3, i = .amo p ∧ va = s.src p.a + p.imm.signExtend 64 ∧ va.toNat % (if p.sf.getLsbD 3 then 4 else 8) ≠ 0) ∨
     (∃ p : R1, i = .lr p ∧ va = s.src p.a ∧ va.toNat % (if p.sf.getLsbD 0 then 4 else 8) ≠ 0) ∨
     ∃ p : R2, i = .sc p ∧ va = s.src p.a ∧ va.toNat % (if p.sf.getLsbD 0 then 4 else 8) ≠ 0) →
    s.cur.trap.hm = false → s.cur.trap.tvec ≠ 0 →
    ∃ t, exec i s = .next t ∧ t.cur.pc = s.cur.trap.tvec ∧ t.cur.trap.cause = ⟨0x04, 0x01⟩ ∧ t.cur.trap.tval = va ∧
      t.cur.trap.tepc = s.cur.pc ∧ t.cur.trap.head = s.cur.head ∧ t.cur.trap.hm = true ∧ t.cur.trap.imp = false ∧
      sameG s t ∧ sameVec s t ∧ sameFlags s t ∧ sameMemory s t ∧ sameOthers s t

/-! ### System instructions -/

/-- R221, whole: NOP is T0 with SF and PL zero, its head is 0x0000, and it changes nothing but the program counter. -/
def Obligations.NopHasNoEffect : Prop :=
  (∀ p : Head, (Instr.nop p).body = some (0x000, false, .t0 p) ∧ ((Instr.nop p).wellFormed = true ↔ p.sf = 0)) ∧
  (∀ tail, tail = 0 → decode 0x0000 tail = .ok (.nop ⟨0⟩)) ∧
  ∀ (p : Head) (s : State), exec (.nop p) s = .next s.completed ∧
    onlyWrites 0 s s.completed ∧ s.completed.cur.pc = s.cur.npc

/-- R154, R209, R264: PREF, FENCE.SV with no store posted and the near and far VPREF complete in every state in which they may execute: they
change no register, no flag and no byte. FENCE.SV leaves no store posted of a stream whose stores its TYPE orders, where nothing holds one; one
whose TYPE orders vector-queue accesses stands while the queue, frozen, holds any (log 30). That a prefetch's fill counts no reader is the model's
choice (log 67). -/
def Sys2Proof.Machine.HintsChangeNothing : Prop :=
  (∀ (p : S) (s : State), ∃ t, exec (.pref p) s = .next t ∧ onlyWrites 0 s t ∧ t.cur.pc = s.cur.npc ∧
    ∀ k, (farLine t k).count = (farLine s k).count) ∧
  (∀ (p : R1) (s : State), p.a.val.toNat < 16 ∨ s.cur.vq = [] → s.posted = false → exec (.fenceSv p) s = .next s.completed) ∧
  (∀ (p : R1) (s : State), 16 ≤ p.a.val.toNat → s.cur.vq ≠ [] → exec (.fenceSv p) s = .next s.stands) ∧
  (∀ (p : R1) (s : State), p.a.val.toNat < 16 ∨ s.cur.vq = [] →
    (∀ x ∈ s.fabric, Msg.storeOf s.cur.id x = true → s.storeHolder s.cur.mod x = none) → ∃ t, exec (.fenceSv p) s = .next t ∧ t.cur.pc = s.cur.npc ∧ sameG s t ∧
    sameVec s t ∧ sameFlags s t ∧
    ((p.a.val.getLsbD 2 || p.a.val.getLsbD 3) = true → ∀ x ∈ t.fabric, Msg.storeOn s.cur.id false x = false) ∧
    ((p.a.val.getLsbD 6 || p.a.val.getLsbD 7) = true → ∀ x ∈ t.fabric, Msg.storeOn s.cur.id true x = false)) ∧
  ∀ (p : M) (s : State), s.executes = true →
    (∃ t, exec (.vpref p) s = .next t ∧ vecFrame s t ∧ sameVec s t ∧ sameFlags s t ∧ ∀ k, (farLine t k).count = (farLine s k).count) ∧
    ∃ t, exec (.fVpref p) s = .next t ∧ vecFrame s t ∧ sameVec s t ∧ sameFlags s t ∧ ∀ k, (farLine t k).count = (farLine s k).count

/-- R216, whole, and PAUSE_EXPIRY: PAUSE's opcode and fields; it waits until min(a, 1,048,576) cycles have passed since its wait
began and then retires; PAUSE #0 retires at once. The event of the interval's end lets the waiting hart go on. -/
def Obligations.PauseWaitsItsInterval : Prop :=
  (∀ p : R1, (Instr.pause p).body = some (0x0A4, false, .r1 p) ∧
    ((Instr.pause p).wellFormed = true → p.d = 0 ∧ p.sf = 0)) ∧
  (∀ (p : R1) (s : State), (s.src p.a).toNat = 0 → exec (.pause p) s = .next s.completed) ∧
  (∀ (p : R1) (s : State), (s.src p.a).toNat ≠ 0 → s.cur.waitOn = none →
    ∃ t, exec (.pause p) s = .next t ∧ t.cur.phase = .waiting ∧ t.cur.waitFrom = s.tick ∧ t.cur.pc = s.cur.pc ∧ onlyWrites 0 s t) ∧
  (∀ (p : R1) (s : State), s.cur.waitOn.isSome = true →
    (min (s.src p.a).toNat 1048576 ≤ s.since s.cur.waitFrom → exec (.pause p) s = .next s.completed) ∧
    ((s.src p.a).toNat ≠ 0 → s.since s.cur.waitFrom < min (s.src p.a).toNat 1048576 →
      ∃ t, exec (.pause p) s = .next t ∧ t.cur.phase = .waiting ∧ t.cur.waitFrom = s.cur.waitFrom ∧ t.cur.pc = s.cur.pc ∧ onlyWrites 0 s t)) ∧
  ∀ (p : R1) (s : State) (head : Half) (next : Word), s.cur.phase = .waiting → s.cur.vq = [] → s.cur.waitOn.isSome = true →
    fetch s = .run (.pause p) head next →
    min (({ s with cur := { s.cur with head := head, npc := next } } : State).src p.a).toNat 1048576 ≤ s.since s.cur.waitFrom →
    ∃ t, exec (.pauseExpiry s.cur.id) s = .next t ∧ t.cur.phase = .running ∧ t.cur.pc = next ∧ t.cur.waitOn = none

/-- R217: WFEV takes the event bit and retires when it is set; otherwise the hart waits and the program counter stays. -/
def Sys2Proof.Machine.EventBitIsTaken : Prop :=
  ∀ (p : Head) (s : State),
    (s.cur.event = true → ∃ t, exec (.wfev p) s = .next t ∧ t.cur.event = false ∧ t.cur.pc = s.cur.npc ∧ t.cur.waitOn = none ∧
      sameG s t ∧ sameVec s t ∧ sameFlags s t ∧ t.cur.trap = s.cur.trap ∧ sameMemory s t) ∧
    (s.cur.event = false → ∃ t, exec (.wfev p) s = .next t ∧ t.cur.event = false ∧ t.cur.pc = s.cur.pc ∧ t.cur.phase = .waiting ∧
      onlyWrites 0 s t)

/-- R154, R209, R217, R264: the hints change nothing; WFEV takes the event bit or waits for it. -/
def Obligations.HintsAndEventBit : Prop :=
  Sys2Proof.Machine.HintsChangeNothing ∧ Sys2Proof.Machine.EventBitIsTaken

namespace Sys2Proof.Machine

/-- The hart entered its handler for a precise trap (R395): what the trap registers hold, where the program counter goes, and
what stays. -/
def enteredPrecise (s t : State) (c : Cause) (v epc : Word) : Prop :=
  t.cur.pc = s.cur.trap.tvec ∧ t.cur.phase = .running ∧ t.cur.resv = none ∧
  t.cur.trap.hm = true ∧ t.cur.trap.imp = false ∧ t.cur.trap.cause = c ∧ t.cur.trap.tval = v ∧ t.cur.trap.tepc = epc ∧
  t.cur.trap.elem = 0 ∧ t.cur.trap.head = s.cur.head ∧ t.cur.trap.tvpc = 0 ∧ t.cur.trap.grnt = BitVec.ofNat 4 s.cur.grant ∧
  t.cur.trap.tvec = s.cur.trap.tvec ∧ t.cur.trap.pin = s.cur.trap.pin ∧ t.cur.trap.scr0 = s.cur.trap.scr0 ∧
  t.cur.trap.scr1 = s.cur.trap.scr1 ∧ t.cur.vq = s.cur.vq ∧ t.cur.accs = s.cur.accs ∧ t.cur.cfg = s.cur.cfg ∧
  t.cur.stream = s.cur.stream ∧ t.cur.atp = s.cur.atp ∧ t.cur.event = s.cur.event ∧ sameG s t ∧ sameVec s t ∧ sameFlags s t ∧
  sameMemory s t ∧ sameOthers s t

end Sys2Proof.Machine

/-- R215, R395: outside handler mode with a handler, TRAP enters it with cause 0x01, its operand in sr.tval and the next head
in sr.tepc. -/
def Sys2Proof.Machine.TrapEntersTheHandler : Prop :=
  ∀ (p : R1) (s : State), s.cur.trap.hm = false → s.cur.trap.tvec ≠ 0 →
    ∃ t, exec (.trap p) s = .next t ∧ enteredPrecise s t ⟨0x01, 0x00⟩ (s.src p.a) s.cur.npc

/-- R395: every precise trap on route H of a hart with a handler saves the faulting head in sr.tepc (the next head for TRAP),
records its cause, value, head and grant, sets HM and goes to the handler; vector and scalar registers, flags, memory and
everything else stay. -/
def Sys2Proof.Machine.PreciseTrapEntry : Prop :=
  ∀ (s : State) (c : Cause) (v : Word), s.cur.trap.hm = false → s.cur.trap.tvec ≠ 0 →
    (c.code = 0x01 ∨ c.code = 0x02 ∨ c.code = 0x03 ∨ c.code = 0x04 ∨ c.code = 0x09 ∨ c.code = 0x0A ∨ c.code = 0x0E) →
    enteredPrecise s (takeTrap s ⟨c, v, false⟩) c v (if c.code = 0x01 then s.cur.npc else s.cur.pc)

/-- R215, R395: entry to the handler, by TRAP and by any precise trap on route H. -/
def Obligations.PreciseTrapEntersTheHandler : Prop :=
  Sys2Proof.Machine.TrapEntersTheHandler ∧ Sys2Proof.Machine.PreciseTrapEntry

/-- R390, R395: an imprecise trap on route H freezes the vector queue in place: the faulting entry stays at its head, FPEND and
IMP are set, sr.tvpc and HEAD name the entry, ELEM holds sr.estart, and sr.tepc the oldest scalar head not yet issued. -/
def Sys2Proof.Machine.ImpreciseTrapFreezesTheQueue : Prop :=
  ∀ (s : State) (c : Cause) (v : Word) (e : QEntry) (rest : List QEntry), s.cur.trap.hm = false → s.cur.trap.tvec ≠ 0 →
    s.cur.vq = e :: rest →
    (c.code = 0x03 ∨ c.code = 0x04 ∨ c.code = 0x09 ∨ c.code = 0x0A ∨ c.code = 0x0E) →
    let t := takeTrap s ⟨c, v, true⟩
    t.cur.pc = s.cur.trap.tvec ∧ t.cur.trap.hm = true ∧ t.cur.trap.imp = true ∧ t.cur.trap.fpend = true ∧
    t.cur.trap.cause = c ∧ t.cur.trap.tval = v ∧ t.cur.trap.tepc = s.cur.pc ∧ t.cur.trap.tvpc = e.pc ∧ t.cur.trap.head = e.head ∧
    t.cur.trap.elem = BitVec.ofNat 18 s.cur.unf.estart ∧ t.cur.vq = s.cur.vq ∧ t.cur.unf = s.cur.unf ∧ t.cur.resv = none ∧
    sameG s t ∧ sameVec s t ∧ sameFlags s t ∧ t.cur.accs = s.cur.accs ∧ sameMemory s t ∧ sameOthers s t

/-- R397, R405, R477: a trap in handler mode enters no handler: the hart is recorded with cause 0x12, the code of the second
fault as sub-cause and value, and its launch, not yet over, is over with status aborted and detail 0x12; every hart of it ends, each of its modules
being within reach (R478). -/
def Sys2Proof.Machine.TrapInHandlerModeEndsTheLaunch : Prop :=
  ∀ (s : State) (c : Cause) (v : Word) (imp : Bool) (l : Launch), s.cur.trap.hm = true → s.launch? s.cur.id.launch = some l →
    l.finished = false → l.closed = false → (∀ x, s.mod? s.cur.mod = some x → x.lost = []) →
    (∀ k ∈ l.pkt.ranks, k = s.cur.mod ∨ s.modRuns k = true) → l.pkt.ranks[s.cur.id.rank]? = some s.cur.mod →
    let t := takeTrap s ⟨c, v, imp⟩
    t.cur.phase = .ended ∧ t.cur.trap.cause = ⟨0x12, c.code⟩ ∧ t.cur.trap.tval = c.code.setWidth 64 ∧
    (∀ h ∈ t.harts, h.id.launch = s.cur.id.launch → h.id.rank < l.pkt.ranks.length → h.phase = .ended ∨ h.phase = .absent) ∧
    ∃ l', t.launch? s.cur.id.launch = some l' ∧ l'.finished = true ∧ l'.status.setWidth 16 = 0x1203 ∧ l'.unsure = [] ∧
      l'.endAt = if l.replicated.isSome then none else some s.tick

/-- R392, R405: outside handler mode a trap on route F, but for a forced save, saves the hart in place: it keeps its registers, its seat and its
accumulator tiles, the trap registers are recorded, the grant is pinned and the hart waits for the host's action. -/
def Sys2Proof.Machine.FirmwareRouteSavesInPlace : Prop :=
  ∀ (s : State) (c : Cause) (v : Word) (imp : Bool), s.cur.trap.hm = false →
    (c.code = 0x05 ∨ c.code = 0x06 ∨ c.code = 0x07 ∨ c.code = 0x08 ∨ c.code = 0x0B ∨ c.code = 0x0C ∨ c.code = 0x0D ∨ c.code = 0x0F) →
    let t := takeTrap s ⟨c, v, imp⟩
    t.cur.phase = .saved ∧ t.cur.needsAct = true ∧ t.cur.resv = none ∧ t.cur.trap.cause = c ∧ t.cur.trap.tval = v ∧
    t.cur.trap.hm = false ∧ t.cur.trap.pin = true ∧ t.cur.pc = s.cur.pc ∧ t.cur.seat = s.cur.seat ∧ t.cur.accs = s.cur.accs ∧
    t.cur.vq = s.cur.vq ∧ t.cur.cfg = s.cur.cfg ∧ sameG s t ∧ sameVec s t ∧ sameFlags s t ∧ sameMemory s t ∧ t.harts = s.harts

/-- R390, R395, R405: an imprecise trap on route H freezes the vector queue; a trap on route F saves the hart in place. -/
def Sys2Proof.Machine.FreezeAndFirmwareRoute : Prop :=
  Sys2Proof.Machine.ImpreciseTrapFreezesTheQueue ∧ Sys2Proof.Machine.FirmwareRouteSavesInPlace

/-- R390, R395 to R397, R405: the traps that no handler takes, those of the vector queue, and one in handler mode. -/
def Obligations.OtherTrapRoutes : Prop :=
  Sys2Proof.Machine.FreezeAndFirmwareRoute ∧ Sys2Proof.Machine.TrapInHandlerModeEndsTheLaunch

/-- R398: ERET in handler mode, its sr.tepc a head or 0, leaves handler mode, clears IMP and FPEND so that a frozen queue goes
on, and goes to sr.tepc; with 0 and an empty queue the hart ends. The other trap registers stay. -/
def Sys2Proof.Machine.ReturnFromTheHandler : Prop :=
  (∀ (p : Head) (s : State), s.clean = true → s.cur.trap.hm = true → s.cur.trap.tepc ≠ 0 → s.isHead s.cur.trap.tepc.toNat = true →
    ∃ t, exec (.eret p) s = .next t ∧ t.cur.pc = s.cur.trap.tepc ∧
      t.cur.trap = { s.cur.trap with hm := false, imp := false, fpend := false } ∧ t.cur.vq = s.cur.vq ∧ t.cur.unf = s.cur.unf ∧
      sameG s t ∧ sameVec s t ∧ sameFlags s t ∧ t.cur.accs = s.cur.accs ∧ t.cur.notice.pend = s.cur.notice.pend ∧
      t.cur.notice.left = s.cur.notice.left ∧ sameMemory s t ∧ sameOthers s t) ∧
  ∀ (p : Head) (s : State), s.clean = true → s.cur.trap.hm = true → s.cur.trap.tepc = 0 → s.cur.vq = [] → s.lostStore = none → s.stuck = none →
    ∃ t, exec (.eret p) s = .next t ∧ t.cur.phase = .ended ∧ t.cur.trap.hm = false ∧ t.cur.accs = []

/-- R215, R219, R220, R396: ERET, VSAVE, VRSTR and FRZ outside handler mode trap with 0x03.0B. -/
def Sys2Proof.Machine.HandlerOnlyInstructions : Prop :=
  ∀ (i : Instr) (s : State), s.cur.trap.hm = false → s.cur.trap.tvec ≠ 0 →
    ((∃ p, i = .eret p) ∨ (∃ p, i = .vsave p) ∨ (∃ p, i = .vrstr p) ∨ ∃ p, i = .frz p) →
    ∃ t, exec i s = .next t ∧ enteredPrecise s t ⟨0x03, 0x0B⟩ 0 s.cur.pc

/-- R215, R219, R220, R396, R398: ERET returns from the handler; outside handler mode it and the opaque-state instructions trap. -/
def Obligations.HandlerModeInstructions : Prop :=
  Sys2Proof.Machine.ReturnFromTheHandler ∧ Sys2Proof.Machine.HandlerOnlyInstructions

namespace Sys2Proof.Machine

/-- What SRR gives for each register of R77 to R87 and R394, field by field. -/
def srValue (s : State) (n : Nat) (v : Word) : Prop :=
  let h := s.cur
  let t := h.trap
  (n = 0x000 ∧ v = h.cfg.vl.setWidth 64) ∨
  (n = 0x001 ∧ v = BitVec.ofBool h.cfg.ill ++ BitVec.ofBool h.cfg.fresh ++ (0 : BitVec 50) ++ h.cfg.nregc ++ (0 : BitVec 2) ++ h.cfg.etype ++ (0 : BitVec 4)) ∨
  (n = 0x002 ∧ v.toNat = h.vlmax % 2 ^ 64) ∨ (n = 0x003 ∧ v.toNat = h.seat.lanes.length % 2 ^ 64) ∨
  (n = 0x004 ∧ v.toNat = h.unf.estart % 2 ^ 18) ∨
  (n = 0x005 ∧ v = BitVec.ofBool h.unf.valid ++ (0 : BitVec 12) ++ h.unf.acc ++ (0 : BitVec 1) ++ h.unf.rows ++ (0 : BitVec 8) ++ h.unf.kdone) ∨
  (n = 0x006 ∧ v = h.stream.bpos.setWidth 64) ∨
  (n = 0x007 ∧ v = (0 : BitVec 57) ++ BitVec.ofBool h.stream.bound ++ h.stream.cell) ∨
  (n = 0x008 ∧ (v.toNat / 2 ^ 63 = 1 ↔ h.notice.pend = true) ∧ v.toNat % 2 ^ 63 =
    if h.notice.pend = true ∧ t.hm = false then h.notice.left.toNat - s.since h.notice.since else h.notice.left.toNat) ∨
  (n = 0x009 ∧ ∃ l, s.launch? h.id.launch = some l ∧ h.id.rank < 64 ∧ h.seat.stage < 8 ∧ h.id.hidx < 8 ∧ l.pkt.hgt < 16 ∧ l.pkt.wid < 16 ∧
    h.id.y < 16 ∧ h.id.x < 16 ∧ v = (0 : BitVec 34) ++ BitVec.ofNat 6 h.id.rank ++ (0 : BitVec 1) ++ BitVec.ofNat 3 h.seat.stage ++
      (0 : BitVec 1) ++ BitVec.ofNat 3 h.id.hidx ++ BitVec.ofNat 4 l.pkt.hgt ++ BitVec.ofNat 4 l.pkt.wid ++ BitVec.ofNat 4 h.id.y ++ BitVec.ofNat 4 h.id.x) ∨
  (n = 0x00D ∧ v.toNat = s.cycle h.mod % 2 ^ 64) ∨
  (n = 0x00A ∧ v.toNat = h.accs.length % 2 ^ 64) ∨ (n = 0x00B ∧ v = h.aflags.setWidth 64) ∨ (n = 0x00C ∧ v = h.atp) ∨
  (n = 0x010 ∧ v = t.tvec) ∨
  (n = 0x011 ∧ v = (0 : BitVec 56) ++ BitVec.ofBool t.hm ++ BitVec.ofBool t.imp ++ BitVec.ofBool t.fpend ++ BitVec.ofBool t.pin ++ t.grnt) ∨
  (n = 0x012 ∧ v = t.tepc) ∨ (n = 0x013 ∧ v = (0 : BitVec 48) ++ t.cause.sub ++ t.cause.code) ∨ (n = 0x014 ∧ v = t.tval) ∨
  (n = 0x015 ∧ v = (0 : BitVec 14) ++ t.elem ++ (0 : BitVec 16) ++ t.head) ∨ (n = 0x016 ∧ v = t.tvpc) ∨
  (n = 0x017 ∧ v = t.scr0) ∨ (n = 0x018 ∧ v = t.scr1) ∨ (0x019 ≤ n ∧ n ≤ 0x01F ∧ v = 0)

end Sys2Proof.Machine

/-- R77 to R87, R394, R214: SRR completes for each of these registers and writes gd its fields, the reserved bits zero; it
changes nothing else. A number that is not assigned traps with 0x03.0A. -/
def Sys2Proof.Machine.StateRegisterReads : Prop :=
  (∀ (p : L) (s : State) (v : Word), p.imm.toNat < 4096 → s.clean = true → srValue s p.imm.toNat v →
    SetsG (.srr p) s p.d v ∧ onlyWrites (gd p.d) s (s.setG (gd p.d) v).completed) ∧
  ∀ (p : L) (s : State), (p.imm.toNat = 0x00E ∨ p.imm.toNat = 0x00F ∨ (0x020 ≤ p.imm.toNat ∧ p.imm.toNat < 4096)) →
    s.cur.trap.hm = false → s.cur.trap.tvec ≠ 0 →
    ∃ t, exec (.srr p) s = .next t ∧ enteredPrecise s t ⟨0x03, 0x0A⟩ 0 s.cur.pc

/-- R6, R77, R78, R86, R87, R394: SRW completes for every assigned register: sr.aflags loses the flags written as 1;
sr.aclaim takes fresh tiles, up to 8 and to what the core has free, or gives up the highest; outside handler mode every other write is discarded; in handler
mode the trap registers take their writable fields, and an sr.atp whose MODE is not 0xA is a second fault. The model's choices: sr.estart takes the low
18 bits (log 22), a write of sr.estart or sr.rowprog with no unfinished instruction has no effect (log 44), and under a frozen queue one of sr.atp
stands for good and one of sr.aclaim is made at once (log 30). -/
def Sys2Proof.Machine.StateRegisterWrites : Prop :=
  (∀ (p : L) (s : State), p.imm = 0x00B → ∃ t, exec (.srw p) s = .next t ∧
    (∀ k, k < 9 → t.cur.aflags.getLsbD k = (s.cur.aflags.getLsbD k && !(s.src p.a).getLsbD k)) ∧ sameG s t ∧ sameVec s t ∧ sameSpecial s t ∧ sameMemory s t) ∧
  (∀ (p : L) (s : State), p.imm = 0x00A → s.cur.vq = [] ∨ s.cur.frozen = true → ∃ t, exec (.srw p) s = .next t ∧
    (let req := min 8 ((s.src p.a).toNat % 16)
     let held := s.cur.accs.length
     let free := 8 - s.tilesHeld s.cur.mod s.cur.seat.core
     (req ≤ held → t.cur.accs = s.cur.accs.take req) ∧
     (held ≤ req → t.cur.accs.length = min req (held + free) ∧ t.cur.accs.take held = s.cur.accs ∧
       ∀ a ∈ t.cur.accs.drop held, a = Acc.fresh)) ∧
    sameG s t ∧ sameVec s t ∧ sameFlags s t ∧ t.cur.trap = s.cur.trap ∧ t.cur.cfg = s.cur.cfg ∧ sameMemory s t) ∧
  (∀ (p : L) (s : State), s.cur.trap.hm = false → p.imm ≠ 0x00A → p.imm ≠ 0x00B →
    (p.imm.toNat ≤ 0x00D ∨ (0x010 ≤ p.imm.toNat ∧ p.imm.toNat ≤ 0x01F)) → exec (.srw p) s = .next s.completed) ∧
  (∀ (p : L) (s : State), s.cur.trap.hm = true → p.imm = 0x00C → (s.src p.a).extractLsb' 60 4 = 0xA → s.nodesPending = false →
    s.cur.vq = [] → s.stuck = none → ∃ t, exec (.srw p) s = .next t ∧ t.cur.atp = (s.src p.a) &&& ~~~(0xF0000000000 : Word) ∧ sameG s t ∧ sameVec s t ∧ sameFlags s t ∧ t.cur.trap = s.cur.trap) ∧
  (∀ (p : L) (s : State), s.cur.trap.hm = true → s.cur.vq ≠ [] → p.imm = 0x004 → ∃ t, exec (.srw p) s = .next t ∧
    t.cur.unf = { s.cur.unf with estart := (s.src p.a).toNat % 2 ^ 18 } ∧ sameG s t ∧ sameVec s t ∧ sameSpecial s t ∧ sameFlags s t) ∧
  (∀ (p : L) (s : State), s.cur.trap.hm = true → s.cur.vq ≠ [] → p.imm = 0x005 → ∃ t, exec (.srw p) s = .next t ∧
    (let v := s.src p.a
     t.cur.unf = { s.cur.unf with
       valid := v.getLsbD 63, acc := v.extractLsb' 48 3, rows := v.extractLsb' 40 7, kdone := v.setWidth 32 }) ∧
    sameG s t ∧ sameVec s t ∧ sameSpecial s t ∧ sameFlags s t) ∧
  (∀ (p : L) (s : State), s.cur.trap.hm = true → (p.imm.toNat ≤ 0x003 ∨ (0x006 ≤ p.imm.toNat ∧ p.imm.toNat ≤ 0x009) ∨ p.imm = 0x00D ∨
      (s.cur.vq = [] ∧ (p.imm = 0x004 ∨ p.imm = 0x005))) →
    ∃ t, exec (.srw p) s = .next t ∧ t.cur.pc = s.cur.npc ∧ t.cur.unf = s.cur.unf ∧ sameG s t ∧ sameVec s t ∧ sameSpecial s t ∧ sameFlags s t ∧
      sameMemory s t) ∧
  (∀ (p : L) (s : State), p.imm = 0x00A → s.cur.vq ≠ [] → s.cur.frozen = false → exec (.srw p) s = .next s.stands) ∧
  (∀ (p : L) (s : State), s.cur.trap.hm = true → p.imm = 0x00C → (s.src p.a).extractLsb' 60 4 = 0xA →
    (s.nodesPending = true ∨ s.cur.vq ≠ [] → exec (.srw p) s = .next s.stands) ∧
    (∀ k, s.nodesPending = false → s.cur.vq = [] → s.stuck = some k → exec (.srw p) s = .next (s.heldBy k.1 k.2))) ∧
  (∀ (p : L) (s : State), s.cur.trap.hm = true → p.imm = 0x00C → (s.src p.a).extractLsb' 60 4 ≠ 0xA → ∃ t, exec (.srw p) s = .next t ∧
    t.cur.trap.cause = ⟨0x12, 0x03⟩ ∧ t.cur.trap.tval = 3 ∧ t.cur.atp = s.cur.atp ∧ sameG s t ∧ sameVec s t) ∧
  ∀ (p : L) (s : State), s.cur.trap.hm = true → 0x010 ≤ p.imm.toNat → p.imm.toNat ≤ 0x01F → ∃ t, exec (.srw p) s = .next t ∧
    t.cur.pc = s.cur.npc ∧ sameG s t ∧ sameVec s t ∧ sameFlags s t ∧ sameMemory s t ∧
    (p.imm = 0x010 → t.cur.trap = { s.cur.trap with tvec := (s.src p.a) &&& ~~~(1 : Word) }) ∧ (p.imm = 0x011 → t.cur.trap = s.cur.trap) ∧
    (p.imm = 0x012 → t.cur.trap = { s.cur.trap with tepc := s.src p.a }) ∧
    (p.imm = 0x013 → t.cur.trap = { s.cur.trap with cause := ⟨(s.src p.a).setWidth 8, (s.src p.a).extractLsb' 8 8⟩ }) ∧
    (p.imm = 0x014 → t.cur.trap = { s.cur.trap with tval := s.src p.a }) ∧
    (p.imm = 0x015 → t.cur.trap = { s.cur.trap with elem := (s.src p.a).extractLsb' 32 18, head := (s.src p.a).setWidth 16 }) ∧
    (p.imm = 0x016 → t.cur.trap = { s.cur.trap with tvpc := s.src p.a }) ∧ (p.imm = 0x017 → t.cur.trap = { s.cur.trap with scr0 := s.src p.a }) ∧
    (p.imm = 0x018 → t.cur.trap = { s.cur.trap with scr1 := s.src p.a }) ∧
    (0x019 ≤ p.imm.toNat → t.cur.trap = s.cur.trap)

/-- R213, R214: SRR and SRW, register by register. -/
def Obligations.StateRegisterResults : Prop :=
  Sys2Proof.Machine.StateRegisterReads ∧ Sys2Proof.Machine.StateRegisterWrites

/-- R57, R58, R218: YIELD of n elements, at most the VLMAX of one lane group, once the hart's queue and posted stores are done, saves the hart at its next head: elements and mask bits below n are
kept, those at or above n read zero, sr.vl is 0, and the notice, the reservation, the event bit and the pin clear; the scalar registers,
the configuration and the accumulator tiles are kept. -/
def Obligations.YieldSavesTheHart : Prop :=
  ∀ (p : R1) (s : State), let n := (s.src p.a).toNat
    n ≤ s.cur.cfg.vlmaxOf 1 → s.cur.vq = [] → s.lostStore = none → s.stuck = none →
    ∃ t, exec (.yield p) s = .next t ∧ t.cur.phase = .saved ∧ t.cur.pc = s.cur.npc ∧ t.cur.cfg = { s.cur.cfg with vl := 0 } ∧
      t.cur.notice.pend = false ∧ t.cur.resv = none ∧ t.cur.event = false ∧ t.cur.trap = { s.cur.trap with pin := false } ∧
      sameG s t ∧ sameFlags s t ∧ t.cur.accs = s.cur.accs ∧
      (∀ r i, i < n → t.cur.elem r i = s.cur.elem r i) ∧ (∀ r i, n ≤ i → t.cur.elem r i = 0) ∧
      (∀ q i, i < n → t.cur.maskBit q i = s.cur.maskBit q i) ∧ ∀ q i, n ≤ i → t.cur.maskBit q i = false

/-- R156 to R158: REL at module scope, and FENCE.STK on an address whose page translates, complete with every byte of the module's stacks (of the
address's stack) the same at the far point as at the near point; no byte that an observer reads at the near point changes. REL at
domain scope does so for every module and waits for no more once every store is acknowledged. REL at
hart scope does so for the stacks of its launch's modules; at the scopes within a module's cores it completes with the hart's posted stores
performed. ACQ at those has no effect of its own; at a scope with far units it orders as REL does. That hart scope takes in the stacks of its launch's
modules, and that ACQ at a far scope orders as REL does, are the model's choice (log 36); so is that all three stand under a frozen queue
(log 30). -/
def Obligations.ReleaseMakesTheFarPointCurrent : Prop :=
  (∀ (p : R1) (s : State), p.sf = 5 → s.memOk → s.cur.vq = [] → s.fabric = [] → ∃ t, exec (.rel p) s = .next t ∧ t.cur.pc = s.cur.npc ∧ sameG s t ∧ sameVec s t ∧
    (∀ a, t.byteAt a = s.byteAt a) ∧ ∀ a, a / 2 ^ 52 = s.cur.mod → a % 2 ^ 52 < 0xC000000000 → farByte t a = s.byteAt a) ∧
  (∀ (p : R1) (s : State), p.sf = 6 → s.memOk → s.cur.vq = [] → s.lostStore = none → s.fabric = [] → ∃ t, exec (.rel p) s = .next t ∧ t.cur.pc = s.cur.npc ∧
    sameG s t ∧ sameVec s t ∧ (∀ a, t.byteAt a = s.byteAt a) ∧ ∀ a, a % 2 ^ 52 < 0xC000000000 → farByte t a = s.byteAt a) ∧
  (∀ (p : R1) (s : State) (q : Phys) (k : Nat), s.memOk → s.cur.vq = [] → s.fabric = [] → s.translate (s.src p.a).toNat .load = .ok q → q.spot.kind = .hbm k → k < 12 →
    ∃ t, exec (.fenceStk p) s = .next t ∧ t.cur.pc = s.cur.npc ∧ sameG s t ∧ sameVec s t ∧ (∀ a, t.byteAt a = s.byteAt a) ∧
      ∀ a, a / 2 ^ 52 = q.spot.m → a % 2 ^ 52 / 0x1000000000 = k → farByte t a = s.byteAt a) ∧
  (∀ (p : R1) (s : State), p.sf = 0 → s.memOk → s.cur.vq = [] → s.fabric = [] → ∃ t, exec (.rel p) s = .next t ∧ t.cur.pc = s.cur.npc ∧ sameG s t ∧ sameVec s t ∧
    (∀ a, t.byteAt a = s.byteAt a) ∧
      ∀ a, a / 2 ^ 52 ∈ s.ranksOf s.cur → a % 2 ^ 52 < 0xC000000000 → farByte t a = s.byteAt a) ∧
  (∀ (p : R1) (s : State), s.cur.vq ≠ [] →
    exec (.rel p) s = .next s.stands ∧ exec (.acq p) s = .next s.stands ∧ exec (.fenceStk p) s = .next s.stands) ∧
  (∀ (p : R1) (s : State), s.cur.vq = [] → p.sf = 1 ∨ p.sf = 2 ∨ p.sf = 3 →
    (s.stuck = none → exec (.rel p) s = .next s.settle.completed) ∧ exec (.acq p) s = .next s.completed) ∧
  ∀ (p : R1) (s : State), p.sf ≠ 1 → p.sf ≠ 2 → p.sf ≠ 3 → exec (.acq p) s = exec (.rel p) s

/-- R219, R400, R401: VSAVE in handler mode at a 4,096-aligned address whose pages translate and are not D memory completes: gd
takes the frame's size, at most 524,288, the record keeps the vector state as it was, and the hart's vector queue and registers
are empty. VRSTR of a frame whose header and CHECK pass and whose body a VSAVE of the hart wrote restores the queue, the lanes and the tiles that the
body holds, and sr.estart, sr.rowprog, sr.vl, sr.vtype, sr.bpos and sr.bcell as the header has them, with FPEND = 1. FRZ in handler mode of
an enabled launch freezes its module with source 1 and does not retire. The frame's length and body bytes are free values (log 15). -/
def Obligations.OpaqueFramesAndFreeze : Prop :=
  (∀ (p : R1) (s : State) (ps : List (Phys × Nat)), let va := (s.src p.a).toNat
    let size := 64 * (1 + Config.frameBlocks s.free % 8192)
    s.cur.trap.hm = true → va % 4096 = 0 → s.transRange va size .store = .ok ps → (ps.any (fun q => q.1.dclass)) = false →
    size ≤ 524288 ∧
    ∃ t, exec (.vsave p) s = .next t ∧ t.cur.pc = s.cur.npc ∧ (gd p.d ≠ 0 → t.cur.greg (gd p.d) = BitVec.ofNat 64 size) ∧
      t.cur.vq = [] ∧ t.cur.trap = { s.cur.trap with fpend := false } ∧ t.cur.cfg.vl = 0 ∧ t.cur.unf = Unfinished.none ∧
      (∀ r i, t.cur.elem r i = 0) ∧ (∀ q i, t.cur.maskBit q i = false) ∧ t.cur.accs = s.cur.accs ∧
      ∃ f rest, t.frames = f :: rest ∧ f.hart = s.cur.id ∧ f.size = size ∧ f.vec = s.cur.vec ∧ f.mask = s.cur.mask ∧ f.accs = s.cur.accs ∧
        f.vq = s.cur.vq ∧ f.moved = s.cur.moved ∧ f.unf = s.cur.unf ∧ f.cfg = s.cur.cfg ∧ f.aflags = s.cur.aflags) ∧
  (∀ (p : R1) (s : State) (ps qs : List (Phys × Nat)) (hd all : List Byte) (f : Frame), let va := (s.src p.a).toNat
    let size := leNat (hd.take 8) % 2 ^ 48
    let w := fun (k : Nat) => leNat ((all.drop (8 * k)).take 8)
    s.cur.trap.hm = true → (s.cur.vq = [] ∨ s.cur.trap.fpend = true) → s.posted = false → va % 4096 = 0 → s.transRange va 64 .load = .ok ps → (ps.any (fun q => q.1.dclass)) = false →
    s.readRuns false ps = .ok hd → headerOk s.cur hd = true → s.transRange va size .load = .ok qs →
    (qs.any (fun q => q.1.dclass)) = false → s.readRuns false qs = .ok all → w 7 = frameCheck all (all.drop 64) →
    s.frames.find? (fun g => decide (g.hart = s.cur.id) && g.size == size && (all.drop 64 == frameBody g.n size)) = some f →
    ∃ t, exec (.vrstr p) s = .next t ∧ t.cur.pc = s.cur.npc ∧ t.cur.vec = f.vec ∧ t.cur.mask = f.mask ∧ t.cur.accs = f.accs ∧ t.cur.vq = f.vq ∧
      t.cur.aflags = f.aflags ∧ t.cur.unf.estart = w 2 % 2 ^ 18 ∧ t.cur.unf.valid = (w 3).testBit 63 ∧ t.cur.unf.acc.toNat = w 3 / 2 ^ 48 % 8 ∧
      t.cur.unf.rows.toNat = w 3 / 2 ^ 40 % 128 ∧ t.cur.unf.kdone.toNat = w 3 % 2 ^ 32 ∧ t.cur.cfg.vl.toNat = w 4 % 2 ^ 18 ∧
      t.cur.cfg.nregc.toNat = w 1 / 2 ^ 10 % 4 ∧ t.cur.cfg.etype.toNat = w 1 / 2 ^ 4 % 16 ∧ t.cur.stream.bpos.toNat = w 5 % 2 ^ 63 ∧
      t.cur.stream.bound = (w 6).testBit 6 ∧ t.cur.stream.cell.toNat = w 6 % 64 ∧
      t.cur.trap = { s.cur.trap with fpend := true } ∧ sameG s t ∧ sameMemory s t ∧ sameOthers s t) ∧
  ∀ (p : Head) (s : State) (l : Launch) (x : Module), s.cur.trap.hm = true → s.launch? s.cur.id.launch = some l → l.frz = true →
    s.mod? s.cur.mod = some x → x.frozen = false →
    ∃ t, exec (.frz p) s = .next t ∧ t.cur = s.cur ∧ t.mod? s.cur.mod = some { x with frozen := true, source := 1 } ∧
      (∀ m, m ≠ s.cur.mod → t.mod? m = s.mod? m) ∧ sameMemory s t

/-! ### Near vector instructions: arithmetic, masks, reductions, permutes -/

namespace Sys2Proof.Machine

/-- A two-source float instruction of R232 completes on a configured hart whose element type is a float and whose registers
lie below NREG: each active element takes its rounded result, the flags are those of the active elements, all else stays. -/
def WritesFloat2 (c : R2 → Instr) (f : FT → Nat → Nat → Nat → Nat × Flags) : Prop :=
  ∀ (p : R2) (s : State), s.vecReady → s.isFloat = true → s.destOk p.d = true → s.nearOk p.a = true → s.nearOk p.b = true →
    let r := fun i => f s.ft 0 (s.vsrcF s.ft p.a p.lit i) (s.vsrcF s.ft p.b p.lit i)
    ∃ t, exec (c p) s = .next t ∧ wroteElems s t p.d (s.performs p.msk) (fun i => (r i).1) ∧
      raisedBy s t (s.performs p.msk) (fun i => (r i).2) ∧ t.cur.mask = s.cur.mask ∧ vecFrame s t

/-- The same of a one-source float instruction. -/
def WritesFloat1 (c : R2 → Instr) (f : FT → Nat → Nat → Nat × Flags) : Prop :=
  ∀ (p : R2) (s : State), s.vecReady → s.isFloat = true → s.destOk p.d = true → s.nearOk p.a = true →
    let r := fun i => f s.ft 0 (s.vsrcF s.ft p.a p.lit i)
    ∃ t, exec (c p) s = .next t ∧ wroteElems s t p.d (s.performs p.msk) (fun i => (r i).1) ∧
      raisedBy s t (s.performs p.msk) (fun i => (r i).2) ∧ t.cur.mask = s.cur.mask ∧ vecFrame s t

/-- The same of a three-source float instruction, under RM. -/
def WritesFloat3 (c : R3 → Instr) (f : FT → Nat → Nat → Nat → Nat → Nat × Flags) : Prop :=
  ∀ (p : R3) (s : State), s.vecReady → s.isFloat = true → s.destOk p.d = true → s.nearOk p.a = true → s.nearOk p.b = true →
    s.nearOk p.c = true →
    let r := fun i => f s.ft p.rm.toNat (s.vsrcF s.ft p.a none i) (s.vsrcF s.ft p.b none i) (s.vsrcF s.ft p.c none i)
    ∃ t, exec (c p) s = .next t ∧ wroteElems s t p.d (s.performs p.msk) (fun i => (r i).1) ∧
      raisedBy s t (s.performs p.msk) (fun i => (r i).2) ∧ t.cur.mask = s.cur.mask ∧ vecFrame s t

/-- An integer instruction of R236 completes on an integer element type: each active element takes the result of its bit
vectors of SEW bits; no flag changes. -/
def WritesVecInt (c : R2 → Instr) (f : (w : Nat) → BitVec 4 → BitVec w → BitVec w → BitVec w) : Prop :=
  ∀ (p : R2) (s : State), s.vecReady → s.isInt = true → s.destOk p.d = true → s.nearOk p.a = true → s.nearOk p.b = true →
    ∃ t, exec (c p) s = .next t ∧ wroteElems s t p.d (s.performs p.msk) (fun i =>
        (f s.cur.cfg.sew p.sf (BitVec.ofNat _ (s.vsrc p.a p.lit i)) (BitVec.ofNat _ (s.vsrc p.b p.lit i))).toNat) ∧
      sameFlags s t ∧ t.cur.mask = s.cur.mask ∧ vecFrame s t

/-- A sum wrapped, or clamped under SAT to the signed or the unsigned range (R236). -/
def satSum (w : Nat) (sf : BitVec 4) (si ui : Int) : BitVec w :=
  if sf.getLsbD 1 then BitVec.ofInt w (if sf.getLsbD 0 then max 0 (min (2 ^ w - 1) ui) else max (-2 ^ (w - 1)) (min (2 ^ (w - 1) - 1) si))
  else BitVec.ofInt w si

/-- The integer operations of R236 on vectors of SEW bits; SF[0] is U, SF[1] SAT. -/
def bvAdd (w : Nat) (sf : BitVec 4) (x y : BitVec w) : BitVec w := satSum w sf (x.toInt + y.toInt) (x.toNat + y.toNat)
/-- VISUB. -/
def bvSub (w : Nat) (sf : BitVec 4) (x y : BitVec w) : BitVec w := satSum w sf (x.toInt - y.toInt) ((x.toNat : Int) - y.toNat)
/-- VIMUL. -/
def bvMul (w : Nat) (_ : BitVec 4) (x y : BitVec w) : BitVec w := x * y
/-- VIMULH. -/
def bvMulh (w : Nat) (sf : BitVec 4) (x y : BitVec w) : BitVec w :=
  BitVec.ofInt w ((if sf.getLsbD 0 then (x.toNat * y.toNat : Int) else x.toInt * y.toInt) / 2 ^ w)
/-- VAND. -/
def bvAnd (w : Nat) (_ : BitVec 4) (x y : BitVec w) : BitVec w := x &&& y
/-- VOR. -/
def bvOr (w : Nat) (_ : BitVec 4) (x y : BitVec w) : BitVec w := x ||| y
/-- VXOR. -/
def bvXor (w : Nat) (_ : BitVec 4) (x y : BitVec w) : BitVec w := x ^^^ y
/-- VSHL. -/
def bvShl (w : Nat) (_ : BitVec 4) (x y : BitVec w) : BitVec w := x <<< (y.toNat % w)
/-- VSHR. -/
def bvShr (w : Nat) (_ : BitVec 4) (x y : BitVec w) : BitVec w := x >>> (y.toNat % w)
/-- VSRA. -/
def bvSra (w : Nat) (_ : BitVec 4) (x y : BitVec w) : BitVec w := x.sshiftRight (y.toNat % w)
/-- VIMIN. -/
def bvMin (w : Nat) (sf : BitVec 4) (x y : BitVec w) : BitVec w := if (if sf.getLsbD 0 then x.ule y else x.sle y) then x else y
/-- VIMAX. -/
def bvMax (w : Nat) (sf : BitVec 4) (x y : BitVec w) : BitVec w := if (if sf.getLsbD 0 then x.ule y else x.sle y) then y else x

/-- Active elements below `i` (R241, R247). -/
def State.activeBelow (s : State) (m : Mk) (i : Nat) : Nat := (List.range i).countP (fun j => s.activeAt m j)

end Sys2Proof.Machine

/-- R222, R232, R233: the near float instructions, element by element. -/
def Obligations.VectorFloatResults : Prop :=
  WritesFloat2 .vadd eAdd ∧ WritesFloat2 .vsub eSub ∧ WritesFloat2 .vmul eMul ∧ WritesFloat2 .vdiv eDiv ∧ WritesFloat2 .vmin eMin ∧
  WritesFloat2 .vmax eMax ∧ WritesFloat3 .vfma eFma ∧ WritesFloat3 .vfms eFms ∧ WritesFloat3 .vnfma eNfma ∧
  WritesFloat1 .vsqrt eSqrt ∧ WritesFloat1 .vrsqrt eRsqrt ∧ WritesFloat1 .vexp2 eExp2 ∧ WritesFloat1 .vlog2 eLog2 ∧
  WritesFloat1 .vabs eAbs ∧ WritesFloat1 .vneg eNeg

/-- R222, R236: the near integer instructions, element by element, as operations on bit vectors of SEW bits. -/
def Obligations.VectorIntegerResults : Prop :=
  WritesVecInt .viadd bvAdd ∧ WritesVecInt .visub bvSub ∧ WritesVecInt .vimul bvMul ∧ WritesVecInt .vimulh bvMulh ∧
  WritesVecInt .vand bvAnd ∧ WritesVecInt .vor bvOr ∧ WritesVecInt .vxor bvXor ∧ WritesVecInt .vshl bvShl ∧ WritesVecInt .vshr bvShr ∧
  WritesVecInt .vsra bvSra ∧ WritesVecInt .vimin bvMin ∧ WritesVecInt .vimax bvMax

/-- R234, R235, R240, R241: VCVT converts each active element between register groups; VCLASS writes the class word; VSEL copies a where
the mask bit is 1 in the written sense and b elsewhere; VIOTA adds the number of active elements below. VCLASS, VSEL and VIOTA set no flag. -/
def Obligations.ConvertClassSelectResults : Prop :=
  (∀ (p : R3) (s : State), s.executes = true → s.clean = true → noCond (vcvtConds s p) →
    let f := fun i => cvtElem p.cvF p.cvT p.sf.toNat p.rm.toNat (s.cvtSrc p i)
    exec (.vcvt p) s = .next ((s.raise (orFlags ((s.pending p.msk).map (fun i => (f i).2)))).writeGroupV (vd p.d) (s.ratio p.cvT)
      ((s.pending p.msk).map (fun i => (i, (f i).1)))).completedV) ∧
  (∀ (p : R2) (s : State), s.vecReady → s.destOk p.d = true → s.nearOk p.a = true →
    (s.cur.cfg.etype = 2 → ∃ t, exec (.vclass p) s = .next t ∧
      wroteElems s t p.d (s.performs p.msk) (fun i => 2 ^ classBit 8 23 (s.vsrcF .fp32 p.a none i)) ∧ sameFlags s t ∧ t.cur.mask = s.cur.mask ∧ vecFrame s t) ∧
    (s.cur.cfg.etype = 1 → ∃ t, exec (.vclass p) s = .next t ∧
      wroteElems s t p.d (s.performs p.msk) (fun i => 2 ^ classBit 8 7 (s.vsrcF .bf16 p.a none i)) ∧ sameFlags s t ∧ t.cur.mask = s.cur.mask ∧ vecFrame s t)) ∧
  (∀ (p : R2) (s : State), s.vecReady → s.destOk p.d = true → s.nearOk p.a = true → s.nearOk p.b = true → p.msk.mode = 1 ∨ p.msk.mode = 2 →
    ∃ t, exec (.vsel p) s = .next t ∧
      wroteElems s t p.d (fun i => i < s.cur.cfg.vl.toNat ∧ s.cur.unf.estart ≤ i) (fun i =>
        if s.cur.maskBit ⟨p.msk.q.toNat, p.msk.q.isLt⟩ i = decide (p.msk.mode = 1) then s.vsrc p.a p.lit i else s.vsrc p.b p.lit i) ∧
      sameFlags s t ∧ t.cur.mask = s.cur.mask ∧ vecFrame s t) ∧
  ∀ (p : R2) (s : State), s.vecReady → s.isInt = true → s.destOk p.d = true → s.nearOk p.a = true →
    ∃ t, exec (.viota p) s = .next t ∧ wroteElems s t p.d (s.performs p.msk) (fun i => s.vsrc p.a none i + s.activeBelow p.msk i) ∧
      sameFlags s t ∧ t.cur.mask = s.cur.mask ∧ vecFrame s t

/-- R238, R239: VCMP writes the mask bits of the active elements, signed or unsigned for integers, ordered with NV for floats; QAND,
QOR and QNOT write the bits below sr.vl; QPOP counts them and QFIRST finds the least, 2^64 − 1 when there is none. -/
def Sys2Proof.Machine.CompareAndMaskResults : Prop :=
  (∀ (p : R2) (s : State), s.vecReady → s.nearOk p.a = true → s.nearOk p.b = true → s.isInt = true → p.sf.toNat % 8 < 6 →
    let w := s.cur.cfg.sew
    let x := fun i => BitVec.ofNat w (s.vsrc p.a p.lit i)
    let y := fun i => BitVec.ofNat w (s.vsrc p.b p.lit i)
    let le := fun i => if p.sf.getLsbD 3 then (x i).ule (y i) else (x i).sle (y i)
    let ge := fun i => if p.sf.getLsbD 3 then (y i).ule (x i) else (y i).sle (x i)
    ∃ t, exec (.vcmp p) s = .next t ∧ wroteMask s t p.d (s.performs p.msk) (fun i =>
        match p.sf.toNat % 8 with
        | 0 => le i && ge i
        | 1 => !(le i && ge i)
        | 2 => !ge i
        | 3 => le i
        | 4 => !le i
        | _ => ge i) ∧ sameFlags s t ∧ t.cur.vec = s.cur.vec ∧ vecFrame s t) ∧
  (∀ (p : R2) (s : State), s.vecReady → s.nearOk p.a = true → s.nearOk p.b = true → s.isFloat = true → p.sf.toNat < 7 →
    ∃ t, exec (.vcmp p) s = .next t ∧
      wroteMask s t p.d (s.performs p.msk) (fun i => (cmpFloat s.ft p.sf.toNat (s.vsrc p.a p.lit i) (s.vsrc p.b p.lit i)).1) ∧
      raisedBy s t (s.performs p.msk) (fun i => (cmpFloat s.ft p.sf.toNat (s.vsrc p.a p.lit i) (s.vsrc p.b p.lit i)).2) ∧
      t.cur.vec = s.cur.vec ∧ vecFrame s t) ∧
  (∀ (p : Q) (s : State), s.vecReady →
    let P := fun i => i < s.cur.cfg.vl.toNat ∧ s.cur.unf.estart ≤ i
    (∃ t, exec (.qand p) s = .next t ∧ wroteMask s t p.d P (fun i => s.cur.maskBit (qf p.qa) i && s.cur.maskBit (qf p.qb) i) ∧
      t.cur.vec = s.cur.vec ∧ sameFlags s t ∧ vecFrame s t) ∧
    (∃ t, exec (.qor p) s = .next t ∧ wroteMask s t p.d P (fun i => s.cur.maskBit (qf p.qa) i || s.cur.maskBit (qf p.qb) i) ∧
      t.cur.vec = s.cur.vec ∧ sameFlags s t ∧ vecFrame s t) ∧
    ∃ t, exec (.qnot p) s = .next t ∧ wroteMask s t p.d P (fun i => !s.cur.maskBit (qf p.qa) i) ∧
      t.cur.vec = s.cur.vec ∧ sameFlags s t ∧ vecFrame s t) ∧
  ∀ (p : Q) (s : State), s.vecReady →
    exec (.qpop p) s = .next (s.setG (gd p.d) (BitVec.ofNat 64 ((List.range s.cur.cfg.vl.toNat).countP (s.cur.maskBit (qf p.qa))))).completedV ∧
    (∀ k, k < s.cur.cfg.vl.toNat → s.cur.maskBit (qf p.qa) k = true → (∀ j, j < k → s.cur.maskBit (qf p.qa) j = false) →
      exec (.qfirst p) s = .next (s.setG (gd p.d) (BitVec.ofNat 64 k)).completedV) ∧
    ((∀ j, j < s.cur.cfg.vl.toNat → s.cur.maskBit (qf p.qa) j = false) →
      exec (.qfirst p) s = .next (s.setG (gd p.d) (BitVec.allOnes 64)).completedV)

namespace Sys2Proof.Machine

/-- The accumulation of R243 over the active elements below `n`: value and flags, rounded at every step. -/
def State.reduceBelow (s : State) (op : Nat) (a : S10) (lit : Option (BitVec 32)) (m : Mk) (init n : Nat) : Nat × Flags :=
  ((List.range n).filter (fun i => s.activeAt m i)).foldl (fun acc i =>
    let r := redStep s.isFloat s.ft s.cur.cfg.sew op acc.1 (s.vsrc a lit i)
    (r.1, acc.2 ||| r.2)) (init, 0)

/-- A full binary tree of rounded sums over leaves in this order has this value and raises these flags (R244). -/
inductive SumTree (t : FT) : List Nat → Nat → Flags → Prop where
  | leaf (x : Nat) : SumTree t [x] x 0
  | node {xs ys : List Nat} {x y : Nat} {f g : Flags} : SumTree t xs x f → SumTree t ys y g →
      SumTree t (xs ++ ys) (eAdd t 0 x y).1 (f ||| g ||| (eAdd t 0 x y).2)

/-- Element 0 of the destination takes the value, and the flags are raised; with sr.vl = 0 nothing is written (R243). -/
def firstWritten (s t : State) (d : BitVec 6) (r : Nat × Flags) : Prop :=
  wroteElems s t d (fun i => i = 0 ∧ 0 < s.cur.cfg.vl.toNat) (fun _ => r.1) ∧
  t.cur.aflags = (if s.cur.cfg.vl.toNat = 0 then s.cur.aflags else s.cur.aflags ||| r.2) ∧ t.cur.mask = s.cur.mask ∧ vecFrame s t

end Sys2Proof.Machine

/-- R242 to R245: VREDO accumulates the active elements in ascending order; VRED gives VREDO's result but for a float sum, whose value is
that of some full binary tree over b[0] and the active elements in some order; VSCAN writes each active element its inclusive or
exclusive prefix. Which tree VRED takes is a free value (log 14). -/
def Sys2Proof.Machine.ReductionResults : Prop :=
  ∀ (p : R2) (s : State), s.vecReady → s.destOk p.d = true → s.nearOk p.a = true → s.nearOk p.b = true →
    (s.isInt = true ∨ (s.isFloat = true ∧ p.sf.toNat % 8 ≤ 2)) →
    let vl := s.cur.cfg.vl.toNat
    let b0 := s.vsrc p.b none 0
    (∃ t, exec (.vredo p) s = .next t ∧ firstWritten s t p.d (s.reduceBelow (p.sf.toNat % 8) p.a none p.msk b0 vl)) ∧
    (¬ (s.isFloat = true ∧ p.sf.toNat % 8 = 0) →
      ∃ t, exec (.vred p) s = .next t ∧ firstWritten s t p.d (s.reduceBelow (p.sf.toNat % 8) p.a none p.msk b0 vl)) ∧
    (s.isFloat = true → p.sf.toNat % 8 = 0 → ∃ t xs v fl, exec (.vred p) s = .next t ∧
      xs.Perm (b0 :: ((List.range vl).filter (fun i => s.activeAt p.msk i)).map (fun i => s.vsrc p.a none i)) ∧ SumTree s.ft xs v fl ∧ firstWritten s t p.d (v, fl)) ∧
    ∃ t, exec (.vscan p) s = .next t ∧
      wroteElems s t p.d (fun i => s.activeAt p.msk i = true) (fun i =>
        (s.reduceBelow (p.sf.toNat % 8) p.a p.lit p.msk (s.vsrc p.b p.lit 0) (if p.sf.getLsbD 3 then i else i + 1)).1) ∧
      t.cur.aflags = s.cur.aflags ||| (s.reduceBelow (p.sf.toNat % 8) p.a p.lit p.msk (s.vsrc p.b p.lit 0) vl).2 ∧ t.cur.mask = s.cur.mask ∧ vecFrame s t

/-- R238, R239, R242 to R245: the compares, the mask instructions and the reductions. -/
def Obligations.MaskAndReductionResults : Prop :=
  Sys2Proof.Machine.CompareAndMaskResults ∧ Sys2Proof.Machine.ReductionResults

/-- R246 to R249: VPERM, VSLIDE and VBCAST copy the element that their index names, 0 at or above sr.vl; VCOMPRESS and VEXPAND move
between active positions and the front; VEXT and VINS read and write one element; VDUPM counts earlier occurrences. No flag. That a VBCAST whose
index is a vector register takes the index of each element from it is the model's choice (log 32). -/
def Sys2Proof.Machine.PermuteResults : Prop :=
  ∀ (p : R2) (s : State), s.vecReady →
    let vl := s.cur.cfg.vl.toNat
    let at0 := fun (k : Int) => if 0 ≤ k ∧ k < vl then s.cur.elem p.a.vidx k.toNat else 0
    let done := fun (t : State) => t.cur.mask = s.cur.mask ∧ sameFlags s t ∧ vecFrame s t
    (s.destOk p.d = true → p.a.tag = 0 → s.nearOk p.a = true →
      (s.nearOk p.b = true → ∃ t, exec (.vperm p) s = .next t ∧ wroteElems s t p.d (s.performs p.msk) (fun i => at0 (s.vsrc p.b p.lit i)) ∧ done t) ∧
      (∃ t, exec (.vslide p) s = .next t ∧ wroteElems s t p.d (s.performs p.msk) (fun i => at0 (i + (s.src p.b p.lit).toInt)) ∧ done t) ∧
      (p.b.tag ≠ 0 → ∃ t, exec (.vbcast p) s = .next t ∧ wroteElems s t p.d (s.performs p.msk) (fun _ => at0 (s.src p.b p.lit).toNat) ∧ done t) ∧
      (p.b.tag = 0 → s.nearOk p.b = true →
        ∃ t, exec (.vbcast p) s = .next t ∧ wroteElems s t p.d (s.performs p.msk) (fun i => at0 (s.cur.elem p.b.vidx i)) ∧ done t) ∧
      (∃ t, exec (.vcompress p) s = .next t ∧
        (∀ i, s.performs p.msk i → t.cur.elem (vd p.d) (s.activeBelow p.msk i) = s.cur.elem p.a.vidx i) ∧
        (∀ k, (∀ i, s.performs p.msk i → s.activeBelow p.msk i ≠ k) → t.cur.elem (vd p.d) k = s.cur.elem (vd p.d) k) ∧
        (∀ r, r ≠ vd p.d → t.cur.vec[r] = s.cur.vec[r]) ∧ done t) ∧
      (∃ t, exec (.vexpand p) s = .next t ∧ wroteElems s t p.d (s.performs p.msk) (fun i => s.cur.elem p.a.vidx (s.activeBelow p.msk i)) ∧ done t) ∧
      ∃ t, exec (.vdupm p) s = .next t ∧ wroteElems s t p.d (fun i => s.activeAt p.msk i = true) (fun i =>
        (List.range i).countP (fun j => s.activeAt p.msk j && decide (s.cur.elem p.a.vidx j = s.cur.elem p.a.vidx i))) ∧ done t) ∧
    (s.destOk p.d = true → p.a.tag ≠ 0 → ∃ t, exec (.vbcast p) s = .next t ∧ wroteElems s t p.d (s.performs p.msk) (fun i => s.vsrc p.a p.lit i) ∧ done t) ∧
    (s.destOk p.d = true → ∃ t, exec (.vins p) s = .next t ∧
      wroteElems s t p.d (fun i => i = (s.src p.b p.lit).toNat ∧ i < vl) (fun _ => (s.src p.a p.lit).toNat) ∧ done t) ∧
    (p.a.tag = 0 → s.nearOk p.a = true → let k := (s.src p.b p.lit).toNat
      exec (.vext p) s = .next (s.setG (gd p.d) (if k < vl then
          (if s.isFloat || p.sf.getLsbD 0 then BitVec.ofNat 64 (s.cur.elem p.a.vidx k)
           else (BitVec.ofNat s.cur.cfg.sew (s.cur.elem p.a.vidx k)).signExtend 64)
        else 0)).completedV)

/-- R250 to R252: VSORTK writes the active indexes in a stable ascending order of their keys, and adds each bucket's count to its word as
`addCounts` does; VTOPK writes the first k indexes of the ranking of R251. The elements beyond them stay. -/
def Sys2Proof.Machine.SortAndTopResults : Prop :=
  (∀ (p : R3) (s u : State), s.vecReady → s.destOk p.d = true → p.a.tag = 0 → s.nearOk p.a = true → 5 ≤ s.cur.cfg.etype.toNat → s.cur.cfg.etype.toNat ≤ 7 →
    (p.imm = 0 ∨ (s.src p.b).toNat % 4 = 0) →
    let key := fun i => s.cur.elem p.a.vidx i
    addCounts s (s.src p.b).toNat (bucketCounts p.imm.toNat ((s.actives p.msk).map key)) = .ok u →
    ∃ (t : State) (L : List Nat), exec (.vsortk p) s = .next t ∧ L.Perm (s.actives p.msk) ∧ L.Pairwise (fun i j => key i < key j ∨ (key i = key j ∧ i < j)) ∧
      wroteElems s t p.d (fun q => q < L.length) (fun q => L.getD q 0) ∧ t.dram = u.dram ∧ t.near = u.near ∧ t.msc = u.msc ∧ t.fabric = u.fabric ∧
      sameFlags s t ∧ sameG s t ∧ t.cur.mask = s.cur.mask ∧ finishes s t) ∧
  ∀ (p : R3) (s : State), s.vecReady → s.destOk p.d = true → p.a.tag = 0 → s.nearOk p.a = true → s.cur.cfg.etype ≠ 4 →
    ¬ (s.isFloat = true ∧ p.sf.getLsbD 1 = true) →
    let before := fun i j => topBefore s.isFloat s.ft s.cur.cfg.sew (p.sf.getLsbD 0) (p.sf.getLsbD 1) (s.cur.elem p.a.vidx i) (s.cur.elem p.a.vidx j)
    ∃ (t : State) (L : List Nat), exec (.vtopk p) s = .next t ∧ L.Perm (s.actives p.msk) ∧ L.Pairwise (fun i j => before i j = true ∨ (before j i = false ∧ i < j)) ∧
      wroteElems s t p.d (fun q => q < L.length ∧ q < (s.src p.b).toNat) (fun q => L.getD q 0) ∧ sameFlags s t ∧ t.cur.mask = s.cur.mask ∧ vecFrame s t

/-- R246 to R252: the permutes, sorts and top-k. -/
def Obligations.PermuteAndSortResults : Prop :=
  Sys2Proof.Machine.PermuteResults ∧ Sys2Proof.Machine.SortAndTopResults


/-! ### Vector configuration, streams and frames -/

/-- R72, R73, R225: VCFG with 8, 16, 32 or 64 registers and a legal element type completes: the type and NREG are set, ILL clears, FRESH
stays, sr.vl is 0 and gd takes the new VLMAX. A change of NREG leaves every register and mask zero; otherwise every register keeps its
bits, and every mask its bits at positions below both the old and the new VLMAX; the others below the new VLMAX are free values (log 55). -/
def Sys2Proof.Machine.VectorConfigurationResults : Prop :=
  ∀ (p : R1) (s : State) (k : Nat), s.executes = true → (s.src p.a).toNat = 8 * 2 ^ k → k < 4 →
    let c : VCfg := ⟨0, false, s.cur.cfg.fresh, BitVec.ofNat 2 k, p.sf⟩
    ∃ t, exec (.vcfg p) s = .next t ∧ t.cur.cfg = c ∧ finishes s t ∧ sameGBut (gd p.d) s t ∧
      (gd p.d ≠ 0 → (t.cur.greg (gd p.d)).toNat = s.cur.grant * 131072 / (8 * 2 ^ k) / sewOf p.sf.toNat % 2 ^ 64) ∧
      (k ≠ s.cur.cfg.nregc.toNat → (∀ r i, t.cur.elem r i = 0) ∧ ∀ q i, t.cur.maskBit q i = false) ∧
      (k = s.cur.cfg.nregc.toNat → t.cur.vec = s.cur.vec ∧
        ∀ q i, (i < s.cur.vlmax → i < c.vlmaxOf s.cur.grant → t.cur.maskBit q i = s.cur.maskBit q i) ∧
          (c.vlmaxOf s.cur.grant ≤ i → t.cur.maskBit q i = false)) ∧
      t.cur.accs = s.cur.accs ∧ t.cur.stream = s.cur.stream ∧ t.cur.trap = s.cur.trap ∧ sameFlags s t ∧ sameMemory s t ∧ sameOthers s t

namespace Sys2Proof.Machine

/-- What VSETL does once the grant rule is past (R52, R226): it gives `n` elements, the binding advanced to `pos`. -/
def setlGives (s t : State) (d : BitVec 6) (n : Nat) (pos : BitVec 63) : Prop :=
  t.cur.cfg = { s.cur.cfg with vl := BitVec.ofNat 18 n, fresh := false } ∧ t.cur.stream = { s.cur.stream with bpos := pos } ∧
  (gd d ≠ 0 → t.cur.greg (gd d) = BitVec.ofNat 64 n) ∧ sameGBut (gd d) s t ∧ t.cur.accs = s.cur.accs ∧ sameFlags s t ∧
  t.cur.trap = s.cur.trap ∧ sameMemory s t ∧ finishes s t

end Sys2Proof.Machine

/-- R52, R56, R90, R226: VSETL of a hart that is not in a pipeline: under a notice outside handler mode it gives 0; unbound, the
lesser of its request and VLMAX; bound, what the cell has beyond sr.bpos, at most that; with nothing there it gives 0 when the cell is
closed and otherwise waits, and evaluates again only when the published index, the closed bit or the notice has changed. The first VSETL clears FRESH and zeroes every register and mask; a later one clears none. -/
def Sys2Proof.Machine.SetLengthResults : Prop :=
  ∀ (p : R1) (s : State), s.executes = true → s.cur.cfg.ill = false →
    (∀ l, s.launch? s.cur.id.launch = some l → l.pkt.stages < 2) → s.cur.seen ≠ some s.watched →
    let want := min (s.src p.a).toNat s.cur.vlmax
    let pos := s.cur.stream.bpos.toNat
    let cell := s.boundCell
    let calm := s.cur.notice.pend = false ∨ s.cur.trap.hm = true
    (s.cur.notice.pend = true → s.cur.trap.hm = false → ∃ t, exec (.vsetl p) s = .next t ∧ setlGives s t p.d 0 s.cur.stream.bpos) ∧
    (calm → s.cur.stream.bound = false → ∃ t, exec (.vsetl p) s = .next t ∧ setlGives s t p.d want s.cur.stream.bpos) ∧
    (calm → s.cur.stream.bound = true → pos < cell.index → ∃ t, exec (.vsetl p) s = .next t ∧
      setlGives s t p.d (min want (cell.index - pos)) (BitVec.ofNat 63 (pos + min want (cell.index - pos)))) ∧
    (calm → s.cur.stream.bound = true → cell.index ≤ pos → cell.closed = true →
      ∃ t, exec (.vsetl p) s = .next t ∧ setlGives s t p.d 0 s.cur.stream.bpos) ∧
    (calm → s.cur.stream.bound = true → cell.index ≤ pos → cell.closed = false →
      ∃ t, exec (.vsetl p) s = .next t ∧ t.cur.phase = .waiting ∧ t.cur.stream = s.cur.stream ∧ t.cur.cfg.vl = s.cur.cfg.vl ∧ sameG s t ∧
        t.cur.seen = some s.watched ∧ ∀ u : State, u.executes = true → u.cur.cfg.ill = false → u.cur.cfg.fresh = false → u.cur.seen = some u.watched →
          ∃ v, exec (.vsetl p) u = .next v ∧ v.cur.phase = .waiting ∧ sameG u v ∧ sameVec u v ∧ v.cur.seat = u.cur.seat) ∧
    ∀ t, exec (.vsetl p) s = .next t →
      (s.cur.cfg.fresh = true → (∀ r i, t.cur.elem r i = 0) ∧ ∀ q i, t.cur.maskBit q i = false) ∧
      (s.cur.cfg.fresh = false → t.cur.vec = s.cur.vec ∧ t.cur.mask = s.cur.mask)

/-- R223, R225 to R227: VCFG, VSETL and the vector length and type they leave. -/
def Obligations.VectorLengthAndTypeResults : Prop :=
  Sys2Proof.Machine.VectorConfigurationResults ∧ Sys2Proof.Machine.SetLengthResults

namespace Sys2Proof.Machine

/-- The hart as its VSETL finds it: registers that read fresh are zeroed first (R90). -/
def State.readied (s : State) : State :=
  if s.cur.cfg.fresh then { s.cleanVec with cur := { s.cur.zeroVectors with cfg := { s.cur.cfg with fresh := false } } } else s

/-- A VSETL has given `n` elements to a hart that the grant rule left as in `t`: its lane groups, registers, masks and tiles are those of `t`. -/
def gaveUnder (s t u : State) (d : BitVec 6) (n : Nat) : Prop :=
  u.cur.seat = t.cur.seat ∧ u.cur.lastShift = t.cur.lastShift ∧ u.cur.vec = t.cur.vec ∧ u.cur.mask = t.cur.mask ∧ u.cur.accs = s.cur.accs ∧
  u.cur.cfg = { t.cur.cfg with vl := BitVec.ofNat 18 n } ∧ (gd d ≠ 0 → u.cur.greg (gd d) = BitVec.ofNat 64 n) ∧ sameGBut (gd d) s u ∧
  sameFlags s u ∧ sameMemory s u ∧ finishes s u

end Sys2Proof.Machine

/-- R47 to R49: VSETL of any hart outside a notice applies the grant rule (`State.rebalance`) and gives the lesser of its request and the VLMAX
that the grant then has, bound no more than the cell holds beyond sr.bpos; where there is nothing, 0 of a closed cell, or it waits under the grant it
has now. Where the grant changes, every vector register and mask reads zero, the scalar registers, sr.vtype and the accumulator tiles stay; the hart gives
up its highest lane groups or takes some of the pool; a hart of a carry stage, a pinned hart and one whose stage's rebalance hold has not passed, at a
VSETL after its first since placement or resumption, keep their grant. The arbiter gives no stage more than its ceiling nor less than its floor. -/
def Obligations.GrantChangesClearRegisters : Prop :=
  (∀ (p : R1) (s : State), s.executes = true → s.cur.cfg.ill = false → s.cur.seen ≠ some s.watched →
    (s.cur.notice.pend = false ∨ s.cur.trap.hm = true) →
    let t := s.readied.rebalance
    let want := min (s.src p.a).toNat t.cur.vlmax
    let pos := s.cur.stream.bpos.toNat
    let cell := s.boundCell
    (s.cur.stream.bound = false → ∃ u, exec (.vsetl p) s = .next u ∧ gaveUnder s t u p.d want ∧ u.cur.stream = s.cur.stream) ∧
    (s.cur.stream.bound = true → pos < cell.index → ∃ u, exec (.vsetl p) s = .next u ∧ gaveUnder s t u p.d (min want (cell.index - pos)) ∧
      u.cur.stream = { s.cur.stream with bpos := BitVec.ofNat 63 (pos + min want (cell.index - pos)) }) ∧
    (s.cur.stream.bound = true → cell.index ≤ pos → cell.closed = true →
      ∃ u, exec (.vsetl p) s = .next u ∧ gaveUnder s t u p.d 0 ∧ u.cur.stream = s.cur.stream) ∧
    (s.cur.stream.bound = true → cell.index ≤ pos → cell.closed = false → ∃ u, exec (.vsetl p) s = .next u ∧ u.cur.phase = .waiting ∧
      u.cur.seat = t.cur.seat ∧ u.cur.vec = t.cur.vec ∧ u.cur.mask = t.cur.mask ∧ sameG s u)) ∧
  (∀ (s : State) (lanes : List Nat), let t := s.regrant lanes
    t.cur.seat.lanes = lanes ∧ (∀ r i, t.cur.elem r i = 0) ∧ (∀ q i, t.cur.maskBit q i = false) ∧ sameG s t ∧ t.cur.cfg = s.cur.cfg ∧
    t.cur.accs = s.cur.accs ∧ t.cur.lastShift = some s.tick) ∧
  (∀ (s : State) (l : Launch), s.launch? s.cur.id.launch = some l →
    (l.pkt.stages < 2 ∨ l.pkt.carry.getD s.cur.seat.stage false = true ∨ s.cur.trap.pin = true ∨
      ∃ sh k, s.share? s.cur.id.launch s.cur.id.rank = some sh ∧ s.cur.lastShift = some k ∧
        s.since k < sh.holds.getD s.cur.seat.stage 0 ∧ s.cur.eager = false) →
    s.rebalance = s) ∧
  (∀ (s : State), s.rebalance = s ∨ ∃ lanes, s.rebalance = s.regrant lanes ∧
    ((lanes = s.cur.seat.lanes.take lanes.length ∧ lanes.length < s.cur.seat.lanes.length) ∨
      ∀ k ∈ lanes, k ∈ s.cur.seat.lanes ∨ k ∈ s.pool s.cur.mod s.cur.seat.core)) ∧
  ∀ (n : Nat) (xs : List Stage) (i : Nat) (x y : Stage), xs[i]? = some x → (spread n xs)[i]? = some y → x.t ≤ y.t ∧ (y.t ≤ x.t ∨ y.t ≤ x.c)

/-- R228, whole: VQLEN's opcode, format and SF, the size it writes, and its two exceptions. -/
def Obligations.FrameSizeIsRead : Prop :=
  (∀ p : R1, (Instr.vqlen p).body = some (0x0C2, false, .r1 p) ∧ ((Instr.vqlen p).wellFormed = true → p.sf = 0)) ∧
  ∀ (p : R1) (s : State), s.executes = true → let n := (s.src p.a).toNat
    (s.cur.cfg.ill = false → n ≤ 16384 →
      exec (.vqlen p) s = .next (s.setG (gd p.d) (BitVec.ofNat 64
        (64 + s.cur.cfg.nreg * ((n * s.cur.cfg.sew + 511) / 512) * 64 + 8 * ((n + 511) / 512) * 64 + s.cur.accs.length * 25408))).completedV) ∧
    (s.cur.trap.hm = false → s.cur.trap.tvec ≠ 0 → (s.cur.cfg.ill = true ∨ 16384 < n) → ∃ t, exec (.vqlen p) s = .next t ∧
      t.cur.pc = s.cur.trap.tvec ∧ t.cur.trap.imp = true ∧ sameG s t ∧
      t.cur.trap.cause = (if s.cur.cfg.ill then ⟨0x03, 0x05⟩ else ⟨0x03, 0x09⟩))

/-- R52, R229: VBIND with a cell below 64 binds the hart to it at position b; a cell at or above 64, and VBIND.OFF, unbind it. -/
def Obligations.StreamBindingResults : Prop :=
  ∀ (p : R2) (s : State), s.executes = true → s.cur.configured = true →
    let done := fun (t : State) => sameG s t ∧ sameVec s t ∧ sameFlags s t ∧ t.cur.cfg = s.cur.cfg ∧ t.cur.accs = s.cur.accs ∧
      t.cur.trap = s.cur.trap ∧ sameMemory s t ∧ sameOthers s t ∧ finishes s t
    ((s.src p.b).toNat < 2 ^ 63 → (s.src p.a).toNat < 64 → ∃ t, exec (.vbind p) s = .next t ∧ done t ∧
      t.cur.stream.bound = true ∧ t.cur.stream.cell.toNat = (s.src p.a).toNat ∧ t.cur.stream.bpos.toNat = (s.src p.b).toNat) ∧
    ((s.src p.b).toNat < 2 ^ 63 → 64 ≤ (s.src p.a).toNat → ∃ t, exec (.vbind p) s = .next t ∧ done t ∧ t.cur.stream = ⟨false, 0, 0⟩) ∧
    ∃ t, exec (.vbindOff p) s = .next t ∧ done t ∧ t.cur.stream = ⟨false, 0, 0⟩

/-- R93, R230, R231: VSPILL on a 64-aligned address whose frame translates outside D memory writes the frame's bytes there and completes. The
frame for n holds n, the vector type and the number of tiles, the binding, the flags, the elements and the mask bits below n, and each tile's
mode, tag, entries and row state, at the places R93 gives them. VFILL
of a frame whose header agrees with the hart loads elements and masks below n, zeroes the rest, restores each tile's mode, tag, entries and row
state, ORs the flags, sets the binding, sr.vl 0 and gd n. -/
def Obligations.SpillAndFillResults : Prop :=
  (∀ (p : L) (s : State) (ps : List (Phys × Nat)), let n := (s.gread (gd p.d)).toNat
    let va := (s.src p.a + p.imm.signExtend 64).toNat
    s.executes = true → s.cur.configured = true → s.clean = true → n ≤ s.cur.vlmax → va % 64 = 0 →
    s.transRangeD s.view va (s.cur.frameSize n) .store 6 = .ok ps →
    exec (.vspill p) s = .next ((s.settleRuns true ps).writeRuns true va ps (s.cur.frame n)).completedV) ∧
  (∀ (h : Hart) (n : Nat), h.accs.length ≤ 8 → n ≤ 16384 → let fr := h.frame n
    let at_ := fun (o k : Nat) => leNat ((fr.drop o).take k)
    let rb := (n * h.cfg.sew + 511) / 512 * 64
    let mb := (n + 511) / 512 * 64
    let masks := 64 + h.cfg.nreg * rb
    let tile := fun (c : Nat) => masks + 8 * mb + 25408 * c
    fr.length = h.frameSize n ∧ h.frameSize n = tile h.accs.length ∧
    at_ 0 8 = n + h.cfg.etype.toNat * 2 ^ 20 + h.cfg.nregc.toNat * 2 ^ 24 + h.accs.length * 2 ^ 28 ∧ at_ 8 8 = h.stream.bpos.toNat ∧
    at_ 16 8 = (if h.stream.bound then 64 else 0) + h.stream.cell.toNat ∧ at_ 24 8 = h.aflags.toNat ∧ at_ 32 32 = 0 ∧
    (∀ (r : Fin 64) i, r.val < h.cfg.nreg → i < n → at_ (64 + r.val * rb) rb / 2 ^ (h.cfg.sew * i) % 2 ^ h.cfg.sew = h.elem r i) ∧
    (∀ (q : Fin 8) i, i < n → (at_ (masks + q.val * mb) mb).testBit i = h.maskBit q i) ∧
    ∀ c a, h.accs[c]? = some a → let w := if a.bf16 then 2 else 4
      at_ (tile c) 1 = (if a.bf16 then 1 else 0) ∧ at_ (tile c + 1) 1 = 0 ∧ at_ (tile c + 2) 2 = a.tag.toNat ∧ at_ (tile c + 4) 60 = 0 ∧
      (∀ r k, r < 96 → k < a.cols → at_ (tile c + 64 + w * (r * a.cols + k)) w = a.at r k % 2 ^ (8 * w)) ∧
      ∀ r, r < 96 → at_ (tile c + 24640 + 8 * r) 4 = a.mAt r % 2 ^ 32 ∧ at_ (tile c + 24644 + 8 * r) 4 = a.lAt r % 2 ^ 32) ∧
  ∀ (p : L) (s : State) (ps qs : List (Phys × Nat)) (hd bs : List Byte), let va := (s.src p.a + p.imm.signExtend 64).toNat
    let w := fun k => leNat ((bs.drop (8 * k)).take 8)
    let w0 := leNat (hd.take 8)
    let n := w0 % 2 ^ 18
    let rb := (n * s.cur.cfg.sew + 511) / 512 * 64
    s.executes = true → s.cur.configured = true → va % 64 = 0 → s.transRangeD s.view va 64 .load 6 = .ok ps →
    (s.settleRuns true ps).readRuns false ps = .ok hd →
    w0 / 2 ^ 20 % 16 = s.cur.cfg.etype.toNat → w0 / 2 ^ 24 % 4 = s.cur.cfg.nregc.toNat → w0 / 2 ^ 28 % 16 = s.cur.accs.length → n ≤ s.cur.vlmax →
    s.transRangeD s.view va (s.cur.frameSize n) .load 6 = .ok qs → (s.settleRuns true qs).readRuns false qs = .ok bs →
    ∃ t, exec (.vfill p) s = .next t ∧ finishes s t ∧ t.cur.cfg = { s.cur.cfg with vl := 0 } ∧ sameGBut (gd p.d) s t ∧
      (gd p.d ≠ 0 → t.cur.greg (gd p.d) = BitVec.ofNat 64 n) ∧ t.cur.aflags = s.cur.aflags ||| BitVec.ofNat 9 (w 3) ∧
      t.cur.stream = ⟨(w 2).testBit 6, BitVec.ofNat 6 (w 2), BitVec.ofNat 63 (w 1)⟩ ∧ t.cur.accs.length = s.cur.accs.length ∧
      (∀ (r : Fin 64) i, i < n → r.val < s.cur.cfg.nreg →
        t.cur.elem r i = leNat ((bs.drop (64 + r.val * rb)).take rb) / 2 ^ (s.cur.cfg.sew * i) % 2 ^ s.cur.cfg.sew) ∧
      (∀ (q : Fin 8) i, i < n → let mb := (n + 511) / 512 * 64
        t.cur.maskBit q i = (leNat ((bs.drop (64 + s.cur.cfg.nreg * rb + q.val * mb)).take mb)).testBit i) ∧
      (∀ r i, n ≤ i → t.cur.elem r i = 0) ∧ (∀ q i, n ≤ i → t.cur.maskBit q i = false) ∧
      ∀ c, c < s.cur.accs.length → let tile := 64 + s.cur.cfg.nreg * rb + 8 * ((n + 511) / 512 * 64) + 25408 * c
        let at_ := fun (o k : Nat) => leNat ((bs.drop (tile + o)).take k)
        let a := t.acc c
        let m := if a.bf16 then 2 else 4
        a.bf16 = (at_ 0 1).testBit 0 ∧ a.tag.toNat = at_ 2 2 ∧ (∀ r k, r < 96 → k < a.cols → a.at r k = at_ (64 + m * (r * a.cols + k)) m) ∧
        ∀ r, r < 96 → a.mAt r = at_ (24640 + 8 * r) 4 ∧ a.lAt r = at_ (24644 + 8 * r) 4

/-! ### Near vector memory -/

/-- R254 to R258, R261: VLD, VLDS, VLDX and VLDT whose conditions hold none and each of whose performed elements loads complete: each
such element takes its value, the rest of the register and every other register stay, and every byte of a line of which no memory-side
cache counts readers reads as before. KB formats take their values and flags from the chunk's planes. -/
def Obligations.VectorLoadResults : Prop :=
  ∀ (p : M) (s : State) (get : Nat → Got), s.vecReady → s.memOk →
    let done := fun (t : State) => wroteElems s t p.d (s.performs p.msk) (fun i => (get i).1) ∧
      raisedBy s t (s.performs p.msk) (fun i => (get i).2.1) ∧ t.cur.mask = s.cur.mask ∧ sameG s t ∧ sameSpecial s t ∧ finishes s t ∧
      ∀ x, (∀ l, Tbl.find (x / 128) s.msc = some l → l.count = 0) → t.byteAt x = s.byteAt x
    let loads := fun (addr : Nat → Nat) => ∀ i, s.performs p.msk i → s.loadElem p.fmt.toNat s.cur.cfg.etype.toNat (addr i) = .ok (get i)
    (noCond (s.memConds p true [p.d.toNat] []) →
      (p.kb = false → loads (s.unitAddr p) → ∃ t, exec (.vld p) s = .next t ∧ done t) ∧
      (loads (s.strideAddr p) → ∃ t, exec (.vlds p) s = .next t ∧ done t) ∧
      (p.kb = true → noCond (s.kbConds p) → (∀ i, s.performs p.msk i → s.kbGet none none s.ft (s.memBase p) (s.src p.x).toNat
          (kbBits p.fmt.toNat) (planeCount (kbBits p.fmt.toNat) p.planes.toNat) (s.pending p.msk) i = .ok (get i)) →
        ∃ t, exec (.vld p) s = .next t ∧ done t)) ∧
    (noCond (s.memConds p true [p.d.toNat] (s.indexConds p.x)) → loads (s.indexAddr p) → ∃ t, exec (.vldx p) s = .next t ∧ done t) ∧
    (noCond (s.tensorConds p true) → s.tensorD p .load = none →
      (∀ i, s.performs p.msk i → (decompose (s.dims p) i).1 = 0 ∧ (match s.tensorAddr p i with
        | none => get i = (s.layoutWord p.x (2 * (p.sf.toNat % 8 + 1)) % 2 ^ s.cur.cfg.sew, 0, [])
        | some va => s.loadElem p.fmt.toNat s.cur.cfg.etype.toNat va = .ok (get i))) →
      ∃ t, exec (.vldt p) s = .next t ∧ done t)

/-- R257, R258: an element load of a non-KB format at an aligned address that translates, unpoisoned, gives the little-endian bytes
there, widened. An element store makes the narrowed bytes at that address; one that is misaligned stops with 0x04.02. -/
def Obligations.ElementAccessResults : Prop :=
  ∀ (s : State) (fmt et va : Nat) (q : Phys), let w := fmtBits fmt (sewOf et) / 8
    (va % w = 0 → s.translate va .load = .ok q → poisonedAt (s.settleFor true q) q.uncached q.spot.loc w = none →
      s.loadElem fmt et va = .ok (widen fmt et (leNat (readBytes (s.settleFor true q) q.uncached q.spot.loc w)), 0, [q.req])) ∧
    (∀ v, va % w = 0 → s.translate va .store = .ok q →
      s.storeElem fmt et va v = .ok ([⟨BitVec.ofNat 64 va, q, leBytes w (narrow fmt et 0 v).1⟩], (narrow fmt et 0 v).2)) ∧
    (va % w ≠ 0 → s.loadElem fmt et va = .error (.trap ⟨0x04, 0x02⟩ (BitVec.ofNat 64 va)) ∧
      ∀ v, s.storeElem fmt et va v = .error (.trap ⟨0x04, 0x02⟩ (BitVec.ofNat 64 va)))

/-- A store instruction has completed: its flags are raised and its writes made with its reader count, after the hart's earlier vector stores
to those modules (R153, R166, R259). -/
def Sys2Proof.Machine.State.stored (s : State) (fl : Flags) (readers : Nat) (ps : List Put) : State :=
  (((s.raise fl).settleRuns true (ps.map (fun q => (q.phys, q.bytes.length)))).putAll readers ps).completedV

/-- R254 to R256, R259, R261: VST, VSTS, VSTX and VSTT whose conditions hold none and each of whose performed elements can be stored
complete: with the hart's earlier vector stores to those modules performed, the writes of the performed elements are made with the form's
reader count, their flags raised. A KB
store writes the blocks of each chunk that holds a performed element. -/
def Sys2Proof.Machine.VectorStoreResults : Prop :=
  ∀ (p : M) (s : State) (put : Nat → List Put × Flags), s.vecReady →
    let els := s.pending p.msk
    let after := s.stored (orFlags (els.map (fun i => (put i).2))) p.rdr.toNat (els.flatMap (fun i => (put i).1))
    let stores := fun (addr : Nat → Nat) => ∀ i, s.performs p.msk i →
      s.storeElem p.fmt.toNat s.cur.cfg.etype.toNat (addr i) (s.cur.elem (vd p.d) i) = .ok (put i)
    (noCond (s.memConds p false [p.d.toNat] []) →
      (p.kb = false → stores (s.unitAddr p) → exec (.vst p) s = .next after) ∧ (stores (s.strideAddr p) → exec (.vsts p) s = .next after) ∧
      (p.kb = true → noCond (s.kbConds p) → ∀ firsts, firsts = ((els.map (fun i => ((s.src p.x).toNat + i) / 512)).dedup.filterMap (fun c =>
          els.find? (fun i => ((s.src p.x).toNat + i) / 512 == c))) →
        (∀ i ∈ firsts, s.kbMake none none s.ft (s.memBase p) (s.src p.x).toNat (kbBits p.fmt.toNat) (s.actives p.msk) (s.cur.elem (vd p.d))
          (((s.src p.x).toNat + i) / 512) = .ok (put i)) →
        exec (.vst p) s = .next (s.stored (orFlags (firsts.map (fun i => (put i).2))) p.rdr.toNat (firsts.flatMap (fun i => (put i).1))))) ∧
    (noCond (s.memConds p false [p.d.toNat] (s.indexConds p.x)) → stores (s.indexAddr p) → exec (.vstx p) s = .next after) ∧
    (noCond (s.tensorConds p false) → s.tensorD p .store = none →
      (∀ i, s.performs p.msk i → (decompose (s.dims p) i).1 = 0 ∧ (match s.tensorAddr p i with
        | none => put i = ([], 0)
        | some va => s.storeElem p.fmt.toNat s.cur.cfg.etype.toNat va (s.cur.elem (vd p.d) i) = .ok (put i))) →
      exec (.vstt p) s = .next after)

/-- Frame of the vector stores (R127, R153, R259): where a store's writes go to the hart's own module, every byte outside them reads as before
at the near point; the write of the last element is what its bytes read there, all pages being of one kind; and no register, mask, flag or special register changes. -/
def Sys2Proof.Machine.VectorStoreFrame : Prop :=
  ∀ (s : State) (readers : Nat) (ps : List Put), s.memOk → s.cur.later = false → (∀ q ∈ ps, q.phys.spot.m = s.cur.mod) →
    let t := s.putAll readers ps
    (∀ x, (∀ q ∈ ps, x < q.phys.spot.loc ∨ q.phys.spot.loc + q.bytes.length ≤ x) → t.byteAt x = s.byteAt x) ∧
    (readers = 0 → ∀ (before : List Put) (q : Put), ps = before ++ [q] → (∀ x ∈ before, x.phys.dclass = q.phys.dclass) → ∀ k (h : k < q.bytes.length), t.byteAt (q.phys.spot.loc + k) = q.bytes[k]) ∧
    sameG s t ∧ sameVec s t ∧ sameFlags s t ∧ t.cur.trap = s.cur.trap ∧ t.cur.accs = s.cur.accs ∧ t.cur.cfg = s.cur.cfg ∧
    t.cur.stream = s.cur.stream ∧ t.tiles = s.tiles ∧ t.launches = s.launches

/-- R253 to R263: what the vector stores write, and every byte they leave. -/
def Obligations.VectorStoreEffects : Prop :=
  Sys2Proof.Machine.VectorStoreResults ∧ Sys2Proof.Machine.VectorStoreFrame

namespace Sys2Proof.Machine

/-- No word of memory is poisoned in any copy (R455). -/
def State.noBad (s : State) : Prop := s.badMem = [] ∧ s.badNear = [] ∧ ∀ c ∈ s.msc, c.2.bad = []

/-- One element of a VAMO as one step (R160, R263): the old value at its address, the new one written there, the old one returned
unless N is set. -/
def vamoStep (p : M) (orig : State) (s : State) (x : Nat × Phys) : State :=
  let w := s.cur.cfg.sew
  let u := s.settleFor true x.2
  let old := leNat (readBytes u x.2.uncached x.2.spot.loc (w / 8))
  let new := (amoWrites (p.sf.toNat % 8) (BitVec.ofNat w old) (BitVec.ofNat w (orig.cur.elem (vd p.d) x.1)) 0).getD 0
  let t := u.putPhys x.2 (leBytes (w / 8) new.toNat) 0
  if p.sf.getLsbD 3 then t else t.writeVec (vd p.d) [(x.1, old)]

end Sys2Proof.Machine

/-- R160, R263, R436: VAMO on an integer type of 32 or 64 bits, all of whose performed elements translate, completes: its elements act in ascending
order, each as one step, on the operands that the register held before. -/
def Obligations.VectorAtomicResults : Prop :=
  ∀ (p : M) (s : State) (els : List (Nat × Phys)), s.vecReady → s.noBad → (s.cur.cfg.etype = 6 ∨ s.cur.cfg.etype = 7) →
    p.sf.toNat % 8 ≠ 2 → noCond (s.memConds p true [p.d.toNat] (if memIndexed p then s.indexConds p.x else [])) →
    s.amoAll p (s.pending p.msk) = .ok els →
    els.map (·.1) = s.pending p.msk ∧ exec (.vamo p) s = .next (els.foldl (vamoStep p s) s).completedV


/-! ### Far forms -/

namespace Sys2Proof.Machine

/-- A far form may execute in the stack `home` of the hart's own module: its entry is not frozen and no request of it is out, no
register word is poisoned, the stack is not stopped by its droop guard (R267, R274, R396, R454); the far banks list rising keys. -/
def State.farReady (s : State) (home : Nat) : Prop :=
  s.executes = true ∧ s.clean = true ∧ (s.cur.active.map (·.remote)).getD .idle = .idle ∧ home / 16 = s.cur.mod ∧
  s.drooped home = false ∧ Tbl.rising s.banks = true

/-- The elements that a far form performs: those below sr.vl not done before an earlier stop (R265, R402). -/
def State.farPerforms (s : State) (i : Nat) : Prop := i < s.cur.cfg.vl.toNat ∧ s.cur.unf.estart ≤ i

/-- The far instruction wrote exactly the elements in `P`, of `w` bits, of the far group based at `d`, and no other far register. -/
def wroteFar (s t : State) (home d w : Nat) (P : Nat → Prop) (f : Nat → Nat) : Prop :=
  (∀ i, P i → t.farElem home d w i = f i % 2 ^ w) ∧ (∀ i, ¬ P i → t.farElem home d w i = s.farElem home d w i) ∧
  ∀ k, (∀ i, P i → k ≠ bankKey home s.cur.mod s.cur.devSlot (d + i / fe w)) → Tbl.getD t.banks k 0 = Tbl.getD s.banks k 0

/-- A far instruction left all but far registers, flags and memory alone, and is over. -/
def farFrame (s t : State) : Prop :=
  sameG s t ∧ sameVec s t ∧ sameSpecial s t ∧ t.harts = s.harts ∧ t.launches = s.launches ∧ t.mods = s.mods ∧ t.tiles = s.tiles ∧
  t.fabric = s.fabric ∧ finishes s t

/-- An element-wise far form completes with these results and flags in the far group at D6, and leaves memory alone (R237). -/
def WritesFar (i : Instr) (s : State) (home d w : Nat) (f : Nat → Nat × Flags) : Prop :=
  ∃ t, exec i s = .next t ∧ wroteFar s t home d w s.farPerforms (fun k => (f k).1) ∧ raisedBy s t s.farPerforms (fun k => (f k).2) ∧
    farFrame s t ∧ sameMemory s t

end Sys2Proof.Machine

/-- R28, R237, R265, R273: the element-wise far forms, FGET, FPUT and FEXPR in a stack of the hart's own module whose conditions hold none
complete: every element below sr.vl takes its result, as in the near instruction with far registers, none masked. FEXPR's is that of its
program (R270); FGET copies the far group into its near register, FPUT the near register into the group. -/
def Obligations.FarElementwiseResults : Prop :=
  ∀ (p : R3) (s : State) (home : Nat), s.farReady home → s.stkStack p = .ok home →
    let w := s.cur.cfg.sew
    let d := p.d.toNat % 16
    let rm := p.rm.toNat
    let fl := fun (x : S10) i => s.fsrcF s.ft home x i
    let bv := fun (x : S10) i => BitVec.ofNat w (s.fsrc home x i)
    let ok := fun xs ty => noCond (s.farConds (s.groupsOf p.d xs) ty)
    let flt2 := fun (c : R3 → Instr) (f : FT → Nat → Nat → Nat → Nat × Flags) =>
      WritesFar (c p) s home d w (fun i => f s.ft rm (fl p.a i) (fl p.b i))
    let flt3 := fun (c : R3 → Instr) (f : FT → Nat → Nat → Nat → Nat → Nat × Flags) =>
      WritesFar (c p) s home d w (fun i => f s.ft rm (fl p.a i) (fl p.b i) (fl p.c i))
    let int2 := fun (c : R3 → Instr) (f : (w : Nat) → BitVec 4 → BitVec w → BitVec w → BitVec w) =>
      WritesFar (c p) s home d w (fun i => ((f w p.sf (bv p.a i) (bv p.b i)).toNat, 0))
    (ok [p.a, p.b] s.isFloat →
      flt2 .fVadd eAdd ∧ flt2 .fVsub eSub ∧ flt2 .fVmul eMul ∧ flt2 .fVmin eMin ∧ flt2 .fVmax eMax) ∧
    (ok [p.a, p.b, p.c] s.isFloat → flt3 .fVfma eFma ∧ flt3 .fVfms eFms ∧ flt3 .fVnfma eNfma ∧
      ∀ ops, s.exprProg p = some ops → WritesFar (.fexpr p) s home d w (fun i => exprEval s.ft rm (fun b =>
        if b = 1 then fl p.a i else if b = 2 then fl p.b i else if b = 3 then fl p.c i else if b = 4 then s.farElem home d w i
        else (s.kread (p.imm.toNat % 256 + 3 + (b - 0x40))).toNat % 2 ^ w) ops)) ∧
    (ok [p.a] s.isFloat → WritesFar (.fVabs p) s home d w (fun i => eAbs s.ft rm (fl p.a i)) ∧
      WritesFar (.fVneg p) s home d w (fun i => eNeg s.ft rm (fl p.a i))) ∧
    (ok [p.a, p.b] s.isInt →
      int2 .fViadd bvAdd ∧ int2 .fVisub bvSub ∧ int2 .fVimul bvMul ∧ int2 .fVimulh bvMulh ∧ int2 .fVand bvAnd ∧ int2 .fVor bvOr ∧
      int2 .fVxor bvXor ∧ int2 .fVshl bvShl ∧ int2 .fVshr bvShr ∧ int2 .fVsra bvSra ∧ int2 .fVimin bvMin ∧ int2 .fVimax bvMax) ∧
    (noCond ((farCvt p).conds s) → WritesFar (.fVcvt p) s home d (sewOf p.cvT) (fun i => cvtElem p.cvF p.cvT p.sf.toNat rm
      (if p.a.tag = 0 then s.farElem home p.a.midx (sewOf p.cvF) i else (s.src p.a).toNat % 2 ^ sewOf p.cvF))) ∧
    (ok [p.a, p.b] true → WritesFar (.fVbcast p) s home d w (fun i =>
      let k := if p.b.tag = 0 then s.farElem home p.b.midx w i else (s.src p.b).toNat
      (if p.a.tag = 0 then (if k < s.cur.cfg.vl.toNat then s.farElem home p.a.midx w k else 0) else (s.src p.a).toNat, 0))) ∧
    (noCond (s.moveConds p p.a.midx) → ∃ t, exec (.fget p) s = .next t ∧
      wroteElems s t (BitVec.ofNat 6 p.imm.toNat) s.farPerforms (s.farElem home p.a.midx w) ∧ t.cur.mask = s.cur.mask ∧ sameFlags s t ∧ vecFrame s t) ∧
    (noCond (s.moveConds p d) → WritesFar (.fput p) s home d w (fun i => (s.cur.elem (nearReg p) i, 0)))

/-- R237, R242 to R244, R267, R347: the far reductions write element 0 of their group, as the near ones do, when sr.vl is not 0. Any far form whose stack lies
on another module sends its request there, once, and stays at the head of the vector queue; when the answer has come it completes with the
flags and the data that the answer holds. -/
def Obligations.FarReductionsAndRequests : Prop :=
  (∀ (p : R3) (s : State) (home : Nat), s.farReady home → s.stkStack p = .ok home → noCond ((farVred p).conds s) →
    let w := s.cur.cfg.sew
    let xs := (List.range s.cur.cfg.vl.toNat).map (s.fsrc home p.a)
    let b0 := s.fsrc home p.b 0
    let only := fun (t : State) (r : Nat × Flags) => wroteFar s t home (p.d.toNat % 16) w (fun i => i = 0 ∧ 0 < s.cur.cfg.vl.toNat) (fun _ => r.1) ∧
      t.cur.aflags = (if s.cur.cfg.vl.toNat = 0 then s.cur.aflags else s.cur.aflags ||| r.2) ∧ farFrame s t ∧ sameMemory s t
    (∃ t, exec (.fVredo p) s = .next t ∧ only t (redFold s.isFloat s.ft w (p.sf.toNat % 8) b0 xs)) ∧
    (¬ (s.isFloat = true ∧ p.sf.toNat % 8 = 0) → ∃ t, exec (.fVred p) s = .next t ∧ only t (redFold s.isFloat s.ft w (p.sf.toNat % 8) b0 xs)) ∧
    (s.isFloat = true → p.sf.toNat % 8 = 0 → ∃ t ys v g, exec (.fVred p) s = .next t ∧ ys.Perm (b0 :: xs) ∧ SumTree s.ft ys v g ∧ only t (v, g))) ∧
  ∀ (i : Instr) (op : FarOp) (s : State) (e : QEntry), farOf i = some op → s.cur.active = some e → e.trapped = false →
    (∀ home, e.remote = .idle → noCond (op.conds s) → op.select s = .ok home → home / 16 ≠ s.cur.mod →
      ∃ t, exec i s = .next t ∧ t.fabric = s.fabric ++ [.farReq s.cur.id home] ∧ t.cur.vq = { e with remote := .sent } :: s.cur.vq.tail ∧
        sameG s t ∧ sameVec s t ∧ sameFlags s t ∧ sameSpecial s t ∧ sameMemory s t ∧ t.banks = s.banks) ∧
    (e.remote = .sent → ∃ t, exec i s = .next t ∧ t.cur.vq = e :: s.cur.vq.tail ∧ t.fabric = s.fabric) ∧
    ∀ r, e.remote = .done r → r.stop = none → ∃ t, exec i s = .next t ∧ finishes s t ∧ t.cur.aflags = s.cur.aflags ||| r.flags ∧
      t.cur.vec = (match op.near with
        | some v => (writeElems s.cur v r.data).vec
        | none => s.cur.vec) ∧ sameG s t ∧ sameMemory s t ∧ t.banks = s.banks

namespace Sys2Proof.Machine

/-- No read of this step uses up a reader count (R141). -/
def State.noReaders (s : State) : Prop := ∀ c ∈ s.msc, c.2.count = 0

/-- The elements of a far memory form with one address each translate to `ph`, aligned, outside D memory, in the executing stack (R122, R257, R434). -/
def State.farReach (s : State) (home w : Nat) (k : Want) (addr : Nat → Nat) (ph : Nat → Phys) : Prop :=
  ∀ i, s.farPerforms i → s.farPhys home (addr i) w k = .ok (ph i) ∧ s.homeFault (s.farView home) home (addr i) k = none ∧
    s.homeFault (s.farView home) home (addr i + w - 1) k = none

/-- A far load with one address each completes: each element takes the widened value at the far point (R266). -/
def LoadsFar (i : Instr) (p : M) (s : State) (home : Nat) (addr : Nat → Nat) : Prop :=
  ∀ ph, s.farReach home (s.memWidth p) .load addr ph → (∀ k, s.farPerforms k → poisonedAt s true (ph k).spot.loc (s.memWidth p) = none) →
    ∃ t, exec i s = .next t ∧ wroteFar s t home (p.d.toNat % 16) s.cur.cfg.sew s.farPerforms
      (fun k => widen p.fmt.toNat s.cur.cfg.etype.toNat (leNat (readBytes s true (ph k).spot.loc (s.memWidth p)))) ∧
      sameFlags s t ∧ farFrame s t ∧ (s.noReaders → sameMemory s t)

/-- A far store with one address each completes: each element's narrowed bytes are written at the far point, in ascending order (R266). -/
def StoresFar (i : Instr) (p : M) (s : State) (home : Nat) (addr : Nat → Nat) : Prop :=
  ∀ ph, s.farReach home (s.memWidth p) .store addr ph →
    let v := fun k => narrow p.fmt.toNat s.cur.cfg.etype.toNat 0 (s.farElem home (p.d.toNat % 16) s.cur.cfg.sew k)
    exec i s = .next ((s.putAllFar p.rdr.toNat (s.farEls.map (fun k => ⟨0, ph k, leBytes (s.memWidth p) (v k).1⟩))).raise
      (orFlags (s.farEls.map (fun k => (v k).2)))).completedV

/-- One element of a far VAMO as one step at the far point (R151, R160, R263, R266). -/
def farAmoStep (p : M) (home : Nat) (orig : State) (s : State) (x : Nat × Phys) : State :=
  let w := s.cur.cfg.sew
  let d := p.d.toNat % 16
  let u := recallLine s (x.2.spot.loc / 128)
  let old := leNat (readBytes u true x.2.spot.loc (w / 8))
  let new := (amoWrites (p.sf.toNat % 8) (BitVec.ofNat w old) (BitVec.ofNat w (orig.farElem home d w x.1)) 0).getD 0
  let t := storeFar u x.2.spot.loc (leBytes (w / 8) new.toNat) 0
  if p.sf.getLsbD 3 then t else t.writeFar home d w [(x.1, old)]

end Sys2Proof.Machine

/-- R122, R254 to R257, R263, R266: the far loads, stores and atomics in a stack of the hart's own module, their conditions none and their
elements aligned, translated and homed there, complete with the values and the writes of the near instruction at the far point. -/
def Obligations.FarMemoryResults : Prop :=
  ∀ (p : M) (s : State) (home : Nat), s.farReady home →
    (noCond (s.farMemConds p true false) →
      ((farVld p).select s = .ok home → p.kb = false → LoadsFar (.fVld p) p s home (s.unitAddr p)) ∧
      ((farVlds p).select s = .ok home → LoadsFar (.fVlds p) p s home (s.strideAddr p)) ∧
      ((farVld p).select s = .ok home → p.kb = true → ∀ get : Nat → Got,
        (s.cur.cfg.vl = 0 ∨ ∀ a ∈ pagesOf (s.unitSpan p false).1 (s.unitSpan p false).2, s.homeFault (s.farView home) home a .load = none) →
        (∀ i, s.farPerforms i → s.kbGet (some home) (some 3) s.ft (s.memBase p) (s.src p.x).toNat (kbBits p.fmt.toNat)
          (planeCount (kbBits p.fmt.toNat) p.planes.toNat) s.farEls i = .ok (get i)) →
        ∃ t, exec (.fVld p) s = .next t ∧ wroteFar s t home (p.d.toNat % 16) s.cur.cfg.sew s.farPerforms (fun i => (get i).1) ∧
          raisedBy s t s.farPerforms (fun i => (get i).2.1) ∧ farFrame s t)) ∧
    (noCond (s.farMemConds p true true) → (farVldx p).select s = .ok home → LoadsFar (.fVldx p) p s home (s.farIndexAddr p home)) ∧
    (noCond (s.farMemConds p false false) →
      ((farVst p).select s = .ok home → p.kb = false → StoresFar (.fVst p) p s home (s.unitAddr p)) ∧
      ((farVsts p).select s = .ok home → StoresFar (.fVsts p) p s home (s.strideAddr p)) ∧
      ((farVst p).select s = .ok home → p.kb = true → ∀ put : Nat → List Put × Flags,
        (s.cur.cfg.vl = 0 ∨ ∀ a ∈ pagesOf (s.unitSpan p true).1 (s.unitSpan p true).2, s.homeFault (s.farView home) home a .store = none) →
        let e0 := (s.src p.x).toNat
        let firsts := (s.farEls.map (fun i => (e0 + i) / 512)).dedup.filterMap (fun c => s.farEls.find? (fun i => (e0 + i) / 512 == c))
        (∀ i ∈ firsts, s.kbMake (some home) (some 3) s.ft (s.memBase p) e0 (kbBits p.fmt.toNat) (upto 0 s.cur.cfg.vl.toNat)
          (s.farElem home (p.d.toNat % 16) s.cur.cfg.sew) ((e0 + i) / 512) = .ok (put i)) →
        exec (.fVst p) s = .next ((s.putAllFar p.rdr.toNat (firsts.flatMap (fun i => (put i).1))).raise
          (orFlags (firsts.map (fun i => (put i).2)))).completedV)) ∧
    (noCond (s.farMemConds p false true) → (farVstx p).select s = .ok home → StoresFar (.fVstx p) p s home (s.farIndexAddr p home)) ∧
    (noCond ((farVamo p).conds s) → (farVamo p).select s = .ok home → p.sf.toNat % 8 ≠ 2 → s.noBad →
      ∀ ph, s.farReach home (s.cur.cfg.sew / 8) .amo (s.farAmoAddr p home) ph →
        exec (.fVamo p) s = .next ((s.farEls.map (fun i => (i, ph i))).foldl (farAmoStep p home s) s).completedV)

/-- R116, R271, R272, R304, R305: FDOT writes each element its row's dot product with the query, one rounding a step, from +0 or under ACC from
what it held; FRED takes element k into accumulator k mod 16; FATTN makes one page's streaming-softmax update of m, l, O and, under
SF[3], the 16 weights. No line with a reader count is read in these cases. -/
def Obligations.FarUnitResults : Prop :=
  ∀ (p : M) (s : State) (home : Nat), s.farReady home → s.noReaders →
    let d := p.d.toNat % 16
    (∀ rows : Nat → Row, noCond ((farDot p).conds s) → (farDot p).select s = .ok home →
      (∀ r, r < s.cur.cfg.vl.toNat → s.homeFault (s.farView home) home (s.dotSpan p r).1 .load = none ∧
        s.homeFault (s.farView home) home (s.dotSpan p r).2 .load = none) →
      (∀ r, s.farPerforms r → s.row (some home) 3 .bf16 p.fmt.toNat p.planes.toNat (s.dotRow p r).1 (s.dotRow p r).2 (dotLen p) = .ok (rows r)) →
      let query := (List.range (dotLen p)).map (fun k => unpack .bf16 (s.farElem home p.rdr.toNat 16 k))
      let a := fun r => farSteps (if p.sf.getLsbD 3 then s.farElem home d 32 r else 0) ((rows r).vals.zip query)
      ∃ t, exec (.fdot p) s = .next t ∧ wroteFar s t home d 32 s.farPerforms (fun r => (a r).1) ∧
        raisedBy s t s.farPerforms (fun r => (rows r).flags ||| (a r).2) ∧ farFrame s t ∧ sameMemory s t) ∧
    (∀ (x : Nat → FV) (g : Nat → Flags) (at_ : Nat → Nat → List Nat), noCond ((farRed p).conds s) → (farRed p).select s = .ok home →
      (let sp := rowSpan p.fmt.toNat p.planes.toNat (s.memBase p) 0 (s.redN p); ∀ a ∈ pagesOf sp.1 sp.2, s.homeFault (s.farView home) home a .load = none) →
      (∀ k n, k + n ≤ s.redN p → s.row (some home) 3 .fp32 p.fmt.toNat p.planes.toNat (s.memBase p) k n =
        .ok ⟨(List.range n).map (fun j => x (k + j)), orFlags ((List.range n).map (fun j => g (k + j))), at_ k n⟩) →
      (∀ k n, 0 < n → k + n ≤ s.redN p → let sp := rowSpan p.fmt.toNat p.planes.toNat (s.memBase p) k n
        ∃ ps, s.transRangeD (s.farView home) (sp.1 % 2 ^ 64) (sp.2 + 1 - sp.1) .load 3 = .ok ps) →
      let acc := fun (j n : Nat) => ((List.range n).filter (fun k => decide (s.cur.unf.estart ≤ k) && decide (k % 16 = j))).foldl
        (fun a k => (redOne (p.sf.toNat % 4) a (x k) (bits32 (x k))).1) (s.farElem home d 32 j)
      ∃ t, exec (.fred p) s = .next t ∧ wroteFar s t home d 32 (fun j => j < 16) (fun j => acc j (s.redN p)) ∧
        raisedBy s t (fun k => s.cur.unf.estart ≤ k ∧ k < s.redN p) (fun k => g k ||| (redOne (p.sf.toNat % 4) (acc (k % 16) k) (x k) (bits32 (x k))).2) ∧
        farFrame s t ∧ sameMemory s t) ∧
    ∀ (keys values : Nat → Row), noCond ((farAttn p).conds s) → (farAttn p).select s = .ok home →
      (∀ j, j < attnT p → s.attnFetch home p j = .ok (keys j) ∧ s.attnFetch home p (16 + j) = .ok (values j)) →
      let dim := attnDim p
      let q := p.sf.toNat % 4 + 1
      let query := (List.range dim).map (fun k => unpack .bf16 (s.farElem home (attnQ p) 16 k))
      let ts := List.range (attnT p)
      let u := attnUpdate (s.farElem home (d + 2 * q) 32 0) (s.farElem home (d + 2 * q) 32 1) ((List.range dim).map (s.farElem home d 32))
        (ts.map (fun j => (farSteps 0 ((keys j).vals.zip query)).1)) (ts.map (fun j => (values j).vals))
      ∃ t, exec (.fattn p) s = .next t ∧ t.farElem home (d + 2 * q) 32 0 = u.m % 2 ^ 32 ∧ t.farElem home (d + 2 * q) 32 1 = u.l % 2 ^ 32 ∧
        (∀ c, c < dim → t.farElem home d 32 c = u.o.getD c 0 % 2 ^ 32) ∧
        (p.sf.getLsbD 3 = true → ∀ j, j < 16 → t.farElem home (d + 2 * q + 1) 32 j = u.sc.getD j 0 % 2 ^ 32) ∧
        t.cur.aflags = s.cur.aflags ||| orFlags (ts.map (fun j => (keys j).flags ||| (farSteps 0 ((keys j).vals.zip query)).2)) ||| u.flags |||
          (if u.used then orFlags (ts.map (fun j => (values j).flags)) else 0) ∧ farFrame s t ∧ sameMemory s t


/-! ### The matrix engine -/

namespace Sys2Proof.Machine

/-- The sparse tables of an accumulator tile list rising keys. -/
def Acc.ok (a : Acc) : Prop := Tbl.rising a.body = true ∧ Tbl.rising a.m = true ∧ Tbl.rising a.l = true

/-- A matrix instruction can run from its beginning: its entry is not frozen, no register word is poisoned, no instruction is unfinished
(R282, R396, R403, R454), the tables of its tiles are in form, and no line that it may read has a reader count. -/
def State.matReady (s : State) : Prop :=
  s.executes = true ∧ s.clean = true ∧ s.cur.unf = Unfinished.none ∧ (∀ a ∈ s.cur.accs, a.ok) ∧ s.noReaders

/-- A matrix instruction left all but its tile and the flags alone, and is over. -/
def matFrame (c : Nat) (s t : State) : Prop :=
  sameG s t ∧ sameVec s t ∧ t.cur.cfg = s.cur.cfg ∧ t.cur.stream = s.cur.stream ∧ t.cur.notice = s.cur.notice ∧ t.cur.atp = s.cur.atp ∧
  t.cur.trap = s.cur.trap ∧ t.cur.resv = s.cur.resv ∧ t.cur.event = s.cur.event ∧ t.cur.seat = s.cur.seat ∧
  t.cur.accs.length = s.cur.accs.length ∧ (∀ e, e ≠ c → t.acc e = s.acc e) ∧ sameMemory s t ∧ sameOthers s t ∧ finishes s t

/-- Elements e0 to e0 + n − 1 from a base can be fetched, with these values (R105, R281). -/
def State.fetches (s : State) (fmt planes base e0 n : Nat) (v : Nat → FV) : Prop :=
  ∃ g locs, s.row none 2 .bf16 fmt planes base e0 n = .ok ⟨(List.range n).map v, g, locs⟩

/-- Elements in chunk `c` of a reduction of length `k` (R114). -/
def chunkLen (k c : Nat) : Nat := min 32 (k - 32 * c)

/-- The operands of a multiply meet its checks and can be fetched: A is m × k, B is k × n (R281, R427, R440). -/
def State.mulOperands (s : State) (x : Mul) (A B : Nat → Nat → FV) : Prop :=
  let rows := (upto 0 x.m).map x.aRow
  let cols := (upto 0 (if x.trans then x.k else x.n)).map x.bRow
  0 < x.m ∧ 0 < x.n ∧ 0 < x.k ∧ (kbBits x.aFmt ≠ 0 → ∀ b ∈ rows, b % 64 = 0) ∧ (kbBits x.bFmt ≠ 0 → ∀ b ∈ cols, b % 64 = 0) ∧
  s.inD .load (rows.map (fun b => rowSpan x.aFmt x.aPl b 0 x.k) ++
    cols.map (fun b => rowSpan x.bFmt x.bPl b 0 (if x.trans then x.n else x.k))) = none ∧
  (∀ r c, r < x.m → 32 * c < x.k → s.fetches x.aFmt x.aPl (x.aRow r) (32 * c) (chunkLen x.k c) (fun j => A r (32 * c + j))) ∧
  if x.trans then ∀ j, j < x.k → s.fetches x.bFmt x.bPl (x.bRow j) 0 x.n (B j)
  else ∀ n c, n < x.n → 32 * c < x.k → s.fetches x.bFmt x.bPl (x.bRow n) (32 * c) (chunkLen x.k c) (fun j => B (32 * c + j) n)

/-- The multiply's effect on its tile: each entry takes the chunks' updates in this order, one rounding each (R114, R282); all other entries,
the row state and the mode stay, and the heap tag goes. -/
def multiplied (s t : State) (x : Mul) (A B : Nat → Nat → FV) (order : List Nat) : Prop :=
  let a := s.acc x.c
  let u := t.acc x.c
  (∀ r n, r < x.m → n < x.n → u.at r n = order.foldl (fun acc c => (accumulate a.fmt a.bf16 acc
    ((List.range (chunkLen x.k c)).map (fun j => (A r (32 * c + j), B (32 * c + j) n)))).1) (a.at r n)) ∧
  (∀ r n, n < a.cols → ¬ (r < x.m ∧ n < x.n) → u.at r n = a.at r n) ∧ u.m = a.m ∧ u.l = a.l ∧ u.bf16 = a.bf16 ∧ u.tag = 0 ∧ matFrame x.c s t

/-- The ordered instruction takes the chunks in ascending order, the other in some order (R114, R115; log 14). -/
def multiplies (i : Instr) (s : State) (x : Mul) (A B : Nat → Nat → FV) : Prop :=
  if x.ordered then ∃ t, exec i s = .next t ∧ multiplied s t x A B (List.range (ceilDiv x.k 32))
  else ∃ t order, exec i s = .next t ∧ order.Perm (List.range (ceilDiv x.k 32)) ∧ multiplied s t x A B order

end Sys2Proof.Machine

/-- R114, R115, R279 to R282, R291 to R295: MMA.O, MMA.F, MGRP.O and MGRP.F whose conditions hold none and whose operands can be fetched multiply
into their tile, MGRP with its descriptor and group table as they were read when it left the vector queue (R161); MSHAPE clamps; EQCLAIM takes the
next number of the counter in one step and gives that tile's word. That it does so on D memory too, and that a first row keeps its low 20
bits, is the model's choice (logs 78, 79). -/
def Obligations.MatrixMultiplyResults : Prop :=
  (∀ (p : M) (s : State) (A B : Nat → Nat → FV), s.matReady →
    noCond ((!s.tilesOk [p.d.toNat % 8], 0x03, 0x08) :: shapeConds (s.acc (p.d.toNat % 8)).bf16 (s.goff p.spReg) true) →
    (s.mulOperands (s.mma p true) A B → multiplies (.mmaO p) s (s.mma p true) A B) ∧
    (s.mulOperands (s.mma p false) A B → multiplies (.mmaF p) s (s.mma p false) A B)) ∧
  (∀ (p : M) (s : State) (A B : Nat → Nat → FV) (hb tb : List Byte) (l1 l2 : List Nat), s.matReady →
    s.tilesOk [p.d.toNat % 8] = true → s.memBase p % 64 = 0 → s.descBytes (s.memBase p) 56 = .ok (hb, l1) →
    let d : Grouped := ⟨wordsOf 8 7 hb⟩
    let tw := (s.src p.x).toNat
    let g := tw / 2 ^ 32 % 2 ^ 12
    let cb := tw / 2 ^ 16 % 2 ^ 16
    let row := tw / 2 ^ 44
    let ns := wordsOf 4 d.g tb
    let off := (ns.take g).sum
    let x := fun ordered => d.mul (p.d.toNat % 8) row g cb (min 96 (ns.getD g 0 - (row - off))) ordered
    d.ok = true → g < d.g → cb < ceilDiv d.n 64 → d.table % 4 = 0 → s.descBytes d.table (4 * d.g) = .ok (tb, l2) →
    off ≤ row → row < off + ns.getD g 0 → (row - off) % 96 = 0 →
    (s.mulOperands (x true) A B → multiplies (.mgrpO p) s (x true) A B) ∧ (s.mulOperands (x false) A B → multiplies (.mgrpF p) s (x false) A B)) ∧
  (∀ (p : R3) (s : State), SetsG (.mshape p) s p.d (BitVec.ofNat 64 (min (s.src p.a).toNat 96 +
    min (s.src p.b).toNat (if p.sf.getLsbD 0 then 128 else 64) * 256 + min (s.src p.c).toNat 8192 * 65536))) ∧
  ∀ (p : R2) (s : State) (q : Phys) (old bs ts : List Byte) (r n : List (Phys × Nat)), let a := (s.src p.a).toNat
    a % 64 = 0 → s.translate ((a + 56) % 2 ^ 64) .amo = .ok q → (s.settleFor false q).readPhys q 8 false = .ok old →
    let t := (s.settleFor false q).putPhys q (leBytes 8 ((leNat old + 1) % 2 ^ 64)) 0
    let d : Grouped := ⟨List.replicate 5 0 ++ wordsOf 8 2 bs⟩
    t.readVa false (a + 40) 16 = .ok (bs, r) → d.ok = true → d.table % 4 = 0 → t.readVa false d.table (4 * d.g) = .ok (ts, n) →
    exec (.eqclaim p) s = .next ((countReads t (runReqs (r ++ n))).setG (gd p.d)
      (BitVec.ofNat 64 (poolTile d.n (wordsOf 4 d.g ts) 0 0 (leNat old)))).completed

/-- R286 to R290: MZERO clears its tile; MLD loads the first rows and columns and clears the rest; MST writes each row's narrowed entries;
MMOV copies bits between a tile and a vector register; MSCALE multiplies each entry that has a factor. -/
def Obligations.TileMoveResults : Prop :=
  (∀ (p : R1) (s : State), let c := p.d.toNat % 8
    s.matReady → c < s.cur.acnt → ∃ t, exec (.mzero p) s = .next t ∧ (t.acc c).bf16 = p.sf.getLsbD 0 ∧ (t.acc c).tag = 0 ∧
      (∀ r n, (t.acc c).at r n = 0) ∧ (∀ r, (t.acc c).mAt r = 0xFF800000 ∧ (t.acc c).lAt r = 0) ∧ sameFlags s t ∧ matFrame c s t) ∧
  (∀ (p : M) (s : State) (V : Nat → Nat → Nat), let c := p.d.toNat % 8
    let w := s.goff p.spReg
    let f := if p.sf.getLsbD 0 then FT.bf16 else .fp32
    let rowAt := fun (r : Nat) => addrOf (s.src p.base) ((r : Int) * (s.src p.x).toInt)
    s.matReady → c < s.cur.acnt → noCond (shapeConds (p.sf.getLsbD 0) w false) → (p.sf.getLsbD 0 = true → p.fmt ≠ 2) →
    0 < shapeM w → 0 < shapeN w → s.inD .load ((upto 0 (shapeM w)).map (fun r => rowSpan p.fmt.toNat 0 (rowAt r) 0 (shapeN w))) = none →
    (∀ r, r < shapeM w → ∃ locs, s.plainBits none 2 f p.fmt.toNat (rowAt r) 0 (shapeN w) = .ok ((List.range (shapeN w)).map (V r), locs)) →
    ∃ t, exec (.mld p) s = .next t ∧ (t.acc c).bf16 = p.sf.getLsbD 0 ∧ (t.acc c).tag = 0 ∧
      (∀ r n, r < 96 → n < (t.acc c).cols → (t.acc c).at r n = if r < shapeM w ∧ n < shapeN w then V r n else 0) ∧
      (∀ r, r < 96 → (t.acc c).mAt r = 0xFF800000 ∧ (t.acc c).lAt r = 0) ∧ sameFlags s t ∧ matFrame c s t) ∧
  (∀ (p : M) (s : State) (put : Nat → List Put × Flags), let c := p.d.toNat % 8
    let w := s.goff p.spReg
    let a := s.acc c
    let f := (fmtFT p.fmt.toNat).getD .fp32
    let rowAt := fun (r : Nat) => addrOf (s.src p.base) ((r : Int) * (s.src p.x).toInt)
    let rows := List.range (shapeM w)
    s.matReady → c < s.cur.acnt → noCond (shapeConds a.bf16 w false) → 0 < shapeM w → 0 < shapeN w →
    s.inD .store (rows.map (fun r => rowSpan p.fmt.toNat 0 (rowAt r) 0 (shapeN w))) = none →
    (∀ r ∈ rows, s.elemPuts (rowAt r) (f.width / 8) ((List.range (shapeN w)).map (fun n => narrowFloat a.fmt f 0 (a.at r n))) = .ok (put r)) →
    exec (.mst p) s = .next (s.stored (orFlags (rows.map (fun r => (put r).2))) p.rdr.toNat (rows.flatMap (fun r => (put r).1)))) ∧
  (∀ (p : R2) (s : State) (st : Bool), let row0 := (s.src p.b).toNat
    let active := fun i => s.activeAt p.msk i = true
    let per := fun (a : Acc) => if st then 2 else a.cols
    let entry := fun (a : Acc) (i : Nat) =>
      if st then (if i % 2 = 0 then a.mAt (row0 + i / 2) else a.lAt (row0 + i / 2)) else a.at (row0 + i / a.cols) (i % a.cols)
    s.matReady →
    (noCond (s.mmovConds p.a.cidx p.d.toNat st p.msk row0) →
      ∃ t, exec (if st then .mmovStToVec p else .mmovBodyToVec p) s = .next t ∧ wroteElems s t p.d active (entry (s.acc p.a.cidx)) ∧
        t.cur.mask = s.cur.mask ∧ t.cur.accs = s.cur.accs ∧ sameFlags s t ∧ vecFrame s t) ∧
    (noCond (s.mmovConds (p.d.toNat % 8) p.a.vidx.val st p.msk row0) →
      let a := s.acc (p.d.toNat % 8)
      ∃ t, exec (if st then .mmovVecToSt p else .mmovVecToBody p) s = .next t ∧ let u := t.acc (p.d.toNat % 8)
        (∀ i, active i → entry u i = s.cur.elem p.a.vidx i) ∧ u.bf16 = a.bf16 ∧
        (st = false → u.m = a.m ∧ u.l = a.l ∧ ∀ r n, n < a.cols → (∀ i, active i → (r, n) ≠ (row0 + i / per a, i % per a)) → u.at r n = a.at r n) ∧
        (st = true → u.body = a.body ∧ ∀ r, (∀ i, active i → r ≠ row0 + i / 2) → u.mAt r = a.mAt r ∧ u.lAt r = a.lAt r) ∧
        sameFlags s t ∧ matFrame (p.d.toNat % 8) s t)) ∧
  ∀ (p : R2) (s : State), let c := p.d.toNat % 8
    let a := s.acc c
    s.matReady → s.cur.configured = true → s.cur.cfg.etype = 2 → c < s.cur.acnt →
    (p.a.tag = 0 → p.a.vidx.val < s.cur.cfg.nreg ∧ s.cur.cfg.vl.toNat ≤ if p.sf.getLsbD 0 then a.cols else 96) →
    ∃ t, exec (.mscale p) s = .next t ∧ (∀ r n, r < 96 → n < a.cols → (t.acc c).at r n = match s.scaleFactor p r n with
      | none => a.at r n
      | some f => (linearIn a.fmt a.bf16 [(unpack a.fmt (a.at r n), f32 f)]).1) ∧
      (t.acc c).m = a.m ∧ (t.acc c).l = a.l ∧ (t.acc c).bf16 = a.bf16 ∧ matFrame c s t

namespace Sys2Proof.Machine

/-- What a row's scores and value rows do to a row of O, m and l (R299). -/
def softened (a u : Acc) (r n : Nat) (scores : List Nat) (values : Nat → Nat → FV) : Prop :=
  match softRow (a.mAt r) scores with
  | .nan _ => (∀ c, c < n → u.at r c = FT.fp32.nan) ∧ u.mAt r = FT.fp32.nan ∧ u.lAt r = FT.fp32.nan
  | .still => (∀ c, c < n → u.at r c = a.at r c) ∧ u.mAt r = a.mAt r ∧ u.lAt r = a.lAt r
  | .update m' al ps _ => u.mAt r = m' ∧ u.lAt r = (linear ((f32 (a.lAt r), f32 al) :: ps.map (fun p => (f32 p, one32)))).1 ∧
    ∀ c, c < n → u.at r c = (chunkSteps (linear [(f32 (a.at r c), f32 al)]).1
      (ps.zipIdx.map (fun x => (f32 x.1, values x.2 c)))).1

/-- Entry, m and l of a row merged from those of two (R301). -/
def rowMerged (x y u : Acc) (r n : Nat) : Prop :=
  match mergeRows (x.mAt r) (x.lAt r) (y.mAt r) (y.lAt r) with
  | none => (∀ c, c < n → u.at r c = x.at r c) ∧ u.mAt r = x.mAt r ∧ u.lAt r = x.lAt r
  | some g => u.mAt r = g.m ∧ u.lAt r = g.l ∧ ∀ c, c < n → u.at r c =
      if g.nan then FT.fp32.nan else (linear [(f32 (x.at r c), f32 g.a1), (f32 (y.at r c), f32 g.a2)]).1

/-- Rows from `m` on and columns from `n` to 63 of an FP32 tile, and the row state of those rows, are as before. -/
def restOfTile (a u : Acc) (m n : Nat) : Prop :=
  (∀ r c, c < 64 → m ≤ r ∨ n ≤ c → u.at r c = a.at r c) ∧ (∀ r, m ≤ r → u.mAt r = a.mAt r ∧ u.lAt r = a.lAt r) ∧ u.bf16 = a.bf16

end Sys2Proof.Machine

/-- R298 to R303: MSOFT makes one step of streaming softmax on each row; MMASK writes −∞ at masked positions; MMERGE merges two row states;
MFIN writes each row of O divided by its l, narrowed once. That MSOFT and MMERGE leave tag 0 even where every row is masked is the model's
choice (log 56). -/
def Obligations.SoftmaxResults : Prop :=
  (∀ (p : M) (s : State) (V : Nat → Nat → FV), let c := p.d.toNat % 8
    let w := s.goff p.spReg
    let rowAt := fun (j : Nat) => addrOf (s.src p.base) ((j : Int) * (s.src p.x).toInt)
    let ks := List.range (shapeK w)
    s.matReady → s.tilesFp32 [c, p.csTile] = true → shapeM w ≤ 96 → shapeN w ≤ 64 → shapeK w ≤ 64 → 0 < shapeM w → 0 < shapeN w → 0 < shapeK w →
    (kbBits p.fmt.toNat ≠ 0 → ∀ j ∈ ks, rowAt j % 64 = 0) →
    s.inD .load (ks.map (fun j => rowSpan p.fmt.toNat p.planes.toNat (rowAt j) 0 (shapeN w))) = none →
    (∀ j ∈ ks, s.fetches p.fmt.toNat p.planes.toNat (rowAt j) 0 (shapeN w) (V j)) →
    ∃ t, exec (.msoft p) s = .next t ∧
      (∀ r, r < shapeM w → softened (s.acc c) (t.acc c) r (shapeN w) (ks.map (fun j => (s.acc p.csTile).at r j)) V) ∧
      restOfTile (s.acc c) (t.acc c) (shapeM w) (shapeN w) ∧ (t.acc c).tag = 0 ∧ matFrame c s t) ∧
  (∀ (p : R2) (s : State), let c := p.d.toNat % 8
    let a := (s.src p.a).toNat
    let b := (s.src p.b).toNat
    s.matReady → s.tilesFp32 [c] = true → ∃ t, exec (.mmask p) s = .next t ∧
      (∀ r n, r < 96 → n < 64 → (t.acc c).at r n =
        if (p.sf.getLsbD 0 = true ∧ a % 2 ^ 32 + r < b % 2 ^ 32 + n) ∨ (0 < a / 2 ^ 32 ∧ a / 2 ^ 32 + (b % 2 ^ 32 + n) ≤ a % 2 ^ 32 + r) ∨
          (0 < b / 2 ^ 32 ∧ b / 2 ^ 32 ≤ b % 2 ^ 32 + n) then 0xFF800000 else (s.acc c).at r n) ∧
      (t.acc c).m = (s.acc c).m ∧ (t.acc c).l = (s.acc c).l ∧ sameFlags s t ∧ matFrame c s t) ∧
  (∀ (p : R2) (s : State), let c := p.d.toNat % 8
    let w := s.src p.b
    s.matReady → s.tilesFp32 [c, p.a.cidx] = true → shapeM w ≤ 96 → shapeN w ≤ 64 → 0 < shapeM w → 0 < shapeN w →
    ∃ t, exec (.mmerge p) s = .next t ∧ (∀ r, r < shapeM w → rowMerged (s.acc c) (s.acc p.a.cidx) (t.acc c) r (shapeN w)) ∧
      restOfTile (s.acc c) (t.acc c) (shapeM w) (shapeN w) ∧ (t.acc c).tag = 0 ∧ matFrame c s t) ∧
  ∀ (p : M) (s : State) (put : Nat → List Put × Flags), let c := p.d.toNat % 8
    let w := s.goff p.spReg
    let f := (fmtFT p.fmt.toNat).getD .fp32
    let rowAt := fun (r : Nat) => addrOf (s.src p.base) ((r : Int) * (s.src p.x).toInt)
    let rows := List.range (shapeM w)
    s.matReady → s.tilesFp32 [c] = true → shapeM w ≤ 96 → shapeN w ≤ 64 → 0 < shapeM w → 0 < shapeN w →
    s.inD .store (rows.map (fun r => rowSpan p.fmt.toNat 0 (rowAt r) 0 (shapeN w))) = none →
    (∀ r ∈ rows, s.elemPuts (rowAt r) (f.width / 8) ((List.range (shapeN w)).map (fun n => finish f ((s.acc c).at r n) ((s.acc c).lAt r))) = .ok (put r)) →
    exec (.mfin p) s = .next (s.stored (orFlags (rows.map (fun r => (put r).2))) p.rdr.toNat (rows.flatMap (fun r => (put r).1)))

namespace Sys2Proof.Machine

/-- VPROJ and VPGRAD have these operands, and the checks of R308, R416 and R427 hold none: descriptor `d`, labels, normalisers, hidden rows
and weight rows. An empty strip reads only the descriptor (R311, R315). -/
def State.strip (s : State) (p : M) (grad : Bool) (d : Proj) (labels norms : List Nat) (H W : Nat → Nat → FV) : Prop :=
  let j0 := (s.src p.x).toNat % 2 ^ 32
  let nv := (s.src p.x).toNat / 2 ^ 32
  let js := upto j0 nv
  let rs := if nv = 0 then [] else upto 0 d.m
  s.tilesFp32 [p.d.toNat % 8] = true ∧ (grad = true → nv ≤ 64) ∧ s.memBase p % 64 = 0 ∧
  (∃ bs locs, s.descBytes (s.memBase p) 64 = .ok (bs, locs) ∧ d = ⟨wordsOf 8 8 bs⟩) ∧ d.ok = true ∧ j0 + nv ≤ d.v ∧
  (kbBits d.hFmt ≠ 0 → ∀ r ∈ rs, d.hRow r % 64 = 0) ∧ (kbBits d.wFmt ≠ 0 → ∀ j ∈ js, d.wRow j % 64 = 0) ∧ d.lbase % 4 = 0 ∧
  (grad = true → d.nbase % 4 = 0) ∧
  s.inD .load (rs.map (fun r => rowSpan d.hFmt d.hPl (d.hRow r) 0 d.k) ++ js.map (fun j => rowSpan d.wFmt d.wPl (d.wRow j) 0 d.k)) = none ∧
  (if d.lbl ∧ nv ≠ 0 then ∃ locs, s.words32 d.lbase d.m = .ok (labels, locs) else labels = []) ∧
  (if grad ∧ nv ≠ 0 then ∃ locs, s.words32 d.nbase d.m = .ok (norms, locs) else norms = []) ∧
  (∀ r ∈ rs, s.fetches d.hFmt d.hPl (d.hRow r) 0 d.k (H r)) ∧ ∀ j ∈ js, s.fetches d.wFmt d.wPl (d.wRow j) 0 d.k (W j)

/-- The logit of hidden row r and weight row j (R114, R308). -/
def logit (d : Proj) (H W : Nat → Nat → FV) (r j : Nat) : Nat := (chunkSteps 0 ((List.range d.k).map (fun k => (H r k, W j k)))).1

end Sys2Proof.Machine

/-- R307 to R315: VPROJ updates each row's maximum, denominator, heap and label from the strip's logits, of which an empty strip has none;
VPMERGE merges two rows of those;
VPGRAD leaves each row's gradient entries; VPFIN writes the rows' records. The heap of a row is its finite candidates in rank order. -/
def Obligations.VocabularyResults : Prop :=
  (∀ (p : M) (s : State) (d : Proj) (labels norms : List Nat) (H W : Nat → Nat → FV), let c := p.d.toNat % 8
    let j0 := (s.src p.x).toNat % 2 ^ 32
    let nv := (s.src p.x).toNat / 2 ^ 32
    let z := fun r => (List.range nv).map (fun j => logit d H W r (j0 + j))
    let a := s.acc c
    s.matReady →
    (s.strip p false d labels norms H W → 0 < nv → (p.sf.getLsbD 0 = true ∨ a.tag = d.tag) →
      ∃ t, exec (.vproj p) s = .next t ∧ matFrame c s t ∧ (t.acc c).tag = d.tag ∧ ∀ r, r < d.m →
        let g := projNorm (if p.sf.getLsbD 0 then 0xFF800000 else a.mAt r) (if p.sf.getLsbD 0 then 0 else a.lAt r) (z r)
        (t.acc c).mAt r = g.1 ∧ (t.acc c).lAt r = g.2.1 ∧
        (t.acc c).heap r d.kh = topK d.kh ((if p.sf.getLsbD 0 then [] else a.heap r d.kh) ++
          ((z r).zipIdx.filter (fun y => !notFinite y.1)).map (fun y => (y.1, d.g0 + j0 + y.2))) ∧
        (d.lbl = true → ∀ j, j < nv → labels.getD r 0 = d.g0 + j0 + j →
          (t.acc c).at r 31 = (z r).getD j 0 ∧ (t.acc c).at r 63 = d.g0 + j0 + j)) ∧
    (s.strip p false d labels norms H W → nv = 0 → (p.sf.getLsbD 0 = true ∨ a.tag = d.tag) →
      ∃ t, exec (.vproj p) s = .next t ∧ matFrame c s t ∧ (t.acc c).tag = d.tag ∧ sameFlags s t ∧
        (p.sf.getLsbD 0 = false → t.acc c = a) ∧ (p.sf.getLsbD 0 = true → ∀ r, r < d.m →
          (t.acc c).mAt r = 0xFF800000 ∧ (t.acc c).lAt r = 0 ∧ (t.acc c).heap r d.kh = [] ∧
          (d.lbl = true → (t.acc c).at r 31 = 0x7FC00000 ∧ (t.acc c).at r 63 = 0xFFFFFFFF))) ∧
    (s.strip p true d labels norms H W →
      ∃ t, exec (.vpgrad p) s = .next t ∧ matFrame c s t ∧ (t.acc c).tag = 0 ∧ ∀ r n, r < d.m → n < 64 →
        (t.acc c).at r n = if n < nv then (gradEntry (norms.getD r 0) (logit d H W r (j0 + n), 0)
          (d.lbl && decide (labels.getD r 0 = d.g0 + j0 + n))).1 else 0)) ∧
  (∀ (p : R2) (s : State), let c := p.d.toNat % 8
    let x := s.acc c
    let y := s.acc p.a.cidx
    let kh := x.tag.toNat % 64
    s.matReady → s.tilesFp32 [c, p.a.cidx] = true → x.tag = (s.src p.b).setWidth 16 → kh ≤ (if x.tag.getLsbD 6 then 31 else 32) →
    ∃ t, exec (.vpmerge p) s = .next t ∧ matFrame c s t ∧ (t.acc c).tag = x.tag ∧ ∀ r, r < x.tag.toNat / 256 → let u := t.acc c
      (match mergeRows (x.mAt r) (x.lAt r) (y.mAt r) (y.lAt r) with
        | none => u.mAt r = x.mAt r ∧ u.lAt r = x.lAt r
        | some g => u.mAt r = g.m ∧ u.lAt r = g.l) ∧ u.heap r kh = topK kh (x.heap r kh ++ y.heap r kh) ∧
      (x.tag.getLsbD 6 = true → let from_ := if x.at r 31 = 0x7FC00000 ∧ x.at r 63 = 0xFFFFFFFF then y else x
        u.at r 31 = from_.at r 31 ∧ u.at r 63 = from_.at r 63)) ∧
  ∀ (p : M) (s : State) (put : Nat → List Put), let c := p.d.toNat % 8
    let w := (s.goff p.spReg).toNat
    let ko := w % 2 ^ 6
    let m := w / 2 ^ 8 % 2 ^ 8
    let a := s.acc c
    let rowAt := fun (r : Nat) => addrOf (s.src p.base) ((r : Int) * (s.src p.x).toInt)
    let rows := List.range m
    s.matReady → s.tilesFp32 [c] = true → a.tag ≠ 0 → a.tag.toNat / 256 = m → 0 < ko → ko ≤ a.tag.toNat % 64 → (∀ r ∈ rows, rowAt r % 4 = 0) →
    s.inD .store (rows.map (fun r => (rowAt r, rowAt r + 8 + 8 * ko - 1))) = none → (∀ r ∈ rows, s.rowPuts (rowAt r) 4 (finRecord a r ko).1 = .ok (put r)) →
    exec (.vpfin p) s = .next (s.stored (orFlags (rows.map (fun r => (finRecord a r ko).2))) p.rdr.toNat (rows.flatMap put))


/-! ### Tiles, tasks, barriers and the key-value cache -/

namespace Sys2Proof.Machine

/-- A queue instruction can execute and reads no poisoned word: its entry is not frozen, nothing of it is under way (R396, R454). -/
def State.queueReady (s : State) : Prop := s.executes = true ∧ s.clean = true ∧ s.cur.send = .none ∧ s.cur.got = none ∧ s.cur.atBar = false

/-- The elements of a register that 4,096 bytes of a tile hold (R324). -/
def State.tileElems (s : State) (d : Nat) : List (Nat × Nat) :=
  (List.range s.cur.cfg.vl.toNat).map (fun i => (i, d / 2 ^ (i * s.cur.cfg.sew) % 2 ^ s.cur.cfg.sew))

end Sys2Proof.Machine

/-- R50, R51, R164, R320 to R325, R335 to R337: TTAKE, TLOOK, TWAIT and TDROP on a full tile of the own core, TSEND and TMARK that are given an
entry, HWPUB, PUBLISH without an earlier writer, and a barrier at which every hart has arrived complete; an empty tile, or a barrier
that some hart has not reached, makes them wait; a TMARK without an entry stays and is not Waiting (R59, R467). A send to an empty tile of a
core at rest fills it in the sender's own step. That BAR.DOM counts an ended hart of another rank at once is the model's choice (log 46). -/
def Obligations.TileAndBarrierResults : Prop :=
  (∀ (p : R2) (s : State) (r : TileRef), s.queueReady → s.getHandle (s.src p.a) = some (.tile r) →
    let d := (s.tile r).data
    let va := (s.src p.b).toNat
    ((s.tile r).full = true → noCond (s.tileConds (some p.a) p.d.toNat true 0) →
      exec (.ttake p) s = .next ((((s.emptyTile r).pumpAt r).acquired.writeVec (vd p.d) (s.tileElems d)).completedV) ∧
      exec (.tlook p) s = .next ((s.acquired.writeVec (vd p.d) (s.tileElems d)).completedV)) ∧
    ((s.tile r).full = true → va % 64 = 0 → ∀ ps, s.transRange va 4096 .store = .ok ps →
      exec (.ttakeM p) s = .next (((((s.emptyTile r).pumpAt r).acquired.settleRuns true ps).writeRuns true va ps (leBytes 4096 d)).completedV) ∧
      exec (.tlookM p) s = .next (((s.acquired.settleRuns true ps).writeRuns true va ps (leBytes 4096 d)).completedV)) ∧
    ((s.tile r).full = false → noCond (s.tileConds (some p.a) p.d.toNat true 0) → ∃ t, exec (.ttake p) s = .next t ∧
      t.cur.phase = .waiting ∧ t.cur.waitOn = some (s.src p.a) ∧ sameG s t ∧ sameVec s t ∧ sameMemory s t ∧ t.tiles = s.tiles)) ∧
  (∀ (p : R1) (s : State) (r : TileRef), s.queueReady → s.localTile (s.src p.a) = some r →
    ((s.tile r).full = true → s.getHandle (s.src p.a) = some (.tile r) → exec (.twait p) s = .next s.acquired.completedV) ∧
    exec (.tdrop p) s = .next (State.completedV (if (s.tile r).full then (s.emptyTile r).pumpAt r else s)) ∧
    ∀ u, s.stuck = none → u = (({ s.settle with cur := { s.settle.cur with send := .asked } } : State).onMod s.cur.mod (fun y =>
        { y with asking := y.asking ++ [⟨r, none, some s.cur.id, none⟩] })).pumpAt r →
      (u.cur.send = .granted → exec (.tmark p) s = .next u.completedV) ∧
      (u.cur.send ≠ .granted → ∃ t, exec (.tmark p) s = .next t ∧ t.cur.phase ≠ .waiting)) ∧
  (∀ (p : R2) (s u : State) (r : TileRef) (d : Nat), s.queueReady → s.putHandle (s.src p.a) = some (.tile r) → s.handle (s.src p.a) = some (.tile r) →
    s.rankModule r.launch r.rank = some s.cur.mod → s.stuck = none → p.b.isVec = true → noCond (s.tileConds (some p.b) p.b.val.toNat true 0) → s.settle.sendData p.b = .ok d →
    u = ((({ s.settle with cur := { s.settle.cur with send := .asked } } : State).onMod s.cur.mod (fun y =>
      { y with asking := y.asking ++ [⟨r, some d, some s.cur.id, none⟩] })).pumpAt r) →
    (u.cur.send = .granted → exec (.tsend p) s = .next u.completedV) ∧
    (u.cur.send ≠ .granted → ∃ t, exec (.tsend p) s = .next t ∧ t.cur.phase = .waiting ∧ t.cur.waitOn = some (s.src p.a))) ∧
  (∀ (s : State) (m core : Nat) (y : Module) (x : Send), s.mod? m = some y → y.holdsOf core = [] → y.asking = [x] →
    s.coreOf x.dest = some (m, core) → (s.tile x.dest).full = false → x.hart = some s.cur.id → x.node = none → s.cur.phase ≠ .absent →
    s.rankModule s.cur.id.launch s.cur.id.rank = some m → (∀ h ∈ s.allHarts, ∀ r, h.waitsFor r = false) →
    let t := s.pumpAt x.dest
    (t.tile x.dest).full = true ∧ (t.tile x.dest).data = x.data.getD (s.tile x.dest).data ∧ t.cur.send = .granted ∧ sameG s t ∧ sameVec s t ∧ sameMemory s t) ∧
  (∀ (p : R2) (s : State), s.queueReady → s.stuck = none → (s.src p.a).toNat < 64 → (s.src p.b).toNat < 2 ^ 63 →
    exec (.hwpub p) s = .next (s.settle.publishCell s.cur.id.launch s.cur.id.rank (s.src p.a).toNat (s.src p.b).toNat (p.sf.getLsbD 0)).completedV) ∧
  (∀ (s : State) (l r n v : Nat) (close : Bool) (sh : Share), s.share? l r = some sh →
    ∃ sh', (s.publishCell l r n v close).share? l r = some sh' ∧ let c := Tbl.getD sh.cells n ⟨0, false⟩
      Tbl.find n sh'.cells = some ⟨max c.index v, c.closed || close⟩ ∧ sh'.delivery = sh.delivery + 1) ∧
  (∀ (p : R1) (s : State) (x : Module) (b : PubBuf), let va := (s.src p.a).toNat
    let asid := s.cur.atp.toNat / 2 ^ 44 % 2 ^ 16
    s.queueReady → s.mod? s.cur.mod = some x → x.pub? asid va = some b →
    (∀ n ∈ x.nodes, n.2.state ≠ .running) → (∀ h ∈ s.harts, s.publishing h = none) →
    let t := s.flip s.cur.mod asid va b.dom
    (t.imageInUse b s.cur.mod b.sel = false → exec (.publish p) s = .next t.completedV) ∧
    (t.imageInUse b s.cur.mod b.sel = true → ∃ u, exec (.publish p) s = .next u ∧ u.mods = t.mods ∧ u.cur.send = .granted ∧ sameG s u ∧ sameMemory s u)) ∧
  ∀ (p : R1) (s : State) (l : Launch), s.queueReady → s.stuck = none → s.launch? s.cur.id.launch = some l →
    (let v := (s.src p.a).toNat
    let bw := if v % 16 = 0 then l.pkt.wid else v % 16
    let bh := if v / 16 % 16 = 0 then l.pkt.hgt else v / 16 % 16
    let t := s.settle.arrive (bw + 16 * bh)
    let mine := t.peers.filter (fun g => g.id.x / bw == t.cur.id.x / bw && g.id.y / bh == t.cur.id.y / bh)
    let n := Tbl.getD t.cur.bars (bw + 16 * bh) 0
    l.pkt.wid % bw = 0 → l.pkt.hgt % bh = 0 →
    ((∀ g ∈ mine, g.phase = .ended ∨ n ≤ Tbl.getD g.bars (bw + 16 * bh) 0) → exec (.bar p) s = .next t.completedV) ∧
    ((∃ g ∈ mine, g.phase ≠ .ended ∧ Tbl.getD g.bars (bw + 16 * bh) 0 < n) → ∃ u, exec (.bar p) s = .next u ∧ u.cur.phase = .waiting)) ∧
    (s.lostStore = none → (∀ m ∈ l.pkt.ranks, s.rankLost m = false) →
      let t := (writeBack s.acknowledged locHbm).tellArrival l.pkt.ranks
      let n := Tbl.getD t.cur.bars domKey 0
      (∀ g ∈ t.allHarts, g.id.launch = s.cur.id.launch → g.phase ≠ .absent → g.phase = .ended ∨
        if g.id.rank = s.cur.id.rank then n ≤ Tbl.getD g.bars domKey 0
        else ∀ sh, t.share? s.cur.id.launch s.cur.id.rank = some sh → n ≤ sh.seen g.id) →
      exec (.barDom p) s = .next ({ t with cur := { t.cur with send := .asked } } : State).completedV)

/-- R328 to R334: NODE.COPY and NODE.CALL write a Building node and its word, or 0 with no Free entry; NODE.EDGE adds an edge, or
gives 0 for a finished predecessor; NODE.ARM arms the node, Ready without predecessors; NODE.ARM.DONE finishes a Running call node
after the writes of the core; NODE.WAIT waits while the node lives. A node that finishes releases its successors. A Ready
copy node takes a free engine, moves its blocks and finishes; a Ready call node sends its item. Which Free entry a node takes, which of several
nodes that became Ready at once starts first, and that an event moves one block, are the model's choices (logs 14, 25, 83). -/
def Obligations.TaskGraphResults : Prop :=
  (∀ (p : R3) (s : State) (k : NodeKind) (i : Instr), s.queueReady →
    ((i = .nodeCopy p ∧ k = .copy (s.copyJob p) ∧ p.c.val.toNat < s.cur.cfg.nreg ∧ s.cur.configured = true ∧ s.cur.cfg.etype = 7 ∧
        1 ≤ s.cur.cfg.vl.toNat ∧ s.cur.cfg.vl.toNat ≤ 8 ∧ (∀ d ∈ (s.copyJob p).dims, d.2 ≠ 0) ∧ (s.copyJob p).count * (s.copyJob p).width ≤ 2 ^ 36 ∧
        ((s.copyJob p).tile = true → (s.copyJob p).count * (s.copyJob p).width ≤ 4096 ∧ (s.rankTile (s.copyJob p).dst).isSome = true)) ∨
      (i = .nodeCall p ∧ k = .call (s.src p.a) (s.src p.b) ∧ (s.rankTile (s.src p.a)).isSome = true)) →
    (∀ e x, s.freeEntry s.cur.mod s.cur.id.launch = some e → s.mod? s.cur.mod = some x →
      ∃ t n y, exec i s = .next t ∧ t.mod? s.cur.mod = some y ∧ Tbl.find e y.nodes = some n ∧ n.state = .building ∧ n.kind = k ∧
        n.launch = s.cur.id.launch ∧ n.owner = s.cur.id ∧ n.preds = 0 ∧ n.succs = [] ∧ (gd p.d ≠ 0 → t.cur.greg (gd p.d) = nodeWord n.serial e) ∧
        sameGBut (gd p.d) s t ∧ sameVec s t ∧ sameMemory s t) ∧
    (s.freeEntry s.cur.mod s.cur.id.launch = none → exec i s = .next (s.setG (gd p.d) 0).completedV)) ∧
  (∀ (p : R2) (s : State) (x : Nat × Node), s.queueReady → s.ownBuilding (s.src p.a) = some x → s.src p.a ≠ s.src p.b →
    (s.myNode (s.src p.b) = none → exec (.nodeEdge p) s = .next (s.setG (gd p.d) 0).completedV) ∧
    ∀ y, s.myNode (s.src p.b) = some y → y.2.succs.length < 16 → exec (.nodeEdge p) s = .next ((((s.onNode s.cur.mod y.1 (fun n =>
      { n with succs := n.succs ++ [x.1] })).onNode s.cur.mod x.1 (fun n => { n with preds := n.preds + 1 })).setG (gd p.d) 1).completedV)) ∧
  (∀ (p : R1) (s : State), s.queueReady → s.stuck = none →
    (∀ x, s.ownBuilding (s.src p.a) = some x → exec (.nodeArm p) s = .next (State.completedV (s.settle.onNode s.cur.mod x.1 (fun n =>
      if n.preds = 0 then { n with state := .ready, readyAt := s.tick } else { n with state := .armed })))) ∧
    (∀ x hd arg, s.myNode (s.src p.a) = some x → x.2.kind = .call hd arg → x.2.state = .running →
      exec (.nodeArmDone p) s = .next ((writeBackStacks s.settle s.cur.mod).finishNode s.cur.mod x.1 x.2).completedV) ∧
    (s.myNode (s.src p.a) = none → exec (.nodeWait p) s = .next (writeBackStacks s.settle s.cur.mod).completedV) ∧
    ((s.myNode (s.src p.a)).isSome = true → ∃ t, exec (.nodeWait p) s = .next t ∧ t.cur.phase = .waiting ∧ t.cur.waitOn = some (s.src p.a))) ∧
  (∀ (s : State) (m i k : Nat) (x : Module) (n a : Node), s.mod? m = some x → Tbl.find i x.nodes = some n → n.succs = [k] → k ≠ i → Tbl.find k x.nodes = some a →
    ∃ y n' a', (s.finishNode m i n).mod? m = some y ∧ Tbl.find i y.nodes = some n' ∧ n'.state = .free ∧ Tbl.find k y.nodes = some a' ∧
      a'.preds = a.preds - 1 ∧ (a'.state = if a.state = .armed ∧ a.preds ≤ 1 then .ready else a.state)) ∧
  ∀ (s : State) (m i : Nat) (x : Module) (n : Node), s.modRuns m = true → s.mod? m = some x → x.node? i = some n →
    (∀ j, n.kind = .copy j →
      (n.state = .ready → x.firstReady = some i → x.busyEngines < 16 →
        exec (.copyNodeStart m i) s = .next (s.onNode m i (fun y => { y with state := .running, readyAt := s.tick }))) ∧
      (n.state = .running → exec (.copyNodeStart m i) s = .next (s.moveBlocks m i j 1)) ∧
      (n.state = .running → ∀ k y, let t := s.moveBlocks m i j (j.blocks - n.block)
        t.mod? m = some y → y.node? i = some k → k.faulted = false → j.blocks ≤ k.block → j.tile = false →
        exec (.copyNodeFinish m i) s = .next (t.finishNode m i k))) ∧
    ∀ hd arg l r, n.kind = .call hd arg → n.state = .ready → n.send = .none → s.launch? n.launch = some l →
      handleOf n.launch l.pkt hd.toNat = some (.tile r) →
      exec (.callNodeDelivery m i) s = .next (((s.onNode m i (fun y => { y with send := .asked })).onMod m (fun z => { z with
        asking := z.asking ++ [⟨r, some ((nodeWord n.serial i).toNat + arg.toNat * 2 ^ 64), none, some i⟩] })).pumpAt r)

namespace Sys2Proof.Machine

/-- A key-value instruction executes in the hart's own step: its descriptor lies on this module, and no other hart's KVAPP is between
its two steps on a descriptor that it works on (R346, R347, R452). -/
def State.kvReady (s : State) (a : Word) (on : List Nat) : Prop :=
  s.queueReady ∧ (s.cur.active.map (·.remote)).getD .idle = .idle ∧ s.kvHome a.toNat = .ok s.cur.mod ∧ s.seqBusy on = false

/-- A key-value instruction whose computation gives `v` and leaves memory as in `t` writes gd and completes (R346). -/
def kvGives (i : Instr) (d : BitVec 6) (s : State) (f : Kv Nat) : Prop :=
  ∀ v t, f s = .ok (v, t) → exec i s = .next (t.setG (gd d) (BitVec.ofNat 64 v)).completedV

/-- One whose computation stops has no effect on any structure (R451). -/
def kvStops {α : Type} (i : Instr) (s : State) (f : Kv α) : Prop :=
  ∀ c v, f s = .error (.trap c v) → c.code = 0x0C → s.cur.trap.hm = false → ∃ t, exec i s = .next t ∧ t.cur.phase = .saved ∧
    t.cur.trap.cause = c ∧ t.cur.trap.tval = v ∧ sameMemory s t ∧ sameG s t

/-- The descriptor at `a` and the cache root of the hart's module can be read and are in form (R341, R343, R359). -/
def State.kvHas (s : State) (a : Nat) (d : KvSeq) (r : KvRoot) : Prop := kvSeq s.kvCx a s = .ok (d, s) ∧ kvRootAt s.kvCx s.cur.mod s = .ok (r, s)

/-- Block `b` of a sequence holds the word `w`, which names the Live entry `x` (R343, R344). -/
def State.kvBlock (s : State) (d : KvSeq) (b w : Nat) (x : KvEntry) : Prop := kvLocal s.kvCx d b s = .ok (w, s) ∧ kvEntry s.kvCx w d.va s = .ok (x, s)

/-- A write to a structure: module, address, bytes, value. -/
structure KvPut where
  m : Nat
  va : Nat
  n : Nat
  v : Nat

/-- Entry `b` of the local table becomes `w` (R343). -/
def KvSeq.putLocal (d : KvSeq) (m b w : Nat) : KvPut := ⟨m, d.ltab + 8 * b, 8, w⟩
/-- LEN becomes `n` (R343). -/
def KvSeq.putLen (d : KvSeq) (m n : Nat) : KvPut := ⟨m, d.va + 8, 8, d.cap * 2 ^ 32 + n⟩
/-- Scores from position `k` on become +0, if there is a score table (R350). -/
def KvSeq.putScores (d : KvSeq) (m k n : Nat) : List KvPut := if d.stab = 0 then [] else (upto k n).map (fun j => ⟨m, d.stab + 4 * j, 4, 0⟩)
/-- REF becomes `n` (R344). -/
def KvEntry.putRef (x : KvEntry) (n : Nat) : KvPut := ⟨x.root.m, x.ea, 8, setBits x.word 32 16 n⟩

/-- These writes, in order. -/
def kvPuts (cx : KvCx) (ws : List KvPut) : Kv Unit := ws.forM (fun w => kvWrite cx w.m w.va w.n w.v)

/-- From state `u`, writes that all translate: the instruction makes them, writes `v` to gd and completes (R346). -/
def kvCompletes (i : Instr) (d : BitVec 6) (s u : State) (ws : List KvPut) (v : Nat) : Prop :=
  ∀ t, kvPuts s.kvCx ws u = .ok ((), t) → exec i s = .next (t.setG (gd d) (BitVec.ofNat 64 v)).completedV

/-- What KVXL, KVREL, KVMAP and KVAPP give and write, with their operands in form (R349 to R352). -/
def kvScalarCases (p : R3) (s : State) (d : KvSeq) (r : KvRoot) : Prop :=
  let a := (s.src p.a).toNat
  let b := (s.src p.b).toNat
  let c := (s.src p.c).toNat
  let m := s.cur.mod
  let blk := d.len / 16
  let row := d.len % 16
  let n := min b (16 - row)
  let own := p.sf.getLsbD 0
  (∀ w, b < d.len → kvLocal s.kvCx d (b / 16) s = .ok (w, s) → kvCompletes (.kvxlE p) p.d s s [] w ∧
    ∀ x, kvEntry s.kvCx w a s = .ok (x, s) →
      kvCompletes (.kvxl p) p.d s s [] (pageWord (x.page r.base) (min 16 (d.len - 16 * (b / 16))) (b % 16))) ∧
  (d.blocks ≤ b → kvCompletes (.kvrel p) p.d s s [d.putLen m d.len] 0) ∧
  (∀ w x, d.blocks = b + 1 → s.kvBlock d b w x → 1 < x.ref →
    kvCompletes (.kvrel p) p.d s s [x.putRef (x.ref - 1), d.putLocal m b 0, d.putLen m (16 * b)] 0) ∧
  (∀ x, kvEntry s.kvCx c a s = .ok (x, s) →
    (row = 0 → b = blk → b < d.cap → (own = true ∨ x.ref < 65535) →
      kvCompletes (.kvmap p) p.d s s ((if own then [] else [x.putRef (x.ref + 1)]) ++ [d.putLocal m b c, d.putLen m (d.len + 16)]) 0) ∧
    ∀ w y, b < d.blocks → s.kvBlock d b w y →
      (y.root.m = x.root.m → y.gbn = x.gbn → own = false → kvCompletes (.kvmap p) p.d s s [d.putLocal m b c] w) ∧
      (own = true → 1 < y.ref → kvCompletes (.kvmap p) p.d s s [y.putRef (y.ref - 1), d.putLocal m b c] w)) ∧
  (1 ≤ b → b ≤ 16 → blk < d.cap →
    (∀ w x, row ≠ 0 → s.kvBlock d blk w x → x.ref ≤ 1 →
      kvCompletes (.kvapp p) p.d s s (d.putScores m d.len n ++ [d.putLen m (d.len + n)]) (pageWord (x.page r.base) n row)) ∧
    ∀ page t, row = 0 → kvAlloc s.kvCx r.base d.arank d.atier d.acls a s = .ok (page, t) →
      kvCompletes (.kvapp p) p.d s t (d.putLocal m blk page.1 :: (d.putScores m d.len n ++ [d.putLen m (d.len + n)])) (pageWord page.2 n 0))

/-- What KVKEEP, KVTOPK and KVSCORE give and write, with their operands in form (R354 to R356). -/
def kvVectorCases (p : R3) (s : State) (d : KvSeq) (r : KvRoot) : Prop :=
  let a := (s.src p.a).toNat
  let b := (s.src p.b).toNat
  let c := (s.src p.c).toNat
  let m := s.cur.mod
  let keep := s.keepSet p
  let lo := c % 2 ^ 32
  let n := min (c / 2 ^ 32) d.len - lo
  s.cur.configured = true →
  (p.c.val.toNat < s.cur.cfg.nreg → s.cur.cfg.etype = 6 → ascending keep = true →
    (keep = [] → d.len = 0 → kvCompletes (.kvkeep p) p.d s s [d.putLen m 0] 0) ∧
    ∀ w x page t u v k, keep ≠ [] → (∀ j ∈ keep, j < d.len) → d.blocks = 1 → d.stab = 0 → s.kvBlock d 0 w x → x.cls = d.acls →
      kvAlloc s.kvCx r.base d.arank d.atier d.acls a s = .ok (page, t) →
      keep.zipIdx.forM (fun j => kvToken s.kvCx r.dim d.acls (x.page r.base) page.2 j.1 j.2) t = .ok ((), u) →
      kvLocal s.kvCx d 0 u = .ok (w, u) → kvDrop s.kvCx w a u = .ok (k, v) →
      kvCompletes (.kvkeep p) p.d s v [d.putLocal m 0 0, d.putLocal m 0 page.1, d.putLen m keep.length] keep.length) ∧
  (p.d.toNat < s.cur.cfg.nreg → s.cur.cfg.etype = 6 → b ≤ s.cur.cfg.vl.toNat → d.stab ≠ 0 →
    (b = 0 ∨ n = 0 → exec (.kvtopk p) s = .next (s.writeVec (vd p.d) []).completedV) ∧
    ∀ all t, b ≠ 0 → n ≠ 0 → kvReadVec s.kvCx m (d.stab + 4 * lo) (4 * n) s = .ok (all, t) →
      let score := fun k => bits all (32 * (k - lo)) 32
      let best := (rankSort (fun i j => scoreBefore (score i) (score j)) (upto lo n)).take b
      exec (.kvtopk p) s = .next (t.writeVec (vd p.d) ((rankSort (fun i j => decide (i < j)) best).zipIdx.map (fun x => (x.2, x.1)))).completedV) ∧
  (p.c.val.toNat < s.cur.cfg.nreg → s.cur.cfg.etype = 2 → s.noBad → d.stab ≠ 0 →
    let els := (List.range s.cur.cfg.vl.toNat).filter (fun i => decide (s.cur.unf.estart ≤ i) && decide (b + i < d.len))
    ∀ q : Nat → Phys, (∀ i ∈ els, s.translate (d.stab + 4 * (b + i)) .amo = .ok (q i)) →
      let out := els.foldl (fun (y : State × Flags) i =>
        let u := y.1.settleFor true (q i)
        let v := eAdd .fp32 0 (leNat (readBytes u (q i).uncached (q i).spot.loc 4)) (s.cur.elem p.c.vidx i)
        (u.putPhys (q i) (leBytes 4 v.1) 0, y.2 ||| v.2)) (s, 0)
      exec (.kvscore p) s = .next (out.1.raise out.2).completedV)

/-- What KVFORK gives and writes, with the descriptors in form (R352). -/
def kvForkCases (p : R3) (s : State) (x y : KvSeq) : Prop :=
  let n := (s.src p.c).toNat
  let m := s.cur.mod
  y.len = 0 → n ≤ x.len → (n = 0 → kvCompletes (.kvfork p) p.d s s [y.putLen m 0] 0) ∧
    ∀ w e, 0 < n → n ≤ 16 → 1 ≤ y.cap → s.kvBlock x 0 w e → e.ref < 65535 →
      kvCompletes (.kvfork p) p.d s s [e.putRef (e.ref + 1), y.putLocal m 0 w, y.putLen m n] 1

/-- What KVPIDX and KVPIDX.INS give and write for the bucket `w` of the key (R357, R358). -/
def kvIndexCases (p : R3) (s : State) (r : KvRoot) (ids w : Nat) : Prop :=
  let link := (s.src p.b).toNat
  let key := kvKey ids link
  let va := r.pidx + 512 * (key / 64 % r.nb)
  let hit := (List.range 4).find? (fun k => entryMatches (bucketEntry w k) key link ids)
  let free := (List.range 4).find? (fun k => !(bits (bucketEntry w k) 128 64).testBit 63)
  let c := (s.src p.c).toNat
  (hit = none → kvCompletes (.kvpidx p) p.d s s [] 0 ∧
    ∀ k x, free = some k → kvEntry s.kvCx c va s = .ok (x, s) → x.ref < 65535 →
      kvCompletes (.kvpidxIns p) p.d s s [x.putRef (x.ref + 1), ⟨r.m, va + 128 * k, 128, key + link * 2 ^ 64 + c * 2 ^ 128 + ids * 2 ^ 256⟩] c) ∧
  ∀ k x, hit = some k → let old := bits (bucketEntry w k) 128 64
    kvEntry s.kvCx old va s = .ok (x, s) → x.ref < 65535 →
    kvCompletes (.kvpidx p) p.d s s [x.putRef (x.ref + 1)] old ∧ kvCompletes (.kvpidxIns p) p.d s s [x.putRef (x.ref + 1)] old

end Sys2Proof.Machine

/-- R349 to R358, R451: each key-value instruction on structures of its own module completes with the value and the effect of its rule, written
out for the cases of `kvScalarCases`, `kvVectorCases`, `kvForkCases` and `kvIndexCases` and for every case as the computation of its rule; one
that meets a structure fault raises it and changes no structure. KVAPP's test of a shared page is a step of its own (R452). The address space
in which a structure is named, KVKEEP of an empty set, what a freed entry keeps, the unchecked word of KVXL.E and the cause of an entry that is
not Live are the model's choices (logs 34, 49, 50, 84, 85). -/
def Obligations.KeyValueResults : Prop :=
  (∀ (p : R3) (s : State), let a := (s.src p.a).toNat
    let b := (s.src p.b).toNat
    let c := (s.src p.c).toNat
    (s.kvReady (s.src p.a) [a] →
      kvGives (.kvxl p) p.d s (kvTranslate s.kvCx false a b) ∧ kvStops (.kvxl p) s (kvTranslate s.kvCx false a b) ∧
      kvGives (.kvxlE p) p.d s (kvTranslate s.kvCx true a b) ∧ kvStops (.kvxlE p) s (kvTranslate s.kvCx true a b) ∧
      kvGives (.kvrel p) p.d s (kvRelease s.kvCx a b) ∧ kvStops (.kvrel p) s (kvRelease s.kvCx a b) ∧
      kvGives (.kvmap p) p.d s (kvInstall s.kvCx (p.sf.getLsbD 0) a b c) ∧ kvStops (.kvmap p) s (kvInstall s.kvCx (p.sf.getLsbD 0) a b c) ∧
      (∀ d r, s.kvHas a d r → kvScalarCases p s d r ∧ kvVectorCases p s d r) ∧
      (1 ≤ b → b ≤ 16 → kvStops (.kvapp p) s (kvShared s.kvCx a) ∧
        (kvShared s.kvCx a s = .ok (false, s) → kvGives (.kvapp p) p.d s (kvAppend s.kvCx false a b) ∧ kvStops (.kvapp p) s (kvAppend s.kvCx false a b)) ∧
        (kvShared s.kvCx a s = .ok (true, s) → ∃ t, exec (.kvapp p) s = .next t ∧ t.cur.got = s.seqLoc a ∧ sameMemory s t ∧ sameG s t)) ∧
      (p.c.val.toNat < s.cur.cfg.nreg → s.cur.configured = true → s.cur.cfg.etype = 6 → ascending (s.keepSet p) = true →
        kvGives (.kvkeep p) p.d s (kvKeep s.kvCx a (s.keepSet p)) ∧ kvStops (.kvkeep p) s (kvKeep s.kvCx a (s.keepSet p))) ∧
      (p.d.toNat < s.cur.cfg.nreg → s.cur.configured = true → s.cur.cfg.etype = 6 → b ≤ s.cur.cfg.vl.toNat →
        kvStops (.kvtopk p) s (kvTop s.kvCx a b (c % 2 ^ 32) (c / 2 ^ 32)) ∧ ∀ ps t, kvTop s.kvCx a b (c % 2 ^ 32) (c / 2 ^ 32) s = .ok (ps, t) →
          exec (.kvtopk p) s = .next (t.writeVec (vd p.d) (ps.zipIdx.map (fun x => (x.2, x.1)))).completedV) ∧
      (p.c.val.toNat < s.cur.cfg.nreg → s.cur.configured = true → s.cur.cfg.etype = 2 → kvStops (.kvscore p) s (kvScores s.kvCx a) ∧ (s.noBad →
        ∀ d t qs, kvScores s.kvCx a s = .ok (d, t) →
          scoreAll s d b ((List.range s.cur.cfg.vl.toNat).filter (fun i => decide (s.cur.unf.estart ≤ i) && decide (b + i < d.len))) = .ok qs →
          let out := qs.foldl (fun (y : State × Flags) x =>
            let u := y.1.settleFor true x.2
            let r := eAdd .fp32 0 (leNat (readBytes u x.2.uncached x.2.spot.loc 4)) (s.cur.elem p.c.vidx x.1)
            (u.putPhys x.2 (leBytes 4 r.1) 0, y.2 ||| r.2)) (s, 0)
          exec (.kvscore p) s = .next (out.1.raise out.2).completedV))) ∧
    (s.kvReady (s.src p.a) [a, b] → (∀ x y, kvSeq s.kvCx a s = .ok (x, s) → kvSeq s.kvCx b s = .ok (y, s) → kvForkCases p s x y) ∧ kvGives (.kvfork p) p.d s (kvFork s.kvCx a b c) ∧ kvStops (.kvfork p) s (kvFork s.kvCx a b c))) ∧
  ∀ (p : R3) (s t : State) (ids : Nat) (r : KvRoot), let link := (s.src p.b).toNat
    let key := kvKey ids link
    s.queueReady → (s.cur.active.map (·.remote)).getD .idle = .idle → s.kvIds p = .ok ids → kvRootAt s.kvCx s.cur.mod s = .ok (r, t) →
    s.kvCx.ranks[key % r.nr]? = some s.cur.mod →
    (∀ w, kvRoot s.kvCx (key % r.nr) s.kvCx.root s = .ok (r, s) → kvRead s.kvCx r.m (r.pidx + 512 * (key / 64 % r.nb)) 512 s = .ok (w, s) →
      kvIndexCases p s r ids w) ∧
    kvGives (.kvpidx p) p.d s (kvIndex s.kvCx ids link key none) ∧ kvStops (.kvpidx p) s (kvIndex s.kvCx ids link key none) ∧
    kvGives (.kvpidxIns p) p.d s (kvIndex s.kvCx ids link key (some (s.src p.c).toNat)) ∧
    kvStops (.kvpidxIns p) s (kvIndex s.kvCx ids link key (some (s.src p.c).toNat))


/-! ### What happens at the device: messages, queues, launches, firmware, memory, storage, power -/

namespace Sys2Proof.Machine

/-- A message of the fabric reaches a module that acts. -/
def State.arrives (s : State) (n m : Nat) (x : Msg) : Prop := s.fabric[n]? = some x ∧ s.modRuns m = true

/-- The event has exactly this effect. -/
def gives (i : Instr) (s t : State) : Prop := exec i s = .next t

/-- A message that is dropped leaves everything else as it is. -/
def taken (s t : State) (n : Nat) : Prop := t.fabric = s.fabric.eraseIdx n ∧ sameG s t ∧ sameVec s t ∧ sameMemory s t ∧ t.tiles = s.tiles

end Sys2Proof.Machine

/-- R53, R54, R166, R267, R320, R323, R337, R347, R363, R405, R407, R473, R474: what each message does where it arrives. A far or key-value request
runs in its module and sends its completion; a store performs and sends its acknowledgement; an entry request joins the requests of its
core; grants, completions and refusals reach the queue entry that waits; arrivals, releases, disarms and ends move a launch's start and
end along; a record is written and an ACT applied. A send to a launch that is over is refused, and the refusal reaches the entry that waits.
That an abort and an ACT reach the ranks that answer at once, and the order in which a rank arms what marches bring, are the model's choices
(logs 35, 52, 73). -/
def Obligations.MessagesTakeEffect : Prop :=
  (∀ (s : State) (n : Nat) (h : HartId) (x : Hart), s.hart? h = some x → x.phase ≠ .ended → s.cur.id = h → s.cur.phase ≠ .absent →
    (∀ home e op, s.arrives n (home / 16) (.farReq h home) → s.liveOn h.launch (home / 16) = true → s.drooped home = false →
      s.cur.vq.head? = some e → farOf e.instr = some op →
      let o := op.run { s.dropMsg n with cur := { s.cur with active := some e } } home
      o.stop = none → ∃ t, exec (.farRequestArrival n) s = .next t ∧ t.fabric = o.s.fabric ++ [.farDone o.s.cur.id ⟨o.flags, o.data, none⟩] ∧
        t.banks = o.s.banks ∧ t.dram = o.s.dram ∧ t.near = o.s.near ∧ t.msc = o.s.msc ∧ t.cur = { o.s.cur.quiet s.tick with active := none }) ∧
    (∀ m e op o, s.arrives n m (.kvReq h m) → s.cur.vq.head? = some e → kvOf e.instr = some op →
      op.run { s.dropMsg n with cur := { s.cur with active := some e } } = .done o → o.stop = none →
      ∃ t, exec (.kvRemoteRequest n) s = .next t ∧ t.fabric = o.s.fabric ++ [.farDone o.s.cur.id ⟨o.flags, o.data, none⟩] ∧
        t.dram = o.s.dram ∧ t.near = o.s.near ∧ t.msc = o.s.msc)) ∧
  (∀ (s : State) (n : Nat) (e : QEntry) (rest : List QEntry), s.cur.phase ≠ .absent → s.cur.vq = e :: rest → e.remote = .sent → ∀ tval sub r,
    (s.fabric[n]? = some (.farDone s.cur.id r) → ∃ t, exec (.farCompletion n) s = .next t ∧ taken s t n ∧ t.cur.vq = { e with remote := .done r } :: rest) ∧
    (∀ m, s.fabric[n]? = some (.refusal s.cur.id sub tval) → s.rankModule s.cur.id.launch s.cur.id.rank = some m → s.liveOn s.cur.id.launch m = true →
      ∃ t, exec (.staleRefusal n) s = .next t ∧ taken s t n ∧
        t.cur.vq = { e with remote := .done ⟨0, [], some (0, ⟨⟨0x0F, 2⟩, tval, true⟩)⟩ } :: rest)) ∧
  (∀ (s : State) (n : Nat) (h : HartId) (va : Word) (vec far d : Bool) (rd a : Nat) (bs : List Byte), s.arrives n (a / 2 ^ 52) (.store h va vec far d rd a bs) →
    behindStore h vec (decide ((s.rankModule h.launch h.rank).getD 0 ≠ a / 2 ^ 52)) d a bs.length (s.fabric.take n) = false → s.rangeMoves a bs.length = false →
    let t := performStore (s.dropMsg n) ((s.rankModule h.launch h.rank).getD 0) (.store h va vec far d rd a bs)
    gives (.remoteRequestArrival n) s t ∧ (s.fabric.findIdx (Msg.storeOf h) = n → gives (.memoryAccessPerform h) s t)) ∧
  (∀ (s : State) (n : Nat), s.cur.phase ≠ .absent →
    (∀ va, s.fabric[n]? = some (.ack s.cur.id va) → ∃ t, exec (.remoteStoreAck n) s = .next t ∧ taken s t n ∧ t.cur.unacked = s.cur.unacked.erase va) ∧
    (s.fabric[n]? = some (.grant s.cur.id) → ∃ t, exec (.entryGrant n) s = .next t ∧ taken s t n ∧
      t.cur.send = if s.cur.send = .asked then .granted else s.cur.send)) ∧
  (∀ (s : State) (n m : Nat) (x : Send), s.arrives n m (.entryReq x) → s.rankModule x.dest.launch x.dest.rank = some m →
    (s.liveOn x.dest.launch m = true →
      gives (.holdEntryRequest n) s (((s.dropMsg n).onMod m (fun y => { y with asking := y.asking ++ [x] })).pumpAt x.dest)) ∧
    ∀ h, s.liveOn x.dest.launch m = false → x.hart = some h → ∃ t, exec (.holdEntryRequest n) s = .next t ∧
      t.fabric = s.fabric.eraseIdx n ++ [.refusal h 1 x.dest.handle] ∧ t.tiles = s.tiles) ∧
  (∀ (s : State) (n m l : Nat) (h : HartId) (k : Nat) (x : Launch) (sh : Share), s.arrives n m (.barDom l m h k) → s.liveOn l m = true → s.launch? l = some x →
    Tbl.find (x.pkt.ranks.idxOf m) x.shares = some sh → ∃ t sh', exec (.barDomMessage n) s = .next t ∧ taken s t n ∧
      t.share? l (x.pkt.ranks.idxOf m) = some sh' ∧ sh'.seen h = max k (sh.seen h) ∧ sh'.delivery = sh.delivery + 1) ∧
  (∀ (s : State) (n l r : Nat) (x : Launch), s.launch? l = some x →
    (∀ m want, s.arrives n m (.march l r) → x.pkt.ranks[r]? = some m →
      let u := (s.dropMsg n).onMod m (fun y => { y with march := y.march ++ [(l, r)] })
      ((∀ p, x.prio ≤ p → p ≤ 3 → u.placeAt m p want = none) → gives (.marchPacketReceive n want) s u) ∧
      ∀ p t, x.prio ≤ p → p ≤ 3 → (∀ k, p < k → k ≤ 3 → u.placeAt m k want = none) → u.placeAt m p want = some t →
        gives (.marchPacketReceive n want) s t) ∧
    (s.arrives n x.rank0 (.arrival l r) → x.finished = false → gives (.marchArrival n) s (((s.dropMsg n).onLaunch l (fun y =>
      { y with arrivals := if r ∈ y.arrivals then y.arrivals else y.arrivals ++ [r] })).releaseAll l)) ∧
    (∀ m sh, s.arrives n m (.release l r) → s.rankModule l r = some m → s.liveOn l m = true → s.share? l r = some sh → sh.state = .armed →
      gives (.marchRelease n) s ((s.dropMsg n).startShare l r)) ∧
    (∀ m d f, s.arrives n m (.disarm l r d f) → s.rankModule l r = some m →
      (r = 0 → gives (.marchDisarm n) s (if x.finished then countStale (s.dropMsg n) m false else (s.dropMsg n).abandon l d f)) ∧
      (r ≠ 0 → (∀ sh, s.share? l r = some sh → sh.state ≠ .gone → gives (.marchDisarm n) s ((s.dropMsg n).dropShare l r)) ∧
        ((∀ sh, s.share? l r = some sh → sh.state = .gone) → gives (.marchDisarm n) s (countStale ((s.dropMsg n).dropShare l r) m false)))) ∧
    (s.arrives n x.rank0 (.ended l r) → ∀ sh, s.share? l r = some sh → ∃ t sh', exec (.rankEndReport n) s = .next t ∧ taken s t n ∧
      t.share? l r = some sh' ∧ sh'.reported = true) ∧
    ∀ rec', s.arrives n x.origin (.errRec l rec') → gives (.errorRecordForward n) s (writeErr (s.dropMsg n) x.origin x.queue rec')) ∧
  ∀ (s : State) (n m : Nat) (h : HartId) (node : Option NodeRef), s.rankModule h.launch h.rank = some m →
    (s.arrives n m (.act h node true) → gives (.actForward n) s ((s.dropMsg n).applyResume h node)) ∧
    (s.arrives n m (.act h node false) → gives (.actForward n) s (abortLaunch (s.dropMsg n) m h.launch 2 0 0))

/-- R35, R42, R53, R58, R360 to R370, R405 to R409, R432, R442, R466 to R479: the host's register writes and the scheduler's, firmware's and
links' events, each in the state in which it acts. A TAIL that passes the ring, a bad LSIZE and a ring outside HBM are recorded in QERR. An
aborted launch's record waits until each rank has confirmed or is given up. Which slots and lanes a placement takes, the parts in
which suspensions and aborts go, the word that a failing check names, the order of shares and heads, who writes a record and when, that a timed
event tests its time, and a QCFG write during a pending disable, are the model's choices (logs 23, 35, 51, 52, 54, 57, 73, 86). -/
def Obligations.LaunchEventsTakeEffect : Prop :=
  (∀ (s : State) (m q : Nat) (x : Module), s.hostReaches m = true → s.mod? m = some x → q < 64 → let y := x.queue q
    (∀ tail : BitVec 32, (2 ^ y.lsize.toNat < (tail - y.head).toNat → gives (.hostQtailWrite m q tail) s (queueErr s m q 1 tail)) ∧
      ((tail - y.head).toNat ≤ 2 ^ y.lsize.toNat → ∃ t x', exec (.hostQtailWrite m q tail) s = .next t ∧ t.mod? m = some x' ∧
        x'.queue q = { y with tail := tail, since := if y.head = y.tail then s.tick else y.since })) ∧
    (∀ v : Word, let z := y.configure v
      (y.en = false → 1 ≤ z.lsize.toNat → z.lsize.toNat ≤ 12 → z.ringOk = true → ∃ t x', exec (.qcfgEnable m q v) s = .next t ∧ t.mod? m = some x' ∧
        x'.queue q = { z with en := true, since := s.tick }) ∧
      (y.en = false → (z.lsize = 0 ∨ 12 < z.lsize.toNat) → gives (.qcfgEnable m q v) s (queueErr (s.onQueue m q (fun _ => z)) m q 5 (z.lsize.setWidth 32))) ∧
      (y.en = false → 1 ≤ z.lsize.toNat → z.lsize.toNat ≤ 12 → z.ringOk = false →
        gives (.qcfgEnable m q v) s (queueErr (s.onQueue m q (fun _ => z)) m q 2 0)) ∧
      (y.en = true → ∃ t x', exec (.qcfgDisable m q v) s = .next t ∧ t.mod? m = some x' ∧
        x'.queue q = if y.head = y.tail then { z with en := false, head := 0, tail := 0, disabling := false, reserved := false } else { z with disabling := true })) ∧
    (y.en = true → y.head ≠ y.tail → x.set.age ≤ s.since y.since → ∃ t x', exec (.headAgeExpiry m q) s = .next t ∧ t.mod? m = some x' ∧
      x'.queue q = { y with reserved := true }) ∧
    (∀ off v, gives (.registerWrite m off v) s (s.onMod m (fun x => x.regWrite off v))) ∧
    ((x.err q).valid = true → ∀ h, (x.err q).hart = some h →
      (s.rankModule h.launch h.rank = some m →
        gives (.errrecActResume m q) s (if s.recWaits x (x.err q) then s else s.applyResume h (x.err q).node)) ∧
      gives (.errrecActAbort m q) s (abortLaunch s m h.launch 2 ((x.err q).cause.toNat % 256) (x.err q).rank.toNat)) ∧
    (x.domErr.valid = true → ∀ h, x.domErr.hart = some h →
      gives (.domainActAbort m) s (abortLaunch s m h.launch 2 (x.domErr.cause.toNat % 256) x.domErr.rank.toNat)) ∧
    ((∀ c ∈ x.pend, c.1 ≠ q) → ∃ t x', exec (.errrecValidClear m q) s = .next t ∧ t.mod? m = some x' ∧ x'.err q = { x.err q with valid := false })) ∧
  (∀ (s : State) (m : Nat) (want : List Nat), s.modRuns m = true →
    (∀ p t, p ≤ 3 → (∀ k, p < k → k ≤ 3 → s.placeAt m k want = none) → s.placeAt m p want = some t → gives (.schedulerPlace m want) s t) ∧
    ((∀ p, p ≤ 3 → s.placeAt m p want = none) → gives (.schedulerPlace m want) s s) ∧
    ∀ x p l r y t, s.mod? m = some x → (x.blocked p none = true ∨ s.savedAt m p = []) → s.marchAt x p = [(l, r, y)] →
      (s.onMod m (fun z => { z with march := z.march.erase (l, r) })).armRank l r m y.pkt want = some t → s.placeAt m p want = some t) ∧
  (∀ (s : State) (l rk m : Nat) (x : Launch), s.launch? l = some x → s.rankModule l rk = some m → s.modRuns m = true →
    (∀ y, s.mod? m = some y → rk = 0 → x.finished = false → x.pkt.single = false → ∀ t r, x.replicated = some t → x.missing = some r → y.set.marchto ≤ s.since t →
      gives (.marchTimeout l rk) s (s.abandon l 4 r)) ∧
    (∀ y sh, s.mod? m = some y → rk ≠ 0 → x.finished = false → x.pkt.single = false → Tbl.find rk x.shares = some sh → sh.state = .armed →
      y.set.marchto ≤ s.since sh.armedAt →
      let rest := s.fabric.filter (fun q => decide (q ≠ .query l rk))
      (x.rank0 ∈ y.lost → gives (.marchTimeout l rk) s
        (writeErr (({ s with free := s.free + 6, fabric := rest } : State).dropShare l rk) m domQueue (disarmErr s x rk))) ∧
      (x.rank0 ∉ y.lost → s.modRuns x.rank0 = true → gives (.marchTimeout l rk) s (({ s with fabric := rest } : State).heard m x.rank0)) ∧
      (x.rank0 ∉ y.lost → s.modRuns x.rank0 = false → Msg.query l rk ∉ s.fabric →
        gives (.marchTimeout l rk) s { s with fabric := s.fabric ++ [.query l rk] })) ∧
    (∀ sh, x.closed = false → x.finished = false → Tbl.find rk x.shares = some sh → sh.state = .running → s.shareEnded l rk = true →
      (sh.endSent = false → (∀ z, (s.reportEnd l rk m x).launch? l = some z → z.allReported = false) →
        gives (.launchCompletion l rk) s (s.reportEnd l rk m x) ∧
        (s.reportEnd l rk m x).fabric = if m = x.rank0 then s.fabric else s.fabric ++ [.ended l rk]) ∧
      (sh.endSent = true → x.allReported = true → s.modRuns x.origin = true → gives (.launchCompletion l rk) s (s.closeLaunch l x 0))) ∧
    (x.closed = false → x.finished = true → s.modRuns x.origin = true → ∀ z, (s.confirmRanks l x).launch? l = some z →
      (∀ sh, Tbl.find (z.pkt.ranks.idxOf z.origin) z.shares = some sh → sh.state = .gone) →
      ((s.confirmRanks l x).gaveUp z = true →
        gives (.launchCompletion l rk) s ((s.confirmRanks l x).closeLaunch l z (unconfirmed z.status (z.unsure.map (·.1))))) ∧
      ((s.confirmRanks l x).gaveUp z = false → gives (.launchCompletion l rk) s (s.confirmRanks l x)) ∧
      (x.unsure = [] → gives (.launchCompletion l rk) s (s.closeLaunch l x x.status))) ∧
    (∀ sh (deadline : BitVec 32), s.share? l rk = some sh → 4096 ≤ deadline.toNat →
      (sh.state = .suspending → s.allSaved l rk = true → gives (.launchSuspend l rk deadline) s (s.saveShare l rk m)) ∧
      (sh.state = .running → ∀ h, h = s.cur → h.id.launch = l → h.id.rank = rk → h.phase = .running → ∃ t, exec (.launchSuspend l rk deadline) s = .next t ∧
        t.cur.notice.pend = true ∧ t.cur.notice.left = deadline ∧ t.cur.event = true)) ∧
    (∀ sh cores want, s.share? l rk = some sh → s.canResume l rk m x sh cores = true →
      gives (.launchResume l rk cores want) s (s.resumeShare l rk m x sh cores want)) ∧
    (∀ ka kb image bs, x.finished = false → ka ≤ kb → kb ≤ 255 →
      s.readAs x.pkt.ranks m x.pkt.atp (lineRuns ((kb + 1 - ka) / 16 + 2) image.toNat (8 * (kb + 1 - ka))) = .ok bs →
      ∃ t, exec (.constBankReload l rk ka kb image) s = .next t ∧ sameG s t ∧ sameMemory s t ∧ t.cur.vq = s.cur.vq ∧
        ∀ sh sh', s.share? l rk = some sh → t.share? l rk = some sh' → (∀ k, ka ≤ k → k ≤ kb →
          Tbl.find k sh'.const = some (BitVec.ofNat 64 (leNat ((bs.drop (8 * (k - ka))).take 8)))) ∧
          ∀ k, k < ka ∨ kb < k → Tbl.find k sh'.const = Tbl.find k sh.const) ∧
    ∃ t x', exec (.frzEnable l) s = .next t ∧ t.launch? l = some x' ∧ x' = { x with frz := true }) ∧
  (∀ (s : State), s.modRuns s.cur.mod = true → s.hart? s.cur.id = some s.cur → (s.cur.phase = .running ∨ s.cur.phase = .waiting) →
    (∀ d : BitVec 32, 4096 ≤ d.toNat → ∃ t, exec (.noticePost s.cur.id d) s = .next t ∧ t.cur.notice = ⟨true, d, s.tick⟩ ∧ t.cur.event = true ∧ sameG s t ∧ sameVec s t) ∧
    (s.cur.notice.pend = true → s.cur.trap.hm = false → s.leftOf s.cur = 0 → ∃ t, exec (.forcedPreemption s.cur.id) s = .next t ∧
      t.cur.phase = .saved ∧ t.cur.trap.cause = ⟨0x10, 0⟩ ∧ t.cur.trap.tepc = s.cur.pc ∧ t.cur.trap.tval = 0 ∧ t.cur.trap.pin = true ∧
      t.cur.trap.grnt = BitVec.ofNat 4 s.cur.grant ∧ t.cur.resv = none ∧ t.cur.accs = s.cur.accs ∧ sameG s t ∧ sameVec s t ∧ sameMemory s t) ∧
    (∀ y, s.mod? s.cur.mod = some y → s.cur.phase = .running → s.cur.trap.hm = false → y.set.wdlim ≤ s.quietOf s.cur → s.cur.vq = [] →
      ∃ t, exec (.watchdogFire s.cur.id) s = .next t ∧ t.cur.phase = .saved ∧ t.cur.needsAct = true ∧ t.cur.trap.cause = ⟨0x11, 1⟩ ∧ sameG s t ∧ sameVec s t) ∧
    (∀ y va, s.mod? s.cur.mod = some y → s.cur.phase = .running → s.cur.trap.hm = false → s.cur.vq = [] → s.cur.heldFrom = none →
      s.heldLong s.cur.id y.set.mhold = some va → ∃ t, exec (.migrationHoldTimeout s.cur.id) s = .next t ∧ t.cur.phase = .saved ∧
        t.cur.trap.cause = ⟨0x0B, 1⟩ ∧ t.cur.trap.tval = va ∧ sameG s t ∧ sameVec s t) ∧
    ∀ y k, s.mod? s.cur.mod = some y → s.cur.phase = .running → s.cur.trap.hm = false → s.cur.vq = [] → s.cur.heldFrom = some k → y.set.mhold < s.since k.since →
      (k.holder = .frame ∨ k.holder = .table) → ∃ t, exec (.migrationHoldTimeout s.cur.id) s = .next t ∧ t.cur.phase = .saved ∧ t.cur.needsAct = true ∧
        t.cur.trap.cause = ⟨0x0B, if k.holder = .table then 2 else 1⟩ ∧ t.cur.trap.tval = k.va ∧ sameG s t ∧ sameVec s t) ∧
  (∀ (s : State) (h : HartId) (x : Hart) (l : Launch) (y : Share) (lanes : Nat), s.hart? h = some x → s.launch? h.launch = some l → s.share? h.launch h.rank = some y →
    s.modRuns x.mod = true → x.phase = .saved → x.needsAct = false → y.state = .running → l.pkt.stages < 2 → x.trap.pin = false → l.pkt.gmin ≤ lanes → lanes ≤ l.pkt.greq →
    lanes ≤ (s.pool x.mod x.seat.core).length → x.acnt + s.tilesHeld x.mod x.seat.core ≤ 8 →
    gives (.hartResume h lanes) s ((s.seatHart h x.seat.core x.seat.slot ((s.pool x.mod x.seat.core).take lanes)).onHart h (fun z => { z with phase := .running }))) ∧
  (∀ (s : State) (m : Nat) (x : Module), s.mod? m = some x → s.modRuns m = true →
    (x.set.dlck ≤ s.since x.lastCheck → gives (.deadlockCheck m) s ((s.launches.map (·.1)).foldl (fun t l => t.checkLaunch m l)
      (s.onMod m (fun y => { y with lastCheck := s.tick })))) ∧
    (∀ lost, (Tbl.find lost x.asked = none ∨ ∃ t, Tbl.find lost x.asked = some t ∧ s.since t < x.set.ltimeout) → gives (.rankLost m lost) s s) ∧
    (∀ lost t, m ≠ lost → lost ∉ x.lost → Tbl.find lost x.asked = some t → x.set.ltimeout ≤ s.since t → s.fabric = [] → s.launches = [] →
      gives (.rankLost m lost) s (s.onMod m (fun y => { y with lost := y.lost ++ [lost] }))) ∧
    ∀ p, p < 18 → let y := x.port p
      (∃ t x', exec (.linkTrained m p) s = .next t ∧ t.mod? m = some x' ∧ x'.port p = { y with up := true }) ∧
      (∃ t x', exec (.ualinkLinkError m p) s = .next t ∧ t.mod? m = some x' ∧ (x'.port p).up = y.up ∧
        (x'.port p).retries = if y.retries = BitVec.allOnes 32 then y.retries else y.retries + 1) ∧
      (y.up = true → ∃ t x', exec (.ualinkPortFailure m p) s = .next t ∧ t.mod? m = some x' ∧ (x'.port p).up = false ∧
        (x'.port p).downs = if y.downs = BitVec.allOnes 32 then y.downs else y.downs + 1))

/-- R129, R140 to R145, R163, R167, R274, R335, R353, R358, R442 to R449, R460, R461, R476: the events of the memory system. An access to a frame under
migration performs nothing (R442). The course of a migration, that thresholds and marks are written by acts, that events of physics come
as they are given, and that a host reads second-tier memory at the near point, are the model's choices (logs 26, 41, 57, 71). -/
def Obligations.MemoryEventsTakeEffect : Prop :=
  (∀ (s : State) (a : Nat), s.modRuns (a / 2 ^ 52) = true → locHbm a = true →
    (s.rangeMoves a 1 = false → gives (.mscReadRequest a) s (mscRead s (a / 128))) ∧
    (s.rangeMoves a 1 = true → gives (.mscReadRequest a) s s) ∧
    ∀ bs (readers : BitVec 4), bs ≠ [] → a % 128 + bs.length ≤ 128 →
      gives (.mscWrite a bs readers) s (if s.rangeMoves a bs.length then s else storeFar s a bs readers.toNat)) ∧
  (∀ (s : State) (line : Nat), Tbl.rising s.msc = true → locHbm (128 * line) = true →
    (Tbl.find line s.msc = none → ∃ l, Tbl.find line (mscRead s line).msc = some l ∧ l.count = 0 ∧ l.dirty = false ∧
      ∀ k, k < 128 → l.data.getD k 0 = dramByte s (128 * line + k)) ∧
    ∀ l, Tbl.find line s.msc = some l →
      (1 < l.count.toNat → l.bad = [] → Tbl.find line (mscRead s line).msc = some { l with count := l.count - 1 }) ∧
      (l.count = 1 → l.bad = [] → (∀ c ∈ s.near, c.1 / 128 ≠ line) → Tbl.find line (mscRead s line).msc = none ∧ (mscRead s line).dram = s.dram) ∧
      (l.count = 0 ∨ l.bad ≠ [] → mscRead s line = s)) ∧
  (∀ (s : State) (m : Nat) (x : Module), s.mod? m = some x → s.modRuns m = true →
    (∀ pa n w, s.rangeMoves (loc m pa) ((w.map List.length).getD n) = true → gives (.hostMemoryAccess m pa n w) s s) ∧
    (∀ pa bs, x.hostUp = true → hostReach x m pa bs.length = true → s.rangeMoves (loc m pa) bs.length = false →
      gives (.hostMemoryAccess m pa 0 (some bs)) s (storeFar s (loc m pa) bs 0)) ∧
    (∀ pa n, x.hostUp = true → hostReach x m pa n = true → s.rangeMoves (loc m pa) n = false → locHbm (loc m pa) = false → poisonedAt s false (loc m pa) n = none →
      gives (.hostMemoryAccess m pa n none) s (s.onMod m (fun y => { y with hostData := readBytes s false (loc m pa) n }))) ∧
    (∀ pa n, x.hostUp = true → hostReach x m pa n = true → s.rangeMoves (loc m pa) n = false → locHbm (loc m pa) = true → poisonedAt s true (loc m pa) n = none →
      ∃ t x', exec (.hostMemoryAccess m pa n none) s = .next t ∧ t.mod? m = some x' ∧ x'.hostData = readBytes s true (loc m pa) n) ∧
    (∀ k bank, k < 12 → bank < 4096 → let y := x.stack k
      gives (.refreshCommand m k bank .clean) s s ∧
      (∀ pa, pa / 2 ^ 36 = k → ∃ t, exec (.refreshCommand m k bank (.uncorrectable pa)) s = .next t ∧ Machine.loc m pa / 8 ∈ t.badMem) ∧
      (Tbl.find bank y.backoff = none →
        (∀ row, ∃ x', (runAct (.rowOpen m k bank row) s).mod? m = some x' ∧
          Tbl.getD (x'.stack k).acts (rowKey bank row) 0 = Tbl.getD y.acts (rowKey bank row) 0 + 1) ∧
        (∀ row, y.hot bank = some row → ∃ t x', exec (.rowActivationAlert m k bank) s = .next t ∧ t.mod? m = some x' ∧
          Tbl.find bank (x'.stack k).backoff = some row ∧ (x'.stack k).acts = y.acts) ∧
        (y.hot bank = none → gives (.rowActivationAlert m k bank) s s)) ∧
      (∀ row, Tbl.find bank y.backoff = some row → ∃ t x', exec (.activationBackoffEnd m k bank) s = .next t ∧ t.mod? m = some x' ∧
        Tbl.find bank (x'.stack k).backoff = none ∧ Tbl.getD (x'.stack k).acts (rowKey bank row) 0 = 0) ∧
      (∀ v, 256 ≤ v → v ≤ 8192 → ∃ x', (runAct (.threshold m k v) s).mod? m = some x' ∧ (x'.stack k).thresh.toNat = v) ∧
      (∃ t x', exec (.droopVbaseLow m k) s = .next t ∧ t.mod? m = some x' ∧ (x'.stack k).droop = true) ∧
      (∃ t x', exec (.droopStopEnd m k) s = .next t ∧ t.mod? m = some x' ∧ (x'.stack k).droop = false) ∧
      (∃ t x', exec (.bankCountCopy m k) s = .next t ∧ t.mod? m = some x' ∧ (x'.stack k).bce = y.dramCe ∧ (x'.stack k).bue = y.dramUe) ∧
      ∃ t x', exec (.stackCountClr m k) s = .next t ∧ t.mod? m = some x' ∧ (x'.stack k).cecnt = 0 ∧ (x'.stack k).uecnt = 0 ∧ (x'.stack k).alerts = 0 ∧
        (x'.stack k).holds = 0 ∧ (x'.stack k).stops = 0 ∧ (x'.stack k).thresh = y.thresh) ∧
    (∀ page src frame p, Tbl.find page x.pages = some p → s.modRuns src = true → m ≠ src → frame < 0x60000 → page < 0x60000 →
      let a := Machine.loc m (page * 2 ^ 21)
      s.movesTo a = none → p.pinned = false → s.pastThreshold x p src = true → s.movedOften x p = false →
      gives (.migrationTrigger m page src frame) s (s.startMove a (Machine.loc src (frame * 2 ^ 21)) (2 ^ 21))) ∧
    (∀ a dst n, a / 2 ^ 52 = m → s.rangeMoves a n = false → s.rangeMoves dst n = false → x.moving.length < 32 →
      ∃ x', (s.startMove a dst n).mod? m = some x' ∧ x'.moving = x.moving ++ [⟨a % 2 ^ 52, n, dst, []⟩]) ∧
    (∀ src dst size p q r, resolveLocal x m src = .ok p → resolveLocal x m dst = .ok q → resolveLocal x m (dst + size - 1) = .ok r →
      p.kind ≠ .cxl → q.kind = .tier2 → r.kind ≠ .cxl → p.kind ≠ .tier2 → 4096 ≤ size → size ≤ 2 ^ 21 → size % 4096 = 0 → src % size = 0 → dst % size = 0 →
      (s.movesTo (Machine.loc m src) = none → gives (.pageTierMigrate m src dst size) s (s.startMove (Machine.loc m src) (Machine.loc m dst) size)) ∧
      (s.movesTo (Machine.loc m src) = some (Machine.loc m dst, size) →
        gives (.pageTierMigrate m src dst size) s ((s.finishMove (Machine.loc m src) (Machine.loc m dst) size).getD s))) ∧
    (∀ page, ∃ t, exec (.migratableMarkClear m page) s = .next t ∧ t = s.onMod m (fun y => { y with pages := Tbl.del page y.pages })) ∧
    (∀ asid va len, ∃ t, exec (.tlbInvalidate m asid va len) s = .next t ∧ t.mod? m = some { x with invalidations := x.invalidations ++ [(asid, va, len)] } ∧
      (∀ e ∈ t.tlb, e.place.mod = m → (asid = none ∨ e.global = true ∨ asid = some e.asid) →
        va % 2 ^ 57 + len ≤ e.page * 2 ^ (12 + 9 * e.level) ∨ (e.page + 1) * 2 ^ (12 + 9 * e.level) ≤ va % 2 ^ 57) ∧
      (∀ k, k ≠ m → t.mod? k = s.mod? k) ∧ t.cur = s.cur ∧ t.harts = s.harts ∧ sameMemory s t) ∧
    (∀ asid va len i0 i1, 0 < len → i0 % 4096 = va % 4096 → i1 % 4096 = va % 4096 → (∀ y ∈ x.pubs, y.meets asid va len = false) → (∀ c ∈ s.mods, c.1 = m → c.2 = x) →
      ∃ t x', exec (.publishableSetup m asid va len i0 i1 false) s = .next t ∧ t.mod? m = some x' ∧ x'.pubs = x.pubs ++ [⟨asid, va, len, i0, i1, false, false⟩]) ∧
    (∀ i b, x.pubs[i]? = some b → b.dom = false → x.nodes = [] → (∀ c ∈ s.mods, c.1 = m → c.2 = x) →
      ∃ t x', exec (.publishabilityWithdrawal m i) s = .next t ∧ t.mod? m = some x' ∧ b ∉ x'.pubs) ∧
    (∀ base len off, x.hostUp = true → 0 < len → base % 2 ^ 21 = 0 → len % 2 ^ 21 = 0 → off % 2 ^ 21 = 0 → off + len ≤ 2 ^ 49 →
      (∀ e ∈ x.extents, rangesMeet e.off e.len off len = false) → ∃ t x', exec (.cxlExtentAccept m base len off) s = .next t ∧ t.mod? m = some x' ∧
        x'.extents = x.extents ++ [⟨base, len, off, false, [], none⟩] ∧ ∀ c ∈ x'.closed, rangesMeet c.1 c.2 off len = false) ∧
    (∀ off e, x.extents.find? (fun e => e.off == off) = some e → e.forced = none →
      (e.closing = false → gives (.cxlExtentRelease m off) s (s.onExtent m off (fun z =>
        { z with closing := true, spare := (x.nodes.filter (fun n => n.2.works)).map (·.2.serial) }))) ∧
      (e.closing = true → x.xrel.valid = false → s.storeInto m e = false →
        (∀ n ∈ x.nodes, n.2.serial ∈ e.spare → s.nodeTouches m e n.2 = false) → x.hostUp = true → gives (.cxlExtentRelease m off) s (s.reportExtent m e false 0)) ∧
      (x.xrel.valid = false → gives (.forcedExtentWithdrawal m off) s (s.reportExtent m e true (s.dirtyLines m e)))) ∧
    (∃ t x', exec (.xrelValidClear m) s = .next t ∧ t.mod? m = some x' ∧ x'.xrel = { x.xrel with valid := false }) ∧
    (∃ t x', exec (.hostLinkDown m) s = .next t ∧ t.mod? m = some x' ∧ x'.hostUp = false ∧ x'.aer = if x.hostUp then x.aer ++ [.fatal] else x.aer) ∧
    (∃ t x', exec (.hostLinkUp m) s = .next t ∧ t.mod? m = some x' ∧ x'.hostUp = true) ∧
    (∀ root tier cls atp t, s.rootInUse m root = false → tier ≤ 1 → cls ≤ 3 →
      kvAutumn ⟨s.domainRanks m, m, atp, root⟩ ((s.domainRanks m).idxOf m) tier cls s = .ok ((), t) → gives (.autumnRun m root tier cls atp) s t) ∧
    ∀ root bucket slot atp t, kvRemove ⟨s.domainRanks m, m, atp, root⟩ bucket slot s = .ok ((), t) → gives (.indexEntryRemoval m root bucket slot atp) s t)

/-- R6, R373 to R377, R411 to R413, R454 to R459: storage checks, the test port, attestation, resets, power and temperature. A freeze stops every core
of its module, D3hot gates its clusters (R377); the values that Solstice words, signatures and measured power have are free (logs 16, 17). That
memory which has lost its power reads 0 is the model's choice (log 1). -/
def Obligations.DeviceEventsTakeEffect : Prop :=
  ∀ (s : State) (m : Nat) (x : Module), s.mod? m = some x →
    (s.hostReaches m = true → gives (.errcntClr m) s (s.onMod m (fun y => { y with sram := [] }))) ∧
    (∀ w dom, s.holder m w = some (m, dom) → s.modRuns m = true → gives (.patrolSweep m w .clean) s s ∧
      gives (.patrolSweep m w .corrected) s (s.onMod m (fun y => y.countSram (structCode w) false)) ∧
      ∀ pa, s.wordBad w = false →
        (∀ t, s.refill m w = some t → gives (.patrolSweep m w (.uncorrectable pa)) s
          (t.onMod m (fun y => y.countSram (structCode w) (decide (structCode w ≠ 4))))) ∧
        (s.refill m w = none → gives (.patrolSweep m w (.uncorrectable pa)) s ((s.poisonWord w).onMod m (fun y =>
          (y.countSram (structCode w) true).logSram (structCode w) dom (Config.solWordOf (dom :: wordKey w)))))) ∧
    (x.power ≠ .d3cold →
      (∃ t x', exec (.tapIdcode m) s = .next t ∧ t.mod? m = some x' ∧ x'.tapData = Config.idcode.setWidth 64) ∧
      (∃ t x', exec (.tapSolstat m) s = .next t ∧ t.mod? m = some x' ∧ x'.tapData.toNat =
        (if x.frozen then 1 else 0) + x.source.toNat * 2 + (if x.unlock then 16 else 0) + (if x.vcoreOff then 32 else 0)) ∧
      (∀ v, ∃ t x', exec (.tapSolsel m v) s = .next t ∧ t.mod? m = some x' ∧ x'.solDomain = BitVec.ofNat 12 (v.toNat / 2 ^ 48) ∧ x'.solWord = BitVec.ofNat 40 v.toNat) ∧
      (∃ t x', exec (.tapSoldata m) s = .next t ∧ t.mod? m = some x' ∧ x'.solWord = x.solWord + 1 ∧ (x.unlock = false → x'.tapData = 0)) ∧
      (∀ b, ∃ t x', exec (.tapBypass m b) s = .next t ∧ t.mod? m = some x' ∧ x'.tapData = if b then 1 else 0) ∧
      (x.frozen = false → gives (.tapSolfrz m) s (s.onMod m (fun y => if y.frozen then y else { y with frozen := true, source := 4 })) ∧
        (∃ t, exec (.tapSolfrz m) s = .next t ∧ t.modRuns m = false) ∧
        (∃ t x', exec (.mboebFreeze m) s = .next t ∧ t.mod? m = some x' ∧ x'.frozen = true ∧ x'.source = 3) ∧
        ∀ temp, 110 ≤ temp → ∃ t x', exec (.thermalTrip m temp) s = .next t ∧ t.mod? m = some x' ∧ x'.frozen = true ∧ x'.source = 2) ∧
      (∀ req, Config.spdmAuthentic req = true → ∃ t x', exec (.solsticeUnlock m req) s = .next t ∧ t.mod? m = some x' ∧ x'.unlock = true) ∧
      (∀ req, let body := Config.spdmAnswer req x.measurements
        ∃ t x', exec (.spdmRequest m req) s = .next t ∧ t.mod? m = some x' ∧ x'.spdmOut = body ++ Config.ed448Sign body) ∧
      gives (.warmReset m) s (warmResetModule s m) ∧ gives (.tapSolrst m) s (warmResetModule s m) ∧
      (∃ t x', exec (.warmReset m) s = .next t ∧ t.mod? m = some x' ∧ x'.queues = [] ∧ x'.nodes = [] ∧ x'.frozen = false ∧ x'.caps = x.caps ∧ x'.rollback = x.rollback ∧ x'.leftReset = s.tick ∧
        x'.booted = (x.bootFault x.flash).isNone ∧ x'.bootReports = x.bootReports ++ (x.bootFault x.flash).toList)) ∧
    (∀ image sig key version, x.power = .d3cold → ∃ t x', exec (.powerOnBoot m image sig key version) s = .next t ∧ t.mod? m = some x' ∧
      x'.power = .d0 ∧ x'.leftReset = s.tick ∧ (x'.booted = true ↔
        key < 3 ∧ key ∉ x.revoked ∧ Config.ed448Ok key (shake256 64 image) sig = true ∧ x.rollback ≤ version) ∧
      (x'.booted = false → x'.bootReports.length = x.bootReports.length + 1)) ∧
    (s.modRuns m = true →
      (s.idle m = true → ∃ t x', exec (.d3hotEntry m) s = .next t ∧ t.mod? m = some x' ∧ x'.power = .d3hot ∧
        ((∀ k, s.users m k = [] ∧ s.standing m k = []) → ∀ n, n < 36 → n ∈ x'.gated)) ∧
      (∀ temp, 100 ≤ temp → ∃ t x', exec (.thermalStepDown m temp) s = .next t ∧ t.mod? m = some x' ∧ x'.point.val = min 3 (x.point.val + 1)) ∧
      (∀ point, ∃ t x', exec (.powerCapWindow m point) s = .next t ∧ t.mod? m = some x' ∧
        x'.point = if Config.windowPower s.free point.val ≤ x.set.pcap then point else 3)) ∧
    (x.power = .d3hot → ∃ t x', exec (.d0Return m) s = .next t ∧ t.mod? m = some x' ∧ x'.power = .d0) ∧
    (∃ t x', exec (.powerRemoval m) s = .next t ∧ t.mod? m = some x' ∧ x'.power = .d3cold ∧ x'.booted = false ∧
      ∀ a, a / 2 ^ 52 = m → dramByte t a = 0) ∧
    (x.frozen = true → x.source = 2 → ∃ t x', exec (.vcoreRemoval m) s = .next t ∧ t.mod? m = some x' ∧ x'.vcoreOff = true)


/-! ### Encodings, lines, steps, and the forms that every step keeps -/

/-- R168 to R170, R174 to R182, R417: decoding and encoding agree in both directions: every well-formed instruction of a program has a word
that decodes to it, with every operand at every value; and a word that decodes is that word, of a well-formed instruction. A line made
of one head and its tail gives them back. -/
def Obligations.DecodeOfEncode : Prop :=
  (∀ i : Instr, i.isEvent = false → i.wellFormed = true → ∃ head tail, encode i = some (head, tail) ∧ tail < 2 ^ (16 * tailLen (headTl head)) ∧
    decode head tail = .ok i) ∧
  (∀ (head : Half) (tail : Nat) (i : Instr), decode head tail = .ok i → i.wellFormed = true ∧ encode i = some (head, tail)) ∧
  ∀ (head : Half) (tail : Nat), tail < 2 ^ (16 * tailLen (headTl head)) → let h := halves (lineOf head tail)
    (lineOf head tail).length = 64 ∧ lineHeads h = .ok 1 ∧ h.getD 1 0 = head ∧ lineTail h 1 = tail

/-- Sanity: words that the spec writes out, bit by bit, decode to what they stand for (R182, R206, R270, R285, R303, R326, R334,
R358, R378, R419, R480). -/
def Obligations.SpecWordsDecode : Prop :=
  decode 0x0000 0 = .ok (.nop ⟨0⟩) ∧ decode 0x0C80 0 = .ok (.ret ⟨0⟩) ∧
  decode 0x43C0 0x1F00 = .ok (.liReg ⟨0, 7, ⟨3, 0⟩⟩) ∧
  decode 0x8020 0x1D074200 = .ok (.add ⟨0, 7, ⟨1, 7⟩, ⟨1, 8⟩, ⟨0, 0⟩, none⟩) ∧
  decode 0x9001 0x21050000 = .ok (.ld ⟨1, 8, ⟨1, 5⟩, 0⟩) ∧
  decode 0x8CA0 0x41B01FFD = .ok (.loop ⟨0, ⟨1, 6⟩, ⟨3, 1⟩, 0xFFD⟩) ∧
  decode 0x54A0 0x0300 = .ok (.yield ⟨0, 0, ⟨3, 0⟩⟩) ∧
  decode 0xDC60 0x0408024010000000 = .ok (.vfma ⟨0, 1, ⟨0, 8⟩, ⟨0, 9⟩, ⟨0, 1⟩, ⟨0, 0⟩, 0, 0⟩) ∧
  decode 0xA820 0x1001C000 = .ok (.vredo ⟨0, 4, ⟨0, 1⟩, ⟨3, 0⟩, ⟨0, 0⟩, none⟩) ∧
  decode 0xEC82 0x1906010024000000 = .ok (.vldx ⟨2, 6, ⟨1, 6⟩, ⟨0, 4⟩, 0, 0, ⟨1, 1⟩, 0, 0⟩) ∧
  decode 0xF010 0x0800004000084828 = .ok (.fexpr ⟨0, 2, ⟨0, 0⟩, ⟨0, 1⟩, ⟨0, 0⟩, ⟨0, 0⟩, 0, 0x84828⟩) ∧
  decode 0xF420 0x05044144018C7420 = .ok (.mmaO ⟨0, 1, ⟨1, 4⟩, ⟨1, 5⟩, 1, 0, ⟨0, 0⟩, 6, 0x0C7420⟩) ∧
  decode 0xF540 0x010641C400008400 = .ok (.msoft ⟨0, 0, ⟨1, 6⟩, ⟨1, 7⟩, 1, 0, ⟨0, 0⟩, 0, 0x8400⟩) ∧
  decode 0xB800 0x01050100 = .ok (.tsend ⟨0, 0, ⟨1, 5⟩, ⟨0, 4⟩, ⟨0, 0⟩, none⟩) ∧
  decode 0xF8C0 0x250541802000000A = .ok (.nodeCopy ⟨0, 9, ⟨1, 5⟩, ⟨1, 6⟩, ⟨0, 2⟩, ⟨0, 0⟩, 0, 0x0A⟩) ∧
  decode 0xFC40 0x2505C90000000000 = .ok (.kvxl ⟨0, 9, ⟨1, 5⟩, ⟨3, 0x24⟩, ⟨0, 0⟩, ⟨0, 0⟩, 0, 0⟩) ∧
  decode 0x0010 0 = .error ⟨0x02, 0x06⟩ ∧ decode 0x0001 0 = .error ⟨0x02, 0x08⟩ ∧ decode 0x9C10 0 = .error ⟨0x02, 0x05⟩

/-- R171 with R418: a line is malformed exactly when H = 0, a descriptor bit above H is not zero, or H + S > 31; reaching a malformed line,
at whichever slot, is refused with cause 0x02 and sub-cause 1, 2 or 3 in that order, the line address in sr.tval. -/
def Obligations.MalformedLineIsRefused : Prop :=
  ∀ (h : List Half), let d := (h.getD 0 0).toNat
    let n := d % 32
    let len := (((h.drop 1).take n).map (fun x => tailLen (headTl x))).sum
    ((∃ c, lineHeads h = .error c) ↔ n = 0 ∨ d / 32 ≠ 0 ∨ 31 < n + len) ∧
    (n = 0 → lineHeads h = .error ⟨0x02, 1⟩) ∧ (n ≠ 0 → d / 32 ≠ 0 → lineHeads h = .error ⟨0x02, 2⟩) ∧
    (n ≠ 0 → d / 32 = 0 → 31 < n + len → lineHeads h = .error ⟨0x02, 3⟩) ∧
    (n ≠ 0 → d / 32 = 0 → n + len ≤ 31 → lineHeads h = .ok n) ∧
    ∀ (s : State) (c : Cause), s.fetchLine (s.cur.pc.toNat / 64 * 64) = .ok h → lineHeads h = .error c → (s.cur.pc ≠ 0 ∨ s.cur.npc ≠ 0) →
      fetch s = .stop (.trap ⟨c, BitVec.ofNat 64 (s.cur.pc.toNat / 64 * 64), false⟩ s.noHead)

namespace Sys2Proof.Machine

/-- The engine has begun the entry at the head of the queues, which executes (R276). -/
def State.begun (s : State) : State := { s.beginHead with cur := { s.beginHead.cur with active := s.beginHead.cur.vq.head? } }

end Sys2Proof.Machine

/-- R168, R173, R205, R224, R396, R398: a step runs the decoded instruction. With no turn waiting, a hart that may act and whose vector
queue is empty or frozen executes the instruction at its program counter, its next head being what R173 says; else the head of its
queue executes. A matrix instruction executes when its engine comes to the hart, which it then serves; until then it stands in the hart's
matrix queue (R276). A turn on the agenda (log 7) is a hart's, its scalar stream's, one in which its stores perform later, its vector
queue's, a device event's or an act of the memory system. In its own turn the scalar stream enters an instruction bound for the queue with
its sources as they stand; in the vector queue's, an instruction that is not free of the unfinished matrix instructions waits (R277). The
order of turns, what goes ahead, and that a fetch reads the instruction buffer's line, are the model's choices (logs 4, 70); a poisoned state
register that the instruction does not name stops it (R456, log 88). -/
def Obligations.StepRunsTheDecodedInstruction : Prop :=
  (∀ (s : State) (h : List Half) (n : Nat) (i : Instr), let u := s.ticked
    let slot := s.cur.pc.toNat % 64 / 2
    let head := h.getD slot 0
    s.agenda = [] → u.canRun = true → (s.cur.vq = [] ∨ s.cur.trap.fpend = true) → s.cur.pc ≠ 0 → u.poisonedSr 0x00C = false →
    u.fetchLine (s.cur.pc.toNat / 64 * 64) = .ok h → lineHeads h = .ok n → s.cur.pc.toNat % 2 = 0 → 1 ≤ slot → slot ≤ n →
    decode head (lineTail h slot) = .ok i → u.poisonedG i = false → u.poisonedFor i = false →
    let v := u.issued head (if slot < n then s.cur.pc + 2 else BitVec.ofNat 64 (s.cur.pc.toNat / 64 * 64 + 66))
    ((isMatrix i = false ∨ s.cur.trap.fpend = true) → step s = exec i v) ∧
    (isMatrix i = true → s.cur.trap.fpend = false →
      let w : State := { v with cur := { v.cur with vq := [⟨i, s.cur.pc, head, s.cur.g, v.constBank, .idle, false, [], false⟩], moved := 0, pc := v.cur.npc } }
      (w.moveOne.engineTurn = true → step s = exec i w.moveOne.begun) ∧ (w.moveOne.engineTurn = false → step s = .next w.moveOne) ∧
      w.moveOne.cur.moved = 1 ∧ w.moveOne.cur.pc = v.cur.npc ∧ sameG s w.moveOne ∧ sameVec s w.moveOne)) ∧
  (∀ (s : State) (line : Nat) (p : Phys), s.translate line .fetch = .ok p →
    (∀ x, s.bufferedLine p = some x → s.fetchLine line = .ok (halves x.bytes)) ∧
    (s.bufferedLine p = none → poisonedAt s p.uncached p.spot.loc 64 = none → s.fetchLine line = .ok (halves (readBytes s p.uncached p.spot.loc 64)))) ∧
  (∀ (s : State) (e : QEntry) (rest : List QEntry), s.agenda = [] → s.ticked.canRun = true → s.cur.vq = e :: rest → s.cur.trap.fpend = false →
    let u := s.ticked
    let t := if s.cur.moved = 0 then u.moveOne else u
    (u.poisonedFor e.instr = true → step s = retire (precise 0x0D 3 0 u)) ∧
    (u.poisonedFor e.instr = false → isMatrix e.instr = false → step s = exec e.instr { u with cur := { s.cur with active := some e } }) ∧
    (u.poisonedFor e.instr = false → isMatrix e.instr = true →
      (t.engineTurn = true → step s = exec e.instr t.begun) ∧ (t.engineTurn = false → step s = .next t))) ∧
  (∀ (s : State) (e : QEntry), s.canRun = true → s.cur.trap.fpend = false → s.cur.phase = .running → 0 < s.cur.moved →
    s.cur.vq[s.cur.moved]? = some e → isMatrix e.instr = false → s.goesAhead e = false → vectorTurn s = .next s) ∧
  (∀ (s : State), s.agenda = [] → s.ticked.canRun = false → step s = .next s.ticked) ∧
  (∀ (s : State) (rest : List Turn), let u := { s.ticked with agenda := rest }
    (∀ h, s.agenda = .hart h :: rest → step s = turn (u.focus h)) ∧ (∀ h, s.agenda = .issue h :: rest → step s = issueTurn (u.focus h)) ∧
    (∀ h, s.agenda = .later h :: rest → step s = laterTurn (u.focus h)) ∧ (∀ h, s.agenda = .vector h :: rest → step s = vectorTurn (u.focus h)) ∧
    (∀ a, s.agenda = .act a :: rest → step s = .next (runAct a u)) ∧
    (∀ i, s.agenda = .event i :: rest → i.isEvent = true → step s = exec i u) ∧
    ∀ i, s.agenda = .event i :: rest → i.isEvent = false → step s = .next u) ∧
  ∀ (s : State) (i : Instr) (head : Half) (next : Word), s.canRun = true → s.cur.trap.fpend = false → fetch s = .run i head next →
    runsAhead i = false → standsBehind i = false → s.interlocked i = false → s.cur.vq.length < 32 + s.cur.moved →
    let u := s.issued head next
    issueTurn s = .next { u with cur := { u.cur with vq := s.cur.vq ++ [⟨i, s.cur.pc, head, s.cur.g, u.constBank, .idle, false, [], false⟩], pc := next } }

/-- R396, R397: while the vector state is frozen, an instruction of the vector queue does not enter it: in handler mode it is cause 0x12 with
sub-cause 3, the code of condition 0x03.0B, and the hart goes no further. -/
def Obligations.FrozenQueueTakesNothing : Prop :=
  ∀ (i : Instr) (s : State), i.isEvent = false → runsAhead i = false → standsBehind i = false →
    s.cur.active = none → s.cur.trap.hm = true → s.cur.trap.fpend = true →
    ∃ t, exec i s = .next t ∧ t.cur.trap.cause = ⟨0x12, 0x03⟩ ∧ t.cur.trap.tval = 3 ∧ t.cur.trap.tepc = s.cur.pc ∧
      (t.cur.phase = .saved ∨ t.cur.phase = .ended) ∧ sameVec s t ∧ sameG s t ∧ sameMemory s t

namespace Sys2Proof.Machine

/-- Every accumulator tile, of a resident or saved hart or of a saved frame, has its tables in form. -/
def State.tilesInForm (s : State) : Prop :=
  (∀ a ∈ s.cur.accs, a.ok) ∧ (∀ h ∈ s.harts, ∀ a ∈ h.accs, a.ok) ∧ ∀ f ∈ s.frames, ∀ a ∈ f.accs, a.ok

end Sys2Proof.Machine

/-- Every step, of whatever instruction or event, keeps memory in its canonical form: addresses rise, no listed byte is what an unlisted
one reads as (log 1), the copies and the lines of the caches rise, each line holds 128 bytes; and the far banks rise. -/
def Obligations.StepKeepsMemoryForm : Prop :=
  ∀ s t : State, step s = .next t → s.memOk → Tbl.rising s.banks = true → t.memOk ∧ Tbl.rising t.banks = true

/-- Every step keeps the tables of every accumulator tile in form (R75): those of the harts and those that a frame or a saved hart holds. -/
def Obligations.StepKeepsTileForm : Prop :=
  ∀ s t : State, step s = .next t → s.tilesInForm → t.tilesInForm

/-- R74, R89, R145, R360, R366, R394, R406, R442, R446, R460, R466, R468, R470, R474, R475, R479: what reset leaves and how a hart first starts. The forms that
every step keeps hold at reset; queues, error records, stacks, ports and settings are at the values the spec gives, and the host reads them so in the device registers (R372: CAPS); a hart starts with its general
registers, flags, claims, stream, notice and trap registers zero, its vector type not configured, at its stage's entry. That memory reads 0, what a hart
holds that the rules do not give, the module as its boot leaves it with empty caches and no image recorded, and a retry limit of 0 are the
model's choices (logs 1, 2, 27, 74, 75). -/
def Obligations.ResetState : Prop :=
  (State.reset.memOk ∧ Tbl.rising State.reset.banks = true ∧ State.reset.tilesInForm ∧ State.reset.launches = [] ∧ State.reset.harts = [] ∧
    State.reset.cur.phase = .absent ∧ State.reset.fabric = [] ∧ State.reset.l1 = [] ∧ State.reset.l2 = [] ∧
    State.reset.tlb = [] ∧ State.reset.ibuf = [] ∧ State.reset.modRuns 0 = true ∧ ∀ a, State.reset.byteAt a = 0) ∧
  (∀ q, (Module.reset.queue q).lsize = 1 ∧ (Module.reset.queue q).en = false ∧ (Module.reset.queue q).base = 0 ∧ (Module.reset.queue q).head = 0 ∧
    (Module.reset.queue q).tail = 0 ∧ (Module.reset.queue q).ien = false ∧ (Module.reset.queue q).vec = 0 ∧ (Module.reset.queue q).prio = 0 ∧
    (Module.reset.err q).valid = false ∧ (Module.reset.stack q).thresh = 2048 ∧ (Module.reset.stack q).cecnt = 0 ∧ (Module.reset.stack q).uecnt = 0 ∧
    (Module.reset.port q).up = false ∧ (Module.reset.port q).retries = 0) ∧
  Module.reset.set = ⟨2 ^ 21, 200000, 2 ^ 24, 2 ^ 26, 131072, 4096, 3, 2 ^ 21, 2 ^ 30, 2100, 0⟩ ∧
  ((∀ m, m < 65536 → Module.reset.regRead m 0 = 2861 + m * 2 ^ 16) ∧
    (∀ m q, q < 64 → Module.reset.regRead m (0x100000 + 32 * q) = 0 ∧ Module.reset.regRead m (0x100008 + 32 * q) = 2 ^ 4 ∧
      Module.reset.regRead m (0x200000 + 64 * q) = 0) ∧ ∀ m k, k < 12 → Module.reset.regRead m (0x400028 + 64 * k) = 2048) ∧
  ∀ (id : HartId) (m : Nat) (p : Packet) (bank : Tbl Word) (seat : Seat) (tick : Nat), let h := newHart id m p bank seat tick
    (∀ r, h.greg r = 0) ∧ h.cfg.vl = 0 ∧ h.cfg.ill = true ∧ h.cfg.fresh = true ∧ h.cfg.nreg = 32 ∧ h.cfg.etype = 0 ∧ h.vlmax = 0 ∧
    h.accs = [] ∧ h.aflags = 0 ∧ h.unf = Unfinished.none ∧ h.stream = ⟨false, 0, 0⟩ ∧ h.notice = ⟨false, 0, 0⟩ ∧ h.event = false ∧ h.resv = none ∧
    h.pc = p.entry.getD seat.stage 0 ∧ h.phase = .armed ∧ h.trap = { TrapRegs.reset with tvec := BitVec.ofNat 64 ((Tbl.getD bank 254 0).toNat / 2 * 2) } ∧
    ∀ (s : State) home r, r < 16 → m < 65536 → h.devSlot < 2048 → ({ s with cur := h }.unstow : State).far home r = 0
end

