-- ==== Sys2Proof/Laws/Bits.lean ====
section
/-! SUPPORT. Laws of bit fields, byte order and runs of numbers. -/

namespace Sys2Proof.Machine

/-- A field just written reads back. -/
theorem bits_setBits_self (n lo w v : Nat) : bits (setBits n lo w v) lo w = v % 2 ^ w := by
  unfold bits setBits
  have h1 : n % 2 ^ lo / 2 ^ lo = 0 := Nat.div_eq_of_lt (Nat.mod_lt _ (Nat.two_pow_pos lo))
  have e : n % 2 ^ lo + v % 2 ^ w * 2 ^ lo + n / 2 ^ (lo + w) * 2 ^ (lo + w) =
      n % 2 ^ lo + 2 ^ lo * (v % 2 ^ w + 2 ^ w * (n / 2 ^ (lo + w))) := by rw [Nat.pow_add]; ring
  rw [e, Nat.add_mul_div_left _ _ (Nat.two_pow_pos lo), h1, Nat.zero_add, Nat.add_mul_mod_self_left, Nat.mod_mod]

/-- Bits below a written field stay. -/
theorem setBits_mod (n lo w v k : Nat) (h : k ≤ lo) : setBits n lo w v % 2 ^ k = n % 2 ^ k := by
  unfold setBits
  obtain ⟨d, rfl⟩ := Nat.exists_eq_add_of_le h
  have e : n % 2 ^ (k + d) + v % 2 ^ w * 2 ^ (k + d) + n / 2 ^ (k + d + w) * 2 ^ (k + d + w) =
      n % 2 ^ (k + d) + 2 ^ k * (v % 2 ^ w * 2 ^ d + n / 2 ^ (k + d + w) * 2 ^ (d + w)) := by
    rw [show k + d + w = k + (d + w) by omega, Nat.pow_add 2 k d, Nat.pow_add 2 k (d + w)]; ring
  rw [e, Nat.add_mul_mod_self_left, Nat.mod_mod_of_dvd _ (Nat.pow_dvd_pow 2 h)]

/-- Bits above a written field stay. -/
theorem setBits_div (n lo w v k : Nat) (h : lo + w ≤ k) : setBits n lo w v / 2 ^ k = n / 2 ^ k := by
  obtain ⟨d, rfl⟩ := Nat.exists_eq_add_of_le h
  have hb : (n % 2 ^ lo + v % 2 ^ w * 2 ^ lo) < 2 ^ (lo + w) := by
    have h1 := Nat.mod_lt n (Nat.two_pow_pos lo)
    have h2 : v % 2 ^ w + 1 ≤ 2 ^ w := Nat.mod_lt v (Nat.two_pow_pos w)
    calc n % 2 ^ lo + v % 2 ^ w * 2 ^ lo < 2 ^ lo + v % 2 ^ w * 2 ^ lo := by omega
      _ = (v % 2 ^ w + 1) * 2 ^ lo := by ring
      _ ≤ 2 ^ w * 2 ^ lo := Nat.mul_le_mul_right _ h2
      _ = 2 ^ (lo + w) := by rw [Nat.pow_add]; ring
  unfold setBits
  rw [Nat.pow_add 2 (lo + w) d, ← Nat.div_div_eq_div_mul, ← Nat.div_div_eq_div_mul, Nat.add_mul_div_right _ _ (Nat.two_pow_pos _),
    Nat.div_eq_of_lt hb, Nat.zero_add]

/-- A field disjoint from a written one stays. -/
theorem bits_setBits_other (n lo w v lo' w' : Nat) (h : lo' + w' ≤ lo ∨ lo + w ≤ lo') :
    bits (setBits n lo w v) lo' w' = bits n lo' w' := by
  unfold bits
  rcases h with h | h
  · have := setBits_mod n lo w v (lo' + w') h
    have field : ∀ m : Nat, m / 2 ^ lo' % 2 ^ w' = m % 2 ^ (lo' + w') / 2 ^ lo' := fun m => by
      rw [Nat.pow_add, Nat.mod_mul_right_div_self]
    rw [field, field, this]
  · rw [setBits_div n lo w v lo' h]

theorem bit_eq_bits (n i : Nat) : bit n i = (bits n i 1 == 1) := rfl

/-- A bit just written reads back. -/
theorem bit_setBits_self (n i : Nat) (b : Bool) : bit (setBits n i 1 (if b then 1 else 0)) i = b := by
  rw [bit_eq_bits, bits_setBits_self]
  cases b <;> rfl

/-- Another bit stays. -/
theorem bit_setBits_other (n i k v : Nat) (h : k ≠ i) : bit (setBits n i 1 v) k = bit n k := by
  rw [bit_eq_bits, bit_eq_bits, bits_setBits_other _ _ _ _ _ _ (by omega)]

@[simp] theorem length_upto (n : Nat) : ∀ a, (upto a n).length = n := by
  induction n with
  | zero => exact fun _ => rfl
  | succ n ih => exact fun a => congrArg Nat.succ (ih (a + 1))

theorem mem_upto (n : Nat) : ∀ {a k : Nat}, k ∈ upto a n ↔ a ≤ k ∧ k < a + n := by
  induction n with
  | zero => intro a k; simp [upto]
  | succ n ih =>
    intro a k
    simp only [upto, List.mem_cons, ih]
    omega

@[simp] theorem length_leBytes (n : Nat) : ∀ v, (leBytes n v).length = n := by
  induction n with
  | zero => exact fun _ => rfl
  | succ n ih => exact fun v => congrArg Nat.succ (ih (v / 256))

/-- The bytes of a value give it back (R4). -/
theorem leNat_leBytes (n : Nat) : ∀ v, leNat (leBytes n v) = v % 2 ^ (8 * n) := by
  induction n with
  | zero => intro v; simp [leBytes, leNat, Nat.mod_one]
  | succ n ih =>
    intro v
    simp only [leBytes, leNat, ih, BitVec.toNat_ofNat]
    rw [show 8 * (n + 1) = 8 + 8 * n by omega, Nat.pow_add, Nat.mod_mul, show (2 : Nat) ^ 8 = 256 from rfl]

/-- The value of bytes has them as its bytes (R4). -/
theorem leBytes_leNat : ∀ bs : List Byte, leBytes bs.length (leNat bs) = bs
  | [] => rfl
  | b :: bs => by
    have h : b.toNat < 256 := b.isLt
    simp only [List.length_cons, leBytes, leNat]
    rw [show (b.toNat + 256 * leNat bs) / 256 = leNat bs by omega, leBytes_leNat bs]
    congr 1
    apply BitVec.eq_of_toNat_eq
    simp only [BitVec.toNat_ofNat]
    omega

theorem leNat_lt : ∀ bs : List Byte, leNat bs < 2 ^ (8 * bs.length)
  | [] => by simp [leNat]
  | b :: bs => by
    have h : b.toNat < 256 := b.isLt
    have := leNat_lt bs
    simp only [leNat, List.length_cons]
    rw [show 8 * (bs.length + 1) = 8 * bs.length + 8 by omega, Nat.pow_add]
    omega

end Sys2Proof.Machine
end

