-- ==== Sys2Proof/Laws/Table.lean ====
section
/-! SUPPORT. Laws of sparse tables: what a read after a write gives, and that writes keep the keys rising. -/

namespace Sys2Proof.Machine

variable {α : Type}

theorem Tbl.find_put_self (k : Nat) (v : α) (t : Tbl α) : Tbl.find k (Tbl.put k v t) = some v := by
  induction t with
  | nil => simp [Tbl.put, Tbl.find]
  | cons c t ih =>
    obtain ⟨j, u⟩ := c
    unfold Tbl.put
    split
    · simp [Tbl.find]
    · split
      · simp [Tbl.find]
      · simp only [Tbl.find]
        rw [if_neg (by omega), if_neg (by omega)]
        exact ih

theorem Tbl.find_put_other {k x : Nat} (h : x ≠ k) (v : α) (t : Tbl α) : Tbl.find x (Tbl.put k v t) = Tbl.find x t := by
  induction t with
  | nil => simp [Tbl.put, Tbl.find, h]
  | cons c t ih =>
    obtain ⟨j, u⟩ := c
    unfold Tbl.put
    split
    · simp only [Tbl.find, if_neg h]
      split <;> split <;> first | rfl | omega | (split <;> first | rfl | omega)
    · split
      · subst_vars
        simp [Tbl.find, h]
      · simp only [Tbl.find, ih]

theorem Tbl.getD_put_self (k : Nat) (v d : α) (t : Tbl α) : Tbl.getD (Tbl.put k v t) k d = v := by
  simp [Tbl.getD, Tbl.find_put_self]

theorem Tbl.getD_put_other {k x : Nat} (h : x ≠ k) (v d : α) (t : Tbl α) : Tbl.getD (Tbl.put k v t) x d = Tbl.getD t x d := by
  simp [Tbl.getD, Tbl.find_put_other h]

theorem Tbl.rising_cons {c : Nat × α} {t : Tbl α} :
    Tbl.rising (c :: t) = true ↔ Tbl.rising t = true ∧ ∀ e ∈ t, c.1 < e.1 := by
  induction t generalizing c with
  | nil => simp [Tbl.rising]
  | cons e t ih =>
    obtain ⟨j, u⟩ := c
    obtain ⟨k, w⟩ := e
    simp only [Tbl.rising, Bool.and_eq_true, decide_eq_true_eq, List.mem_cons, forall_eq_or_imp]
    constructor
    · rintro ⟨h1, h2⟩
      refine ⟨h2, h1, fun e he => ?_⟩
      have := (ih.mp h2).2 e he
      simp only at this
      omega
    · rintro ⟨h1, h2, _⟩
      exact ⟨h2, h1⟩

theorem Tbl.mem_put {k : Nat} {v : α} {t : Tbl α} {e : Nat × α} (h : e ∈ Tbl.put k v t) : e = (k, v) ∨ e ∈ t := by
  induction t with
  | nil => simpa [Tbl.put] using h
  | cons c t ih =>
    obtain ⟨j, u⟩ := c
    unfold Tbl.put at h
    split at h
    · simpa using h
    · split at h
      · rcases List.mem_cons.mp h with h | h
        · exact .inl h
        · exact .inr (List.mem_cons_of_mem _ h)
      · rcases List.mem_cons.mp h with h | h
        · exact .inr (h ▸ List.mem_cons_self)
        · exact (ih h).imp id (List.mem_cons_of_mem _)

theorem Tbl.mem_del {k : Nat} {t : Tbl α} {e : Nat × α} (h : e ∈ Tbl.del k t) : e ∈ t := by
  induction t with
  | nil => simp [Tbl.del] at h
  | cons c t ih =>
    obtain ⟨j, u⟩ := c
    unfold Tbl.del at h
    split at h
    · exact h
    · split at h
      · exact List.mem_cons_of_mem _ h
      · rcases List.mem_cons.mp h with h | h
        · exact h ▸ List.mem_cons_self
        · exact List.mem_cons_of_mem _ (ih h)

theorem Tbl.rising_put (k : Nat) (v : α) {t : Tbl α} (h : Tbl.rising t = true) : Tbl.rising (Tbl.put k v t) = true := by
  induction t with
  | nil => rfl
  | cons c t ih =>
    obtain ⟨j, u⟩ := c
    have hr := Tbl.rising_cons.mp h
    unfold Tbl.put
    split
    · refine Tbl.rising_cons.mpr ⟨h, fun e he => ?_⟩
      rcases List.mem_cons.mp he with he | he
      · subst he; simpa
      · have := hr.2 e he
        simp only at this ⊢
        omega
    · split
      · subst_vars
        exact Tbl.rising_cons.mpr ⟨hr.1, hr.2⟩
      · refine Tbl.rising_cons.mpr ⟨ih hr.1, fun e he => ?_⟩
        rcases Tbl.mem_put he with he | he
        · subst he
          simp only
          omega
        · exact hr.2 e he

theorem Tbl.rising_del (k : Nat) {t : Tbl α} (h : Tbl.rising t = true) : Tbl.rising (Tbl.del k t) = true := by
  induction t with
  | nil => rfl
  | cons c t ih =>
    obtain ⟨j, u⟩ := c
    have hr := Tbl.rising_cons.mp h
    unfold Tbl.del
    split
    · exact h
    · split
      · exact hr.1
      · exact Tbl.rising_cons.mpr ⟨ih hr.1, fun e he => hr.2 e (Tbl.mem_del he)⟩

theorem Tbl.rising_filter (p : Nat × α → Bool) {t : Tbl α} (h : Tbl.rising t = true) : Tbl.rising (t.filter p) = true := by
  induction t with
  | nil => rfl
  | cons c t ih =>
    have hr := Tbl.rising_cons.mp h
    rw [List.filter_cons]
    split
    · exact Tbl.rising_cons.mpr ⟨ih hr.1, fun e he => hr.2 e (List.mem_filter.mp he).1⟩
    · exact ih hr.1

theorem Tbl.find_lt {k : Nat} {t : Tbl α} (h : ∀ e ∈ t, k < e.1) : Tbl.find k t = none := by
  cases t with
  | nil => rfl
  | cons c t =>
    obtain ⟨j, u⟩ := c
    have := h _ List.mem_cons_self
    simp only at this
    simp only [Tbl.find]
    rw [if_neg (by omega), if_pos this]

theorem Tbl.find_del_self {k : Nat} {t : Tbl α} (h : Tbl.rising t = true) : Tbl.find k (Tbl.del k t) = none := by
  induction t with
  | nil => rfl
  | cons c t ih =>
    obtain ⟨j, u⟩ := c
    have hr := Tbl.rising_cons.mp h
    unfold Tbl.del
    split
    · simp only [Tbl.find]
      rw [if_neg (by omega), if_pos ‹_›]
    · split
      · subst_vars
        exact Tbl.find_lt hr.2
      · simp only [Tbl.find]
        rw [if_neg ‹_›, if_neg ‹_›]
        exact ih hr.1

theorem Tbl.find_del_other {k x : Nat} {t : Tbl α} (h : Tbl.rising t = true) (hx : x ≠ k) :
    Tbl.find x (Tbl.del k t) = Tbl.find x t := by
  induction t with
  | nil => rfl
  | cons c t ih =>
    obtain ⟨j, u⟩ := c
    have hr := Tbl.rising_cons.mp h
    unfold Tbl.del
    split
    · rfl
    · split
      · subst_vars
        simp only [Tbl.find, if_neg hx]
        split
        · rename_i hlt
          exact Tbl.find_lt (fun e he => by have := hr.2 e he; simp only at this; omega)
        · rfl
      · simp only [Tbl.find, ih hr.1]

theorem Tbl.rising_store [DecidableEq α] (d : α) (k : Nat) (v : α) {t : Tbl α} (h : Tbl.rising t = true) :
    Tbl.rising (Tbl.store d k v t) = true := by
  unfold Tbl.store
  split
  · exact Tbl.rising_del k h
  · exact Tbl.rising_put k v h

theorem Tbl.getD_store_self [DecidableEq α] (d : α) (k : Nat) (v : α) {t : Tbl α} (h : Tbl.rising t = true) :
    Tbl.getD (Tbl.store d k v t) k d = v := by
  unfold Tbl.store
  split
  · subst_vars
    simp [Tbl.getD, Tbl.find_del_self h]
  · exact Tbl.getD_put_self k v d t

theorem Tbl.getD_store_other [DecidableEq α] (d : α) {k x : Nat} (v : α) {t : Tbl α} (h : Tbl.rising t = true) (hx : x ≠ k) :
    Tbl.getD (Tbl.store d k v t) x d = Tbl.getD t x d := by
  unfold Tbl.store
  split
  · simp [Tbl.getD, Tbl.find_del_other h hx]
  · exact Tbl.getD_put_other hx v d t

end Sys2Proof.Machine
end

