-- ==== Sys2Proof/Laws/State.lean ====
section
/-! SUPPORT. Laws of the state's named updates: for each, what every field reads afterwards. -/

namespace Sys2Proof.Machine

/-! ### Harts -/

/-- What reads no scalar register reads the same after a write of one. -/
theorem Hart.setG_keeps {α : Type} (f : Hart → α) (h : Hart) (r : Fin 32) (v : Word)
    (k : ∀ x, f { h with g := x } = f h) : f (h.setG r v) = f h := by
  unfold Hart.setG
  split
  · rfl
  · exact k _

/-! #### Hart.setG -/

@[simp] theorem Hart.setG_id (h : Hart) (r : Fin 32) (v : Word) : (h.setG r v).id = h.id := Hart.setG_keeps Hart.id h r v fun _ => rfl
@[simp] theorem Hart.setG_mod (h : Hart) (r : Fin 32) (v : Word) : (h.setG r v).mod = h.mod := Hart.setG_keeps Hart.mod h r v fun _ => rfl
@[simp] theorem Hart.setG_phase (h : Hart) (r : Fin 32) (v : Word) : (h.setG r v).phase = h.phase := Hart.setG_keeps Hart.phase h r v fun _ => rfl
@[simp] theorem Hart.setG_seat (h : Hart) (r : Fin 32) (v : Word) : (h.setG r v).seat = h.seat := Hart.setG_keeps Hart.seat h r v fun _ => rfl
@[simp] theorem Hart.setG_pc (h : Hart) (r : Fin 32) (v : Word) : (h.setG r v).pc = h.pc := Hart.setG_keeps Hart.pc h r v fun _ => rfl
@[simp] theorem Hart.setG_npc (h : Hart) (r : Fin 32) (v : Word) : (h.setG r v).npc = h.npc := Hart.setG_keeps Hart.npc h r v fun _ => rfl
@[simp] theorem Hart.setG_head (h : Hart) (r : Fin 32) (v : Word) : (h.setG r v).head = h.head := Hart.setG_keeps Hart.head h r v fun _ => rfl
@[simp] theorem Hart.setG_cfg (h : Hart) (r : Fin 32) (v : Word) : (h.setG r v).cfg = h.cfg := Hart.setG_keeps Hart.cfg h r v fun _ => rfl
@[simp] theorem Hart.setG_vec (h : Hart) (r : Fin 32) (v : Word) : (h.setG r v).vec = h.vec := Hart.setG_keeps Hart.vec h r v fun _ => rfl
@[simp] theorem Hart.setG_mask (h : Hart) (r : Fin 32) (v : Word) : (h.setG r v).mask = h.mask := Hart.setG_keeps Hart.mask h r v fun _ => rfl
@[simp] theorem Hart.setG_stream (h : Hart) (r : Fin 32) (v : Word) : (h.setG r v).stream = h.stream := Hart.setG_keeps Hart.stream h r v fun _ => rfl
@[simp] theorem Hart.setG_notice (h : Hart) (r : Fin 32) (v : Word) : (h.setG r v).notice = h.notice := Hart.setG_keeps Hart.notice h r v fun _ => rfl
@[simp] theorem Hart.setG_accs (h : Hart) (r : Fin 32) (v : Word) : (h.setG r v).accs = h.accs := Hart.setG_keeps Hart.accs h r v fun _ => rfl
@[simp] theorem Hart.setG_aflags (h : Hart) (r : Fin 32) (v : Word) : (h.setG r v).aflags = h.aflags := Hart.setG_keeps Hart.aflags h r v fun _ => rfl
@[simp] theorem Hart.setG_atp (h : Hart) (r : Fin 32) (v : Word) : (h.setG r v).atp = h.atp := Hart.setG_keeps Hart.atp h r v fun _ => rfl
@[simp] theorem Hart.setG_unf (h : Hart) (r : Fin 32) (v : Word) : (h.setG r v).unf = h.unf := Hart.setG_keeps Hart.unf h r v fun _ => rfl
@[simp] theorem Hart.setG_trap (h : Hart) (r : Fin 32) (v : Word) : (h.setG r v).trap = h.trap := Hart.setG_keeps Hart.trap h r v fun _ => rfl
@[simp] theorem Hart.setG_resv (h : Hart) (r : Fin 32) (v : Word) : (h.setG r v).resv = h.resv := Hart.setG_keeps Hart.resv h r v fun _ => rfl
@[simp] theorem Hart.setG_event (h : Hart) (r : Fin 32) (v : Word) : (h.setG r v).event = h.event := Hart.setG_keeps Hart.event h r v fun _ => rfl
@[simp] theorem Hart.setG_vq (h : Hart) (r : Fin 32) (v : Word) : (h.setG r v).vq = h.vq := Hart.setG_keeps Hart.vq h r v fun _ => rfl
@[simp] theorem Hart.setG_moved (h : Hart) (r : Fin 32) (v : Word) : (h.setG r v).moved = h.moved := Hart.setG_keeps Hart.moved h r v fun _ => rfl
@[simp] theorem Hart.setG_active (h : Hart) (r : Fin 32) (v : Word) : (h.setG r v).active = h.active := Hart.setG_keeps Hart.active h r v fun _ => rfl
@[simp] theorem Hart.setG_later (h : Hart) (r : Fin 32) (v : Word) : (h.setG r v).later = h.later := Hart.setG_keeps Hart.later h r v fun _ => rfl
@[simp] theorem Hart.setG_waitOn (h : Hart) (r : Fin 32) (v : Word) : (h.setG r v).waitOn = h.waitOn := Hart.setG_keeps Hart.waitOn h r v fun _ => rfl
@[simp] theorem Hart.setG_waitFrom (h : Hart) (r : Fin 32) (v : Word) : (h.setG r v).waitFrom = h.waitFrom := Hart.setG_keeps Hart.waitFrom h r v fun _ => rfl
@[simp] theorem Hart.setG_kheld (h : Hart) (r : Fin 32) (v : Word) : (h.setG r v).kheld = h.kheld := Hart.setG_keeps Hart.kheld h r v fun _ => rfl
@[simp] theorem Hart.setG_send (h : Hart) (r : Fin 32) (v : Word) : (h.setG r v).send = h.send := Hart.setG_keeps Hart.send h r v fun _ => rfl
@[simp] theorem Hart.setG_got (h : Hart) (r : Fin 32) (v : Word) : (h.setG r v).got = h.got := Hart.setG_keeps Hart.got h r v fun _ => rfl
@[simp] theorem Hart.setG_bars (h : Hart) (r : Fin 32) (v : Word) : (h.setG r v).bars = h.bars := Hart.setG_keeps Hart.bars h r v fun _ => rfl
@[simp] theorem Hart.setG_atBar (h : Hart) (r : Fin 32) (v : Word) : (h.setG r v).atBar = h.atBar := Hart.setG_keeps Hart.atBar h r v fun _ => rfl
@[simp] theorem Hart.setG_unacked (h : Hart) (r : Fin 32) (v : Word) : (h.setG r v).unacked = h.unacked := Hart.setG_keeps Hart.unacked h r v fun _ => rfl
@[simp] theorem Hart.setG_heldFrom (h : Hart) (r : Fin 32) (v : Word) : (h.setG r v).heldFrom = h.heldFrom := Hart.setG_keeps Hart.heldFrom h r v fun _ => rfl
@[simp] theorem Hart.setG_quietFrom (h : Hart) (r : Fin 32) (v : Word) : (h.setG r v).quietFrom = h.quietFrom := Hart.setG_keeps Hart.quietFrom h r v fun _ => rfl
@[simp] theorem Hart.setG_quietHeld (h : Hart) (r : Fin 32) (v : Word) : (h.setG r v).quietHeld = h.quietHeld := Hart.setG_keeps Hart.quietHeld h r v fun _ => rfl
@[simp] theorem Hart.setG_lastShift (h : Hart) (r : Fin 32) (v : Word) : (h.setG r v).lastShift = h.lastShift := Hart.setG_keeps Hart.lastShift h r v fun _ => rfl
@[simp] theorem Hart.setG_eager (h : Hart) (r : Fin 32) (v : Word) : (h.setG r v).eager = h.eager := Hart.setG_keeps Hart.eager h r v fun _ => rfl
@[simp] theorem Hart.setG_seen (h : Hart) (r : Fin 32) (v : Word) : (h.setG r v).seen = h.seen := Hart.setG_keeps Hart.seen h r v fun _ => rfl
@[simp] theorem Hart.setG_needsAct (h : Hart) (r : Fin 32) (v : Word) : (h.setG r v).needsAct = h.needsAct := Hart.setG_keeps Hart.needsAct h r v fun _ => rfl
@[simp] theorem Hart.setG_refault (h : Hart) (r : Fin 32) (v : Word) : (h.setG r v).refault = h.refault := Hart.setG_keeps Hart.refault h r v fun _ => rfl
@[simp] theorem Hart.setG_bank (h : Hart) (r : Fin 32) (v : Word) : (h.setG r v).bank = h.bank := Hart.setG_keeps Hart.bank h r v fun _ => rfl
@[simp] theorem Hart.setG_bankPoison (h : Hart) (r : Fin 32) (v : Word) : (h.setG r v).bankPoison = h.bankPoison := Hart.setG_keeps Hart.bankPoison h r v fun _ => rfl

/-! #### Hart.setElem -/

@[simp] theorem Hart.setElem_id (h : Hart) (r : Fin 64) (i v : Nat) : (h.setElem r i v).id = h.id := rfl
@[simp] theorem Hart.setElem_mod (h : Hart) (r : Fin 64) (i v : Nat) : (h.setElem r i v).mod = h.mod := rfl
@[simp] theorem Hart.setElem_phase (h : Hart) (r : Fin 64) (i v : Nat) : (h.setElem r i v).phase = h.phase := rfl
@[simp] theorem Hart.setElem_seat (h : Hart) (r : Fin 64) (i v : Nat) : (h.setElem r i v).seat = h.seat := rfl
@[simp] theorem Hart.setElem_pc (h : Hart) (r : Fin 64) (i v : Nat) : (h.setElem r i v).pc = h.pc := rfl
@[simp] theorem Hart.setElem_npc (h : Hart) (r : Fin 64) (i v : Nat) : (h.setElem r i v).npc = h.npc := rfl
@[simp] theorem Hart.setElem_head (h : Hart) (r : Fin 64) (i v : Nat) : (h.setElem r i v).head = h.head := rfl
@[simp] theorem Hart.setElem_g (h : Hart) (r : Fin 64) (i v : Nat) : (h.setElem r i v).g = h.g := rfl
@[simp] theorem Hart.setElem_cfg (h : Hart) (r : Fin 64) (i v : Nat) : (h.setElem r i v).cfg = h.cfg := rfl
@[simp] theorem Hart.setElem_mask (h : Hart) (r : Fin 64) (i v : Nat) : (h.setElem r i v).mask = h.mask := rfl
@[simp] theorem Hart.setElem_stream (h : Hart) (r : Fin 64) (i v : Nat) : (h.setElem r i v).stream = h.stream := rfl
@[simp] theorem Hart.setElem_notice (h : Hart) (r : Fin 64) (i v : Nat) : (h.setElem r i v).notice = h.notice := rfl
@[simp] theorem Hart.setElem_accs (h : Hart) (r : Fin 64) (i v : Nat) : (h.setElem r i v).accs = h.accs := rfl
@[simp] theorem Hart.setElem_aflags (h : Hart) (r : Fin 64) (i v : Nat) : (h.setElem r i v).aflags = h.aflags := rfl
@[simp] theorem Hart.setElem_atp (h : Hart) (r : Fin 64) (i v : Nat) : (h.setElem r i v).atp = h.atp := rfl
@[simp] theorem Hart.setElem_unf (h : Hart) (r : Fin 64) (i v : Nat) : (h.setElem r i v).unf = h.unf := rfl
@[simp] theorem Hart.setElem_trap (h : Hart) (r : Fin 64) (i v : Nat) : (h.setElem r i v).trap = h.trap := rfl
@[simp] theorem Hart.setElem_resv (h : Hart) (r : Fin 64) (i v : Nat) : (h.setElem r i v).resv = h.resv := rfl
@[simp] theorem Hart.setElem_event (h : Hart) (r : Fin 64) (i v : Nat) : (h.setElem r i v).event = h.event := rfl
@[simp] theorem Hart.setElem_vq (h : Hart) (r : Fin 64) (i v : Nat) : (h.setElem r i v).vq = h.vq := rfl
@[simp] theorem Hart.setElem_moved (h : Hart) (r : Fin 64) (i v : Nat) : (h.setElem r i v).moved = h.moved := rfl
@[simp] theorem Hart.setElem_active (h : Hart) (r : Fin 64) (i v : Nat) : (h.setElem r i v).active = h.active := rfl
@[simp] theorem Hart.setElem_later (h : Hart) (r : Fin 64) (i v : Nat) : (h.setElem r i v).later = h.later := rfl
@[simp] theorem Hart.setElem_waitOn (h : Hart) (r : Fin 64) (i v : Nat) : (h.setElem r i v).waitOn = h.waitOn := rfl
@[simp] theorem Hart.setElem_waitFrom (h : Hart) (r : Fin 64) (i v : Nat) : (h.setElem r i v).waitFrom = h.waitFrom := rfl
@[simp] theorem Hart.setElem_kheld (h : Hart) (r : Fin 64) (i v : Nat) : (h.setElem r i v).kheld = h.kheld := rfl
@[simp] theorem Hart.setElem_send (h : Hart) (r : Fin 64) (i v : Nat) : (h.setElem r i v).send = h.send := rfl
@[simp] theorem Hart.setElem_got (h : Hart) (r : Fin 64) (i v : Nat) : (h.setElem r i v).got = h.got := rfl
@[simp] theorem Hart.setElem_bars (h : Hart) (r : Fin 64) (i v : Nat) : (h.setElem r i v).bars = h.bars := rfl
@[simp] theorem Hart.setElem_atBar (h : Hart) (r : Fin 64) (i v : Nat) : (h.setElem r i v).atBar = h.atBar := rfl
@[simp] theorem Hart.setElem_unacked (h : Hart) (r : Fin 64) (i v : Nat) : (h.setElem r i v).unacked = h.unacked := rfl
@[simp] theorem Hart.setElem_heldFrom (h : Hart) (r : Fin 64) (i v : Nat) : (h.setElem r i v).heldFrom = h.heldFrom := rfl
@[simp] theorem Hart.setElem_quietFrom (h : Hart) (r : Fin 64) (i v : Nat) : (h.setElem r i v).quietFrom = h.quietFrom := rfl
@[simp] theorem Hart.setElem_quietHeld (h : Hart) (r : Fin 64) (i v : Nat) : (h.setElem r i v).quietHeld = h.quietHeld := rfl
@[simp] theorem Hart.setElem_lastShift (h : Hart) (r : Fin 64) (i v : Nat) : (h.setElem r i v).lastShift = h.lastShift := rfl
@[simp] theorem Hart.setElem_eager (h : Hart) (r : Fin 64) (i v : Nat) : (h.setElem r i v).eager = h.eager := rfl
@[simp] theorem Hart.setElem_seen (h : Hart) (r : Fin 64) (i v : Nat) : (h.setElem r i v).seen = h.seen := rfl
@[simp] theorem Hart.setElem_needsAct (h : Hart) (r : Fin 64) (i v : Nat) : (h.setElem r i v).needsAct = h.needsAct := rfl
@[simp] theorem Hart.setElem_refault (h : Hart) (r : Fin 64) (i v : Nat) : (h.setElem r i v).refault = h.refault := rfl
@[simp] theorem Hart.setElem_bank (h : Hart) (r : Fin 64) (i v : Nat) : (h.setElem r i v).bank = h.bank := rfl
@[simp] theorem Hart.setElem_bankPoison (h : Hart) (r : Fin 64) (i v : Nat) : (h.setElem r i v).bankPoison = h.bankPoison := rfl

/-! #### Hart.setMaskBit -/

@[simp] theorem Hart.setMaskBit_id (h : Hart) (q : Fin 8) (i : Nat) (b : Bool) : (h.setMaskBit q i b).id = h.id := rfl
@[simp] theorem Hart.setMaskBit_mod (h : Hart) (q : Fin 8) (i : Nat) (b : Bool) : (h.setMaskBit q i b).mod = h.mod := rfl
@[simp] theorem Hart.setMaskBit_phase (h : Hart) (q : Fin 8) (i : Nat) (b : Bool) : (h.setMaskBit q i b).phase = h.phase := rfl
@[simp] theorem Hart.setMaskBit_seat (h : Hart) (q : Fin 8) (i : Nat) (b : Bool) : (h.setMaskBit q i b).seat = h.seat := rfl
@[simp] theorem Hart.setMaskBit_pc (h : Hart) (q : Fin 8) (i : Nat) (b : Bool) : (h.setMaskBit q i b).pc = h.pc := rfl
@[simp] theorem Hart.setMaskBit_npc (h : Hart) (q : Fin 8) (i : Nat) (b : Bool) : (h.setMaskBit q i b).npc = h.npc := rfl
@[simp] theorem Hart.setMaskBit_head (h : Hart) (q : Fin 8) (i : Nat) (b : Bool) : (h.setMaskBit q i b).head = h.head := rfl
@[simp] theorem Hart.setMaskBit_g (h : Hart) (q : Fin 8) (i : Nat) (b : Bool) : (h.setMaskBit q i b).g = h.g := rfl
@[simp] theorem Hart.setMaskBit_cfg (h : Hart) (q : Fin 8) (i : Nat) (b : Bool) : (h.setMaskBit q i b).cfg = h.cfg := rfl
@[simp] theorem Hart.setMaskBit_vec (h : Hart) (q : Fin 8) (i : Nat) (b : Bool) : (h.setMaskBit q i b).vec = h.vec := rfl
@[simp] theorem Hart.setMaskBit_stream (h : Hart) (q : Fin 8) (i : Nat) (b : Bool) : (h.setMaskBit q i b).stream = h.stream := rfl
@[simp] theorem Hart.setMaskBit_notice (h : Hart) (q : Fin 8) (i : Nat) (b : Bool) : (h.setMaskBit q i b).notice = h.notice := rfl
@[simp] theorem Hart.setMaskBit_accs (h : Hart) (q : Fin 8) (i : Nat) (b : Bool) : (h.setMaskBit q i b).accs = h.accs := rfl
@[simp] theorem Hart.setMaskBit_aflags (h : Hart) (q : Fin 8) (i : Nat) (b : Bool) : (h.setMaskBit q i b).aflags = h.aflags := rfl
@[simp] theorem Hart.setMaskBit_atp (h : Hart) (q : Fin 8) (i : Nat) (b : Bool) : (h.setMaskBit q i b).atp = h.atp := rfl
@[simp] theorem Hart.setMaskBit_unf (h : Hart) (q : Fin 8) (i : Nat) (b : Bool) : (h.setMaskBit q i b).unf = h.unf := rfl
@[simp] theorem Hart.setMaskBit_trap (h : Hart) (q : Fin 8) (i : Nat) (b : Bool) : (h.setMaskBit q i b).trap = h.trap := rfl
@[simp] theorem Hart.setMaskBit_resv (h : Hart) (q : Fin 8) (i : Nat) (b : Bool) : (h.setMaskBit q i b).resv = h.resv := rfl
@[simp] theorem Hart.setMaskBit_event (h : Hart) (q : Fin 8) (i : Nat) (b : Bool) : (h.setMaskBit q i b).event = h.event := rfl
@[simp] theorem Hart.setMaskBit_vq (h : Hart) (q : Fin 8) (i : Nat) (b : Bool) : (h.setMaskBit q i b).vq = h.vq := rfl
@[simp] theorem Hart.setMaskBit_moved (h : Hart) (q : Fin 8) (i : Nat) (b : Bool) : (h.setMaskBit q i b).moved = h.moved := rfl
@[simp] theorem Hart.setMaskBit_active (h : Hart) (q : Fin 8) (i : Nat) (b : Bool) : (h.setMaskBit q i b).active = h.active := rfl
@[simp] theorem Hart.setMaskBit_later (h : Hart) (q : Fin 8) (i : Nat) (b : Bool) : (h.setMaskBit q i b).later = h.later := rfl
@[simp] theorem Hart.setMaskBit_waitOn (h : Hart) (q : Fin 8) (i : Nat) (b : Bool) : (h.setMaskBit q i b).waitOn = h.waitOn := rfl
@[simp] theorem Hart.setMaskBit_waitFrom (h : Hart) (q : Fin 8) (i : Nat) (b : Bool) : (h.setMaskBit q i b).waitFrom = h.waitFrom := rfl
@[simp] theorem Hart.setMaskBit_kheld (h : Hart) (q : Fin 8) (i : Nat) (b : Bool) : (h.setMaskBit q i b).kheld = h.kheld := rfl
@[simp] theorem Hart.setMaskBit_send (h : Hart) (q : Fin 8) (i : Nat) (b : Bool) : (h.setMaskBit q i b).send = h.send := rfl
@[simp] theorem Hart.setMaskBit_got (h : Hart) (q : Fin 8) (i : Nat) (b : Bool) : (h.setMaskBit q i b).got = h.got := rfl
@[simp] theorem Hart.setMaskBit_bars (h : Hart) (q : Fin 8) (i : Nat) (b : Bool) : (h.setMaskBit q i b).bars = h.bars := rfl
@[simp] theorem Hart.setMaskBit_atBar (h : Hart) (q : Fin 8) (i : Nat) (b : Bool) : (h.setMaskBit q i b).atBar = h.atBar := rfl
@[simp] theorem Hart.setMaskBit_unacked (h : Hart) (q : Fin 8) (i : Nat) (b : Bool) : (h.setMaskBit q i b).unacked = h.unacked := rfl
@[simp] theorem Hart.setMaskBit_heldFrom (h : Hart) (q : Fin 8) (i : Nat) (b : Bool) : (h.setMaskBit q i b).heldFrom = h.heldFrom := rfl
@[simp] theorem Hart.setMaskBit_quietFrom (h : Hart) (q : Fin 8) (i : Nat) (b : Bool) : (h.setMaskBit q i b).quietFrom = h.quietFrom := rfl
@[simp] theorem Hart.setMaskBit_quietHeld (h : Hart) (q : Fin 8) (i : Nat) (b : Bool) : (h.setMaskBit q i b).quietHeld = h.quietHeld := rfl
@[simp] theorem Hart.setMaskBit_lastShift (h : Hart) (q : Fin 8) (i : Nat) (b : Bool) : (h.setMaskBit q i b).lastShift = h.lastShift := rfl
@[simp] theorem Hart.setMaskBit_eager (h : Hart) (q : Fin 8) (i : Nat) (b : Bool) : (h.setMaskBit q i b).eager = h.eager := rfl
@[simp] theorem Hart.setMaskBit_seen (h : Hart) (q : Fin 8) (i : Nat) (b : Bool) : (h.setMaskBit q i b).seen = h.seen := rfl
@[simp] theorem Hart.setMaskBit_needsAct (h : Hart) (q : Fin 8) (i : Nat) (b : Bool) : (h.setMaskBit q i b).needsAct = h.needsAct := rfl
@[simp] theorem Hart.setMaskBit_refault (h : Hart) (q : Fin 8) (i : Nat) (b : Bool) : (h.setMaskBit q i b).refault = h.refault := rfl
@[simp] theorem Hart.setMaskBit_bank (h : Hart) (q : Fin 8) (i : Nat) (b : Bool) : (h.setMaskBit q i b).bank = h.bank := rfl
@[simp] theorem Hart.setMaskBit_bankPoison (h : Hart) (q : Fin 8) (i : Nat) (b : Bool) : (h.setMaskBit q i b).bankPoison = h.bankPoison := rfl

/-! #### Hart.record -/

@[simp] theorem Hart.record_id (h : Hart) (t : Trap) : (h.record t).id = h.id := rfl
@[simp] theorem Hart.record_mod (h : Hart) (t : Trap) : (h.record t).mod = h.mod := rfl
@[simp] theorem Hart.record_phase (h : Hart) (t : Trap) : (h.record t).phase = h.phase := rfl
@[simp] theorem Hart.record_seat (h : Hart) (t : Trap) : (h.record t).seat = h.seat := rfl
@[simp] theorem Hart.record_pc (h : Hart) (t : Trap) : (h.record t).pc = h.pc := rfl
@[simp] theorem Hart.record_npc (h : Hart) (t : Trap) : (h.record t).npc = h.npc := rfl
@[simp] theorem Hart.record_head (h : Hart) (t : Trap) : (h.record t).head = h.head := rfl
@[simp] theorem Hart.record_g (h : Hart) (t : Trap) : (h.record t).g = h.g := rfl
@[simp] theorem Hart.record_cfg (h : Hart) (t : Trap) : (h.record t).cfg = h.cfg := rfl
@[simp] theorem Hart.record_vec (h : Hart) (t : Trap) : (h.record t).vec = h.vec := rfl
@[simp] theorem Hart.record_mask (h : Hart) (t : Trap) : (h.record t).mask = h.mask := rfl
@[simp] theorem Hart.record_stream (h : Hart) (t : Trap) : (h.record t).stream = h.stream := rfl
@[simp] theorem Hart.record_notice (h : Hart) (t : Trap) : (h.record t).notice = h.notice := rfl
@[simp] theorem Hart.record_accs (h : Hart) (t : Trap) : (h.record t).accs = h.accs := rfl
@[simp] theorem Hart.record_aflags (h : Hart) (t : Trap) : (h.record t).aflags = h.aflags := rfl
@[simp] theorem Hart.record_atp (h : Hart) (t : Trap) : (h.record t).atp = h.atp := rfl
@[simp] theorem Hart.record_unf (h : Hart) (t : Trap) : (h.record t).unf = h.unf := rfl
@[simp] theorem Hart.record_resv (h : Hart) (t : Trap) : (h.record t).resv = h.resv := rfl
@[simp] theorem Hart.record_event (h : Hart) (t : Trap) : (h.record t).event = h.event := rfl
@[simp] theorem Hart.record_vq (h : Hart) (t : Trap) : (h.record t).vq = h.vq := rfl
@[simp] theorem Hart.record_moved (h : Hart) (t : Trap) : (h.record t).moved = h.moved := rfl
@[simp] theorem Hart.record_active (h : Hart) (t : Trap) : (h.record t).active = h.active := rfl
@[simp] theorem Hart.record_later (h : Hart) (t : Trap) : (h.record t).later = h.later := rfl
@[simp] theorem Hart.record_waitOn (h : Hart) (t : Trap) : (h.record t).waitOn = h.waitOn := rfl
@[simp] theorem Hart.record_waitFrom (h : Hart) (t : Trap) : (h.record t).waitFrom = h.waitFrom := rfl
@[simp] theorem Hart.record_kheld (h : Hart) (t : Trap) : (h.record t).kheld = h.kheld := rfl
@[simp] theorem Hart.record_send (h : Hart) (t : Trap) : (h.record t).send = h.send := rfl
@[simp] theorem Hart.record_got (h : Hart) (t : Trap) : (h.record t).got = h.got := rfl
@[simp] theorem Hart.record_bars (h : Hart) (t : Trap) : (h.record t).bars = h.bars := rfl
@[simp] theorem Hart.record_atBar (h : Hart) (t : Trap) : (h.record t).atBar = h.atBar := rfl
@[simp] theorem Hart.record_unacked (h : Hart) (t : Trap) : (h.record t).unacked = h.unacked := rfl
@[simp] theorem Hart.record_heldFrom (h : Hart) (t : Trap) : (h.record t).heldFrom = h.heldFrom := rfl
@[simp] theorem Hart.record_quietFrom (h : Hart) (t : Trap) : (h.record t).quietFrom = h.quietFrom := rfl
@[simp] theorem Hart.record_quietHeld (h : Hart) (t : Trap) : (h.record t).quietHeld = h.quietHeld := rfl
@[simp] theorem Hart.record_lastShift (h : Hart) (t : Trap) : (h.record t).lastShift = h.lastShift := rfl
@[simp] theorem Hart.record_eager (h : Hart) (t : Trap) : (h.record t).eager = h.eager := rfl
@[simp] theorem Hart.record_seen (h : Hart) (t : Trap) : (h.record t).seen = h.seen := rfl
@[simp] theorem Hart.record_needsAct (h : Hart) (t : Trap) : (h.record t).needsAct = h.needsAct := rfl
@[simp] theorem Hart.record_refault (h : Hart) (t : Trap) : (h.record t).refault = h.refault := rfl
@[simp] theorem Hart.record_bank (h : Hart) (t : Trap) : (h.record t).bank = h.bank := rfl
@[simp] theorem Hart.record_bankPoison (h : Hart) (t : Trap) : (h.record t).bankPoison = h.bankPoison := rfl

/-! #### Hart.progress -/

@[simp] theorem Hart.progress_id (h : Hart) (t : Nat) : (h.progress t).id = h.id := rfl
@[simp] theorem Hart.progress_mod (h : Hart) (t : Nat) : (h.progress t).mod = h.mod := rfl
@[simp] theorem Hart.progress_seat (h : Hart) (t : Nat) : (h.progress t).seat = h.seat := rfl
@[simp] theorem Hart.progress_pc (h : Hart) (t : Nat) : (h.progress t).pc = h.pc := rfl
@[simp] theorem Hart.progress_npc (h : Hart) (t : Nat) : (h.progress t).npc = h.npc := rfl
@[simp] theorem Hart.progress_head (h : Hart) (t : Nat) : (h.progress t).head = h.head := rfl
@[simp] theorem Hart.progress_g (h : Hart) (t : Nat) : (h.progress t).g = h.g := rfl
@[simp] theorem Hart.progress_cfg (h : Hart) (t : Nat) : (h.progress t).cfg = h.cfg := rfl
@[simp] theorem Hart.progress_vec (h : Hart) (t : Nat) : (h.progress t).vec = h.vec := rfl
@[simp] theorem Hart.progress_mask (h : Hart) (t : Nat) : (h.progress t).mask = h.mask := rfl
@[simp] theorem Hart.progress_stream (h : Hart) (t : Nat) : (h.progress t).stream = h.stream := rfl
@[simp] theorem Hart.progress_notice (h : Hart) (t : Nat) : (h.progress t).notice = h.notice := rfl
@[simp] theorem Hart.progress_accs (h : Hart) (t : Nat) : (h.progress t).accs = h.accs := rfl
@[simp] theorem Hart.progress_aflags (h : Hart) (t : Nat) : (h.progress t).aflags = h.aflags := rfl
@[simp] theorem Hart.progress_atp (h : Hart) (t : Nat) : (h.progress t).atp = h.atp := rfl
@[simp] theorem Hart.progress_unf (h : Hart) (t : Nat) : (h.progress t).unf = h.unf := rfl
@[simp] theorem Hart.progress_trap (h : Hart) (t : Nat) : (h.progress t).trap = h.trap := rfl
@[simp] theorem Hart.progress_resv (h : Hart) (t : Nat) : (h.progress t).resv = h.resv := rfl
@[simp] theorem Hart.progress_event (h : Hart) (t : Nat) : (h.progress t).event = h.event := rfl
@[simp] theorem Hart.progress_vq (h : Hart) (t : Nat) : (h.progress t).vq = h.vq := rfl
@[simp] theorem Hart.progress_moved (h : Hart) (t : Nat) : (h.progress t).moved = h.moved := rfl
@[simp] theorem Hart.progress_active (h : Hart) (t : Nat) : (h.progress t).active = h.active := rfl
@[simp] theorem Hart.progress_later (h : Hart) (t : Nat) : (h.progress t).later = h.later := rfl
@[simp] theorem Hart.progress_waitFrom (h : Hart) (t : Nat) : (h.progress t).waitFrom = h.waitFrom := rfl
@[simp] theorem Hart.progress_send (h : Hart) (t : Nat) : (h.progress t).send = h.send := rfl
@[simp] theorem Hart.progress_got (h : Hart) (t : Nat) : (h.progress t).got = h.got := rfl
@[simp] theorem Hart.progress_bars (h : Hart) (t : Nat) : (h.progress t).bars = h.bars := rfl
@[simp] theorem Hart.progress_atBar (h : Hart) (t : Nat) : (h.progress t).atBar = h.atBar := rfl
@[simp] theorem Hart.progress_unacked (h : Hart) (t : Nat) : (h.progress t).unacked = h.unacked := rfl
@[simp] theorem Hart.progress_lastShift (h : Hart) (t : Nat) : (h.progress t).lastShift = h.lastShift := rfl
@[simp] theorem Hart.progress_eager (h : Hart) (t : Nat) : (h.progress t).eager = h.eager := rfl
@[simp] theorem Hart.progress_seen (h : Hart) (t : Nat) : (h.progress t).seen = h.seen := rfl
@[simp] theorem Hart.progress_needsAct (h : Hart) (t : Nat) : (h.progress t).needsAct = h.needsAct := rfl
@[simp] theorem Hart.progress_refault (h : Hart) (t : Nat) : (h.progress t).refault = h.refault := rfl
@[simp] theorem Hart.progress_bank (h : Hart) (t : Nat) : (h.progress t).bank = h.bank := rfl
@[simp] theorem Hart.progress_bankPoison (h : Hart) (t : Nat) : (h.progress t).bankPoison = h.bankPoison := rfl

/-! #### Hart.quiet -/

@[simp] theorem Hart.quiet_id (h : Hart) (t : Nat) : (h.quiet t).id = h.id := rfl
@[simp] theorem Hart.quiet_mod (h : Hart) (t : Nat) : (h.quiet t).mod = h.mod := rfl
@[simp] theorem Hart.quiet_phase (h : Hart) (t : Nat) : (h.quiet t).phase = h.phase := rfl
@[simp] theorem Hart.quiet_seat (h : Hart) (t : Nat) : (h.quiet t).seat = h.seat := rfl
@[simp] theorem Hart.quiet_pc (h : Hart) (t : Nat) : (h.quiet t).pc = h.pc := rfl
@[simp] theorem Hart.quiet_npc (h : Hart) (t : Nat) : (h.quiet t).npc = h.npc := rfl
@[simp] theorem Hart.quiet_head (h : Hart) (t : Nat) : (h.quiet t).head = h.head := rfl
@[simp] theorem Hart.quiet_g (h : Hart) (t : Nat) : (h.quiet t).g = h.g := rfl
@[simp] theorem Hart.quiet_cfg (h : Hart) (t : Nat) : (h.quiet t).cfg = h.cfg := rfl
@[simp] theorem Hart.quiet_vec (h : Hart) (t : Nat) : (h.quiet t).vec = h.vec := rfl
@[simp] theorem Hart.quiet_mask (h : Hart) (t : Nat) : (h.quiet t).mask = h.mask := rfl
@[simp] theorem Hart.quiet_stream (h : Hart) (t : Nat) : (h.quiet t).stream = h.stream := rfl
@[simp] theorem Hart.quiet_notice (h : Hart) (t : Nat) : (h.quiet t).notice = h.notice := rfl
@[simp] theorem Hart.quiet_accs (h : Hart) (t : Nat) : (h.quiet t).accs = h.accs := rfl
@[simp] theorem Hart.quiet_aflags (h : Hart) (t : Nat) : (h.quiet t).aflags = h.aflags := rfl
@[simp] theorem Hart.quiet_atp (h : Hart) (t : Nat) : (h.quiet t).atp = h.atp := rfl
@[simp] theorem Hart.quiet_unf (h : Hart) (t : Nat) : (h.quiet t).unf = h.unf := rfl
@[simp] theorem Hart.quiet_trap (h : Hart) (t : Nat) : (h.quiet t).trap = h.trap := rfl
@[simp] theorem Hart.quiet_resv (h : Hart) (t : Nat) : (h.quiet t).resv = h.resv := rfl
@[simp] theorem Hart.quiet_event (h : Hart) (t : Nat) : (h.quiet t).event = h.event := rfl
@[simp] theorem Hart.quiet_vq (h : Hart) (t : Nat) : (h.quiet t).vq = h.vq := rfl
@[simp] theorem Hart.quiet_moved (h : Hart) (t : Nat) : (h.quiet t).moved = h.moved := rfl
@[simp] theorem Hart.quiet_active (h : Hart) (t : Nat) : (h.quiet t).active = h.active := rfl
@[simp] theorem Hart.quiet_later (h : Hart) (t : Nat) : (h.quiet t).later = h.later := rfl
@[simp] theorem Hart.quiet_waitOn (h : Hart) (t : Nat) : (h.quiet t).waitOn = h.waitOn := rfl
@[simp] theorem Hart.quiet_waitFrom (h : Hart) (t : Nat) : (h.quiet t).waitFrom = h.waitFrom := rfl
@[simp] theorem Hart.quiet_kheld (h : Hart) (t : Nat) : (h.quiet t).kheld = h.kheld := rfl
@[simp] theorem Hart.quiet_send (h : Hart) (t : Nat) : (h.quiet t).send = h.send := rfl
@[simp] theorem Hart.quiet_got (h : Hart) (t : Nat) : (h.quiet t).got = h.got := rfl
@[simp] theorem Hart.quiet_bars (h : Hart) (t : Nat) : (h.quiet t).bars = h.bars := rfl
@[simp] theorem Hart.quiet_atBar (h : Hart) (t : Nat) : (h.quiet t).atBar = h.atBar := rfl
@[simp] theorem Hart.quiet_unacked (h : Hart) (t : Nat) : (h.quiet t).unacked = h.unacked := rfl
@[simp] theorem Hart.quiet_heldFrom (h : Hart) (t : Nat) : (h.quiet t).heldFrom = h.heldFrom := rfl
@[simp] theorem Hart.quiet_lastShift (h : Hart) (t : Nat) : (h.quiet t).lastShift = h.lastShift := rfl
@[simp] theorem Hart.quiet_eager (h : Hart) (t : Nat) : (h.quiet t).eager = h.eager := rfl
@[simp] theorem Hart.quiet_seen (h : Hart) (t : Nat) : (h.quiet t).seen = h.seen := rfl
@[simp] theorem Hart.quiet_needsAct (h : Hart) (t : Nat) : (h.quiet t).needsAct = h.needsAct := rfl
@[simp] theorem Hart.quiet_refault (h : Hart) (t : Nat) : (h.quiet t).refault = h.refault := rfl
@[simp] theorem Hart.quiet_bank (h : Hart) (t : Nat) : (h.quiet t).bank = h.bank := rfl
@[simp] theorem Hart.quiet_bankPoison (h : Hart) (t : Nat) : (h.quiet t).bankPoison = h.bankPoison := rfl

/-! #### Hart.goesOn -/

@[simp] theorem Hart.goesOn_id (h : Hart) : (h.goesOn).id = h.id := rfl
@[simp] theorem Hart.goesOn_mod (h : Hart) : (h.goesOn).mod = h.mod := rfl
@[simp] theorem Hart.goesOn_seat (h : Hart) : (h.goesOn).seat = h.seat := rfl
@[simp] theorem Hart.goesOn_pc (h : Hart) : (h.goesOn).pc = h.pc := rfl
@[simp] theorem Hart.goesOn_npc (h : Hart) : (h.goesOn).npc = h.npc := rfl
@[simp] theorem Hart.goesOn_head (h : Hart) : (h.goesOn).head = h.head := rfl
@[simp] theorem Hart.goesOn_g (h : Hart) : (h.goesOn).g = h.g := rfl
@[simp] theorem Hart.goesOn_cfg (h : Hart) : (h.goesOn).cfg = h.cfg := rfl
@[simp] theorem Hart.goesOn_vec (h : Hart) : (h.goesOn).vec = h.vec := rfl
@[simp] theorem Hart.goesOn_mask (h : Hart) : (h.goesOn).mask = h.mask := rfl
@[simp] theorem Hart.goesOn_stream (h : Hart) : (h.goesOn).stream = h.stream := rfl
@[simp] theorem Hart.goesOn_notice (h : Hart) : (h.goesOn).notice = h.notice := rfl
@[simp] theorem Hart.goesOn_accs (h : Hart) : (h.goesOn).accs = h.accs := rfl
@[simp] theorem Hart.goesOn_aflags (h : Hart) : (h.goesOn).aflags = h.aflags := rfl
@[simp] theorem Hart.goesOn_atp (h : Hart) : (h.goesOn).atp = h.atp := rfl
@[simp] theorem Hart.goesOn_unf (h : Hart) : (h.goesOn).unf = h.unf := rfl
@[simp] theorem Hart.goesOn_trap (h : Hart) : (h.goesOn).trap = h.trap := rfl
@[simp] theorem Hart.goesOn_resv (h : Hart) : (h.goesOn).resv = h.resv := rfl
@[simp] theorem Hart.goesOn_event (h : Hart) : (h.goesOn).event = h.event := rfl
@[simp] theorem Hart.goesOn_vq (h : Hart) : (h.goesOn).vq = h.vq := rfl
@[simp] theorem Hart.goesOn_moved (h : Hart) : (h.goesOn).moved = h.moved := rfl
@[simp] theorem Hart.goesOn_active (h : Hart) : (h.goesOn).active = h.active := rfl
@[simp] theorem Hart.goesOn_later (h : Hart) : (h.goesOn).later = h.later := rfl
@[simp] theorem Hart.goesOn_waitFrom (h : Hart) : (h.goesOn).waitFrom = h.waitFrom := rfl
@[simp] theorem Hart.goesOn_kheld (h : Hart) : (h.goesOn).kheld = h.kheld := rfl
@[simp] theorem Hart.goesOn_send (h : Hart) : (h.goesOn).send = h.send := rfl
@[simp] theorem Hart.goesOn_got (h : Hart) : (h.goesOn).got = h.got := rfl
@[simp] theorem Hart.goesOn_bars (h : Hart) : (h.goesOn).bars = h.bars := rfl
@[simp] theorem Hart.goesOn_atBar (h : Hart) : (h.goesOn).atBar = h.atBar := rfl
@[simp] theorem Hart.goesOn_unacked (h : Hart) : (h.goesOn).unacked = h.unacked := rfl
@[simp] theorem Hart.goesOn_heldFrom (h : Hart) : (h.goesOn).heldFrom = h.heldFrom := rfl
@[simp] theorem Hart.goesOn_quietFrom (h : Hart) : (h.goesOn).quietFrom = h.quietFrom := rfl
@[simp] theorem Hart.goesOn_quietHeld (h : Hart) : (h.goesOn).quietHeld = h.quietHeld := rfl
@[simp] theorem Hart.goesOn_lastShift (h : Hart) : (h.goesOn).lastShift = h.lastShift := rfl
@[simp] theorem Hart.goesOn_eager (h : Hart) : (h.goesOn).eager = h.eager := rfl
@[simp] theorem Hart.goesOn_seen (h : Hart) : (h.goesOn).seen = h.seen := rfl
@[simp] theorem Hart.goesOn_needsAct (h : Hart) : (h.goesOn).needsAct = h.needsAct := rfl
@[simp] theorem Hart.goesOn_refault (h : Hart) : (h.goesOn).refault = h.refault := rfl
@[simp] theorem Hart.goesOn_bank (h : Hart) : (h.goesOn).bank = h.bank := rfl
@[simp] theorem Hart.goesOn_bankPoison (h : Hart) : (h.goesOn).bankPoison = h.bankPoison := rfl

/-! #### Hart.passes -/

@[simp] theorem Hart.passes_id (h : Hart) (vec : Bool) (pc : Word) : (h.passes vec pc).id = h.id := rfl
@[simp] theorem Hart.passes_mod (h : Hart) (vec : Bool) (pc : Word) : (h.passes vec pc).mod = h.mod := rfl
@[simp] theorem Hart.passes_phase (h : Hart) (vec : Bool) (pc : Word) : (h.passes vec pc).phase = h.phase := rfl
@[simp] theorem Hart.passes_seat (h : Hart) (vec : Bool) (pc : Word) : (h.passes vec pc).seat = h.seat := rfl
@[simp] theorem Hart.passes_pc (h : Hart) (vec : Bool) (pc : Word) : (h.passes vec pc).pc = h.pc := rfl
@[simp] theorem Hart.passes_npc (h : Hart) (vec : Bool) (pc : Word) : (h.passes vec pc).npc = h.npc := rfl
@[simp] theorem Hart.passes_head (h : Hart) (vec : Bool) (pc : Word) : (h.passes vec pc).head = h.head := rfl
@[simp] theorem Hart.passes_g (h : Hart) (vec : Bool) (pc : Word) : (h.passes vec pc).g = h.g := rfl
@[simp] theorem Hart.passes_cfg (h : Hart) (vec : Bool) (pc : Word) : (h.passes vec pc).cfg = h.cfg := rfl
@[simp] theorem Hart.passes_vec (h : Hart) (vec : Bool) (pc : Word) : (h.passes vec pc).vec = h.vec := rfl
@[simp] theorem Hart.passes_mask (h : Hart) (vec : Bool) (pc : Word) : (h.passes vec pc).mask = h.mask := rfl
@[simp] theorem Hart.passes_stream (h : Hart) (vec : Bool) (pc : Word) : (h.passes vec pc).stream = h.stream := rfl
@[simp] theorem Hart.passes_notice (h : Hart) (vec : Bool) (pc : Word) : (h.passes vec pc).notice = h.notice := rfl
@[simp] theorem Hart.passes_accs (h : Hart) (vec : Bool) (pc : Word) : (h.passes vec pc).accs = h.accs := rfl
@[simp] theorem Hart.passes_aflags (h : Hart) (vec : Bool) (pc : Word) : (h.passes vec pc).aflags = h.aflags := rfl
@[simp] theorem Hart.passes_atp (h : Hart) (vec : Bool) (pc : Word) : (h.passes vec pc).atp = h.atp := rfl
@[simp] theorem Hart.passes_unf (h : Hart) (vec : Bool) (pc : Word) : (h.passes vec pc).unf = h.unf := rfl
@[simp] theorem Hart.passes_trap (h : Hart) (vec : Bool) (pc : Word) : (h.passes vec pc).trap = h.trap := rfl
@[simp] theorem Hart.passes_resv (h : Hart) (vec : Bool) (pc : Word) : (h.passes vec pc).resv = h.resv := rfl
@[simp] theorem Hart.passes_event (h : Hart) (vec : Bool) (pc : Word) : (h.passes vec pc).event = h.event := rfl
@[simp] theorem Hart.passes_vq (h : Hart) (vec : Bool) (pc : Word) : (h.passes vec pc).vq = h.vq := rfl
@[simp] theorem Hart.passes_moved (h : Hart) (vec : Bool) (pc : Word) : (h.passes vec pc).moved = h.moved := rfl
@[simp] theorem Hart.passes_active (h : Hart) (vec : Bool) (pc : Word) : (h.passes vec pc).active = h.active := rfl
@[simp] theorem Hart.passes_later (h : Hart) (vec : Bool) (pc : Word) : (h.passes vec pc).later = h.later := rfl
@[simp] theorem Hart.passes_waitOn (h : Hart) (vec : Bool) (pc : Word) : (h.passes vec pc).waitOn = h.waitOn := rfl
@[simp] theorem Hart.passes_waitFrom (h : Hart) (vec : Bool) (pc : Word) : (h.passes vec pc).waitFrom = h.waitFrom := rfl
@[simp] theorem Hart.passes_kheld (h : Hart) (vec : Bool) (pc : Word) : (h.passes vec pc).kheld = h.kheld := rfl
@[simp] theorem Hart.passes_send (h : Hart) (vec : Bool) (pc : Word) : (h.passes vec pc).send = h.send := rfl
@[simp] theorem Hart.passes_got (h : Hart) (vec : Bool) (pc : Word) : (h.passes vec pc).got = h.got := rfl
@[simp] theorem Hart.passes_bars (h : Hart) (vec : Bool) (pc : Word) : (h.passes vec pc).bars = h.bars := rfl
@[simp] theorem Hart.passes_atBar (h : Hart) (vec : Bool) (pc : Word) : (h.passes vec pc).atBar = h.atBar := rfl
@[simp] theorem Hart.passes_unacked (h : Hart) (vec : Bool) (pc : Word) : (h.passes vec pc).unacked = h.unacked := rfl
@[simp] theorem Hart.passes_heldFrom (h : Hart) (vec : Bool) (pc : Word) : (h.passes vec pc).heldFrom = h.heldFrom := rfl
@[simp] theorem Hart.passes_quietFrom (h : Hart) (vec : Bool) (pc : Word) : (h.passes vec pc).quietFrom = h.quietFrom := rfl
@[simp] theorem Hart.passes_quietHeld (h : Hart) (vec : Bool) (pc : Word) : (h.passes vec pc).quietHeld = h.quietHeld := rfl
@[simp] theorem Hart.passes_lastShift (h : Hart) (vec : Bool) (pc : Word) : (h.passes vec pc).lastShift = h.lastShift := rfl
@[simp] theorem Hart.passes_eager (h : Hart) (vec : Bool) (pc : Word) : (h.passes vec pc).eager = h.eager := rfl
@[simp] theorem Hart.passes_seen (h : Hart) (vec : Bool) (pc : Word) : (h.passes vec pc).seen = h.seen := rfl
@[simp] theorem Hart.passes_needsAct (h : Hart) (vec : Bool) (pc : Word) : (h.passes vec pc).needsAct = h.needsAct := rfl
@[simp] theorem Hart.passes_bank (h : Hart) (vec : Bool) (pc : Word) : (h.passes vec pc).bank = h.bank := rfl
@[simp] theorem Hart.passes_bankPoison (h : Hart) (vec : Bool) (pc : Word) : (h.passes vec pc).bankPoison = h.bankPoison := rfl

/-! #### Hart.refaulted -/

@[simp] theorem Hart.refaulted_id (h : Hart) : (h.refaulted).id = h.id := rfl
@[simp] theorem Hart.refaulted_mod (h : Hart) : (h.refaulted).mod = h.mod := rfl
@[simp] theorem Hart.refaulted_phase (h : Hart) : (h.refaulted).phase = h.phase := rfl
@[simp] theorem Hart.refaulted_seat (h : Hart) : (h.refaulted).seat = h.seat := rfl
@[simp] theorem Hart.refaulted_pc (h : Hart) : (h.refaulted).pc = h.pc := rfl
@[simp] theorem Hart.refaulted_npc (h : Hart) : (h.refaulted).npc = h.npc := rfl
@[simp] theorem Hart.refaulted_head (h : Hart) : (h.refaulted).head = h.head := rfl
@[simp] theorem Hart.refaulted_g (h : Hart) : (h.refaulted).g = h.g := rfl
@[simp] theorem Hart.refaulted_cfg (h : Hart) : (h.refaulted).cfg = h.cfg := rfl
@[simp] theorem Hart.refaulted_vec (h : Hart) : (h.refaulted).vec = h.vec := rfl
@[simp] theorem Hart.refaulted_mask (h : Hart) : (h.refaulted).mask = h.mask := rfl
@[simp] theorem Hart.refaulted_stream (h : Hart) : (h.refaulted).stream = h.stream := rfl
@[simp] theorem Hart.refaulted_notice (h : Hart) : (h.refaulted).notice = h.notice := rfl
@[simp] theorem Hart.refaulted_accs (h : Hart) : (h.refaulted).accs = h.accs := rfl
@[simp] theorem Hart.refaulted_aflags (h : Hart) : (h.refaulted).aflags = h.aflags := rfl
@[simp] theorem Hart.refaulted_atp (h : Hart) : (h.refaulted).atp = h.atp := rfl
@[simp] theorem Hart.refaulted_unf (h : Hart) : (h.refaulted).unf = h.unf := rfl
@[simp] theorem Hart.refaulted_trap (h : Hart) : (h.refaulted).trap = h.trap := rfl
@[simp] theorem Hart.refaulted_resv (h : Hart) : (h.refaulted).resv = h.resv := rfl
@[simp] theorem Hart.refaulted_event (h : Hart) : (h.refaulted).event = h.event := rfl
@[simp] theorem Hart.refaulted_vq (h : Hart) : (h.refaulted).vq = h.vq := rfl
@[simp] theorem Hart.refaulted_moved (h : Hart) : (h.refaulted).moved = h.moved := rfl
@[simp] theorem Hart.refaulted_active (h : Hart) : (h.refaulted).active = h.active := rfl
@[simp] theorem Hart.refaulted_later (h : Hart) : (h.refaulted).later = h.later := rfl
@[simp] theorem Hart.refaulted_waitOn (h : Hart) : (h.refaulted).waitOn = h.waitOn := rfl
@[simp] theorem Hart.refaulted_waitFrom (h : Hart) : (h.refaulted).waitFrom = h.waitFrom := rfl
@[simp] theorem Hart.refaulted_kheld (h : Hart) : (h.refaulted).kheld = h.kheld := rfl
@[simp] theorem Hart.refaulted_send (h : Hart) : (h.refaulted).send = h.send := rfl
@[simp] theorem Hart.refaulted_got (h : Hart) : (h.refaulted).got = h.got := rfl
@[simp] theorem Hart.refaulted_bars (h : Hart) : (h.refaulted).bars = h.bars := rfl
@[simp] theorem Hart.refaulted_atBar (h : Hart) : (h.refaulted).atBar = h.atBar := rfl
@[simp] theorem Hart.refaulted_unacked (h : Hart) : (h.refaulted).unacked = h.unacked := rfl
@[simp] theorem Hart.refaulted_heldFrom (h : Hart) : (h.refaulted).heldFrom = h.heldFrom := rfl
@[simp] theorem Hart.refaulted_quietFrom (h : Hart) : (h.refaulted).quietFrom = h.quietFrom := rfl
@[simp] theorem Hart.refaulted_quietHeld (h : Hart) : (h.refaulted).quietHeld = h.quietHeld := rfl
@[simp] theorem Hart.refaulted_lastShift (h : Hart) : (h.refaulted).lastShift = h.lastShift := rfl
@[simp] theorem Hart.refaulted_eager (h : Hart) : (h.refaulted).eager = h.eager := rfl
@[simp] theorem Hart.refaulted_seen (h : Hart) : (h.refaulted).seen = h.seen := rfl
@[simp] theorem Hart.refaulted_needsAct (h : Hart) : (h.refaulted).needsAct = h.needsAct := rfl
@[simp] theorem Hart.refaulted_bank (h : Hart) : (h.refaulted).bank = h.bank := rfl
@[simp] theorem Hart.refaulted_bankPoison (h : Hart) : (h.refaulted).bankPoison = h.bankPoison := rfl

/-! #### Hart.hold -/

@[simp] theorem Hart.hold_id (h : Hart) (w : Holder) (va : Word) (vec : Bool) (t : Nat) : (h.hold w va vec t).id = h.id := rfl
@[simp] theorem Hart.hold_mod (h : Hart) (w : Holder) (va : Word) (vec : Bool) (t : Nat) : (h.hold w va vec t).mod = h.mod := rfl
@[simp] theorem Hart.hold_seat (h : Hart) (w : Holder) (va : Word) (vec : Bool) (t : Nat) : (h.hold w va vec t).seat = h.seat := rfl
@[simp] theorem Hart.hold_pc (h : Hart) (w : Holder) (va : Word) (vec : Bool) (t : Nat) : (h.hold w va vec t).pc = h.pc := rfl
@[simp] theorem Hart.hold_npc (h : Hart) (w : Holder) (va : Word) (vec : Bool) (t : Nat) : (h.hold w va vec t).npc = h.npc := rfl
@[simp] theorem Hart.hold_head (h : Hart) (w : Holder) (va : Word) (vec : Bool) (t : Nat) : (h.hold w va vec t).head = h.head := rfl
@[simp] theorem Hart.hold_g (h : Hart) (w : Holder) (va : Word) (vec : Bool) (t : Nat) : (h.hold w va vec t).g = h.g := rfl
@[simp] theorem Hart.hold_cfg (h : Hart) (w : Holder) (va : Word) (vec : Bool) (t : Nat) : (h.hold w va vec t).cfg = h.cfg := rfl
@[simp] theorem Hart.hold_vec (h : Hart) (w : Holder) (va : Word) (vec : Bool) (t : Nat) : (h.hold w va vec t).vec = h.vec := rfl
@[simp] theorem Hart.hold_mask (h : Hart) (w : Holder) (va : Word) (vec : Bool) (t : Nat) : (h.hold w va vec t).mask = h.mask := rfl
@[simp] theorem Hart.hold_stream (h : Hart) (w : Holder) (va : Word) (vec : Bool) (t : Nat) : (h.hold w va vec t).stream = h.stream := rfl
@[simp] theorem Hart.hold_notice (h : Hart) (w : Holder) (va : Word) (vec : Bool) (t : Nat) : (h.hold w va vec t).notice = h.notice := rfl
@[simp] theorem Hart.hold_accs (h : Hart) (w : Holder) (va : Word) (vec : Bool) (t : Nat) : (h.hold w va vec t).accs = h.accs := rfl
@[simp] theorem Hart.hold_aflags (h : Hart) (w : Holder) (va : Word) (vec : Bool) (t : Nat) : (h.hold w va vec t).aflags = h.aflags := rfl
@[simp] theorem Hart.hold_atp (h : Hart) (w : Holder) (va : Word) (vec : Bool) (t : Nat) : (h.hold w va vec t).atp = h.atp := rfl
@[simp] theorem Hart.hold_unf (h : Hart) (w : Holder) (va : Word) (vec : Bool) (t : Nat) : (h.hold w va vec t).unf = h.unf := rfl
@[simp] theorem Hart.hold_trap (h : Hart) (w : Holder) (va : Word) (vec : Bool) (t : Nat) : (h.hold w va vec t).trap = h.trap := rfl
@[simp] theorem Hart.hold_resv (h : Hart) (w : Holder) (va : Word) (vec : Bool) (t : Nat) : (h.hold w va vec t).resv = h.resv := rfl
@[simp] theorem Hart.hold_event (h : Hart) (w : Holder) (va : Word) (vec : Bool) (t : Nat) : (h.hold w va vec t).event = h.event := rfl
@[simp] theorem Hart.hold_vq (h : Hart) (w : Holder) (va : Word) (vec : Bool) (t : Nat) : (h.hold w va vec t).vq = h.vq := rfl
@[simp] theorem Hart.hold_moved (h : Hart) (w : Holder) (va : Word) (vec : Bool) (t : Nat) : (h.hold w va vec t).moved = h.moved := rfl
@[simp] theorem Hart.hold_active (h : Hart) (w : Holder) (va : Word) (vec : Bool) (t : Nat) : (h.hold w va vec t).active = h.active := rfl
@[simp] theorem Hart.hold_later (h : Hart) (w : Holder) (va : Word) (vec : Bool) (t : Nat) : (h.hold w va vec t).later = h.later := rfl
@[simp] theorem Hart.hold_waitFrom (h : Hart) (w : Holder) (va : Word) (vec : Bool) (t : Nat) : (h.hold w va vec t).waitFrom = h.waitFrom := rfl
@[simp] theorem Hart.hold_kheld (h : Hart) (w : Holder) (va : Word) (vec : Bool) (t : Nat) : (h.hold w va vec t).kheld = h.kheld := rfl
@[simp] theorem Hart.hold_send (h : Hart) (w : Holder) (va : Word) (vec : Bool) (t : Nat) : (h.hold w va vec t).send = h.send := rfl
@[simp] theorem Hart.hold_got (h : Hart) (w : Holder) (va : Word) (vec : Bool) (t : Nat) : (h.hold w va vec t).got = h.got := rfl
@[simp] theorem Hart.hold_bars (h : Hart) (w : Holder) (va : Word) (vec : Bool) (t : Nat) : (h.hold w va vec t).bars = h.bars := rfl
@[simp] theorem Hart.hold_atBar (h : Hart) (w : Holder) (va : Word) (vec : Bool) (t : Nat) : (h.hold w va vec t).atBar = h.atBar := rfl
@[simp] theorem Hart.hold_unacked (h : Hart) (w : Holder) (va : Word) (vec : Bool) (t : Nat) : (h.hold w va vec t).unacked = h.unacked := rfl
@[simp] theorem Hart.hold_quietFrom (h : Hart) (w : Holder) (va : Word) (vec : Bool) (t : Nat) : (h.hold w va vec t).quietFrom = h.quietFrom := rfl
@[simp] theorem Hart.hold_quietHeld (h : Hart) (w : Holder) (va : Word) (vec : Bool) (t : Nat) : (h.hold w va vec t).quietHeld = h.quietHeld := rfl
@[simp] theorem Hart.hold_lastShift (h : Hart) (w : Holder) (va : Word) (vec : Bool) (t : Nat) : (h.hold w va vec t).lastShift = h.lastShift := rfl
@[simp] theorem Hart.hold_eager (h : Hart) (w : Holder) (va : Word) (vec : Bool) (t : Nat) : (h.hold w va vec t).eager = h.eager := rfl
@[simp] theorem Hart.hold_seen (h : Hart) (w : Holder) (va : Word) (vec : Bool) (t : Nat) : (h.hold w va vec t).seen = h.seen := rfl
@[simp] theorem Hart.hold_needsAct (h : Hart) (w : Holder) (va : Word) (vec : Bool) (t : Nat) : (h.hold w va vec t).needsAct = h.needsAct := rfl
@[simp] theorem Hart.hold_refault (h : Hart) (w : Holder) (va : Word) (vec : Bool) (t : Nat) : (h.hold w va vec t).refault = h.refault := rfl
@[simp] theorem Hart.hold_bank (h : Hart) (w : Holder) (va : Word) (vec : Bool) (t : Nat) : (h.hold w va vec t).bank = h.bank := rfl
@[simp] theorem Hart.hold_bankPoison (h : Hart) (w : Holder) (va : Word) (vec : Bool) (t : Nat) : (h.hold w va vec t).bankPoison = h.bankPoison := rfl

/-- A withdrawal changes at most what the hart was granted. -/
theorem Hart.withdraw_keeps {α : Type} (f : Hart → α) (h : Hart)
    (k : f { h with got := none } = f h) : f (h.withdraw) = f h := by
  unfold Hart.withdraw
  split
  · split
    · exact k
    · split
      · rfl
      · exact k
    · rfl
  · rfl

/-! #### Hart.saveInPlace -/

@[simp] theorem Hart.saveInPlace_id (h : Hart) : (h.saveInPlace).id = h.id := Hart.withdraw_keeps Hart.id h rfl
@[simp] theorem Hart.saveInPlace_mod (h : Hart) : (h.saveInPlace).mod = h.mod := Hart.withdraw_keeps Hart.mod h rfl
@[simp] theorem Hart.saveInPlace_seat (h : Hart) : (h.saveInPlace).seat = h.seat := Hart.withdraw_keeps Hart.seat h rfl
@[simp] theorem Hart.saveInPlace_pc (h : Hart) : (h.saveInPlace).pc = h.pc := Hart.withdraw_keeps Hart.pc h rfl
@[simp] theorem Hart.saveInPlace_npc (h : Hart) : (h.saveInPlace).npc = h.npc := Hart.withdraw_keeps Hart.npc h rfl
@[simp] theorem Hart.saveInPlace_head (h : Hart) : (h.saveInPlace).head = h.head := Hart.withdraw_keeps Hart.head h rfl
@[simp] theorem Hart.saveInPlace_g (h : Hart) : (h.saveInPlace).g = h.g := Hart.withdraw_keeps Hart.g h rfl
@[simp] theorem Hart.saveInPlace_cfg (h : Hart) : (h.saveInPlace).cfg = h.cfg := Hart.withdraw_keeps Hart.cfg h rfl
@[simp] theorem Hart.saveInPlace_vec (h : Hart) : (h.saveInPlace).vec = h.vec := Hart.withdraw_keeps Hart.vec h rfl
@[simp] theorem Hart.saveInPlace_mask (h : Hart) : (h.saveInPlace).mask = h.mask := Hart.withdraw_keeps Hart.mask h rfl
@[simp] theorem Hart.saveInPlace_stream (h : Hart) : (h.saveInPlace).stream = h.stream := Hart.withdraw_keeps Hart.stream h rfl
@[simp] theorem Hart.saveInPlace_notice (h : Hart) : (h.saveInPlace).notice = h.notice := Hart.withdraw_keeps Hart.notice h rfl
@[simp] theorem Hart.saveInPlace_accs (h : Hart) : (h.saveInPlace).accs = h.accs := Hart.withdraw_keeps Hart.accs h rfl
@[simp] theorem Hart.saveInPlace_aflags (h : Hart) : (h.saveInPlace).aflags = h.aflags := Hart.withdraw_keeps Hart.aflags h rfl
@[simp] theorem Hart.saveInPlace_atp (h : Hart) : (h.saveInPlace).atp = h.atp := Hart.withdraw_keeps Hart.atp h rfl
@[simp] theorem Hart.saveInPlace_unf (h : Hart) : (h.saveInPlace).unf = h.unf := Hart.withdraw_keeps Hart.unf h rfl
@[simp] theorem Hart.saveInPlace_trap (h : Hart) : (h.saveInPlace).trap = h.trap := Hart.withdraw_keeps Hart.trap h rfl
@[simp] theorem Hart.saveInPlace_event (h : Hart) : (h.saveInPlace).event = h.event := Hart.withdraw_keeps Hart.event h rfl
@[simp] theorem Hart.saveInPlace_vq (h : Hart) : (h.saveInPlace).vq = h.vq := Hart.withdraw_keeps Hart.vq h rfl
@[simp] theorem Hart.saveInPlace_moved (h : Hart) : (h.saveInPlace).moved = h.moved := Hart.withdraw_keeps Hart.moved h rfl
@[simp] theorem Hart.saveInPlace_active (h : Hart) : (h.saveInPlace).active = h.active := Hart.withdraw_keeps Hart.active h rfl
@[simp] theorem Hart.saveInPlace_waitOn (h : Hart) : (h.saveInPlace).waitOn = h.waitOn := Hart.withdraw_keeps Hart.waitOn h rfl
@[simp] theorem Hart.saveInPlace_waitFrom (h : Hart) : (h.saveInPlace).waitFrom = h.waitFrom := Hart.withdraw_keeps Hart.waitFrom h rfl
@[simp] theorem Hart.saveInPlace_send (h : Hart) : (h.saveInPlace).send = h.send := Hart.withdraw_keeps Hart.send h rfl
@[simp] theorem Hart.saveInPlace_bars (h : Hart) : (h.saveInPlace).bars = h.bars := Hart.withdraw_keeps Hart.bars h rfl
@[simp] theorem Hart.saveInPlace_atBar (h : Hart) : (h.saveInPlace).atBar = h.atBar := Hart.withdraw_keeps Hart.atBar h rfl
@[simp] theorem Hart.saveInPlace_unacked (h : Hart) : (h.saveInPlace).unacked = h.unacked := Hart.withdraw_keeps Hart.unacked h rfl
@[simp] theorem Hart.saveInPlace_heldFrom (h : Hart) : (h.saveInPlace).heldFrom = h.heldFrom := Hart.withdraw_keeps Hart.heldFrom h rfl
@[simp] theorem Hart.saveInPlace_quietFrom (h : Hart) : (h.saveInPlace).quietFrom = h.quietFrom := Hart.withdraw_keeps Hart.quietFrom h rfl
@[simp] theorem Hart.saveInPlace_quietHeld (h : Hart) : (h.saveInPlace).quietHeld = h.quietHeld := Hart.withdraw_keeps Hart.quietHeld h rfl
@[simp] theorem Hart.saveInPlace_lastShift (h : Hart) : (h.saveInPlace).lastShift = h.lastShift := Hart.withdraw_keeps Hart.lastShift h rfl
@[simp] theorem Hart.saveInPlace_eager (h : Hart) : (h.saveInPlace).eager = h.eager := Hart.withdraw_keeps Hart.eager h rfl
@[simp] theorem Hart.saveInPlace_seen (h : Hart) : (h.saveInPlace).seen = h.seen := Hart.withdraw_keeps Hart.seen h rfl
@[simp] theorem Hart.saveInPlace_needsAct (h : Hart) : (h.saveInPlace).needsAct = h.needsAct := Hart.withdraw_keeps Hart.needsAct h rfl
@[simp] theorem Hart.saveInPlace_refault (h : Hart) : (h.saveInPlace).refault = h.refault := Hart.withdraw_keeps Hart.refault h rfl
@[simp] theorem Hart.saveInPlace_bank (h : Hart) : (h.saveInPlace).bank = h.bank := Hart.withdraw_keeps Hart.bank h rfl
@[simp] theorem Hart.saveInPlace_bankPoison (h : Hart) : (h.saveInPlace).bankPoison = h.bankPoison := Hart.withdraw_keeps Hart.bankPoison h rfl

/-- Breaking a reservation changes at most the reservation. -/
theorem Hart.breakResv_keeps {α : Type} (f : Hart → α) (h : Hart) (a n : Nat)
    (k : f { h with resv := none } = f h) : f (h.breakResv a n) = f h := by
  unfold Hart.breakResv
  split
  · split
    · exact k
    · rfl
  · rfl

/-! #### Hart.breakResv -/

@[simp] theorem Hart.breakResv_id (h : Hart) (a n : Nat) : (h.breakResv a n).id = h.id := Hart.breakResv_keeps Hart.id h a n rfl
@[simp] theorem Hart.breakResv_mod (h : Hart) (a n : Nat) : (h.breakResv a n).mod = h.mod := Hart.breakResv_keeps Hart.mod h a n rfl
@[simp] theorem Hart.breakResv_phase (h : Hart) (a n : Nat) : (h.breakResv a n).phase = h.phase := Hart.breakResv_keeps Hart.phase h a n rfl
@[simp] theorem Hart.breakResv_seat (h : Hart) (a n : Nat) : (h.breakResv a n).seat = h.seat := Hart.breakResv_keeps Hart.seat h a n rfl
@[simp] theorem Hart.breakResv_pc (h : Hart) (a n : Nat) : (h.breakResv a n).pc = h.pc := Hart.breakResv_keeps Hart.pc h a n rfl
@[simp] theorem Hart.breakResv_npc (h : Hart) (a n : Nat) : (h.breakResv a n).npc = h.npc := Hart.breakResv_keeps Hart.npc h a n rfl
@[simp] theorem Hart.breakResv_head (h : Hart) (a n : Nat) : (h.breakResv a n).head = h.head := Hart.breakResv_keeps Hart.head h a n rfl
@[simp] theorem Hart.breakResv_g (h : Hart) (a n : Nat) : (h.breakResv a n).g = h.g := Hart.breakResv_keeps Hart.g h a n rfl
@[simp] theorem Hart.breakResv_cfg (h : Hart) (a n : Nat) : (h.breakResv a n).cfg = h.cfg := Hart.breakResv_keeps Hart.cfg h a n rfl
@[simp] theorem Hart.breakResv_vec (h : Hart) (a n : Nat) : (h.breakResv a n).vec = h.vec := Hart.breakResv_keeps Hart.vec h a n rfl
@[simp] theorem Hart.breakResv_mask (h : Hart) (a n : Nat) : (h.breakResv a n).mask = h.mask := Hart.breakResv_keeps Hart.mask h a n rfl
@[simp] theorem Hart.breakResv_stream (h : Hart) (a n : Nat) : (h.breakResv a n).stream = h.stream := Hart.breakResv_keeps Hart.stream h a n rfl
@[simp] theorem Hart.breakResv_notice (h : Hart) (a n : Nat) : (h.breakResv a n).notice = h.notice := Hart.breakResv_keeps Hart.notice h a n rfl
@[simp] theorem Hart.breakResv_accs (h : Hart) (a n : Nat) : (h.breakResv a n).accs = h.accs := Hart.breakResv_keeps Hart.accs h a n rfl
@[simp] theorem Hart.breakResv_aflags (h : Hart) (a n : Nat) : (h.breakResv a n).aflags = h.aflags := Hart.breakResv_keeps Hart.aflags h a n rfl
@[simp] theorem Hart.breakResv_atp (h : Hart) (a n : Nat) : (h.breakResv a n).atp = h.atp := Hart.breakResv_keeps Hart.atp h a n rfl
@[simp] theorem Hart.breakResv_unf (h : Hart) (a n : Nat) : (h.breakResv a n).unf = h.unf := Hart.breakResv_keeps Hart.unf h a n rfl
@[simp] theorem Hart.breakResv_trap (h : Hart) (a n : Nat) : (h.breakResv a n).trap = h.trap := Hart.breakResv_keeps Hart.trap h a n rfl
@[simp] theorem Hart.breakResv_event (h : Hart) (a n : Nat) : (h.breakResv a n).event = h.event := Hart.breakResv_keeps Hart.event h a n rfl
@[simp] theorem Hart.breakResv_vq (h : Hart) (a n : Nat) : (h.breakResv a n).vq = h.vq := Hart.breakResv_keeps Hart.vq h a n rfl
@[simp] theorem Hart.breakResv_moved (h : Hart) (a n : Nat) : (h.breakResv a n).moved = h.moved := Hart.breakResv_keeps Hart.moved h a n rfl
@[simp] theorem Hart.breakResv_active (h : Hart) (a n : Nat) : (h.breakResv a n).active = h.active := Hart.breakResv_keeps Hart.active h a n rfl
@[simp] theorem Hart.breakResv_later (h : Hart) (a n : Nat) : (h.breakResv a n).later = h.later := Hart.breakResv_keeps Hart.later h a n rfl
@[simp] theorem Hart.breakResv_waitOn (h : Hart) (a n : Nat) : (h.breakResv a n).waitOn = h.waitOn := Hart.breakResv_keeps Hart.waitOn h a n rfl
@[simp] theorem Hart.breakResv_waitFrom (h : Hart) (a n : Nat) : (h.breakResv a n).waitFrom = h.waitFrom := Hart.breakResv_keeps Hart.waitFrom h a n rfl
@[simp] theorem Hart.breakResv_kheld (h : Hart) (a n : Nat) : (h.breakResv a n).kheld = h.kheld := Hart.breakResv_keeps Hart.kheld h a n rfl
@[simp] theorem Hart.breakResv_send (h : Hart) (a n : Nat) : (h.breakResv a n).send = h.send := Hart.breakResv_keeps Hart.send h a n rfl
@[simp] theorem Hart.breakResv_got (h : Hart) (a n : Nat) : (h.breakResv a n).got = h.got := Hart.breakResv_keeps Hart.got h a n rfl
@[simp] theorem Hart.breakResv_bars (h : Hart) (a n : Nat) : (h.breakResv a n).bars = h.bars := Hart.breakResv_keeps Hart.bars h a n rfl
@[simp] theorem Hart.breakResv_atBar (h : Hart) (a n : Nat) : (h.breakResv a n).atBar = h.atBar := Hart.breakResv_keeps Hart.atBar h a n rfl
@[simp] theorem Hart.breakResv_unacked (h : Hart) (a n : Nat) : (h.breakResv a n).unacked = h.unacked := Hart.breakResv_keeps Hart.unacked h a n rfl
@[simp] theorem Hart.breakResv_heldFrom (h : Hart) (a n : Nat) : (h.breakResv a n).heldFrom = h.heldFrom := Hart.breakResv_keeps Hart.heldFrom h a n rfl
@[simp] theorem Hart.breakResv_quietFrom (h : Hart) (a n : Nat) : (h.breakResv a n).quietFrom = h.quietFrom := Hart.breakResv_keeps Hart.quietFrom h a n rfl
@[simp] theorem Hart.breakResv_quietHeld (h : Hart) (a n : Nat) : (h.breakResv a n).quietHeld = h.quietHeld := Hart.breakResv_keeps Hart.quietHeld h a n rfl
@[simp] theorem Hart.breakResv_lastShift (h : Hart) (a n : Nat) : (h.breakResv a n).lastShift = h.lastShift := Hart.breakResv_keeps Hart.lastShift h a n rfl
@[simp] theorem Hart.breakResv_eager (h : Hart) (a n : Nat) : (h.breakResv a n).eager = h.eager := Hart.breakResv_keeps Hart.eager h a n rfl
@[simp] theorem Hart.breakResv_seen (h : Hart) (a n : Nat) : (h.breakResv a n).seen = h.seen := Hart.breakResv_keeps Hart.seen h a n rfl
@[simp] theorem Hart.breakResv_needsAct (h : Hart) (a n : Nat) : (h.breakResv a n).needsAct = h.needsAct := Hart.breakResv_keeps Hart.needsAct h a n rfl
@[simp] theorem Hart.breakResv_refault (h : Hart) (a n : Nat) : (h.breakResv a n).refault = h.refault := Hart.breakResv_keeps Hart.refault h a n rfl
@[simp] theorem Hart.breakResv_bank (h : Hart) (a n : Nat) : (h.breakResv a n).bank = h.bank := Hart.breakResv_keeps Hart.bank h a n rfl
@[simp] theorem Hart.breakResv_bankPoison (h : Hart) (a n : Nat) : (h.breakResv a n).bankPoison = h.bankPoison := Hart.breakResv_keeps Hart.bankPoison h a n rfl

/-! ### The machine -/

/-! #### State.onCur -/

@[simp] theorem State.onCur_harts (s : State) (f : Hart → Hart) : (s.onCur f).harts = s.harts := rfl
@[simp] theorem State.onCur_launches (s : State) (f : Hart → Hart) : (s.onCur f).launches = s.launches := rfl
@[simp] theorem State.onCur_mods (s : State) (f : Hart → Hart) : (s.onCur f).mods = s.mods := rfl
@[simp] theorem State.onCur_dram (s : State) (f : Hart → Hart) : (s.onCur f).dram = s.dram := rfl
@[simp] theorem State.onCur_near (s : State) (f : Hart → Hart) : (s.onCur f).near = s.near := rfl
@[simp] theorem State.onCur_l1 (s : State) (f : Hart → Hart) : (s.onCur f).l1 = s.l1 := rfl
@[simp] theorem State.onCur_l2 (s : State) (f : Hart → Hart) : (s.onCur f).l2 = s.l2 := rfl
@[simp] theorem State.onCur_msc (s : State) (f : Hart → Hart) : (s.onCur f).msc = s.msc := rfl
@[simp] theorem State.onCur_tlb (s : State) (f : Hart → Hart) : (s.onCur f).tlb = s.tlb := rfl
@[simp] theorem State.onCur_ibuf (s : State) (f : Hart → Hart) : (s.onCur f).ibuf = s.ibuf := rfl
@[simp] theorem State.onCur_banks (s : State) (f : Hart → Hart) : (s.onCur f).banks = s.banks := rfl
@[simp] theorem State.onCur_tiles (s : State) (f : Hart → Hart) : (s.onCur f).tiles = s.tiles := rfl
@[simp] theorem State.onCur_fabric (s : State) (f : Hart → Hart) : (s.onCur f).fabric = s.fabric := rfl
@[simp] theorem State.onCur_poison (s : State) (f : Hart → Hart) : (s.onCur f).poison = s.poison := rfl
@[simp] theorem State.onCur_badMem (s : State) (f : Hart → Hart) : (s.onCur f).badMem = s.badMem := rfl
@[simp] theorem State.onCur_badNear (s : State) (f : Hart → Hart) : (s.onCur f).badNear = s.badNear := rfl
@[simp] theorem State.onCur_frames (s : State) (f : Hart → Hart) : (s.onCur f).frames = s.frames := rfl
@[simp] theorem State.onCur_agenda (s : State) (f : Hart → Hart) : (s.onCur f).agenda = s.agenda := rfl
@[simp] theorem State.onCur_tick (s : State) (f : Hart → Hart) : (s.onCur f).tick = s.tick := rfl
@[simp] theorem State.onCur_free (s : State) (f : Hart → Hart) : (s.onCur f).free = s.free := rfl
@[simp] theorem State.onCur_serial (s : State) (f : Hart → Hart) : (s.onCur f).serial = s.serial := rfl
@[simp] theorem State.onCur_cur (s : State) (f : Hart → Hart) : (s.onCur f).cur = f s.cur := rfl

/-! #### State.setG -/

@[simp] theorem State.setG_harts (s : State) (r : Fin 32) (v : Word) : (s.setG r v).harts = s.harts := rfl
@[simp] theorem State.setG_launches (s : State) (r : Fin 32) (v : Word) : (s.setG r v).launches = s.launches := rfl
@[simp] theorem State.setG_mods (s : State) (r : Fin 32) (v : Word) : (s.setG r v).mods = s.mods := rfl
@[simp] theorem State.setG_dram (s : State) (r : Fin 32) (v : Word) : (s.setG r v).dram = s.dram := rfl
@[simp] theorem State.setG_near (s : State) (r : Fin 32) (v : Word) : (s.setG r v).near = s.near := rfl
@[simp] theorem State.setG_l1 (s : State) (r : Fin 32) (v : Word) : (s.setG r v).l1 = s.l1 := rfl
@[simp] theorem State.setG_l2 (s : State) (r : Fin 32) (v : Word) : (s.setG r v).l2 = s.l2 := rfl
@[simp] theorem State.setG_msc (s : State) (r : Fin 32) (v : Word) : (s.setG r v).msc = s.msc := rfl
@[simp] theorem State.setG_tlb (s : State) (r : Fin 32) (v : Word) : (s.setG r v).tlb = s.tlb := rfl
@[simp] theorem State.setG_ibuf (s : State) (r : Fin 32) (v : Word) : (s.setG r v).ibuf = s.ibuf := rfl
@[simp] theorem State.setG_banks (s : State) (r : Fin 32) (v : Word) : (s.setG r v).banks = s.banks := rfl
@[simp] theorem State.setG_tiles (s : State) (r : Fin 32) (v : Word) : (s.setG r v).tiles = s.tiles := rfl
@[simp] theorem State.setG_fabric (s : State) (r : Fin 32) (v : Word) : (s.setG r v).fabric = s.fabric := rfl
@[simp] theorem State.setG_badMem (s : State) (r : Fin 32) (v : Word) : (s.setG r v).badMem = s.badMem := rfl
@[simp] theorem State.setG_badNear (s : State) (r : Fin 32) (v : Word) : (s.setG r v).badNear = s.badNear := rfl
@[simp] theorem State.setG_frames (s : State) (r : Fin 32) (v : Word) : (s.setG r v).frames = s.frames := rfl
@[simp] theorem State.setG_agenda (s : State) (r : Fin 32) (v : Word) : (s.setG r v).agenda = s.agenda := rfl
@[simp] theorem State.setG_tick (s : State) (r : Fin 32) (v : Word) : (s.setG r v).tick = s.tick := rfl
@[simp] theorem State.setG_free (s : State) (r : Fin 32) (v : Word) : (s.setG r v).free = s.free := rfl
@[simp] theorem State.setG_serial (s : State) (r : Fin 32) (v : Word) : (s.setG r v).serial = s.serial := rfl
@[simp] theorem State.setG_cur (s : State) (r : Fin 32) (v : Word) : (s.setG r v).cur = s.cur.setG r v := rfl

/-! #### State.raise -/

@[simp] theorem State.raise_harts (s : State) (f : Flags) : (s.raise f).harts = s.harts := rfl
@[simp] theorem State.raise_launches (s : State) (f : Flags) : (s.raise f).launches = s.launches := rfl
@[simp] theorem State.raise_mods (s : State) (f : Flags) : (s.raise f).mods = s.mods := rfl
@[simp] theorem State.raise_dram (s : State) (f : Flags) : (s.raise f).dram = s.dram := rfl
@[simp] theorem State.raise_near (s : State) (f : Flags) : (s.raise f).near = s.near := rfl
@[simp] theorem State.raise_l1 (s : State) (f : Flags) : (s.raise f).l1 = s.l1 := rfl
@[simp] theorem State.raise_l2 (s : State) (f : Flags) : (s.raise f).l2 = s.l2 := rfl
@[simp] theorem State.raise_msc (s : State) (f : Flags) : (s.raise f).msc = s.msc := rfl
@[simp] theorem State.raise_tlb (s : State) (f : Flags) : (s.raise f).tlb = s.tlb := rfl
@[simp] theorem State.raise_ibuf (s : State) (f : Flags) : (s.raise f).ibuf = s.ibuf := rfl
@[simp] theorem State.raise_banks (s : State) (f : Flags) : (s.raise f).banks = s.banks := rfl
@[simp] theorem State.raise_tiles (s : State) (f : Flags) : (s.raise f).tiles = s.tiles := rfl
@[simp] theorem State.raise_fabric (s : State) (f : Flags) : (s.raise f).fabric = s.fabric := rfl
@[simp] theorem State.raise_poison (s : State) (f : Flags) : (s.raise f).poison = s.poison := rfl
@[simp] theorem State.raise_badMem (s : State) (f : Flags) : (s.raise f).badMem = s.badMem := rfl
@[simp] theorem State.raise_badNear (s : State) (f : Flags) : (s.raise f).badNear = s.badNear := rfl
@[simp] theorem State.raise_frames (s : State) (f : Flags) : (s.raise f).frames = s.frames := rfl
@[simp] theorem State.raise_agenda (s : State) (f : Flags) : (s.raise f).agenda = s.agenda := rfl
@[simp] theorem State.raise_tick (s : State) (f : Flags) : (s.raise f).tick = s.tick := rfl
@[simp] theorem State.raise_free (s : State) (f : Flags) : (s.raise f).free = s.free := rfl
@[simp] theorem State.raise_serial (s : State) (f : Flags) : (s.raise f).serial = s.serial := rfl
@[simp] theorem State.raise_cur (s : State) (f : Flags) : (s.raise f).cur = { s.cur with aflags := s.cur.aflags ||| f } := rfl

/-! #### State.draw -/

@[simp] theorem State.draw_cur (s : State) : (s.draw).cur = s.cur := rfl
@[simp] theorem State.draw_harts (s : State) : (s.draw).harts = s.harts := rfl
@[simp] theorem State.draw_launches (s : State) : (s.draw).launches = s.launches := rfl
@[simp] theorem State.draw_mods (s : State) : (s.draw).mods = s.mods := rfl
@[simp] theorem State.draw_dram (s : State) : (s.draw).dram = s.dram := rfl
@[simp] theorem State.draw_near (s : State) : (s.draw).near = s.near := rfl
@[simp] theorem State.draw_l1 (s : State) : (s.draw).l1 = s.l1 := rfl
@[simp] theorem State.draw_l2 (s : State) : (s.draw).l2 = s.l2 := rfl
@[simp] theorem State.draw_msc (s : State) : (s.draw).msc = s.msc := rfl
@[simp] theorem State.draw_tlb (s : State) : (s.draw).tlb = s.tlb := rfl
@[simp] theorem State.draw_ibuf (s : State) : (s.draw).ibuf = s.ibuf := rfl
@[simp] theorem State.draw_banks (s : State) : (s.draw).banks = s.banks := rfl
@[simp] theorem State.draw_tiles (s : State) : (s.draw).tiles = s.tiles := rfl
@[simp] theorem State.draw_fabric (s : State) : (s.draw).fabric = s.fabric := rfl
@[simp] theorem State.draw_poison (s : State) : (s.draw).poison = s.poison := rfl
@[simp] theorem State.draw_badMem (s : State) : (s.draw).badMem = s.badMem := rfl
@[simp] theorem State.draw_badNear (s : State) : (s.draw).badNear = s.badNear := rfl
@[simp] theorem State.draw_frames (s : State) : (s.draw).frames = s.frames := rfl
@[simp] theorem State.draw_agenda (s : State) : (s.draw).agenda = s.agenda := rfl
@[simp] theorem State.draw_tick (s : State) : (s.draw).tick = s.tick := rfl
@[simp] theorem State.draw_serial (s : State) : (s.draw).serial = s.serial := rfl
@[simp] theorem State.draw_free (s : State) : s.draw.free = s.free + 1 := rfl

/-! #### State.setAcc -/

@[simp] theorem State.setAcc_harts (s : State) (c : Nat) (a : Acc) : (s.setAcc c a).harts = s.harts := rfl
@[simp] theorem State.setAcc_launches (s : State) (c : Nat) (a : Acc) : (s.setAcc c a).launches = s.launches := rfl
@[simp] theorem State.setAcc_mods (s : State) (c : Nat) (a : Acc) : (s.setAcc c a).mods = s.mods := rfl
@[simp] theorem State.setAcc_dram (s : State) (c : Nat) (a : Acc) : (s.setAcc c a).dram = s.dram := rfl
@[simp] theorem State.setAcc_near (s : State) (c : Nat) (a : Acc) : (s.setAcc c a).near = s.near := rfl
@[simp] theorem State.setAcc_l1 (s : State) (c : Nat) (a : Acc) : (s.setAcc c a).l1 = s.l1 := rfl
@[simp] theorem State.setAcc_l2 (s : State) (c : Nat) (a : Acc) : (s.setAcc c a).l2 = s.l2 := rfl
@[simp] theorem State.setAcc_msc (s : State) (c : Nat) (a : Acc) : (s.setAcc c a).msc = s.msc := rfl
@[simp] theorem State.setAcc_tlb (s : State) (c : Nat) (a : Acc) : (s.setAcc c a).tlb = s.tlb := rfl
@[simp] theorem State.setAcc_ibuf (s : State) (c : Nat) (a : Acc) : (s.setAcc c a).ibuf = s.ibuf := rfl
@[simp] theorem State.setAcc_banks (s : State) (c : Nat) (a : Acc) : (s.setAcc c a).banks = s.banks := rfl
@[simp] theorem State.setAcc_tiles (s : State) (c : Nat) (a : Acc) : (s.setAcc c a).tiles = s.tiles := rfl
@[simp] theorem State.setAcc_fabric (s : State) (c : Nat) (a : Acc) : (s.setAcc c a).fabric = s.fabric := rfl
@[simp] theorem State.setAcc_poison (s : State) (c : Nat) (a : Acc) : (s.setAcc c a).poison = s.poison := rfl
@[simp] theorem State.setAcc_badMem (s : State) (c : Nat) (a : Acc) : (s.setAcc c a).badMem = s.badMem := rfl
@[simp] theorem State.setAcc_badNear (s : State) (c : Nat) (a : Acc) : (s.setAcc c a).badNear = s.badNear := rfl
@[simp] theorem State.setAcc_frames (s : State) (c : Nat) (a : Acc) : (s.setAcc c a).frames = s.frames := rfl
@[simp] theorem State.setAcc_agenda (s : State) (c : Nat) (a : Acc) : (s.setAcc c a).agenda = s.agenda := rfl
@[simp] theorem State.setAcc_tick (s : State) (c : Nat) (a : Acc) : (s.setAcc c a).tick = s.tick := rfl
@[simp] theorem State.setAcc_free (s : State) (c : Nat) (a : Acc) : (s.setAcc c a).free = s.free := rfl
@[simp] theorem State.setAcc_serial (s : State) (c : Nat) (a : Acc) : (s.setAcc c a).serial = s.serial := rfl
@[simp] theorem State.setAcc_cur (s : State) (c : Nat) (a : Acc) : (s.setAcc c a).cur = { s.cur with accs := s.cur.accs.set c a } := rfl

/-! #### State.setFar -/

@[simp] theorem State.setFar_cur (s : State) (home r v : Nat) : (s.setFar home r v).cur = s.cur := rfl
@[simp] theorem State.setFar_harts (s : State) (home r v : Nat) : (s.setFar home r v).harts = s.harts := rfl
@[simp] theorem State.setFar_launches (s : State) (home r v : Nat) : (s.setFar home r v).launches = s.launches := rfl
@[simp] theorem State.setFar_mods (s : State) (home r v : Nat) : (s.setFar home r v).mods = s.mods := rfl
@[simp] theorem State.setFar_dram (s : State) (home r v : Nat) : (s.setFar home r v).dram = s.dram := rfl
@[simp] theorem State.setFar_near (s : State) (home r v : Nat) : (s.setFar home r v).near = s.near := rfl
@[simp] theorem State.setFar_l1 (s : State) (home r v : Nat) : (s.setFar home r v).l1 = s.l1 := rfl
@[simp] theorem State.setFar_l2 (s : State) (home r v : Nat) : (s.setFar home r v).l2 = s.l2 := rfl
@[simp] theorem State.setFar_msc (s : State) (home r v : Nat) : (s.setFar home r v).msc = s.msc := rfl
@[simp] theorem State.setFar_tlb (s : State) (home r v : Nat) : (s.setFar home r v).tlb = s.tlb := rfl
@[simp] theorem State.setFar_ibuf (s : State) (home r v : Nat) : (s.setFar home r v).ibuf = s.ibuf := rfl
@[simp] theorem State.setFar_tiles (s : State) (home r v : Nat) : (s.setFar home r v).tiles = s.tiles := rfl
@[simp] theorem State.setFar_fabric (s : State) (home r v : Nat) : (s.setFar home r v).fabric = s.fabric := rfl
@[simp] theorem State.setFar_poison (s : State) (home r v : Nat) : (s.setFar home r v).poison = s.poison := rfl
@[simp] theorem State.setFar_badMem (s : State) (home r v : Nat) : (s.setFar home r v).badMem = s.badMem := rfl
@[simp] theorem State.setFar_badNear (s : State) (home r v : Nat) : (s.setFar home r v).badNear = s.badNear := rfl
@[simp] theorem State.setFar_frames (s : State) (home r v : Nat) : (s.setFar home r v).frames = s.frames := rfl
@[simp] theorem State.setFar_agenda (s : State) (home r v : Nat) : (s.setFar home r v).agenda = s.agenda := rfl
@[simp] theorem State.setFar_tick (s : State) (home r v : Nat) : (s.setFar home r v).tick = s.tick := rfl
@[simp] theorem State.setFar_free (s : State) (home r v : Nat) : (s.setFar home r v).free = s.free := rfl
@[simp] theorem State.setFar_serial (s : State) (home r v : Nat) : (s.setFar home r v).serial = s.serial := rfl

/-! #### State.keepBank -/

@[simp] theorem State.keepBank_harts (s : State) : (s.keepBank).harts = s.harts := rfl
@[simp] theorem State.keepBank_launches (s : State) : (s.keepBank).launches = s.launches := rfl
@[simp] theorem State.keepBank_mods (s : State) : (s.keepBank).mods = s.mods := rfl
@[simp] theorem State.keepBank_dram (s : State) : (s.keepBank).dram = s.dram := rfl
@[simp] theorem State.keepBank_near (s : State) : (s.keepBank).near = s.near := rfl
@[simp] theorem State.keepBank_l1 (s : State) : (s.keepBank).l1 = s.l1 := rfl
@[simp] theorem State.keepBank_l2 (s : State) : (s.keepBank).l2 = s.l2 := rfl
@[simp] theorem State.keepBank_msc (s : State) : (s.keepBank).msc = s.msc := rfl
@[simp] theorem State.keepBank_tlb (s : State) : (s.keepBank).tlb = s.tlb := rfl
@[simp] theorem State.keepBank_ibuf (s : State) : (s.keepBank).ibuf = s.ibuf := rfl
@[simp] theorem State.keepBank_banks (s : State) : (s.keepBank).banks = s.banks := rfl
@[simp] theorem State.keepBank_tiles (s : State) : (s.keepBank).tiles = s.tiles := rfl
@[simp] theorem State.keepBank_fabric (s : State) : (s.keepBank).fabric = s.fabric := rfl
@[simp] theorem State.keepBank_poison (s : State) : (s.keepBank).poison = s.poison := rfl
@[simp] theorem State.keepBank_badMem (s : State) : (s.keepBank).badMem = s.badMem := rfl
@[simp] theorem State.keepBank_badNear (s : State) : (s.keepBank).badNear = s.badNear := rfl
@[simp] theorem State.keepBank_frames (s : State) : (s.keepBank).frames = s.frames := rfl
@[simp] theorem State.keepBank_agenda (s : State) : (s.keepBank).agenda = s.agenda := rfl
@[simp] theorem State.keepBank_tick (s : State) : (s.keepBank).tick = s.tick := rfl
@[simp] theorem State.keepBank_free (s : State) : (s.keepBank).free = s.free := rfl
@[simp] theorem State.keepBank_serial (s : State) : (s.keepBank).serial = s.serial := rfl

/-! #### State.waits -/

@[simp] theorem State.waits_harts (s : State) (on : Word) : (s.waits on).harts = s.harts := rfl
@[simp] theorem State.waits_launches (s : State) (on : Word) : (s.waits on).launches = s.launches := rfl
@[simp] theorem State.waits_mods (s : State) (on : Word) : (s.waits on).mods = s.mods := rfl
@[simp] theorem State.waits_dram (s : State) (on : Word) : (s.waits on).dram = s.dram := rfl
@[simp] theorem State.waits_near (s : State) (on : Word) : (s.waits on).near = s.near := rfl
@[simp] theorem State.waits_l1 (s : State) (on : Word) : (s.waits on).l1 = s.l1 := rfl
@[simp] theorem State.waits_l2 (s : State) (on : Word) : (s.waits on).l2 = s.l2 := rfl
@[simp] theorem State.waits_msc (s : State) (on : Word) : (s.waits on).msc = s.msc := rfl
@[simp] theorem State.waits_tlb (s : State) (on : Word) : (s.waits on).tlb = s.tlb := rfl
@[simp] theorem State.waits_ibuf (s : State) (on : Word) : (s.waits on).ibuf = s.ibuf := rfl
@[simp] theorem State.waits_banks (s : State) (on : Word) : (s.waits on).banks = s.banks := rfl
@[simp] theorem State.waits_tiles (s : State) (on : Word) : (s.waits on).tiles = s.tiles := rfl
@[simp] theorem State.waits_fabric (s : State) (on : Word) : (s.waits on).fabric = s.fabric := rfl
@[simp] theorem State.waits_poison (s : State) (on : Word) : (s.waits on).poison = s.poison := rfl
@[simp] theorem State.waits_badMem (s : State) (on : Word) : (s.waits on).badMem = s.badMem := rfl
@[simp] theorem State.waits_badNear (s : State) (on : Word) : (s.waits on).badNear = s.badNear := rfl
@[simp] theorem State.waits_frames (s : State) (on : Word) : (s.waits on).frames = s.frames := rfl
@[simp] theorem State.waits_agenda (s : State) (on : Word) : (s.waits on).agenda = s.agenda := rfl
@[simp] theorem State.waits_tick (s : State) (on : Word) : (s.waits on).tick = s.tick := rfl
@[simp] theorem State.waits_free (s : State) (on : Word) : (s.waits on).free = s.free := rfl
@[simp] theorem State.waits_serial (s : State) (on : Word) : (s.waits on).serial = s.serial := rfl

/-- A change of a module changes no other field. -/
theorem State.onMod_keeps {α : Type} (f : State → α) (s : State) (m : Nat) (g : Module → Module)
    (k : ∀ x, f { s with mods := x } = f s) : f (s.onMod m g) = f s := by
  unfold State.onMod
  split
  · exact k _
  · rfl

/-! #### State.heard -/

@[simp] theorem State.heard_cur (s : State) (m r : Nat) : (s.heard m r).cur = s.cur := State.onMod_keeps State.cur s m _ fun _ => rfl
@[simp] theorem State.heard_harts (s : State) (m r : Nat) : (s.heard m r).harts = s.harts := State.onMod_keeps State.harts s m _ fun _ => rfl
@[simp] theorem State.heard_launches (s : State) (m r : Nat) : (s.heard m r).launches = s.launches := State.onMod_keeps State.launches s m _ fun _ => rfl
@[simp] theorem State.heard_dram (s : State) (m r : Nat) : (s.heard m r).dram = s.dram := State.onMod_keeps State.dram s m _ fun _ => rfl
@[simp] theorem State.heard_near (s : State) (m r : Nat) : (s.heard m r).near = s.near := State.onMod_keeps State.near s m _ fun _ => rfl
@[simp] theorem State.heard_l1 (s : State) (m r : Nat) : (s.heard m r).l1 = s.l1 := State.onMod_keeps State.l1 s m _ fun _ => rfl
@[simp] theorem State.heard_l2 (s : State) (m r : Nat) : (s.heard m r).l2 = s.l2 := State.onMod_keeps State.l2 s m _ fun _ => rfl
@[simp] theorem State.heard_msc (s : State) (m r : Nat) : (s.heard m r).msc = s.msc := State.onMod_keeps State.msc s m _ fun _ => rfl
@[simp] theorem State.heard_tlb (s : State) (m r : Nat) : (s.heard m r).tlb = s.tlb := State.onMod_keeps State.tlb s m _ fun _ => rfl
@[simp] theorem State.heard_ibuf (s : State) (m r : Nat) : (s.heard m r).ibuf = s.ibuf := State.onMod_keeps State.ibuf s m _ fun _ => rfl
@[simp] theorem State.heard_banks (s : State) (m r : Nat) : (s.heard m r).banks = s.banks := State.onMod_keeps State.banks s m _ fun _ => rfl
@[simp] theorem State.heard_tiles (s : State) (m r : Nat) : (s.heard m r).tiles = s.tiles := State.onMod_keeps State.tiles s m _ fun _ => rfl
@[simp] theorem State.heard_fabric (s : State) (m r : Nat) : (s.heard m r).fabric = s.fabric := State.onMod_keeps State.fabric s m _ fun _ => rfl
@[simp] theorem State.heard_poison (s : State) (m r : Nat) : (s.heard m r).poison = s.poison := State.onMod_keeps State.poison s m _ fun _ => rfl
@[simp] theorem State.heard_badMem (s : State) (m r : Nat) : (s.heard m r).badMem = s.badMem := State.onMod_keeps State.badMem s m _ fun _ => rfl
@[simp] theorem State.heard_badNear (s : State) (m r : Nat) : (s.heard m r).badNear = s.badNear := State.onMod_keeps State.badNear s m _ fun _ => rfl
@[simp] theorem State.heard_frames (s : State) (m r : Nat) : (s.heard m r).frames = s.frames := State.onMod_keeps State.frames s m _ fun _ => rfl
@[simp] theorem State.heard_agenda (s : State) (m r : Nat) : (s.heard m r).agenda = s.agenda := State.onMod_keeps State.agenda s m _ fun _ => rfl
@[simp] theorem State.heard_tick (s : State) (m r : Nat) : (s.heard m r).tick = s.tick := State.onMod_keeps State.tick s m _ fun _ => rfl
@[simp] theorem State.heard_free (s : State) (m r : Nat) : (s.heard m r).free = s.free := State.onMod_keeps State.free s m _ fun _ => rfl
@[simp] theorem State.heard_serial (s : State) (m r : Nat) : (s.heard m r).serial = s.serial := State.onMod_keeps State.serial s m _ fun _ => rfl

/-- A write of state registers changes at most the poison. -/
theorem State.coverSr_keeps {α : Type} (f : State → α) (s : State) (ns : List Nat)
    (k : ∀ x, f { s with poison := x } = f s) : f (s.coverSr ns) = f s := by
  unfold State.coverSr
  split
  · rfl
  · exact k _

/-! #### State.coverSr -/

@[simp] theorem State.coverSr_cur (s : State) (ns : List Nat) : (s.coverSr ns).cur = s.cur := State.coverSr_keeps State.cur s ns fun _ => rfl
@[simp] theorem State.coverSr_harts (s : State) (ns : List Nat) : (s.coverSr ns).harts = s.harts := State.coverSr_keeps State.harts s ns fun _ => rfl
@[simp] theorem State.coverSr_launches (s : State) (ns : List Nat) : (s.coverSr ns).launches = s.launches := State.coverSr_keeps State.launches s ns fun _ => rfl
@[simp] theorem State.coverSr_mods (s : State) (ns : List Nat) : (s.coverSr ns).mods = s.mods := State.coverSr_keeps State.mods s ns fun _ => rfl
@[simp] theorem State.coverSr_dram (s : State) (ns : List Nat) : (s.coverSr ns).dram = s.dram := State.coverSr_keeps State.dram s ns fun _ => rfl
@[simp] theorem State.coverSr_near (s : State) (ns : List Nat) : (s.coverSr ns).near = s.near := State.coverSr_keeps State.near s ns fun _ => rfl
@[simp] theorem State.coverSr_l1 (s : State) (ns : List Nat) : (s.coverSr ns).l1 = s.l1 := State.coverSr_keeps State.l1 s ns fun _ => rfl
@[simp] theorem State.coverSr_l2 (s : State) (ns : List Nat) : (s.coverSr ns).l2 = s.l2 := State.coverSr_keeps State.l2 s ns fun _ => rfl
@[simp] theorem State.coverSr_msc (s : State) (ns : List Nat) : (s.coverSr ns).msc = s.msc := State.coverSr_keeps State.msc s ns fun _ => rfl
@[simp] theorem State.coverSr_tlb (s : State) (ns : List Nat) : (s.coverSr ns).tlb = s.tlb := State.coverSr_keeps State.tlb s ns fun _ => rfl
@[simp] theorem State.coverSr_ibuf (s : State) (ns : List Nat) : (s.coverSr ns).ibuf = s.ibuf := State.coverSr_keeps State.ibuf s ns fun _ => rfl
@[simp] theorem State.coverSr_banks (s : State) (ns : List Nat) : (s.coverSr ns).banks = s.banks := State.coverSr_keeps State.banks s ns fun _ => rfl
@[simp] theorem State.coverSr_tiles (s : State) (ns : List Nat) : (s.coverSr ns).tiles = s.tiles := State.coverSr_keeps State.tiles s ns fun _ => rfl
@[simp] theorem State.coverSr_fabric (s : State) (ns : List Nat) : (s.coverSr ns).fabric = s.fabric := State.coverSr_keeps State.fabric s ns fun _ => rfl
@[simp] theorem State.coverSr_badMem (s : State) (ns : List Nat) : (s.coverSr ns).badMem = s.badMem := State.coverSr_keeps State.badMem s ns fun _ => rfl
@[simp] theorem State.coverSr_badNear (s : State) (ns : List Nat) : (s.coverSr ns).badNear = s.badNear := State.coverSr_keeps State.badNear s ns fun _ => rfl
@[simp] theorem State.coverSr_frames (s : State) (ns : List Nat) : (s.coverSr ns).frames = s.frames := State.coverSr_keeps State.frames s ns fun _ => rfl
@[simp] theorem State.coverSr_agenda (s : State) (ns : List Nat) : (s.coverSr ns).agenda = s.agenda := State.coverSr_keeps State.agenda s ns fun _ => rfl
@[simp] theorem State.coverSr_tick (s : State) (ns : List Nat) : (s.coverSr ns).tick = s.tick := State.coverSr_keeps State.tick s ns fun _ => rfl
@[simp] theorem State.coverSr_free (s : State) (ns : List Nat) : (s.coverSr ns).free = s.free := State.coverSr_keeps State.free s ns fun _ => rfl
@[simp] theorem State.coverSr_serial (s : State) (ns : List Nat) : (s.coverSr ns).serial = s.serial := State.coverSr_keeps State.serial s ns fun _ => rfl

/-! #### State.putTlb -/

@[simp] theorem State.putTlb_cur (s : State) (e : TlbEntry) : (s.putTlb e).cur = s.cur := rfl
@[simp] theorem State.putTlb_harts (s : State) (e : TlbEntry) : (s.putTlb e).harts = s.harts := rfl
@[simp] theorem State.putTlb_launches (s : State) (e : TlbEntry) : (s.putTlb e).launches = s.launches := rfl
@[simp] theorem State.putTlb_mods (s : State) (e : TlbEntry) : (s.putTlb e).mods = s.mods := rfl
@[simp] theorem State.putTlb_dram (s : State) (e : TlbEntry) : (s.putTlb e).dram = s.dram := rfl
@[simp] theorem State.putTlb_near (s : State) (e : TlbEntry) : (s.putTlb e).near = s.near := rfl
@[simp] theorem State.putTlb_l1 (s : State) (e : TlbEntry) : (s.putTlb e).l1 = s.l1 := rfl
@[simp] theorem State.putTlb_l2 (s : State) (e : TlbEntry) : (s.putTlb e).l2 = s.l2 := rfl
@[simp] theorem State.putTlb_msc (s : State) (e : TlbEntry) : (s.putTlb e).msc = s.msc := rfl
@[simp] theorem State.putTlb_ibuf (s : State) (e : TlbEntry) : (s.putTlb e).ibuf = s.ibuf := rfl
@[simp] theorem State.putTlb_banks (s : State) (e : TlbEntry) : (s.putTlb e).banks = s.banks := rfl
@[simp] theorem State.putTlb_tiles (s : State) (e : TlbEntry) : (s.putTlb e).tiles = s.tiles := rfl
@[simp] theorem State.putTlb_fabric (s : State) (e : TlbEntry) : (s.putTlb e).fabric = s.fabric := rfl
@[simp] theorem State.putTlb_poison (s : State) (e : TlbEntry) : (s.putTlb e).poison = s.poison := rfl
@[simp] theorem State.putTlb_badMem (s : State) (e : TlbEntry) : (s.putTlb e).badMem = s.badMem := rfl
@[simp] theorem State.putTlb_badNear (s : State) (e : TlbEntry) : (s.putTlb e).badNear = s.badNear := rfl
@[simp] theorem State.putTlb_frames (s : State) (e : TlbEntry) : (s.putTlb e).frames = s.frames := rfl
@[simp] theorem State.putTlb_agenda (s : State) (e : TlbEntry) : (s.putTlb e).agenda = s.agenda := rfl
@[simp] theorem State.putTlb_tick (s : State) (e : TlbEntry) : (s.putTlb e).tick = s.tick := rfl
@[simp] theorem State.putTlb_free (s : State) (e : TlbEntry) : (s.putTlb e).free = s.free := rfl
@[simp] theorem State.putTlb_serial (s : State) (e : TlbEntry) : (s.putTlb e).serial = s.serial := rfl

/-! #### State.dropTlb -/

@[simp] theorem State.dropTlb_cur (s : State) (m : Nat) (asid : Option Nat) (va len : Nat) : (s.dropTlb m asid va len).cur = s.cur := rfl
@[simp] theorem State.dropTlb_harts (s : State) (m : Nat) (asid : Option Nat) (va len : Nat) : (s.dropTlb m asid va len).harts = s.harts := rfl
@[simp] theorem State.dropTlb_launches (s : State) (m : Nat) (asid : Option Nat) (va len : Nat) : (s.dropTlb m asid va len).launches = s.launches := rfl
@[simp] theorem State.dropTlb_mods (s : State) (m : Nat) (asid : Option Nat) (va len : Nat) : (s.dropTlb m asid va len).mods = s.mods := rfl
@[simp] theorem State.dropTlb_dram (s : State) (m : Nat) (asid : Option Nat) (va len : Nat) : (s.dropTlb m asid va len).dram = s.dram := rfl
@[simp] theorem State.dropTlb_near (s : State) (m : Nat) (asid : Option Nat) (va len : Nat) : (s.dropTlb m asid va len).near = s.near := rfl
@[simp] theorem State.dropTlb_l1 (s : State) (m : Nat) (asid : Option Nat) (va len : Nat) : (s.dropTlb m asid va len).l1 = s.l1 := rfl
@[simp] theorem State.dropTlb_l2 (s : State) (m : Nat) (asid : Option Nat) (va len : Nat) : (s.dropTlb m asid va len).l2 = s.l2 := rfl
@[simp] theorem State.dropTlb_msc (s : State) (m : Nat) (asid : Option Nat) (va len : Nat) : (s.dropTlb m asid va len).msc = s.msc := rfl
@[simp] theorem State.dropTlb_ibuf (s : State) (m : Nat) (asid : Option Nat) (va len : Nat) : (s.dropTlb m asid va len).ibuf = s.ibuf := rfl
@[simp] theorem State.dropTlb_banks (s : State) (m : Nat) (asid : Option Nat) (va len : Nat) : (s.dropTlb m asid va len).banks = s.banks := rfl
@[simp] theorem State.dropTlb_tiles (s : State) (m : Nat) (asid : Option Nat) (va len : Nat) : (s.dropTlb m asid va len).tiles = s.tiles := rfl
@[simp] theorem State.dropTlb_fabric (s : State) (m : Nat) (asid : Option Nat) (va len : Nat) : (s.dropTlb m asid va len).fabric = s.fabric := rfl
@[simp] theorem State.dropTlb_poison (s : State) (m : Nat) (asid : Option Nat) (va len : Nat) : (s.dropTlb m asid va len).poison = s.poison := rfl
@[simp] theorem State.dropTlb_badMem (s : State) (m : Nat) (asid : Option Nat) (va len : Nat) : (s.dropTlb m asid va len).badMem = s.badMem := rfl
@[simp] theorem State.dropTlb_badNear (s : State) (m : Nat) (asid : Option Nat) (va len : Nat) : (s.dropTlb m asid va len).badNear = s.badNear := rfl
@[simp] theorem State.dropTlb_frames (s : State) (m : Nat) (asid : Option Nat) (va len : Nat) : (s.dropTlb m asid va len).frames = s.frames := rfl
@[simp] theorem State.dropTlb_agenda (s : State) (m : Nat) (asid : Option Nat) (va len : Nat) : (s.dropTlb m asid va len).agenda = s.agenda := rfl
@[simp] theorem State.dropTlb_tick (s : State) (m : Nat) (asid : Option Nat) (va len : Nat) : (s.dropTlb m asid va len).tick = s.tick := rfl
@[simp] theorem State.dropTlb_free (s : State) (m : Nat) (asid : Option Nat) (va len : Nat) : (s.dropTlb m asid va len).free = s.free := rfl
@[simp] theorem State.dropTlb_serial (s : State) (m : Nat) (asid : Option Nat) (va len : Nat) : (s.dropTlb m asid va len).serial = s.serial := rfl

/-! #### State.completed -/

@[simp] theorem State.completed_harts (s : State) : (s.completed).harts = s.harts := rfl
@[simp] theorem State.completed_launches (s : State) : (s.completed).launches = s.launches := rfl
@[simp] theorem State.completed_mods (s : State) : (s.completed).mods = s.mods := rfl
@[simp] theorem State.completed_dram (s : State) : (s.completed).dram = s.dram := rfl
@[simp] theorem State.completed_near (s : State) : (s.completed).near = s.near := rfl
@[simp] theorem State.completed_l1 (s : State) : (s.completed).l1 = s.l1 := rfl
@[simp] theorem State.completed_l2 (s : State) : (s.completed).l2 = s.l2 := rfl
@[simp] theorem State.completed_msc (s : State) : (s.completed).msc = s.msc := rfl
@[simp] theorem State.completed_tlb (s : State) : (s.completed).tlb = s.tlb := rfl
@[simp] theorem State.completed_ibuf (s : State) : (s.completed).ibuf = s.ibuf := rfl
@[simp] theorem State.completed_banks (s : State) : (s.completed).banks = s.banks := rfl
@[simp] theorem State.completed_tiles (s : State) : (s.completed).tiles = s.tiles := rfl
@[simp] theorem State.completed_fabric (s : State) : (s.completed).fabric = s.fabric := rfl
@[simp] theorem State.completed_poison (s : State) : (s.completed).poison = s.poison := rfl
@[simp] theorem State.completed_badMem (s : State) : (s.completed).badMem = s.badMem := rfl
@[simp] theorem State.completed_badNear (s : State) : (s.completed).badNear = s.badNear := rfl
@[simp] theorem State.completed_frames (s : State) : (s.completed).frames = s.frames := rfl
@[simp] theorem State.completed_agenda (s : State) : (s.completed).agenda = s.agenda := rfl
@[simp] theorem State.completed_tick (s : State) : (s.completed).tick = s.tick := rfl
@[simp] theorem State.completed_free (s : State) : (s.completed).free = s.free := rfl
@[simp] theorem State.completed_serial (s : State) : (s.completed).serial = s.serial := rfl
@[simp] theorem State.completed_cur_id (s : State) : s.completed.cur.id = s.cur.id := rfl
@[simp] theorem State.completed_cur_mod (s : State) : s.completed.cur.mod = s.cur.mod := rfl
@[simp] theorem State.completed_cur_seat (s : State) : s.completed.cur.seat = s.cur.seat := rfl
@[simp] theorem State.completed_cur_npc (s : State) : s.completed.cur.npc = s.cur.npc := rfl
@[simp] theorem State.completed_cur_head (s : State) : s.completed.cur.head = s.cur.head := rfl
@[simp] theorem State.completed_cur_g (s : State) : s.completed.cur.g = s.cur.g := rfl
@[simp] theorem State.completed_cur_cfg (s : State) : s.completed.cur.cfg = s.cur.cfg := rfl
@[simp] theorem State.completed_cur_vec (s : State) : s.completed.cur.vec = s.cur.vec := rfl
@[simp] theorem State.completed_cur_mask (s : State) : s.completed.cur.mask = s.cur.mask := rfl
@[simp] theorem State.completed_cur_stream (s : State) : s.completed.cur.stream = s.cur.stream := rfl
@[simp] theorem State.completed_cur_notice (s : State) : s.completed.cur.notice = s.cur.notice := rfl
@[simp] theorem State.completed_cur_accs (s : State) : s.completed.cur.accs = s.cur.accs := rfl
@[simp] theorem State.completed_cur_aflags (s : State) : s.completed.cur.aflags = s.cur.aflags := rfl
@[simp] theorem State.completed_cur_atp (s : State) : s.completed.cur.atp = s.cur.atp := rfl
@[simp] theorem State.completed_cur_unf (s : State) : s.completed.cur.unf = s.cur.unf := rfl
@[simp] theorem State.completed_cur_trap (s : State) : s.completed.cur.trap = s.cur.trap := rfl
@[simp] theorem State.completed_cur_resv (s : State) : s.completed.cur.resv = s.cur.resv := rfl
@[simp] theorem State.completed_cur_event (s : State) : s.completed.cur.event = s.cur.event := rfl
@[simp] theorem State.completed_cur_vq (s : State) : s.completed.cur.vq = s.cur.vq := rfl
@[simp] theorem State.completed_cur_moved (s : State) : s.completed.cur.moved = s.cur.moved := rfl
@[simp] theorem State.completed_cur_active (s : State) : s.completed.cur.active = s.cur.active := rfl
@[simp] theorem State.completed_cur_later (s : State) : s.completed.cur.later = s.cur.later := rfl
@[simp] theorem State.completed_cur_waitFrom (s : State) : s.completed.cur.waitFrom = s.cur.waitFrom := rfl
@[simp] theorem State.completed_cur_send (s : State) : s.completed.cur.send = s.cur.send := rfl
@[simp] theorem State.completed_cur_got (s : State) : s.completed.cur.got = s.cur.got := rfl
@[simp] theorem State.completed_cur_bars (s : State) : s.completed.cur.bars = s.cur.bars := rfl
@[simp] theorem State.completed_cur_atBar (s : State) : s.completed.cur.atBar = s.cur.atBar := rfl
@[simp] theorem State.completed_cur_unacked (s : State) : s.completed.cur.unacked = s.cur.unacked := rfl
@[simp] theorem State.completed_cur_lastShift (s : State) : s.completed.cur.lastShift = s.cur.lastShift := rfl
@[simp] theorem State.completed_cur_eager (s : State) : s.completed.cur.eager = s.cur.eager := rfl
@[simp] theorem State.completed_cur_seen (s : State) : s.completed.cur.seen = s.cur.seen := rfl
@[simp] theorem State.completed_cur_needsAct (s : State) : s.completed.cur.needsAct = s.cur.needsAct := rfl
@[simp] theorem State.completed_cur_bank (s : State) : s.completed.cur.bank = s.cur.bank := rfl
@[simp] theorem State.completed_cur_bankPoison (s : State) : s.completed.cur.bankPoison = s.cur.bankPoison := rfl
@[simp] theorem State.completed_cur_pc (s : State) : s.completed.cur.pc = s.cur.npc := rfl

/-! #### State.headed -/

@[simp] theorem State.headed_harts (s : State) (a : Word) : (s.headed a).harts = s.harts := rfl
@[simp] theorem State.headed_launches (s : State) (a : Word) : (s.headed a).launches = s.launches := rfl
@[simp] theorem State.headed_mods (s : State) (a : Word) : (s.headed a).mods = s.mods := rfl
@[simp] theorem State.headed_dram (s : State) (a : Word) : (s.headed a).dram = s.dram := rfl
@[simp] theorem State.headed_near (s : State) (a : Word) : (s.headed a).near = s.near := rfl
@[simp] theorem State.headed_l1 (s : State) (a : Word) : (s.headed a).l1 = s.l1 := rfl
@[simp] theorem State.headed_l2 (s : State) (a : Word) : (s.headed a).l2 = s.l2 := rfl
@[simp] theorem State.headed_msc (s : State) (a : Word) : (s.headed a).msc = s.msc := rfl
@[simp] theorem State.headed_tlb (s : State) (a : Word) : (s.headed a).tlb = s.tlb := rfl
@[simp] theorem State.headed_ibuf (s : State) (a : Word) : (s.headed a).ibuf = s.ibuf := rfl
@[simp] theorem State.headed_banks (s : State) (a : Word) : (s.headed a).banks = s.banks := rfl
@[simp] theorem State.headed_tiles (s : State) (a : Word) : (s.headed a).tiles = s.tiles := rfl
@[simp] theorem State.headed_fabric (s : State) (a : Word) : (s.headed a).fabric = s.fabric := rfl
@[simp] theorem State.headed_poison (s : State) (a : Word) : (s.headed a).poison = s.poison := rfl
@[simp] theorem State.headed_badMem (s : State) (a : Word) : (s.headed a).badMem = s.badMem := rfl
@[simp] theorem State.headed_badNear (s : State) (a : Word) : (s.headed a).badNear = s.badNear := rfl
@[simp] theorem State.headed_frames (s : State) (a : Word) : (s.headed a).frames = s.frames := rfl
@[simp] theorem State.headed_agenda (s : State) (a : Word) : (s.headed a).agenda = s.agenda := rfl
@[simp] theorem State.headed_tick (s : State) (a : Word) : (s.headed a).tick = s.tick := rfl
@[simp] theorem State.headed_free (s : State) (a : Word) : (s.headed a).free = s.free := rfl
@[simp] theorem State.headed_serial (s : State) (a : Word) : (s.headed a).serial = s.serial := rfl
@[simp] theorem State.headed_cur (s : State) (a : Word) : (s.headed a).cur = { s.cur with npc := a } := rfl

/-- Finishing a vector-queue instruction changes at most the current hart. -/
theorem State.finishV_keeps {α : Type} (f : State → α) (s : State)
    (k : ∀ c, f { s with cur := c } = f s) : f (s.finishV) = f s := by
  unfold State.finishV
  split
  · exact k _
  · exact k _

/-- What finishing a vector-queue instruction leaves of the current hart. -/
theorem State.finishV_cur_keeps {α : Type} (f : Hart → α) (s : State)
    (k : ∀ p a q m u d g b r, f { s.cur with pc := p, active := a, vq := q, moved := m, unf := u, send := d, got := g, atBar := b, refault := r } = f s.cur) :
    f s.finishV.cur = f s.cur := by
  unfold State.finishV
  split
  · exact k _ _ _ _ _ _ _ _ _
  · exact k _ _ _ _ _ _ _ _ _

/-! #### State.finishV -/

@[simp] theorem State.finishV_harts (s : State) : (s.finishV).harts = s.harts := State.finishV_keeps State.harts s fun _ => rfl
@[simp] theorem State.finishV_launches (s : State) : (s.finishV).launches = s.launches := State.finishV_keeps State.launches s fun _ => rfl
@[simp] theorem State.finishV_mods (s : State) : (s.finishV).mods = s.mods := State.finishV_keeps State.mods s fun _ => rfl
@[simp] theorem State.finishV_dram (s : State) : (s.finishV).dram = s.dram := State.finishV_keeps State.dram s fun _ => rfl
@[simp] theorem State.finishV_near (s : State) : (s.finishV).near = s.near := State.finishV_keeps State.near s fun _ => rfl
@[simp] theorem State.finishV_l1 (s : State) : (s.finishV).l1 = s.l1 := State.finishV_keeps State.l1 s fun _ => rfl
@[simp] theorem State.finishV_l2 (s : State) : (s.finishV).l2 = s.l2 := State.finishV_keeps State.l2 s fun _ => rfl
@[simp] theorem State.finishV_msc (s : State) : (s.finishV).msc = s.msc := State.finishV_keeps State.msc s fun _ => rfl
@[simp] theorem State.finishV_tlb (s : State) : (s.finishV).tlb = s.tlb := State.finishV_keeps State.tlb s fun _ => rfl
@[simp] theorem State.finishV_ibuf (s : State) : (s.finishV).ibuf = s.ibuf := State.finishV_keeps State.ibuf s fun _ => rfl
@[simp] theorem State.finishV_banks (s : State) : (s.finishV).banks = s.banks := State.finishV_keeps State.banks s fun _ => rfl
@[simp] theorem State.finishV_tiles (s : State) : (s.finishV).tiles = s.tiles := State.finishV_keeps State.tiles s fun _ => rfl
@[simp] theorem State.finishV_fabric (s : State) : (s.finishV).fabric = s.fabric := State.finishV_keeps State.fabric s fun _ => rfl
@[simp] theorem State.finishV_poison (s : State) : (s.finishV).poison = s.poison := State.finishV_keeps State.poison s fun _ => rfl
@[simp] theorem State.finishV_badMem (s : State) : (s.finishV).badMem = s.badMem := State.finishV_keeps State.badMem s fun _ => rfl
@[simp] theorem State.finishV_badNear (s : State) : (s.finishV).badNear = s.badNear := State.finishV_keeps State.badNear s fun _ => rfl
@[simp] theorem State.finishV_frames (s : State) : (s.finishV).frames = s.frames := State.finishV_keeps State.frames s fun _ => rfl
@[simp] theorem State.finishV_agenda (s : State) : (s.finishV).agenda = s.agenda := State.finishV_keeps State.agenda s fun _ => rfl
@[simp] theorem State.finishV_tick (s : State) : (s.finishV).tick = s.tick := State.finishV_keeps State.tick s fun _ => rfl
@[simp] theorem State.finishV_free (s : State) : (s.finishV).free = s.free := State.finishV_keeps State.free s fun _ => rfl
@[simp] theorem State.finishV_serial (s : State) : (s.finishV).serial = s.serial := State.finishV_keeps State.serial s fun _ => rfl
@[simp] theorem State.finishV_cur_id (s : State) : s.finishV.cur.id = s.cur.id := State.finishV_cur_keeps Hart.id s fun _ _ _ _ _ _ _ _ _ => rfl
@[simp] theorem State.finishV_cur_mod (s : State) : s.finishV.cur.mod = s.cur.mod := State.finishV_cur_keeps Hart.mod s fun _ _ _ _ _ _ _ _ _ => rfl
@[simp] theorem State.finishV_cur_phase (s : State) : s.finishV.cur.phase = s.cur.phase := State.finishV_cur_keeps Hart.phase s fun _ _ _ _ _ _ _ _ _ => rfl
@[simp] theorem State.finishV_cur_seat (s : State) : s.finishV.cur.seat = s.cur.seat := State.finishV_cur_keeps Hart.seat s fun _ _ _ _ _ _ _ _ _ => rfl
@[simp] theorem State.finishV_cur_npc (s : State) : s.finishV.cur.npc = s.cur.npc := State.finishV_cur_keeps Hart.npc s fun _ _ _ _ _ _ _ _ _ => rfl
@[simp] theorem State.finishV_cur_head (s : State) : s.finishV.cur.head = s.cur.head := State.finishV_cur_keeps Hart.head s fun _ _ _ _ _ _ _ _ _ => rfl
@[simp] theorem State.finishV_cur_g (s : State) : s.finishV.cur.g = s.cur.g := State.finishV_cur_keeps Hart.g s fun _ _ _ _ _ _ _ _ _ => rfl
@[simp] theorem State.finishV_cur_cfg (s : State) : s.finishV.cur.cfg = s.cur.cfg := State.finishV_cur_keeps Hart.cfg s fun _ _ _ _ _ _ _ _ _ => rfl
@[simp] theorem State.finishV_cur_vec (s : State) : s.finishV.cur.vec = s.cur.vec := State.finishV_cur_keeps Hart.vec s fun _ _ _ _ _ _ _ _ _ => rfl
@[simp] theorem State.finishV_cur_mask (s : State) : s.finishV.cur.mask = s.cur.mask := State.finishV_cur_keeps Hart.mask s fun _ _ _ _ _ _ _ _ _ => rfl
@[simp] theorem State.finishV_cur_stream (s : State) : s.finishV.cur.stream = s.cur.stream := State.finishV_cur_keeps Hart.stream s fun _ _ _ _ _ _ _ _ _ => rfl
@[simp] theorem State.finishV_cur_notice (s : State) : s.finishV.cur.notice = s.cur.notice := State.finishV_cur_keeps Hart.notice s fun _ _ _ _ _ _ _ _ _ => rfl
@[simp] theorem State.finishV_cur_accs (s : State) : s.finishV.cur.accs = s.cur.accs := State.finishV_cur_keeps Hart.accs s fun _ _ _ _ _ _ _ _ _ => rfl
@[simp] theorem State.finishV_cur_aflags (s : State) : s.finishV.cur.aflags = s.cur.aflags := State.finishV_cur_keeps Hart.aflags s fun _ _ _ _ _ _ _ _ _ => rfl
@[simp] theorem State.finishV_cur_atp (s : State) : s.finishV.cur.atp = s.cur.atp := State.finishV_cur_keeps Hart.atp s fun _ _ _ _ _ _ _ _ _ => rfl
@[simp] theorem State.finishV_cur_trap (s : State) : s.finishV.cur.trap = s.cur.trap := State.finishV_cur_keeps Hart.trap s fun _ _ _ _ _ _ _ _ _ => rfl
@[simp] theorem State.finishV_cur_resv (s : State) : s.finishV.cur.resv = s.cur.resv := State.finishV_cur_keeps Hart.resv s fun _ _ _ _ _ _ _ _ _ => rfl
@[simp] theorem State.finishV_cur_event (s : State) : s.finishV.cur.event = s.cur.event := State.finishV_cur_keeps Hart.event s fun _ _ _ _ _ _ _ _ _ => rfl
@[simp] theorem State.finishV_cur_later (s : State) : s.finishV.cur.later = s.cur.later := State.finishV_cur_keeps Hart.later s fun _ _ _ _ _ _ _ _ _ => rfl
@[simp] theorem State.finishV_cur_waitOn (s : State) : s.finishV.cur.waitOn = s.cur.waitOn := State.finishV_cur_keeps Hart.waitOn s fun _ _ _ _ _ _ _ _ _ => rfl
@[simp] theorem State.finishV_cur_waitFrom (s : State) : s.finishV.cur.waitFrom = s.cur.waitFrom := State.finishV_cur_keeps Hart.waitFrom s fun _ _ _ _ _ _ _ _ _ => rfl
@[simp] theorem State.finishV_cur_kheld (s : State) : s.finishV.cur.kheld = s.cur.kheld := State.finishV_cur_keeps Hart.kheld s fun _ _ _ _ _ _ _ _ _ => rfl
@[simp] theorem State.finishV_cur_bars (s : State) : s.finishV.cur.bars = s.cur.bars := State.finishV_cur_keeps Hart.bars s fun _ _ _ _ _ _ _ _ _ => rfl
@[simp] theorem State.finishV_cur_unacked (s : State) : s.finishV.cur.unacked = s.cur.unacked := State.finishV_cur_keeps Hart.unacked s fun _ _ _ _ _ _ _ _ _ => rfl
@[simp] theorem State.finishV_cur_heldFrom (s : State) : s.finishV.cur.heldFrom = s.cur.heldFrom := State.finishV_cur_keeps Hart.heldFrom s fun _ _ _ _ _ _ _ _ _ => rfl
@[simp] theorem State.finishV_cur_quietFrom (s : State) : s.finishV.cur.quietFrom = s.cur.quietFrom := State.finishV_cur_keeps Hart.quietFrom s fun _ _ _ _ _ _ _ _ _ => rfl
@[simp] theorem State.finishV_cur_quietHeld (s : State) : s.finishV.cur.quietHeld = s.cur.quietHeld := State.finishV_cur_keeps Hart.quietHeld s fun _ _ _ _ _ _ _ _ _ => rfl
@[simp] theorem State.finishV_cur_lastShift (s : State) : s.finishV.cur.lastShift = s.cur.lastShift := State.finishV_cur_keeps Hart.lastShift s fun _ _ _ _ _ _ _ _ _ => rfl
@[simp] theorem State.finishV_cur_eager (s : State) : s.finishV.cur.eager = s.cur.eager := State.finishV_cur_keeps Hart.eager s fun _ _ _ _ _ _ _ _ _ => rfl
@[simp] theorem State.finishV_cur_seen (s : State) : s.finishV.cur.seen = s.cur.seen := State.finishV_cur_keeps Hart.seen s fun _ _ _ _ _ _ _ _ _ => rfl
@[simp] theorem State.finishV_cur_needsAct (s : State) : s.finishV.cur.needsAct = s.cur.needsAct := State.finishV_cur_keeps Hart.needsAct s fun _ _ _ _ _ _ _ _ _ => rfl
@[simp] theorem State.finishV_cur_bank (s : State) : s.finishV.cur.bank = s.cur.bank := State.finishV_cur_keeps Hart.bank s fun _ _ _ _ _ _ _ _ _ => rfl
@[simp] theorem State.finishV_cur_bankPoison (s : State) : s.finishV.cur.bankPoison = s.cur.bankPoison := State.finishV_cur_keeps Hart.bankPoison s fun _ _ _ _ _ _ _ _ _ => rfl
@[simp] theorem State.finishV_cur_unf (s : State) : s.finishV.cur.unf = Unfinished.none := by unfold State.finishV; split <;> rfl

/-! #### State.completedV -/

@[simp] theorem State.completedV_harts (s : State) : (s.completedV).harts = s.harts := State.finishV_harts s
@[simp] theorem State.completedV_launches (s : State) : (s.completedV).launches = s.launches := State.finishV_launches s
@[simp] theorem State.completedV_mods (s : State) : (s.completedV).mods = s.mods := State.finishV_mods s
@[simp] theorem State.completedV_dram (s : State) : (s.completedV).dram = s.dram := State.finishV_dram s
@[simp] theorem State.completedV_near (s : State) : (s.completedV).near = s.near := State.finishV_near s
@[simp] theorem State.completedV_l1 (s : State) : (s.completedV).l1 = s.l1 := State.finishV_l1 s
@[simp] theorem State.completedV_l2 (s : State) : (s.completedV).l2 = s.l2 := State.finishV_l2 s
@[simp] theorem State.completedV_msc (s : State) : (s.completedV).msc = s.msc := State.finishV_msc s
@[simp] theorem State.completedV_tlb (s : State) : (s.completedV).tlb = s.tlb := State.finishV_tlb s
@[simp] theorem State.completedV_ibuf (s : State) : (s.completedV).ibuf = s.ibuf := State.finishV_ibuf s
@[simp] theorem State.completedV_banks (s : State) : (s.completedV).banks = s.banks := State.finishV_banks s
@[simp] theorem State.completedV_tiles (s : State) : (s.completedV).tiles = s.tiles := State.finishV_tiles s
@[simp] theorem State.completedV_fabric (s : State) : (s.completedV).fabric = s.fabric := State.finishV_fabric s
@[simp] theorem State.completedV_poison (s : State) : (s.completedV).poison = s.poison := State.finishV_poison s
@[simp] theorem State.completedV_badMem (s : State) : (s.completedV).badMem = s.badMem := State.finishV_badMem s
@[simp] theorem State.completedV_badNear (s : State) : (s.completedV).badNear = s.badNear := State.finishV_badNear s
@[simp] theorem State.completedV_frames (s : State) : (s.completedV).frames = s.frames := State.finishV_frames s
@[simp] theorem State.completedV_agenda (s : State) : (s.completedV).agenda = s.agenda := State.finishV_agenda s
@[simp] theorem State.completedV_tick (s : State) : (s.completedV).tick = s.tick := State.finishV_tick s
@[simp] theorem State.completedV_free (s : State) : (s.completedV).free = s.free := State.finishV_free s
@[simp] theorem State.completedV_serial (s : State) : (s.completedV).serial = s.serial := State.finishV_serial s
@[simp] theorem State.completedV_cur_id (s : State) : s.completedV.cur.id = s.cur.id := State.finishV_cur_id s
@[simp] theorem State.completedV_cur_mod (s : State) : s.completedV.cur.mod = s.cur.mod := State.finishV_cur_mod s
@[simp] theorem State.completedV_cur_seat (s : State) : s.completedV.cur.seat = s.cur.seat := State.finishV_cur_seat s
@[simp] theorem State.completedV_cur_npc (s : State) : s.completedV.cur.npc = s.cur.npc := State.finishV_cur_npc s
@[simp] theorem State.completedV_cur_head (s : State) : s.completedV.cur.head = s.cur.head := State.finishV_cur_head s
@[simp] theorem State.completedV_cur_g (s : State) : s.completedV.cur.g = s.cur.g := State.finishV_cur_g s
@[simp] theorem State.completedV_cur_cfg (s : State) : s.completedV.cur.cfg = s.cur.cfg := State.finishV_cur_cfg s
@[simp] theorem State.completedV_cur_vec (s : State) : s.completedV.cur.vec = s.cur.vec := State.finishV_cur_vec s
@[simp] theorem State.completedV_cur_mask (s : State) : s.completedV.cur.mask = s.cur.mask := State.finishV_cur_mask s
@[simp] theorem State.completedV_cur_stream (s : State) : s.completedV.cur.stream = s.cur.stream := State.finishV_cur_stream s
@[simp] theorem State.completedV_cur_notice (s : State) : s.completedV.cur.notice = s.cur.notice := State.finishV_cur_notice s
@[simp] theorem State.completedV_cur_accs (s : State) : s.completedV.cur.accs = s.cur.accs := State.finishV_cur_accs s
@[simp] theorem State.completedV_cur_aflags (s : State) : s.completedV.cur.aflags = s.cur.aflags := State.finishV_cur_aflags s
@[simp] theorem State.completedV_cur_atp (s : State) : s.completedV.cur.atp = s.cur.atp := State.finishV_cur_atp s
@[simp] theorem State.completedV_cur_trap (s : State) : s.completedV.cur.trap = s.cur.trap := State.finishV_cur_trap s
@[simp] theorem State.completedV_cur_resv (s : State) : s.completedV.cur.resv = s.cur.resv := State.finishV_cur_resv s
@[simp] theorem State.completedV_cur_event (s : State) : s.completedV.cur.event = s.cur.event := State.finishV_cur_event s
@[simp] theorem State.completedV_cur_later (s : State) : s.completedV.cur.later = s.cur.later := State.finishV_cur_later s
@[simp] theorem State.completedV_cur_waitFrom (s : State) : s.completedV.cur.waitFrom = s.cur.waitFrom := State.finishV_cur_waitFrom s
@[simp] theorem State.completedV_cur_bars (s : State) : s.completedV.cur.bars = s.cur.bars := State.finishV_cur_bars s
@[simp] theorem State.completedV_cur_unacked (s : State) : s.completedV.cur.unacked = s.cur.unacked := State.finishV_cur_unacked s
@[simp] theorem State.completedV_cur_lastShift (s : State) : s.completedV.cur.lastShift = s.cur.lastShift := State.finishV_cur_lastShift s
@[simp] theorem State.completedV_cur_eager (s : State) : s.completedV.cur.eager = s.cur.eager := State.finishV_cur_eager s
@[simp] theorem State.completedV_cur_seen (s : State) : s.completedV.cur.seen = s.cur.seen := State.finishV_cur_seen s
@[simp] theorem State.completedV_cur_needsAct (s : State) : s.completedV.cur.needsAct = s.cur.needsAct := State.finishV_cur_needsAct s
@[simp] theorem State.completedV_cur_bank (s : State) : s.completedV.cur.bank = s.cur.bank := State.finishV_cur_bank s
@[simp] theorem State.completedV_cur_bankPoison (s : State) : s.completedV.cur.bankPoison = s.cur.bankPoison := State.finishV_cur_bankPoison s

/-! #### State.atHead -/

@[simp] theorem State.atHead_harts (s : State) (x : Half) : (s.atHead x).harts = s.harts := rfl
@[simp] theorem State.atHead_launches (s : State) (x : Half) : (s.atHead x).launches = s.launches := rfl
@[simp] theorem State.atHead_mods (s : State) (x : Half) : (s.atHead x).mods = s.mods := rfl
@[simp] theorem State.atHead_dram (s : State) (x : Half) : (s.atHead x).dram = s.dram := rfl
@[simp] theorem State.atHead_near (s : State) (x : Half) : (s.atHead x).near = s.near := rfl
@[simp] theorem State.atHead_l1 (s : State) (x : Half) : (s.atHead x).l1 = s.l1 := rfl
@[simp] theorem State.atHead_l2 (s : State) (x : Half) : (s.atHead x).l2 = s.l2 := rfl
@[simp] theorem State.atHead_msc (s : State) (x : Half) : (s.atHead x).msc = s.msc := rfl
@[simp] theorem State.atHead_tlb (s : State) (x : Half) : (s.atHead x).tlb = s.tlb := rfl
@[simp] theorem State.atHead_ibuf (s : State) (x : Half) : (s.atHead x).ibuf = s.ibuf := rfl
@[simp] theorem State.atHead_banks (s : State) (x : Half) : (s.atHead x).banks = s.banks := rfl
@[simp] theorem State.atHead_tiles (s : State) (x : Half) : (s.atHead x).tiles = s.tiles := rfl
@[simp] theorem State.atHead_fabric (s : State) (x : Half) : (s.atHead x).fabric = s.fabric := rfl
@[simp] theorem State.atHead_poison (s : State) (x : Half) : (s.atHead x).poison = s.poison := rfl
@[simp] theorem State.atHead_badMem (s : State) (x : Half) : (s.atHead x).badMem = s.badMem := rfl
@[simp] theorem State.atHead_badNear (s : State) (x : Half) : (s.atHead x).badNear = s.badNear := rfl
@[simp] theorem State.atHead_frames (s : State) (x : Half) : (s.atHead x).frames = s.frames := rfl
@[simp] theorem State.atHead_agenda (s : State) (x : Half) : (s.atHead x).agenda = s.agenda := rfl
@[simp] theorem State.atHead_tick (s : State) (x : Half) : (s.atHead x).tick = s.tick := rfl
@[simp] theorem State.atHead_free (s : State) (x : Half) : (s.atHead x).free = s.free := rfl
@[simp] theorem State.atHead_serial (s : State) (x : Half) : (s.atHead x).serial = s.serial := rfl

/-! #### State.putTile -/

@[simp] theorem State.putTile_cur (s : State) (r : TileRef) (x : Tile) : (s.putTile r x).cur = s.cur := rfl
@[simp] theorem State.putTile_harts (s : State) (r : TileRef) (x : Tile) : (s.putTile r x).harts = s.harts := rfl
@[simp] theorem State.putTile_launches (s : State) (r : TileRef) (x : Tile) : (s.putTile r x).launches = s.launches := rfl
@[simp] theorem State.putTile_mods (s : State) (r : TileRef) (x : Tile) : (s.putTile r x).mods = s.mods := rfl
@[simp] theorem State.putTile_dram (s : State) (r : TileRef) (x : Tile) : (s.putTile r x).dram = s.dram := rfl
@[simp] theorem State.putTile_near (s : State) (r : TileRef) (x : Tile) : (s.putTile r x).near = s.near := rfl
@[simp] theorem State.putTile_l1 (s : State) (r : TileRef) (x : Tile) : (s.putTile r x).l1 = s.l1 := rfl
@[simp] theorem State.putTile_l2 (s : State) (r : TileRef) (x : Tile) : (s.putTile r x).l2 = s.l2 := rfl
@[simp] theorem State.putTile_msc (s : State) (r : TileRef) (x : Tile) : (s.putTile r x).msc = s.msc := rfl
@[simp] theorem State.putTile_tlb (s : State) (r : TileRef) (x : Tile) : (s.putTile r x).tlb = s.tlb := rfl
@[simp] theorem State.putTile_ibuf (s : State) (r : TileRef) (x : Tile) : (s.putTile r x).ibuf = s.ibuf := rfl
@[simp] theorem State.putTile_banks (s : State) (r : TileRef) (x : Tile) : (s.putTile r x).banks = s.banks := rfl
@[simp] theorem State.putTile_fabric (s : State) (r : TileRef) (x : Tile) : (s.putTile r x).fabric = s.fabric := rfl
@[simp] theorem State.putTile_poison (s : State) (r : TileRef) (x : Tile) : (s.putTile r x).poison = s.poison := rfl
@[simp] theorem State.putTile_badMem (s : State) (r : TileRef) (x : Tile) : (s.putTile r x).badMem = s.badMem := rfl
@[simp] theorem State.putTile_badNear (s : State) (r : TileRef) (x : Tile) : (s.putTile r x).badNear = s.badNear := rfl
@[simp] theorem State.putTile_frames (s : State) (r : TileRef) (x : Tile) : (s.putTile r x).frames = s.frames := rfl
@[simp] theorem State.putTile_agenda (s : State) (r : TileRef) (x : Tile) : (s.putTile r x).agenda = s.agenda := rfl
@[simp] theorem State.putTile_tick (s : State) (r : TileRef) (x : Tile) : (s.putTile r x).tick = s.tick := rfl
@[simp] theorem State.putTile_free (s : State) (r : TileRef) (x : Tile) : (s.putTile r x).free = s.free := rfl
@[simp] theorem State.putTile_serial (s : State) (r : TileRef) (x : Tile) : (s.putTile r x).serial = s.serial := rfl

/-! #### State.onHarts -/

@[simp] theorem State.onHarts_launches (s : State) (p : Hart → Bool) (f : Hart → Hart) : (s.onHarts p f).launches = s.launches := rfl
@[simp] theorem State.onHarts_mods (s : State) (p : Hart → Bool) (f : Hart → Hart) : (s.onHarts p f).mods = s.mods := rfl
@[simp] theorem State.onHarts_dram (s : State) (p : Hart → Bool) (f : Hart → Hart) : (s.onHarts p f).dram = s.dram := rfl
@[simp] theorem State.onHarts_near (s : State) (p : Hart → Bool) (f : Hart → Hart) : (s.onHarts p f).near = s.near := rfl
@[simp] theorem State.onHarts_l1 (s : State) (p : Hart → Bool) (f : Hart → Hart) : (s.onHarts p f).l1 = s.l1 := rfl
@[simp] theorem State.onHarts_l2 (s : State) (p : Hart → Bool) (f : Hart → Hart) : (s.onHarts p f).l2 = s.l2 := rfl
@[simp] theorem State.onHarts_msc (s : State) (p : Hart → Bool) (f : Hart → Hart) : (s.onHarts p f).msc = s.msc := rfl
@[simp] theorem State.onHarts_tlb (s : State) (p : Hart → Bool) (f : Hart → Hart) : (s.onHarts p f).tlb = s.tlb := rfl
@[simp] theorem State.onHarts_ibuf (s : State) (p : Hart → Bool) (f : Hart → Hart) : (s.onHarts p f).ibuf = s.ibuf := rfl
@[simp] theorem State.onHarts_banks (s : State) (p : Hart → Bool) (f : Hart → Hart) : (s.onHarts p f).banks = s.banks := rfl
@[simp] theorem State.onHarts_tiles (s : State) (p : Hart → Bool) (f : Hart → Hart) : (s.onHarts p f).tiles = s.tiles := rfl
@[simp] theorem State.onHarts_fabric (s : State) (p : Hart → Bool) (f : Hart → Hart) : (s.onHarts p f).fabric = s.fabric := rfl
@[simp] theorem State.onHarts_poison (s : State) (p : Hart → Bool) (f : Hart → Hart) : (s.onHarts p f).poison = s.poison := rfl
@[simp] theorem State.onHarts_badMem (s : State) (p : Hart → Bool) (f : Hart → Hart) : (s.onHarts p f).badMem = s.badMem := rfl
@[simp] theorem State.onHarts_badNear (s : State) (p : Hart → Bool) (f : Hart → Hart) : (s.onHarts p f).badNear = s.badNear := rfl
@[simp] theorem State.onHarts_frames (s : State) (p : Hart → Bool) (f : Hart → Hart) : (s.onHarts p f).frames = s.frames := rfl
@[simp] theorem State.onHarts_agenda (s : State) (p : Hart → Bool) (f : Hart → Hart) : (s.onHarts p f).agenda = s.agenda := rfl
@[simp] theorem State.onHarts_tick (s : State) (p : Hart → Bool) (f : Hart → Hart) : (s.onHarts p f).tick = s.tick := rfl
@[simp] theorem State.onHarts_free (s : State) (p : Hart → Bool) (f : Hart → Hart) : (s.onHarts p f).free = s.free := rfl
@[simp] theorem State.onHarts_serial (s : State) (p : Hart → Bool) (f : Hart → Hart) : (s.onHarts p f).serial = s.serial := rfl

/-! #### State.onHart -/

@[simp] theorem State.onHart_launches (s : State) (i : HartId) (f : Hart → Hart) : (s.onHart i f).launches = s.launches := rfl
@[simp] theorem State.onHart_mods (s : State) (i : HartId) (f : Hart → Hart) : (s.onHart i f).mods = s.mods := rfl
@[simp] theorem State.onHart_dram (s : State) (i : HartId) (f : Hart → Hart) : (s.onHart i f).dram = s.dram := rfl
@[simp] theorem State.onHart_near (s : State) (i : HartId) (f : Hart → Hart) : (s.onHart i f).near = s.near := rfl
@[simp] theorem State.onHart_l1 (s : State) (i : HartId) (f : Hart → Hart) : (s.onHart i f).l1 = s.l1 := rfl
@[simp] theorem State.onHart_l2 (s : State) (i : HartId) (f : Hart → Hart) : (s.onHart i f).l2 = s.l2 := rfl
@[simp] theorem State.onHart_msc (s : State) (i : HartId) (f : Hart → Hart) : (s.onHart i f).msc = s.msc := rfl
@[simp] theorem State.onHart_tlb (s : State) (i : HartId) (f : Hart → Hart) : (s.onHart i f).tlb = s.tlb := rfl
@[simp] theorem State.onHart_ibuf (s : State) (i : HartId) (f : Hart → Hart) : (s.onHart i f).ibuf = s.ibuf := rfl
@[simp] theorem State.onHart_banks (s : State) (i : HartId) (f : Hart → Hart) : (s.onHart i f).banks = s.banks := rfl
@[simp] theorem State.onHart_tiles (s : State) (i : HartId) (f : Hart → Hart) : (s.onHart i f).tiles = s.tiles := rfl
@[simp] theorem State.onHart_fabric (s : State) (i : HartId) (f : Hart → Hart) : (s.onHart i f).fabric = s.fabric := rfl
@[simp] theorem State.onHart_poison (s : State) (i : HartId) (f : Hart → Hart) : (s.onHart i f).poison = s.poison := rfl
@[simp] theorem State.onHart_badMem (s : State) (i : HartId) (f : Hart → Hart) : (s.onHart i f).badMem = s.badMem := rfl
@[simp] theorem State.onHart_badNear (s : State) (i : HartId) (f : Hart → Hart) : (s.onHart i f).badNear = s.badNear := rfl
@[simp] theorem State.onHart_frames (s : State) (i : HartId) (f : Hart → Hart) : (s.onHart i f).frames = s.frames := rfl
@[simp] theorem State.onHart_agenda (s : State) (i : HartId) (f : Hart → Hart) : (s.onHart i f).agenda = s.agenda := rfl
@[simp] theorem State.onHart_tick (s : State) (i : HartId) (f : Hart → Hart) : (s.onHart i f).tick = s.tick := rfl
@[simp] theorem State.onHart_free (s : State) (i : HartId) (f : Hart → Hart) : (s.onHart i f).free = s.free := rfl
@[simp] theorem State.onHart_serial (s : State) (i : HartId) (f : Hart → Hart) : (s.onHart i f).serial = s.serial := rfl

/-! #### State.onMod -/

@[simp] theorem State.onMod_cur (s : State) (m : Nat) (f : Module → Module) : (s.onMod m f).cur = s.cur := State.onMod_keeps State.cur s m f fun _ => rfl
@[simp] theorem State.onMod_harts (s : State) (m : Nat) (f : Module → Module) : (s.onMod m f).harts = s.harts := State.onMod_keeps State.harts s m f fun _ => rfl
@[simp] theorem State.onMod_launches (s : State) (m : Nat) (f : Module → Module) : (s.onMod m f).launches = s.launches := State.onMod_keeps State.launches s m f fun _ => rfl
@[simp] theorem State.onMod_dram (s : State) (m : Nat) (f : Module → Module) : (s.onMod m f).dram = s.dram := State.onMod_keeps State.dram s m f fun _ => rfl
@[simp] theorem State.onMod_near (s : State) (m : Nat) (f : Module → Module) : (s.onMod m f).near = s.near := State.onMod_keeps State.near s m f fun _ => rfl
@[simp] theorem State.onMod_l1 (s : State) (m : Nat) (f : Module → Module) : (s.onMod m f).l1 = s.l1 := State.onMod_keeps State.l1 s m f fun _ => rfl
@[simp] theorem State.onMod_l2 (s : State) (m : Nat) (f : Module → Module) : (s.onMod m f).l2 = s.l2 := State.onMod_keeps State.l2 s m f fun _ => rfl
@[simp] theorem State.onMod_msc (s : State) (m : Nat) (f : Module → Module) : (s.onMod m f).msc = s.msc := State.onMod_keeps State.msc s m f fun _ => rfl
@[simp] theorem State.onMod_tlb (s : State) (m : Nat) (f : Module → Module) : (s.onMod m f).tlb = s.tlb := State.onMod_keeps State.tlb s m f fun _ => rfl
@[simp] theorem State.onMod_ibuf (s : State) (m : Nat) (f : Module → Module) : (s.onMod m f).ibuf = s.ibuf := State.onMod_keeps State.ibuf s m f fun _ => rfl
@[simp] theorem State.onMod_banks (s : State) (m : Nat) (f : Module → Module) : (s.onMod m f).banks = s.banks := State.onMod_keeps State.banks s m f fun _ => rfl
@[simp] theorem State.onMod_tiles (s : State) (m : Nat) (f : Module → Module) : (s.onMod m f).tiles = s.tiles := State.onMod_keeps State.tiles s m f fun _ => rfl
@[simp] theorem State.onMod_fabric (s : State) (m : Nat) (f : Module → Module) : (s.onMod m f).fabric = s.fabric := State.onMod_keeps State.fabric s m f fun _ => rfl
@[simp] theorem State.onMod_poison (s : State) (m : Nat) (f : Module → Module) : (s.onMod m f).poison = s.poison := State.onMod_keeps State.poison s m f fun _ => rfl
@[simp] theorem State.onMod_badMem (s : State) (m : Nat) (f : Module → Module) : (s.onMod m f).badMem = s.badMem := State.onMod_keeps State.badMem s m f fun _ => rfl
@[simp] theorem State.onMod_badNear (s : State) (m : Nat) (f : Module → Module) : (s.onMod m f).badNear = s.badNear := State.onMod_keeps State.badNear s m f fun _ => rfl
@[simp] theorem State.onMod_frames (s : State) (m : Nat) (f : Module → Module) : (s.onMod m f).frames = s.frames := State.onMod_keeps State.frames s m f fun _ => rfl
@[simp] theorem State.onMod_agenda (s : State) (m : Nat) (f : Module → Module) : (s.onMod m f).agenda = s.agenda := State.onMod_keeps State.agenda s m f fun _ => rfl
@[simp] theorem State.onMod_tick (s : State) (m : Nat) (f : Module → Module) : (s.onMod m f).tick = s.tick := State.onMod_keeps State.tick s m f fun _ => rfl
@[simp] theorem State.onMod_free (s : State) (m : Nat) (f : Module → Module) : (s.onMod m f).free = s.free := State.onMod_keeps State.free s m f fun _ => rfl
@[simp] theorem State.onMod_serial (s : State) (m : Nat) (f : Module → Module) : (s.onMod m f).serial = s.serial := State.onMod_keeps State.serial s m f fun _ => rfl

/-- Dropping a message changes at most the messages and the modules. -/
theorem State.dropMsg_keeps {α : Type} (f : State → α) (s : State) (n : Nat)
    (k : ∀ x y, f { s with fabric := x, mods := y } = f s) : f (s.dropMsg n) = f s := by
  unfold State.dropMsg
  simp only
  split
  · exact (State.onMod_keeps f { s with fabric := s.fabric.eraseIdx n } _ _ fun y => (k _ y).trans (k _ s.mods).symm).trans (k _ _)
  · exact k _ _

/-! #### State.dropMsg -/

@[simp] theorem State.dropMsg_cur (s : State) (n : Nat) : (s.dropMsg n).cur = s.cur := State.dropMsg_keeps State.cur s n fun _ _ => rfl
@[simp] theorem State.dropMsg_harts (s : State) (n : Nat) : (s.dropMsg n).harts = s.harts := State.dropMsg_keeps State.harts s n fun _ _ => rfl
@[simp] theorem State.dropMsg_launches (s : State) (n : Nat) : (s.dropMsg n).launches = s.launches := State.dropMsg_keeps State.launches s n fun _ _ => rfl
@[simp] theorem State.dropMsg_dram (s : State) (n : Nat) : (s.dropMsg n).dram = s.dram := State.dropMsg_keeps State.dram s n fun _ _ => rfl
@[simp] theorem State.dropMsg_near (s : State) (n : Nat) : (s.dropMsg n).near = s.near := State.dropMsg_keeps State.near s n fun _ _ => rfl
@[simp] theorem State.dropMsg_l1 (s : State) (n : Nat) : (s.dropMsg n).l1 = s.l1 := State.dropMsg_keeps State.l1 s n fun _ _ => rfl
@[simp] theorem State.dropMsg_l2 (s : State) (n : Nat) : (s.dropMsg n).l2 = s.l2 := State.dropMsg_keeps State.l2 s n fun _ _ => rfl
@[simp] theorem State.dropMsg_msc (s : State) (n : Nat) : (s.dropMsg n).msc = s.msc := State.dropMsg_keeps State.msc s n fun _ _ => rfl
@[simp] theorem State.dropMsg_tlb (s : State) (n : Nat) : (s.dropMsg n).tlb = s.tlb := State.dropMsg_keeps State.tlb s n fun _ _ => rfl
@[simp] theorem State.dropMsg_ibuf (s : State) (n : Nat) : (s.dropMsg n).ibuf = s.ibuf := State.dropMsg_keeps State.ibuf s n fun _ _ => rfl
@[simp] theorem State.dropMsg_banks (s : State) (n : Nat) : (s.dropMsg n).banks = s.banks := State.dropMsg_keeps State.banks s n fun _ _ => rfl
@[simp] theorem State.dropMsg_tiles (s : State) (n : Nat) : (s.dropMsg n).tiles = s.tiles := State.dropMsg_keeps State.tiles s n fun _ _ => rfl
@[simp] theorem State.dropMsg_poison (s : State) (n : Nat) : (s.dropMsg n).poison = s.poison := State.dropMsg_keeps State.poison s n fun _ _ => rfl
@[simp] theorem State.dropMsg_badMem (s : State) (n : Nat) : (s.dropMsg n).badMem = s.badMem := State.dropMsg_keeps State.badMem s n fun _ _ => rfl
@[simp] theorem State.dropMsg_badNear (s : State) (n : Nat) : (s.dropMsg n).badNear = s.badNear := State.dropMsg_keeps State.badNear s n fun _ _ => rfl
@[simp] theorem State.dropMsg_frames (s : State) (n : Nat) : (s.dropMsg n).frames = s.frames := State.dropMsg_keeps State.frames s n fun _ _ => rfl
@[simp] theorem State.dropMsg_agenda (s : State) (n : Nat) : (s.dropMsg n).agenda = s.agenda := State.dropMsg_keeps State.agenda s n fun _ _ => rfl
@[simp] theorem State.dropMsg_tick (s : State) (n : Nat) : (s.dropMsg n).tick = s.tick := State.dropMsg_keeps State.tick s n fun _ _ => rfl
@[simp] theorem State.dropMsg_free (s : State) (n : Nat) : (s.dropMsg n).free = s.free := State.dropMsg_keeps State.free s n fun _ _ => rfl
@[simp] theorem State.dropMsg_serial (s : State) (n : Nat) : (s.dropMsg n).serial = s.serial := State.dropMsg_keeps State.serial s n fun _ _ => rfl
@[simp] theorem State.dropMsg_fabric (s : State) (n : Nat) : (s.dropMsg n).fabric = s.fabric.eraseIdx n := by unfold State.dropMsg; simp only; split <;> simp [State.heard]

/-- A change of a launch changes no other field. -/
theorem State.onLaunch_keeps {α : Type} (f : State → α) (s : State) (l : Nat) (g : Launch → Launch)
    (k : ∀ x, f { s with launches := x } = f s) : f (s.onLaunch l g) = f s := by
  unfold State.onLaunch
  split
  · exact k _
  · rfl

/-! #### State.onLaunch -/

@[simp] theorem State.onLaunch_cur (s : State) (l : Nat) (f : Launch → Launch) : (s.onLaunch l f).cur = s.cur := State.onLaunch_keeps State.cur s l f fun _ => rfl
@[simp] theorem State.onLaunch_harts (s : State) (l : Nat) (f : Launch → Launch) : (s.onLaunch l f).harts = s.harts := State.onLaunch_keeps State.harts s l f fun _ => rfl
@[simp] theorem State.onLaunch_mods (s : State) (l : Nat) (f : Launch → Launch) : (s.onLaunch l f).mods = s.mods := State.onLaunch_keeps State.mods s l f fun _ => rfl
@[simp] theorem State.onLaunch_dram (s : State) (l : Nat) (f : Launch → Launch) : (s.onLaunch l f).dram = s.dram := State.onLaunch_keeps State.dram s l f fun _ => rfl
@[simp] theorem State.onLaunch_near (s : State) (l : Nat) (f : Launch → Launch) : (s.onLaunch l f).near = s.near := State.onLaunch_keeps State.near s l f fun _ => rfl
@[simp] theorem State.onLaunch_l1 (s : State) (l : Nat) (f : Launch → Launch) : (s.onLaunch l f).l1 = s.l1 := State.onLaunch_keeps State.l1 s l f fun _ => rfl
@[simp] theorem State.onLaunch_l2 (s : State) (l : Nat) (f : Launch → Launch) : (s.onLaunch l f).l2 = s.l2 := State.onLaunch_keeps State.l2 s l f fun _ => rfl
@[simp] theorem State.onLaunch_msc (s : State) (l : Nat) (f : Launch → Launch) : (s.onLaunch l f).msc = s.msc := State.onLaunch_keeps State.msc s l f fun _ => rfl
@[simp] theorem State.onLaunch_tlb (s : State) (l : Nat) (f : Launch → Launch) : (s.onLaunch l f).tlb = s.tlb := State.onLaunch_keeps State.tlb s l f fun _ => rfl
@[simp] theorem State.onLaunch_ibuf (s : State) (l : Nat) (f : Launch → Launch) : (s.onLaunch l f).ibuf = s.ibuf := State.onLaunch_keeps State.ibuf s l f fun _ => rfl
@[simp] theorem State.onLaunch_banks (s : State) (l : Nat) (f : Launch → Launch) : (s.onLaunch l f).banks = s.banks := State.onLaunch_keeps State.banks s l f fun _ => rfl
@[simp] theorem State.onLaunch_tiles (s : State) (l : Nat) (f : Launch → Launch) : (s.onLaunch l f).tiles = s.tiles := State.onLaunch_keeps State.tiles s l f fun _ => rfl
@[simp] theorem State.onLaunch_fabric (s : State) (l : Nat) (f : Launch → Launch) : (s.onLaunch l f).fabric = s.fabric := State.onLaunch_keeps State.fabric s l f fun _ => rfl
@[simp] theorem State.onLaunch_poison (s : State) (l : Nat) (f : Launch → Launch) : (s.onLaunch l f).poison = s.poison := State.onLaunch_keeps State.poison s l f fun _ => rfl
@[simp] theorem State.onLaunch_badMem (s : State) (l : Nat) (f : Launch → Launch) : (s.onLaunch l f).badMem = s.badMem := State.onLaunch_keeps State.badMem s l f fun _ => rfl
@[simp] theorem State.onLaunch_badNear (s : State) (l : Nat) (f : Launch → Launch) : (s.onLaunch l f).badNear = s.badNear := State.onLaunch_keeps State.badNear s l f fun _ => rfl
@[simp] theorem State.onLaunch_frames (s : State) (l : Nat) (f : Launch → Launch) : (s.onLaunch l f).frames = s.frames := State.onLaunch_keeps State.frames s l f fun _ => rfl
@[simp] theorem State.onLaunch_agenda (s : State) (l : Nat) (f : Launch → Launch) : (s.onLaunch l f).agenda = s.agenda := State.onLaunch_keeps State.agenda s l f fun _ => rfl
@[simp] theorem State.onLaunch_tick (s : State) (l : Nat) (f : Launch → Launch) : (s.onLaunch l f).tick = s.tick := State.onLaunch_keeps State.tick s l f fun _ => rfl
@[simp] theorem State.onLaunch_free (s : State) (l : Nat) (f : Launch → Launch) : (s.onLaunch l f).free = s.free := State.onLaunch_keeps State.free s l f fun _ => rfl
@[simp] theorem State.onLaunch_serial (s : State) (l : Nat) (f : Launch → Launch) : (s.onLaunch l f).serial = s.serial := State.onLaunch_keeps State.serial s l f fun _ => rfl

/-! #### State.onShare -/

@[simp] theorem State.onShare_cur (s : State) (l r : Nat) (f : Share → Share) : (s.onShare l r f).cur = s.cur := State.onLaunch_keeps State.cur s l _ fun _ => rfl
@[simp] theorem State.onShare_harts (s : State) (l r : Nat) (f : Share → Share) : (s.onShare l r f).harts = s.harts := State.onLaunch_keeps State.harts s l _ fun _ => rfl
@[simp] theorem State.onShare_mods (s : State) (l r : Nat) (f : Share → Share) : (s.onShare l r f).mods = s.mods := State.onLaunch_keeps State.mods s l _ fun _ => rfl
@[simp] theorem State.onShare_dram (s : State) (l r : Nat) (f : Share → Share) : (s.onShare l r f).dram = s.dram := State.onLaunch_keeps State.dram s l _ fun _ => rfl
@[simp] theorem State.onShare_near (s : State) (l r : Nat) (f : Share → Share) : (s.onShare l r f).near = s.near := State.onLaunch_keeps State.near s l _ fun _ => rfl
@[simp] theorem State.onShare_l1 (s : State) (l r : Nat) (f : Share → Share) : (s.onShare l r f).l1 = s.l1 := State.onLaunch_keeps State.l1 s l _ fun _ => rfl
@[simp] theorem State.onShare_l2 (s : State) (l r : Nat) (f : Share → Share) : (s.onShare l r f).l2 = s.l2 := State.onLaunch_keeps State.l2 s l _ fun _ => rfl
@[simp] theorem State.onShare_msc (s : State) (l r : Nat) (f : Share → Share) : (s.onShare l r f).msc = s.msc := State.onLaunch_keeps State.msc s l _ fun _ => rfl
@[simp] theorem State.onShare_tlb (s : State) (l r : Nat) (f : Share → Share) : (s.onShare l r f).tlb = s.tlb := State.onLaunch_keeps State.tlb s l _ fun _ => rfl
@[simp] theorem State.onShare_ibuf (s : State) (l r : Nat) (f : Share → Share) : (s.onShare l r f).ibuf = s.ibuf := State.onLaunch_keeps State.ibuf s l _ fun _ => rfl
@[simp] theorem State.onShare_banks (s : State) (l r : Nat) (f : Share → Share) : (s.onShare l r f).banks = s.banks := State.onLaunch_keeps State.banks s l _ fun _ => rfl
@[simp] theorem State.onShare_tiles (s : State) (l r : Nat) (f : Share → Share) : (s.onShare l r f).tiles = s.tiles := State.onLaunch_keeps State.tiles s l _ fun _ => rfl
@[simp] theorem State.onShare_fabric (s : State) (l r : Nat) (f : Share → Share) : (s.onShare l r f).fabric = s.fabric := State.onLaunch_keeps State.fabric s l _ fun _ => rfl
@[simp] theorem State.onShare_poison (s : State) (l r : Nat) (f : Share → Share) : (s.onShare l r f).poison = s.poison := State.onLaunch_keeps State.poison s l _ fun _ => rfl
@[simp] theorem State.onShare_badMem (s : State) (l r : Nat) (f : Share → Share) : (s.onShare l r f).badMem = s.badMem := State.onLaunch_keeps State.badMem s l _ fun _ => rfl
@[simp] theorem State.onShare_badNear (s : State) (l r : Nat) (f : Share → Share) : (s.onShare l r f).badNear = s.badNear := State.onLaunch_keeps State.badNear s l _ fun _ => rfl
@[simp] theorem State.onShare_frames (s : State) (l r : Nat) (f : Share → Share) : (s.onShare l r f).frames = s.frames := State.onLaunch_keeps State.frames s l _ fun _ => rfl
@[simp] theorem State.onShare_agenda (s : State) (l r : Nat) (f : Share → Share) : (s.onShare l r f).agenda = s.agenda := State.onLaunch_keeps State.agenda s l _ fun _ => rfl
@[simp] theorem State.onShare_tick (s : State) (l r : Nat) (f : Share → Share) : (s.onShare l r f).tick = s.tick := State.onLaunch_keeps State.tick s l _ fun _ => rfl
@[simp] theorem State.onShare_free (s : State) (l r : Nat) (f : Share → Share) : (s.onShare l r f).free = s.free := State.onLaunch_keeps State.free s l _ fun _ => rfl
@[simp] theorem State.onShare_serial (s : State) (l r : Nat) (f : Share → Share) : (s.onShare l r f).serial = s.serial := State.onLaunch_keeps State.serial s l _ fun _ => rfl

/-! #### breakResvs -/

@[simp] theorem breakResvs_launches (s : State) (a n : Nat) : (breakResvs s a n).launches = s.launches := rfl
@[simp] theorem breakResvs_mods (s : State) (a n : Nat) : (breakResvs s a n).mods = s.mods := rfl
@[simp] theorem breakResvs_dram (s : State) (a n : Nat) : (breakResvs s a n).dram = s.dram := rfl
@[simp] theorem breakResvs_near (s : State) (a n : Nat) : (breakResvs s a n).near = s.near := rfl
@[simp] theorem breakResvs_l1 (s : State) (a n : Nat) : (breakResvs s a n).l1 = s.l1 := rfl
@[simp] theorem breakResvs_l2 (s : State) (a n : Nat) : (breakResvs s a n).l2 = s.l2 := rfl
@[simp] theorem breakResvs_msc (s : State) (a n : Nat) : (breakResvs s a n).msc = s.msc := rfl
@[simp] theorem breakResvs_tlb (s : State) (a n : Nat) : (breakResvs s a n).tlb = s.tlb := rfl
@[simp] theorem breakResvs_ibuf (s : State) (a n : Nat) : (breakResvs s a n).ibuf = s.ibuf := rfl
@[simp] theorem breakResvs_banks (s : State) (a n : Nat) : (breakResvs s a n).banks = s.banks := rfl
@[simp] theorem breakResvs_tiles (s : State) (a n : Nat) : (breakResvs s a n).tiles = s.tiles := rfl
@[simp] theorem breakResvs_fabric (s : State) (a n : Nat) : (breakResvs s a n).fabric = s.fabric := rfl
@[simp] theorem breakResvs_poison (s : State) (a n : Nat) : (breakResvs s a n).poison = s.poison := rfl
@[simp] theorem breakResvs_badMem (s : State) (a n : Nat) : (breakResvs s a n).badMem = s.badMem := rfl
@[simp] theorem breakResvs_badNear (s : State) (a n : Nat) : (breakResvs s a n).badNear = s.badNear := rfl
@[simp] theorem breakResvs_frames (s : State) (a n : Nat) : (breakResvs s a n).frames = s.frames := rfl
@[simp] theorem breakResvs_agenda (s : State) (a n : Nat) : (breakResvs s a n).agenda = s.agenda := rfl
@[simp] theorem breakResvs_tick (s : State) (a n : Nat) : (breakResvs s a n).tick = s.tick := rfl
@[simp] theorem breakResvs_free (s : State) (a n : Nat) : (breakResvs s a n).free = s.free := rfl
@[simp] theorem breakResvs_serial (s : State) (a n : Nat) : (breakResvs s a n).serial = s.serial := rfl

/-! #### State.stow -/

@[simp] theorem State.stow_harts (s : State) : (s.stow).harts = s.harts := rfl
@[simp] theorem State.stow_launches (s : State) : (s.stow).launches = s.launches := rfl
@[simp] theorem State.stow_mods (s : State) : (s.stow).mods = s.mods := rfl
@[simp] theorem State.stow_dram (s : State) : (s.stow).dram = s.dram := rfl
@[simp] theorem State.stow_near (s : State) : (s.stow).near = s.near := rfl
@[simp] theorem State.stow_l1 (s : State) : (s.stow).l1 = s.l1 := rfl
@[simp] theorem State.stow_l2 (s : State) : (s.stow).l2 = s.l2 := rfl
@[simp] theorem State.stow_msc (s : State) : (s.stow).msc = s.msc := rfl
@[simp] theorem State.stow_tlb (s : State) : (s.stow).tlb = s.tlb := rfl
@[simp] theorem State.stow_ibuf (s : State) : (s.stow).ibuf = s.ibuf := rfl
@[simp] theorem State.stow_tiles (s : State) : (s.stow).tiles = s.tiles := rfl
@[simp] theorem State.stow_fabric (s : State) : (s.stow).fabric = s.fabric := rfl
@[simp] theorem State.stow_badMem (s : State) : (s.stow).badMem = s.badMem := rfl
@[simp] theorem State.stow_badNear (s : State) : (s.stow).badNear = s.badNear := rfl
@[simp] theorem State.stow_frames (s : State) : (s.stow).frames = s.frames := rfl
@[simp] theorem State.stow_agenda (s : State) : (s.stow).agenda = s.agenda := rfl
@[simp] theorem State.stow_tick (s : State) : (s.stow).tick = s.tick := rfl
@[simp] theorem State.stow_free (s : State) : (s.stow).free = s.free := rfl
@[simp] theorem State.stow_serial (s : State) : (s.stow).serial = s.serial := rfl

/-! #### State.unstow -/

@[simp] theorem State.unstow_harts (s : State) : (s.unstow).harts = s.harts := rfl
@[simp] theorem State.unstow_launches (s : State) : (s.unstow).launches = s.launches := rfl
@[simp] theorem State.unstow_mods (s : State) : (s.unstow).mods = s.mods := rfl
@[simp] theorem State.unstow_dram (s : State) : (s.unstow).dram = s.dram := rfl
@[simp] theorem State.unstow_near (s : State) : (s.unstow).near = s.near := rfl
@[simp] theorem State.unstow_l1 (s : State) : (s.unstow).l1 = s.l1 := rfl
@[simp] theorem State.unstow_l2 (s : State) : (s.unstow).l2 = s.l2 := rfl
@[simp] theorem State.unstow_msc (s : State) : (s.unstow).msc = s.msc := rfl
@[simp] theorem State.unstow_tlb (s : State) : (s.unstow).tlb = s.tlb := rfl
@[simp] theorem State.unstow_ibuf (s : State) : (s.unstow).ibuf = s.ibuf := rfl
@[simp] theorem State.unstow_tiles (s : State) : (s.unstow).tiles = s.tiles := rfl
@[simp] theorem State.unstow_fabric (s : State) : (s.unstow).fabric = s.fabric := rfl
@[simp] theorem State.unstow_badMem (s : State) : (s.unstow).badMem = s.badMem := rfl
@[simp] theorem State.unstow_badNear (s : State) : (s.unstow).badNear = s.badNear := rfl
@[simp] theorem State.unstow_frames (s : State) : (s.unstow).frames = s.frames := rfl
@[simp] theorem State.unstow_agenda (s : State) : (s.unstow).agenda = s.agenda := rfl
@[simp] theorem State.unstow_tick (s : State) : (s.unstow).tick = s.tick := rfl
@[simp] theorem State.unstow_free (s : State) : (s.unstow).free = s.free := rfl
@[simp] theorem State.unstow_serial (s : State) : (s.unstow).serial = s.serial := rfl

/-! ### What a read of a register gives after a write (R62) -/

theorem Hart.greg_zero (h : Hart) : h.greg 0 = 0 := rfl

theorem Hart.greg_setG_self (h : Hart) (r : Fin 32) (v : Word) (hr : r ≠ 0) : (h.setG r v).greg r = v := by
  simp [Hart.greg, Hart.setG, hr]

theorem Hart.greg_setG_other (h : Hart) (r k : Fin 32) (v : Word) (hk : k ≠ r) : (h.setG r v).greg k = h.greg k := by
  unfold Hart.greg Hart.setG
  split
  · rfl
  · split
    · rfl
    · have : (r : Nat) ≠ k := fun e => hk (Fin.ext e.symm)
      simp [this]

@[simp] theorem Hart.setG_zero (h : Hart) (v : Word) : h.setG 0 v = h := rfl

theorem Hart.elem_setElem_reg (h : Hart) (r k : Fin 64) (i v : Nat) (hk : k ≠ r) : (h.setElem r i v).vec[k] = h.vec[k] := by
  have : (r : Nat) ≠ k := fun e => hk (Fin.ext e.symm)
  simp [Hart.setElem, this]

/-! ### Modules, launches and shares after a change -/

theorem State.mod?_onMod_self (s : State) (m : Nat) (f : Module → Module) (x : Module) (h : s.mod? m = some x) :
    (s.onMod m f).mod? m = some (f x) := by
  simp only [State.onMod, h]
  exact Tbl.find_put_self m (f x) s.mods

theorem State.mod?_onMod_other (s : State) (m k : Nat) (f : Module → Module) (h : k ≠ m) : (s.onMod m f).mod? k = s.mod? k := by
  unfold State.onMod
  split
  · exact Tbl.find_put_other h _ s.mods
  · rfl

theorem State.launch?_onLaunch_self (s : State) (l : Nat) (f : Launch → Launch) (x : Launch) (h : s.launch? l = some x) :
    (s.onLaunch l f).launch? l = some (f x) := by
  simp only [State.onLaunch, h]
  exact Tbl.find_put_self l (f x) s.launches

theorem State.launch?_onLaunch_other (s : State) (l k : Nat) (f : Launch → Launch) (h : k ≠ l) :
    (s.onLaunch l f).launch? k = s.launch? k := by
  unfold State.onLaunch
  split
  · exact Tbl.find_put_other h _ s.launches
  · rfl

/-- A module runs after a change of another (R373, R377, R411). -/
theorem State.modRuns_onMod_other (s : State) (m k : Nat) (f : Module → Module) (h : k ≠ m) : (s.onMod m f).modRuns k = s.modRuns k := by
  simp [State.modRuns, State.mod?_onMod_other s m k f h]

end Sys2Proof.Machine
end

