-- ==== Sys2Proof/Laws/Elements.lean ====
section
/-! SUPPORT. Laws of vector elements and mask bits: what reading one gives after one or several are written (R69, R73). -/

namespace Sys2Proof.Machine

theorem Hart.elem_setElem_self (h : Hart) (r : Fin 64) (i v : Nat) : (h.setElem r i v).elem r i = v % 2 ^ h.cfg.sew := by
  simp [Hart.elem, Hart.setElem, bits_setBits_self]

theorem Hart.elem_setElem_index (h : Hart) (r : Fin 64) {i k : Nat} (v : Nat) (hk : k ≠ i) :
    (h.setElem r i v).elem r k = h.elem r k := by
  have : h.cfg.sew * k + h.cfg.sew ≤ h.cfg.sew * i ∨ h.cfg.sew * i + h.cfg.sew ≤ h.cfg.sew * k := by
    rcases Nat.lt_or_gt_of_ne hk with h1 | h1
    · left
      calc h.cfg.sew * k + h.cfg.sew = h.cfg.sew * (k + 1) := by ring
        _ ≤ h.cfg.sew * i := Nat.mul_le_mul_left _ h1
    · right
      calc h.cfg.sew * i + h.cfg.sew = h.cfg.sew * (i + 1) := by ring
        _ ≤ h.cfg.sew * k := Nat.mul_le_mul_left _ h1
  simp [Hart.elem, Hart.setElem, bits_setBits_other _ _ _ _ _ _ this]

theorem Hart.elem_setElem_other (h : Hart) {r k : Fin 64} (i j v : Nat) (hk : k ≠ r) : (h.setElem r i v).elem k j = h.elem k j := by
  unfold Hart.elem
  rw [Hart.elem_setElem_reg h r k i v hk]
  rfl

theorem Hart.maskBit_setMaskBit_self (h : Hart) (q : Fin 8) (i : Nat) (b : Bool) : (h.setMaskBit q i b).maskBit q i = b := by
  simp only [Hart.maskBit, Hart.setMaskBit, Fin.getElem_fin, Vector.getElem_set_self]
  exact bit_setBits_self _ _ _

theorem Hart.maskBit_setMaskBit_other (h : Hart) (q : Fin 8) {i k : Nat} (b : Bool) (hk : k ≠ i) :
    (h.setMaskBit q i b).maskBit q k = h.maskBit q k := by
  simp only [Hart.maskBit, Hart.setMaskBit, Fin.getElem_fin, Vector.getElem_set_self]
  exact bit_setBits_other _ _ _ _ hk

/-! ### Several writes -/

/-- Writing elements leaves everything of the hart but its vector registers. -/
theorem writeElems_frame (r : Fin 64) (els : List (Nat × Nat)) : ∀ h : Hart, ∃ v, writeElems h r els = { h with vec := v } := by
  induction els with
  | nil => exact fun h => ⟨h.vec, rfl⟩
  | cons e els ih =>
    intro h
    obtain ⟨v, hv⟩ := ih (h.setElem r e.1 e.2)
    exact ⟨v, hv⟩

@[simp] theorem writeElems_cfg (h : Hart) (r : Fin 64) (els : List (Nat × Nat)) : (writeElems h r els).cfg = h.cfg := by
  obtain ⟨v, hv⟩ := writeElems_frame r els h
  rw [hv]

/-- An element that none of the writes names stays. -/
theorem elem_writeElems_outside (r : Fin 64) (els : List (Nat × Nat)) : ∀ (h : Hart) {i : Nat}, (∀ e ∈ els, e.1 ≠ i) →
    (writeElems h r els).elem r i = h.elem r i := by
  induction els with
  | nil => exact fun _ _ _ => rfl
  | cons e els ih =>
    intro h i hi
    rw [writeElems, ih _ (fun x hx => hi x (List.mem_cons_of_mem _ hx)),
      Hart.elem_setElem_index h r e.2 (Ne.symm (hi e List.mem_cons_self))]

/-- Of writes to distinct elements each reads back. -/
theorem elem_writeElems_inside (r : Fin 64) (els : List (Nat × Nat)) : ∀ (h : Hart) {i v : Nat}, (els.map (·.1)).Nodup → (i, v) ∈ els →
    (writeElems h r els).elem r i = v % 2 ^ h.cfg.sew := by
  induction els with
  | nil => intro h i v _ hm; cases hm
  | cons e els ih =>
    intro h i v hn hm
    simp only [List.map_cons, List.nodup_cons] at hn
    rcases List.mem_cons.mp hm with rfl | hm
    · rw [writeElems, elem_writeElems_outside r els _ (fun x hx hxi => hn.1 (List.mem_map.mpr ⟨x, hx, hxi⟩)), Hart.elem_setElem_self]
    · exact ih (h.setElem r e.1 e.2) hn.2 hm

/-- A register that is not written stays. -/
theorem writeElems_other (r : Fin 64) (els : List (Nat × Nat)) : ∀ (h : Hart) {k : Fin 64}, k ≠ r → (writeElems h r els).vec[k] = h.vec[k] := by
  induction els with
  | nil => exact fun _ _ _ => rfl
  | cons e els ih =>
    intro h k hk
    rw [writeElems, ih _ hk, Hart.elem_setElem_reg h r k e.1 e.2 hk]

@[simp] theorem State.writeVec_cur (s : State) (r : Fin 64) (els : List (Nat × Nat)) : (s.writeVec r els).cur = writeElems s.cur r els := rfl

/-- Writing elements of a register leaves all of the machine but the acting hart and poison. -/
theorem State.writeVec_frame (s : State) (r : Fin 64) (els : List (Nat × Nat)) :
    ∃ p, s.writeVec r els = { s with cur := writeElems s.cur r els, poison := p } := by
  unfold State.writeVec State.coverVec
  split <;> exact ⟨_, rfl⟩

end Sys2Proof.Machine
end

