-- ==== Sys2Proof/Laws/Memory.lean ====
section
/-! SUPPORT. Laws of memory: every operation keeps the canonical form, and what a read after a write gives. -/

namespace Sys2Proof.Machine

theorem Memory.wf_iff (m : Memory) : Memory.wf m = true ↔ Tbl.rising m = true ∧ ∀ c ∈ m, c.2 ≠ 0 := by
  simp [Memory.wf]

theorem Memory.wf_nil : Memory.wf [] = true := rfl

theorem Memory.wf_store (a : Nat) (b : Byte) {m : Memory} (h : Memory.wf m = true) : Memory.wf (Tbl.store 0 a b m) = true := by
  rw [Memory.wf_iff] at h ⊢
  refine ⟨Tbl.rising_store 0 a b h.1, fun c hc => ?_⟩
  unfold Tbl.store at hc
  split at hc
  · exact h.2 c (Tbl.mem_del hc)
  · rcases Tbl.mem_put hc with hc | hc
    · subst hc; assumption
    · exact h.2 c hc

theorem Memory.wf_filter (p : Host.Cell → Bool) {m : Memory} (h : Memory.wf m = true) : Memory.wf (m.filter p) = true := by
  rw [Memory.wf_iff] at h ⊢
  exact ⟨Tbl.rising_filter p h.1, fun c hc => h.2 c (List.mem_filter.mp hc).1⟩

theorem Memory.wf_putDram (bs : List Byte) : ∀ (a : Nat) {m : Memory}, Memory.wf m = true → Memory.wf (putDram m a bs) = true := by
  induction bs with
  | nil => exact fun _ _ h => h
  | cons b bs ih => exact fun a _ h => ih (a + 1) (Memory.wf_store a b h)

theorem Memory.wf_copyRange (src dst n : Nat) {m : Memory} (h : Memory.wf m = true) :
    Memory.wf (Memory.copyRange m src dst n) = true := by
  unfold Memory.copyRange
  have hfold : ∀ (l : List Host.Cell) (t : Memory), Memory.wf t = true →
      Memory.wf (l.foldl (fun t c => Tbl.store 0 (c.1 - src + dst) c.2 t) t) = true := by
    intro l
    induction l with
    | nil => exact fun _ ht => ht
    | cons c l ih => exact fun t ht => ih _ (Memory.wf_store _ _ ht)
  exact hfold _ _ (Memory.wf_filter _ h)

/-- Memory after reset is canonical. -/
theorem reset_wf : Memory.wf State.reset.dram = true := rfl

/-! ### Reading after writing -/

theorem dramByte_store_self {s : State} (h : Memory.wf s.dram = true) (a : Nat) (b : Byte) :
    dramByte { s with dram := Tbl.store 0 a b s.dram } a = b :=
  Tbl.getD_store_self 0 a b ((Memory.wf_iff _).mp h).1

theorem dramByte_store_other {s : State} (h : Memory.wf s.dram = true) {a x : Nat} (hx : x ≠ a) (b : Byte) :
    dramByte { s with dram := Tbl.store 0 a b s.dram } x = dramByte s x :=
  Tbl.getD_store_other 0 b ((Memory.wf_iff _).mp h).1 hx

theorem putNear_outside (bs : List Byte) : ∀ (a : Nat) (m : Tbl Byte) {x : Nat}, (x < a ∨ a + bs.length ≤ x) →
    Tbl.find x (putNear m a bs) = Tbl.find x m := by
  induction bs with
  | nil => exact fun _ _ _ _ => rfl
  | cons b bs ih =>
    intro a m x hx
    simp only [List.length_cons] at hx
    rw [putNear, ih (a + 1) _ (by omega), Tbl.find_put_other (by omega)]

theorem putNear_inside (bs : List Byte) : ∀ (a : Nat) (m : Tbl Byte) {i : Nat} (hi : i < bs.length),
    Tbl.find (a + i) (putNear m a bs) = some bs[i] := by
  induction bs with
  | nil => intro a m i hi; exact absurd hi (Nat.not_lt_zero i)
  | cons b bs ih =>
    intro a m i hi
    rw [putNear]
    cases i with
    | zero => rw [Nat.add_zero, putNear_outside bs (a + 1) _ (by omega), Tbl.find_put_self]; rfl
    | succ j =>
      have := ih (a + 1) (Tbl.put a b m) (i := j) (by simpa using hi)
      rw [← Nat.add_assoc, Nat.add_right_comm]
      simpa using this

end Sys2Proof.Machine
end

