-- ==== Sys2Proof/Laws/Form.lean ====
section
/-! SUPPORT. Laws of the operations on memory: each changes memory, caches and poison marks alone, and keeps the form of memory: DRAM
canonical, near copies and cache lines rising, every cache line at 128 bytes. -/

namespace Sys2Proof.Machine

/-- The form depends on three fields alone. -/
theorem State.memOk_congr {s t : State} (h : s.memOk) (hd : t.dram = s.dram) (hn : t.near = s.near) (hm : t.msc = s.msc) : t.memOk := by
  unfold State.memOk
  rw [hd, hn, hm]
  exact h

/-- What an operation on memory can do: change memory, the caches and their poison, and keep the form. -/
def MemStep (s t : State) : Prop :=
  t = { s with dram := t.dram, near := t.near, l1 := t.l1, l2 := t.l2, msc := t.msc, badMem := t.badMem, badNear := t.badNear } ∧
    (s.memOk → t.memOk)

theorem MemStep.refl (s : State) : MemStep s s := ⟨rfl, id⟩

theorem MemStep.trans {s t u : State} (h : MemStep s t) (k : MemStep t u) : MemStep s u := by
  refine ⟨?_, fun hs => k.2 (h.2 hs)⟩
  have := k.1
  rw [h.1] at this
  exact this

theorem MemStep.foldl {β : Type} (f : State → β → State) (hf : ∀ s b, MemStep s (f s b)) (l : List β) : ∀ (s : State), MemStep s (l.foldl f s) := by
  induction l with
  | nil => exact MemStep.refl
  | cons b l ih => exact fun s => (hf s b).trans (ih _)

theorem MemStep.cur {s t : State} (h : MemStep s t) : t.cur = s.cur := by rw [h.1]
theorem MemStep.harts {s t : State} (h : MemStep s t) : t.harts = s.harts := by rw [h.1]
theorem MemStep.launches {s t : State} (h : MemStep s t) : t.launches = s.launches := by rw [h.1]
theorem MemStep.mods {s t : State} (h : MemStep s t) : t.mods = s.mods := by rw [h.1]
theorem MemStep.tlb {s t : State} (h : MemStep s t) : t.tlb = s.tlb := by rw [h.1]
theorem MemStep.ibuf {s t : State} (h : MemStep s t) : t.ibuf = s.ibuf := by rw [h.1]
theorem MemStep.banks {s t : State} (h : MemStep s t) : t.banks = s.banks := by rw [h.1]
theorem MemStep.tiles {s t : State} (h : MemStep s t) : t.tiles = s.tiles := by rw [h.1]
theorem MemStep.fabric {s t : State} (h : MemStep s t) : t.fabric = s.fabric := by rw [h.1]
theorem MemStep.poison {s t : State} (h : MemStep s t) : t.poison = s.poison := by rw [h.1]
theorem MemStep.frames {s t : State} (h : MemStep s t) : t.frames = s.frames := by rw [h.1]
theorem MemStep.agenda {s t : State} (h : MemStep s t) : t.agenda = s.agenda := by rw [h.1]
theorem MemStep.tick {s t : State} (h : MemStep s t) : t.tick = s.tick := by rw [h.1]
theorem MemStep.free {s t : State} (h : MemStep s t) : t.free = s.free := by rw [h.1]
theorem MemStep.serial {s t : State} (h : MemStep s t) : t.serial = s.serial := by rw [h.1]

/-! ### Lines of the far point -/

theorem Tbl.find_mem {α : Type} {k : Nat} {v : α} : ∀ {t : Tbl α}, Tbl.find k t = some v → (k, v) ∈ t
  | [], h => by simp [Tbl.find] at h
  | (j, u) :: t, h => by
    unfold Tbl.find at h
    split at h
    · subst_vars; simp_all
    · split at h
      · simp at h
      · exact List.mem_cons_of_mem _ (Tbl.find_mem h)

/-- A line of a memory-side cache changed in place, or taken into it. -/
theorem memStep_putLine (s : State) (line : Nat) (l : MscLine) (hl : s.memOk → l.data.length = 128 ∧ locHbm (128 * line) = true) :
    MemStep s { s with msc := Tbl.put line l s.msc } :=
  ⟨rfl, fun h => ⟨h.1, h.2.1, Tbl.rising_put _ _ h.2.2.1, fun c hc => by
    rcases Tbl.mem_put hc with rfl | hc
    · exact hl h
    · exact h.2.2.2 c hc⟩⟩

theorem memStep_delLine (s : State) (line : Nat) : MemStep s { s with msc := Tbl.del line s.msc } :=
  ⟨rfl, fun h => ⟨h.1, h.2.1, Tbl.rising_del _ h.2.2.1, fun c hc => h.2.2.2 c (Tbl.mem_del hc)⟩⟩

theorem memStep_putMemLine (s : State) (line : Nat) (l : MscLine) : MemStep s (putMemLine s line l) :=
  ⟨rfl, fun h => ⟨Memory.wf_putDram _ _ h.1, h.2⟩⟩

theorem memStep_putFarLine (s : State) (line : Nat) (l : MscLine) (hl : s.memOk → l.data.length = 128) :
    MemStep s (putFarLine s line l) := by
  unfold putFarLine
  split
  · rename_i hb
    exact memStep_putLine s line l (fun h => ⟨hl h, hb⟩)
  · exact memStep_putMemLine s line l

theorem farLine_length {s : State} (h : s.memOk) (line : Nat) : (farLine s line).data.length = 128 := by
  unfold farLine
  cases hf : Tbl.find line s.msc with
  | none => simp [length_upto]
  | some l => exact (h.2.2.2 _ (Tbl.find_mem hf)).1

theorem memStep_mscWrite (s : State) (a : Nat) (bs : List Byte) (n : Nat) : MemStep s (mscWrite s a bs n) :=
  memStep_putFarLine s _ _ (fun _ => by simp [mergeLine, length_upto])

/-! ### L1 and L2 -/

theorem memStep_pushLine (s : State) (line : Nat) : MemStep s (pushLine s line) := by
  unfold pushLine
  split
  · refine (memStep_putFarLine s line _ (fun _ => by simp [length_upto])).trans ⟨rfl, fun h => ⟨h.1, Tbl.rising_filter _ h.2.1, h.2.2⟩⟩
  · exact MemStep.refl s

theorem memStep_setOnChip (s : State) (line : Nat) (b : Bool) : MemStep s (setOnChip s line b) := by
  unfold setOnChip
  split
  · rename_i l hf
    exact memStep_putLine s line _ (fun h => h.2.2.2 _ (Tbl.find_mem hf))
  · exact MemStep.refl s

theorem memStep_dropCopies (s : State) (line : Nat) : MemStep s (dropCopies s line) :=
  (memStep_setOnChip s line false).trans ⟨rfl, fun h => ⟨h.1, Tbl.rising_filter _ h.2.1, h.2.2⟩⟩

theorem memStep_dropL1 (s : State) (mine : L1Line → Bool) : MemStep s (dropL1 s mine) :=
  ⟨rfl, fun h => State.memOk_congr h rfl rfl rfl⟩

theorem memStep_recallLine (s : State) (line : Nat) : MemStep s (recallLine s line) :=
  (memStep_pushLine s line).trans (memStep_dropCopies _ line)

theorem memStep_mscRead (s : State) (line : Nat) : MemStep s (mscRead s line) := by
  unfold mscRead
  split
  · rename_i hb
    simp only
    split
    · exact memStep_putLine s line _ (fun h => ⟨farLine_length h line, hb⟩)
    · split
      · split
        · exact memStep_recallLine s line
        · exact (memStep_dropCopies s line).trans (memStep_delLine _ line)
      · exact memStep_putLine s line _ (fun h => ⟨farLine_length h line, hb⟩)
  · exact MemStep.refl s

theorem memStep_fillFar (s : State) (line : Nat) : MemStep s (fillFar s line) := by
  unfold fillFar
  split
  · rename_i hb
    exact memStep_putLine s line _ (fun h => ⟨farLine_length h line, hb⟩)
  · exact MemStep.refl s

theorem memStep_fillCopy (s : State) (line : Nat) : MemStep s (fillCopy s line) := by
  unfold fillCopy
  split
  · exact MemStep.refl s
  · refine ⟨?_, fun h => ?_⟩
    · split <;> rfl
    · split
      · rename_i hb
        exact State.memOk_congr ((memStep_putLine s line { farLine s line with onChip := true }
          (fun h => ⟨farLine_length h line, hb⟩)).2 h) rfl rfl rfl
      · exact State.memOk_congr h rfl rfl rfl

theorem memStep_fillRead (s : State) (replay : Bool) (line : Nat) : MemStep s (fillRead s replay line) := by
  unfold fillRead
  split
  · exact MemStep.refl s
  · split
    · exact memStep_mscRead s line
    · split
      · exact memStep_fillCopy s line
      · exact (memStep_mscRead s line).trans (memStep_fillCopy _ line)

theorem memStep_nearRead (s : State) (replay uncached : Bool) (line : Nat) : MemStep s (nearRead s replay uncached line) := by
  unfold nearRead
  split
  · split
    · exact MemStep.refl s
    · exact memStep_mscRead s line
  · exact memStep_fillRead s replay line

theorem memStep_readReqs (s : State) (reqs : List Nat) : MemStep s (readReqs s reqs) :=
  MemStep.foldl _ (fun t _ => memStep_nearRead t _ _ _) _ s

theorem memStep_countReads (s : State) (reqs : List Nat) : MemStep s (countReads s reqs) :=
  (memStep_dropL1 s _).trans (memStep_readReqs _ reqs)

theorem memStep_countFarReads (s : State) (reqs : List Nat) : MemStep s (countFarReads s reqs) := memStep_readReqs s _

theorem memStep_readL1 (s : State) (m c a : Nat) : MemStep s (s.readL1 m c a) := by
  unfold State.readL1
  split
  · exact MemStep.refl s
  · exact ⟨rfl, fun h => State.memOk_congr h rfl rfl rfl⟩

theorem memStep_scalarReadDone (s : State) (p : Phys) : MemStep s (s.scalarReadDone p) := by
  unfold State.scalarReadDone
  simp only
  split
  · exact (memStep_readReqs s _).trans (memStep_readL1 _ _ _ _)
  · exact memStep_readReqs s _

theorem memStep_writeBack (s : State) (mine : Nat → Bool) : MemStep s (writeBack s mine) :=
  MemStep.foldl _ (fun t k => memStep_pushLine t k) _ s

theorem memStep_spoil (s : State) (far : Bool) (w : Nat) : MemStep s (s.spoil far w) := by
  unfold State.spoil
  split
  · exact ⟨rfl, fun h => State.memOk_congr h rfl rfl rfl⟩
  · split
    · rename_i l hf
      exact memStep_putLine s _ _ (fun h => h.2.2.2 _ (Tbl.find_mem hf))
    · exact ⟨rfl, fun h => State.memOk_congr h rfl rfl rfl⟩

/-! ### Capacity -/

theorem memStep_evictMsc (s : State) (line : Nat) : MemStep s (evictMsc s line) := by
  unfold evictMsc
  refine (memStep_recallLine s line).trans ?_
  simp only
  split
  · exact MemStep.refl _
  · split
    · exact (memStep_delLine _ line).trans (memStep_putMemLine _ line _)
    · exact memStep_delLine _ line

theorem memStep_evictL1 (s : State) (core line : Nat) : MemStep s (evictL1 s core line) :=
  ⟨rfl, fun h => State.memOk_congr h rfl rfl rfl⟩

theorem memStep_evictOne (s : State) (seed : Nat) : MemStep s (evictOne s seed) := by
  unfold evictOne
  split
  · exact memStep_evictL1 s _ _
  · split
    · exact memStep_recallLine s _
    · split
      · exact memStep_evictMsc s _
      · exact MemStep.refl s

theorem memStep_trimTo (n : Nat) : ∀ (s : State), MemStep s (trimTo n s) := by
  induction n with
  | zero => exact MemStep.refl
  | succ n ih => exact fun s => (memStep_evictOne s _).trans (ih _)

theorem memStep_trim (s : State) : MemStep s s.trim := by
  unfold State.trim
  split
  · exact MemStep.refl s
  · exact memStep_trimTo _ s

/-! ### Writes -/

/-- A write breaks reservations on its bytes, and otherwise changes memory alone (R151, R211). -/
theorem memStep_storeFar (s : State) (a : Nat) (bs : List Byte) (n : Nat) : MemStep (breakResvs s a bs.length) (storeFar s a bs n) :=
  MemStep.foldl _ (fun t (c : Nat × List Byte) => (memStep_recallLine t (c.1 / 128)).trans (memStep_mscWrite _ c.1 c.2 n)) _ _

theorem rising_putNear (bs : List Byte) : ∀ (a : Nat) {m : Tbl Byte}, Tbl.rising m = true → Tbl.rising (putNear m a bs) = true := by
  induction bs with
  | nil => exact fun _ _ h => h
  | cons b bs ih => exact fun a _ h => ih (a + 1) (Tbl.rising_put a b h)

theorem memStep_storeNear (s : State) (a : Nat) (bs : List Byte) : MemStep (breakResvs s a bs.length) (storeNear s a bs) :=
  ((MemStep.foldl _ (fun t k => memStep_fillCopy t k) _ _).trans (memStep_dropL1 _ _)).trans
    ⟨rfl, fun h => ⟨h.1, rising_putNear bs a h.2.1, h.2.2⟩⟩

theorem memOk_broken {s : State} (h : s.memOk) (a n : Nat) : (breakResvs s a n).memOk := State.memOk_congr h rfl rfl rfl

theorem memOk_storeFar {s : State} (h : s.memOk) (a : Nat) (bs : List Byte) (n : Nat) : (storeFar s a bs n).memOk :=
  (memStep_storeFar s a bs n).2 (memOk_broken h _ _)

theorem memOk_storeNear {s : State} (h : s.memOk) (a : Nat) (bs : List Byte) : (storeNear s a bs).memOk :=
  (memStep_storeNear s a bs).2 (memOk_broken h _ _)

theorem memOk_foldl {β : Type} (f : State → β → State) (hf : ∀ s b, s.memOk → (f s b).memOk) (l : List β) :
    ∀ {s : State}, s.memOk → (l.foldl f s).memOk := by
  induction l with
  | nil => exact fun h => h
  | cons b l ih => exact fun h => ih (hf _ b h)

theorem memOk_putPhys {s : State} (h : s.memOk) (p : Phys) (bs : List Byte) (n : Nat) : (s.putPhys p bs n).memOk := by
  unfold State.putPhys
  split
  · exact memOk_storeFar h _ _ _
  · exact memOk_storeNear h _ _

/-- A scalar write leaves its line in an L1, and otherwise what the write leaves (R134). -/
theorem memOk_writeL1 {s : State} (m c a : Nat) {put : State → State} (h : (put s).memOk) : (s.writeL1 m c a put).memOk := by
  unfold State.writeL1
  simp only
  split
  · exact h
  · exact State.memOk_congr h rfl rfl rfl

theorem memOk_putScalar {s : State} (h : s.memOk) (p : Phys) (bs : List Byte) : (s.putScalar p bs).memOk := by
  unfold State.putScalar
  split
  · exact memOk_writeL1 _ _ _ (memOk_putPhys h p bs 0)
  · exact memOk_putPhys h p bs 0

theorem memOk_writePhys {s : State} (h : s.memOk) (vec : Bool) (va : Word) (p : Phys) (bs : List Byte) (n : Nat) :
    (s.writePhys vec va p bs n).memOk := by
  unfold State.writePhys
  split
  · exact State.memOk_congr h rfl rfl rfl
  · split
    · exact State.memOk_congr h rfl rfl rfl
    · split
      · exact memOk_putPhys h p bs n
      · exact memOk_putScalar h p bs

theorem memOk_writeRuns (vec : Bool) (ps : List (Phys × Nat)) : ∀ {s : State}, s.memOk → ∀ (va : Nat) (bs : List Byte),
    (s.writeRuns vec va ps bs).memOk := by
  induction ps with
  | nil => exact fun h _ _ => h
  | cons c ps ih => exact fun h va bs => ih (memOk_writePhys h vec _ c.1 _ 0) _ _

theorem memOk_onMod {s : State} (h : s.memOk) (m : Nat) (f : Module → Module) : (s.onMod m f).memOk :=
  State.memOk_congr h (by simp) (by simp) (by simp)

theorem memOk_onLaunch {s : State} (h : s.memOk) (l : Nat) (f : Launch → Launch) : (s.onLaunch l f).memOk :=
  State.memOk_congr h (by simp) (by simp) (by simp)

theorem memOk_onShare {s : State} (h : s.memOk) (l r : Nat) (f : Share → Share) : (s.onShare l r f).memOk :=
  State.memOk_congr h (by simp) (by simp) (by simp)

theorem memOk_countPage {s : State} (h : s.memOk) (src a : Nat) : (countPage s src a).memOk := by
  unfold countPage
  split
  · exact h
  · exact memOk_onMod h _ _

theorem memOk_heard {s : State} (h : s.memOk) (m r : Nat) : (s.heard m r).memOk := memOk_onMod h _ _

theorem memOk_putFor {s : State} (i : HartId) (near : Bool) (a : Nat) {put : State → State} (h : (put s).memOk) :
    (s.putFor i near a put).memOk := by
  unfold State.putFor
  split
  · exact memOk_writeL1 _ _ _ h
  · exact h

theorem memOk_performStore {s : State} (h : s.memOk) (src : Nat) (m : Msg) : (performStore s src m).memOk := by
  unfold performStore
  split
  · rename_i i va vec far d readers a bs
    have ht : (countPage (s.putFor i (!vec && !far && decide (src = a / 2 ^ 52)) a (fun u =>
        if far then storeFar u a bs readers else storeNear u a bs)) src a).memOk := memOk_countPage (memOk_putFor i _ a (by
      split
      · exact memOk_storeFar h _ _ _
      · exact memOk_storeNear h _ _)) _ _
    simp only
    split
    · exact ht
    · exact State.memOk_congr (memOk_heard ht src _) rfl rfl rfl
  · exact h

theorem memOk_drain {s : State} (h : s.memOk) (mine : Msg → Bool) : (s.drain mine).memOk :=
  memOk_foldl _ (fun _ m ht => memOk_performStore ht _ m) _ (State.memOk_congr h rfl rfl rfl)

theorem memOk_settle {s : State} (h : s.memOk) : s.settle.memOk := by
  unfold State.settle
  split
  · exact memOk_drain h _
  · exact h

theorem memOk_settleOn {s : State} (h : s.memOk) (vec : Bool) : (s.settleOn vec).memOk := by
  unfold State.settleOn
  split
  · exact memOk_drain h _
  · exact h

theorem memOk_settleFor {s : State} (h : s.memOk) (vec : Bool) (p : Phys) : (s.settleFor vec p).memOk := by
  unfold State.settleFor
  split
  · exact memOk_settleOn h vec
  · exact memOk_settle h

theorem memOk_completed {s : State} (h : s.memOk) : s.completed.memOk := State.memOk_congr h rfl rfl rfl

theorem memOk_completedV {s : State} (h : s.memOk) : s.completedV.memOk := State.memOk_congr h (by simp) (by simp) (by simp)

/-! ### A passing step -/

/-- Noting unanswered requests changes the modules' records alone (R475). -/
theorem State.noteAsked_eq (s : State) : s.noteAsked = { s with mods := s.noteAsked.mods } := by
  unfold State.noteAsked
  split <;> rfl

/-- What a step that passes leaves: memory in its form, and all but memory, caches, the modules' records and the time as it was. -/
theorem State.ticked_eq (s : State) : ∃ u, MemStep { s with tick := s.tick + 1 } u ∧ s.ticked = { u with mods := s.ticked.mods } :=
  ⟨_, memStep_trim _, State.noteAsked_eq _⟩

theorem memOk_ticked {s : State} (h : s.memOk) : s.ticked.memOk := by
  obtain ⟨u, hu, ht⟩ := s.ticked_eq
  exact State.memOk_congr (hu.2 (State.memOk_congr h rfl rfl rfl)) (by rw [ht]) (by rw [ht]) (by rw [ht])

@[simp] theorem State.ticked_cur (s : State) : s.ticked.cur = s.cur := by
  obtain ⟨u, hu, ht⟩ := s.ticked_eq
  rw [ht]
  exact hu.cur

@[simp] theorem State.ticked_harts (s : State) : s.ticked.harts = s.harts := by
  obtain ⟨u, hu, ht⟩ := s.ticked_eq
  rw [ht]
  exact hu.harts

@[simp] theorem State.ticked_launches (s : State) : s.ticked.launches = s.launches := by
  obtain ⟨u, hu, ht⟩ := s.ticked_eq
  rw [ht]
  exact hu.launches

@[simp] theorem State.ticked_fabric (s : State) : s.ticked.fabric = s.fabric := by
  obtain ⟨u, hu, ht⟩ := s.ticked_eq
  rw [ht]
  exact hu.fabric

@[simp] theorem State.ticked_agenda (s : State) : s.ticked.agenda = s.agenda := by
  obtain ⟨u, hu, ht⟩ := s.ticked_eq
  rw [ht]
  exact hu.agenda

@[simp] theorem State.ticked_tick (s : State) : s.ticked.tick = s.tick + 1 := by
  obtain ⟨u, hu, ht⟩ := s.ticked_eq
  rw [ht]
  exact hu.tick

end Sys2Proof.Machine
end

