-- ==== Sys2Proof/Laws/KeyValue.lean ====
section
/-! SUPPORT. The computations on key-value structures that only read: they change nothing (R341, R343, R344). -/

namespace Sys2Proof.Machine

/-- Whatever the computation answers, the state is as it was. -/
def Kv.Reads {α : Type} (f : Kv α) : Prop := ∀ s v t, f s = .ok (v, t) → t = s

theorem Kv.Reads.bind {α β : Type} {f : Kv α} {g : α → Kv β} (hf : f.Reads) (hg : ∀ a, (g a).Reads) : Kv.Reads (f >>= g) := by
  intro s v t h
  change (Except.bind (f s) fun p => g p.1 p.2) = _ at h
  cases e : f s with
  | error x => rw [e] at h; cases h
  | ok p =>
    rw [e] at h
    obtain rfl := hf s p.1 p.2 e
    exact hg p.1 p.2 v t h

theorem Kv.Reads.pure {α : Type} (a : α) : Kv.Reads (Pure.pure a) := by rintro s v t ⟨⟩; rfl

theorem kvFail_reads {α : Type} (sub va : Nat) : Kv.Reads (kvFail sub va : Kv α) := by rintro s v t ⟨⟩

theorem kvCheck_reads (b : Bool) (sub va : Nat) : (kvCheck b sub va).Reads := by
  intro s v t h
  unfold kvCheck at h
  split at h <;> cases h
  rfl

theorem kvRead_reads (cx : KvCx) (m va n : Nat) : (kvRead cx m va n).Reads := by
  intro s v t h
  unfold kvRead at h
  split at h
  · cases h
  · split at h <;> cases h
    rfl

theorem kvRootRead_reads (cx : KvCx) (m : Nat) : (kvRootRead cx m).Reads :=
  (kvRead_reads _ _ _ _).bind fun _ => (kvCheck_reads _ _ _).bind fun _ => (kvCheck_reads _ _ _).bind fun _ => .pure _

theorem kvRootCheck_reads (cx : KvCx) (r : KvRoot × Nat) : (kvRootCheck cx r).Reads := kvCheck_reads _ _ _

theorem kvRootAt_reads (cx : KvCx) (m : Nat) : (kvRootAt cx m).Reads :=
  (kvRootRead_reads cx m).bind fun _ => (kvRootCheck_reads _ _).bind fun _ => .pure _

theorem kvSeq_reads (cx : KvCx) (va : Nat) : (kvSeq cx va).Reads :=
  (kvRead_reads _ _ _ _).bind fun _ => (kvCheck_reads _ _ _).bind fun _ => (kvCheck_reads _ _ _).bind fun _ =>
    (kvRootRead_reads cx _).bind fun _ => (kvCheck_reads _ _ _).bind fun _ => (kvRootCheck_reads _ _).bind fun _ => .pure _

theorem kvLocal_reads (cx : KvCx) (d : KvSeq) (b : Nat) : (kvLocal cx d b).Reads := kvRead_reads _ _ _ _

theorem kvRoot_reads (cx : KvCx) (rank va : Nat) : (kvRoot cx rank va).Reads := by
  unfold kvRoot
  split
  · exact kvFail_reads _ _
  · refine .bind (by rintro s v t ⟨⟩; rfl) fun s => ?_
    have rest : ∀ m, Kv.Reads (kvRootAt cx cx.m >>= fun mine => if m = cx.m then Pure.pure mine else
        kvRootAt cx m >>= fun r => kvCheck (r.geo != mine.geo) 2 cx.root >>= fun _ => Pure.pure r) := fun m =>
      (kvRootAt_reads cx _).bind fun _ => by
        split
        · exact .pure _
        · exact (kvRootAt_reads cx _).bind fun _ => (kvCheck_reads _ _ _).bind fun _ => .pure _
    dsimp only
    split
    · exact .bind (by rintro s v t ⟨⟩) fun _ => rest _
    · exact rest _

theorem kvEntry_reads (cx : KvCx) (w va : Nat) : (kvEntry cx w va).Reads :=
  (kvCheck_reads _ _ _).bind fun _ => (kvRoot_reads cx _ _).bind fun _ => (kvCheck_reads _ _ _).bind fun _ => (kvRead_reads _ _ _ _).bind fun _ =>
    (kvCheck_reads _ _ _).bind fun _ => (kvCheck_reads _ _ _).bind fun _ => (kvCheck_reads _ _ _).bind fun _ => .pure _

end Sys2Proof.Machine
end

