-- ==== Sys2Proof/Laws/Outcomes.lean ====
section
/-! SUPPORT. Laws of how an instruction ends: what retiring a scalar or a vector-queue instruction can do, and what taking a trap
can do; cited in place of unfolding them. -/

namespace Sys2Proof.Machine

/-! ### Scalar instructions -/

@[simp] theorem retire_ok (s : State) : retire (.ok s) = .next s.completed := rfl
@[simp] theorem retire_stall (s : State) : retire (.stall s) = .next s.stands := rfl
@[simp] theorem retire_held (w : Holder) (va : Word) (s : State) :
    retire (.held w va s) = .next (s.heldBy w va) := rfl

/-- An instruction of the scalar stream always answers a next state. -/
theorem retire_next (r : Res) : ∃ t, retire r = .next t := by
  cases r <;> exact ⟨_, rfl⟩

/-- What the end of a scalar instruction can be. -/
theorem retire_cases {r : Res} {t : State} (h : retire r = .next t) :
    (∃ s, r = .ok s ∧ t = s.completed) ∨
    (∃ x s, r = .trap x s ∧ t = takeTrap { s with cur := { s.cur with waitOn := none, heldFrom := none, kheld := none, phase := .running } } x) ∨
    (∃ on s, r = .wait on s ∧ t.cur.phase = .waiting ∧ t.cur.waitOn = some on ∧ t.cur.pc = s.cur.pc) ∨
    (∃ w va s, r = .held w va s ∧ t = s.heldBy w va) ∨ ∃ s, r = .stall s ∧ t = s.stands := by
  cases r with
  | ok s => cases h; exact .inl ⟨s, rfl, rfl⟩
  | trap x s => cases h; exact .inr (.inl ⟨x, s, rfl, rfl⟩)
  | wait on s => cases h; exact .inr (.inr (.inl ⟨on, s, rfl, rfl, rfl, rfl⟩))
  | held w va s => cases h; exact .inr (.inr (.inr (.inl ⟨w, va, s, rfl, rfl⟩)))
  | stall s => exact .inr (.inr (.inr (.inr ⟨s, rfl, by injection h with h; exact h.symm⟩)))

/-! ### Vector-queue instructions -/

@[simp] theorem retireV_ok (i : Instr) (was : Unfinished) (s : State) : retireV i was (.ok s) = .next s.completedV := rfl
@[simp] theorem retireV_stall (i : Instr) (was : Unfinished) (s : State) :
    retireV i was (.stall s) = .next { s.enqueue i false with cur := (s.enqueue i false).cur.goesOn } := rfl

/-- An instruction of the vector queue always answers a next state. -/
theorem retireV_next (i : Instr) (was : Unfinished) (r : Res) : ∃ t, retireV i was r = .next t := by
  cases r with
  | trap x s => unfold retireV; simp only; split <;> exact ⟨_, rfl⟩
  | _ => exact ⟨_, rfl⟩

theorem runV_next (i : Instr) (n : Option Nat) (body : State → Res) (s : State) : ∃ t, runV i n body s = .next t := by
  unfold runV
  split
  · split
    · exact retire_next _
    · exact retireV_next i _ _
  · split <;> split <;> exact retireV_next i _ _

/-- An instruction that nothing keeps from executing runs its body (R222, R396, R402). -/
theorem runV_of_executes {i : Instr} {n : Option Nat} {body : State → Res} {s : State} (h : s.executes = true) :
    runV i n body s = retireV i s.cur.unf (body s) := by
  cases ha : s.cur.active with
  | none =>
    have hf : s.cur.trap.fpend = false := by simpa [State.executes, ha] using h
    simp [runV, ha, hf]
  | some e =>
    have hf : e.trapped = false := by simpa [State.executes, ha] using h
    simp [runV, ha, hf]

/-- A frozen queue takes no instruction (R396). -/
theorem runV_of_frozen {i : Instr} {n : Option Nat} {body : State → Res} {s : State} (ha : s.cur.active = none)
    (hf : s.cur.trap.fpend = true) : runV i n body s = retire (precise 0x03 0x0B 0 s) := by
  simp [runV, ha, hf]

/-- With no condition the body runs (R415). -/
theorem checkedAt_of_noCond {va : Nat} {conds : List (Bool × Nat × Nat)} {body : State → Res} {s : State} (h : noCond conds) :
    checkedAt va conds body s = body s := by
  have : firstCond conds = none := by
    induction conds with
    | nil => rfl
    | cons c conds ih =>
      obtain ⟨b, k, m⟩ := c
      have hb : b = false := h (b, k, m) List.mem_cons_self
      simp only [firstCond, hb]
      exact ih (fun c hc => h c (List.mem_cons_of_mem _ hc))
  simp [checkedAt, this]

theorem checked_of_noCond {conds : List (Bool × Nat × Nat)} {body : State → Res} {s : State} (h : noCond conds) :
    checked conds body s = body s := checkedAt_of_noCond h

/-- The first condition of a list that holds is the one reported (R416). -/
theorem firstCond_cases (conds : List (Bool × Nat × Nat)) :
    (firstCond conds = none ∧ noCond conds) ∨ ∃ c ∈ conds, c.1 = true ∧ firstCond conds = some c.2 := by
  induction conds with
  | nil => exact .inl ⟨rfl, by intro c hc; cases hc⟩
  | cons c conds ih =>
    obtain ⟨b, k, m⟩ := c
    cases b with
    | true => exact .inr ⟨_, List.mem_cons_self, rfl, rfl⟩
    | false =>
      rcases ih with ⟨h1, h2⟩ | ⟨c, hc, h1, h2⟩
      · refine .inl ⟨h1, fun c hc => ?_⟩
        rcases List.mem_cons.mp hc with rfl | hc
        · rfl
        · exact h2 c hc
      · exact .inr ⟨c, List.mem_cons_of_mem _ hc, h1, h2⟩

/-! ### Traps -/

/-- Outside handler mode a trap on route H of a hart with a handler enters it (R395). -/
theorem takeTrap_handler {s : State} {t : Trap} (hm : s.cur.trap.hm = false) (hc : onH t.cause = true)
    (hv : s.cur.trap.tvec ≠ 0) : takeTrap s t = { s.coverSr [0x12, 0x13, 0x14, 0x15, 0x16] with cur := (s.markLeft s.cur).enterHandler t } := by
  unfold takeTrap
  rw [if_neg (by simp [hm]), if_pos (by simp [hc]; exact hv)]

/-- Outside handler mode a trap on route F saves the hart in place (R405). -/
theorem takeTrap_firmware {s : State} {t : Trap} (hm : s.cur.trap.hm = false) (hc : onH t.cause = false) :
    takeTrap s t = firmwareRoute s t := by
  simp [takeTrap, fatalNoHandler, hm, hc]

/-- Outside handler mode a trap on route H with no handler ends the launch (R397). -/
theorem takeTrap_noHandler {s : State} {t : Trap} (hm : s.cur.trap.hm = false) (hc : onH t.cause = true)
    (hv : s.cur.trap.tvec = 0) : takeTrap s t =
      abortLaunch (firmwareRoute s t) s.cur.mod s.cur.id.launch 0x03 t.cause.code.toNat s.cur.id.rank := by
  simp [takeTrap, fatalNoHandler, hm, hc, hv]

/-- In handler mode a trap is cause 0x12 and ends the launch (R397). -/
theorem takeTrap_handlerMode {s : State} {t : Trap} (hm : s.cur.trap.hm = true) : takeTrap s t =
    abortLaunch (firmwareRoute s ⟨⟨0x12, t.cause.code⟩, BitVec.ofNat 64 t.cause.code.toNat, t.imp⟩) s.cur.mod s.cur.id.launch 0x03 0x12
      s.cur.id.rank := by
  simp [takeTrap, hm]

/-- Every trap takes one of four routes (R395, R397, R405). -/
theorem takeTrap_cases (s : State) (t : Trap) :
    (s.cur.trap.hm = true ∧ ∃ u, takeTrap s t = abortLaunch (firmwareRoute s u) s.cur.mod s.cur.id.launch 0x03 0x12 s.cur.id.rank) ∨
    (s.cur.trap.hm = false ∧ takeTrap s t = { s.coverSr [0x12, 0x13, 0x14, 0x15, 0x16] with cur := (s.markLeft s.cur).enterHandler t }) ∨
    (s.cur.trap.hm = false ∧ takeTrap s t = firmwareRoute s t) ∨
    (s.cur.trap.hm = false ∧
      takeTrap s t = abortLaunch (firmwareRoute s t) s.cur.mod s.cur.id.launch 0x03 t.cause.code.toNat s.cur.id.rank) := by
  cases hm : s.cur.trap.hm with
  | true => exact .inl ⟨rfl, _, takeTrap_handlerMode hm⟩
  | false =>
    right
    cases hc : onH t.cause with
    | false => exact .inr (.inl ⟨rfl, takeTrap_firmware hm hc⟩)
    | true =>
      by_cases hv : s.cur.trap.tvec = 0
      · exact .inr (.inr ⟨rfl, takeTrap_noHandler hm hc hv⟩)
      · exact .inl ⟨rfl, takeTrap_handler hm hc hv⟩

end Sys2Proof.Machine
end

