-- ==== Sys2Proof/Laws/PerInstr.lean ====
section
/-! SUPPORT. Per-instruction lemmas over the syntax: the fields of a well-formed instruction select its own tail format among
those of its opcode (R179, R182), and its opcode, placement and fields name it and no other. -/

namespace Sys2Proof.Laws.FormatSelects

set_option Elab.async false

/-- A well-formed instruction breaks none of its three kinds of encoding condition (R417). -/
theorem rules_of {i : Instr} (h : i.wellFormed = true) : i.rules.sel = true ∧ i.rules.tags = true ∧ i.rules.fields = true := by
  revert h
  unfold Instr.wellFormed Instr.illFormed
  generalize i.rules = r
  obtain ⟨_ | _, _ | _, _ | _⟩ := r <;> simp

/-- An SF without a permitted bit is zero (R178). -/
theorem sf_zero : ∀ {sf : BitVec 4}, sfIn 0 sf = true → sf = 0 := by decide

/-- The tail format of a well-formed instruction is the one that its TL selects, and the decoder's tables lead back to it. -/
def Statement (i : Instr) : Prop :=
  ∀ op pl b, i.body = some (op, pl, b) → i.wellFormed = true →
    op < 512 ∧ pickFmt b.fmt.tl (if pl then farFormats op else nearFormats op) = some b.fmt ∧ ofBody op pl b = some i

theorem nop (p : Head) : Statement (.nop p) := by rintro _ _ _ ⟨⟩ _; exact ⟨by decide, rfl, rfl⟩

theorem add (p : R2) : Statement (.add p) := by
  obtain ⟨_, _, _, _, _, lit⟩ := p
  rintro _ _ _ ⟨⟩ _
  cases lit <;> exact ⟨by decide, rfl, rfl⟩

theorem sub (p : R2) : Statement (.sub p) := by
  obtain ⟨_, _, _, _, _, lit⟩ := p
  rintro _ _ _ ⟨⟩ _
  cases lit <;> exact ⟨by decide, rfl, rfl⟩

theorem mul (p : R2) : Statement (.mul p) := by
  obtain ⟨_, _, _, _, _, lit⟩ := p
  rintro _ _ _ ⟨⟩ _
  cases lit <;> exact ⟨by decide, rfl, rfl⟩

theorem mulh (p : R2) : Statement (.mulh p) := by
  obtain ⟨_, _, _, _, _, lit⟩ := p
  rintro _ _ _ ⟨⟩ _
  cases lit <;> exact ⟨by decide, rfl, rfl⟩

theorem mulhsu (p : R2) : Statement (.mulhsu p) := by
  obtain ⟨_, _, _, _, _, lit⟩ := p
  rintro _ _ _ ⟨⟩ _
  cases lit <;> exact ⟨by decide, rfl, rfl⟩

theorem div (p : R2) : Statement (.div p) := by
  obtain ⟨_, _, _, _, _, lit⟩ := p
  rintro _ _ _ ⟨⟩ _
  cases lit <;> exact ⟨by decide, rfl, rfl⟩

theorem divu (p : R2) : Statement (.divu p) := by
  obtain ⟨_, _, _, _, _, lit⟩ := p
  rintro _ _ _ ⟨⟩ _
  cases lit <;> exact ⟨by decide, rfl, rfl⟩

theorem rem (p : R2) : Statement (.rem p) := by
  obtain ⟨_, _, _, _, _, lit⟩ := p
  rintro _ _ _ ⟨⟩ _
  cases lit <;> exact ⟨by decide, rfl, rfl⟩

theorem remu (p : R2) : Statement (.remu p) := by
  obtain ⟨_, _, _, _, _, lit⟩ := p
  rintro _ _ _ ⟨⟩ _
  cases lit <;> exact ⟨by decide, rfl, rfl⟩

theorem and (p : R2) : Statement (.and p) := by
  obtain ⟨_, _, _, _, _, lit⟩ := p
  rintro _ _ _ ⟨⟩ _
  cases lit <;> exact ⟨by decide, rfl, rfl⟩

theorem or (p : R2) : Statement (.or p) := by
  obtain ⟨_, _, _, _, _, lit⟩ := p
  rintro _ _ _ ⟨⟩ _
  cases lit <;> exact ⟨by decide, rfl, rfl⟩

theorem xor (p : R2) : Statement (.xor p) := by
  obtain ⟨_, _, _, _, _, lit⟩ := p
  rintro _ _ _ ⟨⟩ _
  cases lit <;> exact ⟨by decide, rfl, rfl⟩

theorem andn (p : R2) : Statement (.andn p) := by
  obtain ⟨_, _, _, _, _, lit⟩ := p
  rintro _ _ _ ⟨⟩ _
  cases lit <;> exact ⟨by decide, rfl, rfl⟩

theorem sll (p : R2) : Statement (.sll p) := by
  obtain ⟨_, _, _, _, _, lit⟩ := p
  rintro _ _ _ ⟨⟩ _
  cases lit <;> exact ⟨by decide, rfl, rfl⟩

theorem srl (p : R2) : Statement (.srl p) := by
  obtain ⟨_, _, _, _, _, lit⟩ := p
  rintro _ _ _ ⟨⟩ _
  cases lit <;> exact ⟨by decide, rfl, rfl⟩

theorem sra (p : R2) : Statement (.sra p) := by
  obtain ⟨_, _, _, _, _, lit⟩ := p
  rintro _ _ _ ⟨⟩ _
  cases lit <;> exact ⟨by decide, rfl, rfl⟩

theorem rol (p : R2) : Statement (.rol p) := by
  obtain ⟨_, _, _, _, _, lit⟩ := p
  rintro _ _ _ ⟨⟩ _
  cases lit <;> exact ⟨by decide, rfl, rfl⟩

theorem ror (p : R2) : Statement (.ror p) := by
  obtain ⟨_, _, _, _, _, lit⟩ := p
  rintro _ _ _ ⟨⟩ _
  cases lit <;> exact ⟨by decide, rfl, rfl⟩

theorem slt (p : R2) : Statement (.slt p) := by
  obtain ⟨_, _, _, _, _, lit⟩ := p
  rintro _ _ _ ⟨⟩ _
  cases lit <;> exact ⟨by decide, rfl, rfl⟩

theorem sltu (p : R2) : Statement (.sltu p) := by
  obtain ⟨_, _, _, _, _, lit⟩ := p
  rintro _ _ _ ⟨⟩ _
  cases lit <;> exact ⟨by decide, rfl, rfl⟩

theorem min (p : R2) : Statement (.min p) := by
  obtain ⟨_, _, _, _, _, lit⟩ := p
  rintro _ _ _ ⟨⟩ _
  cases lit <;> exact ⟨by decide, rfl, rfl⟩

theorem max (p : R2) : Statement (.max p) := by
  obtain ⟨_, _, _, _, _, lit⟩ := p
  rintro _ _ _ ⟨⟩ _
  cases lit <;> exact ⟨by decide, rfl, rfl⟩

theorem minu (p : R2) : Statement (.minu p) := by
  obtain ⟨_, _, _, _, _, lit⟩ := p
  rintro _ _ _ ⟨⟩ _
  cases lit <;> exact ⟨by decide, rfl, rfl⟩

theorem maxu (p : R2) : Statement (.maxu p) := by
  obtain ⟨_, _, _, _, _, lit⟩ := p
  rintro _ _ _ ⟨⟩ _
  cases lit <;> exact ⟨by decide, rfl, rfl⟩

theorem clz (p : R1) : Statement (.clz p) := by rintro _ _ _ ⟨⟩ _; exact ⟨by decide, rfl, rfl⟩

theorem ctz (p : R1) : Statement (.ctz p) := by rintro _ _ _ ⟨⟩ _; exact ⟨by decide, rfl, rfl⟩

theorem popc (p : R1) : Statement (.popc p) := by rintro _ _ _ ⟨⟩ _; exact ⟨by decide, rfl, rfl⟩

theorem sext (p : R1) : Statement (.sext p) := by rintro _ _ _ ⟨⟩ _; exact ⟨by decide, rfl, rfl⟩

theorem zext (p : R1) : Statement (.zext p) := by rintro _ _ _ ⟨⟩ _; exact ⟨by decide, rfl, rfl⟩

theorem liReg (p : R1) : Statement (.liReg p) := by rintro _ _ _ ⟨⟩ _; exact ⟨by decide, rfl, rfl⟩

theorem liLit32 (p : R2) : Statement (.liLit32 p) := by
  obtain ⟨sf, d, a, b, m, lit⟩ := p
  rintro _ _ _ ⟨⟩ hw
  obtain ⟨h, -, f⟩ := rules_of hw
  cases lit
  · simp [Instr.rules] at f
  · exact ⟨by decide, rfl, rfl⟩

theorem liHn (p : L) : Statement (.liHn p) := by rintro _ _ _ ⟨⟩ _; exact ⟨by decide, rfl, rfl⟩

theorem lea (p : R2) : Statement (.lea p) := by
  obtain ⟨sf, d, a, b, m, lit⟩ := p
  rintro _ _ _ ⟨⟩ hw
  obtain ⟨h, -, f⟩ := rules_of hw
  cases lit
  · exact ⟨by decide, rfl, rfl⟩
  · simp [Instr.rules] at f

theorem leaDisp (p : R2) : Statement (.leaDisp p) := by
  obtain ⟨sf, d, a, b, m, lit⟩ := p
  rintro _ _ _ ⟨⟩ hw
  obtain ⟨h, -, f⟩ := rules_of hw
  cases lit
  · simp [Instr.rules] at f
  · exact ⟨by decide, rfl, rfl⟩

theorem sel (p : R3) : Statement (.sel p) := by rintro _ _ _ ⟨⟩ _; exact ⟨by decide, rfl, rfl⟩

theorem bfx (p : R3) : Statement (.bfx p) := by rintro _ _ _ ⟨⟩ _; exact ⟨by decide, rfl, rfl⟩

theorem bfi (p : R3) : Statement (.bfi p) := by rintro _ _ _ ⟨⟩ _; exact ⟨by decide, rfl, rfl⟩

theorem fadd (p : R2) : Statement (.fadd p) := by
  obtain ⟨_, _, _, _, _, lit⟩ := p
  rintro _ _ _ ⟨⟩ _
  cases lit <;> exact ⟨by decide, rfl, rfl⟩

theorem fsub (p : R2) : Statement (.fsub p) := by
  obtain ⟨_, _, _, _, _, lit⟩ := p
  rintro _ _ _ ⟨⟩ _
  cases lit <;> exact ⟨by decide, rfl, rfl⟩

theorem fmul (p : R2) : Statement (.fmul p) := by
  obtain ⟨_, _, _, _, _, lit⟩ := p
  rintro _ _ _ ⟨⟩ _
  cases lit <;> exact ⟨by decide, rfl, rfl⟩

theorem fdiv (p : R2) : Statement (.fdiv p) := by
  obtain ⟨_, _, _, _, _, lit⟩ := p
  rintro _ _ _ ⟨⟩ _
  cases lit <;> exact ⟨by decide, rfl, rfl⟩

theorem fsqrt (p : R1) : Statement (.fsqrt p) := by rintro _ _ _ ⟨⟩ _; exact ⟨by decide, rfl, rfl⟩

theorem fmadd (p : R3) : Statement (.fmadd p) := by rintro _ _ _ ⟨⟩ _; exact ⟨by decide, rfl, rfl⟩

theorem fmin (p : R2) : Statement (.fmin p) := by
  obtain ⟨_, _, _, _, _, lit⟩ := p
  rintro _ _ _ ⟨⟩ _
  cases lit <;> exact ⟨by decide, rfl, rfl⟩

theorem fmax (p : R2) : Statement (.fmax p) := by
  obtain ⟨_, _, _, _, _, lit⟩ := p
  rintro _ _ _ ⟨⟩ _
  cases lit <;> exact ⟨by decide, rfl, rfl⟩

theorem fcmp (p : R2) : Statement (.fcmp p) := by
  obtain ⟨_, _, _, _, _, lit⟩ := p
  rintro _ _ _ ⟨⟩ _
  cases lit <;> exact ⟨by decide, rfl, rfl⟩

theorem fcvt (p : R3) : Statement (.fcvt p) := by rintro _ _ _ ⟨⟩ _; exact ⟨by decide, rfl, rfl⟩

theorem fclass (p : R1) : Statement (.fclass p) := by rintro _ _ _ ⟨⟩ _; exact ⟨by decide, rfl, rfl⟩

theorem bCc (p : S) : Statement (.bCc p) := by rintro _ _ _ ⟨⟩ _; exact ⟨by decide, rfl, rfl⟩

theorem jShort (p : J) : Statement (.jShort p) := by rintro _ _ _ ⟨⟩ _; exact ⟨by decide, rfl, rfl⟩

theorem jLong (p : J) : Statement (.jLong p) := by rintro _ _ _ ⟨⟩ _; exact ⟨by decide, rfl, rfl⟩

theorem jalShort (p : J) : Statement (.jalShort p) := by rintro _ _ _ ⟨⟩ _; exact ⟨by decide, rfl, rfl⟩

theorem jalLong (p : J) : Statement (.jalLong p) := by rintro _ _ _ ⟨⟩ _; exact ⟨by decide, rfl, rfl⟩

theorem jr (p : R1) : Statement (.jr p) := by rintro _ _ _ ⟨⟩ _; exact ⟨by decide, rfl, rfl⟩

theorem ret (p : Head) : Statement (.ret p) := by rintro _ _ _ ⟨⟩ _; exact ⟨by decide, rfl, rfl⟩

theorem loop (p : S) : Statement (.loop p) := by rintro _ _ _ ⟨⟩ _; exact ⟨by decide, rfl, rfl⟩

theorem ld (p : L) : Statement (.ld p) := by rintro _ _ _ ⟨⟩ _; exact ⟨by decide, rfl, rfl⟩

theorem st (p : S) : Statement (.st p) := by rintro _ _ _ ⟨⟩ _; exact ⟨by decide, rfl, rfl⟩

theorem pref (p : S) : Statement (.pref p) := by rintro _ _ _ ⟨⟩ _; exact ⟨by decide, rfl, rfl⟩

theorem amo (p : R3) : Statement (.amo p) := by rintro _ _ _ ⟨⟩ _; exact ⟨by decide, rfl, rfl⟩

theorem lr (p : R1) : Statement (.lr p) := by rintro _ _ _ ⟨⟩ _; exact ⟨by decide, rfl, rfl⟩

theorem sc (p : R2) : Statement (.sc p) := by
  obtain ⟨sf, d, a, b, m, lit⟩ := p
  rintro _ _ _ ⟨⟩ hw
  obtain ⟨h, -, f⟩ := rules_of hw
  cases lit
  · exact ⟨by decide, rfl, rfl⟩
  · simp [Instr.rules] at f

theorem trap (p : R1) : Statement (.trap p) := by rintro _ _ _ ⟨⟩ _; exact ⟨by decide, rfl, rfl⟩

theorem eret (p : Head) : Statement (.eret p) := by rintro _ _ _ ⟨⟩ _; exact ⟨by decide, rfl, rfl⟩

theorem srr (p : L) : Statement (.srr p) := by rintro _ _ _ ⟨⟩ _; exact ⟨by decide, rfl, rfl⟩

theorem srw (p : L) : Statement (.srw p) := by rintro _ _ _ ⟨⟩ _; exact ⟨by decide, rfl, rfl⟩

theorem pause (p : R1) : Statement (.pause p) := by rintro _ _ _ ⟨⟩ _; exact ⟨by decide, rfl, rfl⟩

theorem pauseExpiry (h : HartId) : Statement (.pauseExpiry h) := by rintro _ _ _ ⟨⟩

theorem yield (p : R1) : Statement (.yield p) := by rintro _ _ _ ⟨⟩ _; exact ⟨by decide, rfl, rfl⟩

theorem wfev (p : Head) : Statement (.wfev p) := by rintro _ _ _ ⟨⟩ _; exact ⟨by decide, rfl, rfl⟩

theorem fenceSv (p : R1) : Statement (.fenceSv p) := by
  obtain ⟨sf, _, _⟩ := p
  rintro _ _ _ ⟨⟩ hw
  obtain ⟨h, -, -⟩ := rules_of hw
  obtain rfl : sf = 0 := sf_zero (by simp [Instr.rules] at h; simp [h])
  exact ⟨by decide, rfl, rfl⟩

theorem fenceStk (p : R1) : Statement (.fenceStk p) := by
  obtain ⟨sf, _, _⟩ := p
  rintro _ _ _ ⟨⟩ hw
  obtain ⟨h, -, -⟩ := rules_of hw
  obtain rfl : sf = 1 := by simp [Instr.rules] at h; simp [h]
  exact ⟨by decide, rfl, rfl⟩

theorem rel (p : R1) : Statement (.rel p) := by rintro _ _ _ ⟨⟩ _; exact ⟨by decide, rfl, rfl⟩

theorem acq (p : R1) : Statement (.acq p) := by rintro _ _ _ ⟨⟩ _; exact ⟨by decide, rfl, rfl⟩

theorem vsave (p : R1) : Statement (.vsave p) := by rintro _ _ _ ⟨⟩ _; exact ⟨by decide, rfl, rfl⟩

theorem vrstr (p : R1) : Statement (.vrstr p) := by rintro _ _ _ ⟨⟩ _; exact ⟨by decide, rfl, rfl⟩

theorem frz (p : Head) : Statement (.frz p) := by rintro _ _ _ ⟨⟩ _; exact ⟨by decide, rfl, rfl⟩

theorem vcfg (p : R1) : Statement (.vcfg p) := by rintro _ _ _ ⟨⟩ _; exact ⟨by decide, rfl, rfl⟩

theorem vsetl (p : R1) : Statement (.vsetl p) := by rintro _ _ _ ⟨⟩ _; exact ⟨by decide, rfl, rfl⟩

theorem vqlen (p : R1) : Statement (.vqlen p) := by rintro _ _ _ ⟨⟩ _; exact ⟨by decide, rfl, rfl⟩

theorem vbind (p : R2) : Statement (.vbind p) := by
  obtain ⟨sf, d, a, b, m, lit⟩ := p
  rintro _ _ _ ⟨⟩ hw
  obtain ⟨h, -, f⟩ := rules_of hw
  obtain rfl : sf = 0 := sf_zero (by simp [Instr.rules] at h; simp [h])
  cases lit
  · exact ⟨by decide, rfl, rfl⟩
  · simp [Instr.rules] at f

theorem vbindOff (p : R2) : Statement (.vbindOff p) := by
  obtain ⟨sf, d, a, b, m, lit⟩ := p
  rintro _ _ _ ⟨⟩ hw
  obtain ⟨h, -, f⟩ := rules_of hw
  obtain rfl : sf = 1 := by simp [Instr.rules] at h; simp [h]
  cases lit
  · exact ⟨by decide, rfl, rfl⟩
  · simp [Instr.rules] at f

theorem vspill (p : L) : Statement (.vspill p) := by rintro _ _ _ ⟨⟩ _; exact ⟨by decide, rfl, rfl⟩

theorem vfill (p : L) : Statement (.vfill p) := by rintro _ _ _ ⟨⟩ _; exact ⟨by decide, rfl, rfl⟩

theorem vadd (p : R2) : Statement (.vadd p) := by
  obtain ⟨_, _, _, _, _, lit⟩ := p
  rintro _ _ _ ⟨⟩ _
  cases lit <;> exact ⟨by decide, rfl, rfl⟩

theorem vsub (p : R2) : Statement (.vsub p) := by
  obtain ⟨_, _, _, _, _, lit⟩ := p
  rintro _ _ _ ⟨⟩ _
  cases lit <;> exact ⟨by decide, rfl, rfl⟩

theorem vmul (p : R2) : Statement (.vmul p) := by
  obtain ⟨_, _, _, _, _, lit⟩ := p
  rintro _ _ _ ⟨⟩ _
  cases lit <;> exact ⟨by decide, rfl, rfl⟩

theorem vfma (p : R3) : Statement (.vfma p) := by rintro _ _ _ ⟨⟩ _; exact ⟨by decide, rfl, rfl⟩

theorem vfms (p : R3) : Statement (.vfms p) := by rintro _ _ _ ⟨⟩ _; exact ⟨by decide, rfl, rfl⟩

theorem vnfma (p : R3) : Statement (.vnfma p) := by rintro _ _ _ ⟨⟩ _; exact ⟨by decide, rfl, rfl⟩

theorem vdiv (p : R2) : Statement (.vdiv p) := by
  obtain ⟨_, _, _, _, _, lit⟩ := p
  rintro _ _ _ ⟨⟩ _
  cases lit <;> exact ⟨by decide, rfl, rfl⟩

theorem vsqrt (p : R2) : Statement (.vsqrt p) := by
  obtain ⟨_, _, _, _, _, lit⟩ := p
  rintro _ _ _ ⟨⟩ _
  cases lit <;> exact ⟨by decide, rfl, rfl⟩

theorem vrsqrt (p : R2) : Statement (.vrsqrt p) := by
  obtain ⟨_, _, _, _, _, lit⟩ := p
  rintro _ _ _ ⟨⟩ _
  cases lit <;> exact ⟨by decide, rfl, rfl⟩

theorem vexp2 (p : R2) : Statement (.vexp2 p) := by
  obtain ⟨_, _, _, _, _, lit⟩ := p
  rintro _ _ _ ⟨⟩ _
  cases lit <;> exact ⟨by decide, rfl, rfl⟩

theorem vlog2 (p : R2) : Statement (.vlog2 p) := by
  obtain ⟨_, _, _, _, _, lit⟩ := p
  rintro _ _ _ ⟨⟩ _
  cases lit <;> exact ⟨by decide, rfl, rfl⟩

theorem vmin (p : R2) : Statement (.vmin p) := by
  obtain ⟨_, _, _, _, _, lit⟩ := p
  rintro _ _ _ ⟨⟩ _
  cases lit <;> exact ⟨by decide, rfl, rfl⟩

theorem vmax (p : R2) : Statement (.vmax p) := by
  obtain ⟨_, _, _, _, _, lit⟩ := p
  rintro _ _ _ ⟨⟩ _
  cases lit <;> exact ⟨by decide, rfl, rfl⟩

theorem vabs (p : R2) : Statement (.vabs p) := by
  obtain ⟨_, _, _, _, _, lit⟩ := p
  rintro _ _ _ ⟨⟩ _
  cases lit <;> exact ⟨by decide, rfl, rfl⟩

theorem vneg (p : R2) : Statement (.vneg p) := by
  obtain ⟨_, _, _, _, _, lit⟩ := p
  rintro _ _ _ ⟨⟩ _
  cases lit <;> exact ⟨by decide, rfl, rfl⟩

theorem vcvt (p : R3) : Statement (.vcvt p) := by rintro _ _ _ ⟨⟩ _; exact ⟨by decide, rfl, rfl⟩

theorem vclass (p : R2) : Statement (.vclass p) := by
  obtain ⟨sf, d, a, b, m, lit⟩ := p
  rintro _ _ _ ⟨⟩ hw
  obtain ⟨h, -, f⟩ := rules_of hw
  cases lit
  · exact ⟨by decide, rfl, rfl⟩
  · simp [Instr.rules] at f

theorem viadd (p : R2) : Statement (.viadd p) := by
  obtain ⟨_, _, _, _, _, lit⟩ := p
  rintro _ _ _ ⟨⟩ _
  cases lit <;> exact ⟨by decide, rfl, rfl⟩

theorem visub (p : R2) : Statement (.visub p) := by
  obtain ⟨_, _, _, _, _, lit⟩ := p
  rintro _ _ _ ⟨⟩ _
  cases lit <;> exact ⟨by decide, rfl, rfl⟩

theorem vimul (p : R2) : Statement (.vimul p) := by
  obtain ⟨_, _, _, _, _, lit⟩ := p
  rintro _ _ _ ⟨⟩ _
  cases lit <;> exact ⟨by decide, rfl, rfl⟩

theorem vimulh (p : R2) : Statement (.vimulh p) := by
  obtain ⟨_, _, _, _, _, lit⟩ := p
  rintro _ _ _ ⟨⟩ _
  cases lit <;> exact ⟨by decide, rfl, rfl⟩

theorem vand (p : R2) : Statement (.vand p) := by
  obtain ⟨_, _, _, _, _, lit⟩ := p
  rintro _ _ _ ⟨⟩ _
  cases lit <;> exact ⟨by decide, rfl, rfl⟩

theorem vor (p : R2) : Statement (.vor p) := by
  obtain ⟨_, _, _, _, _, lit⟩ := p
  rintro _ _ _ ⟨⟩ _
  cases lit <;> exact ⟨by decide, rfl, rfl⟩

theorem vxor (p : R2) : Statement (.vxor p) := by
  obtain ⟨_, _, _, _, _, lit⟩ := p
  rintro _ _ _ ⟨⟩ _
  cases lit <;> exact ⟨by decide, rfl, rfl⟩

theorem vshl (p : R2) : Statement (.vshl p) := by
  obtain ⟨_, _, _, _, _, lit⟩ := p
  rintro _ _ _ ⟨⟩ _
  cases lit <;> exact ⟨by decide, rfl, rfl⟩

theorem vshr (p : R2) : Statement (.vshr p) := by
  obtain ⟨_, _, _, _, _, lit⟩ := p
  rintro _ _ _ ⟨⟩ _
  cases lit <;> exact ⟨by decide, rfl, rfl⟩

theorem vsra (p : R2) : Statement (.vsra p) := by
  obtain ⟨_, _, _, _, _, lit⟩ := p
  rintro _ _ _ ⟨⟩ _
  cases lit <;> exact ⟨by decide, rfl, rfl⟩

theorem vimin (p : R2) : Statement (.vimin p) := by
  obtain ⟨_, _, _, _, _, lit⟩ := p
  rintro _ _ _ ⟨⟩ _
  cases lit <;> exact ⟨by decide, rfl, rfl⟩

theorem vimax (p : R2) : Statement (.vimax p) := by
  obtain ⟨_, _, _, _, _, lit⟩ := p
  rintro _ _ _ ⟨⟩ _
  cases lit <;> exact ⟨by decide, rfl, rfl⟩

theorem fVadd (p : R3) : Statement (.fVadd p) := by rintro _ _ _ ⟨⟩ _; exact ⟨by decide, rfl, rfl⟩

theorem fVsub (p : R3) : Statement (.fVsub p) := by rintro _ _ _ ⟨⟩ _; exact ⟨by decide, rfl, rfl⟩

theorem fVmul (p : R3) : Statement (.fVmul p) := by rintro _ _ _ ⟨⟩ _; exact ⟨by decide, rfl, rfl⟩

theorem fVfma (p : R3) : Statement (.fVfma p) := by rintro _ _ _ ⟨⟩ _; exact ⟨by decide, rfl, rfl⟩

theorem fVfms (p : R3) : Statement (.fVfms p) := by rintro _ _ _ ⟨⟩ _; exact ⟨by decide, rfl, rfl⟩

theorem fVnfma (p : R3) : Statement (.fVnfma p) := by rintro _ _ _ ⟨⟩ _; exact ⟨by decide, rfl, rfl⟩

theorem fVmin (p : R3) : Statement (.fVmin p) := by rintro _ _ _ ⟨⟩ _; exact ⟨by decide, rfl, rfl⟩

theorem fVmax (p : R3) : Statement (.fVmax p) := by rintro _ _ _ ⟨⟩ _; exact ⟨by decide, rfl, rfl⟩

theorem fVabs (p : R3) : Statement (.fVabs p) := by rintro _ _ _ ⟨⟩ _; exact ⟨by decide, rfl, rfl⟩

theorem fVneg (p : R3) : Statement (.fVneg p) := by rintro _ _ _ ⟨⟩ _; exact ⟨by decide, rfl, rfl⟩

theorem fVcvt (p : R3) : Statement (.fVcvt p) := by rintro _ _ _ ⟨⟩ _; exact ⟨by decide, rfl, rfl⟩

theorem fViadd (p : R3) : Statement (.fViadd p) := by rintro _ _ _ ⟨⟩ _; exact ⟨by decide, rfl, rfl⟩

theorem fVisub (p : R3) : Statement (.fVisub p) := by rintro _ _ _ ⟨⟩ _; exact ⟨by decide, rfl, rfl⟩

theorem fVimul (p : R3) : Statement (.fVimul p) := by rintro _ _ _ ⟨⟩ _; exact ⟨by decide, rfl, rfl⟩

theorem fVimulh (p : R3) : Statement (.fVimulh p) := by rintro _ _ _ ⟨⟩ _; exact ⟨by decide, rfl, rfl⟩

theorem fVand (p : R3) : Statement (.fVand p) := by rintro _ _ _ ⟨⟩ _; exact ⟨by decide, rfl, rfl⟩

theorem fVor (p : R3) : Statement (.fVor p) := by rintro _ _ _ ⟨⟩ _; exact ⟨by decide, rfl, rfl⟩

theorem fVxor (p : R3) : Statement (.fVxor p) := by rintro _ _ _ ⟨⟩ _; exact ⟨by decide, rfl, rfl⟩

theorem fVshl (p : R3) : Statement (.fVshl p) := by rintro _ _ _ ⟨⟩ _; exact ⟨by decide, rfl, rfl⟩

theorem fVshr (p : R3) : Statement (.fVshr p) := by rintro _ _ _ ⟨⟩ _; exact ⟨by decide, rfl, rfl⟩

theorem fVsra (p : R3) : Statement (.fVsra p) := by rintro _ _ _ ⟨⟩ _; exact ⟨by decide, rfl, rfl⟩

theorem fVimin (p : R3) : Statement (.fVimin p) := by rintro _ _ _ ⟨⟩ _; exact ⟨by decide, rfl, rfl⟩

theorem fVimax (p : R3) : Statement (.fVimax p) := by rintro _ _ _ ⟨⟩ _; exact ⟨by decide, rfl, rfl⟩

theorem vcmp (p : R2) : Statement (.vcmp p) := by
  obtain ⟨_, _, _, _, _, lit⟩ := p
  rintro _ _ _ ⟨⟩ _
  cases lit <;> exact ⟨by decide, rfl, rfl⟩

theorem qand (p : Q) : Statement (.qand p) := by rintro _ _ _ ⟨⟩ _; exact ⟨by decide, rfl, rfl⟩

theorem qor (p : Q) : Statement (.qor p) := by rintro _ _ _ ⟨⟩ _; exact ⟨by decide, rfl, rfl⟩

theorem qnot (p : Q) : Statement (.qnot p) := by rintro _ _ _ ⟨⟩ _; exact ⟨by decide, rfl, rfl⟩

theorem qpop (p : Q) : Statement (.qpop p) := by rintro _ _ _ ⟨⟩ _; exact ⟨by decide, rfl, rfl⟩

theorem qfirst (p : Q) : Statement (.qfirst p) := by rintro _ _ _ ⟨⟩ _; exact ⟨by decide, rfl, rfl⟩

theorem vsel (p : R2) : Statement (.vsel p) := by
  obtain ⟨_, _, _, _, _, lit⟩ := p
  rintro _ _ _ ⟨⟩ _
  cases lit <;> exact ⟨by decide, rfl, rfl⟩

theorem viota (p : R2) : Statement (.viota p) := by
  obtain ⟨sf, d, a, b, m, lit⟩ := p
  rintro _ _ _ ⟨⟩ hw
  obtain ⟨h, -, f⟩ := rules_of hw
  cases lit
  · exact ⟨by decide, rfl, rfl⟩
  · simp [Instr.rules] at f

theorem vred (p : R2) : Statement (.vred p) := by
  obtain ⟨sf, d, a, b, m, lit⟩ := p
  rintro _ _ _ ⟨⟩ hw
  obtain ⟨h, -, f⟩ := rules_of hw
  cases lit
  · exact ⟨by decide, rfl, rfl⟩
  · simp [Instr.rules] at f

theorem vredo (p : R2) : Statement (.vredo p) := by
  obtain ⟨sf, d, a, b, m, lit⟩ := p
  rintro _ _ _ ⟨⟩ hw
  obtain ⟨h, -, f⟩ := rules_of hw
  cases lit
  · exact ⟨by decide, rfl, rfl⟩
  · simp [Instr.rules] at f

theorem fVred (p : R3) : Statement (.fVred p) := by rintro _ _ _ ⟨⟩ _; exact ⟨by decide, rfl, rfl⟩

theorem fVredo (p : R3) : Statement (.fVredo p) := by rintro _ _ _ ⟨⟩ _; exact ⟨by decide, rfl, rfl⟩

theorem vscan (p : R2) : Statement (.vscan p) := by
  obtain ⟨_, _, _, _, _, lit⟩ := p
  rintro _ _ _ ⟨⟩ _
  cases lit <;> exact ⟨by decide, rfl, rfl⟩

theorem vperm (p : R2) : Statement (.vperm p) := by
  obtain ⟨_, _, _, _, _, lit⟩ := p
  rintro _ _ _ ⟨⟩ _
  cases lit <;> exact ⟨by decide, rfl, rfl⟩

theorem vslide (p : R2) : Statement (.vslide p) := by
  obtain ⟨_, _, _, _, _, lit⟩ := p
  rintro _ _ _ ⟨⟩ _
  cases lit <;> exact ⟨by decide, rfl, rfl⟩

theorem vcompress (p : R2) : Statement (.vcompress p) := by
  obtain ⟨_, _, _, _, _, lit⟩ := p
  rintro _ _ _ ⟨⟩ _
  cases lit <;> exact ⟨by decide, rfl, rfl⟩

theorem vexpand (p : R2) : Statement (.vexpand p) := by
  obtain ⟨_, _, _, _, _, lit⟩ := p
  rintro _ _ _ ⟨⟩ _
  cases lit <;> exact ⟨by decide, rfl, rfl⟩

theorem vbcast (p : R2) : Statement (.vbcast p) := by
  obtain ⟨_, _, _, _, _, lit⟩ := p
  rintro _ _ _ ⟨⟩ _
  cases lit <;> exact ⟨by decide, rfl, rfl⟩

theorem fVbcast (p : R3) : Statement (.fVbcast p) := by rintro _ _ _ ⟨⟩ _; exact ⟨by decide, rfl, rfl⟩

theorem vext (p : R2) : Statement (.vext p) := by
  obtain ⟨_, _, _, _, _, lit⟩ := p
  rintro _ _ _ ⟨⟩ _
  cases lit <;> exact ⟨by decide, rfl, rfl⟩

theorem vins (p : R2) : Statement (.vins p) := by
  obtain ⟨_, _, _, _, _, lit⟩ := p
  rintro _ _ _ ⟨⟩ _
  cases lit <;> exact ⟨by decide, rfl, rfl⟩

theorem vdupm (p : R2) : Statement (.vdupm p) := by
  obtain ⟨_, _, _, _, _, lit⟩ := p
  rintro _ _ _ ⟨⟩ _
  cases lit <;> exact ⟨by decide, rfl, rfl⟩

theorem vsortk (p : R3) : Statement (.vsortk p) := by rintro _ _ _ ⟨⟩ _; exact ⟨by decide, rfl, rfl⟩

theorem vtopk (p : R3) : Statement (.vtopk p) := by rintro _ _ _ ⟨⟩ _; exact ⟨by decide, rfl, rfl⟩

theorem vld (p : M) : Statement (.vld p) := by rintro _ _ _ ⟨⟩ _; exact ⟨by decide, rfl, rfl⟩

theorem vst (p : M) : Statement (.vst p) := by rintro _ _ _ ⟨⟩ _; exact ⟨by decide, rfl, rfl⟩

theorem vlds (p : M) : Statement (.vlds p) := by rintro _ _ _ ⟨⟩ _; exact ⟨by decide, rfl, rfl⟩

theorem vsts (p : M) : Statement (.vsts p) := by rintro _ _ _ ⟨⟩ _; exact ⟨by decide, rfl, rfl⟩

theorem vldx (p : M) : Statement (.vldx p) := by rintro _ _ _ ⟨⟩ _; exact ⟨by decide, rfl, rfl⟩

theorem vstx (p : M) : Statement (.vstx p) := by rintro _ _ _ ⟨⟩ _; exact ⟨by decide, rfl, rfl⟩

theorem vldt (p : M) : Statement (.vldt p) := by rintro _ _ _ ⟨⟩ _; exact ⟨by decide, rfl, rfl⟩

theorem vstt (p : M) : Statement (.vstt p) := by rintro _ _ _ ⟨⟩ _; exact ⟨by decide, rfl, rfl⟩

theorem vamo (p : M) : Statement (.vamo p) := by rintro _ _ _ ⟨⟩ _; exact ⟨by decide, rfl, rfl⟩

theorem vpref (p : M) : Statement (.vpref p) := by rintro _ _ _ ⟨⟩ _; exact ⟨by decide, rfl, rfl⟩

theorem fVld (p : M) : Statement (.fVld p) := by rintro _ _ _ ⟨⟩ _; exact ⟨by decide, rfl, rfl⟩

theorem fVst (p : M) : Statement (.fVst p) := by rintro _ _ _ ⟨⟩ _; exact ⟨by decide, rfl, rfl⟩

theorem fVlds (p : M) : Statement (.fVlds p) := by rintro _ _ _ ⟨⟩ _; exact ⟨by decide, rfl, rfl⟩

theorem fVsts (p : M) : Statement (.fVsts p) := by rintro _ _ _ ⟨⟩ _; exact ⟨by decide, rfl, rfl⟩

theorem fVldx (p : M) : Statement (.fVldx p) := by rintro _ _ _ ⟨⟩ _; exact ⟨by decide, rfl, rfl⟩

theorem fVstx (p : M) : Statement (.fVstx p) := by rintro _ _ _ ⟨⟩ _; exact ⟨by decide, rfl, rfl⟩

theorem fVamo (p : M) : Statement (.fVamo p) := by rintro _ _ _ ⟨⟩ _; exact ⟨by decide, rfl, rfl⟩

theorem fVpref (p : M) : Statement (.fVpref p) := by rintro _ _ _ ⟨⟩ _; exact ⟨by decide, rfl, rfl⟩

theorem fexpr (p : R3) : Statement (.fexpr p) := by rintro _ _ _ ⟨⟩ _; exact ⟨by decide, rfl, rfl⟩

theorem fdot (p : M) : Statement (.fdot p) := by rintro _ _ _ ⟨⟩ _; exact ⟨by decide, rfl, rfl⟩

theorem fred (p : M) : Statement (.fred p) := by rintro _ _ _ ⟨⟩ _; exact ⟨by decide, rfl, rfl⟩

theorem fget (p : R3) : Statement (.fget p) := by rintro _ _ _ ⟨⟩ _; exact ⟨by decide, rfl, rfl⟩

theorem fput (p : R3) : Statement (.fput p) := by rintro _ _ _ ⟨⟩ _; exact ⟨by decide, rfl, rfl⟩

theorem fattn (p : M) : Statement (.fattn p) := by rintro _ _ _ ⟨⟩ _; exact ⟨by decide, rfl, rfl⟩

theorem farRequestArrival (n : Nat) : Statement (.farRequestArrival n) := by rintro _ _ _ ⟨⟩

theorem farCompletion (n : Nat) : Statement (.farCompletion n) := by rintro _ _ _ ⟨⟩

theorem mshape (p : R3) : Statement (.mshape p) := by rintro _ _ _ ⟨⟩ _; exact ⟨by decide, rfl, rfl⟩

theorem mmaO (p : M) : Statement (.mmaO p) := by rintro _ _ _ ⟨⟩ _; exact ⟨by decide, rfl, rfl⟩

theorem mmaF (p : M) : Statement (.mmaF p) := by rintro _ _ _ ⟨⟩ _; exact ⟨by decide, rfl, rfl⟩

theorem mgrpO (p : M) : Statement (.mgrpO p) := by rintro _ _ _ ⟨⟩ _; exact ⟨by decide, rfl, rfl⟩

theorem mgrpF (p : M) : Statement (.mgrpF p) := by rintro _ _ _ ⟨⟩ _; exact ⟨by decide, rfl, rfl⟩

theorem mzero (p : R1) : Statement (.mzero p) := by rintro _ _ _ ⟨⟩ _; exact ⟨by decide, rfl, rfl⟩

theorem mld (p : M) : Statement (.mld p) := by rintro _ _ _ ⟨⟩ _; exact ⟨by decide, rfl, rfl⟩

theorem mst (p : M) : Statement (.mst p) := by rintro _ _ _ ⟨⟩ _; exact ⟨by decide, rfl, rfl⟩

theorem mmovBodyToVec (p : R2) : Statement (.mmovBodyToVec p) := by
  obtain ⟨sf, d, a, b, m, lit⟩ := p
  rintro _ _ _ ⟨⟩ hw
  obtain ⟨h, -, f⟩ := rules_of hw
  obtain rfl : sf = 0 := sf_zero (by simp [Instr.rules] at h; simp [h])
  cases lit
  · exact ⟨by decide, rfl, rfl⟩
  · simp [Instr.rules] at f

theorem mmovVecToBody (p : R2) : Statement (.mmovVecToBody p) := by
  obtain ⟨sf, d, a, b, m, lit⟩ := p
  rintro _ _ _ ⟨⟩ hw
  obtain ⟨h, -, f⟩ := rules_of hw
  obtain rfl : sf = 1 := by simp [Instr.rules] at h; simp [h]
  cases lit
  · exact ⟨by decide, rfl, rfl⟩
  · simp [Instr.rules] at f

theorem mmovStToVec (p : R2) : Statement (.mmovStToVec p) := by
  obtain ⟨sf, d, a, b, m, lit⟩ := p
  rintro _ _ _ ⟨⟩ hw
  obtain ⟨h, -, f⟩ := rules_of hw
  obtain rfl : sf = 2 := by simp [Instr.rules] at h; simp [h]
  cases lit
  · exact ⟨by decide, rfl, rfl⟩
  · simp [Instr.rules] at f

theorem mmovVecToSt (p : R2) : Statement (.mmovVecToSt p) := by
  obtain ⟨sf, d, a, b, m, lit⟩ := p
  rintro _ _ _ ⟨⟩ hw
  obtain ⟨h, -, f⟩ := rules_of hw
  obtain rfl : sf = 3 := by simp [Instr.rules] at h; simp [h]
  cases lit
  · exact ⟨by decide, rfl, rfl⟩
  · simp [Instr.rules] at f

theorem mscale (p : R2) : Statement (.mscale p) := by
  obtain ⟨sf, d, a, b, m, lit⟩ := p
  rintro _ _ _ ⟨⟩ hw
  obtain ⟨h, -, f⟩ := rules_of hw
  cases lit
  · exact ⟨by decide, rfl, rfl⟩
  · simp [Instr.rules] at f

theorem msoft (p : M) : Statement (.msoft p) := by rintro _ _ _ ⟨⟩ _; exact ⟨by decide, rfl, rfl⟩

theorem mmask (p : R2) : Statement (.mmask p) := by
  obtain ⟨sf, d, a, b, m, lit⟩ := p
  rintro _ _ _ ⟨⟩ hw
  obtain ⟨h, -, f⟩ := rules_of hw
  cases lit
  · exact ⟨by decide, rfl, rfl⟩
  · simp [Instr.rules] at f

theorem mmerge (p : R2) : Statement (.mmerge p) := by
  obtain ⟨sf, d, a, b, m, lit⟩ := p
  rintro _ _ _ ⟨⟩ hw
  obtain ⟨h, -, f⟩ := rules_of hw
  cases lit
  · exact ⟨by decide, rfl, rfl⟩
  · simp [Instr.rules] at f

theorem mfin (p : M) : Statement (.mfin p) := by rintro _ _ _ ⟨⟩ _; exact ⟨by decide, rfl, rfl⟩

theorem vproj (p : M) : Statement (.vproj p) := by rintro _ _ _ ⟨⟩ _; exact ⟨by decide, rfl, rfl⟩

theorem vpmerge (p : R2) : Statement (.vpmerge p) := by
  obtain ⟨sf, d, a, b, m, lit⟩ := p
  rintro _ _ _ ⟨⟩ hw
  obtain ⟨h, -, f⟩ := rules_of hw
  cases lit
  · exact ⟨by decide, rfl, rfl⟩
  · simp [Instr.rules] at f

theorem vpfin (p : M) : Statement (.vpfin p) := by rintro _ _ _ ⟨⟩ _; exact ⟨by decide, rfl, rfl⟩

theorem vpgrad (p : M) : Statement (.vpgrad p) := by rintro _ _ _ ⟨⟩ _; exact ⟨by decide, rfl, rfl⟩

theorem eqclaim (p : R2) : Statement (.eqclaim p) := by
  obtain ⟨sf, d, a, b, m, lit⟩ := p
  rintro _ _ _ ⟨⟩ hw
  obtain ⟨h, -, f⟩ := rules_of hw
  cases lit
  · exact ⟨by decide, rfl, rfl⟩
  · simp [Instr.rules] at f

theorem tsend (p : R2) : Statement (.tsend p) := by
  obtain ⟨sf, d, a, b, m, lit⟩ := p
  rintro _ _ _ ⟨⟩ hw
  obtain ⟨h, -, f⟩ := rules_of hw
  cases lit
  · exact ⟨by decide, rfl, rfl⟩
  · simp [Instr.rules] at f

theorem ttake (p : R2) : Statement (.ttake p) := by
  obtain ⟨sf, d, a, b, m, lit⟩ := p
  rintro _ _ _ ⟨⟩ hw
  obtain ⟨h, -, f⟩ := rules_of hw
  obtain rfl : sf = 0 := sf_zero (by simp [Instr.rules] at h; simp [h])
  cases lit
  · exact ⟨by decide, rfl, rfl⟩
  · simp [Instr.rules] at f

theorem ttakeM (p : R2) : Statement (.ttakeM p) := by
  obtain ⟨sf, d, a, b, m, lit⟩ := p
  rintro _ _ _ ⟨⟩ hw
  obtain ⟨h, -, f⟩ := rules_of hw
  obtain rfl : sf = 1 := by simp [Instr.rules] at h; simp [h]
  cases lit
  · exact ⟨by decide, rfl, rfl⟩
  · simp [Instr.rules] at f

theorem tlook (p : R2) : Statement (.tlook p) := by
  obtain ⟨sf, d, a, b, m, lit⟩ := p
  rintro _ _ _ ⟨⟩ hw
  obtain ⟨h, -, f⟩ := rules_of hw
  obtain rfl : sf = 0 := sf_zero (by simp [Instr.rules] at h; simp [h])
  cases lit
  · exact ⟨by decide, rfl, rfl⟩
  · simp [Instr.rules] at f

theorem tlookM (p : R2) : Statement (.tlookM p) := by
  obtain ⟨sf, d, a, b, m, lit⟩ := p
  rintro _ _ _ ⟨⟩ hw
  obtain ⟨h, -, f⟩ := rules_of hw
  obtain rfl : sf = 1 := by simp [Instr.rules] at h; simp [h]
  cases lit
  · exact ⟨by decide, rfl, rfl⟩
  · simp [Instr.rules] at f

theorem tdrop (p : R1) : Statement (.tdrop p) := by rintro _ _ _ ⟨⟩ _; exact ⟨by decide, rfl, rfl⟩

theorem twait (p : R1) : Statement (.twait p) := by rintro _ _ _ ⟨⟩ _; exact ⟨by decide, rfl, rfl⟩

theorem tmark (p : R1) : Statement (.tmark p) := by rintro _ _ _ ⟨⟩ _; exact ⟨by decide, rfl, rfl⟩

theorem holdEntryRequest (n : Nat) : Statement (.holdEntryRequest n) := by rintro _ _ _ ⟨⟩

theorem nodeCopy (p : R3) : Statement (.nodeCopy p) := by rintro _ _ _ ⟨⟩ _; exact ⟨by decide, rfl, rfl⟩

theorem nodeCall (p : R3) : Statement (.nodeCall p) := by rintro _ _ _ ⟨⟩ _; exact ⟨by decide, rfl, rfl⟩

theorem nodeEdge (p : R2) : Statement (.nodeEdge p) := by
  obtain ⟨sf, d, a, b, m, lit⟩ := p
  rintro _ _ _ ⟨⟩ hw
  obtain ⟨h, -, f⟩ := rules_of hw
  cases lit
  · exact ⟨by decide, rfl, rfl⟩
  · simp [Instr.rules] at f

theorem nodeArm (p : R1) : Statement (.nodeArm p) := by
  obtain ⟨sf, _, _⟩ := p
  rintro _ _ _ ⟨⟩ hw
  obtain ⟨h, -, -⟩ := rules_of hw
  obtain rfl : sf = 0 := sf_zero (by simp [Instr.rules] at h; simp [h])
  exact ⟨by decide, rfl, rfl⟩

theorem nodeArmDone (p : R1) : Statement (.nodeArmDone p) := by
  obtain ⟨sf, _, _⟩ := p
  rintro _ _ _ ⟨⟩ hw
  obtain ⟨h, -, -⟩ := rules_of hw
  obtain rfl : sf = 1 := by simp [Instr.rules] at h; simp [h]
  exact ⟨by decide, rfl, rfl⟩

theorem nodeWait (p : R1) : Statement (.nodeWait p) := by rintro _ _ _ ⟨⟩ _; exact ⟨by decide, rfl, rfl⟩

theorem copyNodeStart (m : Nat) (i : Nat) : Statement (.copyNodeStart m i) := by rintro _ _ _ ⟨⟩

theorem copyNodeFinish (m : Nat) (i : Nat) : Statement (.copyNodeFinish m i) := by rintro _ _ _ ⟨⟩

theorem callNodeDelivery (m : Nat) (i : Nat) : Statement (.callNodeDelivery m i) := by rintro _ _ _ ⟨⟩

theorem publish (p : R1) : Statement (.publish p) := by rintro _ _ _ ⟨⟩ _; exact ⟨by decide, rfl, rfl⟩

theorem hwpub (p : R2) : Statement (.hwpub p) := by
  obtain ⟨sf, d, a, b, m, lit⟩ := p
  rintro _ _ _ ⟨⟩ hw
  obtain ⟨h, -, f⟩ := rules_of hw
  cases lit
  · exact ⟨by decide, rfl, rfl⟩
  · simp [Instr.rules] at f

theorem bar (p : R1) : Statement (.bar p) := by rintro _ _ _ ⟨⟩ _; exact ⟨by decide, rfl, rfl⟩

theorem barDom (p : R1) : Statement (.barDom p) := by rintro _ _ _ ⟨⟩ _; exact ⟨by decide, rfl, rfl⟩

theorem barDomMessage (n : Nat) : Statement (.barDomMessage n) := by rintro _ _ _ ⟨⟩

theorem kvmap (p : R3) : Statement (.kvmap p) := by rintro _ _ _ ⟨⟩ _; exact ⟨by decide, rfl, rfl⟩

theorem kvapp (p : R3) : Statement (.kvapp p) := by rintro _ _ _ ⟨⟩ _; exact ⟨by decide, rfl, rfl⟩

theorem kvxl (p : R3) : Statement (.kvxl p) := by
  obtain ⟨sf, _, _, _, _, _, _, _⟩ := p
  rintro _ _ _ ⟨⟩ hw
  obtain ⟨h, -, -⟩ := rules_of hw
  obtain rfl : sf = 0 := sf_zero (by simp [Instr.rules] at h; simp [h])
  exact ⟨by decide, rfl, rfl⟩

theorem kvxlE (p : R3) : Statement (.kvxlE p) := by
  obtain ⟨sf, _, _, _, _, _, _, _⟩ := p
  rintro _ _ _ ⟨⟩ hw
  obtain ⟨h, -, -⟩ := rules_of hw
  obtain rfl : sf = 1 := by simp [Instr.rules] at h; simp [h]
  exact ⟨by decide, rfl, rfl⟩

theorem kvfork (p : R3) : Statement (.kvfork p) := by rintro _ _ _ ⟨⟩ _; exact ⟨by decide, rfl, rfl⟩

theorem kvrel (p : R3) : Statement (.kvrel p) := by rintro _ _ _ ⟨⟩ _; exact ⟨by decide, rfl, rfl⟩

theorem kvscore (p : R3) : Statement (.kvscore p) := by rintro _ _ _ ⟨⟩ _; exact ⟨by decide, rfl, rfl⟩

theorem kvtopk (p : R3) : Statement (.kvtopk p) := by rintro _ _ _ ⟨⟩ _; exact ⟨by decide, rfl, rfl⟩

theorem kvkeep (p : R3) : Statement (.kvkeep p) := by rintro _ _ _ ⟨⟩ _; exact ⟨by decide, rfl, rfl⟩

theorem kvpidx (p : R3) : Statement (.kvpidx p) := by
  obtain ⟨sf, _, _, _, _, _, _, _⟩ := p
  rintro _ _ _ ⟨⟩ hw
  obtain ⟨h, -, -⟩ := rules_of hw
  obtain rfl : sf = 0 := sf_zero (by simp [Instr.rules] at h; simp [h])
  exact ⟨by decide, rfl, rfl⟩

theorem kvpidxIns (p : R3) : Statement (.kvpidxIns p) := by
  obtain ⟨sf, _, _, _, _, _, _, _⟩ := p
  rintro _ _ _ ⟨⟩ hw
  obtain ⟨h, -, -⟩ := rules_of hw
  obtain rfl : sf = 1 := by simp [Instr.rules] at h; simp [h]
  exact ⟨by decide, rfl, rfl⟩

theorem kvRemoteRequest (n : Nat) : Statement (.kvRemoteRequest n) := by rintro _ _ _ ⟨⟩

theorem remoteRequestArrival (n : Nat) : Statement (.remoteRequestArrival n) := by rintro _ _ _ ⟨⟩

theorem remoteStoreAck (n : Nat) : Statement (.remoteStoreAck n) := by rintro _ _ _ ⟨⟩

theorem staleRefusal (n : Nat) : Statement (.staleRefusal n) := by rintro _ _ _ ⟨⟩

theorem mscReadRequest (loc : Nat) : Statement (.mscReadRequest loc) := by rintro _ _ _ ⟨⟩

theorem mscWrite (loc : Nat) (bytes : List Byte) (readers : BitVec 4) : Statement (.mscWrite loc bytes readers) := by rintro _ _ _ ⟨⟩

theorem memoryAccessPerform (h : HartId) : Statement (.memoryAccessPerform h) := by rintro _ _ _ ⟨⟩

theorem hostMemoryAccess (m : Nat) (pa : Nat) (n : Nat) (write : Option (List Byte)) : Statement (.hostMemoryAccess m pa n write) := by rintro _ _ _ ⟨⟩

theorem hostQtailWrite (m : Nat) (q : Nat) (tail : BitVec 32) : Statement (.hostQtailWrite m q tail) := by rintro _ _ _ ⟨⟩

theorem qcfgEnable (m : Nat) (q : Nat) (v : Word) : Statement (.qcfgEnable m q v) := by rintro _ _ _ ⟨⟩

theorem qcfgDisable (m : Nat) (q : Nat) (v : Word) : Statement (.qcfgDisable m q v) := by rintro _ _ _ ⟨⟩

theorem registerWrite (m : Nat) (off : Nat) (v : Word) : Statement (.registerWrite m off v) := by rintro _ _ _ ⟨⟩

theorem schedulerPlace (m : Nat) (want : List Nat) : Statement (.schedulerPlace m want) := by rintro _ _ _ ⟨⟩

theorem headAgeExpiry (m : Nat) (q : Nat) : Statement (.headAgeExpiry m q) := by rintro _ _ _ ⟨⟩

theorem marchPacketReceive (n : Nat) (want : List Nat) : Statement (.marchPacketReceive n want) := by rintro _ _ _ ⟨⟩

theorem marchArrival (n : Nat) : Statement (.marchArrival n) := by rintro _ _ _ ⟨⟩

theorem marchRelease (n : Nat) : Statement (.marchRelease n) := by rintro _ _ _ ⟨⟩

theorem marchDisarm (n : Nat) : Statement (.marchDisarm n) := by rintro _ _ _ ⟨⟩

theorem marchTimeout (l : Nat) (rk : Nat) : Statement (.marchTimeout l rk) := by rintro _ _ _ ⟨⟩

theorem rankEndReport (n : Nat) : Statement (.rankEndReport n) := by rintro _ _ _ ⟨⟩

theorem launchCompletion (l : Nat) (rk : Nat) : Statement (.launchCompletion l rk) := by rintro _ _ _ ⟨⟩

theorem noticePost (h : HartId) (deadline : BitVec 32) : Statement (.noticePost h deadline) := by rintro _ _ _ ⟨⟩

theorem forcedPreemption (h : HartId) : Statement (.forcedPreemption h) := by rintro _ _ _ ⟨⟩

theorem launchSuspend (l : Nat) (rk : Nat) (deadline : BitVec 32) : Statement (.launchSuspend l rk deadline) := by rintro _ _ _ ⟨⟩

theorem launchResume (l : Nat) (rk : Nat) (cores : List Nat) (want : List Nat) : Statement (.launchResume l rk cores want) := by rintro _ _ _ ⟨⟩

theorem watchdogFire (h : HartId) : Statement (.watchdogFire h) := by rintro _ _ _ ⟨⟩

theorem deadlockCheck (m : Nat) : Statement (.deadlockCheck m) := by rintro _ _ _ ⟨⟩

theorem errrecActResume (m : Nat) (q : Nat) : Statement (.errrecActResume m q) := by rintro _ _ _ ⟨⟩

theorem errrecActAbort (m : Nat) (q : Nat) : Statement (.errrecActAbort m q) := by rintro _ _ _ ⟨⟩

theorem errrecValidClear (m : Nat) (q : Nat) : Statement (.errrecValidClear m q) := by rintro _ _ _ ⟨⟩

theorem domainActAbort (m : Nat) : Statement (.domainActAbort m) := by rintro _ _ _ ⟨⟩

theorem errorRecordForward (n : Nat) : Statement (.errorRecordForward n) := by rintro _ _ _ ⟨⟩

theorem actForward (n : Nat) : Statement (.actForward n) := by rintro _ _ _ ⟨⟩

theorem errcntClr (m : Nat) : Statement (.errcntClr m) := by rintro _ _ _ ⟨⟩

theorem stackCountClr (m : Nat) (s : Nat) : Statement (.stackCountClr m s) := by rintro _ _ _ ⟨⟩

theorem xrelValidClear (m : Nat) : Statement (.xrelValidClear m) := by rintro _ _ _ ⟨⟩

theorem tapIdcode (m : Nat) : Statement (.tapIdcode m) := by rintro _ _ _ ⟨⟩

theorem tapSolstat (m : Nat) : Statement (.tapSolstat m) := by rintro _ _ _ ⟨⟩

theorem tapSolsel (m : Nat) (v : Word) : Statement (.tapSolsel m v) := by rintro _ _ _ ⟨⟩

theorem tapSoldata (m : Nat) : Statement (.tapSoldata m) := by rintro _ _ _ ⟨⟩

theorem tapSolfrz (m : Nat) : Statement (.tapSolfrz m) := by rintro _ _ _ ⟨⟩

theorem tapSolrst (m : Nat) : Statement (.tapSolrst m) := by rintro _ _ _ ⟨⟩

theorem tapBypass (m : Nat) (b : Bool) : Statement (.tapBypass m b) := by rintro _ _ _ ⟨⟩

theorem solsticeUnlock (m : Nat) (req : List Byte) : Statement (.solsticeUnlock m req) := by rintro _ _ _ ⟨⟩

theorem spdmRequest (m : Nat) (req : List Byte) : Statement (.spdmRequest m req) := by rintro _ _ _ ⟨⟩

theorem mboebFreeze (m : Nat) : Statement (.mboebFreeze m) := by rintro _ _ _ ⟨⟩

theorem warmReset (m : Nat) : Statement (.warmReset m) := by rintro _ _ _ ⟨⟩

theorem powerOnBoot (m : Nat) (image : List Byte) (signature : List Byte) (key : Nat) (version : Nat) : Statement (.powerOnBoot m image signature key version) := by rintro _ _ _ ⟨⟩

theorem d3hotEntry (m : Nat) : Statement (.d3hotEntry m) := by rintro _ _ _ ⟨⟩

theorem d0Return (m : Nat) : Statement (.d0Return m) := by rintro _ _ _ ⟨⟩

theorem powerRemoval (m : Nat) : Statement (.powerRemoval m) := by rintro _ _ _ ⟨⟩

theorem thermalStepDown (m : Nat) (temp : Nat) : Statement (.thermalStepDown m temp) := by rintro _ _ _ ⟨⟩

theorem thermalTrip (m : Nat) (temp : Nat) : Statement (.thermalTrip m temp) := by rintro _ _ _ ⟨⟩

theorem vcoreRemoval (m : Nat) : Statement (.vcoreRemoval m) := by rintro _ _ _ ⟨⟩

theorem powerCapWindow (m : Nat) (point : Fin 4) : Statement (.powerCapWindow m point) := by rintro _ _ _ ⟨⟩

theorem refreshCommand (m : Nat) (s : Nat) (bank : Nat) (found : Finding) : Statement (.refreshCommand m s bank found) := by rintro _ _ _ ⟨⟩

theorem rowActivationAlert (m : Nat) (s : Nat) (bank : Nat) : Statement (.rowActivationAlert m s bank) := by rintro _ _ _ ⟨⟩

theorem activationBackoffEnd (m : Nat) (s : Nat) (bank : Nat) : Statement (.activationBackoffEnd m s bank) := by rintro _ _ _ ⟨⟩

theorem droopVbaseLow (m : Nat) (s : Nat) : Statement (.droopVbaseLow m s) := by rintro _ _ _ ⟨⟩

theorem droopStopEnd (m : Nat) (s : Nat) : Statement (.droopStopEnd m s) := by rintro _ _ _ ⟨⟩

theorem patrolSweep (m : Nat) (w : SramWord) (found : Finding) : Statement (.patrolSweep m w found) := by rintro _ _ _ ⟨⟩

theorem bankCountCopy (m : Nat) (s : Nat) : Statement (.bankCountCopy m s) := by rintro _ _ _ ⟨⟩

theorem migrationTrigger (m : Nat) (page : Nat) (src : Nat) (frame : Nat) : Statement (.migrationTrigger m page src frame) := by rintro _ _ _ ⟨⟩

theorem migrationHoldTimeout (h : HartId) : Statement (.migrationHoldTimeout h) := by rintro _ _ _ ⟨⟩

theorem pageTierMigrate (m : Nat) (src : Nat) (dst : Nat) (size : Nat) : Statement (.pageTierMigrate m src dst size) := by rintro _ _ _ ⟨⟩

theorem autumnRun (m : Nat) (root : Nat) (tier : Nat) (cls : Nat) (atp : Word) : Statement (.autumnRun m root tier cls atp) := by rintro _ _ _ ⟨⟩

theorem constBankReload (l : Nat) (rk : Nat) (ka : Nat) (kb : Nat) (image : Word) : Statement (.constBankReload l rk ka kb image) := by rintro _ _ _ ⟨⟩

theorem tlbInvalidate (m : Nat) (asid : Option Nat) (va : Nat) (len : Nat) : Statement (.tlbInvalidate m asid va len) := by rintro _ _ _ ⟨⟩

theorem publishableSetup (m : Nat) (asid : Nat) (va : Nat) (len : Nat) (image0 : Nat) (image1 : Nat) (dom : Bool) : Statement (.publishableSetup m asid va len image0 image1 dom) := by rintro _ _ _ ⟨⟩

theorem frzEnable (l : Nat) : Statement (.frzEnable l) := by rintro _ _ _ ⟨⟩

theorem cxlExtentAccept (m : Nat) (base : Nat) (len : Nat) (off : Nat) : Statement (.cxlExtentAccept m base len off) := by rintro _ _ _ ⟨⟩

theorem cxlExtentRelease (m : Nat) (off : Nat) : Statement (.cxlExtentRelease m off) := by rintro _ _ _ ⟨⟩

theorem ualinkLinkError (m : Nat) (p : Nat) : Statement (.ualinkLinkError m p) := by rintro _ _ _ ⟨⟩

theorem ualinkPortFailure (m : Nat) (p : Nat) : Statement (.ualinkPortFailure m p) := by rintro _ _ _ ⟨⟩

theorem rankLost (m : Nat) (lost : Nat) : Statement (.rankLost m lost) := by rintro _ _ _ ⟨⟩

theorem hostLinkDown (m : Nat) : Statement (.hostLinkDown m) := by rintro _ _ _ ⟨⟩

theorem hartResume (h : HartId) (lanes : Nat) : Statement (.hartResume h lanes) := by rintro _ _ _ ⟨⟩

theorem entryGrant (n : Nat) : Statement (.entryGrant n) := by rintro _ _ _ ⟨⟩

theorem linkTrained (m : Nat) (p : Nat) : Statement (.linkTrained m p) := by rintro _ _ _ ⟨⟩

theorem hostLinkUp (m : Nat) : Statement (.hostLinkUp m) := by rintro _ _ _ ⟨⟩

theorem publishabilityWithdrawal (m : Nat) (i : Nat) : Statement (.publishabilityWithdrawal m i) := by rintro _ _ _ ⟨⟩

theorem indexEntryRemoval (m : Nat) (root : Nat) (bucket : Nat) (slot : Nat) (atp : Word) : Statement (.indexEntryRemoval m root bucket slot atp) := by rintro _ _ _ ⟨⟩

theorem migratableMarkClear (m : Nat) (page : Nat) : Statement (.migratableMarkClear m page) := by rintro _ _ _ ⟨⟩

theorem forcedExtentWithdrawal (m : Nat) (off : Nat) : Statement (.forcedExtentWithdrawal m off) := by rintro _ _ _ ⟨⟩

end Sys2Proof.Laws.FormatSelects
end

