-- ==== Sys2Proof/Tests/Slice0.lean ====
section
/-! SUPPORT. The model's own tests: words written out from the spec's encodings, ill-formed terms that are refused, one step at a time,
and for every statement a state and operands that meet its hypotheses. -/

namespace Sys2Proof.Tests

set_option Elab.async false

open Sys2Proof Sys2Proof.Machine

/-! ### Words written out from the encodings of R169, R174 to R182 -/

theorem test_words_scalar : decode 0x0000 0 = .ok (.nop ⟨0⟩) ∧ decode 0x0C80 0 = .ok (.ret ⟨0⟩) ∧
    decode 0x43C0 0x1F00 = .ok (.liReg ⟨0, 7, ⟨3, 0⟩⟩) ∧
    decode 0x8020 0x1D074200 = .ok (.add ⟨0, 7, ⟨1, 7⟩, ⟨1, 8⟩, ⟨0, 0⟩, none⟩) ∧
    decode 0x9001 0x21050000 = .ok (.ld ⟨1, 8, ⟨1, 5⟩, 0⟩) ∧
    decode 0x8CA0 0x41B01FFD = .ok (.loop ⟨0, ⟨1, 6⟩, ⟨3, 1⟩, 0xFFD⟩) ∧
    decode 0x54A0 0x0300 = .ok (.yield ⟨0, 0, ⟨3, 0⟩⟩) := by decide +kernel

theorem test_words_vector : decode 0xDC60 0x0408024010000000 = .ok (.vfma ⟨0, 1, ⟨0, 8⟩, ⟨0, 9⟩, ⟨0, 1⟩, ⟨0, 0⟩, 0, 0⟩) ∧
    decode 0xA820 0x1001C000 = .ok (.vredo ⟨0, 4, ⟨0, 1⟩, ⟨3, 0⟩, ⟨0, 0⟩, none⟩) ∧
    decode 0xEC82 0x1906010024000000 = .ok (.vldx ⟨2, 6, ⟨1, 6⟩, ⟨0, 4⟩, 0, 0, ⟨1, 1⟩, 0, 0⟩) ∧
    decode 0xDDE0 0x1C02000000000021 = .ok (.vcvt ⟨0, 7, ⟨0, 2⟩, ⟨0, 0⟩, ⟨0, 0⟩, ⟨0, 0⟩, 0, 0x21⟩) := by decide +kernel

theorem test_words_permute : decode 0xE960 0x1008414000000004 = .ok (.vsortk ⟨0, 4, ⟨0, 8⟩, ⟨1, 5⟩, ⟨0, 0⟩, ⟨0, 0⟩, 0, 4⟩) ∧
    decode 0xA940 0x14040000 = .ok (.vdupm ⟨0, 5, ⟨0, 4⟩, ⟨0, 0⟩, ⟨0, 0⟩, none⟩) ∧
    decode 0x9880 0x52020000 = .ok (.vspill ⟨0, 20, ⟨2, 2⟩, 0⟩) := by decide +kernel

theorem test_words_matrix : decode 0xF010 0x0800004000084828 = .ok (.fexpr ⟨0, 2, ⟨0, 0⟩, ⟨0, 1⟩, ⟨0, 0⟩, ⟨0, 0⟩, 0, 0x84828⟩) ∧
    decode 0xF420 0x05044144018C7420 = .ok (.mmaO ⟨0, 1, ⟨1, 4⟩, ⟨1, 5⟩, 1, 0, ⟨0, 0⟩, 6, 0x0C7420⟩) ∧
    decode 0xF540 0x010641C400008400 = .ok (.msoft ⟨0, 0, ⟨1, 6⟩, ⟨1, 7⟩, 1, 0, ⟨0, 0⟩, 0, 0x8400⟩) ∧
    decode 0xF460 0x010B430000000000 = .ok (.mgrpO ⟨0, 0, ⟨1, 0xB⟩, ⟨1, 0xC⟩, 0, 0, ⟨0, 0⟩, 0, 0⟩) ∧
    decode 0xB5A1 0x0A094580 = .ok (.mmask ⟨1, 2, ⟨2, 9⟩, ⟨1, 0x16⟩, ⟨0, 0⟩, none⟩) := by decide +kernel

theorem test_words_tasks : decode 0xB800 0x01050100 = .ok (.tsend ⟨0, 0, ⟨1, 5⟩, ⟨0, 4⟩, ⟨0, 0⟩, none⟩) ∧
    decode 0xB820 0x21050000 = .ok (.ttake ⟨0, 8, ⟨1, 5⟩, ⟨0, 0⟩, ⟨0, 0⟩, none⟩) ∧
    decode 0xF8C0 0x250541802000000A = .ok (.nodeCopy ⟨0, 9, ⟨1, 5⟩, ⟨1, 6⟩, ⟨0, 2⟩, ⟨0, 0⟩, 0, 0x0A⟩) ∧
    decode 0xB9A0 0x310B0000 = .ok (.eqclaim ⟨0, 12, ⟨1, 0xB⟩, ⟨0, 0⟩, ⟨0, 0⟩, none⟩) := by decide +kernel

theorem test_words_cache : decode 0xFC40 0x2505C90000000000 = .ok (.kvxl ⟨0, 9, ⟨1, 5⟩, ⟨3, 0x24⟩, ⟨0, 0⟩, ⟨0, 0⟩, 0, 0⟩) ∧
    decode 0xFC60 0x0D0541B280000000 = .ok (.kvfork ⟨0, 3, ⟨1, 5⟩, ⟨1, 6⟩, ⟨3, 0x28⟩, ⟨0, 0⟩, 0, 0⟩) ∧
    decode 0xFC20 0x2104C04000000000 = .ok (.kvapp ⟨0, 8, ⟨1, 4⟩, ⟨3, 1⟩, ⟨0, 0⟩, ⟨0, 0⟩, 0, 0⟩) ∧
    decode 0xFCC0 0x15058150E0000000 = .ok (.kvtopk ⟨0, 5, ⟨1, 5⟩, ⟨2, 5⟩, ⟨1, 0xE⟩, ⟨0, 0⟩, 0, 0⟩) ∧
    decode 0xFCE0 0x2505000090000000 = .ok (.kvkeep ⟨0, 9, ⟨1, 5⟩, ⟨0, 0⟩, ⟨0, 9⟩, ⟨0, 0⟩, 0, 0⟩) := by decide +kernel

/-! ### Heads and words that the encoding refuses, one for each cause of R417 -/

theorem test_refused_words : decode 0x0060 0 = .error ⟨0x02, 0x05⟩ ∧ decode 0x0010 0 = .error ⟨0x02, 0x06⟩ ∧
    decode 0x0001 0 = .error ⟨0x02, 0x08⟩ ∧ decode 0x9C10 0 = .error ⟨0x02, 0x05⟩ ∧
    decode 0x8020 0x1D074201 = .error ⟨0x03, 0x02⟩ ∧ lineHeads [0] = .error ⟨0x02, 0x01⟩ ∧ lineHeads [0x0021] = .error ⟨0x02, 0x02⟩ ∧
    lineHeads [31, 0xC000] = .error ⟨0x02, 0x03⟩ := by decide +kernel

/-- SF outside the variants, a source of a kind that LEA does not take, a literal field with no reader, a reserved mask mode, a
destination that names no tile, POS + LEN above 64: a term that breaks each kind of rule is not well formed. -/
theorem test_wellFormed_refuses : (Instr.nop ⟨1⟩).wellFormed = false ∧ (Instr.nop ⟨0⟩).wellFormed = true ∧
    (Instr.add ⟨2, 7, ⟨1, 7⟩, ⟨1, 8⟩, ⟨0, 0⟩, none⟩).wellFormed = false ∧
    (Instr.lea ⟨0, 7, ⟨0, 7⟩, ⟨1, 8⟩, ⟨0, 0⟩, none⟩).wellFormed = false ∧
    (Instr.add ⟨0, 7, ⟨1, 7⟩, ⟨1, 8⟩, ⟨0, 0⟩, some 5⟩).wellFormed = false ∧
    (Instr.add ⟨0, 7, ⟨1, 40⟩, ⟨1, 8⟩, ⟨0, 0⟩, none⟩).wellFormed = false ∧
    (Instr.add ⟨0, 40, ⟨1, 7⟩, ⟨1, 8⟩, ⟨0, 0⟩, none⟩).wellFormed = false ∧
    (Instr.vadd ⟨0, 7, ⟨0, 7⟩, ⟨0, 8⟩, ⟨3, 0⟩, none⟩).wellFormed = false ∧
    (Instr.vadd ⟨0, 7, ⟨0, 7⟩, ⟨0, 8⟩, ⟨0, 1⟩, none⟩).wellFormed = false ∧
    (Instr.mzero ⟨0, 8, ⟨0, 0⟩⟩).wellFormed = false ∧
    (Instr.bfx ⟨0, 1, ⟨1, 1⟩, ⟨0, 0⟩, ⟨0, 0⟩, ⟨0, 0⟩, 0, 60 + 64 * 5⟩).wellFormed = false ∧
    (Instr.bfx ⟨0, 1, ⟨1, 1⟩, ⟨0, 0⟩, ⟨0, 0⟩, ⟨0, 0⟩, 0, 60 + 64 * 4⟩).wellFormed = true := by decide +kernel

/-! ### A small machine: one hart of one launch, one lane group, one element, an identity page table -/

/-- The launch of the test hart: one module, one core, one stage, eight tiles, four nodes. -/
def labPacket : Packet :=
  ⟨1, 1, none, 1, 1, 1, 1, [0x2002], [], [false], [], 8, false, 0, 0xFFF, 4, false, 0, 0xA000000000000001, 0x6000, 1, true, [0], 0⟩

/-- Its share on module 0: Running, core 0 at physical core 0, constant slot 5 holding 0x4000. -/
def labShare : Share := ⟨0, .running, [(0, ⟨0, 0⟩)], [(5, 0x4000)], [(3, ⟨7, false⟩)], none, 0, 0, [], 0, none, false, false, [1], [256], false, false, []⟩

/-- The launch, taken from queue 0 of module 0. -/
def labLaunch : Launch := ⟨labPacket, 0, 0, 0, [(0, labShare)], [], none, false, false, 0, 0, none, false, false, []⟩

/-- General registers: g1 an address, g2 one above it by 3, g3 the least integer, g4 all ones, g5 the top of memory less 7, g31 a head. -/
def labG : Vector Word 32 :=
  ((((((Vector.replicate 32 0).set 1 0x4000).set 2 0x4003).set 3 0x8000000000000000).set 4 0xFFFFFFFFFFFFFFFF).set 5 0x7FFFFFFFFFFFFFFF).set 31 0x2002

/-- The hart: configured for fp32 with VL 1, two fresh tiles, a handler at 0x3000, and 1.5 in element 0 of v1. -/
def labHart : Hart :=
  { Hart.reset with
    id := ⟨1, 0, 0, 0, 0⟩, phase := .running, seat := ⟨0, 0, [0], 0⟩, cfg := ⟨1, false, false, 2, 2⟩, npc := 0x2004, g := labG
    vec := (Vector.replicate 64 0).set 1 0x3FC00000, accs := [Acc.fresh, Acc.fresh], trap := { TrapRegs.reset with tvec := 0x3000 } }

/-- The machine: NOP at 0x2002, memory elsewhere empty. -/
def lab : State := placeLine { State.reset with cur := labHart, launches := [(1, labLaunch)] } (lineOf 0 0)

/-- The machine with other registers of the hart. -/
def labWith (f : Hart → Hart) : State := { lab with cur := f lab.cur }

/-- The machine in handler mode, its handler come to at the head at 0x2002. -/
def labHandler : State := labWith (fun h => { h with trap := { h.trap with hm := true, imp := true, tepc := 0x2002 } })

/-- The machine with bytes stored at an address. -/
def labMem (a : Nat) (bs : List Byte) : State := storeNear lab a bs

/-- The state after an outcome. -/
def after : Host.Outcome State Fault Refusal → State
  | .next t => t
  | _ => State.reset

/-- An immediate source: the short literal with this value (R174). -/
def imm (v : BitVec 8) : S10 := ⟨3, v⟩
/-- Source g. -/
def rg (v : BitVec 8) : S10 := ⟨1, v⟩
/-- Source v. -/
def rv (v : BitVec 8) : S10 := ⟨0, v⟩
/-- The masked operand of an unmasked instruction. -/
def all : Mk := ⟨0, 0⟩

/-- What g7 holds after a two-source instruction on these sources. -/
def g7 (c : R2 → Instr) (sf : BitVec 4) (a b : S10) : Word := (after (exec (c ⟨sf, 7, a, b, all, none⟩) lab)).cur.greg 7

/-! ### One step: scalar instructions (R192 to R206). The expected values are worked out by hand from the rules. -/

theorem test_add_wraps : g7 .add 0 (rg 4) (imm 1) = 0 ∧ g7 .add 1 (rg 5) (imm 0) = 0xFFFFFFFFFFFFFFFF := by decide +kernel
theorem test_sub_word : g7 .sub 0 (imm 0) (imm 1) = 0xFFFFFFFFFFFFFFFF ∧ g7 .sub 1 (rg 3) (imm 1) = 0xFFFFFFFFFFFFFFFF := by decide +kernel
theorem test_mul_high : g7 .mul 0 (rg 4) (rg 4) = 1 ∧ g7 .mulh 0 (rg 4) (rg 4) = 0 ∧ g7 .mulhsu 0 (rg 4) (rg 4) = 0xFFFFFFFFFFFFFFFF := by decide +kernel
theorem test_div_corners : g7 .div 0 (rg 3) (imm 0xFF) = 0x8000000000000000 ∧ g7 .div 0 (imm 5) (imm 0) = 0xFFFFFFFFFFFFFFFF ∧
    g7 .rem 0 (rg 3) (imm 0xFF) = 0 ∧ g7 .rem 0 (imm 5) (imm 0) = 5 ∧ g7 .div 0 (imm 0xF9) (imm 2) = 0xFFFFFFFFFFFFFFFD ∧
    g7 .rem 0 (imm 0xF9) (imm 2) = 0xFFFFFFFFFFFFFFFF := by decide +kernel
theorem test_divu_corners : g7 .divu 0 (imm 5) (imm 0) = 0xFFFFFFFFFFFFFFFF ∧ g7 .remu 0 (imm 5) (imm 0) = 5 ∧ g7 .divu 0 (rg 4) (imm 2) = 0x7FFFFFFFFFFFFFFF := by
  decide +kernel
theorem test_logic : g7 .and 0 (imm 12) (imm 10) = 8 ∧ g7 .or 0 (imm 12) (imm 10) = 14 ∧ g7 .xor 0 (imm 12) (imm 10) = 6 ∧ g7 .andn 0 (imm 12) (imm 10) = 4 := by
  decide +kernel
theorem test_shift_amount : g7 .sll 0 (imm 1) (imm 65) = 2 ∧ g7 .sll 1 (imm 1) (imm 31) = 0xFFFFFFFF80000000 ∧ g7 .srl 0 (rg 3) (imm 63) = 1 ∧
    g7 .sra 0 (rg 3) (imm 63) = 0xFFFFFFFFFFFFFFFF ∧ g7 .rol 0 (rg 3) (imm 1) = 1 ∧ g7 .ror 0 (imm 1) (imm 1) = 0x8000000000000000 := by decide +kernel
theorem test_compare : g7 .slt 0 (rg 4) (imm 0) = 1 ∧ g7 .sltu 0 (rg 4) (imm 0) = 0 ∧ g7 .min 0 (rg 4) (imm 0) = 0xFFFFFFFFFFFFFFFF ∧
    g7 .max 0 (rg 4) (imm 0) = 0 ∧ g7 .minu 0 (rg 4) (imm 3) = 3 ∧ g7 .maxu 0 (rg 4) (imm 3) = 0xFFFFFFFFFFFFFFFF := by decide +kernel
theorem test_counts : (after (exec (.clz ⟨0, 7, imm 1⟩) lab)).cur.greg 7 = 63 ∧ (after (exec (.ctz ⟨0, 7, rg 3⟩) lab)).cur.greg 7 = 63 ∧
    (after (exec (.popc ⟨1, 7, rg 4⟩) lab)).cur.greg 7 = 32 ∧ (after (exec (.clz ⟨1, 7, imm 0⟩) lab)).cur.greg 7 = 32 ∧
    (after (exec (.sext ⟨0, 7, imm 0x80⟩) lab)).cur.greg 7 = 0xFFFFFFFFFFFFFF80 ∧ (after (exec (.zext ⟨1, 7, rg 4⟩) lab)).cur.greg 7 = 0xFFFF := by decide +kernel
theorem test_li_hn : (after (exec (.liHn ⟨1, 7, rg 4, 0x1234⟩) lab)).cur.greg 7 = 0xFFFFFFFF1234FFFF ∧
    (after (exec (.liLit32 ⟨0, 7, ⟨3, 0⟩, ⟨0, 0⟩, all, some 0x80000000⟩) lab)).cur.greg 7 = 0xFFFFFFFF80000000 := by decide +kernel
theorem test_lea : (after (exec (.lea ⟨3, 7, rg 1, imm 2, all, none⟩) lab)).cur.greg 7 = 0x4010 ∧
    (after (exec (.leaDisp ⟨0, 7, rg 1, rg 0, all, some 0xFFFFFFFF⟩) lab)).cur.greg 7 = 0x3FFF := by decide +kernel
theorem test_fields : (after (exec (.bfx ⟨1, 7, rg 3, rv 0, rv 0, all, 0, 60 + 64 * 4⟩) lab)).cur.greg 7 = 0xFFFFFFFFFFFFFFF8 ∧
    (after (exec (.bfi ⟨0, 7, rg 4, imm 0, rv 0, all, 0, 8 + 64 * 8⟩) lab)).cur.greg 7 = 0xFFFFFFFFFFFF00FF ∧
    (after (exec (.sel ⟨0, 7, imm 1, imm 2, imm 0, all, 0, 0⟩) lab)).cur.greg 7 = 2 := by decide +kernel

/-- 1 + 2⁻²⁴ rounds to 1 and is inexact; a signalling NaN sets NV; 1 ÷ 0 is an infinity with DZ; 2.5 as an integer is 2, to even. -/
theorem test_scalar_float :
    (let t := after (exec (.fadd ⟨0, 7, rg 8, rg 9, all, none⟩) (labWith (fun h => { h with g := (h.g.set 8 0x3F800000).set 9 0x33800000 })))
     t.cur.greg 7 = 0x3F800000 ∧ t.cur.aflags = fNX) ∧
    (let t := after (exec (.fdiv ⟨0, 7, imm 1, imm 0, all, none⟩) lab)
     t.cur.greg 7 = 0x7F800000 ∧ t.cur.aflags = fDZ) ∧
    (let t := after (exec (.fmul ⟨0, 7, rg 8, imm 1, all, none⟩) (labWith (fun h => { h with g := h.g.set 8 0x7F800001 })))
     t.cur.greg 7 = 0x7FC00000 ∧ t.cur.aflags = fNV) ∧
    (let t := after (exec (.fsqrt ⟨1, 7, rg 8⟩) (labWith (fun h => { h with g := h.g.set 8 0x4010000000000000 })))
     t.cur.greg 7 = 0x4000000000000000 ∧ t.cur.aflags = 0) := by decide +kernel
theorem test_fmadd_once : (let t := after (exec (.fmadd ⟨0, 7, rg 8, rg 8, rg 9, all, 0, 0⟩) (labWith (fun h => { h with g := (h.g.set 8 0x3F800001).set 9 0xBF800002 })))
     t.cur.greg 7 = 0x28800000 ∧ t.cur.aflags = 0) := by decide +kernel
theorem test_fclass_fcmp : (after (exec (.fclass ⟨0, 7, rg 8⟩) (labWith (fun h => { h with g := h.g.set 8 0xFF800000 })))).cur.greg 7 = 1 ∧
    (after (exec (.fcmp ⟨2, 7, imm 1, imm 2, all, none⟩) lab)).cur.greg 7 = 1 ∧
    (after (exec (.fmin ⟨0, 7, rg 8, imm 0, all, none⟩) (labWith (fun h => { h with g := h.g.set 8 0x80000000 })))).cur.greg 7 = 0x80000000 := by decide +kernel

theorem test_branch_taken : (after (exec (.bCc ⟨2, rg 4, imm 0, 0xFFF⟩) (labWith (fun h => { h with pc := 0x2004 })))).cur.pc = 0x2002 ∧
    (after (exec (.bCc ⟨4, rg 4, imm 0, 0xFFF⟩) (labWith (fun h => { h with pc := 0x2004 })))).cur.pc = 0x2004 := by decide +kernel
theorem test_jump_links : (let t := after (exec (.jr ⟨0, 31, rg 31⟩) lab); t.cur.pc = 0x2002 ∧ t.cur.greg 31 = 0x2004) ∧
    (let t := after (exec (.jalShort ⟨0, 0xFFFFFFFF⟩) (labWith (fun h => { h with pc := 0x2004, npc := 0x2042 }))); t.cur.pc = 0x2002 ∧ t.cur.greg 31 = 0x2042) := by
  decide +kernel
theorem test_ret_and_end : (after (exec (.ret ⟨0⟩) lab)).cur.pc = 0x2002 ∧ (after (exec (.jr ⟨0, 0, imm 0⟩) lab)).cur.phase = .ended := by decide +kernel
theorem test_jump_to_no_head : (let t := after (exec (.jr ⟨0, 0, rg 1⟩) lab)
    t.cur.pc = 0x3000 ∧ t.cur.trap.cause = ⟨0x02, 0x09⟩ ∧ t.cur.trap.tval = 0x4000) := by decide +kernel
theorem test_loop : (let t := after (exec (.loop ⟨0, rg 6, imm 1, 0xFFF⟩) (labWith (fun h => { h with pc := 0x2004, g := h.g.set 6 2 }))); t.cur.pc = 0x2002 ∧ t.cur.greg 6 = 1) ∧
    (let t := after (exec (.loop ⟨0, rg 6, imm 1, 0xFFF⟩) (labWith (fun h => { h with g := h.g.set 6 1 }))); t.cur.pc = 0x2004 ∧ t.cur.greg 6 = 0) := by decide +kernel

/-! ### One step: scalar memory, traps, state registers, waits (R207 to R221, R394 to R398) -/

theorem test_load_extends : (after (exec (.ld ⟨3, 7, rg 1, 1⟩) (labMem 0x4000 [0x11, 0x80]))).cur.greg 7 = 0xFFFFFFFFFFFFFF80 ∧
    (after (exec (.ld ⟨6, 7, rg 1, 0⟩) (labMem 0x4000 [0x11, 0x80]))).cur.greg 7 = 0x8011 := by decide +kernel
theorem test_store_low_bytes : (let t := after (exec (.st ⟨2, rg 1, rg 3, 2⟩) (labMem 0x4000 [1, 2, 3, 4, 5]))
    t.byteAt 0x4001 = 2 ∧ t.byteAt 0x4002 = 0 ∧ t.byteAt 0x4003 = 0 ∧ t.byteAt 0x4004 = 5) := by decide +kernel
theorem test_misaligned_load : (let t := after (exec (.ld ⟨2, 7, rg 2, 0⟩) lab)
    t.cur.trap.cause = ⟨0x04, 0x01⟩ ∧ t.cur.trap.tval = 0x4003 ∧ t.cur.trap.tepc = 0x2002 ∧ t.cur.pc = 0x3000) := by decide +kernel
theorem test_amo_min : (let t := after (exec (.amo ⟨8 + 3, 7, rg 1, imm 5, rg 0, all, 0, 0⟩) (labMem 0x4000 [0xFE, 0xFF, 0xFF, 0xFF]))
    t.cur.greg 7 = 0xFFFFFFFFFFFFFFFE ∧ t.byteAt 0x4000 = 0xFE) ∧
    (let t := after (exec (.amo ⟨0, 7, rg 1, imm 5, rg 0, all, 0, 0⟩) (labMem 0x4000 [0xFE]))
     t.cur.greg 7 = 0xFE ∧ t.byteAt 0x4000 = 3 ∧ t.byteAt 0x4001 = 1) := by decide +kernel
theorem test_load_reserved : (let t := after (exec (.lr ⟨0, 7, rg 1⟩) lab); t.cur.resv = some (0x4000 / 8)) ∧
    (let t := after (exec (.sc ⟨0, 7, rg 1, imm 9, all, none⟩) (labWith (fun h => { h with resv := some (0x4000 / 8) }))); t.cur.greg 7 = 0 ∧ t.byteAt 0x4000 = 9 ∧ t.cur.resv = none) ∧
    (let t := after (exec (.sc ⟨0, 7, rg 1, imm 9, all, none⟩) lab); t.cur.greg 7 = 1 ∧ t.byteAt 0x4000 = 0) := by decide +kernel
theorem test_trap_entry : (let t := after (exec (.trap ⟨0, 0, imm 33⟩) lab)
    t.cur.trap.cause = ⟨0x01, 0⟩ ∧ t.cur.trap.tval = 33 ∧ t.cur.trap.tepc = 0x2004 ∧ t.cur.trap.hm = true ∧ t.cur.pc = 0x3000) := by decide +kernel
theorem test_eret : (let t := after (exec (.eret ⟨0⟩) labHandler); t.cur.pc = 0x2002 ∧ t.cur.trap.hm = false ∧ t.cur.trap.imp = false) ∧
    (let t := after (exec (.eret ⟨0⟩) lab); t.cur.trap.cause = ⟨0x03, 0x0B⟩) := by decide +kernel
theorem test_state_registers : (after (exec (.srr ⟨0, 7, rg 0, 2⟩) lab)).cur.greg 7 = 128 ∧ (after (exec (.srr ⟨0, 7, rg 0, 1⟩) lab)).cur.greg 7 = 0x820 ∧
    (after (exec (.srr ⟨0, 7, rg 0, 0x0E⟩) lab)).cur.trap.cause = ⟨0x03, 0x0A⟩ ∧
    (after (exec (.srw ⟨0, 0, imm 3, 0x00A⟩) lab)).cur.accs.length = 3 ∧ (after (exec (.srw ⟨0, 0, imm 1, 0x00A⟩) lab)).cur.accs.length = 1 ∧
    (after (exec (.srw ⟨0, 0, rg 4, 0x010⟩) labHandler)).cur.trap.tvec = 0xFFFFFFFFFFFFFFFE := by decide +kernel
theorem test_pause_and_event : (after (exec (.pause ⟨0, 0, imm 0⟩) lab)).cur.pc = 0x2004 ∧ (after (exec (.pause ⟨0, 0, imm 9⟩) lab)).cur.phase = .waiting ∧
    (let t := after (exec (.wfev ⟨0⟩) (labWith (fun h => { h with event := true }))); t.cur.event = false ∧ t.cur.pc = 0x2004) ∧
    (after (exec (.wfev ⟨0⟩) lab)).cur.phase = .waiting := by decide +kernel
theorem test_yield_keeps_prefix : (let t := after (exec (.yield ⟨0, 0, imm 1⟩) lab); t.cur.phase = .saved ∧ t.cur.elem 1 0 = 0x3FC00000 ∧ t.cur.cfg.vl = 0) ∧
    (after (exec (.yield ⟨0, 0, imm 0⟩) lab)).cur.elem 1 0 = 0 := by decide +kernel
theorem test_release : (let t := after (exec (.rel ⟨5, 0, ⟨0, 0⟩⟩) (labMem 0x4000 [9])); farByte t 0x4000 = 9 ∧ t.byteAt 0x4000 = 9) ∧
    farByte (labMem 0x4000 [9]) 0x4000 = 0 := by decide +kernel
theorem test_frz : (let t := after (exec (.frz ⟨0⟩) { labHandler with launches := [(1, { labLaunch with frz := true })] }); t.modRuns 0 = false ∧ t.cur.pc = 0x2002) := by
  decide +kernel

/-- From reset a NOP stored at the fetch point runs, and the next head follows it: the only head of its line, so the next line's first. -/
theorem test_first_step : (after (step (State.reset.withFetchWord 16 0))).cur.pc = 0x2042 ∧ (State.reset.withFetchWord 16 0).cur.pc = 0x2002 ∧
    decodeTableWord 16 0 = some (.nop ⟨0⟩) := by decide +kernel
/-- ADD g7, g4, #1 from memory: the step fetches, decodes and executes it. -/
theorem test_step_add : (let t := after (step (placeLine lab (lineOf 0x8020 0x1D04C040))); t.cur.greg 7 = 0 ∧ t.cur.pc = 0x2042) := by decide +kernel
/-- A malformed line traps with cause 0x02 and its address. -/
theorem test_step_malformed : (let t := after (step (placeLine lab [0, 0])); t.cur.trap.cause = ⟨0x02, 0x01⟩ ∧ t.cur.trap.tval = 0x2000 ∧ t.cur.pc = 0x3000) := by decide +kernel

/-! ### One step: vector instructions (R222 to R263) -/

/-- What element 0 of v7 holds after a two-source instruction. -/
def v7 (c : R2 → Instr) (sf : BitVec 4) (a b : S10) (s : State) : Nat := (after (exec (c ⟨sf, 7, a, b, all, none⟩) s)).cur.elem 7 0
/-- The machine with an integer type of 32 bits and VL 2, v1 = [5, −1], v2 = [1, 1], q1 = [0, 1]. -/
def labInt : State := labWith (fun h => { h with cfg := ⟨2, false, false, 2, 6⟩, vec := (h.vec.set 1 0xFFFFFFFF00000005).set 2 0x100000001, mask := h.mask.set 1 2 })

theorem test_vector_float : v7 .vadd 0 (rv 1) (rv 1) lab = 0x40400000 ∧ v7 .vmul 0 (rv 1) (rv 1) lab = 0x40100000 ∧ v7 .vsub 0 (rv 1) (rv 1) lab = 0 ∧
    v7 .vdiv 0 (rv 1) (imm 3) lab = 0x3F000000 ∧ v7 .vmax 0 (rv 1) (imm 2) lab = 0x40000000 ∧ v7 .vmin 0 (rv 1) (imm 2) lab = 0x3FC00000 ∧
    v7 .vneg 0 (rv 1) (rv 0) lab = 0xBFC00000 ∧ v7 .vabs 0 (rv 1) (rv 0) lab = 0x3FC00000 ∧ v7 .vexp2 0 (rv 0) (rv 0) lab = 0x3F800000 := by decide +kernel
theorem test_vector_fma : (after (exec (.vfma ⟨0, 7, rv 1, rv 1, imm 1, all, 0, 0⟩) lab)).cur.elem 7 0 = 0x40500000 ∧
    (after (exec (.vfms ⟨0, 7, rv 1, rv 1, imm 1, all, 0, 0⟩) lab)).cur.elem 7 0 = 0x3FA00000 ∧
    (after (exec (.vnfma ⟨0, 7, rv 1, rv 1, imm 1, all, 0, 0⟩) lab)).cur.elem 7 0 = 0xBFA00000 := by decide +kernel
theorem test_vector_int : v7 .viadd 3 (rv 1) (imm 0xFF) labInt = 0xFFFFFFFF ∧ v7 .visub 0 (rv 1) (imm 6) labInt = 0xFFFFFFFF ∧ v7 .visub 3 (rv 1) (imm 6) labInt = 0 ∧
    v7 .vimul 0 (rv 1) (imm 2) labInt = 10 ∧ v7 .vimin 0 (rv 1) (imm 0xFF) labInt = 0xFFFFFFFF ∧ v7 .vimax 1 (rv 1) (imm 0xFF) labInt = 0xFFFFFFFF ∧
    v7 .vshl 0 (rv 1) (imm 33) labInt = 10 ∧ v7 .vimulh 0 (imm 0xFF) (imm 0xFF) labInt = 0 := by decide +kernel
theorem test_vector_mask : (after (exec (.vadd ⟨0, 7, rv 1, rv 1, ⟨1, 0⟩, none⟩) lab)).cur.elem 7 0 = 0 ∧
    (after (exec (.vadd ⟨0, 7, rv 1, rv 1, ⟨2, 0⟩, none⟩) lab)).cur.elem 7 0 = 0x40400000 ∧
    (after (exec (.vsel ⟨0, 7, rv 1, rv 2, ⟨1, 1⟩, none⟩) labInt)).cur.elem 7 0 = 1 ∧
    (after (exec (.vsel ⟨0, 7, rv 1, rv 2, ⟨1, 1⟩, none⟩) labInt)).cur.elem 7 1 = 0xFFFFFFFF := by decide +kernel
theorem test_mask_instructions : (after (exec (.vcmp ⟨2, 2, rv 1, imm 0, all, none⟩) labInt)).cur.mask[2] = 2 ∧
    (after (exec (.qnot ⟨0, 2, 1, 0⟩) labInt)).cur.maskBit 2 0 = true ∧ (after (exec (.qpop ⟨0, 7, 1, 0⟩) labInt)).cur.greg 7 = 1 ∧
    (after (exec (.qfirst ⟨0, 7, 1, 0⟩) labInt)).cur.greg 7 = 1 ∧ (after (exec (.qfirst ⟨0, 7, 0, 0⟩) labInt)).cur.greg 7 = 0xFFFFFFFFFFFFFFFF := by decide +kernel
theorem test_reductions : v7 .vredo 0 (rv 1) (imm 10) labInt = 14 ∧ v7 .vred 3 (rv 1) (imm 10) labInt = 0xFFFFFFFF ∧
    (after (exec (.vscan ⟨0, 7, rv 1, imm 10, all, none⟩) labInt)).cur.elem 7 0 = 15 ∧ (after (exec (.vscan ⟨8, 7, rv 1, imm 10, all, none⟩) labInt)).cur.elem 7 1 = 15 := by decide +kernel
theorem test_permutes : v7 .vslide 0 (rv 1) (imm 1) labInt = 0xFFFFFFFF ∧ v7 .vperm 0 (rv 1) (rv 2) labInt = 0xFFFFFFFF ∧ v7 .vbcast 0 (rv 1) (imm 1) labInt = 0xFFFFFFFF ∧
    (after (exec (.vcompress ⟨0, 7, rv 1, rv 0, ⟨1, 1⟩, none⟩) labInt)).cur.elem 7 0 = 0xFFFFFFFF ∧
    (after (exec (.vexpand ⟨0, 7, rv 1, rv 0, ⟨1, 1⟩, none⟩) labInt)).cur.elem 7 1 = 5 ∧ (after (exec (.vdupm ⟨0, 7, rv 2, rv 0, all, none⟩) labInt)).cur.elem 7 1 = 1 ∧
    (after (exec (.vins ⟨0, 7, imm 9, imm 1, all, none⟩) labInt)).cur.elem 7 1 = 9 ∧ (after (exec (.vext ⟨0, 7, rv 1, imm 1, all, none⟩) labInt)).cur.greg 7 = 0xFFFFFFFFFFFFFFFF ∧
    (after (exec (.viota ⟨0, 7, imm 0, rv 0, all, none⟩) labInt)).cur.elem 7 1 = 1 := by decide +kernel
theorem test_sort_and_top : (let t := after (exec (.vsortk ⟨0, 7, rv 1, rg 0, rv 0, all, 0, 0⟩) labInt); t.cur.elem 7 0 = 0 ∧ t.cur.elem 7 1 = 1) ∧
    (let t := after (exec (.vtopk ⟨0, 7, rv 1, imm 1, rv 0, all, 0, 0⟩) labInt); t.cur.elem 7 0 = 0) := by decide +kernel
theorem test_vcvt : (after (exec (.vcvt ⟨0, 7, rv 1, rv 0, rv 0, all, 0, 0x62⟩) lab)).cur.elem 7 0 = 2 ∧ (after (exec (.vclass ⟨0, 7, rv 1, rv 0, all, none⟩) lab)).cur.elem 7 0 = 64 := by
  decide +kernel
theorem test_vcfg : (let t := after (exec (.vcfg ⟨7, 7, imm 8⟩) lab); t.cur.greg 7 = 256 ∧ t.cur.cfg.vl = 0 ∧ t.cur.cfg.ill = false ∧ t.cur.elem 1 0 = 0) ∧
    (let t := after (exec (.vsetl ⟨0, 7, rg 1⟩) lab); t.cur.greg 7 = 128 ∧ t.cur.cfg.vl = 128) ∧ (after (exec (.vqlen ⟨0, 7, imm 17⟩) lab)).cur.greg 7 = 64 + 32 * 2 * 64 + 8 * 64 + 2 * 25408 := by
  decide +kernel
theorem test_vbind : (let t := after (exec (.vbind ⟨0, 0, imm 3, imm 2, all, none⟩) lab); t.cur.stream = ⟨true, 3, 2⟩) ∧
    (after (exec (.vsetl ⟨0, 7, rg 1⟩) (labWith (fun h => { h with stream := ⟨true, 3, 2⟩ })))).cur.greg 7 = 5 := by decide +kernel
theorem test_vector_memory : (after (exec (.vld ⟨0, 7, rg 1, rv 0, 0, 0, all, 0, 0⟩) (labMem 0x4000 [1, 2, 3, 4]))).cur.elem 7 0 = 0x04030201 ∧
    (let t := after (exec (.vst ⟨0, 1, rg 1, rv 0, 0, 0, all, 0, 0⟩) lab); t.byteAt 0x4002 = 0xC0 ∧ t.byteAt 0x4003 = 0x3F) ∧
    (after (exec (.vlds ⟨0, 7, rg 1, imm 8, 0, 0, all, 0, 0⟩) (labMem 0x4000 [1]))).cur.elem 7 0 = 1 := by decide +kernel
theorem test_vamo : (let s := storeNear labInt 0x4000 [1, 0, 0, 0, 7]
    let t := after (exec (.vamo ⟨0, 2, rg 1, rv 0, 0, 0, all, 0, 0⟩) s); t.cur.elem 2 0 = 1 ∧ t.cur.elem 2 1 = 7 ∧ t.byteAt 0x4000 = 2 ∧ t.byteAt 0x4004 = 8) := by decide +kernel

/-! ### One step: far forms, the matrix engine, tiles, tasks, devices -/

/-- IMM21 of a far form whose stack is that of the address in g1. -/
def stk1 : BitVec 21 := 0x80800
/-- The machine with 1.5 and 2 in element 0 of m1 and m2 of stack 0. -/
def labFar : State := (lab.writeFar 0 1 32 [(0, 0x3FC00000)]).writeFar 0 2 32 [(0, 0x40000000)]

theorem test_far_arithmetic : (after (exec (.fVadd ⟨0, 7, rv 1, rv 2, rv 0, all, 0, stk1⟩) labFar)).farElem 0 7 32 0 = 0x40600000 ∧
    (after (exec (.fVfma ⟨0, 7, rv 1, rv 2, rv 1, all, 0, stk1⟩) labFar)).farElem 0 7 32 0 = 0x40900000 ∧
    (after (exec (.fput ⟨0, 7, rv 0, rv 0, rv 0, all, 0, stk1 + 1⟩) labFar)).farElem 0 7 32 0 = 0x3FC00000 ∧
    (after (exec (.fget ⟨0, 0, rv 2, rv 0, rv 0, all, 0, stk1 + 9⟩) labFar)).cur.elem 9 0 = 0x40000000 := by decide +kernel
theorem test_far_memory : (after (exec (.fVld ⟨0, 7, rg 1, rv 0, 0, 0, all, 0, 0⟩) (storeFar lab 0x4000 [1, 2, 3, 4] 0))).farElem 0 7 32 0 = 0x04030201 ∧
    farByte (after (exec (.fVst ⟨0, 1, rg 1, rv 0, 0, 0, all, 0, 0⟩) labFar)) 0x4002 = 0xC0 := by decide +kernel
theorem test_far_reduction : (after (exec (.fVredo ⟨0, 7, rv 1, rv 2, rv 0, all, 0, stk1⟩) labFar)).farElem 0 7 32 0 = 0x40600000 := by decide +kernel

/-- The machine with a row of one bf16 element 1.5 at 0x4000 and one of 2 at 0x4100, a 1 × 1 × 1 shape word in g10, and the strides. -/
def labMat : State :=
  let s := storeNear (storeNear lab 0x4000 [0xC0, 0x3F]) 0x4100 [0x00, 0x40]
  { s with cur := { s.cur with g := ((s.cur.g.set 10 0x10101).set 11 0x4100).set 12 0x100 } }
/-- MMA of that A and B into tile 1. -/
def mma1 : M := ⟨0, 1, rg 1, imm 2, 1, 0, all, 1, BitVec.ofNat 22 (10 * 128 + 12 * 4096 + 11 * 131072)⟩

theorem test_multiply : ((after (exec (.mmaO mma1) labMat)).acc 1).at 0 0 = 0x40400000 ∧
    ((after (exec (.mmaO mma1) labMat)).acc 1).at 0 1 = 0 := by decide +kernel
theorem test_mshape : (after (exec (.mshape ⟨0, 7, imm 127, imm 127, imm 3, all, 0, 0⟩) lab)).cur.greg 7 = 96 + 64 * 256 + 3 * 65536 := by decide +kernel
theorem test_tile_moves : ((after (exec (.mzero ⟨1, 0, rv 0⟩) labMat)).acc 0).bf16 = true ∧
    ((after (exec (.mmovVecToBody ⟨0, 0, rv 1, imm 3, all, none⟩) lab)).acc 0).at 3 0 = 0x3FC00000 ∧
    (after (exec (.mmovStToVec ⟨0, 7, ⟨0, 0⟩, imm 3, all, none⟩) lab)).cur.elem 7 0 = 0xFF800000 := by decide +kernel
/-- A row merged with a fresh one keeps its maximum and its denominator. -/
theorem test_merge_fresh : (let s := labWith (fun h => { h with accs := [{ Acc.fresh with m := [(0, 0x3F800000)], l := [(0, 0x40000000)] }, Acc.fresh] })
    let u := (after (exec (.mmerge ⟨0, 0, rv 1, rg 10, all, none⟩) { s with cur := { s.cur with g := s.cur.g.set 10 0x101 } })).acc 0
    u.mAt 0 = 0x3F800000 ∧ u.lAt 0 = 0x40000000) := by decide +kernel

/-- Tile 2 of the hart's own core. -/
def tile2 : TileRef := ⟨1, 0, 0, 0, 2⟩
theorem test_send_and_take : (let t := after (exec (.tsend ⟨0, 0, imm 2, rv 1, all, none⟩) lab)
    (t.tile tile2).full = true ∧ (t.tile tile2).data = 0x3FC00000 ∧ t.cur.pc = 0x2004 ∧
    (let u := after (exec (.ttake ⟨0, 7, imm 2, rv 0, all, none⟩) t); u.cur.elem 7 0 = 0x3FC00000 ∧ (u.tile tile2).full = false)) ∧
    (after (exec (.ttake ⟨0, 7, imm 2, rv 0, all, none⟩) lab)).cur.phase = .waiting := by decide +kernel
theorem test_mark_and_drop : (let t := after (exec (.tmark ⟨0, 0, imm 2⟩) lab)
    (t.tile tile2).full = true ∧ (after (exec (.tdrop ⟨0, 0, imm 2⟩) t)).tile tile2 = ⟨false, 0, 0⟩ ∧ (after (exec (.twait ⟨0, 0, imm 2⟩) t)).cur.pc = 0x2004) := by decide +kernel
theorem test_publish_index : ((after (exec (.hwpub ⟨1, 0, imm 3, imm 9, all, none⟩) lab)).share? 1 0).bind (fun x => Tbl.find 3 x.cells) = some ⟨9, true⟩ := by decide +kernel
theorem test_barrier_alone : (after (exec (.bar ⟨0, 0, imm 0⟩) lab)).cur.pc = 0x2004 ∧ (after (exec (.barDom ⟨0, 0, rv 0⟩) lab)).cur.pc = 0x2004 := by decide +kernel
theorem test_call_node : (let t := after (exec (.nodeCall ⟨0, 7, imm 2, imm 9, rv 0, all, 0, 0⟩) lab)
    t.cur.greg 7 ≠ 0 ∧ (let u := after (exec (.nodeArm ⟨0, 0, rg 7⟩) t)
      ((u.mod? 0).bind (fun x => x.node? ((t.cur.greg 7).toNat % 2 ^ 12))).isSome = true ∧ (after (exec (.nodeWait ⟨0, 0, rg 7⟩) u)).cur.phase = .waiting)) := by decide +kernel

theorem test_queue_writes : (let t := after (exec (.hostQtailWrite 0 0 1) lab); ((t.mod? 0).map (fun x => (x.queue 0).tail)) = some 1) ∧
    (let t := after (exec (.hostQtailWrite 0 0 3) lab); ((t.mod? 0).map (fun x => ((x.queue 0).tail, ((Tbl.find 0 x.qerrs).map (fun e => e.code))))) = some (0, some 1)) := by decide +kernel
theorem test_reader_count : (let s := storeFar lab 0x4000 (List.replicate 128 7) 2
    (Tbl.find 128 (after (exec (.mscReadRequest 0x4000) s)).msc).map (fun l => l.count) = some 1 ∧
    Tbl.find 128 (after (exec (.mscReadRequest 0x4000) (after (exec (.mscReadRequest 0x4000) s)))).msc = none) := by decide +kernel
theorem test_thermal_trip : (let t := after (exec (.thermalTrip 0 110) lab); t.modRuns 0 = false ∧ (t.mod? 0).map (fun x => x.source) = some 2) := by decide +kernel
theorem test_notice_and_force : (let t := after (exec (.noticePost ⟨1, 0, 0, 0, 0⟩ 4096) lab); t.cur.notice.pend = true ∧ t.cur.event = true ∧
    (after (exec (.vsetl ⟨0, 7, rg 1⟩) t)).cur.greg 7 = 0) := by decide +kernel
theorem test_warm_reset : (after (exec (.warmReset 0) lab)).launches.length ≤ 1 ∧ ((after (exec (.warmReset 0) lab)).mod? 0).map (fun x => x.queues) = some [] := by decide +kernel

/-! ### Witnesses: for each statement with hypotheses, a state and operands that meet them together, at the bounds of their ranges -/

/-- Two modules, the launch's ranks 0 and 1, and a second root entry that maps the windows of the domain (R121). -/
def labTwo : State :=
  let s := storeFar lab 0x1040 (leBytes 8 (2 ^ 49 + 0xDF)) 0
  { s with mods := [(0, Module.reset), (1, Module.reset)], launches := [(1, { labLaunch with pkt := { labPacket with ranks := [0, 1], single := false } })] }
/-- An address in module 1. -/
def far1 : Nat := 2 ^ 51 + 2 ^ 45 + 0x4000
/-- The two modules with rank 1 lost and a store of the hart to it not acknowledged. -/
def labLost : State :=
  { labTwo with mods := [(0, { Module.reset with lost := [1] }), (1, Module.reset)], cur := { labTwo.cur with unacked := [BitVec.ofNat 64 far1] } }
/-- The address 0x4000 as the lab translates it. -/
def at4000 : Phys := ⟨⟨0, 0x4000, .hbm 0⟩, 0⟩

theorem meets_IntegerAndMoveResults : ((⟨0, 7, rg 4⟩ : R1).sf.getLsbD 0 = false) ∧ ((⟨1, 7, rg 4⟩ : R1).sf.getLsbD 0 = true) ∧
    (let p : R2 := ⟨0, 7, ⟨3, 0⟩, ⟨0, 0⟩, all, some 0xFFFFFFFF⟩; p.a.tag = 3 ∧ p.lit = some 0xFFFFFFFF ∧ (Instr.liLit32 p).wellFormed = true) ∧
    (∀ q ∈ [(0, 64), (63, 1), (0, 1)], let p : R3 := ⟨0, 7, rg 4, rg 3, ⟨0, 0⟩, all, 0, BitVec.ofNat 21 (q.1 + 64 * q.2)⟩
      1 ≤ p.len ∧ p.pos + p.len ≤ 64 ∧ (Instr.bfi p).wellFormed = true) := by decide +kernel
theorem meets_LeaComputesAnAddress : (∀ sf ∈ [(0 : BitVec 4), 3], (Instr.lea ⟨sf, 7, rg 1, imm 2, all, none⟩).wellFormed = true ∧
    (Instr.leaDisp ⟨sf, 7, ⟨2, 255⟩, rg 2, all, some 8⟩).wellFormed = true ∧ sf.toNat ≤ 3) ∧ (Instr.lea ⟨4, 7, rg 1, imm 2, all, none⟩).wellFormed = false := by decide +kernel
theorem meets_ZeroRegister : gd (0 : BitVec 6) = 0 ∧ (31 : Fin 32) ≠ 0 := by decide +kernel
theorem meets_FloatAndConversionResults : (∀ f ∈ [0, 1, 2], ∀ t ∈ [3, 4, 5, 6], (Instr.fcvt ⟨0, 7, rg 8, ⟨0, 0⟩, ⟨0, 0⟩, all, 0, BitVec.ofNat 21 (f + 16 * t)⟩).wellFormed = true) ∧
    (unpack .fp32 0x7FC00000).isNan = true ∧ (unpack .fp32 0x4F000000 = .fin false 0x800000 8) ∧ (roundInt 0 false 0x800000 8).1 = 2 ^ 31 ∧
    (roundInt 0 true 0x800000 8).1 = -2 ^ 31 ∧ (roundInt 1 true 0x800000 9).1 < -2 ^ 31 := by decide +kernel
theorem meets_ClassWordHasOneBit : (Instr.fclass ⟨0, 7, rg 8⟩).wellFormed = true ∧ (Instr.fclass ⟨1, 7, rg 8⟩).wellFormed = true ∧
    (∃ t, exec (.fclass ⟨1, 7, rg 8⟩) lab = .next t) := ⟨by decide +kernel, by decide +kernel, _, rfl⟩
theorem meets_ScalarFrame : (∃ t, exec (.add ⟨0, 7, rg 1, rg 2, all, none⟩) lab = .next t) ∧ (∃ t, exec (.fcvt ⟨0, 7, rg 8, ⟨0, 0⟩, ⟨0, 0⟩, all, 0, 0x32⟩) lab = .next t) ∧
    (∃ t, exec (.liHn ⟨3, 7, rg 4, 5⟩) lab = .next t) ∧ ∃ t, exec (.bfx ⟨0, 7, rg 4, ⟨0, 0⟩, ⟨0, 0⟩, all, 0, 64⟩) lab = .next t := ⟨⟨_, rfl⟩, ⟨_, rfl⟩, ⟨_, rfl⟩, _, rfl⟩

/-- Each condition of B.CC holds of one pair and fails of another at its bound; the target is a head. -/
theorem meets_ControlTransferResults : (0x2002 : Word) ≠ 0 ∧ lab.isHead 0x2002 = true ∧
    (∀ c ∈ [((0 : BitVec 4), imm 3, imm 3, imm 4), (1, imm 3, imm 4, imm 3), (2, imm 0xFF, imm 0, imm 0xFF), (3, imm 0, imm 0, imm 1), (4, imm 0, imm 1, imm 0), (5, imm 0xFF, imm 0xFF, imm 0)],
      let p : S := ⟨c.1, c.2.1, c.2.2.1, 0⟩
      p.sf.toNat ≤ 5 ∧ (0x2002 : Word) = lab.target p.imm) ∧
    branchHolds 2 (lab.src (imm 0xFF)) (lab.src (imm 0)) ∧ ¬ branchHolds 2 (lab.src (imm 0xFF)) (lab.src (imm 0xFF)) ∧
    branchHolds 5 (lab.src (imm 0xFF)) (lab.src (imm 0xFF)) ∧ ¬ branchHolds 4 (lab.src (imm 0)) (lab.src (imm 0)) ∧
    (0x2002 : Word) = lab.target (0 : BitVec 32) ∧ (0x2002 : Word) = lab.src (rg 31) ∧ (0x2002 : Word) = lab.gread 31 ∧
    0 < (lab.src (rg 1) - lab.src (imm 1)).toInt ∧ (lab.src (rg 1) - lab.src (rg 1)).toInt ≤ 0 := by unfold branchHolds; decide +kernel
theorem meets_TransfersThatDoNotArrive : transferTo (.jr ⟨0, 0, imm 0⟩) lab = some 0 ∧ transfers (.jr ⟨0, 0, imm 0⟩) lab ∧ lab.lostStore = none ∧
    transferTo (.jr ⟨0, 0, imm 0⟩) labLost = some 0 ∧ labLost.lostStore = some (BitVec.ofNat 64 far1) ∧ labLost.cur.trap.hm = false ∧
    transferTo (.jr ⟨0, 0, rg 1⟩) lab = some 0x4000 ∧ lab.isHead 0x4000 = false ∧ lab.isHead 0x2004 = false ∧ lab.cur.trap.hm = false ∧ lab.cur.trap.tvec ≠ 0 := by
  refine ⟨by decide +kernel, True.intro, ?_⟩; decide +kernel

theorem meets_ScalarMemoryResults : (0x4000 % 8 = 0 ∧ lab.translate 0x4000 .load = .ok at4000 ∧ lab.translate 0x4000 .store = .ok at4000 ∧
      lab.translate 0x4000 .amo = .ok at4000 ∧ poisonedAt (lab.settleFor false at4000) false 0x4000 8 = none ∧ at4000.spot.m = lab.cur.mod) ∧
    (lab.src (rg 1) + (0 : BitVec 16).signExtend 64).toNat = 0x4000 ∧ (lab.src (rg 1) + (0xFFF8 : BitVec 16).signExtend 64).toNat = 0x3FF8 := by decide +kernel
/-- The lab's memory is in its canonical form. -/
theorem lab_memOk : lab.memOk := by
  refine ⟨by decide +kernel, by decide +kernel, by decide +kernel, by decide +kernel⟩
theorem meets_WrittenBytesReadBack : lab.memOk ∧ (0 : Nat) < [(7 : Byte)].length := ⟨lab_memOk, by decide⟩
theorem meets_ScalarMemoryFrame : lab.memOk ∧ lab.translate 0x4000 .store = .ok at4000 ∧ at4000.spot.m = lab.cur.mod ∧ poisonedAt lab false at4000.spot.loc 8 = none ∧
    (∃ t, exec (.ld ⟨0, 7, rg 1, 0⟩) lab = .next t) ∧ (∃ t, exec (.st ⟨0, rg 1, rg 2, 0⟩) lab = .next t) ∧ (∃ t, exec (.sc ⟨0, 7, rg 1, rg 2, all, none⟩) lab = .next t) ∧
    ∃ t, exec (.amo ⟨0, 7, rg 1, rg 2, rg 0, all, 0, 0⟩) lab = .next t := by
  refine ⟨lab_memOk, by decide +kernel, by decide +kernel, by decide +kernel, ?_⟩
  have h (i : Instr) (hi : (match exec i lab with | .next _ => true | _ => false) = true) : ∃ t, exec i lab = .next t := by
    cases e : exec i lab with
    | next t => exact ⟨t, rfl⟩
    | fault _ => rw [e] at hi; exact absurd hi (by simp)
    | refused _ => rw [e] at hi; exact absurd hi (by simp)
  exact ⟨h _ (by decide +kernel), h _ (by decide +kernel), h _ (by decide +kernel), h _ (by decide +kernel)⟩
theorem meets_ReservationResults : (let s := labWith (fun h => { h with resv := some (0x4000 / 8) })
      s.cur.resv = some (at4000.spot.loc / 8) ∧ s.translate (s.src (rg 1)).toNat .store = .ok at4000) ∧
    (let s := labWith (fun h => { h with resv := some (0x4000 / 8 + 1) }); s.cur.resv = some 2049 ∧ 2049 ≠ at4000.spot.loc / 8) ∧ lab.cur.resv = none ∧
    (lab.src (rg 1)).toNat % 8 = 0 ∧ poisonedAt (lab.settleFor false at4000) false at4000.spot.loc 8 = none ∧ at4000.spot.m = lab.cur.mod ∧
    (0x4007 < 8 * 2048 + 8 ∧ 8 * 2048 < 0x4007 + 1) ∧ ¬ (0x4008 < 8 * 2048 + 8 ∧ 8 * 2048 < 0x4008 + 1) := by decide +kernel
theorem meets_MisalignedScalarAccessTraps : (lab.src (rg 2)).toNat % Machine.sizeOf 2 ≠ 0 ∧ (lab.src (rg 2)).toNat % 4 ≠ 0 ∧ lab.cur.trap.hm = false ∧ lab.cur.trap.tvec ≠ 0 := by
  decide +kernel

/-- An instruction whose outcome evaluates to a next state answers it. -/
theorem answers (i : Instr) (s : State) (hi : (match exec i s with | .next _ => true | _ => false) = true) : ∃ t, exec i s = .next t := by
  cases e : exec i s with
  | next t => exact ⟨t, rfl⟩
  | fault _ => rw [e] at hi; exact absurd hi (by simp)
  | refused _ => rw [e] at hi; exact absurd hi (by simp)

theorem meets_NopHasNoEffect : (Instr.nop ⟨0⟩).wellFormed = true ∧ (0 : Nat) = 0 := by decide +kernel
theorem meets_HintsAndEventBit : lab.executes = true ∧ lab.cur.event = false ∧ (labWith (fun h => { h with event := true })).cur.event = true := by decide +kernel

/-- What the program counter reaches is this instruction with its head and next head. -/
def fetchesAs (f : Fetched) (i : Instr) (head : Half) (next : Word) : Bool :=
  match f with
  | .run j h n => decide (j = i) && decide (h = head) && decide (n = next)
  | .stop _ => false

/-- PAUSE at its first turn, at a turn before its interval is over, at one after it, and at the event of its end. -/
theorem meets_PauseWaitsItsInterval : (Instr.pause ⟨0, 0, imm 1⟩).wellFormed = true ∧ (lab.src (imm 0)).toNat = 0 ∧ (lab.src (imm 1)).toNat ≠ 0 ∧ lab.cur.waitOn = none ∧
    (let s := labWith (fun h => { h with waitOn := some 0, waitFrom := lab.tick })
     s.cur.waitOn.isSome = true ∧ min (s.src (imm 0)).toNat 1048576 ≤ s.since s.cur.waitFrom) ∧
    (let s := placeLine lab (lineOf 0x5480 0x0300)
     let u := { s with cur := { s.cur with phase := .waiting, waitOn := some 0 } }
     u.cur.phase = .waiting ∧ u.cur.vq = [] ∧ u.cur.waitOn.isSome = true ∧
     fetchesAs (fetch u) (.pause ⟨0, 0, imm 0⟩) 0x5480 0x2042 = true) := by
  refine ⟨by decide +kernel, by decide +kernel, by decide +kernel, by decide +kernel, ⟨by decide +kernel, ?_⟩, ?_⟩
  · have h : (State.src (labWith (fun h => { h with waitOn := some 0, waitFrom := lab.tick })) (imm 0)).toNat = 0 := by decide +kernel
    rw [h]; simp
  · refine ⟨by decide +kernel, by decide +kernel, by decide +kernel, ?_⟩
    decide +kernel
/-- A wait that has just begun has not lasted a cycle. -/
theorem meets_PauseWaits_before : (let s := labWith (fun h => { h with waitOn := some 0, waitFrom := lab.tick })
    s.cur.waitOn.isSome = true ∧ (s.src (imm 1)).toNat ≠ 0 ∧ s.since s.cur.waitFrom < min (s.src (imm 1)).toNat 1048576) := by
  have h : (State.src (labWith (fun h => { h with waitOn := some 0, waitFrom := lab.tick })) (imm 1)).toNat = 1 := by decide +kernel
  have h2 : (labWith (fun h => { h with waitOn := some 0, waitFrom := lab.tick })).since lab.tick = 0 := by
    show cyclesAt lab.tick - cyclesAt lab.tick = 0; omega
  refine ⟨rfl, by rw [h]; decide, ?_⟩
  show State.since _ lab.tick < _
  rw [h2, h]; decide

theorem meets_PreciseTrapEntersTheHandler : lab.cur.trap.hm = false ∧ lab.cur.trap.tvec ≠ 0 ∧ (mkCause 0x01 0).code = 0x01 ∧ (mkCause 0x0E 1).code = 0x0E := by decide +kernel
/-- A queue entry of VADD. -/
def labEntry : QEntry := ⟨.vadd ⟨0, 7, ⟨0, 1⟩, ⟨0, 1⟩, ⟨0, 0⟩, none⟩, 0x2002, 0x8400, labG, [], .idle, false, [], false⟩
theorem meets_OtherTrapRoutes : (let s := labWith (fun h => { h with vq := [labEntry] })
      s.cur.trap.hm = false ∧ s.cur.trap.tvec ≠ 0 ∧ s.cur.vq = labEntry :: [] ∧ (mkCause 0x0E 1).code = 0x0E) ∧
    (lab.cur.trap.hm = false ∧ (mkCause 0x0F 3).code = 0x0F) ∧
    (labHandler.cur.trap.hm = true ∧ labHandler.launch? 1 = some labLaunch ∧ labHandler.cur.id.launch = 1 ∧ labLaunch.finished = false ∧ labLaunch.closed = false ∧
      labHandler.mod? 0 = some Module.reset ∧ Module.reset.lost = []) := by decide +kernel
theorem meets_HandlerModeInstructions : labHandler.cur.trap.hm = true ∧ labHandler.cur.trap.tepc ≠ 0 ∧ labHandler.isHead labHandler.cur.trap.tepc.toNat = true ∧
    (let s := labWith (fun h => { h with trap := { h.trap with hm := true } }); s.cur.trap.hm = true ∧ s.cur.trap.tepc = 0 ∧ s.cur.vq = [] ∧ s.lostStore = none) ∧
    lab.cur.trap.hm = false ∧ lab.cur.trap.tvec ≠ 0 := by decide +kernel

/-- Each kind of register read, the registers that no number names, and each kind of write. -/
theorem meets_StateRegisterResults : lab.clean = true ∧ srValue lab 0x000 1 ∧ srValue lab 0x010 0x3000 ∧ srValue lab 0x01F 0 ∧
    (∀ n ∈ [0x00E, 0x00F, 0x020, 4095], n = 0x00E ∨ n = 0x00F ∨ 0x020 ≤ n ∧ n < 4096) ∧
    (let s := labWith (fun h => { h with vq := [labEntry], trap := { h.trap with hm := true } })
     s.cur.trap.hm = true ∧ s.cur.vq ≠ [] ∧ (s.src (rg 6)).extractLsb' 60 4 = 0 ∧ s.nodesPending = false) ∧
    (let s := labWith (fun h => { h with g := h.g.set 6 0xAFFFFFFFFFFFFFFF, trap := { h.trap with hm := true } })
     s.cur.trap.hm = true ∧ (s.src (rg 6)).extractLsb' 60 4 = 0xA ∧ s.nodesPending = false) := by
  refine ⟨by decide +kernel, ?_, ?_, ?_, by decide, by decide +kernel, by decide +kernel⟩ <;> unfold srValue <;> decide +kernel
theorem meets_YieldSavesTheHart : (lab.src (imm 127)).toNat ≤ lab.cur.cfg.vlmaxOf 1 ∧ (lab.src (imm 0)).toNat ≤ lab.cur.cfg.vlmaxOf 1 ∧ lab.lostStore = none ∧
    (let s := labWith (fun h => { h with g := h.g.set 6 128 }); (s.src (rg 6)).toNat = s.cur.cfg.vlmaxOf 1) := by decide +kernel
theorem meets_ReleaseMakesTheFarPointCurrent : lab.memOk ∧ lab.fabric = [] ∧ lab.lostStore = none ∧ lab.translate (lab.src (rg 1)).toNat .load = .ok at4000 ∧
    at4000.spot.kind = .hbm 0 ∧ (0 : Nat) < 12 ∧ (3 : BitVec 4).toNat ≤ 3 ∧ (6 : BitVec 4) = 6 := ⟨lab_memOk, by decide +kernel⟩

/-- FIPS 202's first eight bytes of SHAKE256 of the empty message. -/
theorem test_shake256 : shake256 8 [] = [0x46, 0xB9, 0xDD, 0x2B, 0x0B, 0xA8, 0x8D, 0x13] := by decide +kernel

/-- A search in which nothing is found. -/
theorem firstSome_none {α β : Type} (l : List α) : firstSome (fun _ => (none : Option β)) l = none := by
  induction l with
  | nil => rfl
  | cons _ _ ih => simp [firstSome, ih]

/-- The lab's pages map every low address to itself. -/
theorem lab_identity (va : Nat) (h : va < 2 ^ 20) : labHandler.translate va .store = .ok ⟨⟨0, va, .hbm 0⟩, 0⟩ := by
  have hb : bits va 48 9 = 0 := by unfold bits; omega
  have hc : canonical va = true := by simp [canonical]; omega
  have hm : va % 2 ^ 48 = va := Nat.mod_eq_of_lt (by omega)
  have hl : labHandler.leafFor labHandler.view va .store = walk labHandler labHandler.view va .store 5 1 := by
    have e1 : labHandler.tlb = [] := by decide +kernel
    have e2 : bits labHandler.view.atp.toNat 0 40 = 1 := by decide +kernel
    unfold State.leafFor State.heldLeaf State.walkStart
    simp only [e1, e2, List.find?_nil, firstSome_none]
  have hr : labHandler.resolve labHandler.view.ranks labHandler.view.m 4096 = .ok ⟨0, 4096, .hbm 0⟩ := by decide +kernel
  have h1 : labHandler.holderAt labHandler.view.m ⟨0, 4096, .hbm 0⟩ false .table = none := by decide +kernel
  have h0 : labHandler.view.readsFar ⟨0, 4096, .hbm 0⟩ = false := by decide +kernel
  have h2 : poisonedAt labHandler false (Spot.loc ⟨0, 4096, .hbm 0⟩) 8 = none := by decide +kernel
  have h3 : leNat (readBytes labHandler false (Spot.loc ⟨0, 4096, .hbm 0⟩) 8) = 0xDF := by decide +kernel
  have hw : walk labHandler labHandler.view va .store 5 1 = .ok (0xDF, 4) := by
    unfold walk
    simp only [hb, Nat.one_mul, Nat.zero_mul, Nat.add_zero, hr, h1, h0, h2, h3]
    have e1 : bit 0xDF 0 = true := by decide
    have e2 : pteBad 0xDF 4 = false := by decide
    have e3 : (bit 0xDF 1 || bit 0xDF 2 || bit 0xDF 3) = true := by decide
    simp [e1, e2, e3]
  have ho : leafOutcome 0xDF 4 va .store = .ok (va, 0) := by
    unfold leafOutcome
    have : bits 0xDF 10 40 = 0 := by decide
    have e5 : pteDenies 0xDF .store = false := by decide
    have e6 : bit 0xDF 6 = true := by decide
    have e7 : bit 0xDF 7 = true := by decide
    have e8 : bits 0xDF 61 2 = 0 := by decide
    simp [this, e5, e6, e7, e8]; omega
  have hq : labHandler.resolve labHandler.view.ranks labHandler.view.m va = .ok ⟨0, va, .hbm 0⟩ := by
    unfold State.resolve
    have : labHandler.view.m = 0 := by decide +kernel
    have h5 : labHandler.mod? 0 = some Module.reset := by decide +kernel
    simp only [this, h5]
    have hl : va < 2 ^ 51 := by omega
    have hk : va / 0x1000000000 = 0 := by omega
    simp only [hl, if_true, resolveLocal]
    rw [if_pos (by omega), hk]
  have hv : labHandler.holderAt labHandler.view.m ⟨0, va, .hbm 0⟩ (decide True) .frame = none := by
    have h4 : labHandler.view.m = 0 := by decide +kernel
    have h5 : labHandler.mod? 0 = some Module.reset := by decide +kernel
    simp [State.holderAt, State.movingAt, h4, h5, Module.reset]
  have hp : (labHandler.mod? labHandler.view.m).bind (fun x => x.pub? labHandler.view.asid va) = none := by
    have h4 : labHandler.mod? labHandler.view.m = some Module.reset := by decide +kernel
    rw [h4]; rfl
  unfold State.translate State.translateAs
  simp only [hc, hl, hw, ho, hp, hq, hv, Bool.not_true, Bool.false_eq_true, if_false]

/-- So do the runs of an access there. -/
theorem lab_runs (f va n : Nat) (h : va + n ≤ 2 ^ 20) :
    ∃ ps, labHandler.transRuns .store (lineRuns f va n) = .ok ps ∧ (ps.any (fun q => q.1.dclass)) = false := by
  induction f generalizing va n with
  | zero => exact ⟨[], rfl, rfl⟩
  | succ f ih =>
    unfold lineRuns
    by_cases hn : n = 0
    · simp [hn, State.transRuns]
    · obtain ⟨ps, h1, h2⟩ := ih (va + min n (128 - va % 128)) (n - min n (128 - va % 128)) (by omega)
      have hv : va % 2 ^ 64 = va := Nat.mod_eq_of_lt (by omega)
      refine ⟨(⟨⟨0, va, .hbm 0⟩, 0⟩, min n (128 - va % 128)) :: ps, ?_, ?_⟩
      · rw [if_neg hn]
        unfold State.transRuns
        simp only [hv, lab_identity va (by omega), h1]
      · simp only [List.any_cons, h2]; rfl

/-- VSAVE at 0x4000 in handler mode, whatever the frame's size. -/
theorem meets_OpaqueFramesAndFreeze_save : labHandler.cur.trap.hm = true ∧ (labHandler.src (rg 1)).toNat % 4096 = 0 ∧
    ∃ ps, labHandler.transRange (labHandler.src (rg 1)).toNat (64 * (1 + Config.frameBlocks labHandler.free % 8192)) .store = .ok ps ∧
      (ps.any (fun q => q.1.dclass)) = false := by
  have h : (labHandler.src (rg 1)).toNat = 0x4000 := by decide +kernel
  refine ⟨by decide +kernel, by rw [h], ?_⟩
  rw [h]
  exact lab_runs _ _ _ (by have := Nat.mod_lt (Config.frameBlocks labHandler.free) (show 8192 > 0 by decide); omega)

/-- A frame of a header alone, its CHECK that of FIPS 202. -/
def labFrameBytes : List Byte := frameHeader labHart 64 ++ leBytes 8 (frameCheck (frameHeader labHart 64) [])
/-- The handler with that frame in memory and its record. -/
def labFrame : State :=
  { storeNear labHandler 0x4000 labFrameBytes with
    frames := [⟨⟨1, 0, 0, 0, 0⟩, 0, 64, labHart.cfg, labHart.vec, labHart.mask, labHart.accs, 0, [], 0, Unfinished.none, []⟩] }
theorem meets_OpaqueFramesAndFreeze_restore :
    (match labFrame.transRange 0x4000 64 .load with
     | .ok ps => !(ps.any (fun q => q.1.dclass)) && (match labFrame.readRuns false ps with
       | .ok hd => headerOk labFrame.cur hd && decide (leNat (hd.take 8) % 2 ^ 48 = 64) &&
           decide (leNat ((hd.drop 56).take 8) = frameCheck hd (hd.drop 64)) &&
           (labFrame.frames.find? (fun g => decide (g.hart = labFrame.cur.id) && g.size == 64 && (hd.drop 64 == frameBody g.n 64))).isSome && !labFrame.posted && labFrame.cur.vq.isEmpty
       | .error _ => false)
     | .error _ => false) = true ∧ labFrame.cur.trap.hm = true := by decide +kernel
theorem meets_OpaqueFramesAndFreeze_freeze : (let s := { labHandler with launches := [(1, { labLaunch with frz := true })] }
    s.cur.trap.hm = true ∧ s.launch? s.cur.id.launch = some { labLaunch with frz := true } ∧ s.mod? s.cur.mod = some Module.reset ∧ Module.reset.frozen = false) := by decide +kernel

/-- With VL 1 only element 0 is performed. -/
theorem performs_zero {s : State} (h : s.cur.cfg.vl.toNat = 1) {m : Mk} {i : Nat} (hp : s.performs m i) : i = 0 := by
  have h1 := hp.1
  unfold State.activeAt at h1
  rw [Bool.and_eq_true, decide_eq_true_eq] at h1
  omega
/-- An answer that evaluates to a value is that value. -/
theorem okOf {ε α : Type} (x : Except ε α) (h : (match x with | .ok _ => true | .error _ => false) = true) : ∃ a, x = .ok a := by
  cases x with
  | ok a => exact ⟨a, rfl⟩
  | error _ => exact absurd h (by simp)
/-- Each performed element of an unmasked instruction gets an answer. -/
def eachOk {ε α : Type} (s : State) (f : Nat → Except ε α) : Prop := ∃ g : Nat → α, ∀ i, s.performs all i → f i = .ok (g i)
/-- What element 0 gives is what every performed element gives. -/
theorem forall_performs {ε α : Type} {s : State} (hv : s.cur.cfg.vl.toNat = 1) (f : Nat → Except ε α)
    (h : (match f 0 with | .ok _ => true | .error _ => false) = true) : eachOk s f := by
  obtain ⟨a, ha⟩ := okOf (f 0) h
  exact ⟨fun _ => a, fun i hi => by rw [performs_zero hv hi, ha]⟩

theorem lab_vecReady : lab.vecReady := by unfold State.vecReady; decide +kernel
theorem labInt_vecReady : labInt.vecReady := by unfold State.vecReady; decide +kernel

/-- v31 is the last register of NREG 32, v32 is beyond it. -/
theorem meets_VectorFloatResults : lab.vecReady ∧ lab.isFloat = true ∧ lab.destOk 31 = true ∧ lab.nearOk (rv 31) = true ∧ lab.nearOk (imm 1) = true ∧ lab.nearOk (rv 32) = false :=
  ⟨lab_vecReady, by decide +kernel⟩
theorem meets_VectorIntegerResults : labInt.vecReady ∧ labInt.isInt = true ∧ labInt.destOk 31 = true ∧ labInt.nearOk (rv 31) = true ∧ labInt.nearOk (rg 4) = true :=
  ⟨labInt_vecReady, by decide +kernel⟩
theorem meets_ConvertClassSelectResults : lab.executes = true ∧ lab.clean = true ∧ noCond (vcvtConds (labWith (fun h => { h with cfg := ⟨1, false, false, 2, 1⟩ })) ⟨0, 30, rv 1, rv 0, rv 0, all, 0, 0x21⟩) ∧
    noCond (vcvtConds lab ⟨0, 8, rv 1, rv 0, rv 0, all, 0, 0x62⟩) ∧ lab.cur.cfg.etype = 2 ∧
    (labWith (fun h => { h with cfg := ⟨1, false, false, 2, 1⟩ })).cur.cfg.etype = 1 ∧ ((⟨1, 0⟩ : Mk).mode = 1 ∧ (⟨2, 0⟩ : Mk).mode = 2) ∧ labInt.isInt = true := by
  unfold noCond; decide +kernel
theorem meets_MaskAndReductionResults : labInt.vecReady ∧ lab.vecReady ∧ labInt.isInt = true ∧ (13 : BitVec 4).toNat % 8 < 6 ∧ lab.isFloat = true ∧ (6 : BitVec 4).toNat < 7 ∧
    (1 < labInt.cur.cfg.vl.toNat ∧ labInt.cur.maskBit (qf 1) 1 = true ∧ (∀ j, j < 1 → labInt.cur.maskBit (qf 1) j = false)) ∧
    (∀ j, j < labInt.cur.cfg.vl.toNat → labInt.cur.maskBit (qf 0) j = false) ∧ labInt.destOk 7 = true ∧ lab.nearOk (rv 1) = true ∧
    (¬ (lab.isFloat = true ∧ (2 : BitVec 4).toNat % 8 = 0)) ∧ (lab.isFloat = true ∧ (0 : BitVec 4).toNat % 8 ≤ 2) :=
  ⟨labInt_vecReady, lab_vecReady, by decide +kernel⟩
theorem meets_PermuteAndSortResults : labInt.vecReady ∧ labInt.destOk 7 = true ∧ (rv 1).tag = 0 ∧ labInt.nearOk (rv 1) = true ∧ (rg 1).tag ≠ 0 ∧ (rv 1).tag ≠ 1 ∧
    5 ≤ labInt.cur.cfg.etype.toNat ∧ labInt.cur.cfg.etype.toNat ≤ 7 ∧ labInt.cur.cfg.etype ≠ 4 ∧ (labInt.src (rg 1)).toNat % 4 = 0 ∧
    (∃ u, addCounts labInt (labInt.src (rg 1)).toNat (bucketCounts 4 ((labInt.actives all).map (fun i => labInt.cur.elem 1 i))) = .ok u) ∧
    (∃ u, addCounts labInt (labInt.src (rg 1)).toNat (bucketCounts 0 ((labInt.actives all).map (fun i => labInt.cur.elem 1 i))) = .ok u) :=
  ⟨labInt_vecReady, by decide +kernel, by decide, by decide +kernel, by decide, by decide, by decide +kernel, by decide +kernel, by decide +kernel, by decide +kernel,
    okOf _ (by decide +kernel), okOf _ (by decide +kernel)⟩

/-- VCFG at both ends of NREG; VSETL under a notice, unbound, and bound with one element left, with none in a closed cell and in an open one. -/
theorem meets_VectorLengthAndTypeResults : lab.executes = true ∧ (lab.src (imm 8)).toNat = 8 * 2 ^ 0 ∧ (lab.src (imm 64)).toNat = 8 * 2 ^ 3 ∧ lab.cur.cfg.ill = false ∧
    lab.launch? lab.cur.id.launch = some labLaunch ∧ labLaunch.pkt.stages < 2 ∧ lab.cur.notice.pend = false ∧ lab.cur.stream.bound = false ∧
    (let s := labWith (fun h => { h with stream := ⟨true, 3, 6⟩ }); s.cur.stream.bpos.toNat + 1 = s.boundCell.index) ∧
    (let s := labWith (fun h => { h with stream := ⟨true, 3, 7⟩ }); s.cur.stream.bound = true ∧ s.boundCell.index ≤ s.cur.stream.bpos.toNat ∧ s.boundCell.closed = false) ∧
    (let s := State.publishCell (labWith (fun h => { h with stream := ⟨true, 3, 7⟩ })) 1 0 3 7 true; s.boundCell.index ≤ s.cur.stream.bpos.toNat ∧ s.boundCell.closed = true) ∧
    (let s := labWith (fun h => { h with notice := ⟨true, 9, 0⟩, cfg := { h.cfg with fresh := true } }); s.cur.notice.pend = true ∧ s.cur.trap.hm = false ∧ s.cur.cfg.fresh = true) := by
  decide +kernel
theorem meets_GrantChangesClearRegisters : lab.launch? 1 = some labLaunch ∧ labLaunch.pkt.stages < 2 ∧
    (labWith (fun h => { h with trap := { h.trap with pin := true } })).cur.trap.pin = true ∧
    (let s := labWith (fun h => { h with lastShift := some h.waitFrom }); s.share? 1 0 = some labShare ∧ s.cur.lastShift = some 0) ∧
    (let x : Stage := ⟨1, 1, 2⟩; [x][0]? = some x ∧ ((spread 1 [x])[0]?).isSome = true) := by decide +kernel
theorem meets_FrameSizeIsRead : lab.executes = true ∧ lab.cur.cfg.ill = false ∧ lab.cur.trap.hm = false ∧ lab.cur.trap.tvec ≠ 0 ∧
    (let s := labWith (fun h => { h with g := (h.g.set 6 16384).set 7 16385 }); (s.src (rg 6)).toNat ≤ 16384 ∧ 16384 < (s.src (rg 7)).toNat) ∧
    (labWith (fun h => { h with cfg := VCfg.reset })).cur.cfg.ill = true := by decide +kernel
theorem meets_StreamBindingResults : lab.executes = true ∧ lab.cur.configured = true ∧ (lab.src (rg 5)).toNat < 2 ^ 63 ∧ (lab.src (imm 63)).toNat < 64 ∧ 64 ≤ (lab.src (imm 64)).toNat := by
  decide +kernel

/-- A hart without tiles, and the header of a frame of one element of its type. -/
def labFill : State :=
  let s := storeNear lab 0x4000 (leBytes 4 (1 + 2 * 2 ^ 20 + 2 * 2 ^ 24))
  { s with cur := { s.cur with accs := [] } }
theorem meets_SpillAndFillResults : labFill.executes = true ∧ labFill.cur.configured = true ∧ labFill.clean = true ∧ (0 : Nat) ≤ labFill.cur.vlmax ∧ 0x4000 % 64 = 0 ∧ labFill.cur.accs = [] ∧
    (∃ ps, labFill.transRangeD labFill.view 0x4000 (labFill.cur.frameSize 0) .store 6 = .ok ps) ∧
    (match labFill.transRangeD labFill.view 0x4000 64 .load 6 with
     | .ok ps => (match labFill.readRuns false ps with
       | .ok hd => let w0 := leNat (hd.take 8)
         decide (w0 % 2 ^ 18 = 1) && decide (w0 / 2 ^ 20 % 16 = 2) && decide (w0 / 2 ^ 24 % 4 = 2) && decide (w0 / 2 ^ 28 % 16 = 0) &&
           (match labFill.transRangeD labFill.view 0x4000 (labFill.cur.frameSize 1) .load 6 with
            | .ok qs => (match labFill.readRuns false qs with | .ok _ => true | .error _ => false)
            | .error _ => false)
       | .error _ => false)
     | .error _ => false) = true :=
  ⟨by decide +kernel, by decide +kernel, by decide +kernel, by decide +kernel, by decide, rfl, okOf _ (by decide +kernel), by decide +kernel⟩

/-- An fp32 access in the unit-stride mode, a KB4 one, one with an index register v3 and one with a layout register v2 of four elements. -/
def mUnit : M := ⟨0, 1, rg 1, rv 0, 0, 0, all, 0, 0⟩
def mKb : M := ⟨0, 1, rg 1, imm 16, 6, 0, all, 0, 0⟩
def mIndex : M := ⟨2, 1, rg 1, rv 3, 0, 0, all, 0, 0⟩
def mTensor : M := ⟨0, 1, rg 1, rv 2, 0, 0, all, 0, 0⟩
/-- The layout of mTensor: stride 4, extent 4, origin 0, box 4. -/
def labTensor : State := labWith (fun h => { h with vec := h.vec.set 2 (4 * 2 ^ 32 + 4 + 4 * 2 ^ 64) })
/-- The same with its box beyond the tensor. -/
def labTensorOut : State := labWith (fun h => { h with vec := h.vec.set 2 (4 * 2 ^ 32 + 4 + (4 * 2 ^ 32 + 4) * 2 ^ 64) })
theorem lab_vl : lab.cur.cfg.vl.toNat = 1 := by decide +kernel
theorem labTensor_vl : labTensor.cur.cfg.vl.toNat = 1 := by decide +kernel
theorem labTensorOut_vl : labTensorOut.cur.cfg.vl.toNat = 1 := by decide +kernel

theorem meets_VectorLoadResults : lab.vecReady ∧ lab.memOk ∧ noCond (lab.memConds mUnit true [1] []) ∧
    (eachOk lab (fun i => lab.loadElem 0 2 (lab.unitAddr mUnit i))) ∧
    (eachOk lab (fun i => lab.loadElem 0 2 (lab.strideAddr mUnit i))) ∧
    (mKb.kb = true ∧ noCond (lab.memConds mKb true [1] []) ∧ noCond (lab.kbConds mKb) ∧
      eachOk lab (fun i => lab.kbGet none none lab.ft (lab.memBase mKb) 16 4 4 (lab.pending all) i)) ∧
    (noCond (lab.memConds mIndex true [1] (lab.indexConds (rv 3))) ∧ eachOk lab (fun i => lab.loadElem 0 2 (lab.indexAddr mIndex i))) := by
  refine ⟨lab_vecReady, lab_memOk, by unfold noCond; decide +kernel, forall_performs lab_vl _ (by decide +kernel), forall_performs lab_vl _ (by decide +kernel),
    ⟨by decide +kernel, by unfold noCond; decide +kernel, by unfold noCond; decide +kernel, forall_performs lab_vl _ (by decide +kernel)⟩,
    by unfold noCond; decide +kernel, forall_performs lab_vl _ (by decide +kernel)⟩
/-- VLDT's element inside the tensor, and one outside it. -/
theorem meets_VectorLoadResults_tensor : noCond (labTensor.tensorConds mTensor true) ∧ labTensor.tensorD mTensor .load = none ∧ labTensor.tensorD mTensor .store = none ∧
    (decompose (labTensor.dims mTensor) 0).1 = 0 ∧ labTensor.tensorAddr mTensor 0 = some 0x4000 ∧
    (eachOk labTensor (fun _ => labTensor.loadElem 0 2 0x4000)) ∧ (eachOk labTensor (fun i => labTensor.storeElem 0 2 0x4000 (labTensor.cur.elem 1 i))) ∧
    noCond (labTensorOut.tensorConds mTensor true) ∧ noCond (labTensorOut.tensorConds mTensor false) ∧ labTensorOut.tensorD mTensor .load = none ∧
    (decompose (labTensorOut.dims mTensor) 0).1 = 0 ∧ labTensorOut.tensorAddr mTensor 0 = none := by
  refine ⟨by unfold noCond; decide +kernel, by decide +kernel, by decide +kernel, by decide +kernel, by decide +kernel, forall_performs labTensor_vl _ (by decide +kernel),
    forall_performs labTensor_vl _ (by decide +kernel), by unfold noCond; decide +kernel, by unfold noCond; decide +kernel, by decide +kernel⟩
theorem meets_ElementAccessResults : 0x4000 % (fmtBits 0 (sewOf 2) / 8) = 0 ∧ lab.translate 0x4000 .load = .ok at4000 ∧ lab.translate 0x4000 .store = .ok at4000 ∧
    poisonedAt (lab.settleFor true at4000) false at4000.spot.loc 4 = none ∧ 0x4002 % (fmtBits 0 (sewOf 2) / 8) ≠ 0 := by decide +kernel
theorem meets_VectorStoreEffects : noCond (lab.memConds mUnit false [1] []) ∧ (eachOk lab (fun i => lab.storeElem 0 2 (lab.unitAddr mUnit i) (lab.cur.elem 1 i))) ∧
    (eachOk lab (fun i => lab.storeElem 0 2 (lab.strideAddr mUnit i) (lab.cur.elem 1 i))) ∧
    (noCond (lab.memConds mKb false [1] []) ∧ ∃ put : Nat → List Put × Flags, ∀ i ∈ [0],
      lab.kbMake none none lab.ft (lab.memBase mKb) 16 4 (lab.actives all) (lab.cur.elem 1) ((16 + i) / 512) = .ok (put i)) ∧
    (noCond (lab.memConds mIndex false [1] (lab.indexConds (rv 3))) ∧ eachOk lab (fun i => lab.storeElem 0 2 (lab.indexAddr mIndex i) (lab.cur.elem 1 i))) ∧
    lab.memOk ∧ (∀ q ∈ [(⟨0x4000, at4000, [1, 2]⟩ : Put)], q.phys.spot.m = lab.cur.mod) := by
  refine ⟨by unfold noCond; decide +kernel, forall_performs lab_vl _ (by decide +kernel), forall_performs lab_vl _ (by decide +kernel),
    ⟨by unfold noCond; decide +kernel, ?_⟩, ⟨by unfold noCond; decide +kernel, forall_performs lab_vl _ (by decide +kernel)⟩, lab_memOk, by decide +kernel⟩
  obtain ⟨a, ha⟩ := okOf (lab.kbMake none none lab.ft (lab.memBase mKb) 16 4 (lab.actives all) (lab.cur.elem 1) ((16 + 0) / 512)) (by decide +kernel)
  exact ⟨fun _ => a, fun i hi => by rw [List.mem_singleton.mp hi]; exact ha⟩
theorem meets_VectorAtomicResults : labInt.vecReady ∧ (labInt.badMem = [] ∧ labInt.badNear = [] ∧ ∀ c ∈ labInt.msc, c.2.bad = []) ∧ labInt.cur.cfg.etype = 6 ∧ (1 : BitVec 4).toNat % 8 ≠ 2 ∧
    noCond (labInt.memConds mUnit true [1] (if memIndexed mUnit then labInt.indexConds (rv 0) else [])) ∧ ∃ els, labInt.amoAll mUnit (labInt.pending all) = .ok els :=
  ⟨labInt_vecReady, by decide +kernel, by decide +kernel, by decide, by unfold noCond; decide +kernel, okOf _ (by decide +kernel)⟩

theorem labFar_ready : labFar.farReady 0 := by unfold State.farReady; decide +kernel
/-- A far form over m7, m1 and m2 in the stack of g1. -/
def rFar : R3 := ⟨0, 7, rv 1, rv 2, rv 1, all, 0, stk1⟩
/-- The far machine with an integer type. -/
def labFarInt : State := { labFar with cur := { labFar.cur with cfg := ⟨1, false, false, 2, 6⟩ } }
/-- The worked example of R270: the bias and clamp program at k40, its constants, m0 = [2, 3], m1 = [−1, 0.25], VL 2. -/
def labExpr : State :=
  let s := (lab.writeFar 0 0 32 [(0, 0x40000000), (1, 0x40400000)]).writeFar 0 1 32 [(0, 0xBF800000), (1, 0x3E800000)]
  { s with
    cur := { s.cur with cfg := ⟨2, false, false, 2, 2⟩ }
    launches := [(1, { labLaunch with shares := [(0, { labShare with const := [(40, 0x0000154113400201), (43, 0x3F000000)] })] })] }
/-- Its instruction, the word of R270's example. -/
def rExpr : R3 := ⟨0, 2, rv 0, rv 1, rv 0, all, 0, 0x84828⟩
/-- R270 gives +0 and 1.25 and no flag. -/
theorem test_fexpr_worked_example : (let s := { labExpr with cur := { labExpr.cur with g := labExpr.cur.g.set 9 0x4000 } }
    let t := after (exec (.fexpr rExpr) s); t.farElem 0 2 32 0 = 0 ∧ t.farElem 0 2 32 1 = 0x3FA00000 ∧ t.cur.aflags = 0) := by decide +kernel

theorem meets_FarElementwiseResults : labFar.farReady 0 ∧ labFar.stkStack rFar = .ok 0 ∧ noCond (labFar.farConds (labFar.groupsOf 7 [rv 1, rv 2, rv 1]) labFar.isFloat) ∧
    noCond (labFar.farConds (labFar.groupsOf 15 [rv 15]) labFar.isFloat) ∧ labFarInt.farReady 0 ∧ noCond (labFarInt.farConds (labFarInt.groupsOf 7 [rv 1, rv 2]) labFarInt.isInt) ∧
    labExpr.farReady 0 ∧ noCond (labExpr.farConds (labExpr.groupsOf 2 [rv 0, rv 1, rv 0]) labExpr.isFloat) ∧ labExpr.exprProg rExpr = some [1, 2, 0x40, 0x13, 0x41, 0x15] ∧
    noCond ((farCvt { rFar with imm := stk1 + 0x62 }).conds labFar) ∧ noCond (labFar.moveConds { rFar with imm := stk1 + 31 } 7) ∧ noCond (labFar.farConds (labFar.groupsOf 7 [rv 1, imm 0]) true) := by
  refine ⟨labFar_ready, ?_⟩
  unfold noCond State.farReady; decide +kernel
/-- A reduction in the own module; a far form for a stack of module 1 before its request, while it is out, and when it has come back. -/
theorem meets_FarReductionsAndRequests : labFar.farReady 0 ∧ noCond ((farVred rFar).conds labFar) ∧ ¬ (labFar.isFloat = true ∧ (1 : BitVec 4).toNat % 8 = 0) ∧ labFar.isFloat = true ∧
    (let e : QEntry := { labEntry with instr := .fVadd rFar, g := labG.set 1 (BitVec.ofNat 64 far1) }
     let s : State := { labTwo with cur := { labTwo.cur with active := some e, vq := [e] } }
     s.cur.active = some e ∧ e.trapped = false ∧ e.remote = .idle ∧
     (farOf e.instr).map (fun op => decide (∀ c ∈ op.conds s, c.1 = false) && decide (op.select s = .ok 16)) = some true ∧ 16 / 16 ≠ s.cur.mod ∧
     ({ e with remote := .sent } : QEntry).remote = .sent ∧ ({ e with remote := .done ⟨fNX, [], none⟩ } : QEntry).remote = .done ⟨fNX, [], none⟩ ∧ (⟨fNX, [], none⟩ : FarRes).stop = none) := by
  refine ⟨labFar_ready, by unfold noCond; decide +kernel, by decide, by decide +kernel, ?_⟩
  exact ⟨rfl, rfl, rfl, by decide +kernel, by decide +kernel, rfl, rfl, rfl⟩

theorem farPerforms_zero {s : State} (h : s.cur.cfg.vl.toNat = 1) {i : Nat} (hp : s.farPerforms i) : i = 0 := by
  have := hp.1; omega
/-- The far machine without a line in any memory-side cache. -/
theorem labFar_noReaders : labFar.noReaders := by
  unfold State.noReaders; decide +kernel
theorem labFar_vl : labFar.cur.cfg.vl.toNat = 1 := by decide +kernel
/-- An element at 0x4000 is reached in stack 0. -/
theorem labFar_reach (k : Want) (addr : Nat → Nat) (h : labFar.farPhys 0 (addr 0) 4 k = .ok at4000)
    (h1 : labFar.homeFault (labFar.farView 0) 0 (addr 0) k = none) (h2 : labFar.homeFault (labFar.farView 0) 0 (addr 0 + 4 - 1) k = none) : labFar.farReach 0 4 k addr (fun _ => at4000) := by
  intro i hi
  rw [farPerforms_zero labFar_vl hi]
  exact ⟨h, h1, h2⟩
/-- The far machine with an integer type reaches it too. -/
theorem labFarInt_vl : labFarInt.cur.cfg.vl.toNat = 1 := by decide +kernel
theorem meets_FarMemoryResults : labFar.farReady 0 ∧ noCond (labFar.farMemConds mUnit true false) ∧ (farVld mUnit).select labFar = .ok 0 ∧ mUnit.kb = false ∧
    labFar.farReach 0 (labFar.memWidth mUnit) .load (labFar.unitAddr mUnit) (fun _ => at4000) ∧ (∀ k, labFar.farPerforms k → poisonedAt labFar true at4000.spot.loc (labFar.memWidth mUnit) = none) ∧
    (farVlds mUnit).select labFar = .ok 0 ∧ (farVst mUnit).select labFar = .ok 0 ∧ (farVsts mUnit).select labFar = .ok 0 ∧ noCond (labFar.farMemConds mUnit false false) ∧
    labFar.farReach 0 (labFar.memWidth mUnit) .store (labFar.unitAddr mUnit) (fun _ => at4000) ∧
    (noCond (labFar.farMemConds mIndex true true) ∧ (farVldx mIndex).select labFar = .ok 0 ∧ noCond (labFar.farMemConds mIndex false true) ∧ (farVstx mIndex).select labFar = .ok 0 ∧
      labFar.farReach 0 4 .load (labFar.farIndexAddr mIndex 0) (fun _ => at4000)) := by
  refine ⟨labFar_ready, by unfold noCond; decide +kernel, by decide +kernel, by decide +kernel, labFar_reach _ _ (by decide +kernel) (by decide +kernel) (by decide +kernel),
    fun _ _ => by decide +kernel, by decide +kernel, by decide +kernel, by decide +kernel, by unfold noCond; decide +kernel,
    labFar_reach _ _ (by decide +kernel) (by decide +kernel) (by decide +kernel), ⟨by unfold noCond; decide +kernel, by decide +kernel, by unfold noCond; decide +kernel, by decide +kernel,
    labFar_reach _ _ (by decide +kernel) (by decide +kernel) (by decide +kernel)⟩⟩
theorem meets_FarMemoryResults_kb : mKb.kb = true ∧ noCond (labFar.farMemConds mKb true false) ∧ (farVld mKb).select labFar = .ok 0 ∧ (farVst mKb).select labFar = .ok 0 ∧
    (∀ a ∈ pagesOf (labFar.unitSpan mKb false).1 (labFar.unitSpan mKb false).2, labFar.homeFault (labFar.farView 0) 0 a .load = none) ∧
    (∀ a ∈ pagesOf (labFar.unitSpan mKb true).1 (labFar.unitSpan mKb true).2, labFar.homeFault (labFar.farView 0) 0 a .store = none) ∧
    (∃ g, labFar.kbGet (some 0) (some 3) labFar.ft (labFar.memBase mKb) 16 4 4 labFar.farEls 0 = .ok g) ∧
    ∃ q, labFar.kbMake (some 0) (some 3) labFar.ft (labFar.memBase mKb) 16 4 (upto 0 1) (labFar.farElem 0 1 32) 0 = .ok q :=
  ⟨by decide +kernel, by unfold noCond; decide +kernel, by decide +kernel, by decide +kernel, by decide +kernel, by decide +kernel, okOf _ (by decide +kernel), okOf _ (by decide +kernel)⟩
theorem meets_FarMemoryResults_amo : labFarInt.farReady 0 ∧ noCond ((farVamo mUnit).conds labFarInt) ∧ (farVamo mUnit).select labFarInt = .ok 0 ∧ mUnit.sf.toNat % 8 ≠ 2 ∧ labFarInt.badMem = [] ∧
    labFarInt.farReach 0 (labFarInt.cur.cfg.sew / 8) .amo (labFarInt.farAmoAddr mUnit 0) (fun _ => at4000) := by
  refine ⟨by unfold State.farReady; decide +kernel, by unfold noCond; decide +kernel, by decide +kernel, by decide +kernel, by decide +kernel, ?_⟩
  intro i hi
  rw [farPerforms_zero labFarInt_vl hi]
  decide +kernel
/-- FDOT of one row of 32 bf16 elements, FRED of one fp32 element, FATTN of one token with 32 elements a head. -/
def mDot : M := ⟨0, 7, rg 1, imm 64, 1, 0, all, 1, 0⟩
def mRed : M := ⟨0, 7, rg 1, imm 1, 2, 0, all, 0, 0⟩
def mAttn : M := ⟨0, 8, rg 1, imm 64, 1, 0, all, 0, 0⟩
theorem meets_FarUnitResults : labFar.farReady 0 ∧ labFar.noReaders ∧
    (noCond ((farDot mDot).conds labFar) ∧ (farDot mDot).select labFar = .ok 0 ∧
      (∀ r, r < labFar.cur.cfg.vl.toNat → labFar.homeFault (labFar.farView 0) 0 (labFar.dotSpan mDot r).1 .load = none ∧ labFar.homeFault (labFar.farView 0) 0 (labFar.dotSpan mDot r).2 .load = none) ∧
      ∃ row, labFar.row (some 0) 3 .bf16 1 0 (labFar.dotRow mDot 0).1 (labFar.dotRow mDot 0).2 32 = .ok row) ∧
    (noCond ((farRed mRed).conds labFar) ∧ (farRed mRed).select labFar = .ok 0 ∧ labFar.redN mRed = 1 ∧
      (∀ a ∈ pagesOf (rowSpan 2 0 (labFar.memBase mRed) 0 1).1 (rowSpan 2 0 (labFar.memBase mRed) 0 1).2, labFar.homeFault (labFar.farView 0) 0 a .load = none) ∧
      (∃ row, labFar.row (some 0) 3 .fp32 2 0 (labFar.memBase mRed) 0 1 = .ok row) ∧
      ∃ ps, labFar.transRangeD (labFar.farView 0) ((rowSpan 2 0 (labFar.memBase mRed) 0 1).1 % 2 ^ 64) 4 .load 3 = .ok ps) ∧
    (noCond ((farAttn mAttn).conds labFar) ∧ (farAttn mAttn).select labFar = .ok 0 ∧ attnT mAttn = 1 ∧ (∃ row, labFar.attnFetch 0 mAttn 0 = .ok row) ∧ ∃ row, labFar.attnFetch 0 mAttn 16 = .ok row) := by
  refine ⟨labFar_ready, labFar_noReaders, ⟨by unfold noCond; decide +kernel, by decide +kernel, ?_, okOf _ (by decide +kernel)⟩,
    ⟨by unfold noCond; decide +kernel, by decide +kernel, by decide +kernel, by decide +kernel, okOf _ (by decide +kernel), okOf _ (by decide +kernel)⟩,
    by unfold noCond; decide +kernel, by decide +kernel, by decide +kernel, okOf _ (by decide +kernel), okOf _ (by decide +kernel)⟩
  intro r hr
  have : r = 0 := by rw [labFar_vl] at hr; omega
  subst this
  decide +kernel

/-- A fetched row whose values evaluate to these. -/
theorem fetched (x : Except Stop Row) (v : List FV) (h : (match x with | .ok r => decide (r.vals = v) | .error _ => false) = true) :
    ∃ g locs, x = .ok ⟨v, g, locs⟩ := by
  cases x with
  | ok r => exact ⟨r.flags, r.locs, by rw [← of_decide_eq_true h]⟩
  | error _ => exact absurd h (by simp)
theorem accs_ok : ∀ a ∈ [Acc.fresh, Acc.fresh], a.ok := by
  intro a ha
  have : a = Acc.fresh := by simpa using ha
  subst this
  unfold Acc.ok; decide
/-- A machine with fresh tiles, no instruction unfinished and no reader count in a memory-side cache can run the matrix engine. -/
theorem ready_of (s : State) (h : s.executes = true ∧ s.clean = true ∧ s.cur.unf = Unfinished.none ∧ s.cur.accs = [Acc.fresh, Acc.fresh] ∧ ∀ c ∈ s.msc, c.2.count = 0) : s.matReady := by
  obtain ⟨h1, h2, h3, h4, h5⟩ := h
  exact ⟨h1, h2, h3, by rw [h4]; exact accs_ok, h5⟩
theorem labMat_ready : labMat.matReady := ready_of _ (by decide +kernel)
/-- The bf16 values of the test's rows. -/
def a15 : FV := unpack .bf16 0x3FC0
def b20 : FV := unpack .bf16 0x4000

theorem labMat_mul : labMat.mulOperands (labMat.mma mma1 true) (fun _ _ => a15) (fun _ _ => b20) := by
  have hm : (labMat.mma mma1 true).m = 1 := by decide +kernel
  have hn : (labMat.mma mma1 true).n = 1 := by decide +kernel
  have hk : (labMat.mma mma1 true).k = 1 := by decide +kernel
  have ht : (labMat.mma mma1 true).trans = false := by decide +kernel
  unfold State.mulOperands
  refine ⟨by rw [hm]; decide, by rw [hn]; decide, by rw [hk]; decide, fun h => absurd (by decide +kernel) h, fun h => absurd (by decide +kernel) h, by decide +kernel, ?_, ?_⟩
  · intro r c hr hc
    rw [hm] at hr; rw [hk] at hc
    have : r = 0 := by omega
    have : c = 0 := by omega
    subst r c
    exact fetched _ _ (by decide +kernel)
  · rw [ht]
    intro n c hn' hc
    rw [hn] at hn'; rw [hk] at hc
    have : n = 0 := by omega
    have : c = 0 := by omega
    subst n c
    exact fetched _ _ (by decide +kernel)
/-- A grouped-multiply descriptor at 0x4000: one group of one row, N = K = 1, bf16, its counter zero; A at 0x4400, W at 0x4500. -/
def labGrp : State :=
  storeNear (storeNear (storeNear (storeNear lab 0x4000 (leBytes 8 0x4400 ++ leBytes 8 64 ++ leBytes 8 0x4500 ++ leBytes 8 0 ++ leBytes 8 64 ++ leBytes 8 0x4200 ++
    leBytes 8 (1 + 2 ^ 22 + 2 ^ 43 + 2 ^ 56 + 2 ^ 60))) 0x4200 [1]) 0x4400 [0xC0, 0x3F]) 0x4500 [0, 0x40]
/-- The descriptor read back. -/
def grp : Grouped := ⟨[0x4400, 64, 0x4500, 0, 64, 0x4200, 1 + 2 ^ 22 + 2 ^ 43 + 2 ^ 56 + 2 ^ 60]⟩
def mGrp : M := ⟨0, 1, rg 1, imm 0, 0, 0, all, 0, 0⟩
theorem meets_MatrixMultiplyResults : labMat.matReady ∧ noCond ((!labMat.tilesOk [1], 0x03, 0x08) :: shapeConds (labMat.acc 1).bf16 (labMat.goff mma1.spReg) true) ∧
    labMat.mulOperands (labMat.mma mma1 true) (fun _ _ => a15) (fun _ _ => b20) ∧
    (labGrp.matReady ∧ labGrp.tilesOk [1] = true ∧ labGrp.memBase mGrp % 64 = 0 ∧
      (match labGrp.fetchBytes none 2 0x4000 56, labGrp.fetchBytes none 2 0x4200 4 with
       | .ok r, .ok t => decide (wordsOf 8 7 r.1 = grp.w) && decide (wordsOf 4 1 t.1 = [1])
       | _, _ => false) = true ∧
      grp.ok = true ∧ grp.g = 1 ∧ 0 < ceilDiv grp.n 64 ∧ grp.table = 0x4200 ∧ 0x4200 % 4 = 0 ∧ ([1].take 0).sum ≤ 0 ∧ 0 < ([1].take 0).sum + [1].getD 0 0) := by
  refine ⟨labMat_ready, by unfold noCond; decide +kernel, labMat_mul, ready_of _ (by decide +kernel), by decide +kernel, by decide +kernel, by decide +kernel, by decide +kernel⟩
theorem test_grouped : ((after (exec (.mgrpO mGrp) labGrp)).acc 1).at 0 0 = 0x40400000 ∧ (after (exec (.eqclaim ⟨0, 7, rg 1, rv 0, all, none⟩) labGrp)).cur.greg 7 = 0x101 ∧
    (after (exec (.eqclaim ⟨0, 7, rg 1, rv 0, all, none⟩) labGrp)).byteAt 0x4038 = 1 := by decide +kernel
theorem meets_MatrixMultiplyResults_claim : 0x4000 % 64 = 0 ∧ labGrp.translate 0x4038 .amo = .ok ⟨⟨0, 0x4038, .hbm 0⟩, 0⟩ ∧
    (∃ old, (labGrp.settleFor false ⟨⟨0, 0x4038, .hbm 0⟩, 0⟩).readPhys ⟨⟨0, 0x4038, .hbm 0⟩, 0⟩ 8 false = .ok old) ∧
    (let t := (labGrp.settleFor false ⟨⟨0, 0x4038, .hbm 0⟩, 0⟩).putPhys ⟨⟨0, 0x4038, .hbm 0⟩, 0⟩ (leBytes 8 1) 0
     (∃ r, t.readVa false 0x4028 16 = .ok r) ∧ ∃ r, t.readVa false 0x4200 4 = .ok r) :=
  ⟨by decide, by decide +kernel, okOf _ (by decide +kernel), okOf _ (by decide +kernel), okOf _ (by decide +kernel)⟩

/-- MLD, MST, the four moves and MSCALE on tile 0, at row 0 and at the last row. -/
def mLd : M := ⟨0, 0, rg 1, imm 4, 1, 0, all, 0, 1280⟩
theorem meets_TileMoveResults : labMat.matReady ∧ 0 < labMat.cur.acnt ∧ noCond (shapeConds false (labMat.goff mLd.spReg) false) ∧
    0 < shapeM (labMat.goff mLd.spReg) ∧ 0 < shapeN (labMat.goff mLd.spReg) ∧ labMat.inD .load [rowSpan 1 0 0x4000 0 1] = none ∧ labMat.inD .store [rowSpan 1 0 0x4000 0 1] = none ∧
    (∃ g locs, labMat.plainRow none 2 .fp32 1 0x4000 0 1 = .ok ⟨[unpack .fp32 0x3FC00000], g, locs⟩) ∧ (∃ r, labMat.elemPuts 0x4000 2 [narrowFloat .fp32 .bf16 0 0] = .ok r) ∧
    (∀ row ∈ [0, 95], noCond (labMat.mmovConds 0 1 false all row) ∧ noCond (labMat.mmovConds 1 31 true all row)) ∧
    labMat.cur.configured = true ∧ labMat.cur.cfg.etype = 2 ∧ (1 < labMat.cur.cfg.nreg ∧ labMat.cur.cfg.vl.toNat ≤ 96) ∧ labMat.cur.cfg.vl.toNat ≤ (labMat.acc 0).cols := by
  refine ⟨labMat_ready, by decide +kernel, by unfold noCond; decide +kernel, by decide +kernel, by decide +kernel, by decide +kernel, by decide +kernel,
    fetched _ _ (by decide +kernel), okOf _ (by decide +kernel), by unfold noCond; decide +kernel, by decide +kernel⟩

/-- MSOFT, MFIN and the others on 1 × 1 × 1 shapes; the score tile is tile 1. -/
def mSoft : M := ⟨0, 0, rg 1, imm 4, 1, 0, all, 0, 1280 + 16384⟩
theorem meets_SoftmaxResults : labMat.matReady ∧ labMat.tilesFp32 [0, mSoft.csTile] = true ∧ mSoft.csTile = 1 ∧ shapeM (labMat.goff mSoft.spReg) = 1 ∧ shapeN (labMat.goff mSoft.spReg) = 1 ∧
    shapeK (labMat.goff mSoft.spReg) = 1 ∧ kbBits mSoft.fmt.toNat = 0 ∧ labMat.inD .load [rowSpan 1 0 0x4000 0 1] = none ∧ labMat.fetches 1 0 0x4000 0 1 (fun _ => a15) ∧
    labMat.tilesFp32 [0] = true ∧ (shapeM (labMat.src (rg 10)) = 1 ∧ shapeN (labMat.src (rg 10)) = 1) ∧ (∃ r, labMat.elemPuts 0x4000 2 [finish .bf16 0 0] = .ok r) := by
  refine ⟨labMat_ready, by decide +kernel, by decide +kernel, by decide +kernel, by decide +kernel, by decide +kernel, by decide +kernel, by decide +kernel,
    fetched _ _ (by decide +kernel), by decide +kernel, by decide +kernel, okOf _ (by decide +kernel)⟩

/-- A projection descriptor at 0x4000: one hidden row and one weight row of one bf16 element, labels at 0x4700, normalisers at 0x4600, a heap of one. -/
def prj : Proj := ⟨[0x4400, 64, 0x4500, 64, 0x4700, 1, 1 + 2 ^ 36 + 2 ^ 44 + 2 ^ 56 + 2 ^ 60, 0x4600]⟩
def labPrj : State :=
  let s := storeNear (storeNear (storeNear lab 0x4000 (prj.w.flatMap (leBytes 8))) 0x4400 [0xC0, 0x3F]) 0x4500 [0, 0x40]
  { s with cur := { s.cur with g := (s.cur.g.set 6 0x100000000).set 10 0x101 } }
def mPrj : M := ⟨1, 0, rg 1, rg 6, 0, 0, all, 0, 0⟩
/-- VPROJ's and VPGRAD's operands meet every check. -/
theorem labPrj_strip (grad : Bool) : labPrj.strip mPrj grad prj [0] (if grad then [0] else []) (fun _ _ => a15) (fun _ _ => b20) := by
  have h0 : (labPrj.src mPrj.x).toNat % 2 ^ 32 = 0 := by decide +kernel
  have h1 : (labPrj.src mPrj.x).toNat / 2 ^ 32 = 1 := by decide +kernel
  have hb : labPrj.memBase mPrj = 0x4000 := by decide +kernel
  have hm : prj.m = 1 := by decide +kernel
  have hl : prj.lbl = true := by decide +kernel
  have words : ∀ va : Nat, (match labPrj.words32 va 1 with | .ok r => decide (r.1 = [0]) | .error _ => false) = true → ∃ locs, labPrj.words32 va 1 = .ok ([0], locs) := by
    intro va h
    cases e : labPrj.words32 va 1 with
    | ok r => rw [e] at h; exact ⟨r.2, by rw [← of_decide_eq_true h]⟩
    | error _ => rw [e] at h; exact absurd h (by simp)
  unfold State.strip
  rw [h0, h1, hb, hm]
  have u1 : upto 0 1 = [0] := rfl
  rw [u1]
  simp only [Nat.one_ne_zero, if_false, ne_eq, not_false_eq_true, and_true]
  refine ⟨by decide +kernel, fun _ => by decide, by decide, ?_, by decide +kernel, by decide +kernel, fun h => absurd (by decide +kernel) h, fun h => absurd (by decide +kernel) h,
    by decide +kernel, fun _ => by decide +kernel, by decide +kernel, ?_, ?_, ?_, ?_⟩
  · have h : (match labPrj.descBytes 0x4000 64 with | .ok r => decide (prj = ⟨wordsOf 8 8 r.1⟩) | .error _ => false) = true := by decide +kernel
    cases e : labPrj.descBytes 0x4000 64 with
    | ok r => rw [e] at h; exact ⟨r.1, r.2, rfl, of_decide_eq_true h⟩
    | error _ => rw [e] at h; exact absurd h (by simp)
  · rw [hl]; exact words _ (by decide +kernel)
  · cases grad with
    | true => exact words _ (by decide +kernel)
    | false => rfl
  · intro r hr
    rw [List.mem_singleton.mp hr]
    exact fetched _ _ (by decide +kernel)
  · intro j hj
    rw [List.mem_singleton.mp hj]
    exact fetched _ _ (by decide +kernel)
/-- Two tiles that hold heaps of one candidate for one row. -/
def labHeap : State := { labPrj with cur := { labPrj.cur with accs := [{ Acc.fresh with tag := 0x101 }, { Acc.fresh with tag := 0x101 }] } }
theorem meets_VocabularyResults : labPrj.matReady ∧ labPrj.strip mPrj false prj [0] [] (fun _ _ => a15) (fun _ _ => b20) ∧ (0 : Nat) < (labPrj.src mPrj.x).toNat / 2 ^ 32 ∧
    mPrj.sf.getLsbD 0 = true ∧ (prj.lbl = true ∧ [0].getD 0 0 = prj.g0 + 0 + 0) ∧ labPrj.strip mPrj true prj [0] [0] (fun _ _ => a15) (fun _ _ => b20) ∧
    (labHeap.tilesFp32 [0, 1] = true ∧ (labHeap.acc 0).tag = (labHeap.src (rg 10)).setWidth 16 ∧ (labHeap.acc 0).tag.toNat % 64 ≤ 32 ∧ (labHeap.acc 0).tag.getLsbD 6 = false) ∧
    ((labHeap.acc 0).tag ≠ 0 ∧ (labHeap.acc 0).tag.toNat / 256 = 0x101 / 256 % 256 ∧ 0 < 0x101 % 64 ∧ 0x101 % 64 ≤ (labHeap.acc 0).tag.toNat % 64 ∧ 0x4000 % 4 = 0 ∧
      labHeap.inD .store [(0x4000, 0x4000 + 8 + 8 * 1 - 1)] = none ∧ ∃ r, labHeap.rowPuts 0x4000 4 (finRecord (labHeap.acc 0) 0 1).1 = .ok r) := by
  refine ⟨ready_of _ (by decide +kernel), labPrj_strip false, by decide +kernel, by decide, by decide +kernel, labPrj_strip true, by decide +kernel, by decide +kernel, by decide +kernel,
    by decide, by decide +kernel, by decide, by decide +kernel, okOf _ (by decide +kernel)⟩

/-- An empty strip: only the descriptor is read. -/
theorem meets_VocabularyResults_empty : (let s : State := { labPrj with cur := { labPrj.cur with g := labPrj.cur.g.set 6 0 } }
    s.matReady ∧ s.strip mPrj false prj [] [] (fun _ _ => a15) (fun _ _ => b20) ∧ (s.src mPrj.x).toNat / 2 ^ 32 = 0 ∧ mPrj.sf.getLsbD 0 = true) := by
  refine ⟨ready_of _ (by decide +kernel), ?_, by decide +kernel, by decide⟩
  unfold State.strip
  have h0 : (State.src { labPrj with cur := { labPrj.cur with g := labPrj.cur.g.set 6 0 } } mPrj.x).toNat = 0 := by decide +kernel
  simp only [h0, Nat.zero_mod, Nat.zero_div, ne_eq, not_true_eq_false, and_false, if_false, if_true]
  refine ⟨by decide +kernel, fun h => absurd h (by decide), by decide +kernel, ?_, by decide +kernel, by decide +kernel, fun _ r hr => absurd hr (by simp), fun _ j hj => absurd hj (by simp [upto]),
    by decide +kernel, fun h => absurd h (by decide), by decide +kernel, trivial, trivial, fun r hr => absurd hr (by simp), fun j hj => absurd hj (by simp [upto])⟩
  have h : (match State.fetchBytes { labPrj with cur := { labPrj.cur with g := labPrj.cur.g.set 6 0 } } none 2 (State.memBase { labPrj with cur := { labPrj.cur with g := labPrj.cur.g.set 6 0 } } mPrj) 64 with
    | .ok r => decide (prj = ⟨wordsOf 8 8 r.1⟩) | .error _ => false) = true := by decide +kernel
  split at h
  · next r e => exact ⟨r.1, r.2, e, of_decide_eq_true h⟩
  · exact absurd h (by simp)

theorem lab_queueReady : lab.queueReady := by unfold State.queueReady; decide +kernel
/-- Tile 2 full of the value 7. -/
def labFull : State := lab.putTile tile2 ⟨true, 7, 0⟩
theorem labFull_queueReady : labFull.queueReady := by unfold State.queueReady; decide +kernel
/-- A second hart of the core, and a publishable buffer over page 0x4000. -/
def labPeer : State := { lab with harts := [{ labHart with id := ⟨1, 0, 0, 0, 1⟩ }] }
def pubBuf : PubBuf := ⟨0, 0x4000, 0x1000, 0x8000, 0x9000, false, false⟩
def labPub : State := { lab with mods := [(0, { Module.reset with pubs := [pubBuf] })] }
theorem meets_TileAndBarrierResults_gets : labFull.queueReady ∧ labFull.getHandle (labFull.src (imm 2)) = some (.tile tile2) ∧ (labFull.tile tile2).full = true ∧
    noCond (labFull.tileConds (some (imm 2)) 7 true 0) ∧ (labFull.src (rg 1)).toNat % 64 = 0 ∧ (∃ ps, labFull.transRange 0x4000 4096 .store = .ok ps) ∧
    (lab.queueReady ∧ lab.getHandle (lab.src (imm 2)) = some (.tile tile2) ∧ (lab.tile tile2).full = false ∧ noCond (lab.tileConds (some (imm 2)) 31 true 0)) ∧
    labFull.localTile (labFull.src (imm 2)) = some tile2 ∧ lab.localTile (lab.src (imm 7)) = some ⟨1, 0, 0, 0, 7⟩ ∧ lab.localTile (lab.src (imm 8)) = none := by
  refine ⟨labFull_queueReady, by decide +kernel, by decide +kernel, by unfold noCond; decide +kernel, by decide +kernel, okOf _ (by decide +kernel),
    ⟨lab_queueReady, by decide +kernel, by decide +kernel, by unfold noCond; decide +kernel⟩, by decide +kernel⟩
/-- A mark and a send whose entry is granted at once, and a send that a full hold queue keeps waiting. -/
def labBusy : State :=
  { lab.putTile tile2 ⟨true, 7, 0⟩ with mods := [(0, { Module.reset with holds := [(0, List.replicate 16 ⟨tile2, some 1, none, none⟩)] })] }
def sent (s : State) (d : Option Nat) : State :=
  (({ s with cur := { s.cur with send := .asked } } : State).onMod s.cur.mod (fun y => { y with asking := y.asking ++ [⟨tile2, d, some s.cur.id, none⟩] })).pumpAt tile2
theorem meets_TileAndBarrierResults_sends : (sent lab none).cur.send = .granted ∧ lab.putHandle (lab.src (imm 2)) = some (.tile tile2) ∧ lab.handle (lab.src (imm 2)) = some (.tile tile2) ∧
    lab.rankModule 1 0 = some lab.cur.mod ∧ (rv 1).isVec = true ∧ noCond (lab.tileConds (some (rv 1)) 1 true 0) ∧ lab.sendData (rv 1) = .ok 0x3FC00000 ∧
    (sent lab (some 0x3FC00000)).cur.send = .granted ∧ labBusy.sendData (rv 1) = .ok 0x3FC00000 ∧ (sent labBusy (some 0x3FC00000)).cur.send ≠ .granted := by
  unfold noCond; decide +kernel
/-- A core at rest with one request for an empty tile; a cell index; a publishable buffer; barriers alone and with a hart that has not arrived. -/
def labAsk : State := { lab with mods := [(0, { Module.reset with asking := [⟨tile2, some 5, some ⟨1, 0, 0, 0, 0⟩, none⟩] })] }
theorem meets_TileAndBarrierResults_rest : ((labAsk.mod? 0).map (fun y => (y.holdsOf 0, y.asking))) = some ([], [⟨tile2, some 5, some ⟨1, 0, 0, 0, 0⟩, none⟩]) ∧
    labAsk.coreOf tile2 = some (0, 0) ∧ (labAsk.tile tile2).full = false ∧ labAsk.cur.phase ≠ .absent ∧ labAsk.rankModule 1 0 = some 0 ∧ labAsk.allHarts = [labAsk.cur] ∧
    labAsk.cur.phase ≠ .waiting ∧
    (lab.src (imm 63)).toNat < 64 ∧ (lab.src (rg 5)).toNat < 2 ^ 63 ∧ lab.share? 1 0 = some labShare ∧
    ((labPub.mod? 0).bind (fun x => x.pub? (labPub.cur.atp.toNat / 2 ^ 44 % 2 ^ 16) 0x4000)) = some pubBuf ∧ (labPub.src (rg 1)).toNat = 0x4000 ∧ labPub.harts = [] ∧
    ((labPub.mod? 0).map (fun x => x.nodes)) = some [] ∧
    (let t := lab.arrive 17; t.peers = [t.cur] ∧ 1 % 1 = 0 ∧ Tbl.getD t.cur.bars 17 0 ≤ Tbl.getD t.cur.bars 17 0) ∧
    (let t := labPeer.arrive 17; ∃ g ∈ t.peers, g.phase ≠ .ended ∧ Tbl.getD g.bars 17 0 < Tbl.getD t.cur.bars 17 0) ∧
    lab.lostStore = none ∧ (∀ m ∈ labPacket.ranks, lab.rankLost m = false) := by decide +kernel

/-- A node of the hart in a state. -/
def node (st : NodeState) (k : NodeKind) : Node := ⟨1, st, k, 1, ⟨1, 0, 0, 0, 0⟩, 0, [], 0, 0, false, 0, .none, false⟩
/-- A copy of 8 bytes from 0x4000 to 0x4800. -/
def job : CopyJob := ⟨0x4800, 0x4000, false, false, 0, 3, [(8, 1)], 0xA000000000000001⟩
/-- The machine with a task table. -/
def labNodes (ns : Tbl Node) : State := { lab with mods := [(0, { Module.reset with nodes := ns })] }
/-- The word of entry i. -/
def nodeG (i : Nat) : State → State := fun s => { s with cur := { s.cur with g := s.cur.g.set 6 (nodeWord 1 i) } }
/-- A hart configured for NODE.COPY: 64-bit elements, v2 one dimension of stride 8 and extent 1. -/
def labCopy : State := labWith (fun h => { h with cfg := ⟨1, false, false, 2, 7⟩, vec := h.vec.set 2 (8 * 2 ^ 32 + 1) })
def rCopy : R3 := ⟨0, 7, rg 1, rg 1, rv 2, all, 0, 3⟩
theorem meets_TaskGraphResults_create : labCopy.queueReady ∧ (rCopy.c.val.toNat < labCopy.cur.cfg.nreg ∧ labCopy.cur.configured = true ∧ labCopy.cur.cfg.etype = 7 ∧
      1 ≤ labCopy.cur.cfg.vl.toNat ∧ labCopy.cur.cfg.vl.toNat ≤ 8 ∧ (∀ d ∈ (labCopy.copyJob rCopy).dims, d.2 ≠ 0) ∧ (labCopy.copyJob rCopy).count * (labCopy.copyJob rCopy).width ≤ 2 ^ 36 ∧
      (labCopy.copyJob rCopy).tile = false) ∧ labCopy.freeEntry 0 1 = some 0 ∧ (lab.rankTile (lab.src (imm 2))).isSome = true ∧
    (labNodes [(0, node .ready (.copy job)), (1, node .ready (.copy job)), (2, node .ready (.copy job)), (3, node .ready (.copy job))]).freeEntry 0 1 = none := by
  unfold State.queueReady; decide +kernel
/-- Edges: the hart's Building node 0, a predecessor that has finished, and one that lives; arming; a Running call node; waiting. -/
theorem meets_TaskGraphResults_edges :
    (let s := nodeG 0 (labNodes [(0, node .building (.copy job)), (1, node .armed (.copy job))])
     s.ownBuilding (s.src (rg 6)) = some (0, node .building (.copy job)) ∧ s.src (rg 6) ≠ nodeWord 1 1 ∧ s.myNode (nodeWord 1 1) = some (1, node .armed (.copy job)) ∧
       s.myNode (nodeWord 1 2) = none) ∧
    (let s := nodeG 0 (labNodes [(0, node .running (.call 2 9))])
     s.myNode (s.src (rg 6)) = some (0, node .running (.call 2 9)) ∧ s.myNode (s.src (rg 1)) = none) := by decide +kernel
/-- A successor that is Armed on one predecessor; a Ready copy that is first; one that runs and, once its block is moved, is done; a Ready call. -/
theorem meets_TaskGraphResults_device :
    (let ns := [(0, { node .running (.copy job) with succs := [1] }), (1, { node .armed (.copy job) with preds := 1 })]
     ({ node .running (.copy job) with succs := [1] } : Node).succs = [1] ∧ (1 : Nat) ≠ 0 ∧ Tbl.find 1 ns = some { node .armed (.copy job) with preds := 1 }) ∧
    (let x : Module := { Module.reset with nodes := [(0, node .ready (.copy job))] }
     x.node? 0 = some (node .ready (.copy job)) ∧ x.firstReady = some 0 ∧ x.busyEngines < 16 ∧ (labNodes x.nodes).modRuns 0 = true) ∧
    (let t := (labNodes [(0, node .running (.copy job))]).moveBlocks 0 0 job (job.blocks - 0)
     ((t.mod? 0).bind (fun y => y.node? 0)).map (fun k => (k.faulted, decide (job.blocks ≤ k.block))) = some (false, true) ∧ job.tile = false) ∧
    (handleOf 1 labPacket 2 = some (.tile tile2) ∧ (node .ready (.call 2 9)).send = .none ∧ (labNodes [(0, node .ready (.call 2 9))]).launch? 1 = some labLaunch) := by decide +kernel

/-- A key-value cache: root at 0x5000 of dimension 32 with one page in use and free stacks of blocks and of class 0 slots holding one each; a sequence
of one token at 0x4000 and an empty one at 0x4100. -/
def labKvBytes : List (Nat × List Byte) :=
  [(0x5000, ([0, 0, 0x5800, 4, 0x5900, 0x5A00, 0x5A40, 0x5A80, 0x5AC0] : List Nat).flatMap (leBytes 8) ++
     ([0x5B00, 0x5B40, 0x5B80, 0x5BC0, 0x6000, 1, 0] : List Nat).flatMap (leBytes 8)),
   (0x5800, leBytes 8 (2 ^ 62 + 2 ^ 32)), (0x5900, leBytes 8 (4 * 2 ^ 32 + 1) ++ leBytes 4 1), (0x5A00, leBytes 8 (4 * 2 ^ 32 + 1) ++ leBytes 4 1),
   (0x4000, ([0x4200, 4 * 2 ^ 32 + 1, 0x4300, 0] : List Nat).flatMap (leBytes 8)), (0x4200, leBytes 8 (2 ^ 63)),
   (0x4100, ([0x4280, 4 * 2 ^ 32, 0, 0] : List Nat).flatMap (leBytes 8))]
def labKv : State :=
  let s := labKvBytes.foldl (fun t c => storeFar t c.1 c.2 0) lab
  { s with
    launches := [(1, { labLaunch with shares := [(0, { labShare with const := [(255, 0x5000)] })] })]
    cur := { s.cur with g := (s.cur.g.set 6 0x8000000000000000).set 7 0x4100 } }
/-- The same with the page shared. -/
def labKvShared : State := storeFar labKv 0x5804 [2] 0
/-- The same with 32-bit integer elements. -/
def labKvInt : State := { labKv with cur := { labKv.cur with cfg := ⟨1, false, false, 2, 6⟩ } }
theorem labKv_ready : labKv.kvReady (labKv.src (rg 1)) [0x4000] := by unfold State.kvReady State.queueReady; decide +kernel
/-- What a computation on the cache answers: a value, or a structure fault. -/
def kvValue {α : Type} (x : Except Stop (α × State)) : Option α :=
  match x with
  | .ok r => some r.1
  | .error _ => none
def kvFault {α : Type} (x : Except Stop (α × State)) : Option Cause :=
  match x with
  | .error (.trap c _) => some c
  | _ => none
theorem meets_KeyValueResults_values : labKv.kvReady (labKv.src (rg 1)) [0x4000] ∧ kvValue (kvTranslate labKv.kvCx false 0x4000 0 labKv) = some (pageWord 0 1 0) ∧
    kvValue (kvTranslate labKv.kvCx true 0x4000 0 labKv) = some (2 ^ 63) ∧ kvValue (kvRelease labKv.kvCx 0x4000 0 labKv) = some 1 ∧
    kvValue (kvInstall labKv.kvCx false 0x4000 0 (2 ^ 63) labKv) = some (2 ^ 63) ∧ (labKv.src (rg 6)).toNat = 2 ^ 63 ∧
    kvValue (kvShared labKv.kvCx 0x4000 labKv) = some false ∧ kvValue (kvAppend labKv.kvCx false 0x4000 16 labKv) = some (pageWord 0 15 1) ∧
    kvValue (kvShared labKvShared.kvCx 0x4000 labKvShared) = some true ∧ (1 ≤ 1 ∧ 16 ≤ 16) ∧
    labKv.kvReady (labKv.src (rg 1)) [0x4000, 0x4100] ∧ kvValue (kvFork labKv.kvCx 0x4000 0x4100 1 labKv) = some 1 := by
  refine ⟨labKv_ready, ?_⟩
  unfold State.kvReady State.queueReady; decide +kernel
/-- The computation gives this value. -/
def kvIs {α : Type} [DecidableEq α] (x : Except Stop (α × State)) (v : α) : Bool :=
  match x with
  | .ok r => decide (r.1 = v)
  | .error _ => false
theorem kvIs_ok {α : Type} [DecidableEq α] {f : Kv α} {v : α} {s : State} (hf : f.Reads) (h : kvIs (f s) v = true) : f s = .ok (v, s) := by
  unfold kvIs at h
  split at h
  · next r e => rw [e, ← of_decide_eq_true h, ← hf s r.1 r.2 e]
  · cases h
/-- The writes all translate from this state on. -/
def kvLands (s u : State) (ws : List KvPut) : Bool := (kvValue (kvPuts s.kvCx ws u)).isSome
/-- The sequence of one token, the same without scores, the empty one; the cache root; the page of the token, and that page shared. -/
def seqOne : KvSeq := ⟨0x4000, 0x4200, 4, 1, 0x4300, 0, 0, 0⟩
def seqPlain : KvSeq := { seqOne with stab := 0 }
def seqNone : KvSeq := ⟨0x4100, 0x4280, 4, 0, 0, 0, 0, 0⟩
def kvRoot0 : KvRoot := ⟨0, 0x5000, 0, 0, 0x5800, 4, 0x5900, [0x5A00, 0x5A40, 0x5A80, 0x5AC0, 0x5B00, 0x5B40, 0x5B80, 0x5BC0], 0x6000, 1⟩
def pageOf (ref : Nat) : KvEntry := ⟨kvRoot0, 0, 0, 0, 0x5800, 2 ^ 62 + ref * 2 ^ 32⟩
/-- Integer elements, and a sequence without scores. -/
def labKvPlain : State := storeFar labKvInt 0x4010 [0, 0, 0, 0, 0, 0, 0, 0] 0
theorem meets_KeyValueResults_has : labKv.kvHas 0x4000 seqOne kvRoot0 ∧ labKv.kvHas 0x4100 seqNone kvRoot0 ∧ labKvShared.kvHas 0x4000 seqOne kvRoot0 ∧
    labKvInt.kvHas 0x4000 seqOne kvRoot0 ∧ labKvInt.kvHas 0x4100 seqNone kvRoot0 ∧ labKvPlain.kvHas 0x4000 seqPlain kvRoot0 ∧
    labKv.kvBlock seqOne 0 (2 ^ 63) (pageOf 1) ∧ labKvShared.kvBlock seqOne 0 (2 ^ 63) (pageOf 2) ∧ labKvPlain.kvBlock seqPlain 0 (2 ^ 63) (pageOf 1) := by
  have h : ([labKv, labKvShared, labKvInt].all (fun s => kvIs (kvSeq s.kvCx 0x4000 s) seqOne && kvIs (kvRootAt s.kvCx s.cur.mod s) kvRoot0) &&
      kvIs (kvSeq labKv.kvCx 0x4100 labKv) seqNone && kvIs (kvSeq labKvInt.kvCx 0x4100 labKvInt) seqNone &&
      kvIs (kvSeq labKvPlain.kvCx 0x4000 labKvPlain) seqPlain && kvIs (kvRootAt labKvPlain.kvCx labKvPlain.cur.mod labKvPlain) kvRoot0 &&
      ([(labKv, seqOne, 1), (labKvShared, seqOne, 2), (labKvPlain, seqPlain, 1)] : List (State × KvSeq × Nat)).all (fun x =>
        kvIs (kvLocal x.1.kvCx x.2.1 0 x.1) (2 ^ 63) && kvIs (kvEntry x.1.kvCx (2 ^ 63) 0x4000 x.1) (pageOf x.2.2))) = true := by decide +kernel
  simp only [List.all_cons, List.all_nil, Bool.and_eq_true, Bool.and_true] at h
  obtain ⟨⟨⟨⟨⟨⟨⟨a1, r1⟩, ⟨a2, r2⟩, a3, r3⟩, b1⟩, b3⟩, c1⟩, c2⟩, ⟨l1, e1⟩, ⟨l2, e2⟩, l3, e3⟩ := h
  have q := fun s va => kvSeq_reads s va
  have z := fun c m => kvRootAt_reads c m
  have l := fun c d b => kvLocal_reads c d b
  have e := fun c w va => kvEntry_reads c w va
  exact ⟨⟨kvIs_ok (q _ _) a1, kvIs_ok (z _ _) r1⟩, ⟨kvIs_ok (q _ _) b1, kvIs_ok (z _ _) r1⟩, ⟨kvIs_ok (q _ _) a2, kvIs_ok (z _ _) r2⟩,
    ⟨kvIs_ok (q _ _) a3, kvIs_ok (z _ _) r3⟩, ⟨kvIs_ok (q _ _) b3, kvIs_ok (z _ _) r3⟩, ⟨kvIs_ok (q _ _) c1, kvIs_ok (z _ _) c2⟩,
    ⟨kvIs_ok (l _ _ _) l1, kvIs_ok (e _ _ _) e1⟩, ⟨kvIs_ok (l _ _ _) l2, kvIs_ok (e _ _ _) e2⟩, kvIs_ok (l _ _ _) l3, kvIs_ok (e _ _ _) e3⟩
/-- KVXL, KVREL with nothing and with a shared page, KVMAP in the three cases, KVAPP on the page's next row and on a fresh page. -/
theorem meets_KeyValueResults_scalar : kvLands labKv labKv [] = true ∧ kvLands labKv labKv [seqOne.putLen 0 1] = true ∧ seqOne.blocks = 1 ∧
    kvLands labKvShared labKvShared [(pageOf 2).putRef 1, seqOne.putLocal 0 0 0, seqOne.putLen 0 0] = true ∧ (pageOf 2).ref = 2 ∧ (pageOf 1).ref = 1 ∧
    kvLands labKv labKv [(pageOf 1).putRef 2, seqNone.putLocal 0 0 (2 ^ 63), seqNone.putLen 0 16] = true ∧ kvLands labKv labKv [seqOne.putLocal 0 0 (2 ^ 63)] = true ∧
    kvLands labKvShared labKvShared [(pageOf 2).putRef 1, seqOne.putLocal 0 0 (2 ^ 63)] = true ∧
    kvLands labKv labKv (seqOne.putScores 0 1 15 ++ [seqOne.putLen 0 16]) = true ∧
    (match kvAlloc labKv.kvCx 0x5000 0 0 0 0x4100 labKv with
     | .ok (page, t) => kvLands labKv t (seqNone.putLocal 0 0 page.1 :: (seqNone.putScores 0 0 16 ++ [seqNone.putLen 0 16]))
     | .error _ => false) = true := by decide +kernel
/-- KVKEEP of nothing and of one token, KVTOPK of scores, KVSCORE; KVFORK of nothing and of one page. -/
theorem meets_KeyValueResults_one : labKvInt.keepSet ⟨0, 7, rg 1, rv 0, rv 3, ⟨0, 0⟩, 0, 0⟩ = [0] ∧ kvLands labKvInt labKvInt [seqNone.putLen 0 0] = true ∧
    (match kvAlloc labKvPlain.kvCx 0x5000 0 0 0 0x4000 labKvPlain with
     | .ok (page, t) => (match ([0] : List Nat).zipIdx.forM (fun j => kvToken labKvPlain.kvCx 32 0 ((pageOf 1).page 0x5000) page.2 j.1 j.2) t with
        | .ok (_, u) => kvIs (kvLocal labKvPlain.kvCx seqPlain 0 u) (2 ^ 63) && (match kvDrop labKvPlain.kvCx (2 ^ 63) 0x4000 u with
           | .ok (_, v) => kvLands labKvPlain v [seqPlain.putLocal 0 0 0, seqPlain.putLocal 0 0 page.1, seqPlain.putLen 0 1]
           | .error _ => false)
        | .error _ => false)
     | .error _ => false) = true ∧ (pageOf 1).cls = seqPlain.acls ∧
    kvValue (kvReadVec labKvInt.kvCx 0 0x4300 4 labKvInt) = some 0 ∧
    kvLands labKv labKv [seqNone.putLen 0 0] = true ∧ kvLands labKv labKv [(pageOf 1).putRef 2, seqNone.putLocal 0 0 (2 ^ 63), seqNone.putLen 0 1] = true ∧
    ∃ q, labKv.translate 0x4300 .amo = .ok q := by
  refine ⟨by decide +kernel, by decide +kernel, by decide +kernel, by decide +kernel, by decide +kernel, by decide +kernel, by decide +kernel, okOf _ (by decide +kernel)⟩
theorem meets_KeyValueResults_vectors : labKvInt.kvReady (labKvInt.src (rg 1)) [0x4000] ∧ labKvInt.cur.configured = true ∧ labKvInt.cur.cfg.etype = 6 ∧
    ascending (labKvInt.keepSet ⟨0, 7, rg 1, rv 0, rv 3, all, 0, 0⟩) = true ∧ kvValue (kvKeep labKvInt.kvCx 0x4000 [0] labKvInt) = some 1 ∧
    kvValue (kvTop labKvInt.kvCx 0x4000 1 0 1 labKvInt) = some [0] ∧ labKv.cur.cfg.etype = 2 ∧ labKv.badMem = [] ∧
    (kvValue (kvScores labKv.kvCx 0x4000 labKv)).map (fun d => (d.len, d.stab)) = some (1, 0x4300) ∧
    ∃ qs, scoreAll labKv ⟨0x4000, 0x4200, 4, 1, 0x4300, 0, 0, 0⟩ 0 [0] = .ok qs := by
  refine ⟨by unfold State.kvReady State.queueReady; decide +kernel, by decide +kernel, by decide +kernel, by decide +kernel, by decide +kernel, by decide +kernel, by decide +kernel,
    by decide +kernel, by decide +kernel, okOf _ (by decide +kernel)⟩
/-- A position beyond the sequence, a target not empty, a page of another class: structure faults. -/
theorem meets_KeyValueResults_faults : kvFault (kvTranslate labKv.kvCx false 0x4000 1 labKv) = some ⟨0x0C, 3⟩ ∧ kvFault (kvFork labKv.kvCx 0x4000 0x4000 1 labKv) = some ⟨0x0C, 8⟩ ∧
    kvFault (kvInstall labKv.kvCx false 0x4000 2 (2 ^ 63) labKv) = some ⟨0x0C, 3⟩ ∧ kvFault (kvKeep labKvInt.kvCx 0x4000 [1] labKvInt) = some ⟨0x0C, 0xA⟩ ∧ labKv.cur.trap.hm = false := by
  decide +kernel
/-- The key of ids 9 and link 0. -/
theorem kvKey_nine : kvKey 9 0 = 5839351354122585957 := by decide +kernel
/-- The bucket of a key is empty, and holds the key once it is put there. -/
theorem meets_KeyValueResults_bucket : kvValue (kvRead labKv.kvCx 0 0x6000 512 labKv) = some 0 ∧ (List.range 4).find? (fun k => entryMatches (bucketEntry 0 k) 7 0 9) = none ∧
    (List.range 4).find? (fun k => !(bits (bucketEntry 0 k) 128 64).testBit 63) = some 0 ∧ kvIs (kvEntry labKv.kvCx (2 ^ 63) 0x6000 labKv) (pageOf 1) = true ∧
    kvLands labKv labKv [(pageOf 1).putRef 2, ⟨0, 0x6000, 128, 7 + 2 ^ 63 * 2 ^ 128 + 9 * 2 ^ 256⟩] = true ∧
    (List.range 4).find? (fun k => entryMatches (bucketEntry (7 + 2 ^ 63 * 2 ^ 128 + 9 * 2 ^ 256) k) 7 0 9) = some 0 := by decide +kernel
theorem meets_KeyValueResults_index : labKv.queueReady ∧ labKv.kvIds ⟨0, 7, rg 1, imm 0, rg 6, all, 0, 0⟩ = .ok (0x4200 + (4 * 2 ^ 32 + 1) * 2 ^ 64 + 0x4300 * 2 ^ 128) ∧
    (∃ r, kvRootAt labKv.kvCx labKv.cur.mod labKv = .ok r) ∧ labKv.kvCx.ranks[5 % 1]? = some labKv.cur.mod ∧
    kvValue (kvIndex labKv.kvCx 9 0 (kvKey 9 0) none labKv) = some 0 := by
  refine ⟨by unfold State.queueReady; decide +kernel, by decide +kernel, okOf _ (by decide +kernel), by decide +kernel, by rw [kvKey_nine]; decide +kernel⟩

/-! Witnesses of the messages: a state with each message where it acts -/

/-- The machine with messages on their way. -/
def labNet (s : State) (ms : List Msg) : State := { s with fabric := ms }
/-- The hart of the lab. -/
def hart0 : HartId := ⟨1, 0, 0, 0, 0⟩
/-- A send for tile 2. -/
def send2 (h : Option HartId) : Send := ⟨tile2, some 5, h, none⟩
/-- The computation gives an outcome that does not stop. -/
def kvDone (x : KvOut) : Bool :=
  match x with
  | .done o => o.stop.isNone
  | _ => false
theorem meets_MessagesTakeEffect_requests : (let e : QEntry := { labEntry with instr := .fVadd rFar, g := labG }
      let s : State := labNet { labFar with cur := { labFar.cur with vq := [e] } } [.farReq hart0 3]
      s.hart? hart0 = some s.cur ∧ s.cur.phase ≠ .ended ∧ s.cur.id = hart0 ∧ s.cur.phase ≠ .absent ∧ s.fabric[0]? = some (.farReq hart0 3) ∧ s.modRuns (3 / 16) = true ∧
      s.liveOn hart0.launch (3 / 16) = true ∧ s.drooped 3 = false ∧ s.cur.vq.head? = some e ∧
      (farOf e.instr).map (fun op => ((op.run { s with cur := { s.cur with active := some e } } 3).stop).isNone) = some true) ∧
    (let e : QEntry := { labEntry with instr := .kvrel ⟨0, 7, rg 1, rg 0, rv 0, all, 0, 0⟩, g := labG, kb := [(255, 0x5000)] }
     let s : State := labNet { labKv with cur := { labKv.cur with vq := [e] } } [.kvReq hart0 0]
     s.hart? hart0 = some s.cur ∧ s.fabric[0]? = some (.kvReq hart0 0) ∧ s.modRuns 0 = true ∧ s.cur.vq.head? = some e ∧
     (kvOf e.instr).map (fun op => kvDone (op.run { s with cur := { s.cur with active := some e } })) = some true) := by decide +kernel
/-- The message that comes n-th. -/
theorem labNet_fabric (s : State) (ms : List Msg) : (labNet s ms).fabric = ms := rfl
theorem meets_MessagesTakeEffect_answers : (let e : QEntry := { labEntry with remote := .sent }
      let s : State := labNet { lab with cur := { lab.cur with vq := [e] } } [.farDone hart0 ⟨0, [], none⟩, .refusal hart0 2 9]
      s.cur.phase ≠ .absent ∧ s.cur.vq.map (·.remote) = [.sent] ∧ s.cur.id = hart0 ∧ s.rankModule s.cur.id.launch s.cur.id.rank = some 0 ∧ s.liveOn s.cur.id.launch 0 = true) := by
  decide +kernel
theorem meets_MessagesTakeEffect_stores : (let s := labNet lab [.store hart0 0x4000 false false false 0 0x4000 [1, 2]]
      s.modRuns (0x4000 / 2 ^ 52) = true ∧ behindStore hart0 false (decide ((s.rankModule 1 0).getD 0 ≠ 0x4000 / 2 ^ 52)) false 0x4000 2 (s.fabric.take 0) = false ∧ s.rangeMoves 0x4000 2 = false ∧ s.fabric.findIdx (Msg.storeOf hart0) = 0) ∧
    (labNet lab [.ack hart0 0x4000, .grant hart0]).cur.phase ≠ .absent ∧ (labNet lab [.ack hart0 0x4000, .grant hart0]).cur.id = hart0 := by decide +kernel
theorem meets_MessagesTakeEffect_tiles : (let s := labNet lab [.entryReq (send2 none)]
      s.fabric[0]? = some (.entryReq (send2 none)) ∧ s.modRuns 0 = true ∧ s.rankModule (send2 none).dest.launch (send2 none).dest.rank = some 0 ∧ s.liveOn (send2 none).dest.launch 0 = true) ∧
    (let s := labNet { lab with launches := [(1, { labLaunch with finished := true })] } [.entryReq (send2 (some hart0))]
     s.rankModule 1 0 = some 0 ∧ s.liveOn 1 0 = false ∧ (send2 (some hart0)).hart = some hart0) ∧
    (let s := labNet lab [.barDom 1 0 ⟨1, 0, 0, 0, 1⟩ 4]
     s.fabric[0]? = some (.barDom 1 0 ⟨1, 0, 0, 0, 1⟩ 4) ∧ s.modRuns 0 = true ∧ s.liveOn 1 0 = true ∧ s.launch? 1 = some labLaunch ∧
     Tbl.find (labLaunch.pkt.ranks.idxOf 0) labLaunch.shares = some labShare) := by decide +kernel
/-- A launch on ranks 0 and 1 at its start: its own share in a state, the packet on its way to the other. -/
def starting (r0 : Option ShareState) : Launch :=
  { labLaunch with
    pkt := { labPacket with ranks := [0, 1], single := false, const := 0x4000 }, replicated := some 0
    shares := r0.toList.map (fun st => (0, { labShare with state := st })) }
def labStart (r0 : Option ShareState) (ms : List Msg) : State := labNet { labTwo with launches := [(1, starting r0)] } ms
theorem meets_MessagesTakeEffect_march : (let s := labStart none [.march 1 0]
      s.modRuns 0 = true ∧ (starting none).pkt.ranks[0]? = some 0 ∧ (starting none).prio = 0 ∧
      (let u := (s.dropMsg 0).onMod 0 (fun y => { y with march := y.march ++ [(1, 0)] })
       (u.placeAt 0 0 [1]).isSome = true ∧ (∀ k ∈ [1, 2, 3], (u.placeAt 0 k [1]).isSome = false) ∧
        ∀ k ∈ [0, 1, 2, 3], (({ u with mods := [(0, { Module.reset with march := [(1, 0)], gated := upto 0 36 }), (1, Module.reset)] } : State).placeAt 0 k [1]).isSome = false)) ∧
    (starting (some .armed)).rank0 = 0 ∧ (labStart (some .armed) [.arrival 1 1]).modRuns 0 = true ∧ (starting (some .armed)).finished = false := by decide +kernel
theorem labStart_launch (r0 : Option ShareState) (ms : List Msg) : (labStart r0 ms).launch? 1 = some (starting r0) ∧ (labStart r0 ms).fabric = ms := ⟨rfl, rfl⟩
theorem meets_MessagesTakeEffect_release : (let s := labStart (some .armed) [.release 1 0]
      s.modRuns 0 = true ∧ s.rankModule 1 0 = some 0 ∧ s.liveOn 1 0 = true ∧ (s.share? 1 0).map (·.state) = some .armed) ∧
    (let s := labStart (some .armed) [.disarm 1 0 1 1, .disarm 1 1 1 1]
     s.rankModule 1 0 = some 0 ∧ s.modRuns 1 = true ∧ s.rankModule 1 1 = some 1) ∧
    (let s := labStart (some .running) [.ended 1 0, .errRec 1 ErrRec.reset]; (starting (some .running)).origin = 0 ∧ (s.share? 1 0).isSome = true) ∧
    (let s := labNet lab [.act hart0 none true, .act hart0 none false]; s.rankModule 1 0 = some 0 ∧ s.modRuns 0 = true) := by decide +kernel

/-! Witnesses of the host's, the scheduler's and firmware's events -/

/-- An enabled queue with one packet in its ring at 0x8000 of four, and a valid error record that awaits ACT. -/
def queue1 : Queue := { Queue.reset with base := 0x8000, lsize := 2, en := true, tail := 1 }
def err1 : ErrRec := { ErrRec.reset with valid := true, hart := some hart0 }
/-- Settings with no waits. -/
def atOnce : Settings := ⟨0, 4096, 0, 0, 0, 0, 0, 0, 0, 0, 0⟩
def labHost (y : Queue) : State :=
  { lab with mods := [(0, { Module.reset with queues := [(0, y)], errs := [(0, err1)], domErr := err1, set := atOnce })] }
theorem meets_LaunchEventsTakeEffect_queues : (let s := labHost queue1
      s.hostReaches 0 = true ∧ (s.mod? 0).map (fun x => decide (x.queue 0 = queue1)) = some true ∧ 2 ^ queue1.lsize.toNat < ((5 : BitVec 32) - queue1.head).toNat ∧
      ((4 : BitVec 32) - queue1.head).toNat ≤ 2 ^ queue1.lsize.toNat ∧ queue1.en = true ∧ queue1.head ≠ queue1.tail ∧
      (s.mod? 0).map (fun x => decide (x.set.age ≤ 0) && (x.err 0).valid && decide ((x.err 0).hart = some hart0) && x.domErr.valid && decide (x.domErr.hart = some hart0) &&
        x.pend.isEmpty) = some true ∧ s.rankModule hart0.launch hart0.rank = some 0) ∧
    (let y := { queue1 with en := false }
     (y.en = false ∧ 1 ≤ (y.configure 0x11).lsize.toNat ∧ (y.configure 0xC1).lsize.toNat ≤ 12 ∧ (y.configure 0x11).ringOk = true) ∧
     ((y.configure 0x01).lsize = 0 ∧ 12 < (y.configure 0xD1).lsize.toNat) ∧ ({ y with base := 0xBFFFFFFF00 }.configure 0x11).ringOk = false) := by decide +kernel
/-- A packet for one core whose entry is 0x2002, in the ring of the queue. -/
def packetWords1 : List Nat := [0x0004000000000011 + 2 ^ 16, 0, 0, 0x2002, 0, 0, 0, 0, 0, 0, 0, 0x4000, 0xA000000000000001, 0x6000, 0, 0]
def labPlace : State := storeFar { labHost { queue1 with prio := 3 } with launches := [] } 0x8000 (packetWords1.flatMap (leBytes 8)) 0
theorem meets_LaunchEventsTakeEffect_placed : labPlace.modRuns 0 = true ∧ (labPlace.placeAt 0 3 [1]).isSome = true ∧
    (lab.modRuns 0 = true ∧ ∀ k ∈ [0, 1, 2, 3], (lab.placeAt 0 k [1]).isSome = false) := by decide +kernel
/-- A share of a domain launch that waits for its place, with no queue reserved and no launch saved. -/
theorem meets_LaunchEventsTakeEffect_share : (let s := (labStart none []).onMod 0 (fun y => { y with march := [(1, 0)] })
    (s.mod? 0).map (fun x => decide (x.blocked 0 none = false) && decide ((s.savedAt 0 0).length = 0) && decide (s.marchAt x 0 = [(1, 0, starting none)])) = some true ∧
    ((s.onMod 0 (fun z => { z with march := z.march.erase (1, 0) })).armRank 1 0 0 (starting none).pkt [1]).isSome = true) := by decide +kernel
/-- The share of rank 1 armed: its module has lost rank 0, or hears it, or rank 0 does not act. -/
def labWait (lost : Bool) (frozen : Bool) : State :=
  { labTwo with
    mods := [(0, { Module.reset with set := atOnce, frozen := frozen }), (1, { Module.reset with set := atOnce, lost := if lost then [0] else [] })]
    launches := [(1, { starting none with shares := [(1, { labShare with rank := 1, state := .armed })] })] }
theorem meets_LaunchEventsTakeEffect_silent : ∀ b ∈ [true, false], ∀ c ∈ [true, false], let s := labWait b c
    s.rankModule 1 1 = some 1 ∧ s.modRuns 1 = true ∧ (s.launch? 1).map (fun x => decide (x.finished = false ∧ x.pkt.single = false ∧ x.rank0 = 0)) = some true ∧
    (s.share? 1 1).map (·.state) = some .armed ∧ (s.mod? 1).map (fun y => decide (y.set.marchto = 0 ∧ ((0 ∈ y.lost) ↔ b = true))) = some true ∧
    s.modRuns 0 = !c ∧ s.fabric = [] := by decide +kernel
/-- The lab's launch in another state. -/
def labLaunchAs (f : Launch → Launch) : State := { lab with launches := [(1, f labLaunch)], mods := [(0, { Module.reset with set := atOnce })] }
/-- Every rank has reported; a request that module 0 has long had no answer to. -/
theorem meets_LaunchEventsTakeEffect_reported : (let s := labLaunchAs (fun x => { x with shares := [(0, { labShare with place := [], endSent := true, reported := true })] })
      let s := { s with cur := { s.cur with phase := .ended } }
      (s.launch? 1).map (fun x => decide (x.closed = false ∧ x.finished = false ∧ x.allReported = true ∧ x.origin = 0)) = some true ∧
      (s.share? 1 0).map (fun y => decide (y.state = .running ∧ y.endSent = true)) = some true ∧ s.shareEnded 1 0 = true ∧ s.modRuns 0 = true) ∧
    (let x := { Module.reset with set := atOnce, asked := [(1, 0)] }
     Tbl.find 1 x.asked = some 0 ∧ x.set.ltimeout = 0 ∧ (1 : Nat) ∉ x.lost ∧ Tbl.find 1 Module.reset.asked = none) := by decide +kernel
/-- The share of rank 1 of a launch of module 0, its harts ended. -/
def labFarShare : State := { labTwo with launches := [(1, { starting none with replicated := none, shares := [(0, labShare), (1, { labShare with rank := 1, place := [] })] })] }
theorem meets_LaunchEventsTakeEffect_ends : (let s := labStart (some .armed) []
      s.launch? 1 = some (starting (some .armed)) ∧ s.rankModule 1 0 = some 0 ∧ s.modRuns 0 = true ∧ (starting (some .armed)).finished = false ∧
      (starting (some .armed)).pkt.single = false ∧ (starting (some .armed)).replicated = some 0 ∧ (starting (some .armed)).missing = some 0) ∧
    (let s := labFarShare
     (s.launch? 1).map (fun x => decide (x.closed = false ∧ x.finished = false ∧ 1 ≠ x.origin)) = some true ∧ s.rankModule 1 1 = some 1 ∧ s.modRuns 1 = true ∧
     (s.share? 1 1).map (fun y => decide (y.state = .running ∧ y.endSent = false)) = some true ∧ s.shareEnded 1 1 = true ∧
     (s.launch? 1).map (fun x => ((s.reportEnd 1 1 1 x).launch? 1).map (·.allReported)) = some (some false)) ∧
    (let s := labLaunchAs (fun x => { x with finished := true, shares := [(0, { labShare with state := .gone })] })
     (s.launch? 1).map (fun x => decide (x.closed = false ∧ x.finished = true ∧ Tbl.find (x.pkt.ranks.idxOf x.origin) x.shares = some { labShare with state := .gone })) = some true ∧
     s.modRuns 0 = true) := by decide +kernel
/-- Its hart is saved and the share with it. -/
def labSaved (st : ShareState) : State :=
  let s := labLaunchAs (fun x => { x with shares := [(0, { labShare with state := st })] })
  { s with cur := { s.cur with phase := .saved, accs := [] } }
theorem meets_LaunchEventsTakeEffect_saves : (4096 : BitVec 32).toNat = 4096 ∧ (labSaved .suspending).allSaved 1 0 = true ∧ (labSaved .suspending).rankModule 1 0 = some 0 ∧
    ((labSaved .suspending).share? 1 0).map (·.state) = some .suspending ∧ (lab.share? 1 0).map (·.state) = some .running ∧ lab.cur.phase = .running ∧ lab.cur.id = hart0 ∧
    (let s := labSaved .saved; ((s.launch? 1).bind (fun x => (s.share? 1 0).map (fun y => s.canResume 1 0 0 x y [5]))) = some true) ∧
    (let s := labSaved .running
     s.hart? hart0 = some s.cur ∧ s.cur.phase = .saved ∧ s.cur.needsAct = false ∧ s.cur.trap.pin = false ∧ labPacket.stages < 2 ∧ labPacket.gmin ≤ 1 ∧ 1 ≤ labPacket.greq ∧
     1 ≤ (s.pool s.cur.mod s.cur.seat.core).length ∧ s.cur.acnt + s.tilesHeld s.cur.mod s.cur.seat.core ≤ 8) ∧
    (0 : Nat) ≤ 0 ∧ (255 : Nat) ≤ 255 ∧ labLaunch.finished = false := by decide +kernel
theorem meets_LaunchEventsTakeEffect_reload : ∃ bs, lab.readAs labPacket.ranks 0 labPacket.atp (lineRuns ((255 + 1 - 0) / 16 + 2) 0x4000 (8 * (255 + 1 - 0))) = .ok bs :=
  okOf _ (by decide +kernel)
/-- A notice with nothing left; no progress and a hold with no limit; a hold longer than the limit, should a step of the run take a cycle. -/
def labIdle : State := labWith (fun h => { h with notice := ⟨true, 0, 0⟩, quietFrom := 0, heldFrom := some ⟨0, .table, 0x4000, false⟩ })
theorem meets_LaunchEventsTakeEffect_limits : labIdle.modRuns labIdle.cur.mod = true ∧ labIdle.hart? labIdle.cur.id = some labIdle.cur ∧ labIdle.cur.phase = .running ∧
    labIdle.cur.notice.pend = true ∧ labIdle.cur.trap.hm = false ∧ labIdle.leftOf labIdle.cur = 0 ∧ labIdle.cur.vq = [] ∧
    (let s := { labIdle with mods := [(0, { Module.reset with set := atOnce })] }
     (s.mod? s.cur.mod).map (fun y => decide (y.set.wdlim ≤ 0 ∧ y.set.dlck ≤ 0 ∧ y.set.marchto ≤ 0 ∧ y.set.mhold = 0)) = some true) := by
  refine ⟨by decide +kernel, by decide +kernel, by decide +kernel, by decide +kernel, by decide +kernel, ?_, by decide +kernel, by decide +kernel⟩
  show (0 : BitVec 32).toNat - _ = 0
  simp
theorem meets_LaunchEventsTakeEffect_hold : (∀ n, Config.stepCycles n = 0) ∨
    ∃ s : State, ∃ k y, s.hart? s.cur.id = some s.cur ∧ s.mod? s.cur.mod = some y ∧ s.modRuns s.cur.mod = true ∧ s.cur.phase = .running ∧ s.cur.trap.hm = false ∧ s.cur.vq = [] ∧
      s.cur.heldFrom = some k ∧ (k.holder = .frame ∨ k.holder = .table) ∧ y.set.mhold < s.since k.since := by
  by_cases h : ∀ n, Config.stepCycles n = 0
  · exact .inl h
  · obtain ⟨n, hn⟩ := Classical.not_forall.mp h
    refine .inr ⟨{ labWith (fun h => { h with heldFrom := some ⟨n, .frame, 0, false⟩ }) with mods := [(0, { Module.reset with set := atOnce })], tick := n + 1 }, ⟨n, .frame, 0, false⟩,
      { Module.reset with set := atOnce }, rfl, rfl, rfl, rfl, rfl, rfl, rfl, .inl rfl, ?_⟩
    show (0 : Nat) < cyclesAt (n + 1) - cyclesAt n
    simp only [cyclesAt]; omega
/-- The same of a store that a migration holds at its frame. -/
theorem meets_LaunchEventsTakeEffect_posted : (∀ n, Config.stepCycles n = 0) ∨
    ∃ s : State, ∃ y va, s.hart? s.cur.id = some s.cur ∧ s.mod? s.cur.mod = some y ∧ s.modRuns s.cur.mod = true ∧ s.cur.phase = .running ∧ s.cur.trap.hm = false ∧
      s.cur.vq = [] ∧ s.cur.heldFrom = none ∧ s.heldLong s.cur.id y.set.mhold = some va := by
  by_cases h : ∀ n, Config.stepCycles n = 0
  · exact .inl h
  · obtain ⟨n, hn⟩ := Classical.not_forall.mp h
    let y : Module := { Module.reset with set := atOnce, moving := [⟨0x4000, 4096, 0x8000, [(hart0, 0x4000, n)]⟩] }
    refine .inr ⟨{ lab with mods := [(0, y)], tick := n + 1 }, y, 0x4000, rfl, rfl, rfl, rfl, rfl, rfl, rfl, ?_⟩
    have hc : (0 : Nat) < cyclesAt (n + 1) - cyclesAt n := by simp only [cyclesAt]; omega
    have hd : decide (hart0 = lab.cur.id) = true := by decide +kernel
    simp only [State.heldLong, State.since, State.now, List.findSome?_cons, List.find?_cons, y, atOnce, hd, Bool.true_and]
    have h2 : cyclesAt n < cyclesAt (n + 1) := by omega
    simp [h2]
theorem meets_LaunchEventsTakeEffect_links : (1 : Nat) ∉ Module.reset.lost ∧ (0 : Nat) ≠ 1 ∧ State.reset.fabric = [] ∧ State.reset.launches = [] ∧ State.reset.modRuns 0 = true ∧
    (17 : Nat) < 18 ∧ (Module.reset.port 17).up = false ∧ ({ Module.reset with ports := [(17, { Port.reset with up := true })] }.port 17).up = true := by decide +kernel

/-! Witnesses of memory's and the device's events -/

/-- The machine with one module in another state, its settings without waits. -/
def labMod (f : Module → Module) : State := { lab with mods := [(0, f { Module.reset with set := atOnce })] }
/-- A line that two readers still fetch, one that one does, and one that none does. -/
def lineOfCount (n : BitVec 4) : State := { State.reset with msc := [(128, ⟨List.replicate 128 7, n, true, false, []⟩)] }
theorem meets_MemoryEventsTakeEffect_cache : lab.modRuns (0x4000 / 2 ^ 52) = true ∧ locHbm 0x4000 = true ∧ 
    ([1, 2] : List Byte) ≠ [] ∧ 0x407E % 128 + ([1, 2] : List Byte).length ≤ 128 ∧ locHbm 0x407E = true ∧
    (∀ n ∈ [(0 : BitVec 4), 1, 2], Tbl.rising (lineOfCount n).msc = true ∧ (Tbl.find 128 (lineOfCount n).msc).map (·.count) = some n ∧ (lineOfCount n).near = []) := by decide +kernel
/-- A page that rank 1 has stored to, one of the local first tier, extents placed, closing and forced. -/
def page1 : PageRec := ⟨[(1, 0)], [], false⟩
def ext1 : Extent := ⟨0, 0x200000, 0x400000, false, [], none⟩
theorem meets_MemoryEventsTakeEffect_host : (let x := Module.reset
      x.hostUp = true ∧ hostReach x 0 0x4000 2 = true ∧ hostReach x 0 0x100000000000 8 = true ∧
      locHbm (loc 0 0x100000000000) = false ∧ poisonedAt lab false (loc 0 0x100000000000) 8 = none ∧
      locHbm (loc 0 0x4000) = true ∧ poisonedAt lab true (loc 0 0x4000) 2 = none) ∧
    ((11 : Nat) < 12 ∧ (4095 : Nat) < 4096 ∧ 0xBFFFFFFFF8 / 2 ^ 36 = 11 ∧ Tbl.find 4095 (Module.reset.stack 11).backoff = none ∧ (Module.reset.stack 11).hot 4095 = none ∧
      (let y := { Stack.reset with thresh := 256, acts := [(rowKey 4095 7, 256)] }; y.hot 4095 = some 7) ∧ Tbl.find 4095 ({ Stack.reset with backoff := [(4095, 7)] } : Stack).backoff = some 7) := by decide +kernel
theorem meets_MemoryEventsTakeEffect_moves : (let s := { lab with mods := [(0, { Module.reset with pages := [(2, page1)], set := { atOnce with migmax := 1 } }), (1, Module.reset)] }
      (s.mod? 0).map (fun x => decide (Tbl.find 2 x.pages = some page1 ∧ s.movedOften x page1 = false)) = some true ∧ s.modRuns 1 = true ∧ (0 : Nat) ≠ 1 ∧ (0x5FFFF : Nat) < 0x60000 ∧
      s.movesTo (loc 0 (2 * 2 ^ 21)) = none ∧ page1.pinned = false ∧ ∀ x : Module, x.set.mthresh = 0 → s.pastThreshold x page1 1 = true) ∧
    (match resolveLocal Module.reset 0 0x4000, resolveLocal Module.reset 0 0x100000000000, resolveLocal Module.reset 0 (0x100000000000 + 4096 - 1) with
      | .ok p, .ok q, .ok r => decide (p.kind = .hbm 0 ∧ q.kind = .tier2 ∧ r.kind = .tier2)
      | _, _, _ => false) = true ∧ 4096 % 4096 = 0 ∧ 0x4000 % 4096 = 0 ∧ 0x100000000000 % 4096 = 0 ∧ (labMod id).movesTo (loc 0 0x4000) = none ∧
    (labMod (fun x => { x with moving := [⟨0x4000, 4096, loc 0 0x100000000000, []⟩] })).movesTo (loc 0 0x4000) = some (loc 0 0x100000000000, 4096) ∧
    (labMod id).rangeMoves (loc 0 0x4000) 4096 = false ∧ (labMod id).rangeMoves (loc 0 0x100000000000) 4096 = false := by
  refine ⟨⟨by decide +kernel, by decide +kernel, by decide, by decide, by decide +kernel, rfl, fun x h => ?_⟩, by decide +kernel⟩
  simp only [State.pastThreshold, h, Nat.zero_le, decide_true]
theorem meets_MemoryEventsTakeEffect_firmware : (0 : Nat) < 0x1000 ∧ (∀ y ∈ Module.reset.pubs, y.meets 0 0x4000 0x1000 = false) ∧ (∀ c ∈ lab.mods, c.1 = 0 → c.2 = Module.reset) ∧
    (let x := { Module.reset with pubs := [pubBuf] }; x.pubs[0]? = some pubBuf ∧ pubBuf.dom = false ∧ x.nodes = []) ∧
    (0x600000 % 2 ^ 21 = 0 ∧ 0x200000 % 2 ^ 21 = 0 ∧ 0x600000 + 0x200000 ≤ 2 ^ 49 ∧ rangesMeet ext1.off ext1.len 0x600000 0x200000 = false ∧ rangesMeet ext1.off ext1.len 0x400000 0x200000 = true) ∧
    (let x := { Module.reset with extents := [ext1] }; x.extents.find? (fun e => e.off == 0x400000) = some ext1 ∧ ext1.forced = none ∧ ext1.closing = false ∧ x.xrel.valid = false) ∧
    (let x := { Module.reset with extents := [{ ext1 with closing := true }] }
     x.extents.find? (fun e => e.off == 0x400000) = some { ext1 with closing := true } ∧ x.xrel.valid = false ∧ x.nodes = [] ∧ x.hostUp = true) ∧
    labKv.rootInUse 0 0x5008 = false ∧ labKv.rootInUse 0 0x5000 = true ∧ (∃ r, kvRemove ⟨[0], 0, labPacket.atp, 0x5000⟩ 0 0 labKv = .ok r) := by
  refine ⟨by decide, by decide, by decide +kernel, by decide +kernel, by decide +kernel, by decide +kernel, by decide +kernel, by decide +kernel, by decide +kernel, okOf _ (by decide +kernel)⟩
/-- The cache at rest: its launch is over. -/
def labKvRest : State := { labKv with launches := [] }
theorem meets_MemoryEventsTakeEffect_autumn : labKvRest.rootInUse 0 0x5000 = false ∧ labKvRest.domainRanks 0 = [0] ∧
    ∃ r, kvAutumn ⟨labKvRest.domainRanks 0, 0, labPacket.atp, 0x5000⟩ ((labKvRest.domainRanks 0).idxOf 0) 1 3 labKvRest = .ok r := by
  refine ⟨by decide +kernel, by decide +kernel, okOf _ (by decide +kernel)⟩

/-- The unlock and the image checks rest on opaque functions, so no request that passes can be named. -/
theorem meets_DeviceEventsTakeEffect : lab.hostReaches 0 = true ∧ lab.holder 0 (.scalar hart0 3) = some (0, 0) ∧ lab.wordBad (.scalar hart0 3) = false ∧ lab.refill 0 (.scalar hart0 3) = none ∧
    (let s := { lab with l2 := [128] }; s.holder 0 (.l2 0x4000) = some (0, 0xA0) ∧ s.wordBad (.l2 0x4000) = false ∧ (s.refill 0 (.l2 0x4000)).isSome = true) ∧
    ({ labMem 0x4000 [1] with l2 := [128] } : State).refill 0 (.l2 0x4000) = none ∧
    lab.modRuns 0 = true ∧ Module.reset.power ≠ .d3cold ∧ Module.reset.frozen = false ∧ Module.reset.unlock = false ∧ (110 : Nat) ≤ 110 ∧ (100 : Nat) ≤ 100 ∧
    ({ Module.reset with power := .d3cold } : Module).power = .d3cold ∧ ({ Module.reset with power := .d3hot } : Module).power = .d3hot ∧
    State.reset.idle 0 = true ∧ (let x := { Module.reset with frozen := true, source := 2 }; x.frozen = true ∧ x.source = 2) ∧ State.reset.mod? 0 = some Module.reset := by decide +kernel

/-! Witnesses of encodings, lines and steps -/

theorem meets_DecodeOfEncode : (Instr.vfma ⟨0, 63, ⟨3, 255⟩, ⟨2, 255⟩, ⟨3, 128⟩, ⟨3, 3⟩, 63, 0⟩).isEvent = false ∧ (Instr.nop ⟨0⟩).isEvent = false ∧ (Instr.nop ⟨0⟩).wellFormed = true ∧
    decode 0x43C0 0x1F00 = .ok (.liReg ⟨0, 7, ⟨3, 0⟩⟩) ∧ 0x1F00 < 2 ^ (16 * tailLen (headTl 0x43C0)) ∧ 0 < 2 ^ (16 * tailLen (headTl 0x0000)) := by decide +kernel
/-- H = 0 and H = 31 of empty tails, a bit above H, and one halfword too many. -/
theorem meets_MalformedLineIsRefused : lineHeads [0] = .error ⟨0x02, 1⟩ ∧ lineHeads [0x20, 0] = .error ⟨0x02, 1⟩ ∧ lineHeads [0x21, 0] = .error ⟨0x02, 2⟩ ∧
    lineHeads (31 :: List.replicate 31 0) = .ok 31 ∧ lineHeads (31 :: 0x43C0 :: List.replicate 30 0) = .error ⟨0x02, 3⟩ ∧
    (let s : State := { placeLine lab (List.replicate 64 0) with cur := { lab.cur with pc := 0x2002, atp := 0xA000000000000001 } }
     (∃ h, s.fetchLine (s.cur.pc.toNat / 64 * 64) = .ok h) ∧ lineHeads (halves (List.replicate 64 0)) = .error ⟨0x02, 1⟩ ∧ s.cur.pc ≠ 0) := by
  refine ⟨by decide +kernel, by decide +kernel, by decide +kernel, by decide +kernel, by decide +kernel, okOf _ (by decide +kernel), by decide +kernel, by decide +kernel⟩
/-- A turn of the hart at NOP, one at the head of its queue, one at each kind of turn on the agenda, one where no hart may act. -/
theorem meets_StepRunsTheDecodedInstruction : (let s := placeLine lab (lineOf 0x43C0 0x1F00)
      s.agenda = [] ∧ s.ticked.canRun = true ∧ s.cur.vq = [] ∧ s.cur.pc ≠ 0 ∧ s.ticked.poisonedG (.liReg ⟨0, 7, ⟨3, 0⟩⟩) = false ∧
      (match s.ticked.fetchLine (s.cur.pc.toNat / 64 * 64) with
        | .ok h => decide (lineHeads h = .ok 1 ∧ h.getD (s.cur.pc.toNat % 64 / 2) 0 = 0x43C0 ∧ lineTail h (s.cur.pc.toNat % 64 / 2) = 0x1F00)
        | .error _ => false) = true ∧ s.cur.pc.toNat % 64 / 2 = 1 ∧ decode 0x43C0 0x1F00 = .ok (.liReg ⟨0, 7, ⟨3, 0⟩⟩)) ∧
    (let s := labWith (fun h => { h with vq := [labEntry] }); s.agenda = [] ∧ s.ticked.canRun = true ∧ s.cur.vq = labEntry :: [] ∧ s.cur.trap.fpend = false) ∧
    (State.reset.agenda = [] ∧ State.reset.ticked.canRun = false) ∧
    (let s := { lab with agenda := [.hart hart0, .issue hart0, .event (.tapIdcode 0), .event (.nop ⟨0⟩)] }
     s.agenda = .hart hart0 :: s.agenda.drop 1 ∧ s.agenda.drop 1 = .issue hart0 :: s.agenda.drop 2 ∧ (Instr.tapIdcode 0).isEvent = true ∧ (Instr.nop ⟨0⟩).isEvent = false) ∧
    (let i := Instr.vfma ⟨0, 1, ⟨0, 8⟩, ⟨0, 9⟩, ⟨0, 1⟩, ⟨0, 0⟩, 0, 0⟩
     let s := { placeLine lab (lineOf 0xDC60 0x0408024010000000) with agenda := [] }
     let t : State := { s with cur := { s.cur with vq := List.replicate 31 labEntry } }
     t.canRun = true ∧ t.cur.trap.fpend = false ∧ fetchesAs (fetch t) i 0xDC60 0x2042 = true ∧ runsAhead i = false ∧ standsBehind i = false ∧ t.interlocked i = false ∧ t.cur.vq.length < 32) ∧
    (∃ p, lab.translate 0x2000 .fetch = .ok p) ∧ lab.bufferedLine ⟨⟨0, 0x2000, .hbm 0⟩, 0⟩ = none ∧ poisonedAt lab false 0x2000 64 = none := by
  refine ⟨by decide +kernel, by decide +kernel, by decide +kernel, by decide +kernel, by decide +kernel, okOf _ (by decide +kernel), by decide +kernel⟩
/-- A matrix instruction at the program counter and at the head of the queue whose engine comes to the hart, and one for which it has another
hart to serve; a fetch from the instruction buffer; the other turns of an agenda. -/
theorem meets_StepRunsTheDecodedInstruction_engine : isMatrix (.mzero ⟨0, 1, ⟨0, 0⟩⟩) = true ∧ lab.cur.trap.fpend = false ∧ lab.engineTurn = true ∧
    (let s : State := { lab with harts := [{ labHart with id := ⟨1, 0, 0, 0, 1⟩, seat := ⟨0, 0, [1], 0⟩, moved := 1 }], cur := { lab.cur with seat := { lab.cur.seat with slot := 1 } } }
     s.engineTurn = false ∧ s.moveOne.engineTurn = false) ∧ lab.moveOne.engineTurn = true ∧
    (let s : State := { lab with ibuf := [⟨coreKey 0 0, 0x2000 / 64, List.replicate 64 1⟩] }
     (s.bufferedLine ⟨⟨0, 0x2000, .hbm 0⟩, 0⟩).isSome = true) ∧
    (let s : State := { lab with agenda := [.later hart0, .vector hart0, .act (.dropTlb 0)] }
     s.agenda = .later hart0 :: s.agenda.drop 1 ∧ s.agenda.drop 1 = .vector hart0 :: s.agenda.drop 2 ∧ s.agenda.drop 2 = [.act (.dropTlb 0)]) := by decide +kernel
theorem meets_FrozenQueueTakesNothing : (let i := Instr.vadd ⟨0, 7, ⟨0, 1⟩, ⟨0, 1⟩, ⟨0, 0⟩, none⟩
      let s := labWith (fun h => { h with trap := { h.trap with hm := true, fpend := true } })
      i.isEvent = false ∧ runsAhead i = false ∧ standsBehind i = false ∧ s.cur.active = none ∧ s.cur.trap.hm = true ∧ s.cur.trap.fpend = true) := by decide +kernel
/-- A step that answers, from a state whose memory and tiles are in form. -/
theorem lab_steps : ∃ t, step lab = .next t := ⟨_, rfl⟩
theorem lab_tilesInForm : lab.tilesInForm := by
  have h1 : lab.cur.accs = [Acc.fresh, Acc.fresh] := by decide +kernel
  have h2 : lab.harts = [] ∧ lab.frames = [] := by decide +kernel
  have h3 : Acc.fresh.ok := by unfold Acc.ok; decide +kernel
  simp [State.tilesInForm, h1, h2.1, h2.2, h3]
theorem meets_StepKeepsMemoryForm : lab.memOk ∧ Tbl.rising lab.banks = true ∧ ∃ t, step lab = .next t := ⟨lab_memOk, by decide +kernel, lab_steps⟩
theorem meets_StepKeepsTileForm : lab.tilesInForm ∧ ∃ t, step lab = .next t := ⟨lab_tilesInForm, lab_steps⟩
theorem meets_ResetState : (15 : Nat) < 16 ∧ (65535 : Nat) < 65536 ∧ labHart.devSlot < 2048 := by decide +kernel

/-- The launch packet of R363's worked example: 4 by 4 cores with fused L1 at origin (4, 8), tiles 32, policy 1, 64 tasks, two stages with
floors 3 and 2 and a queue depth of 8. -/
theorem test_packet_worked_example : (let p := packetOf 0 [0x0040105000008444, 0x0000000A00000009, 8]
    p.wid = 4 ∧ p.hgt = 4 ∧ p.origin = some (4, 8) ∧ p.tiles = 32 ∧ p.fused = true ∧ p.policy = 1 ∧ p.tasks = 64 ∧ p.stages = 2 ∧ p.harts = 2 ∧ p.floor = [3, 2] ∧
    p.carry = [false, false] ∧ p.depth = [8] ∧ p.ser = false ∧ p.single = true) := by decide +kernel

/-! ### Witnesses of the further clauses of the statements -/

/-- A load to g0 names it; so does LOOP with g0 as its counter. -/
theorem meets_ZeroRegister_named : namedG (.ld ⟨0, 0, rg 1, 0⟩) = some 0 ∧ namedG (.loop ⟨0, rg 0, imm 1, 0⟩) = some 0 ∧
    ∃ t, exec (.ld ⟨0, 0, rg 1, 0⟩) lab = .next t := ⟨rfl, rfl, answers _ _ (by decide +kernel)⟩
/-- The two modules with an address of the second in g6. -/
def labReach : State := { labTwo with cur := { labTwo.cur with g := labTwo.cur.g.set 6 (BitVec.ofNat 64 far1) } }
/-- A line whose count has run down to 0, and one that no cache holds; a store to another module, which is posted. -/
theorem meets_ScalarMemoryFrame_shared : lab.posted = false ∧ labReach.posted = false ∧ (∃ t, exec (.lr ⟨0, 7, rg 1⟩) lab = .next t) ∧
    ((Tbl.find 128 (lineOfCount 0).msc).map (fun l => l.count) = some 0 ∧ Tbl.find 129 (lineOfCount 0).msc = none) ∧
    (match labReach.translate (labReach.src (rg 6) + (0 : BitVec 16).signExtend 64).toNat .store with
      | .ok q => decide (q.spot.m ≠ labReach.cur.mod)
      | .error _ => false) = true ∧
    (labWith (fun h => { h with later := true })).cur.later = true ∧ at4000.dclass = false :=
  ⟨by decide +kernel, by decide +kernel, answers _ _ (by decide +kernel), by decide +kernel, by decide +kernel,
    by decide +kernel, by decide +kernel⟩
/-- SC to a module that runs and to one that gives no response. -/
theorem meets_ReservationResults_remote : ∀ b ∈ [true, false],
    let s : State := { labReach with mods := [(0, Module.reset), (1, { Module.reset with frozen := b })], cur := { labReach.cur with resv := some 5 } }
    ((s.src (rg 6)).toNat % 8 = 0 ∧ s.cur.resv.isSome = true) ∧
    (match s.translate (s.src (rg 6)).toNat .store with
      | .ok q => decide (q.spot.m ≠ s.cur.mod) && ((s.settleFor false q).modRuns q.spot.m == !b)
      | .error _ => false) = true := by decide +kernel
/-- FENCE.SV with TYPE 15 and 16 over a queue that holds an instruction, and over posted stores that nothing holds. -/
theorem meets_HintsAndEventBit_fences : (imm 15).val.toNat < 16 ∧ 16 ≤ (imm 16).val.toNat ∧ (labWith (fun h => { h with vq := [labEntry] })).cur.vq ≠ [] ∧
    (let s : State := { lab with fabric := [.store labHart.id 0x4000 false false false 0 0x4000 [1, 2]] }
     s.posted = true ∧ ∀ x ∈ s.fabric, Msg.storeOf s.cur.id x = true → s.storeHolder s.cur.mod x = none) := by decide +kernel
theorem meets_OtherTrapRoutes_ranks : labPacket.ranks[labHandler.cur.id.rank]? = some labHandler.cur.mod ∧ (∀ k ∈ labPacket.ranks, k = labHandler.cur.mod) ∧
    (∀ k ∈ [0, 1], k = labTwo.cur.mod ∨ labTwo.modRuns k = true) := by decide +kernel
/-- A queue that holds an instruction, frozen and not; an unfinished copy node; a posted store that a migration holds. -/
def labHeld : State := { lab with
  fabric := [.store labHart.id 0x4000 false false false 0 0x4000 [1, 2]], mods := [(0, { Module.reset with moving := [⟨0x4000, 4096, 0x8000, []⟩] })] }
theorem meets_StateRegisterResults_stand : (∀ b ∈ [true, false],
      let s := labWith (fun h => { h with vq := [labEntry], trap := { h.trap with hm := b, fpend := b } }); s.cur.vq ≠ [] ∧ s.cur.frozen = b) ∧
    (labNodes [(0, ⟨1, .ready, .copy job, 1, labHart.id, 0, [], 0, 0, false, 0, .none, false⟩)]).nodesPending = true ∧
    (labHeld.stuck = some (.frame, 0x4000) ∧ labHeld.cur.vq = [] ∧ labHeld.nodesPending = false ∧ labHeld.lostStore = none) ∧
    (lab.src (rg 4)).extractLsb' 60 4 ≠ 0xA ∧ labHandler.cur.trap.hm = true := by decide +kernel
theorem meets_TransfersThatDoNotArrive_stays : lab.cur.vq = [] ∧ lab.stuck = none ∧ labHeld.stuck.isSome = true ∧ (labWith (fun h => { h with vq := [labEntry] })).cur.vq ≠ [] := by
  decide +kernel
theorem meets_PermuteAndSortResults_index : (rv 1).tag = 0 ∧ lab.nearOk (rv 1) = true ∧ lab.vecReady := ⟨rfl, by decide +kernel, lab_vecReady⟩
/-- VSETL without a binding, bound below, at and beyond the end of its cell, open and closed; a hart whose grant changed in this step. -/
theorem meets_GrantChangesClearRegisters_vsetl : lab.executes = true ∧ lab.cur.cfg.ill = false ∧ lab.cur.seen ≠ some lab.watched ∧ lab.cur.notice.pend = false ∧
    lab.cur.stream.bound = false ∧
    (∀ p ∈ [(6, true), (7, false), (8, false)], let s := labWith (fun h => { h with stream := ⟨true, 3, BitVec.ofNat 63 p.1⟩ })
      s.executes = true ∧ s.cur.seen ≠ some s.watched ∧ s.boundCell.index = 7 ∧ s.boundCell.closed = false ∧ (s.cur.stream.bpos.toNat < s.boundCell.index ↔ p.2 = true)) ∧
    (let s : State := { lab with launches := [(1, { labLaunch with shares := [(0, { labShare with cells := [(3, ⟨7, true⟩)] })] })], cur := { lab.cur with stream := ⟨true, 3, 7⟩ } }
     s.boundCell.index ≤ s.cur.stream.bpos.toNat ∧ s.boundCell.closed = true ∧ s.cur.seen ≠ some s.watched) ∧
    (labShare.holds.getD lab.cur.seat.stage 0 = 256 ∧ lab.tick = 0) := by decide +kernel
theorem meets_GrantChangesClearRegisters_held : (labWith (fun h => { h with lastShift := some 0, eager := false })).cur.eager = false ∧
    lab.since 0 < labShare.holds.getD lab.cur.seat.stage 0 := by
  have h1 : labShare.holds.getD lab.cur.seat.stage 0 = 256 := by decide +kernel
  have h2 : lab.since 0 = 0 := by simp [State.since, State.now, show lab.tick = 0 from by decide +kernel]
  exact ⟨rfl, by omega⟩
/-- A frame of a hart with one tile, as that hart's header names it. -/
theorem meets_SpillAndFillResults_tiles :
    (let s : State := { storeNear lab 0x4000 (leBytes 4 (1 + 2 * 2 ^ 20 + 2 * 2 ^ 24 + 2 ^ 28)) with cur := { lab.cur with accs := [Acc.fresh] } }
     (match s.transRangeD s.view 0x4000 64 .load 6 with
      | .ok ps => (match s.readRuns false ps with
        | .ok hd => let w0 := leNat (hd.take 8)
          decide (w0 % 2 ^ 18 = 1) && decide (w0 / 2 ^ 20 % 16 = 2) && decide (w0 / 2 ^ 24 % 4 = 2) && decide (w0 / 2 ^ 28 % 16 = s.cur.accs.length) &&
            (match s.transRangeD s.view 0x4000 (s.cur.frameSize 1) .load 6 with
             | .ok _ => true
             | .error _ => false)
        | .error _ => false)
      | .error _ => false) = true) := by decide +kernel
/-- Aborts that nobody has yet to confirm, whose silent rank is given up, and whose ranks answer. -/
theorem meets_LaunchEventsTakeEffect_confirms : ∀ b ∈ [true, false],
    let x : Launch := { starting none with finished := true, replicated := none, unsure := [(1, 0)], shares := [(0, { labShare with state := .gone })] }
    let s : State := { labTwo with
      mods := [(0, { Module.reset with set := { atOnce with ltimeout := 5 }, lost := if b then [1] else [] }), (1, { Module.reset with frozen := true })], launches := [(1, x)] }
    x.closed = false ∧ s.modRuns x.origin = true ∧ (s.confirmRanks 1 x).launch? 1 = some x ∧ x.pkt.ranks.getD 1 0 = 1 ∧
    (∀ y ∈ s.mods, y.1 = x.origin → y.2.lost.contains 1 = b) ∧ (starting none).unsure = [] := by decide +kernel
/-- An access that meets a frame on the move, one beside it. -/
theorem meets_MemoryEventsTakeEffect_held : labHeld.rangeMoves 0x4FFF 1 = true ∧ labHeld.rangeMoves 0x5000 64 = false ∧ labHeld.rangeMoves 0x3FFF 1 = false ∧
    labHeld.movesTo (Machine.loc 0 0x4000) = some (Machine.loc 0 0x8000, 4096) := by decide +kernel
theorem meets_DeviceEventsTakeEffect_idle : State.reset.idle 0 = true ∧ ∀ k, State.reset.users 0 k = [] ∧ State.reset.standing 0 k = [] := by
  refine ⟨by decide +kernel, fun k => ⟨rfl, ?_⟩⟩
  have h : State.reset.allHarts.filter (fun h => State.reset.keepsSlot h) = [] := by decide +kernel
  simp only [State.standing, List.filter_eq_nil_iff] at h ⊢
  intro a ha e
  exact h a ha (by simp only [Bool.and_eq_true] at e; exact e.1.1)
/-- A queue entry whose state registers are good, and one whose are poisoned; a vector instruction behind a matrix instruction whose tensor
register it names. -/
theorem meets_StepRunsTheDecodedInstruction_poison : lab.poisonedSr 0x00C = false ∧ lab.poisonedFor labEntry.instr = false ∧
    (let s : State := { lab with poison := [.scalar lab.cur.id 33] }; s.poisonedFor labEntry.instr = true) ∧
    (let s := labWith (fun h => { h with vq := [{ labEntry with instr := .mmovBodyToVec ⟨0, 1, rg 1, rg 1, all, none⟩ }, labEntry], moved := 1 })
     s.canRun = true ∧ s.cur.trap.fpend = false ∧ s.cur.phase = .running ∧ 0 < s.cur.moved ∧ s.cur.vq[s.cur.moved]? = some labEntry ∧
     isMatrix labEntry.instr = false ∧ s.goesAhead labEntry = false) := by decide +kernel

end Sys2Proof.Tests
end

section
/-! PROOFS. Laws that several statements share: what leaves a register, memory or a module as it was, what posted stores leave of the acting
hart, and how a scalar instruction's precise trap ends. -/

namespace Sys2Proof.Machine

/-! ### Frames -/

/-- Memory reads as before when no copy of it changed (R148). -/
theorem sameMemory_of_eq {s t : State} (hn : t.near = s.near) (hm : t.msc = s.msc) (hd : t.dram = s.dram) : sameMemory s t := by
  intro a
  simp only [State.byteAt, nearByte, farByte, dramByte, hn, hm, hd, and_self]

/-- A general register reads by the register file alone (R62). -/
theorem Hart.greg_congr {h k : Hart} (e : k.g = h.g) (r : Fin 32) : k.greg r = h.greg r := by simp [Hart.greg, e]

/-- Registers read as before when the register file did not change. -/
theorem sameG_of_eq {s t : State} (e : t.cur.g = s.cur.g) : sameG s t := Hart.greg_congr e

/-- An instruction that completes with one general register written leaves everything else (R62). -/
theorem onlyWrites_setG_completed (s : State) (r : Fin 32) (v : Word) : onlyWrites r s (s.setG r v).completed := by
  refine ⟨fun k hk => ?_, by simp [sameVec], by simp [sameSpecial], by simp [sameFlags], sameMemory_of_eq ?_ ?_ ?_, by simp [sameOthers]⟩
  · rw [Hart.greg_congr (State.completed_cur_g _) k]
    exact Hart.greg_setG_other s.cur r k v hk
  all_goals simp

/-! ### Modules and tables -/

theorem mod?_congr {s t : State} (h : t.mods = s.mods) (m : Nat) : t.mod? m = s.mod? m := by simp [State.mod?, h]

/-- A table without the keys that a filter drops reads nothing there. -/
theorem Tbl.find_filter_none {α : Type} {p : Nat × α → Bool} {k : Nat} (h : ∀ v, p (k, v) = false) (t : Tbl α) :
    Tbl.find k (t.filter p) = none := by
  cases hf : Tbl.find k (t.filter p) with
  | none => rfl
  | some v => exact absurd (List.mem_filter.mp (Tbl.find_mem hf)).2 (by rw [h v]; exact Bool.false_ne_true)

/-! ### Posted stores leave the acting hart alone but for its reservation -/

/-- The acting hart is as before but for its reservation. -/
def KeepsHart (s t : State) : Prop := ∃ r, t.cur = { s.cur with resv := r }

theorem KeepsHart.of_cur {s t : State} (h : t.cur = s.cur) : KeepsHart s t := ⟨s.cur.resv, h⟩

theorem KeepsHart.trans {s t u : State} (h : KeepsHart s t) (k : KeepsHart t u) : KeepsHart s u := by
  obtain ⟨r, hr⟩ := h
  obtain ⟨q, hq⟩ := k
  exact ⟨q, by rw [hq, hr]⟩

theorem keepsHart_foldl {β : Type} (f : State → β → State) (hf : ∀ s b, KeepsHart s (f s b)) (l : List β) :
    ∀ s, KeepsHart s (l.foldl f s) := by
  induction l with
  | nil => exact fun _ => .of_cur rfl
  | cons b l ih => exact fun s => (hf s b).trans (ih _)

theorem keepsHart_breakResvs (s : State) (a n : Nat) : KeepsHart s (breakResvs s a n) := by
  change ∃ r, s.cur.breakResv a n = { s.cur with resv := r }
  unfold Hart.breakResv
  split
  · split
    · exact ⟨none, rfl⟩
    · exact ⟨_, rfl⟩
  · exact ⟨_, rfl⟩

theorem keepsHart_storeFar (s : State) (a : Nat) (bs : List Byte) (n : Nat) : KeepsHart s (storeFar s a bs n) :=
  (keepsHart_breakResvs s a bs.length).trans (.of_cur (memStep_storeFar s a bs n).cur)

theorem keepsHart_storeNear (s : State) (a : Nat) (bs : List Byte) : KeepsHart s (storeNear s a bs) :=
  (keepsHart_breakResvs s a bs.length).trans (.of_cur (memStep_storeNear s a bs).cur)

theorem writeL1_cur (s : State) (m c a : Nat) (put : State → State) : (s.writeL1 m c a put).cur = (put s).cur := by
  unfold State.writeL1
  simp only
  split <;> rfl

theorem putFor_cur (s : State) (h : HartId) (near : Bool) (a : Nat) (put : State → State) : (s.putFor h near a put).cur = (put s).cur := by
  unfold State.putFor
  split
  · exact writeL1_cur _ _ _ _ _
  · rfl

theorem countPage_cur (s : State) (src a : Nat) : (countPage s src a).cur = s.cur := by
  unfold countPage
  split
  · rfl
  · exact State.onMod_cur _ _ _

theorem keepsHart_performStore (s : State) (src : Nat) (m : Msg) : KeepsHart s (performStore s src m) := by
  unfold performStore
  split
  · rename_i i va vec far d readers a bs
    have hput : KeepsHart s (if far then storeFar s a bs readers else storeNear s a bs) := by
      split
      · exact keepsHart_storeFar s a bs readers
      · exact keepsHart_storeNear s a bs
    simp only
    refine hput.trans (.of_cur ?_)
    split
    · rw [countPage_cur, putFor_cur]
    · rw [State.heard_cur, countPage_cur, putFor_cur]
  · exact .of_cur rfl

/-- Letting posted stores perform leaves the acting hart alone but for its reservation (R158, R211). -/
theorem keepsHart_drain (s : State) (mine : Msg → Bool) : KeepsHart s (s.drain mine) :=
  (KeepsHart.of_cur (s := s) rfl).trans (keepsHart_foldl _ (fun t x => keepsHart_performStore t _ x) _ _)

theorem keepsHart_settle (s : State) : KeepsHart s s.settle := by
  unfold State.settle
  split
  · exact keepsHart_drain s _
  · exact .of_cur rfl

/-! ### Traps of scalar instructions -/

/-- A scalar instruction that traps is waited for no more (R390). -/
def State.unwaited (s : State) : State :=
  { s with cur := { s.cur with waitOn := none, heldFrom := none, kheld := none, phase := .running } }

/-- A scalar instruction's precise exception is a trap of the hart as it stood (R415). -/
theorem retire_precise (c k : Nat) (v : Word) (s : State) :
    retire (precise c k v s) = .next (takeTrap s.unwaited ⟨mkCause c k, v, false⟩) := rfl

/-- A precise trap on route H of a hart with a handler enters it (R395). -/
theorem takeTrap_enteredPrecise {s : State} {c : Cause} (v : Word) (hm : s.cur.trap.hm = false) (hv : s.cur.trap.tvec ≠ 0)
    (hc : onH c = true) : enteredPrecise s (takeTrap s ⟨c, v, false⟩) c v (if c.code = 0x01 then s.cur.npc else s.cur.pc) := by
  rw [takeTrap_handler hm hc hv]
  refine ⟨rfl, rfl, rfl, rfl, rfl, rfl, rfl, rfl, rfl, rfl, rfl, rfl, rfl, rfl, rfl, rfl, rfl, rfl, rfl, rfl, rfl, rfl,
    fun _ => rfl, ⟨rfl, rfl⟩, rfl, sameMemory_of_eq ?_ ?_ ?_, ?_⟩ <;> simp [sameOthers]

/-- A scalar instruction that raises a precise trap on route H, TRAP apart, enters the handler at its own head (R395, R415). -/
theorem retire_precise_enters {s : State} {c k : Nat} (v : Word) (hm : s.cur.trap.hm = false) (hv : s.cur.trap.tvec ≠ 0)
    (hc : onH (mkCause c k) = true) (h1 : (mkCause c k).code ≠ 0x01) :
    ∃ t, retire (precise c k v s) = .next t ∧ enteredPrecise s t (mkCause c k) v s.cur.pc := by
  refine ⟨_, retire_precise c k v s, ?_⟩
  have h := takeTrap_enteredPrecise (s := s.unwaited) v hm hv hc
  rw [if_neg h1] at h
  exact h

/-! ### A fault in handler mode -/

theorem raiseMsix_cur (s : State) (m v : Nat) : (raiseMsix s m v).cur = s.cur := State.onMod_cur _ _ _

theorem putErr_cur (s : State) (m q : Nat) (r : ErrRec) : (putErr s m q r).cur = s.cur := by
  unfold putErr
  split
  · rfl
  · split
    · rw [raiseMsix_cur, State.onMod_cur]
    · simp only
      split
      · rw [raiseMsix_cur, State.onMod_cur]
      · exact State.onMod_cur _ _ _

theorem writeErr_cur (s : State) (m q : Nat) (r : ErrRec) : (writeErr s m q r).cur = s.cur := by
  unfold writeErr
  split
  · rfl
  · split <;> simp only <;> split <;> simp [putErr_cur]

theorem reportErr_cur (s : State) (h : Hart) : (reportErr s h).cur = s.cur := by
  unfold reportErr
  split
  · rfl
  · unfold reportRec
    split
    · rfl
    · split
      · exact writeErr_cur _ _ _ _
      · split
        · exact writeErr_cur _ _ _ _
        · rfl

/-- The hart that the firmware route saves in place (R405). -/
theorem firmwareRoute_cur (s : State) (t : Trap) : (firmwareRoute s t).cur = ((s.markLeft s.cur).await t).refaulted := by
  unfold firmwareRoute
  exact reportErr_cur _ _

/-- An abort ends the acting hart or leaves it (R478). -/
theorem abortLaunch_cur (s : State) (m l status detail rank : Nat) :
    (abortLaunch s m l status detail rank).cur = s.cur ∨ (abortLaunch s m l status detail rank).cur = s.cur.finish := by
  unfold abortLaunch
  split
  · exact .inl rfl
  · split
    · exact .inl rfl
    · simp only [State.endRanks, discardLaunch, State.onHarts, State.onLaunch_cur]
      split
      · exact .inr rfl
      · exact .inl rfl

/-- The hart of a trap in handler mode is recorded with cause 0x12 and its registers stay (R397, R405). -/
theorem takeTrap_handlerMode_keeps {s : State} {x : Trap} (hm : s.cur.trap.hm = true) :
    (takeTrap s x).cur.trap.cause = ⟨0x12, x.cause.code⟩ ∧ (takeTrap s x).cur.trap.tval = BitVec.ofNat 64 x.cause.code.toNat ∧
      (takeTrap s x).cur.atp = s.cur.atp ∧ sameG s (takeTrap s x) ∧ sameVec s (takeTrap s x) := by
  have key : ∀ h : Hart, h = ((s.markLeft s.cur).await ⟨⟨0x12, x.cause.code⟩, BitVec.ofNat 64 x.cause.code.toNat, x.imp⟩).refaulted →
      h.trap.cause = ⟨0x12, x.cause.code⟩ ∧ h.trap.tval = BitVec.ofNat 64 x.cause.code.toNat ∧ h.atp = s.cur.atp ∧ h.g = s.cur.g ∧
        h.vec = s.cur.vec ∧ h.mask = s.cur.mask := by
    rintro _ rfl
    simp [Hart.await, State.markLeft, Hart.record]
  rw [takeTrap_handlerMode hm]
  obtain ⟨hc, hv, ha, hg, hvec, hmask⟩ := key _ (firmwareRoute_cur s _)
  rcases abortLaunch_cur (firmwareRoute s ⟨⟨0x12, x.cause.code⟩, BitVec.ofNat 64 x.cause.code.toNat, x.imp⟩) s.cur.mod s.cur.id.launch
    0x03 0x12 s.cur.id.rank with h | h
  all_goals refine ⟨?_, ?_, ?_, sameG_of_eq ?_, ?_, ?_⟩ <;> rw [h] <;> assumption

end Sys2Proof.Machine
end

section
/-! PROOFS. State registers: what SRR reads and SRW writes, register by register (R6, R76 to R88, R213, R214, R394). -/

namespace Sys2Proof.Machine

/-! ### Words built of fields -/

/-- The value of two fields set side by side. -/
theorem toNat_append_eq_add {n m : Nat} (x : BitVec n) (y : BitVec m) : (x ++ y).toNat = x.toNat * 2 ^ m + y.toNat := by
  rw [BitVec.toNat_append, ← Nat.shiftLeft_add_eq_or_of_lt y.isLt, Nat.shiftLeft_eq]

/-- A flag at a position of a word contributes its bit's weight. -/
theorem ite_eq_toNat_mul (b : Bool) (k : Nat) : (if b then k else 0) = b.toNat * k := by cases b <;> simp

/-- A word is its fields when their weighted sum is its value. -/
theorem ofNat_eq_of_toNat {n : Nat} {k : Nat} {v : BitVec n} (h : v.toNat = k) : BitVec.ofNat n k = v := by
  rw [← h, BitVec.ofNat_toNat, BitVec.setWidth_eq]

/-- sr.vtype by its fields (R80). -/
theorem VCfg.word_eq (c : VCfg) : BitVec.ofNat 64 c.word =
    BitVec.ofBool c.ill ++ BitVec.ofBool c.fresh ++ (0 : BitVec 50) ++ c.nregc ++ (0 : BitVec 2) ++ c.etype ++ (0 : BitVec 4) := by
  apply ofNat_eq_of_toNat
  simp only [VCfg.word, toNat_append_eq_add, BitVec.toNat_ofBool, ite_eq_toNat_mul, BitVec.ofNat_eq_ofNat, BitVec.toNat_ofNat]
  omega

/-- sr.rowprog by its fields (R82). -/
theorem Unfinished.rowprog_eq (u : Unfinished) : BitVec.ofNat 64 u.rowprog =
    BitVec.ofBool u.valid ++ (0 : BitVec 12) ++ u.acc ++ (0 : BitVec 1) ++ u.rows ++ (0 : BitVec 8) ++ u.kdone := by
  apply ofNat_eq_of_toNat
  simp only [Unfinished.rowprog, toNat_append_eq_add, BitVec.toNat_ofBool, ite_eq_toNat_mul, BitVec.ofNat_eq_ofNat, BitVec.toNat_ofNat]
  omega

/-- sr.bcell by its fields (R83). -/
theorem Stream.cellWord_eq (b : Stream) : BitVec.ofNat 64 b.cellWord = (0 : BitVec 57) ++ BitVec.ofBool b.bound ++ b.cell := by
  apply ofNat_eq_of_toNat
  simp only [Stream.cellWord, toNat_append_eq_add, BitVec.toNat_ofBool, ite_eq_toNat_mul, BitVec.ofNat_eq_ofNat, BitVec.toNat_ofNat]
  omega

/-- sr.tstat by its fields (R394). -/
theorem TrapRegs.stat_eq (t : TrapRegs) : BitVec.ofNat 64 t.stat =
    (0 : BitVec 56) ++ BitVec.ofBool t.hm ++ BitVec.ofBool t.imp ++ BitVec.ofBool t.fpend ++ BitVec.ofBool t.pin ++ t.grnt := by
  apply ofNat_eq_of_toNat
  simp only [TrapRegs.stat, toNat_append_eq_add, BitVec.toNat_ofBool, ite_eq_toNat_mul, BitVec.ofNat_eq_ofNat, BitVec.toNat_ofNat]
  omega

/-- sr.tcause by its fields (R394). -/
theorem causeWord_eq (c : Cause) : BitVec.ofNat 64 (c.sub.toNat * 256 + c.code.toNat) = (0 : BitVec 48) ++ c.sub ++ c.code := by
  apply ofNat_eq_of_toNat
  simp only [toNat_append_eq_add, BitVec.ofNat_eq_ofNat, BitVec.toNat_ofNat]
  omega

/-- sr.tinfo by its fields (R394). -/
theorem TrapRegs.info_eq (t : TrapRegs) : t.info = (0 : BitVec 14) ++ t.elem ++ (0 : BitVec 16) ++ t.head := by
  apply ofNat_eq_of_toNat
  simp only [toNat_append_eq_add, BitVec.ofNat_eq_ofNat, BitVec.toNat_ofNat]
  omega

/-- sr.meshpos by its fields, each within its width (R85). -/
theorem State.meshpos_eq {s : State} {l : Launch} (hl : s.launch? s.cur.id.launch = some l) (hr : s.cur.id.rank < 64)
    (hs : s.cur.seat.stage < 8) (hh : s.cur.id.hidx < 8) (hg : l.pkt.hgt < 16) (hw : l.pkt.wid < 16) (hy : s.cur.id.y < 16)
    (hx : s.cur.id.x < 16) : BitVec.ofNat 64 s.meshpos =
      (0 : BitVec 34) ++ BitVec.ofNat 6 s.cur.id.rank ++ (0 : BitVec 1) ++ BitVec.ofNat 3 s.cur.seat.stage ++ (0 : BitVec 1) ++
        BitVec.ofNat 3 s.cur.id.hidx ++ BitVec.ofNat 4 l.pkt.hgt ++ BitVec.ofNat 4 l.pkt.wid ++ BitVec.ofNat 4 s.cur.id.y ++
        BitVec.ofNat 4 s.cur.id.x := by
  apply ofNat_eq_of_toNat
  simp only [State.meshpos, hl, toNat_append_eq_add, BitVec.ofNat_eq_ofNat, BitVec.toNat_ofNat]
  omega

/-- LEFT is at most what the notice holds (R84). -/
theorem State.leftOf_lt (s : State) (h : Hart) : s.leftOf h < 2 ^ 32 := by
  unfold State.leftOf
  have := h.notice.left.isLt
  split <;> omega

/-- A word whose bit 63 is PEND and whose low bits are LEFT is sr.notice (R84). -/
theorem noticeWord_eq {b : Bool} {k : Nat} {v : Word} (hk : k < 2 ^ 63) (hb : v.toNat / 2 ^ 63 = 1 ↔ b = true) (hv : v.toNat % 2 ^ 63 = k) :
    BitVec.ofNat 64 ((if b then 2 ^ 63 else 0) + k) = v := by
  apply ofNat_eq_of_toNat
  have hlt := v.isLt
  have hbit : v.toNat / 2 ^ 63 = b.toNat := by
    cases b with
    | true => exact hb.mpr rfl
    | false =>
      have : v.toNat / 2 ^ 63 ≠ 1 := fun e => Bool.false_ne_true (hb.mp e)
      simp only [Bool.toNat_false]
      omega
  rw [ite_eq_toNat_mul]
  omega

/-! ### Reading a state register -/

/-- A register that reads as R77 to R87 and R394 give it is what the machine reads there. -/
theorem readSr_of_srValue {s : State} {n : Nat} {v : Word} (h : srValue s n v) : s.readSr n = some v := by
  have low : ∀ {k : Nat}, v.toNat = k % 2 ^ 64 → BitVec.ofNat 64 k = v := fun {k} e =>
    BitVec.eq_of_toNat_eq (by rw [BitVec.toNat_ofNat, e])
  rcases h with ⟨rfl, rfl⟩ | ⟨rfl, rfl⟩ | ⟨rfl, hv⟩ | ⟨rfl, hv⟩ | ⟨rfl, hv⟩ | ⟨rfl, rfl⟩ | ⟨rfl, rfl⟩ | ⟨rfl, rfl⟩ | ⟨rfl, hb, hv⟩ |
    ⟨rfl, l, hl, hr, hs, hh, hg, hw, hy, hx, rfl⟩ | ⟨rfl, hv⟩ | ⟨rfl, hv⟩ | ⟨rfl, rfl⟩ | ⟨rfl, rfl⟩ | ⟨rfl, rfl⟩ | ⟨rfl, rfl⟩ |
    ⟨rfl, rfl⟩ | ⟨rfl, rfl⟩ | ⟨rfl, rfl⟩ | ⟨rfl, rfl⟩ | ⟨rfl, rfl⟩ | ⟨rfl, rfl⟩ | ⟨rfl, rfl⟩ | ⟨h1, h2, rfl⟩
  · exact congrArg some (BitVec.ofNat_toNat _ _)
  · exact congrArg some (VCfg.word_eq _)
  · exact congrArg some (low hv)
  · exact congrArg some (low hv)
  · exact congrArg some (low (by omega))
  · exact congrArg some (Unfinished.rowprog_eq _)
  · exact congrArg some (BitVec.ofNat_toNat _ _)
  · exact congrArg some (Stream.cellWord_eq _)
  · exact congrArg some (noticeWord_eq (by have := s.leftOf_lt s.cur; omega) hb (by simpa [State.leftOf] using hv))
  · exact congrArg some (State.meshpos_eq hl hr hs hh hg hw hy hx)
  · exact congrArg some (low hv)
  · exact congrArg some (low hv)
  · exact congrArg some (BitVec.ofNat_toNat _ _)
  · rfl
  · rfl
  · exact congrArg some (TrapRegs.stat_eq _)
  · rfl
  · exact congrArg some (causeWord_eq _)
  · rfl
  · exact congrArg some (TrapRegs.info_eq _)
  · rfl
  · rfl
  · rfl
  · interval_cases n <;> rfl

/-- A number that no rule assigns names no register (R78). -/
theorem readSr_unassigned (s : State) {n : Nat} (h : n = 0x00E ∨ n = 0x00F ∨ 0x020 ≤ n) : s.readSr n = none := by
  rcases h with rfl | rfl | h
  · rfl
  · rfl
  · unfold State.readSr
    split
    case h_31 => rfl
    all_goals omega

/-- Every assigned number names a register (R77, R394). -/
theorem readSr_assigned (s : State) {n : Nat} (h : n ≤ 0x00D ∨ (0x010 ≤ n ∧ n ≤ 0x01F)) : ∃ v, s.readSr n = some v := by
  rcases h with h | ⟨h1, h2⟩
  · interval_cases n <;> exact ⟨_, rfl⟩
  · interval_cases n <;> exact ⟨_, rfl⟩

/-! ### SRR -/

theorem exec_srr_assigned {p : L} {s : State} {v : Word} (hp : s.clean = true) (hr : s.readSr (p.imm.toNat % 4096) = some v) :
    exec (.srr p) s = .next (s.setG (gd p.d) v).completed := by
  have hg : s.poisonedSr (p.imm.toNat % 4096) = false := by
    simp [State.poisonedSr, List.isEmpty_iff.mp hp]
  change execSrr p s = _
  simp [execSrr, hr, hg, State.setD]

theorem exec_srr_unassigned {p : L} {s : State} (hr : s.readSr (p.imm.toNat % 4096) = none) :
    exec (.srr p) s = retire (precise 0x03 0x0A 0 s) := by
  change execSrr p s = _
  simp [execSrr, hr]

theorem stateRegisterReads : StateRegisterReads := by
  refine ⟨fun p s v hn hp hv => ⟨exec_srr_assigned hp ?_, onlyWrites_setG_completed s _ v⟩, fun p s hn hm ht => ?_⟩
  · rw [Nat.mod_eq_of_lt hn]
    exact readSr_of_srValue hv
  · rw [exec_srr_unassigned (readSr_unassigned s (by omega))]
    exact retire_precise_enters 0 hm ht (by decide) (by decide)

/-! ### Fields of a written word -/

/-- A bit of a word, its field [lo + w − 1 : lo] cleared. -/
theorem testBit_setBits_zero (n lo w i : Nat) : (setBits n lo w 0).testBit i = (n.testBit i && !decide (lo ≤ i ∧ i < lo + w)) := by
  have one : ∀ m, bits m i 1 = 1 ↔ m.testBit i = true := fun m => by
    simp [bits, Nat.testBit_eq_decide_div_mod_eq]
  by_cases hi : lo ≤ i ∧ i < lo + w
  · obtain ⟨k, rfl⟩ := Nat.exists_eq_add_of_le hi.1
    have hz : setBits n lo w 0 / 2 ^ lo % 2 ^ w = 0 := by
      have := bits_setBits_self n lo w 0
      rwa [Nat.zero_mod] at this
    have hb : (setBits n lo w 0 / 2 ^ lo % 2 ^ w).testBit k = (setBits n lo w 0).testBit (lo + k) := by
      rw [Nat.testBit_mod_two_pow, Nat.testBit_div_two_pow, Nat.add_comm k lo, decide_eq_true (by omega : k < w), Bool.true_and]
    rw [← hb, hz, Nat.zero_testBit, decide_eq_true hi, Bool.not_true, Bool.and_false]
  · have hs : bits (setBits n lo w 0) i 1 = bits n i 1 := bits_setBits_other n lo w 0 i 1 (by omega)
    rw [decide_eq_false hi, Bool.not_false, Bool.and_true, Bool.eq_iff_iff, ← one, ← one, hs]

/-- Clearing a field of a word is masking it out. -/
theorem clearField_eq {c : Word} (v : Word) (lo w : Nat) (hc : ∀ i : Fin 64, c.getLsbD i = decide (lo ≤ i.val ∧ i.val < lo + w)) :
    BitVec.ofNat 64 (setBits v.toNat lo w 0) = v &&& ~~~c := by
  apply BitVec.eq_of_getLsbD_eq
  intro i hi
  rw [BitVec.getLsbD_ofNat, testBit_setBits_zero, BitVec.getLsbD_and, BitVec.getLsbD_not, hc ⟨i, hi⟩, BitVec.testBit_toNat]
  simp [hi]

/-- What SRW writes to sr.atp: the operand, its reserved bits zero (R88). -/
theorem atpWord_eq (v : Word) : BitVec.ofNat 64 (setBits v.toNat 40 4 0) = v &&& ~~~(0xF0000000000 : Word) :=
  clearField_eq v 40 4 (by decide)

/-- What SRW writes to sr.tvec: the operand, bit 0 zero (R394). -/
theorem tvecWord_eq (v : Word) : BitVec.ofNat 64 (v.toNat / 2 * 2) = v &&& ~~~(1 : Word) := by
  rw [← clearField_eq v 0 1 (by decide)]
  congr 1
  simp only [setBits]
  omega

/-- A field of a word as a division gives it. -/
theorem ofNat_div_eq_extract (n k : Nat) (v : Word) : BitVec.ofNat n (v.toNat / 2 ^ k) = v.extractLsb' k n := by
  rw [BitVec.extractLsb', Nat.shiftRight_eq_div_pow]

theorem bits_toNat_eq_extract (v : Word) (lo w : Nat) : bits v.toNat lo w = (v.extractLsb' lo w).toNat := by
  rw [BitVec.extractLsb'_toNat, Nat.shiftRight_eq_div_pow]
  rfl

theorem bit_toNat_eq_getLsbD (v : Word) (i : Nat) : bit v.toNat i = v.getLsbD i := by
  rw [← BitVec.testBit_toNat, Nat.testBit_eq_decide_div_mod_eq]
  rfl

/-- sr.atp takes an operand whose MODE is 0xA (R88). -/
theorem atpMode_iff (v : Word) : bits v.toNat 60 4 ≠ 0xA ↔ v.extractLsb' 60 4 ≠ 0xA := by
  rw [bits_toNat_eq_extract, ne_eq, ne_eq, not_iff_not]
  exact ⟨fun h => BitVec.eq_of_toNat_eq h, fun h => by rw [h]; rfl⟩

/-! ### The registers that handler mode writes -/

/-- A handler-only register that cannot be written stays (R77, R394). -/
theorem Hart.writeTrap_of_not_writable {h : Hart} {n : Nat} (v : Word) (hw : h.writable n = false) : h.writeTrap n v = h := by
  unfold Hart.writable at hw
  unfold Hart.writeTrap
  split at hw
  · rename_i hn
    have hq : h.vq.isEmpty = true := by simpa using hw
    rcases hn with rfl | rfl <;> simp [hq]
  · simp only [Bool.or_eq_false_iff, Bool.and_eq_false_iff, decide_eq_false_iff_not] at hw
    split
    case h_11 => rfl
    all_goals omega

/-- A write of a register from sr.tvec on changes the trap registers alone (R394). -/
theorem Hart.writeTrap_trapOnly (h : Hart) {n : Nat} (v : Word) (hn : 0x010 ≤ n) :
    h.writeTrap n v = { h with trap := (h.writeTrap n v).trap } := by
  unfold Hart.writeTrap
  split
  case h_1 | h_2 => omega
  all_goals rfl

/-- sr.estart takes the low 18 bits while an instruction is unfinished (R82, log 22, log 44). -/
theorem Hart.writeTrap_estart {h : Hart} (v : Word) (hq : h.vq ≠ []) :
    h.writeTrap 0x004 v = { h with unf := { h.unf with estart := v.toNat % 2 ^ 18 } } := by
  simp [Hart.writeTrap, hq]

/-- sr.rowprog takes its fields while an instruction is unfinished (R82, log 44). -/
theorem Hart.writeTrap_rowprog {h : Hart} (v : Word) (hq : h.vq ≠ []) :
    h.writeTrap 0x005 v = { h with unf := { h.unf with
      valid := v.getLsbD 63, acc := v.extractLsb' 48 3, rows := v.extractLsb' 40 7, kdone := v.setWidth 32 } } := by
  simp only [Hart.writeTrap, List.isEmpty_iff, if_neg hq, bit_toNat_eq_getLsbD, ofNat_div_eq_extract, BitVec.ofNat_toNat]

/-- The trap registers that a write in handler mode leaves (R394). -/
theorem Hart.writeTrap_trap (h : Hart) (v : Word) :
    (h.writeTrap 0x010 v).trap = { h.trap with tvec := v &&& ~~~(1 : Word) } ∧ (h.writeTrap 0x011 v).trap = h.trap ∧
    (h.writeTrap 0x012 v).trap = { h.trap with tepc := v } ∧
    (h.writeTrap 0x013 v).trap = { h.trap with cause := ⟨v.setWidth 8, v.extractLsb' 8 8⟩ } ∧
    (h.writeTrap 0x014 v).trap = { h.trap with tval := v } ∧
    (h.writeTrap 0x015 v).trap = { h.trap with elem := v.extractLsb' 32 18, head := v.setWidth 16 } ∧
    (h.writeTrap 0x016 v).trap = { h.trap with tvpc := v } ∧ (h.writeTrap 0x017 v).trap = { h.trap with scr0 := v } ∧
    (h.writeTrap 0x018 v).trap = { h.trap with scr1 := v } := by
  have h256 : BitVec.ofNat 8 (v.toNat / 256) = v.extractLsb' 8 8 := ofNat_div_eq_extract 8 8 v
  refine ⟨?_, rfl, rfl, ?_, rfl, ?_, rfl, rfl, rfl⟩
  · simp only [Hart.writeTrap, tvecWord_eq]
  · simp only [Hart.writeTrap, h256, BitVec.ofNat_toNat]
  · simp only [Hart.writeTrap, ofNat_div_eq_extract, BitVec.ofNat_toNat]

/-- A write of a reserved trap register has no effect (R394). -/
theorem Hart.writeTrap_reserved (h : Hart) {n : Nat} (v : Word) (hn : 0x019 ≤ n) : h.writeTrap n v = h := by
  refine Hart.writeTrap_of_not_writable v ?_
  unfold Hart.writable
  rw [if_neg (by omega)]
  simp only [Bool.or_eq_false_iff, Bool.and_eq_false_iff, decide_eq_false_iff_not]
  omega

/-! ### Tiles claimed and released -/

/-- A claim below what the hart holds gives up the highest tiles (R86). -/
theorem claim_accs_of_le {s : State} {v : Word} (h : min 8 (v.toNat % 16) ≤ s.cur.accs.length) :
    (s.claim v).cur.accs = s.cur.accs.take (min 8 (v.toNat % 16)) := by
  unfold State.claim
  dsimp only
  split
  · rename_i hge
    have he : min 8 (v.toNat % 16) = s.cur.accs.length := Nat.le_antisymm h hge
    simp [he, Hart.acnt]
  · rfl

/-- A claim above it takes fresh tiles, as many as the core has free (R76, R86). -/
theorem claim_accs_of_ge {s : State} {v : Word} (h : s.cur.accs.length ≤ min 8 (v.toNat % 16)) :
    (s.claim v).cur.accs = s.cur.accs ++ List.replicate
      (min (min 8 (v.toNat % 16)) (s.cur.accs.length + (8 - s.tilesHeld s.cur.mod s.cur.seat.core)) - s.cur.accs.length) Acc.fresh := by
  unfold State.claim
  exact if_pos h

/-- A claim takes fresh tiles or gives up the highest, and leaves the rest (R76, R86). -/
theorem claim_claims (s : State) (v : Word) :
    (min 8 (v.toNat % 16) ≤ s.cur.accs.length → (s.claim v).cur.accs = s.cur.accs.take (min 8 (v.toNat % 16))) ∧
    (s.cur.accs.length ≤ min 8 (v.toNat % 16) →
      (s.claim v).cur.accs.length =
          min (min 8 (v.toNat % 16)) (s.cur.accs.length + (8 - s.tilesHeld s.cur.mod s.cur.seat.core)) ∧
        (s.claim v).cur.accs.take s.cur.accs.length = s.cur.accs ∧
        ∀ a ∈ (s.claim v).cur.accs.drop s.cur.accs.length, a = Acc.fresh) := by
  refine ⟨claim_accs_of_le, fun h => ?_⟩
  rw [claim_accs_of_ge h]
  refine ⟨?_, List.take_left, fun a ha => ?_⟩
  · rw [List.length_append, List.length_replicate]
    omega
  · rw [List.drop_left] at ha
    exact (List.mem_replicate.mp ha).2

/-! ### SRW by the access code of its register -/

/-- The state with another acting hart and another poison. -/
def State.withHart (s : State) (q : List SramWord) (h : Hart) : State := { s with poison := q, cur := h }

@[simp] theorem State.withHart_cur (s : State) (q : List SramWord) (h : Hart) : (s.withHart q h).cur = h := rfl

theorem sameMemory_withHart_completed (s : State) (q : List SramWord) (h : Hart) : sameMemory s (s.withHart q h).completed :=
  sameMemory_of_eq rfl rfl rfl

theorem exec_srw_aflags {p : L} (s : State) (hp : p.imm = 0x00B) : exec (.srw p) s =
    .next ({ s with cur := { s.cur with aflags := clearFlags s.cur.aflags (s.src p.a) } } : State).completed := by
  change execSrw p s = _
  simp [execSrw, hp, State.readSr]

theorem exec_srw_aclaim {p : L} (s : State) (hp : p.imm = 0x00A) : exec (.srw p) s =
    retire (if s.cur.frozen then .ok ((s.claim (s.src p.a)).coverSr [0x00A])
      else afterQueue s (.ok ((s.claim (s.src p.a)).coverSr [0x00A]))) := by
  change execSrw p s = _
  simp [execSrw, hp, State.readSr]

/-- Outside handler mode a write of any other assigned register is discarded (R6, R77, R78). -/
theorem exec_srw_discarded {p : L} {s : State} (hm : s.cur.trap.hm = false) (hA : p.imm ≠ 0x00A) (hB : p.imm ≠ 0x00B)
    (hn : p.imm.toNat ≤ 0x00D ∨ (0x010 ≤ p.imm.toNat ∧ p.imm.toNat ≤ 0x01F)) : exec (.srw p) s = .next s.completed := by
  obtain ⟨w, hw⟩ := readSr_assigned s hn
  have hmod : p.imm.toNat % 4096 = p.imm.toNat := by omega
  have hA' : p.imm.toNat ≠ 0x00A := fun e => hA (BitVec.eq_of_toNat_eq e)
  have hB' : p.imm.toNat ≠ 0x00B := fun e => hB (BitVec.eq_of_toNat_eq e)
  change execSrw p s = _
  simp [execSrw, hmod, hw, hm, hA', hB']

theorem exec_srw_atp {p : L} {s : State} (hm : s.cur.trap.hm = true) (hp : p.imm = 0x00C) : exec (.srw p) s =
    retire (if bits (s.src p.a).toNat 60 4 ≠ 0xA then precise 0x03 0x09 0 s
      else if s.nodesPending then .stall s
      else afterQueue s (s.afterStores fun t =>
        .ok { t.coverSr [0x00C] with cur := { t.cur with atp := BitVec.ofNat 64 (setBits (s.src p.a).toNat 40 4 0) } })) := by
  change execSrw p s = _
  simp [execSrw, hp, State.readSr, hm]

/-- In handler mode a write of an assigned register that is none of sr.aclaim, sr.aflags and sr.atp writes what of it is writable
and completes (R77, R394). -/
theorem exec_srw_handlerMode {p : L} {s : State} (hm : s.cur.trap.hm = true)
    (hn : p.imm.toNat ≤ 0x009 ∨ p.imm.toNat = 0x00D ∨ (0x010 ≤ p.imm.toNat ∧ p.imm.toNat ≤ 0x01F)) :
    ∃ q, exec (.srw p) s = .next (s.withHart q (s.cur.writeTrap p.imm.toNat (s.src p.a))).completed := by
  obtain ⟨w, hw⟩ := readSr_assigned s (n := p.imm.toNat) (by omega)
  have hmod : p.imm.toNat % 4096 = p.imm.toNat := by omega
  change ∃ q, execSrw p s = _
  have heq : execSrw p s = retire (if s.cur.writable p.imm.toNat then
      .ok { s.coverSr [p.imm.toNat] with cur := s.cur.writeTrap p.imm.toNat (s.src p.a) } else .ok s) := by
    simp only [execSrw, hmod, hw, hm]
    rw [if_neg (by omega), if_neg (by omega), if_neg (by simp), if_neg (by omega)]
  rw [heq]
  cases hwr : s.cur.writable p.imm.toNat with
  | true =>
    refine ⟨(s.coverSr [p.imm.toNat]).poison, ?_⟩
    rw [if_pos rfl, retire_ok]
    unfold State.coverSr
    split <;> rfl
  | false =>
    refine ⟨s.poison, ?_⟩
    rw [if_neg Bool.false_ne_true, retire_ok, Hart.writeTrap_of_not_writable _ hwr]
    rfl

/-- sr.aclaim is written once nothing older of the vector queue is left, or at once under a frozen queue (R76, R415, log 30). -/
theorem exec_srw_aclaim_made {p : L} {s : State} (hp : p.imm = 0x00A) (hq : s.cur.vq = [] ∨ s.cur.frozen = true) :
    exec (.srw p) s = .next ((s.claim (s.src p.a)).coverSr [0x00A]).completed := by
  rw [exec_srw_aclaim s hp]
  rcases hq with hq | hf
  · simp [afterQueue, hq]
  · simp [hf]

theorem exec_srw_atp_mode {p : L} {s : State} (hm : s.cur.trap.hm = true) (hp : p.imm = 0x00C)
    (hmode : (s.src p.a).extractLsb' 60 4 = 0xA) : exec (.srw p) s =
    retire (if s.nodesPending then .stall s
      else afterQueue s (s.afterStores fun t =>
        .ok { t.coverSr [0x00C] with cur := { t.cur with atp := (s.src p.a) &&& ~~~(0xF0000000000 : Word) } })) := by
  rw [exec_srw_atp hm hp, if_neg (by rw [atpMode_iff]; exact not_not.mpr hmode)]
  simp only [atpWord_eq]

/-- W1C: sr.aflags loses the flags written as 1 (R6, R87). -/
theorem srw_aflags_clears {p : L} (s : State) (hp : p.imm = 0x00B) : ∃ t, exec (.srw p) s = .next t ∧
    (∀ k, k < 9 → t.cur.aflags.getLsbD k = (s.cur.aflags.getLsbD k && !(s.src p.a).getLsbD k)) ∧ sameG s t ∧ sameVec s t ∧
      sameSpecial s t ∧ sameMemory s t := by
  refine ⟨_, exec_srw_aflags s hp, fun k hk => ?_, sameG_of_eq rfl, ⟨rfl, rfl⟩, by simp [sameSpecial], sameMemory_of_eq rfl rfl rfl⟩
  simp [clearFlags, hk]

/-- A write of sr.atp whose MODE is 0xA, with nothing left to wait for, is made (R76, R88, R128). -/
theorem srw_atp_written {p : L} {s : State} (hm : s.cur.trap.hm = true) (hp : p.imm = 0x00C)
    (hmode : (s.src p.a).extractLsb' 60 4 = 0xA) (hnodes : s.nodesPending = false) (hq : s.cur.vq = []) (hst : s.stuck = none) :
    ∃ t, exec (.srw p) s = .next t ∧ t.cur.atp = (s.src p.a) &&& ~~~(0xF0000000000 : Word) ∧ sameG s t ∧ sameVec s t ∧ sameFlags s t ∧
      t.cur.trap = s.cur.trap := by
  obtain ⟨r, hr⟩ := keepsHart_settle s
  refine ⟨({ s.settle.coverSr [0x00C] with
    cur := { s.settle.cur with atp := (s.src p.a) &&& ~~~(0xF0000000000 : Word) } } : State).completed, ?_, ?_⟩
  · rw [exec_srw_atp_mode hm hp hmode]
    simp [hnodes, afterQueue, hq, State.afterStores, hst]
  · refine ⟨rfl, sameG_of_eq ?_, ⟨?_, ?_⟩, ?_, ?_⟩ <;> simp [hr, sameFlags]

/-- An sr.atp of another MODE is a second fault (R88, R397, log 24). -/
theorem srw_atp_faults {p : L} {s : State} (hm : s.cur.trap.hm = true) (hp : p.imm = 0x00C)
    (hmode : (s.src p.a).extractLsb' 60 4 ≠ 0xA) : ∃ t, exec (.srw p) s = .next t ∧
    t.cur.trap.cause = ⟨0x12, 0x03⟩ ∧ t.cur.trap.tval = 3 ∧ t.cur.atp = s.cur.atp ∧ sameG s t ∧ sameVec s t := by
  have he : exec (.srw p) s = .next (takeTrap s.unwaited ⟨mkCause 0x03 0x09, 0, false⟩) := by
    rw [exec_srw_atp hm hp, if_pos ((atpMode_iff _).mpr hmode), retire_precise]
  exact ⟨_, he, takeTrap_handlerMode_keeps (s := s.unwaited) hm⟩

/-- In handler mode with an unfinished instruction sr.estart is written (R82). -/
theorem srw_estart_written {p : L} {s : State} (hm : s.cur.trap.hm = true) (hq : s.cur.vq ≠ []) (hp : p.imm = 0x004) :
    ∃ q, exec (.srw p) s =
      .next (s.withHart q { s.cur with unf := { s.cur.unf with estart := (s.src p.a).toNat % 2 ^ 18 } }).completed := by
  obtain ⟨q, h⟩ := exec_srw_handlerMode (p := p) hm (by rw [hp]; decide)
  rw [hp, show (0x004 : BitVec 16).toNat = 0x004 from rfl, Hart.writeTrap_estart _ hq] at h
  exact ⟨q, h⟩

/-- In handler mode with an unfinished instruction sr.rowprog is written (R82). -/
theorem srw_rowprog_written {p : L} {s : State} (hm : s.cur.trap.hm = true) (hq : s.cur.vq ≠ []) (hp : p.imm = 0x005) :
    ∃ q, exec (.srw p) s = .next (s.withHart q { s.cur with unf := { s.cur.unf with
      valid := (s.src p.a).getLsbD 63, acc := (s.src p.a).extractLsb' 48 3, rows := (s.src p.a).extractLsb' 40 7,
      kdone := (s.src p.a).setWidth 32 } }).completed := by
  obtain ⟨q, h⟩ := exec_srw_handlerMode (p := p) hm (by rw [hp]; decide)
  rw [hp, show (0x005 : BitVec 16).toNat = 0x005 from rfl, Hart.writeTrap_rowprog _ hq] at h
  exact ⟨q, h⟩

/-- In handler mode a write of a register that is not writable has no effect (R77, log 44). -/
theorem srw_unwritable {p : L} {s : State} (hm : s.cur.trap.hm = true)
    (hn : (p.imm.toNat ≤ 0x003 ∨ (0x006 ≤ p.imm.toNat ∧ p.imm.toNat ≤ 0x009) ∨ p.imm = 0x00D) ∨
      (s.cur.vq = [] ∧ (p.imm = 0x004 ∨ p.imm = 0x005))) :
    ∃ q, exec (.srw p) s = .next (s.withHart q s.cur).completed := by
  have toNat : ∀ {k : BitVec 16}, p.imm = k → p.imm.toNat = k.toNat := fun e => by rw [e]
  have hn' : (p.imm.toNat ≤ 0x003 ∨ (0x006 ≤ p.imm.toNat ∧ p.imm.toNat ≤ 0x009) ∨ p.imm.toNat = 0x00D) ∨
      (s.cur.vq = [] ∧ (p.imm.toNat = 0x004 ∨ p.imm.toNat = 0x005)) :=
    hn.imp (.imp_right (.imp_right toNat)) (.imp_right (.imp toNat toNat))
  obtain ⟨q, h⟩ := exec_srw_handlerMode (p := p) hm (by omega)
  have hw : s.cur.writable p.imm.toNat = false := by
    unfold Hart.writable
    split
    · rcases hn' with hn' | ⟨hq, -⟩
      · omega
      · simp [hq]
    · simp only [Bool.or_eq_false_iff, Bool.and_eq_false_iff, decide_eq_false_iff_not]
      omega
  rw [Hart.writeTrap_of_not_writable _ hw] at h
  exact ⟨q, h⟩

/-- In handler mode a write of a register from sr.tvec on changes at most the trap registers (R394). -/
theorem srw_trapReg_written {p : L} {s : State} (hm : s.cur.trap.hm = true) (h1 : 0x010 ≤ p.imm.toNat) (h2 : p.imm.toNat ≤ 0x01F) :
    ∃ q, exec (.srw p) s =
      .next (s.withHart q { s.cur with trap := (s.cur.writeTrap p.imm.toNat (s.src p.a)).trap }).completed := by
  obtain ⟨q, h⟩ := exec_srw_handlerMode (p := p) hm (.inr (.inr ⟨h1, h2⟩))
  rw [Hart.writeTrap_trapOnly s.cur _ h1] at h
  exact ⟨q, h⟩

theorem stateRegisterWrites : StateRegisterWrites := by
  refine ⟨fun p s hp => srw_aflags_clears s hp, fun p s hp hq => ?_, fun p s hm hA hB hn => exec_srw_discarded hm hA hB hn,
    fun p s hm hp hmode hnodes hq hst => srw_atp_written hm hp hmode hnodes hq hst,
    fun p s hm hq hp => ?_, fun p s hm hq hp => ?_, fun p s hm hn => ?_, fun p s hp hq hf => ?_,
    fun p s hm hp hmode => ⟨fun hw => ?_, fun k hnodes hq hst => ?_⟩,
    fun p s hm hp hmode => srw_atp_faults hm hp hmode, fun p s hm h1 h2 => ?_⟩
  · refine ⟨_, exec_srw_aclaim_made hp hq, ?_, sameG_of_eq ?_, ⟨?_, ?_⟩, ?_, ?_, ?_, sameMemory_of_eq ?_ ?_ ?_⟩
    · simpa using claim_claims s (s.src p.a)
    all_goals simp [State.claim, sameFlags]
  · obtain ⟨q, h⟩ := srw_estart_written hm hq hp
    exact ⟨_, h, by simp, sameG_of_eq (by simp), by simp [sameVec], by simp [sameSpecial], by simp [sameFlags]⟩
  · obtain ⟨q, h⟩ := srw_rowprog_written hm hq hp
    exact ⟨_, h, by simp, sameG_of_eq (by simp), by simp [sameVec], by simp [sameSpecial], by simp [sameFlags]⟩
  · obtain ⟨q, h⟩ := srw_unwritable hm (by tauto)
    exact ⟨_, h, by simp, by simp, sameG_of_eq (by simp), by simp [sameVec], by simp [sameSpecial], by simp [sameFlags],
      sameMemory_withHart_completed _ _ _⟩
  · rw [exec_srw_aclaim s hp]
    simp [hf, afterQueue, hq]
  · rw [exec_srw_atp_mode hm hp hmode]
    rcases hw with hnodes | hq
    · simp [hnodes]
    · cases hnodes : s.nodesPending <;> simp [afterQueue, hq]
  · rw [exec_srw_atp_mode hm hp hmode]
    simp [hnodes, afterQueue, hq, State.afterStores, hst]
  · obtain ⟨q, h⟩ := srw_trapReg_written hm h1 h2
    obtain ⟨w0, w1, w2, w3, w4, w5, w6, w7, w8⟩ := s.cur.writeTrap_trap (s.src p.a)
    refine ⟨_, h, by simp, sameG_of_eq (by simp), by simp [sameVec], by simp [sameFlags], sameMemory_withHart_completed _ _ _, ?_⟩
    simp only [State.completed_cur_trap, State.withHart_cur]
    refine ⟨fun e => ?_, fun e => ?_, fun e => ?_, fun e => ?_, fun e => ?_, fun e => ?_, fun e => ?_, fun e => ?_, fun e => ?_,
      fun hn => by rw [Hart.writeTrap_reserved _ _ hn]⟩
    all_goals
      rw [e]
      assumption

/-- Settles O20, register by register: SRR's words by their fields, and SRW by the access code of each register. -/
theorem stateRegisterResults : Obligations.StateRegisterResults := ⟨stateRegisterReads, stateRegisterWrites⟩

end Sys2Proof.Machine
end

section
/-! PROOFS. Storage checks, the test port, attestation, resets, power and temperature (R6, R373 to R377, R411 to R413, R454 to R459). -/

namespace Sys2Proof.Machine

/-! ### Storage checks (R454 to R459) -/

section
variable {s : State} {m : Nat} {w : SramWord} {dom : Nat} (hw : s.holder m w = some (m, dom)) (hr : s.modRuns m = true)
include hw hr

theorem patrolSweep_clean : gives (.patrolSweep m w .clean) s s := by
  change execPatrolSweep m w .clean s = _
  simp [execPatrolSweep, hw, hr]

theorem patrolSweep_corrected :
    gives (.patrolSweep m w .corrected) s (s.onMod m (fun y => y.countSram (structCode w) false)) := by
  change execPatrolSweep m w .corrected s = _
  simp [execPatrolSweep, hw, hr]

theorem patrolSweep_refills (pa : Nat) {t : State} (hb : s.wordBad w = false) (ht : s.refill m w = some t) :
    gives (.patrolSweep m w (.uncorrectable pa)) s
      (t.onMod m (fun y => y.countSram (structCode w) (decide (structCode w ≠ 4)))) := by
  change execPatrolSweep m w (.uncorrectable pa) s = _
  simp [execPatrolSweep, hw, hr, hb, ht]

theorem patrolSweep_poisons (pa : Nat) (hb : s.wordBad w = false) (ht : s.refill m w = none) :
    gives (.patrolSweep m w (.uncorrectable pa)) s ((s.poisonWord w).onMod m (fun y =>
      (y.countSram (structCode w) true).logSram (structCode w) dom (Config.solWordOf (dom :: wordKey w)))) := by
  change execPatrolSweep m w (.uncorrectable pa) s = _
  simp [execPatrolSweep, hw, hr, hb, ht]

end

/-! ### The test port and the freeze (R411, R412) -/

theorem powered_of_mod? {s : State} {m : Nat} {x : Module} (h : s.mod? m = some x) (hp : x.power ≠ .d3cold) : s.powered m = true := by
  simp [State.powered, h, hp]

/-- A freeze stops every core of its module (R411). -/
theorem modRuns_freezeModule (s : State) (m : Nat) (source : BitVec 3) : (freezeModule s m source).modRuns m = false := by
  unfold freezeModule State.modRuns
  cases hx : s.mod? m with
  | none => simp [State.onMod, hx]
  | some x =>
    rw [State.mod?_onMod_self s m _ x hx]
    cases hf : x.frozen <;> simp [hf]

/-- SOLSTAT's fields fit its word (R412). -/
theorem solstat_lt (x : Module) : x.solstat < 2 ^ 64 := by
  unfold Module.solstat
  have := x.source.isLt
  split <;> split <;> split <;> omega

section
variable {s : State} {m : Nat} {x : Module} (hx : s.mod? m = some x) (hp : x.power ≠ .d3cold)
include hx hp

theorem tapOut_eq (v : Word) : s.tapOut m v = s.onMod m (fun y => { y with tapData := v }) := by
  rw [State.tapOut, if_pos (powered_of_mod? hx hp)]

theorem mod?_tapOut (v : Word) : (s.tapOut m v).mod? m = some { x with tapData := v } := by
  rw [tapOut_eq hx hp]
  exact State.mod?_onMod_self s m _ x hx

theorem tapSolstat_reads : ∃ t x', exec (.tapSolstat m) s = .next t ∧ t.mod? m = some x' ∧ x'.tapData.toNat =
    (if x.frozen then 1 else 0) + x.source.toNat * 2 + (if x.unlock then 16 else 0) + (if x.vcoreOff then 32 else 0) := by
  refine ⟨_, _, ?_, mod?_tapOut hx hp (BitVec.ofNat 64 x.solstat), ?_⟩
  · change execTapSolstat m s = _
    simp [execTapSolstat, hx]
  · rw [BitVec.toNat_ofNat, Nat.mod_eq_of_lt (solstat_lt x)]
    rfl

theorem tapSolsel_selects (v : Word) : ∃ t x', exec (.tapSolsel m v) s = .next t ∧ t.mod? m = some x' ∧
    x'.solDomain = BitVec.ofNat 12 (v.toNat / 2 ^ 48) ∧ x'.solWord = BitVec.ofNat 40 v.toNat := by
  refine ⟨_, _, ?_, State.mod?_onMod_self s m (fun y => { y with
    solDomain := BitVec.ofNat 12 (v.toNat / 2 ^ 48), solWord := BitVec.ofNat 40 v.toNat }) x hx, rfl, rfl⟩
  change execTapSolsel m v s = _
  rw [execTapSolsel, if_pos (powered_of_mod? hx hp)]

/-- SOLDATA advances WORD and is zero under UNLOCK = 0 (R412). -/
theorem tapSoldata_advances : ∃ t x', exec (.tapSoldata m) s = .next t ∧ t.mod? m = some x' ∧ x'.solWord = x.solWord + 1 ∧
    (x.unlock = false → x'.tapData = 0) := by
  have he : ∃ v : Word, exec (.tapSoldata m) s = .next ((s.tapOut m v).draw.onMod m (fun y => { y with solWord := y.solWord + 1 })) ∧
      (x.unlock = false → v = 0) := by
    change ∃ v : Word, execTapSoldata m s = _ ∧ _
    unfold execTapSoldata
    simp only [hx, powered_of_mod? hx hp, if_true]
    exact ⟨_, rfl, fun hu => by simp [hu]⟩
  obtain ⟨v, he, hv⟩ := he
  exact ⟨_, _, he, State.mod?_onMod_self _ m _ _ ((mod?_congr (State.draw_mods _) m).trans (mod?_tapOut hx hp v)), rfl, hv⟩

/-- The three commands that freeze a module from outside, each with its source (R376, R411). -/
theorem solfrz_freezes (hf : x.frozen = false) :
    gives (.tapSolfrz m) s (s.onMod m (fun y => if y.frozen then y else { y with frozen := true, source := 4 })) ∧
      (∃ t, exec (.tapSolfrz m) s = .next t ∧ t.modRuns m = false) ∧
      (∃ t x', exec (.mboebFreeze m) s = .next t ∧ t.mod? m = some x' ∧ x'.frozen = true ∧ x'.source = 3) ∧
      ∀ temp, 110 ≤ temp → ∃ t x', exec (.thermalTrip m temp) s = .next t ∧ t.mod? m = some x' ∧ x'.frozen = true ∧ x'.source = 2 := by
  have hpow := powered_of_mod? hx hp
  have hfrz : ∀ k : BitVec 3, (freezeModule s m k).mod? m = some { x with frozen := true, source := k } := fun k => by
    rw [freezeModule, State.mod?_onMod_self s m _ x hx, hf, if_neg Bool.false_ne_true]
  have hsol : exec (.tapSolfrz m) s = .next (freezeModule s m 4) := by
    change execTapSolfrz m s = _
    rw [execTapSolfrz, if_pos hpow]
  refine ⟨hsol, ⟨_, hsol, modRuns_freezeModule s m 4⟩, ⟨_, _, ?_, hfrz 3, rfl, rfl⟩, fun temp ht => ⟨_, _, ?_, hfrz 2, rfl, rfl⟩⟩
  · change execMboebFreeze m s = _
    rw [execMboebFreeze, if_pos hpow]
  · change execThermalTrip m temp s = _
    simp [execThermalTrip, hpow, ht]

theorem solsticeUnlock_unlocks {req : List Byte} (ha : Config.spdmAuthentic req = true) :
    ∃ t x', exec (.solsticeUnlock m req) s = .next t ∧ t.mod? m = some x' ∧ x'.unlock = true := by
  refine ⟨_, _, ?_, State.mod?_onMod_self s m (fun y => { y with unlock := true }) x hx, rfl⟩
  change execSolsticeUnlock m req s = _
  simp [execSolsticeUnlock, powered_of_mod? hx hp, ha]

theorem spdmRequest_answers (req : List Byte) : ∃ t x', exec (.spdmRequest m req) s = .next t ∧ t.mod? m = some x' ∧
    x'.spdmOut = Config.spdmAnswer req x.measurements ++ Config.ed448Sign (Config.spdmAnswer req x.measurements) := by
  refine ⟨_, _, ?_, State.mod?_onMod_self s m (fun y => { y with
    spdmOut := Config.spdmAnswer req x.measurements ++ Config.ed448Sign (Config.spdmAnswer req x.measurements) }) x hx, rfl⟩
  change execSpdmRequest m req s = _
  simp [execSpdmRequest, hx, powered_of_mod? hx hp]

end

/-! ### Reset and boot (R373, R413) -/

/-- What a warm reset writes back and drops of a memory-side cache (R413). -/
theorem memStep_drainMsc (s : State) (m : Nat) : MemStep s (s.drainMsc m) := by
  have hdrop : MemStep s { s with msc := s.msc.filter (fun c => !decide (128 * c.1 / 2 ^ 52 = m)) } :=
    ⟨rfl, fun h => ⟨h.1, h.2.1, Tbl.rising_filter _ h.2.2.1, fun c hc => h.2.2.2 c (List.mem_filter.mp hc).1⟩⟩
  refine hdrop.trans (MemStep.foldl _ (fun t c => ?_) _ _)
  split
  · exact memStep_putMemLine t c.1 c.2
  · exact MemStep.refl t

/-- The module itself after a warm reset is one that has booted anew from its flash (R373, R413). -/
theorem mod?_warmResetModule {s : State} {m : Nat} {x : Module} (hx : s.mod? m = some x) (hp : x.power ≠ .d3cold) :
    (warmResetModule s m).mod? m = some (x.rebooted x.flash .d0 s.tick) := by
  unfold warmResetModule
  simp only [hx, if_neg hp]
  refine State.mod?_onMod_self _ m _ x ?_
  exact (mod?_congr (memStep_drainMsc s m).mods m).trans hx

/-- The image that boots: signed under a key that is not revoked, and no older than the counter (R373). -/
theorem bootFault_isNone_iff (x : Module) (f : Flash) : (x.bootFault (some f)).isNone = true ↔
    f.key < 3 ∧ f.key ∉ x.revoked ∧ Config.ed448Ok f.key (shake256 64 f.image) f.signature = true ∧ x.rollback ≤ f.version := by
  have hsig : (decide (f.key < 3) && !x.revoked.contains f.key && Config.ed448Ok f.key (shake256 64 f.image) f.signature) = true ↔
      f.key < 3 ∧ f.key ∉ x.revoked ∧ Config.ed448Ok f.key (shake256 64 f.image) f.signature = true := by
    simp [and_assoc]
  unfold Module.bootFault
  cases hs : decide (f.key < 3) && !x.revoked.contains f.key && Config.ed448Ok f.key (shake256 64 f.image) f.signature with
  | false =>
    rw [hs] at hsig
    simp only [hs, Bool.not_false, if_true, Option.isNone_some, Bool.false_eq_true, false_iff]
    exact fun ⟨hk, hv, ho, _⟩ => Bool.false_ne_true (hsig.mpr ⟨hk, hv, ho⟩)
  | true =>
    obtain ⟨hk, hv, ho⟩ := hsig.mp hs
    by_cases hver : f.version < x.rollback
    · simp [hver, hk, hv, ho]
    · simp [hver, hk, hv, ho, Nat.not_lt.mp hver]

/-- Power comes on: the module boots when its image passes, and else reports the check that failed (R373). -/
theorem powerOnBoot_boots {s : State} {m : Nat} {x : Module} (hx : s.mod? m = some x) (hp : x.power = .d3cold)
    (image sig : List Byte) (key version : Nat) : ∃ t x', exec (.powerOnBoot m image sig key version) s = .next t ∧ t.mod? m = some x' ∧
      x'.power = .d0 ∧ x'.leftReset = s.tick ∧ (x'.booted = true ↔
        key < 3 ∧ key ∉ x.revoked ∧ Config.ed448Ok key (shake256 64 image) sig = true ∧ x.rollback ≤ version) ∧
      (x'.booted = false → x'.bootReports.length = x.bootReports.length + 1) := by
  refine ⟨_, _, ?_, State.mod?_onMod_self s m (fun y => y.rebooted (some ⟨image, sig, key, version⟩) .d0 s.tick) x hx, rfl, rfl,
    bootFault_isNone_iff x _, fun hb => ?_⟩
  · change execPowerOnBoot m image sig key version s = _
    simp [execPowerOnBoot, hx, hp]
  · simp only [Module.rebooted] at hb ⊢
    cases hf : x.bootFault (some ⟨image, sig, key, version⟩) with
    | none => simp [hf] at hb
    | some k => simp

/-! ### Power and temperature (R375 to R377) -/

theorem users_congr {s t : State} (h : t.launches = s.launches) (m k : Nat) : t.users m k = s.users m k := by
  simp [State.users, State.sharesOn, h]

theorem standing_congr {s t : State} (hc : t.cur = s.cur) (hh : t.harts = s.harts) (hl : t.launches = s.launches) (m k : Nat) :
    t.standing m k = s.standing m k := by
  simp [State.standing, State.allHarts, State.keepsSlot, State.share?, State.launch?, hc, hh, hl]

/-- Gating clusters keeps who stands on the cores, and the module but for its gated clusters (R27). -/
structure GatingKeeps (m : Nat) (s t : State) : Prop where
  cur : t.cur = s.cur
  harts : t.harts = s.harts
  launches : t.launches = s.launches
  mod : ∀ x, s.mod? m = some x → ∃ x', t.mod? m = some x' ∧ ∀ n ∈ x.gated, n ∈ x'.gated

theorem GatingKeeps.refl (m : Nat) (s : State) : GatingKeeps m s s := ⟨rfl, rfl, rfl, fun x h => ⟨x, h, fun _ h => h⟩⟩

theorem GatingKeeps.trans {m : Nat} {s t u : State} (h : GatingKeeps m s t) (k : GatingKeeps m t u) : GatingKeeps m s u := by
  refine ⟨k.cur.trans h.cur, k.harts.trans h.harts, k.launches.trans h.launches, fun x hx => ?_⟩
  obtain ⟨y, hy, hxy⟩ := h.mod x hx
  obtain ⟨z, hz, hyz⟩ := k.mod y hy
  exact ⟨z, hz, fun n hn => hyz n (hxy n hn)⟩

theorem gateCluster_keeps (s : State) (m n : Nat) : GatingKeeps m s (s.gateCluster m n) := by
  unfold State.gateCluster
  simp only
  split
  · exact .refl m s
  · refine ⟨by simp, by simp, by simp, fun x hx => ⟨_, State.mod?_onMod_self _ m _ x hx, fun k hk => ?_⟩⟩
    simp only
    split
    · exact hk
    · exact List.mem_cons_of_mem _ hk

/-- A cluster that nobody uses is gated (R27). -/
theorem gateCluster_gates {s : State} {m n : Nat} {x : Module} (hx : s.mod? m = some x) (hn : n < 36)
    (hidle : ∀ k, s.users m k = [] ∧ s.standing m k = []) : ∃ x', (s.gateCluster m n).mod? m = some x' ∧ n ∈ x'.gated := by
  have hoff : (decide (36 ≤ n) || ((upto 0 4).map (clusterCore n)).any (fun c => !(s.users m c).isEmpty || !(s.standing m c).isEmpty)) =
      false := by
    simp [hidle, hn]
  unfold State.gateCluster
  simp only [hoff, Bool.false_eq_true, if_false]
  refine ⟨_, State.mod?_onMod_self _ m _ x hx, ?_⟩
  simp only
  split
  · rename_i hc
    exact List.contains_iff_mem.mp hc
  · exact List.mem_cons_self

theorem gateClusters_keeps (m : Nat) (l : List Nat) : ∀ s : State, GatingKeeps m s (l.foldl (fun t n => t.gateCluster m n) s) := by
  induction l with
  | nil => exact .refl m
  | cons n l ih => exact fun s => (gateCluster_keeps s m n).trans (ih _)

/-- Gating the clusters of an unused module one after another gates them all (R377). -/
theorem gateClusters_gates (m : Nat) (l : List Nat) : ∀ (s : State) (x : Module), s.mod? m = some x →
    (∀ k, s.users m k = [] ∧ s.standing m k = []) →
    ∃ x', (l.foldl (fun t n => t.gateCluster m n) s).mod? m = some x' ∧ ∀ n ∈ l, n < 36 → n ∈ x'.gated := by
  induction l with
  | nil => exact fun s x hx _ => ⟨x, hx, fun n hn => absurd hn List.not_mem_nil⟩
  | cons n l ih =>
    intro s x hx hidle
    have hk := gateCluster_keeps s m n
    have hidle' : ∀ k, (s.gateCluster m n).users m k = [] ∧ (s.gateCluster m n).standing m k = [] := fun k => by
      rw [users_congr hk.launches, standing_congr hk.cur hk.harts hk.launches]
      exact hidle k
    obtain ⟨y, hy, -⟩ := hk.mod x hx
    obtain ⟨z, hz, hall⟩ := ih _ y hy hidle'
    refine ⟨z, hz, fun k hmem hk36 => ?_⟩
    rcases List.mem_cons.mp hmem with rfl | hmem
    · obtain ⟨y', hy', hg⟩ := gateCluster_gates hx hk36 hidle
      obtain ⟨z', hz', hsub⟩ := (gateClusters_keeps m l (s.gateCluster m k)).mod y' hy'
      obtain rfl : z' = z := Option.some.inj (hz'.symm.trans hz)
      exact hsub k hg
    · exact hall k hmem hk36

/-- D3hot gates the clusters of an idle module that nobody uses (R377). -/
theorem d3hotEntry_gates {s : State} {m : Nat} {x : Module} (hx : s.mod? m = some x) (hr : s.modRuns m = true) (hi : s.idle m = true) :
    ∃ t x', exec (.d3hotEntry m) s = .next t ∧ t.mod? m = some x' ∧ x'.power = .d3hot ∧
      ((∀ k, s.users m k = [] ∧ s.standing m k = []) → ∀ n, n < 36 → n ∈ x'.gated) := by
  have hwb : MemStep s (writeBackModule s m) := memStep_writeBack s _
  have hx' : (writeBackModule s m).mod? m = some x := (mod?_congr hwb.mods m).trans hx
  have he : exec (.d3hotEntry m) s = .next (((upto 0 36).foldl (fun t n => t.gateCluster m n) (writeBackModule s m)).onMod m
      (fun y => { y with power := .d3hot })) := by
    change execD3hotEntry m s = _
    simp [execD3hotEntry, hr, hi]
  obtain ⟨y, hy, -⟩ := (gateClusters_keeps m (upto 0 36) (writeBackModule s m)).mod x hx'
  refine ⟨_, _, he, State.mod?_onMod_self _ m _ y hy, rfl, fun hidle n hn => ?_⟩
  obtain ⟨z, hz, hg⟩ := gateClusters_gates m (upto 0 36) (writeBackModule s m) x hx' (fun k => by
    rw [users_congr hwb.launches, standing_congr hwb.cur hwb.harts hwb.launches]
    exact hidle k)
  obtain rfl : z = y := Option.some.inj (hz.symm.trans hy)
  exact hg n ((mem_upto 36).mpr ⟨Nat.zero_le n, by omega⟩) hn

/-- The machine once module `m` has lost its power, that module's own record apart (R377). -/
def State.unpowered (s : State) (m : Nat) : State :=
  { (s.discardModule m).clearChip m with
    dram := ((s.discardModule m).clearChip m).dram.filter (fun c => !decide (c.1 / 2 ^ 52 = m))
    msc := ((s.discardModule m).clearChip m).msc.filter (fun c => !decide (128 * c.1 / 2 ^ 52 = m))
    badMem := ((s.discardModule m).clearChip m).badMem.filter (fun w => !decide (8 * w / 2 ^ 52 = m)) }

theorem stepDown_val (p : Fin 4) : (stepDown p).val = min 3 (p.val + 1) := by
  revert p
  decide

section
variable {s : State} {m : Nat} {x : Module} (hx : s.mod? m = some x)
include hx

theorem thermalStepDown_steps (hr : s.modRuns m = true) (temp : Nat) (ht : 100 ≤ temp) :
    ∃ t x', exec (.thermalStepDown m temp) s = .next t ∧ t.mod? m = some x' ∧ x'.point.val = min 3 (x.point.val + 1) := by
  refine ⟨_, _, ?_, State.mod?_onMod_self s m (fun y => { y with point := stepDown y.point }) x hx, stepDown_val x.point⟩
  change execThermalStepDown m temp s = _
  simp [execThermalStepDown, hr, ht]

theorem powerCapWindow_chooses (hr : s.modRuns m = true) (point : Fin 4) :
    ∃ t x', exec (.powerCapWindow m point) s = .next t ∧ t.mod? m = some x' ∧
      x'.point = if Config.windowPower s.free point.val ≤ x.set.pcap then point else 3 := by
  refine ⟨_, _, ?_, State.mod?_onMod_self s.draw m (fun y => { y with
    point := if Config.windowPower s.free point.val ≤ x.set.pcap then point else 3 }) x ((mod?_congr (State.draw_mods s) m).trans hx), rfl⟩
  change execPowerCapWindow m point s = _
  simp [execPowerCapWindow, hx, hr]

theorem d0Return_returns (hp : x.power = .d3hot) :
    ∃ t x', exec (.d0Return m) s = .next t ∧ t.mod? m = some x' ∧ x'.power = .d0 := by
  refine ⟨_, _, rfl, State.mod?_onMod_self s m _ x hx, ?_⟩
  rw [if_pos hp]

theorem vcoreRemoval_removes (hf : x.frozen = true) (hs : x.source = 2) :
    ∃ t x', exec (.vcoreRemoval m) s = .next t ∧ t.mod? m = some x' ∧ x'.vcoreOff = true := by
  refine ⟨_, _, rfl, State.mod?_onMod_self s m _ x hx, ?_⟩
  simp [hf, hs]

theorem exec_powerRemoval : exec (.powerRemoval m) s = .next ((s.unpowered m).onMod m (fun y =>
    { y.rebooted y.flash .d3cold s.tick with booted := false, bootReports := y.bootReports })) := by
  change execPowerRemoval m s = _
  unfold execPowerRemoval
  rw [hx]
  rfl

/-- Memory that has lost its power reads 0 (R377, log 1). -/
theorem powerRemoval_clears : ∃ t x', exec (.powerRemoval m) s = .next t ∧ t.mod? m = some x' ∧ x'.power = .d3cold ∧
    x'.booted = false ∧ ∀ a, a / 2 ^ 52 = m → dramByte t a = 0 := by
  refine ⟨_, _, exec_powerRemoval hx, State.mod?_onMod_self _ m _ x hx, rfl, rfl, fun a ha => ?_⟩
  rw [dramByte, State.onMod_dram, State.unpowered, Tbl.getD, Tbl.find_filter_none (fun v => by simpa using ha)]
  rfl

end

/-! ### The events together -/

theorem errcntClr_clears {s : State} {m : Nat} (h : s.hostReaches m = true) :
    gives (.errcntClr m) s (s.onMod m (fun y => { y with sram := [] })) := by
  change execErrcntClr m s = _
  rw [execErrcntClr, if_pos h]

theorem warmReset_resets {s : State} {m : Nat} {x : Module} (hx : s.mod? m = some x) (hp : x.power ≠ .d3cold) :
    ∃ t x', exec (.warmReset m) s = .next t ∧ t.mod? m = some x' ∧ x'.queues = [] ∧ x'.nodes = [] ∧ x'.frozen = false ∧
      x'.caps = x.caps ∧ x'.rollback = x.rollback ∧ x'.leftReset = s.tick ∧ x'.booted = (x.bootFault x.flash).isNone ∧
      x'.bootReports = x.bootReports ++ (x.bootFault x.flash).toList :=
  ⟨_, _, rfl, mod?_warmResetModule hx hp, rfl, rfl, rfl, rfl, rfl, rfl, rfl, rfl⟩

/-- Settles O52, event by event: each changes its module as its meaning says, and a module that exists reads back what was changed. -/
theorem deviceEventsTakeEffect : Obligations.DeviceEventsTakeEffect := by
  intro s m x hx
  refine ⟨errcntClr_clears, fun w dom hw hr => ⟨patrolSweep_clean hw hr, patrolSweep_corrected hw hr, fun pa hb =>
      ⟨fun t ht => patrolSweep_refills hw hr pa hb ht, patrolSweep_poisons hw hr pa hb⟩⟩,
    fun hp => ⟨?_, tapSolstat_reads hx hp, tapSolsel_selects hx hp, tapSoldata_advances hx hp, fun b => ?_, solfrz_freezes hx hp,
      fun req => solsticeUnlock_unlocks hx hp, spdmRequest_answers hx hp, rfl, rfl, warmReset_resets hx hp⟩,
    fun image sig key version hp => powerOnBoot_boots hx hp image sig key version,
    fun hr => ⟨d3hotEntry_gates hx hr, thermalStepDown_steps hx hr, powerCapWindow_chooses hx hr⟩,
    d0Return_returns hx, powerRemoval_clears hx, vcoreRemoval_removes hx⟩
  all_goals exact ⟨_, _, rfl, mod?_tapOut hx hp _, rfl⟩

end Sys2Proof.Machine
end

section
/-! PROOFS. Far registers and the element-wise far forms (R28, R74, R237, R265, R270, R273): what a far group reads after writes, how a far
form in a stack of its own module ends, and the results of each form. -/

namespace Sys2Proof.Machine

/-! ### Far registers -/

/-- Equal fields at different places of a run do not overlap. -/
theorem fields_disjoint {w j k : Nat} (h : j ≠ k) : w * j + w ≤ w * k ∨ w * k + w ≤ w * j := by
  rw [← Nat.mul_succ, ← Nat.mul_succ]
  exact (Nat.lt_or_gt_of_ne h).imp (Nat.mul_le_mul_left w) (Nat.mul_le_mul_left w)

/-- A bank names each of its registers by a key of its own (R20, R74). -/
theorem bankKey_inj {home m slot r q : Nat} : bankKey home m slot r = bankKey home m slot q ↔ r = q := by
  simp [bankKey]

section
variable {s : State} (hs : Tbl.rising s.banks = true)
include hs

theorem State.far_setFar_self (home r v : Nat) : (s.setFar home r v).far home r = v :=
  Tbl.getD_store_self 0 _ v hs

theorem State.far_setFar_other (home v : Nat) {r k : Nat} (hk : k ≠ r) : (s.setFar home r v).far home k = s.far home k :=
  Tbl.getD_store_other 0 v hs (mt bankKey_inj.mp hk)

theorem State.rising_setFarElem (home r w i v : Nat) : Tbl.rising (s.setFarElem home r w i v).banks = true :=
  Tbl.rising_store 0 _ _ hs

theorem State.farElem_setFarElem_self (home r w i v : Nat) : (s.setFarElem home r w i v).farElem home r w i = v % 2 ^ w := by
  rw [State.farElem, State.setFarElem, State.far_setFar_self hs, bits_setBits_self]

theorem State.farElem_setFarElem_other (home r w v : Nat) {i k : Nat} (hk : k ≠ i) :
    (s.setFarElem home r w i v).farElem home r w k = s.farElem home r w k := by
  unfold State.farElem State.setFarElem
  by_cases hreg : k / fe w = i / fe w
  · have hpos : k % fe w ≠ i % fe w := fun e => hk (by rw [← Nat.div_add_mod k (fe w), hreg, e, Nat.div_add_mod])
    rw [hreg, State.far_setFar_self hs, bits_setBits_other _ _ _ _ _ _ (fields_disjoint hpos)]
  · rw [State.far_setFar_other hs _ _ (by omega)]

end

/-- Writing far elements leaves all of the machine but the far banks. -/
theorem State.writeFar_frame (home r w : Nat) (els : List (Nat × Nat)) : ∀ s : State, ∃ b, s.writeFar home r w els = { s with banks := b } := by
  induction els with
  | nil => exact fun s => ⟨s.banks, rfl⟩
  | cons e els ih =>
    intro s
    obtain ⟨b, hb⟩ := ih (s.setFarElem home r w e.1 e.2)
    exact ⟨b, hb⟩

/-- A far element that none of the writes names stays. -/
theorem State.farElem_writeFar_outside (home r w : Nat) (els : List (Nat × Nat)) : ∀ {s : State} {i : Nat}, Tbl.rising s.banks = true →
    (∀ e ∈ els, e.1 ≠ i) → (s.writeFar home r w els).farElem home r w i = s.farElem home r w i := by
  induction els with
  | nil => exact fun _ _ => rfl
  | cons e els ih =>
    intro s i hs hi
    rw [State.writeFar, ih (State.rising_setFarElem hs ..) (fun x hx => hi x (List.mem_cons_of_mem _ hx)),
      State.farElem_setFarElem_other hs _ _ _ _ (Ne.symm (hi e List.mem_cons_self))]

/-- Of writes to distinct far elements each reads back. -/
theorem State.farElem_writeFar_inside (home r w : Nat) (els : List (Nat × Nat)) : ∀ {s : State} {i v : Nat}, Tbl.rising s.banks = true →
    (els.map (·.1)).Nodup → (i, v) ∈ els → (s.writeFar home r w els).farElem home r w i = v % 2 ^ w := by
  induction els with
  | nil => intro s i v _ _ hm; cases hm
  | cons e els ih =>
    intro s i v hs hn hm
    have hs' := State.rising_setFarElem hs home r w e.1 e.2
    simp only [List.map_cons, List.nodup_cons] at hn
    rcases List.mem_cons.mp hm with rfl | hm
    · rw [State.writeFar, State.farElem_writeFar_outside _ _ _ els hs' (fun x hx hxi => hn.1 (List.mem_map.mpr ⟨x, hx, hxi⟩)),
        State.farElem_setFarElem_self hs]
    · exact ih hs' hn.2 hm

/-- A far register in which no written element lies stays, whosever it is. -/
theorem State.banks_writeFar_outside (home r w : Nat) (els : List (Nat × Nat)) : ∀ {s : State} {k : Nat}, Tbl.rising s.banks = true →
    (∀ e ∈ els, k ≠ bankKey home s.cur.mod s.cur.devSlot (r + e.1 / fe w)) →
    Tbl.getD (s.writeFar home r w els).banks k 0 = Tbl.getD s.banks k 0 := by
  induction els with
  | nil => exact fun _ _ => rfl
  | cons e els ih =>
    intro s k hs hk
    rw [State.writeFar, ih (State.rising_setFarElem hs ..) (fun x hx => hk x (List.mem_cons_of_mem _ hx))]
    exact Tbl.getD_store_other 0 _ hs (hk e List.mem_cons_self)

/-- Writing a value for each of some distinct far elements writes exactly those. -/
theorem wroteFar_writeFar {s : State} (hs : Tbl.rising s.banks = true) (home d w : Nat) {els : List Nat} (hn : els.Nodup) (f : Nat → Nat) :
    wroteFar s (s.writeFar home d w (els.map (fun i => (i, f i)))) home d w (· ∈ els) f := by
  refine ⟨fun i hi => ?_, fun i hi => ?_, fun k hk => ?_⟩
  · exact State.farElem_writeFar_inside home d w _ hs (by simpa [Function.comp_def] using hn) (List.mem_map.mpr ⟨i, hi, rfl⟩)
  · refine State.farElem_writeFar_outside home d w _ hs (fun e he hei => hi ?_)
    obtain ⟨j, hj, rfl⟩ := List.mem_map.mp he
    exact hei ▸ hj
  · refine State.banks_writeFar_outside home d w _ hs (fun e he => ?_)
    obtain ⟨j, hj, rfl⟩ := List.mem_map.mp he
    exact hk j hj

/-- What a far instruction wrote is a matter of the far banks and of the hart's place alone. -/
theorem wroteFar_congr {s t u : State} {home d w : Nat} {P : Nat → Prop} {f : Nat → Nat} (hb : u.banks = t.banks)
    (hm : u.cur.mod = t.cur.mod) (hseat : u.cur.seat = t.cur.seat) (h : wroteFar s t home d w P f) : wroteFar s u home d w P f := by
  have hfar : ∀ i, u.farElem home d w i = t.farElem home d w i := fun i => by
    simp only [State.farElem, State.far, Hart.devSlot, hb, hm, hseat]
  obtain ⟨hin, hout, hother⟩ := h
  exact ⟨fun i hi => (hfar i).trans (hin i hi), fun i hi => (hfar i).trans (hout i hi), fun k hk => by rw [hb, hother k hk]⟩

/-! ### Element lists and their flags -/

theorem nodup_upto (n : Nat) : ∀ a, (upto a n).Nodup := by
  induction n with
  | zero => exact fun _ => List.nodup_nil
  | succ n ih => exact fun a => List.nodup_cons.mpr ⟨fun h => by have := (mem_upto n).mp h; omega, ih (a + 1)⟩

/-- The elements of a far form are those it performs (R265, R402). -/
theorem State.mem_farEls {s : State} {i : Nat} : i ∈ s.farEls ↔ s.farPerforms i := by
  rw [State.farEls, mem_upto, State.farPerforms]
  omega

theorem State.mem_farEls_eq (s : State) : (· ∈ s.farEls) = s.farPerforms := funext fun _ => propext State.mem_farEls

theorem State.nodup_farEls (s : State) : s.farEls.Nodup := nodup_upto _ _

/-- A flag of a union is a flag of a member. -/
theorem getLsbD_orFlags (xs : List Flags) (k : Nat) : (orFlags xs).getLsbD k = true ↔ ∃ x ∈ xs, x.getLsbD k = true := by
  have fold : ∀ a : Flags, (xs.foldl (· ||| ·) a).getLsbD k = true ↔ a.getLsbD k = true ∨ ∃ x ∈ xs, x.getLsbD k = true := by
    induction xs with
    | nil => simp
    | cons x xs ih => intro a; simp [ih, or_assoc]
  exact (fold 0).trans (by simp)

/-- Elements that raise nothing raise nothing together. -/
theorem orFlags_replicate_zero (n : Nat) : orFlags (List.replicate n (0 : Flags)) = 0 := by
  apply BitVec.eq_of_getLsbD_eq
  intro k _
  rw [Bool.eq_iff_iff, getLsbD_orFlags]
  simp [List.mem_replicate]

/-! ### How a far form ends -/

theorem State.farReady.clean {s : State} {home : Nat} (hr : s.farReady home) : s.clean = true := by
  obtain ⟨-, hclean, -⟩ := hr
  exact hclean

theorem State.farReady.rising {s : State} {home : Nat} (hr : s.farReady home) : Tbl.rising s.banks = true := by
  obtain ⟨-, -, -, -, -, hrise⟩ := hr
  exact hrise

/-- With no register word poisoned no element stops a form (R456). -/
theorem State.poisonedBy_of_clean {s : State} (h : s.clean = true) (words : Nat → List SramWord) (els : List Nat) :
    s.poisonedBy words els = none := if_pos h

theorem State.putFar_of_clean {s : State} (h : s.clean = true) (home r w : Nat) (els : List (Nat × Nat)) :
    s.putFar home r w els = s.writeFar home r w els := by
  have he : s.poison.isEmpty = true := h
  simp only [State.putFar, he, if_true]

/-- What an element-wise operation on unpoisoned far registers gives: every element that the form performs, and its flags (R237). -/
theorem State.farMap_of_clean {s : State} (h : s.clean = true) (home : Nat) (words : Nat → List SramWord) (d w : Nat) (f : Nat → Nat × Flags) :
    s.farMap home words d w f =
      ⟨s.writeFar home d w (s.farEls.map (fun i => (i, (f i).1))), orFlags (s.farEls.map (fun i => (f i).2)), [], none⟩ := by
  simp [State.farMap, State.poisonedBy_of_clean h, State.putFar_of_clean h]

/-- A far form in a stack of its own module that meets no condition and does not stop completes with what it did there (R28, R267). -/
theorem runFar_completes {i : Instr} {op : FarOp} {s : State} {home : Nat} (hr : s.farReady home) (hc : noCond (op.conds s))
    (hsel : op.select s = .ok home) {o : FarOut} (ho : op.run s home = o) (hstop : o.stop = none) :
    runFar i op s = .next (o.s.farDone op o.flags o.data).noRequest.completedV := by
  obtain ⟨hex, -, hidle, hmod, hdroop, -⟩ := hr
  have hbody : farBody op s = .ok (o.s.farDone op o.flags o.data).noRequest := by
    rw [farBody, hidle]
    simp only
    rw [checkedAt_of_noCond hc]
    simp [hsel, hmod, hdroop, ho, State.farFinish, hstop]
  rw [runFar, runV_of_executes hex, hbody, retireV_ok]

/-- Completing leaves the queue or moves the program counter on (R82, R224). -/
theorem finishes_completedV {s u : State} (ha : u.cur.active.isSome = s.cur.active.isSome) (hpc : u.cur.pc = s.cur.pc)
    (hnpc : u.cur.npc = s.cur.npc) (hvq : u.cur.vq = s.cur.vq) : finishes s u.completedV := by
  unfold finishes
  cases hs : s.cur.active with
  | none =>
    have hu : u.cur.active = none := by simpa [hs] using ha
    simp [State.completedV, State.finishV, Hart.progress, hu, hnpc, hvq]
  | some e =>
    obtain ⟨e', hu⟩ := Option.isSome_iff_exists.mp (by simpa [hs] using ha : u.cur.active.isSome = true)
    simp [State.completedV, State.finishV, Hart.progress, hu, hpc, hvq]

/-- A far form that wrote far registers and flags alone leaves the rest of the machine as it was. -/
theorem farFrame_completes (s : State) (b : Tbl Nat) (fl : Flags) :
    farFrame s (({ s with banks := b } : State).raise fl).noRequest.completedV ∧
      sameMemory s (({ s with banks := b } : State).raise fl).noRequest.completedV := by
  refine ⟨⟨sameG_of_eq ?_, ?_, ?_, ?_, ?_, ?_, ?_, ?_, finishes_completedV ?_ rfl rfl rfl⟩, sameMemory_of_eq ?_ ?_ ?_⟩ <;>
    simp [State.noRequest, sameVec, sameSpecial]

/-- An element-wise far form whose run writes these results to the elements it performs and does not stop has just them as its effect. -/
theorem writesFar_of_run {i : Instr} {op : FarOp} {s : State} {home d w : Nat} {f : Nat → Nat × Flags} (he : exec i s = runFar i op s)
    (hr : s.farReady home) (hc : noCond (op.conds s)) (hsel : op.select s = .ok home) (hnear : op.near = none)
    (hrun : op.run s home = ⟨s.writeFar home d w (s.farEls.map (fun i => (i, (f i).1))), orFlags (s.farEls.map (fun i => (f i).2)), [], none⟩) :
    WritesFar i s home d w f := by
  obtain ⟨b, hb⟩ := State.writeFar_frame home d w (s.farEls.map (fun i => (i, (f i).1))) s
  have hw := wroteFar_writeFar hr.rising home d w s.nodup_farEls (fun i => (f i).1)
  rw [State.mem_farEls_eq, hb] at hw
  have hex := he.trans (runFar_completes hr hc hsel hrun rfl)
  rw [State.farDone, hnear, hb] at hex
  refine ⟨_, hex, wroteFar_congr ?_ ?_ ?_ hw, fun k => ?_, farFrame_completes s b _⟩
  all_goals simp [State.noRequest, getLsbD_orFlags, State.mem_farEls]

/-- Only the low bits of a result are written. -/
theorem WritesFar.congr {i : Instr} {s : State} {home d w : Nat} {f g : Nat → Nat × Flags} (h : WritesFar i s home d w f)
    (hv : ∀ k, (f k).1 % 2 ^ w = (g k).1 % 2 ^ w) (hf : ∀ k, (f k).2 = (g k).2) : WritesFar i s home d w g := by
  obtain ⟨t, hex, ⟨hin, hout, hother⟩, hraise, hframe⟩ := h
  refine ⟨t, hex, ⟨fun k hk => (hin k hk).trans (hv k), hout, hother⟩, ?_, hframe⟩
  simpa only [hf] using hraise

/-- A far form that maps the elements it performs, in a stack of its own module, writes its function's results (R237). -/
theorem writesFar_of_map {i : Instr} {op : FarOp} {s : State} {home d w : Nat} {words : Nat → List SramWord}
    {f : Nat → Nat × Flags} (he : exec i s = runFar i op s) (hr : s.farReady home) (hc : noCond (op.conds s))
    (hsel : op.select s = .ok home) (hnear : op.near = none) (hrun : op.run s home = s.farMap home words d w f) :
    WritesFar i s home d w f :=
  writesFar_of_run he hr hc hsel hnear (hrun.trans (State.farMap_of_clean hr.clean ..))

/-! ### Integer operations on bit vectors (R236) -/

section
variable {w : Nat}

theorem bit_toNat {n : Nat} (v : BitVec n) (i : Nat) : bit v.toNat i = v.getLsbD i := by
  rw [← BitVec.testBit_toNat, Nat.testBit_eq_decide_div_mod_eq]
  rfl

/-- A pattern read as a signed integer (R97). -/
theorem signed_toNat (x : BitVec w) : signed w x.toNat = x.toInt := by
  have half : x.toNat < 2 ^ (w - 1) ↔ 2 * x.toNat < 2 ^ w := by
    cases w with
    | zero => simp [BitVec.of_length_zero]
    | succ n => rw [Nat.add_sub_cancel, Nat.pow_succ]; omega
  simp only [signed, Nat.mod_eq_of_lt x.isLt, BitVec.toInt, half]

theorem readInt_toNat (u : Bool) (x : BitVec w) : readInt w u x.toNat = if u then (x.toNat : Int) else x.toInt := by
  rw [readInt, signed_toNat, Nat.mod_eq_of_lt x.isLt]

theorem wrap_eq_toNat (z : Int) : wrap w z = (BitVec.ofInt w z).toNat := by
  rw [BitVec.toNat_ofInt]
  rfl

theorem clampInt_eq (sg : Bool) (z : Int) : clampInt w sg z =
    if sg then max (-2 ^ (w - 1)) (min (2 ^ (w - 1) - 1) z) else max 0 (min (2 ^ w - 1) z) := by
  have h1 : 0 < 2 ^ (w - 1) := Nat.two_pow_pos _
  have h2 : 0 < 2 ^ w := Nat.two_pow_pos _
  cases sg
  · simp only [clampInt, Bool.false_eq_true, if_false, Nat.cast_pred h2, Nat.cast_pow, Nat.cast_ofNat]
    zify at h2
    omega
  · simp only [clampInt, if_true, Nat.cast_pred h1, Nat.cast_pow, Nat.cast_ofNat]
    zify at h1
    omega

/-- A sum wrapped or clamped, its operands read as U says (R236): wrapped, the two readings agree modulo 2^w. -/
theorem satWrap_eq_satSum (sf : BitVec 4) {si ui : Int} (h : BitVec.ofInt w ui = BitVec.ofInt w si) :
    satWrap w sf.toNat (if sf.getLsbD 0 then ui else si) = (satSum w sf si ui).toNat := by
  simp only [satWrap, satSum, bit_toNat, clampInt_eq, wrap_eq_toNat]
  cases sf.getLsbD 1 <;> cases sf.getLsbD 0 <;> simp [h]

variable (sf : BitVec 4) (x y : BitVec w)

theorem iAdd_toNat : iAdd w sf.toNat x.toNat y.toNat = (bvAdd w sf x y).toNat := by
  have h : BitVec.ofInt w ((x.toNat : Int) + y.toNat) = BitVec.ofInt w (x.toInt + y.toInt) := by simp [BitVec.ofInt_add]
  rw [bvAdd, ← satWrap_eq_satSum sf h, iAdd, readInt_toNat, readInt_toNat, bit_toNat]
  split <;> rfl

theorem iSub_toNat : iSub w sf.toNat x.toNat y.toNat = (bvSub w sf x y).toNat := by
  have h : BitVec.ofInt w ((x.toNat : Int) - y.toNat) = BitVec.ofInt w (x.toInt - y.toInt) := by
    simp [Int.sub_eq_add_neg, BitVec.ofInt_add, BitVec.ofInt_neg]
  rw [bvSub, ← satWrap_eq_satSum sf h, iSub, readInt_toNat, readInt_toNat, bit_toNat]
  split <;> rfl

theorem iMul_toNat : iMul w sf.toNat x.toNat y.toNat = (bvMul w sf x y).toNat := (BitVec.toNat_mul x y).symm

theorem iMulh_toNat : iMulh w sf.toNat x.toNat y.toNat = (bvMulh w sf x y).toNat := by
  rw [iMulh, bvMulh, readInt_toNat, readInt_toNat, bit_toNat, wrap_eq_toNat]
  split <;> simp

theorem iAnd_toNat : iAnd w sf.toNat x.toNat y.toNat = (bvAnd w sf x y).toNat := by
  rw [iAnd, ← BitVec.toNat_and, Nat.mod_eq_of_lt (BitVec.isLt _), bvAnd]

theorem iOr_toNat : iOr w sf.toNat x.toNat y.toNat = (bvOr w sf x y).toNat := by
  rw [iOr, ← BitVec.toNat_or, Nat.mod_eq_of_lt (BitVec.isLt _), bvOr]

theorem iXor_toNat : iXor w sf.toNat x.toNat y.toNat = (bvXor w sf x y).toNat := by
  rw [iXor, ← BitVec.toNat_xor, Nat.mod_eq_of_lt (BitVec.isLt _), bvXor]

theorem iShl_toNat : iShl w sf.toNat x.toNat y.toNat = (bvShl w sf x y).toNat := by
  rw [iShl, bvShl, BitVec.toNat_shiftLeft, Nat.shiftLeft_eq]

theorem iShr_toNat : iShr w sf.toNat x.toNat y.toNat = (bvShr w sf x y).toNat := by
  rw [iShr, bvShr, BitVec.toNat_ushiftRight, Nat.shiftRight_eq_div_pow, Nat.mod_eq_of_lt x.isLt]

theorem iSra_toNat : iSra w sf.toNat x.toNat y.toNat = (bvSra w sf x y).toNat := by
  rw [iSra, bvSra, wrap_eq_toNat, signed_toNat, BitVec.sshiftRight, Int.shiftRight_eq_div_pow]

/-- The order that U chooses (R236). -/
theorem readInt_le : readInt w (bit sf.toNat 0) x.toNat ≤ readInt w (bit sf.toNat 0) y.toNat ↔
    (if sf.getLsbD 0 then x.ule y else x.sle y) = true := by
  rw [readInt_toNat, readInt_toNat, bit_toNat]
  split
  · rw [BitVec.ule_iff_toNat_le, Nat.cast_le]
  · exact BitVec.sle_iff_toInt_le.symm

theorem iMin_toNat : iMin w sf.toNat x.toNat y.toNat = (bvMin w sf x y).toNat := by
  simp only [iMin, bvMin, readInt_le, Nat.mod_eq_of_lt x.isLt, Nat.mod_eq_of_lt y.isLt, apply_ite BitVec.toNat]

theorem iMax_toNat : iMax w sf.toNat x.toNat y.toNat = (bvMax w sf x y).toNat := by
  simp only [iMax, bvMax, readInt_le, Nat.mod_eq_of_lt x.isLt, Nat.mod_eq_of_lt y.isLt, apply_ite BitVec.toNat]

end

/-! ### The forms -/

theorem bits_lt (n lo w : Nat) : bits n lo w < 2 ^ w := Nat.mod_lt _ (Nat.two_pow_pos w)

/-- A far source's element has SEW bits (R66, R265). -/
theorem State.fsrc_lt (s : State) (home : Nat) (a : S10) (i : Nat) : s.fsrc home a i < 2 ^ s.cur.cfg.sew := by
  unfold State.fsrc
  split
  · exact bits_lt _ _ _
  · exact Nat.mod_lt _ (Nat.two_pow_pos _)

theorem noCond_append {c d : List (Bool × Nat × Nat)} (hc : noCond c) (hd : noCond d) : noCond (c ++ d) :=
  fun x hx => (List.mem_append.mp hx).elim (hc x) (hd x)

section
variable {p : R3} {s : State} {home : Nat} (hr : s.farReady home) (hsel : s.stkStack p = .ok home)
include hr hsel

/-- A far form with one float source writes its function's results (R232, R237). -/
theorem float1_writes (c : R3 → Instr) (f : FT → Nat → Nat → Nat × Flags) (he : exec (c p) s = runFar (c p) (farFloat1 p f) s)
    (hc : noCond (s.farConds (s.groupsOf p.d [p.a]) s.isFloat)) :
    WritesFar (c p) s home (p.d.toNat % 16) s.cur.cfg.sew (fun i => f s.ft p.rm.toNat (s.fsrcF s.ft home p.a i)) :=
  writesFar_of_map he hr hc hsel rfl rfl

/-- A far form with two float sources writes its function's results (R232, R237). -/
theorem float2_writes (c : R3 → Instr) (f : FT → Nat → Nat → Nat → Nat × Flags) (he : exec (c p) s = runFar (c p) (farFloat2 p f) s)
    (hc : noCond (s.farConds (s.groupsOf p.d [p.a, p.b]) s.isFloat)) :
    WritesFar (c p) s home (p.d.toNat % 16) s.cur.cfg.sew (fun i =>
      f s.ft p.rm.toNat (s.fsrcF s.ft home p.a i) (s.fsrcF s.ft home p.b i)) :=
  writesFar_of_map he hr hc hsel rfl rfl

/-- A far form with three float sources writes its function's results (R232, R237). -/
theorem float3_writes (c : R3 → Instr) (f : FT → Nat → Nat → Nat → Nat → Nat × Flags)
    (he : exec (c p) s = runFar (c p) (farFloat3 p f) s)
    (hc : noCond (s.farConds (s.groupsOf p.d [p.a, p.b, p.c]) s.isFloat)) :
    WritesFar (c p) s home (p.d.toNat % 16) s.cur.cfg.sew (fun i =>
      f s.ft p.rm.toNat (s.fsrcF s.ft home p.a i) (s.fsrcF s.ft home p.b i) (s.fsrcF s.ft home p.c i)) :=
  writesFar_of_map he hr hc hsel rfl rfl

/-- A far integer form writes the results of its operation on bit vectors of SEW bits (R236, R237). -/
theorem int2_writes (c : R3 → Instr) {g : Nat → Nat → Nat → Nat → Nat} {f : (w : Nat) → BitVec 4 → BitVec w → BitVec w → BitVec w}
    (hg : ∀ {w : Nat} (sf : BitVec 4) (x y : BitVec w), g w sf.toNat x.toNat y.toNat = (f w sf x y).toNat)
    (he : exec (c p) s = runFar (c p) (farInt2 p g) s) (hc : noCond (s.farConds (s.groupsOf p.d [p.a, p.b]) s.isInt)) :
    WritesFar (c p) s home (p.d.toNat % 16) s.cur.cfg.sew (fun k =>
      ((f s.cur.cfg.sew p.sf (BitVec.ofNat _ (s.fsrc home p.a k)) (BitVec.ofNat _ (s.fsrc home p.b k))).toNat, 0)) := by
  have toNat : ∀ a k, (BitVec.ofNat s.cur.cfg.sew (s.fsrc home a k)).toNat = s.fsrc home a k := fun a k => by
    rw [BitVec.toNat_ofNat, Nat.mod_eq_of_lt (s.fsrc_lt home a k)]
  refine (writesFar_of_map he hr hc hsel rfl rfl).congr (fun k => ?_) (fun _ => rfl)
  simp only [← hg, toNat]

/-- FEXPR writes what its program computes (R270). -/
theorem fexpr_writes {ops : List Nat} (hops : s.exprProg p = some ops)
    (hc : noCond (s.farConds (s.groupsOf p.d [p.a, p.b, p.c]) s.isFloat)) :
    WritesFar (.fexpr p) s home (p.d.toNat % 16) s.cur.cfg.sew (fun i => exprEval s.ft p.rm.toNat (fun b =>
      if b = 1 then s.fsrcF s.ft home p.a i else if b = 2 then s.fsrcF s.ft home p.b i else if b = 3 then s.fsrcF s.ft home p.c i
      else if b = 4 then s.farElem home (p.d.toNat % 16) s.cur.cfg.sew i
      else (s.kread (p.imm.toNat % 256 + 3 + (b - 0x40))).toNat % 2 ^ s.cur.cfg.sew) ops) := by
  have h := writesFar_of_map (i := .fexpr p) (op := farExpr p) rfl hr (noCond_append hc (by simp [noCond, hops])) hsel rfl rfl
  simpa only [hops, Option.getD_some] using h

/-- The far VBCAST writes the element it selects or the broadcast value (R248). -/
theorem fVbcast_writes (hc : noCond (s.farConds (s.groupsOf p.d [p.a, p.b]) true)) :
    WritesFar (.fVbcast p) s home (p.d.toNat % 16) s.cur.cfg.sew (fun i =>
      let k := if p.b.tag = 0 then s.farElem home p.b.midx s.cur.cfg.sew i else (s.src p.b).toNat
      (if p.a.tag = 0 then (if k < s.cur.cfg.vl.toNat then s.farElem home p.a.midx s.cur.cfg.sew k else 0) else (s.src p.a).toNat, 0)) := by
  refine (writesFar_of_map (i := .fVbcast p) (op := farVbcast p) rfl hr hc hsel rfl rfl).congr (fun k => ?_) (fun _ => rfl)
  by_cases ha : p.a.tag = 0
  · simp only [ha, if_true]
  · simp only [ha, if_false, Nat.mod_mod]

/-- FPUT copies the near register into the group (R273). -/
theorem fput_writes (hc : noCond (s.moveConds p (p.d.toNat % 16))) :
    WritesFar (.fput p) s home (p.d.toNat % 16) s.cur.cfg.sew (fun i => (s.cur.elem (nearReg p) i, 0)) := by
  refine writesFar_of_run (op := farPut p) rfl hr hc hsel rfl ?_
  simpa [farPut, State.poisonedBy_of_clean hr.clean, State.putFar_of_clean hr.clean] using (orFlags_replicate_zero _).symm

end

/-- Writing a value for each of some distinct elements of a near register writes exactly those (R70). -/
theorem wroteElems_of_writeElems {s t : State} {d : BitVec 6} {els : List Nat} (hn : els.Nodup) (f : Nat → Nat) (hcfg : t.cur.cfg = s.cur.cfg)
    (hvec : t.cur.vec = (writeElems s.cur (vd d) (els.map (fun i => (i, f i)))).vec) : wroteElems s t d (· ∈ els) f := by
  have helem : ∀ i, t.cur.elem (vd d) i = (writeElems s.cur (vd d) (els.map (fun i => (i, f i)))).elem (vd d) i := fun i => by
    simp only [Hart.elem, hvec, hcfg, writeElems_cfg]
  refine ⟨fun i hi => ?_, fun i hi => ?_, fun r hr => ?_⟩
  · rw [helem]
    exact elem_writeElems_inside _ _ _ (by simpa [Function.comp_def] using hn) (List.mem_map.mpr ⟨i, hi, rfl⟩)
  · rw [helem]
    refine elem_writeElems_outside _ _ _ (fun e he hei => hi ?_)
    obtain ⟨j, hj, rfl⟩ := List.mem_map.mp he
    exact hei ▸ hj
  · rw [hvec]
    exact writeElems_other _ _ _ hr

/-- A far form that wrote one near register and no flag leaves the rest of the machine as it was. -/
theorem vecFrame_completes (s : State) (r : Fin 64) (els : List (Nat × Nat)) :
    vecFrame s (s.writeVec r els).noRequest.completedV ∧ (s.writeVec r els).noRequest.completedV.cur.mask = s.cur.mask ∧
      sameFlags s (s.writeVec r els).noRequest.completedV := by
  obtain ⟨q, hq⟩ := s.writeVec_frame r els
  obtain ⟨v, hv⟩ := writeElems_frame r els s.cur
  rw [hq, hv]
  refine ⟨⟨sameG_of_eq ?_, ?_, sameMemory_of_eq ?_ ?_ ?_, ?_, finishes_completedV ?_ rfl rfl rfl⟩, ?_, ?_⟩ <;>
    simp [State.noRequest, sameSpecial, sameOthers, sameFlags]

/-- The near register of FGET is the one that IMM21[5:0] names (R273). -/
theorem vd_ofNat_imm (p : R3) : vd (BitVec.ofNat 6 p.imm.toNat) = nearReg p :=
  Fin.ext (by simp [vd, nearReg])

/-- The elements that FGET reads of its far group, each with its value (R273). -/
def State.fgetData (s : State) (p : R3) (home : Nat) : List (Nat × Nat) :=
  s.farEls.map (fun i => (i, s.farElem home p.a.midx s.cur.cfg.sew i))

theorem farGet_run {p : R3} {s : State} (h : s.clean = true) (home : Nat) :
    (farGet p).run s home = ⟨s, 0, s.fgetData p home, none⟩ := by
  simp [farGet, State.poisonedBy_of_clean h, State.fgetData]

theorem farDone_farGet (p : R3) (s : State) (data : List (Nat × Nat)) : s.farDone (farGet p) 0 data = s.writeVec (nearReg p) data := by
  simp [State.farDone, farGet, State.raise]

/-- FGET copies the far group into its near register (R273). -/
theorem fget_writes {p : R3} {s : State} {home : Nat} (hr : s.farReady home) (hsel : s.stkStack p = .ok home)
    (hc : noCond (s.moveConds p p.a.midx)) : ∃ t, exec (.fget p) s = .next t ∧
    wroteElems s t (BitVec.ofNat 6 p.imm.toNat) s.farPerforms (s.farElem home p.a.midx s.cur.cfg.sew) ∧ t.cur.mask = s.cur.mask ∧
      sameFlags s t ∧ vecFrame s t := by
  have hex : exec (.fget p) s = _ := runFar_completes (i := .fget p) hr hc hsel (farGet_run hr.clean home) rfl
  rw [farDone_farGet] at hex
  obtain ⟨hframe, hmask, hflags⟩ := vecFrame_completes s (nearReg p) (s.fgetData p home)
  refine ⟨_, hex, ?_, hmask, hflags, hframe⟩
  rw [← State.mem_farEls_eq]
  refine wroteElems_of_writeElems s.nodup_farEls _ ?_ ?_
  · simp [State.noRequest]
  · rw [vd_ofNat_imm]
    simp [State.noRequest, State.fgetData]

/-- Settles O38: every form maps its sources over the elements that it performs, into the far group or, for FGET, into a near register. -/
theorem farElementwiseResults : Obligations.FarElementwiseResults := by
  intro p s home hr hsel
  exact ⟨
    fun hc => ⟨float2_writes hr hsel .fVadd eAdd rfl hc, float2_writes hr hsel .fVsub eSub rfl hc,
      float2_writes hr hsel .fVmul eMul rfl hc, float2_writes hr hsel .fVmin eMin rfl hc, float2_writes hr hsel .fVmax eMax rfl hc⟩,
    fun hc => ⟨float3_writes hr hsel .fVfma eFma rfl hc, float3_writes hr hsel .fVfms eFms rfl hc,
      float3_writes hr hsel .fVnfma eNfma rfl hc, fun ops hops => fexpr_writes hr hsel hops hc⟩,
    fun hc => ⟨float1_writes hr hsel .fVabs eAbs rfl hc, float1_writes hr hsel .fVneg eNeg rfl hc⟩,
    fun hc => ⟨int2_writes hr hsel .fViadd iAdd_toNat rfl hc, int2_writes hr hsel .fVisub iSub_toNat rfl hc,
      int2_writes hr hsel .fVimul iMul_toNat rfl hc, int2_writes hr hsel .fVimulh iMulh_toNat rfl hc,
      int2_writes hr hsel .fVand iAnd_toNat rfl hc, int2_writes hr hsel .fVor iOr_toNat rfl hc,
      int2_writes hr hsel .fVxor iXor_toNat rfl hc, int2_writes hr hsel .fVshl iShl_toNat rfl hc,
      int2_writes hr hsel .fVshr iShr_toNat rfl hc, int2_writes hr hsel .fVsra iSra_toNat rfl hc,
      int2_writes hr hsel .fVimin iMin_toNat rfl hc, int2_writes hr hsel .fVimax iMax_toNat rfl hc⟩,
    fun hc => writesFar_of_map rfl hr hc hsel rfl rfl, fun hc => fVbcast_writes hr hsel hc, fun hc => fget_writes hr hsel hc,
    fun hc => fput_writes hr hsel hc⟩

end Sys2Proof.Machine
end

section
/-! PROOFS. YIELD (R57, R58, R218): what a save keeps of the vector state and what it clears. -/

namespace Sys2Proof.Machine

/-! ### Fields of a value cut to its low bits -/

/-- A field within the bits that are kept reads as before. -/
theorem bits_mod_of_le {v lo w k : Nat} (h : lo + w ≤ k) : bits (v % 2 ^ k) lo w = bits v lo w := by
  unfold bits
  rw [← Nat.add_sub_cancel' (Nat.le_of_add_right_le h), Nat.pow_add, Nat.mod_mul_right_div_self,
    Nat.mod_mod_of_dvd _ (Nat.pow_dvd_pow 2 (Nat.le_sub_of_add_le' h))]

/-- A field beyond the bits that are kept reads zero. -/
theorem bits_mod_of_ge {v lo w k : Nat} (h : k ≤ lo) : bits (v % 2 ^ k) lo w = 0 := by
  have hlt : v % 2 ^ k < 2 ^ lo := (Nat.mod_lt _ (Nat.two_pow_pos k)).trans_le (Nat.pow_le_pow_right (by decide) h)
  rw [bits, Nat.div_eq_of_lt hlt, Nat.zero_mod]

/-! ### The saved hart -/

theorem Hart.elem_congr {h k : Hart} (hv : k.vec = h.vec) (hc : k.cfg.sew = h.cfg.sew) (r : Fin 64) (i : Nat) : k.elem r i = h.elem r i := by
  simp only [Hart.elem, hv, hc]

theorem Hart.maskBit_congr {h k : Hart} (hm : k.mask = h.mask) (q : Fin 8) (i : Nat) : k.maskBit q i = h.maskBit q i := by
  simp only [Hart.maskBit, hm]

theorem Hart.elem_yielded (h : Hart) (n : Nat) (r : Fin 64) (i : Nat) :
    (h.yielded n).elem r i = if i < n then h.elem r i else 0 := by
  have hvec : (h.yielded n).elem r i = bits (h.vec[r] % 2 ^ (n * h.cfg.sew)) (h.cfg.sew * i) h.cfg.sew := by
    simp [Hart.elem, Hart.yielded, VCfg.sew]
  rw [hvec]
  split
  · next hi =>
    refine bits_mod_of_le ?_
    rw [← Nat.mul_succ, Nat.mul_comm]
    exact Nat.mul_le_mul_right _ hi
  · next hi =>
    refine bits_mod_of_ge ?_
    rw [Nat.mul_comm]
    exact Nat.mul_le_mul_left _ (Nat.le_of_not_lt hi)

theorem Hart.maskBit_yielded (h : Hart) (n : Nat) (q : Fin 8) (i : Nat) :
    (h.yielded n).maskBit q i = (decide (i < n) && h.maskBit q i) := by
  have hmask : (h.yielded n).maskBit q i = (bits (h.mask[q] % 2 ^ n) i 1 == 1) := by
    simp [Hart.maskBit, Hart.yielded, bit_eq_bits]
  rw [hmask]
  by_cases hi : i < n
  · rw [bits_mod_of_le hi, decide_eq_true hi, Bool.true_and]
    rfl
  · rw [bits_mod_of_ge (Nat.le_of_not_lt hi), decide_eq_false hi]
    rfl

/-- Once the queue and the posted stores are done YIELD saves the hart (R57, R218). -/
theorem exec_yield {p : R1} {s : State} (hn : (s.src p.a).toNat ≤ s.cur.cfg.vlmaxOf 1) (hq : s.cur.vq = []) (hl : s.lostStore = none)
    (hs : s.stuck = none) : exec (.yield p) s = .next (s.settle.yield (s.src p.a).toNat).completed := by
  change execYield p s = _
  simp [execYield, afterQueue, State.afterStores, Nat.not_lt.mpr hn, hq, hl, hs]

/-- The hart that a save by YIELD leaves is the one cut to n elements, its far banks stowed with it (R57). -/
theorem yield_cur (s : State) (n : Nat) :
    ∃ b bp, (s.yield n).cur = { (s.markLeft s.cur).yielded n with bank := b, bankPoison := bp } := by
  have hcov : (s.coverYield n).cur = s.cur := by
    unfold State.coverYield
    split <;> rfl
  refine ⟨(s.coverYield n).stow.cur.bank, (s.coverYield n).stow.cur.bankPoison, ?_⟩
  simp only [State.yield, State.stow, State.markLeft, Hart.yielded, hcov]
  rfl

/-- A save by YIELD after the posted stores, which leave the hart but for its reservation, field by field (R57, R58). -/
theorem yield_saves (s : State) (n : Nat) : ∃ t, (s.settle.yield n).completed = t ∧ t.cur.phase = .saved ∧ t.cur.pc = s.cur.npc ∧
    t.cur.cfg = { s.cur.cfg with vl := 0 } ∧ t.cur.notice.pend = false ∧ t.cur.resv = none ∧ t.cur.event = false ∧
    t.cur.trap = { s.cur.trap with pin := false } ∧ t.cur.g = s.cur.g ∧ t.cur.aflags = s.cur.aflags ∧ t.cur.accs = s.cur.accs ∧
    t.cur.vec = (s.cur.yielded n).vec ∧ t.cur.mask = (s.cur.yielded n).mask := by
  obtain ⟨r, hr⟩ := keepsHart_settle s
  obtain ⟨b, bp, hcur⟩ := yield_cur s.settle n
  rw [hr] at hcur
  refine ⟨_, rfl, ?_⟩
  rw [State.completed, hcur]
  exact ⟨rfl, rfl, rfl, rfl, rfl, rfl, rfl, rfl, rfl, rfl, rfl, rfl⟩

/-- Settles O21: the save keeps the elements and mask bits below n and drops those at or above it. -/
theorem yieldSavesTheHart : Obligations.YieldSavesTheHart := by
  intro p s n hn hq hl hs
  obtain ⟨t, ht, hphase, hpc, hcfg, hpend, hresv, hevent, htrap, hg, hflags, haccs, hvec, hmask⟩ := yield_saves s n
  have helem : ∀ q i, t.cur.elem q i = if i < n then s.cur.elem q i else 0 := fun q i =>
    (Hart.elem_congr hvec (by rw [hcfg]; rfl) q i).trans (s.cur.elem_yielded n q i)
  have hbit : ∀ q i, t.cur.maskBit q i = (decide (i < n) && s.cur.maskBit q i) := fun q i =>
    (Hart.maskBit_congr hmask q i).trans (s.cur.maskBit_yielded n q i)
  refine ⟨t, (exec_yield hn hq hl hs).trans (congrArg _ ht), hphase, hpc, hcfg, hpend, hresv, hevent, htrap, sameG_of_eq hg, hflags, haccs,
    fun q i hi => ?_, fun q i hi => ?_, fun q i hi => ?_, fun q i hi => ?_⟩
  · rw [helem, if_pos hi]
  · rw [helem, if_neg (Nat.not_lt.mpr hi)]
  · rw [hbit, decide_eq_true hi, Bool.true_and]
  · rw [hbit, decide_eq_false (Nat.not_lt.mpr hi), Bool.false_and]

end Sys2Proof.Machine
end

section
/-! PROOFS. Vector configuration, stream binding and the grant rule (R47 to R52, R72, R73, R90, R225, R226, R229). -/

namespace Sys2Proof.Machine

/-! ### How a checked instruction of the vector queue ends -/

/-- An instruction that executes and meets no condition ends as its body does (R415). -/
theorem runV_checked {i : Instr} {n : Option Nat} {conds : List (Bool × Nat × Nat)} {body : State → Res} {s : State}
    (h : s.executes = true) (hc : noCond conds) : runV i n (checked conds body) s = retireV i s.cur.unf (body s) := by
  rw [runV_of_executes h, checked_of_noCond hc]

/-! ### VBIND (R52, R229) -/

/-- Everything but the stream binding and the place in the program is as before. -/
def keepsButStream (s t : State) : Prop :=
  sameG s t ∧ sameVec s t ∧ sameFlags s t ∧ t.cur.cfg = s.cur.cfg ∧ t.cur.accs = s.cur.accs ∧ t.cur.trap = s.cur.trap ∧
    sameMemory s t ∧ sameOthers s t ∧ finishes s t

/-- The state in which a binding has been set (R83). -/
def State.bound (s : State) (b : Stream) : State := { s.coverSr [0x006, 0x007] with cur := { s.cur with stream := b } }

theorem keepsButStream_bound (s : State) (b : Stream) : keepsButStream s (s.bound b).completedV := by
  refine ⟨sameG_of_eq ?_, ?_, ?_, ?_, ?_, ?_, sameMemory_of_eq ?_ ?_ ?_, ?_, finishes_completedV rfl rfl rfl rfl⟩ <;>
    simp [State.bound, sameVec, sameFlags, sameOthers]

theorem bound_completedV_stream (s : State) (b : Stream) : (s.bound b).completedV.cur.stream = b := by simp [State.bound]

section
variable {p : R2} {s : State} (he : s.executes = true) (hcfg : s.cur.configured = true)
include he hcfg

theorem exec_vbind (hb : (s.src p.b).toNat < 2 ^ 63) : exec (.vbind p) s = .next (s.bound
    (if (s.src p.a).toNat < 64 then ⟨true, BitVec.ofNat 6 (s.src p.a).toNat, BitVec.ofNat 63 (s.src p.b).toNat⟩ else ⟨false, 0, 0⟩)).completedV := by
  change execVbind p s = _
  rw [execVbind, runV_of_executes he, checked_of_noCond (by simp [noCond, hcfg]; exact hb)]
  simp only
  split <;> rfl

theorem exec_vbindOff : exec (.vbindOff p) s = .next (s.bound ⟨false, 0, 0⟩).completedV := by
  change execVbindOff p s = _
  rw [execVbindOff, runV_of_executes he, checked_of_noCond (by simp [noCond, hcfg])]
  rfl

end

/-- Settles O32: each of the two sets the binding and nothing else. -/
theorem streamBindingResults : Obligations.StreamBindingResults := by
  intro p s he hcfg
  refine ⟨fun hb ha => ⟨_, exec_vbind he hcfg hb, keepsButStream_bound s _, ?_⟩,
    fun hb ha => ⟨_, exec_vbind he hcfg hb, keepsButStream_bound s _, ?_⟩,
    ⟨_, exec_vbindOff he hcfg, keepsButStream_bound s _, bound_completedV_stream s _⟩⟩
  · rw [bound_completedV_stream, if_pos ha]
    exact ⟨rfl, (BitVec.toNat_ofNat _ _).trans (Nat.mod_eq_of_lt ha), (BitVec.toNat_ofNat _ _).trans (Nat.mod_eq_of_lt hb)⟩
  · rw [bound_completedV_stream, if_neg (Nat.not_lt.mpr ha)]

/-! ### Registers that are zeroed -/

/-- Every element and mask bit of a hart reads zero. -/
def Hart.blank (h : Hart) : Prop := (∀ r i, h.elem r i = 0) ∧ ∀ q i, h.maskBit q i = false

/-- A hart whose registers are those of a zeroed one reads zero everywhere (R49, R72, R90). -/
theorem Hart.blank_of_zeroed {h k : Hart} (hv : h.vec = k.zeroVectors.vec) (hm : h.mask = k.zeroVectors.mask) : h.blank := by
  refine ⟨fun r i => ?_, fun q i => ?_⟩
  · simp [Hart.elem, hv, Hart.zeroVectors, bits]
  · simp [Hart.maskBit, hm, Hart.zeroVectors, bit]

/-- Cleaning the vector words of poison changes poison alone. -/
theorem State.cleanVec_eq (s : State) : s.cleanVec = { s with poison := s.cleanVec.poison } := rfl

/-! ### VCFG (R72, R73, R225) -/

/-- The registers counts that R80 encodes. -/
theorem nregCode_eq {k : Nat} (hk : k < 4) : nregCode (8 * 2 ^ k) = some k := by
  have : k = 0 ∨ k = 1 ∨ k = 2 ∨ k = 3 := by omega
  rcases this with rfl | rfl | rfl | rfl <;> rfl

/-- Low bits that a mask has before and after a change of VLMAX stay (R73). -/
theorem bit_keepMask_of_lt {old new v free i : Nat} (ho : i < old) (hn : i < new) : bit (keepMask old new v free) i = bit v i := by
  rw [bit_eq_bits, keepMask, bits_mod_of_le hn, bit_eq_bits]
  split
  · rw [← bits_mod_of_le (v := v % 2 ^ old + free * 2 ^ old) (k := old) ho, Nat.add_mul_mod_self_right, Nat.mod_mod, bits_mod_of_le ho]
  · rfl

/-- A mask has no bit at or above the new VLMAX (R73). -/
theorem bit_keepMask_of_ge {old new v free i : Nat} (hn : new ≤ i) : bit (keepMask old new v free) i = false := by
  rw [bit_eq_bits, keepMask, bits_mod_of_ge hn]
  rfl

/-- The state that VCFG of 8 · 2^k registers leaves before it completes (R225). -/
def State.retyped (s : State) (d : BitVec 6) (k : Nat) (et : BitVec 4) : State :=
  let t := if k = s.cur.cfg.nregc.toNat then s else s.cleanVec
  let t := { t.draw.coverSr [0x000, 0x001] with cur := s.cur.configure k et.toNat s.free }
  t.setG (gd d) (BitVec.ofNat 64 (s.cur.configure k et.toNat s.free).vlmax)

theorem exec_vcfg {p : R1} {s : State} {k : Nat} (he : s.executes = true) (hsrc : (s.src p.a).toNat = 8 * 2 ^ k) (hk : k < 4) :
    exec (.vcfg p) s = .next (s.retyped p.d k p.sf).completedV := by
  change execVcfg p s = _
  rw [execVcfg, runV_of_executes he]
  simp only [hsrc, nregCode_eq hk]
  rw [State.retyped]
  split <;> rfl

/-- VCFG changes the acting hart's type, registers and destination, and marks of poison (R225). -/
theorem retyped_frame (s : State) (d : BitVec 6) (k : Nat) (et : BitVec 4) : ∃ ps, s.retyped d k et =
    { s with cur := (s.cur.configure k et.toNat s.free).setG (gd d) (BitVec.ofNat 64 (s.cur.configure k et.toNat s.free).vlmax)
             free := s.free + 1, poison := ps } := by
  unfold State.retyped State.setG State.coverSr
  split <;> simp only <;> split <;> exact ⟨_, rfl⟩

/-- What VCFG makes of a hart: a change of NREG zeroes the registers, and otherwise the vector registers stay and the masks at the
positions that exist before and after (R72, R73). -/
theorem Hart.configure_eq (h : Hart) (k free : Nat) (et : BitVec 4) : ∃ v m,
    h.configure k et.toNat free = { h with cfg := ⟨0, false, h.cfg.fresh, BitVec.ofNat 2 k, et⟩, vec := v, mask := m } ∧
    (k ≠ h.cfg.nregc.toNat → v = h.zeroVectors.vec ∧ m = h.zeroVectors.mask) ∧
    (k = h.cfg.nregc.toNat → v = h.vec ∧ ∀ q : Fin 8, m[q] = keepMask h.vlmax
      (VCfg.vlmaxOf ⟨0, false, h.cfg.fresh, BitVec.ofNat 2 k, et⟩ h.grant) h.mask[q] (Config.lostMask free q)) := by
  unfold Hart.configure
  rw [BitVec.ofNat_toNat, BitVec.setWidth_eq]
  by_cases hk : k = h.cfg.nregc.toNat
  · exact ⟨_, _, if_pos hk, fun hne => absurd hk hne, fun _ => ⟨rfl, fun q => by simp⟩⟩
  · exact ⟨_, _, if_neg hk, fun _ => ⟨rfl, rfl⟩, fun heq => absurd heq hk⟩

/-- VLMAX of 8 · 2^k registers of a type (R68). -/
theorem vlmaxOf_retyped {k : Nat} (hk : k < 4) (fresh : Bool) (et : BitVec 4) (g : Nat) :
    VCfg.vlmaxOf ⟨0, false, fresh, BitVec.ofNat 2 k, et⟩ g = g * 131072 / (8 * 2 ^ k) / sewOf et.toNat := by
  simp [VCfg.vlmaxOf, VCfg.nreg, VCfg.sew, Nat.mod_eq_of_lt hk]

/-- VCFG completes with its type, and with the registers that R72 and R73 give. -/
theorem vectorConfigurationResults : VectorConfigurationResults := by
  intro p s k he hsrc hk c
  obtain ⟨ps, hframe⟩ := retyped_frame s p.d k p.sf
  obtain ⟨v, m, hcfg, hzero, hkeep⟩ := s.cur.configure_eq k s.free p.sf
  have hex := exec_vcfg (p := p) he hsrc hk
  rw [hframe, hcfg] at hex
  refine ⟨_, hex, by simp [c], finishes_completedV ?_ ?_ ?_ ?_, fun r hr => ?_, fun hd => ?_, fun hne => ?_, fun heq => ?_, ?_, ?_, ?_, ?_,
    sameMemory_of_eq ?_ ?_ ?_, ?_⟩
  case refine_5 => rw [Hart.greg_congr (State.completedV_cur_g _) r, Hart.greg_setG_other _ _ _ _ hr]; rfl
  case refine_6 =>
    rw [Hart.greg_congr (State.completedV_cur_g _), Hart.greg_setG_self _ _ _ hd, BitVec.toNat_ofNat, ← vlmaxOf_retyped hk s.cur.cfg.fresh]
    rfl
  case refine_7 =>
    obtain ⟨hv, hm⟩ := hzero hne
    exact Hart.blank_of_zeroed (by simpa using hv) (by simpa using hm)
  case refine_8 =>
    obtain ⟨hv, hm⟩ := hkeep heq
    refine ⟨by simpa using hv, fun q i => ?_⟩
    rw [Hart.maskBit_congr (State.completedV_cur_mask _), Hart.maskBit_congr (Hart.setG_mask _ _ _), Hart.maskBit, hm q]
    exact ⟨fun ho hn => bit_keepMask_of_lt ho hn, fun hn => bit_keepMask_of_ge hn⟩
  all_goals simp [sameFlags, sameOthers]

/-! ### The grant rule (R47 to R49) -/

/-- What zeroing registers that read fresh and the grant rule can change: the lane groups and when they changed, the registers and masks,
and marks of poison. -/
def Regranted (s t : State) : Prop := ∃ v m seat shift ps, t =
  { s with cur := { s.cur with vec := v, mask := m, seat := seat, lastShift := shift, cfg := { s.cur.cfg with fresh := false } }, poison := ps }

/-- Every change of the grant is the grant of a list of lane groups, taken from the hart's own or with some of the pool (R48). -/
theorem rebalance_cases (s : State) : s.rebalance = s ∨ ∃ lanes, s.rebalance = s.regrant lanes ∧
    ((lanes = s.cur.seat.lanes.take lanes.length ∧ lanes.length < s.cur.seat.lanes.length) ∨
      ∀ k ∈ lanes, k ∈ s.cur.seat.lanes ∨ k ∈ s.pool s.cur.mod s.cur.seat.core) := by
  unfold State.rebalance
  cases s.launch? s.cur.id.launch with
  | none => exact .inl rfl
  | some l =>
    cases s.share? s.cur.id.launch s.cur.id.rank with
    | none => exact .inl rfl
    | some sh =>
      simp only
      split_ifs with hstay hless hmore
      · exact .inl rfl
      · obtain ⟨hlt, -⟩ := Bool.and_eq_true_iff.mp hless
        have hlen := Nat.min_eq_left (Nat.le_of_lt (of_decide_eq_true hlt))
        refine .inr ⟨_, rfl, .inl ?_⟩
        rw [List.length_take]
        change List.take _ _ = List.take (min _ s.cur.grant) _ ∧ min _ s.cur.grant < s.cur.grant
        rw [hlen]
        exact ⟨rfl, of_decide_eq_true hlt⟩
      · refine .inr ⟨_, rfl, .inr fun k hk => ?_⟩
        rw [laneSet, List.mem_filter, List.contains_iff_mem, List.mem_append] at hk
        exact hk.2.imp_right List.mem_of_mem_take
      · exact .inl rfl

/-- Registers that read fresh are zeroed; others stay (R90). -/
theorem readied_eq (s : State) : ∃ v m ps, s.readied =
    { s with cur := { s.cur with vec := v, mask := m, cfg := { s.cur.cfg with fresh := false } }, poison := ps } ∧
    (s.cur.cfg.fresh = true → v = s.cur.zeroVectors.vec ∧ m = s.cur.zeroVectors.mask) ∧
    (s.cur.cfg.fresh = false → v = s.cur.vec ∧ m = s.cur.mask) := by
  unfold State.readied
  cases hf : s.cur.cfg.fresh with
  | true => exact ⟨_, _, _, rfl, fun _ => ⟨rfl, rfl⟩, fun h => absurd h (by simp)⟩
  | false => exact ⟨s.cur.vec, s.cur.mask, s.poison, (if_neg Bool.false_ne_true).trans (by rw [← hf]), fun h => absurd h (by simp), fun _ => ⟨rfl, rfl⟩⟩

theorem regranted_readied (s : State) : Regranted s s.readied := by
  obtain ⟨v, m, ps, h, -⟩ := readied_eq s
  exact ⟨v, m, s.cur.seat, s.cur.lastShift, ps, h⟩

theorem regranted_rebalance {s t : State} (h : Regranted s t) : Regranted s t.rebalance := by
  rcases rebalance_cases t with hr | ⟨lanes, hr, -⟩
  · rw [hr]
    exact h
  · obtain ⟨v, m, seat, shift, ps, rfl⟩ := h
    rw [hr]
    exact ⟨_, _, _, _, _, rfl⟩

/-- What VSETL reads beside the grant is as it was before zeroing and regranting. -/
theorem Regranted.reads {s t : State} (h : Regranted s t) : (∀ a, t.src a = s.src a) ∧ t.boundCell = s.boundCell ∧ t.watched = s.watched ∧
    t.cur.stream = s.cur.stream ∧ t.cur.notice = s.cur.notice ∧ t.cur.trap = s.cur.trap ∧ t.cur.seen = s.cur.seen := by
  obtain ⟨v, m, seat, shift, ps, rfl⟩ := h
  exact ⟨fun _ => rfl, rfl, rfl, rfl, rfl, rfl, rfl⟩

/-! ### VSETL (R52, R226) -/

theorem exec_vsetl {p : R1} {s : State} (he : s.executes = true) (hill : s.cur.cfg.ill = false) :
    exec (.vsetl p) s = retireV (.vsetl p) s.cur.unf (vsetlBody p s.readied) := by
  change execVsetl p s = _
  rw [execVsetl, runV_checked he (by simp [noCond, hill])]
  rfl

/-- The state in which a VSETL has given `n` elements, the binding at `b`, before it completes (R226). -/
def State.gave (s : State) (b : Stream) (d : BitVec 6) (n : Nat) (cover : List Nat) : State :=
  ({ ({ s with cur := { s.cur with stream := b } } : State).coverSr cover with cur := { s.cur with
      stream := b, cfg := { s.cur.cfg with vl := BitVec.ofNat 18 n }, eager := false, seen := none } } : State).setG (gd d) (BitVec.ofNat 64 n)

/-- Giving elements leaves all but the acting hart and marks of poison. -/
theorem gave_frame (s : State) (b : Stream) (d : BitVec 6) (n : Nat) (cover : List Nat) : ∃ ps, s.gave b d n cover =
    { s with cur := { s.cur with stream := b, cfg := { s.cur.cfg with vl := BitVec.ofNat 18 n }, eager := false, seen := none }.setG (gd d)
              (BitVec.ofNat 64 n)
             poison := ps } := by
  unfold State.gave State.setG State.coverSr
  split <;> exact ⟨_, rfl⟩

/-- The elements that a VSETL gives under the grant as it stands in `t`, of a hart that no notice stops: its request and VLMAX, bound no more
than the cell holds beyond sr.bpos (R52). -/
theorem vsetlBody_calm {p : R1} {s t : State} (hseen : s.cur.seen ≠ some s.watched) (hcalm : s.cur.notice.pend = false ∨ s.cur.trap.hm = true)
    (ht : Regranted s t) (hr : s.readied.rebalance = t) :
    let want := min (s.src p.a).toNat t.cur.vlmax
    let pos := s.cur.stream.bpos.toNat
    let cell := s.boundCell
    (s.cur.stream.bound = false → vsetlBody p s.readied = .ok (t.gave s.cur.stream p.d want [0x000])) ∧
    (s.cur.stream.bound = true → pos < cell.index → vsetlBody p s.readied = .ok (t.gave
      { s.cur.stream with bpos := BitVec.ofNat 63 (pos + min want (cell.index - pos)) } p.d (min want (cell.index - pos)) [0x000, 0x006])) ∧
    (s.cur.stream.bound = true → cell.index ≤ pos → cell.closed = true →
      vsetlBody p s.readied = .ok (t.gave s.cur.stream p.d 0 [0x000])) ∧
    (s.cur.stream.bound = true → cell.index ≤ pos → cell.closed = false → vsetlBody p s.readied =
      .wait (BitVec.ofNat 64 s.cur.stream.cell.toNat) { t with cur := { t.cur with seen := some s.watched } }) := by
  obtain ⟨hsrc, hcell, hwatch, hstream, hnotice, htrap, hseen'⟩ := (regranted_readied s).reads
  obtain ⟨-, tcell, twatch, tstream, -, -, -⟩ := ht.reads
  have hnot : (s.cur.notice.pend && !s.cur.trap.hm) = false := by rcases hcalm with h | h <;> simp [h]
  intro want pos cell
  rw [vsetlBody, hseen', hwatch, if_neg hseen, hnotice, htrap, hnot, if_neg Bool.false_ne_true]
  simp only [hr, hsrc, tcell, twatch]
  rw [← tstream]
  refine ⟨fun hb => ?_, fun hb hp => ?_, fun hb hp hc => ?_, fun hb hp hc => ?_⟩
  · rw [if_neg (by simp [hb])]
    rfl
  · rw [if_pos hb, tstream, if_pos hp]
    rfl
  · rw [if_pos hb, tstream, if_neg (Nat.not_lt.mpr hp), if_pos hc, ← tstream]
    rfl
  · rw [if_pos hb, tstream, if_neg (Nat.not_lt.mpr hp), if_neg (fun h => Bool.false_ne_true (hc.symm.trans h))]

/-- Under a notice outside handler mode a VSETL gives nothing and applies no grant rule (R56, R226). -/
theorem vsetlBody_noticed {p : R1} {s : State} (hseen : s.cur.seen ≠ some s.watched) (hp : s.cur.notice.pend = true)
    (hm : s.cur.trap.hm = false) : vsetlBody p s.readied = .ok (s.readied.gave s.cur.stream p.d 0 [0x000]) := by
  obtain ⟨-, -, hwatch, hstream, hnotice, htrap, hseen'⟩ := (regranted_readied s).reads
  rw [vsetlBody, hseen', hwatch, if_neg hseen, hnotice, htrap, hp, hm, ← hstream]
  rfl

/-- A VSETL that waited goes on waiting while what it watches is as it was (R52). -/
theorem vsetlBody_unchanged {p : R1} {s : State} (hseen : s.cur.seen = some s.watched) (hf : s.cur.cfg.fresh = false) :
    vsetlBody p s.readied = .wait (BitVec.ofNat 64 s.cur.stream.cell.toNat) s := by
  have hready : s.readied = s := by rw [State.readied, if_neg (by simp [hf])]
  rw [hready, vsetlBody, if_pos hseen]

/-- What a VSETL that gave elements under the grant of `t` leaves. -/
theorem gaveUnder_completedV {s t : State} (h : Regranted s t) (b : Stream) (d : BitVec 6) (n : Nat) (cover : List Nat) :
    gaveUnder s t (t.gave b d n cover).completedV d n ∧ (t.gave b d n cover).completedV.cur.stream = b ∧
      (t.gave b d n cover).completedV.cur.trap = s.cur.trap := by
  obtain ⟨ps, hg⟩ := gave_frame t b d n cover
  obtain ⟨v, m, seat, shift, qs, rfl⟩ := h
  rw [hg]
  refine ⟨⟨?_, ?_, ?_, ?_, ?_, ?_, fun hd => ?_, fun r hr => ?_, ?_, sameMemory_of_eq ?_ ?_ ?_, finishes_completedV ?_ ?_ ?_ ?_⟩, ?_, ?_⟩
  case refine_7 => rw [Hart.greg_congr (State.completedV_cur_g _), Hart.greg_setG_self _ _ _ hd]
  case refine_8 => rw [Hart.greg_congr (State.completedV_cur_g _), Hart.greg_setG_other _ _ _ _ hr]; rfl
  all_goals simp [sameFlags]

/-- An instruction that does not complete stands at the head of the queue, the hart otherwise as it was (R390). -/
theorem enqueue_frame (s : State) (i : Instr) (b : Bool) : ∃ q k c, s.enqueue i b =
    { s with cur := { s.cur with active := none, vq := q, moved := k, pc := c } } := by
  unfold State.enqueue
  split
  · exact ⟨_, _, _, rfl⟩
  · next ha => exact ⟨_, _, _, by rw [← ha]⟩

/-- A vector-queue instruction that waits leaves the hart Waiting on `on`, its registers and the rest of the machine as they were (R59). -/
theorem retireV_wait (i : Instr) (was : Unfinished) (on : Word) (s : State) : ∃ c, retireV i was (.wait on s) = .next { s with cur := c } ∧
    c.phase = .waiting ∧ c.waitOn = some on ∧ c.seat = s.cur.seat ∧ c.vec = s.cur.vec ∧ c.mask = s.cur.mask ∧
    c.g = s.cur.g ∧ c.stream = s.cur.stream ∧ c.cfg = s.cur.cfg ∧ c.seen = s.cur.seen := by
  obtain ⟨q, k, c, he⟩ := enqueue_frame s i false
  refine ⟨((s.enqueue i false).waits on).cur, ?_⟩
  rw [retireV, he]
  exact ⟨rfl, rfl, rfl, rfl, rfl, rfl, rfl, rfl, rfl, rfl⟩

/-! ### The arbiter (R47) -/

/-- The stage that wins a lane group is one of those given, and stands below its ceiling. -/
theorem bestStage_mem : ∀ {xs : List (Nat × Stage)} {y : Nat × Stage}, bestStage xs = some y → y ∈ xs ∧ y.2.t < y.2.c
  | [], _, h => by cases h
  | x :: rest, y, h => by
    unfold bestStage at h
    simp only at h
    have hrest : bestStage rest = some y → y ∈ x :: rest ∧ y.2.t < y.2.c := fun hr =>
      (bestStage_mem hr).imp_left (List.mem_cons_of_mem x)
    split at h
    · next hx =>
      have hfirst : some x = some y → y ∈ x :: rest ∧ y.2.t < y.2.c := fun e => Option.some.inj e ▸ ⟨List.mem_cons_self, hx.1⟩
      split at h
      · next z hz =>
        split at h
        · exact hfirst h
        · exact hrest h
      · exact hfirst h
    · exact hrest h

/-- Handing out lane groups takes no stage below where it starts, nor above its ceiling (R47). -/
theorem spread_within (n : Nat) : ∀ (xs : List Stage) (i : Nat) (x y : Stage), xs[i]? = some x → (spread n xs)[i]? = some y →
    x.t ≤ y.t ∧ (y.t ≤ x.t ∨ y.t ≤ x.c) := by
  induction n with
  | zero =>
    intro xs i x y hx hy
    obtain rfl : x = y := Option.some.inj (hx.symm.trans hy)
    exact ⟨le_rfl, .inl le_rfl⟩
  | succ n ih =>
    intro xs i x y hx hy
    unfold spread at hy
    split at hy
    · obtain rfl : x = y := Option.some.inj (hx.symm.trans hy)
      exact ⟨le_rfl, .inl le_rfl⟩
    · next k z hz =>
      obtain ⟨hmem, hlt⟩ := bestStage_mem hz
      have hk : xs[k]? = some z := by simpa [List.mem_zipIdx_iff_getElem?] using hmem
      by_cases hik : i = k
      · subst hik
        obtain rfl : x = z := Option.some.inj (hx.symm.trans hk)
        have h := ih (xs.set i { x with t := x.t + 1 }) i { x with t := x.t + 1 } y
          (by rw [List.getElem?_set_self (List.getElem?_eq_some_iff.mp hx).1]) hy
        simp only at h hlt
        omega
      · exact ih _ i x y (by rw [List.getElem?_set_ne (Ne.symm hik)]; exact hx) hy

/-- A hart of no pipeline, of a carry stage, pinned, or within its stage's rebalance hold keeps its grant (R48). -/
theorem rebalance_stays {s : State} {l : Launch} (hl : s.launch? s.cur.id.launch = some l)
    (h : l.pkt.stages < 2 ∨ l.pkt.carry.getD s.cur.seat.stage false = true ∨ s.cur.trap.pin = true ∨
      ∃ sh k, s.share? s.cur.id.launch s.cur.id.rank = some sh ∧ s.cur.lastShift = some k ∧
        s.since k < sh.holds.getD s.cur.seat.stage 0 ∧ s.cur.eager = false) : s.rebalance = s := by
  unfold State.rebalance
  rw [hl]
  cases hs : s.share? s.cur.id.launch s.cur.id.rank with
  | none => rfl
  | some sh =>
    refine if_pos ?_
    simp only [Bool.or_eq_true, Bool.and_eq_true, decide_eq_true_eq, Bool.not_eq_true']
    rcases h with h | h | h | ⟨sh', k, hsh, hk, hsince, he⟩
    · exact .inl (.inl (.inl h))
    · exact .inl (.inl (.inr h))
    · exact .inl (.inr h)
    · obtain rfl : sh = sh' := Option.some.inj (hs.symm.trans hsh)
      rw [hk]
      exact .inr ⟨decide_eq_true hsince, he⟩

/-- A hart that is not in a pipeline keeps its grant (R48). -/
theorem rebalance_noPipeline {s : State} (h : ∀ l, s.launch? s.cur.id.launch = some l → l.pkt.stages < 2) : s.rebalance = s := by
  cases hl : s.launch? s.cur.id.launch with
  | none => unfold State.rebalance; rw [hl]
  | some l => exact rebalance_stays hl (.inl (h l hl))

/-! ### VSETL of a hart that is not in a pipeline -/

/-- A VSETL that gave elements under the grant that the hart had gives them as R226 says. -/
theorem setlGives_of_gave (s : State) (d : BitVec 6) (n : Nat) (pos : BitVec 63) (cover : List Nat) :
    setlGives s (s.readied.gave { s.cur.stream with bpos := pos } d n cover).completedV d n pos := by
  obtain ⟨⟨-, -, -, -, haccs, hcfg, hd, hother, hflags, hmem, hfin⟩, hstream, htrap⟩ :=
    gaveUnder_completedV (regranted_readied s) { s.cur.stream with bpos := pos } d n cover
  obtain ⟨v, m, ps, hready, -⟩ := readied_eq s
  exact ⟨hcfg.trans (by rw [hready]), hstream, hd, hother, haccs, hflags, htrap, hmem, hfin⟩

section
variable {p : R1} {s : State} (he : s.executes = true) (hill : s.cur.cfg.ill = false)
include he hill

/-- A VSETL whose body completes in a state ends there. -/
theorem exec_vsetl_ok {t : State} (h : vsetlBody p s.readied = .ok t) : exec (.vsetl p) s = .next t.completedV := by
  rw [exec_vsetl he hill, h, retireV_ok]

/-- A VSETL whose body waits leaves the hart Waiting. -/
theorem exec_vsetl_wait {on : Word} {t : State} (h : vsetlBody p s.readied = .wait on t) : ∃ u, exec (.vsetl p) s = .next u ∧
    u.cur.phase = .waiting ∧ u.cur.waitOn = some on ∧ u.cur.seat = t.cur.seat ∧ u.cur.vec = t.cur.vec ∧ u.cur.mask = t.cur.mask ∧
    u.cur.g = t.cur.g ∧ u.cur.stream = t.cur.stream ∧ u.cur.cfg = t.cur.cfg ∧ u.cur.seen = t.cur.seen := by
  obtain ⟨c, hc, hcur⟩ := retireV_wait (.vsetl p) s.cur.unf on t
  exact ⟨_, (exec_vsetl he hill).trans ((congrArg _ h).trans hc), hcur⟩

/-- A VSETL leaves the registers and masks as zeroing and the grant rule left them. -/
theorem vsetl_registers (hseen : s.cur.seen ≠ some s.watched) (hr : s.readied.rebalance = s.readied) {u : State}
    (hu : exec (.vsetl p) s = .next u) : u.cur.vec = s.readied.cur.vec ∧ u.cur.mask = s.readied.cur.mask := by
  have hok : ∀ {b n cover}, vsetlBody p s.readied = .ok (s.readied.gave b p.d n cover) →
      u.cur.vec = s.readied.cur.vec ∧ u.cur.mask = s.readied.cur.mask := fun {b n cover} h => by
    have e : u = _ := Host.Outcome.next.inj (hu.symm.trans (exec_vsetl_ok he hill h))
    obtain ⟨⟨-, -, hvec, hmask, -⟩, -⟩ := gaveUnder_completedV (regranted_readied s) b p.d n cover
    rw [e]
    exact ⟨hvec, hmask⟩
  by_cases hnote : s.cur.notice.pend = true ∧ s.cur.trap.hm = false
  · exact hok (vsetlBody_noticed hseen hnote.1 hnote.2)
  · have hcalm : s.cur.notice.pend = false ∨ s.cur.trap.hm = true := by
      cases hn : s.cur.notice.pend <;> cases hm : s.cur.trap.hm <;> simp [hn, hm] at hnote ⊢
    obtain ⟨hfree, hbound, hclosed, hwait⟩ := vsetlBody_calm (p := p) hseen hcalm (regranted_readied s) hr
    cases hb : s.cur.stream.bound with
    | false => exact hok (hfree hb)
    | true =>
      rcases Nat.lt_or_ge s.cur.stream.bpos.toNat s.boundCell.index with hp | hp
      · exact hok (hbound hb hp)
      · cases hc : s.boundCell.closed with
        | true => exact hok (hclosed hb hp hc)
        | false =>
          obtain ⟨w, hw, -, -, -, hvec, hmask, -⟩ := exec_vsetl_wait he hill (hwait hb hp hc)
          rw [Host.Outcome.next.inj (hu.symm.trans hw)]
          exact ⟨hvec, hmask⟩

/-- One that waited stays as it is until what it watches changes (R52). -/
theorem exec_vsetl_unchanged (hf : s.cur.cfg.fresh = false) (hseen : s.cur.seen = some s.watched) :
    ∃ v, exec (.vsetl p) s = .next v ∧ v.cur.phase = .waiting ∧ sameG s v ∧ sameVec s v ∧ v.cur.seat = s.cur.seat := by
  obtain ⟨v, hv, hphase, -, hseat, hvec, hmask, hg, -⟩ := exec_vsetl_wait he hill (vsetlBody_unchanged (p := p) hseen hf)
  exact ⟨v, hv, hphase, sameG_of_eq hg, ⟨hvec, hmask⟩, hseat⟩

end

/-- What VSETL gives a hart that is in no pipeline (R52, R56, R90, R226). -/
theorem setLengthResults : SetLengthResults := by
  intro p s he hill hpipe hseen want pos cell calm
  obtain ⟨v, m, ps, hready, hzero, hkeep⟩ := readied_eq s
  have hr : s.readied.rebalance = s.readied := rebalance_noPipeline (by rw [hready]; exact hpipe)
  have hvl : s.readied.cur.vlmax = s.cur.vlmax := by rw [hready]; rfl
  have hcalm := fun h => vsetlBody_calm (p := p) hseen h (regranted_readied s) hr
  rw [hvl] at hcalm
  have hgave : ∀ {n b cover}, vsetlBody p s.readied = .ok (s.readied.gave { s.cur.stream with bpos := b } p.d n cover) →
      ∃ t, exec (.vsetl p) s = .next t ∧ setlGives s t p.d n b := fun h => ⟨_, exec_vsetl_ok he hill h, setlGives_of_gave s _ _ _ _⟩
  have hnoted := vsetlBody_noticed (p := p) hseen
  refine ⟨fun h1 h2 => hgave (hnoted h1 h2), fun hc hb => hgave ((hcalm hc).1 hb), fun hc hb hp => hgave ((hcalm hc).2.1 hb hp),
    fun hc hb hp hcl => hgave ((hcalm hc).2.2.1 hb hp hcl), fun hc hb hp hcl => ?_, fun t ht => ?_⟩
  · obtain ⟨u, hu, hphase, -, -, -, -, hg, hstream, hcfg, hwatch⟩ := exec_vsetl_wait he hill ((hcalm hc).2.2.2 hb hp hcl)
    refine ⟨u, hu, hphase, hstream.trans (by rw [hready]), ?_, sameG_of_eq (hg.trans (by rw [hready])), hwatch,
      fun w hw hwill hf hws => exec_vsetl_unchanged hw hwill hf hws⟩
    rw [hcfg, hready]
  · obtain ⟨hv, hm⟩ := vsetl_registers he hill hseen hr ht
    rw [hready] at hv hm
    refine ⟨fun hf => ?_, fun hf => ?_⟩
    · obtain ⟨rfl, rfl⟩ := hzero hf
      exact Hart.blank_of_zeroed (k := s.cur) hv hm
    · obtain ⟨rfl, rfl⟩ := hkeep hf
      exact ⟨hv, hm⟩

/-- Settles O29: VCFG sets the type it is given, and VSETL gives what its request, VLMAX, the cell and the notice allow. -/
theorem vectorLengthAndTypeResults : Obligations.VectorLengthAndTypeResults := ⟨vectorConfigurationResults, setLengthResults⟩

/-! ### VSETL under the grant rule (R47 to R49) -/

/-- A new grant zeroes the vector registers and keeps the rest of the hart (R49). -/
theorem regrant_blanks (s : State) (lanes : List Nat) : let t := s.regrant lanes
    t.cur.seat.lanes = lanes ∧ (∀ r i, t.cur.elem r i = 0) ∧ (∀ q i, t.cur.maskBit q i = false) ∧ sameG s t ∧ t.cur.cfg = s.cur.cfg ∧
    t.cur.accs = s.cur.accs ∧ t.cur.lastShift = some s.tick := by
  obtain ⟨helem, hmask⟩ : (s.regrant lanes).cur.blank := Hart.blank_of_zeroed (k := s.cur) rfl rfl
  exact ⟨rfl, helem, hmask, fun _ => rfl, rfl, rfl, rfl⟩

/-- Settles O30: VSETL gives elements under the grant that the rule leaves, and the rule changes a grant only as R48 allows. -/
theorem grantChangesClearRegisters : Obligations.GrantChangesClearRegisters := by
  refine ⟨?_, regrant_blanks, fun s l hl h => rebalance_stays hl h, rebalance_cases, spread_within⟩
  intro p s he hill hseen hcalm t want pos cell
  have ht : Regranted s t := regranted_rebalance (regranted_readied s)
  obtain ⟨hfree, hbound, hclosed, hwait⟩ := vsetlBody_calm (p := p) hseen hcalm ht rfl
  have hgave : ∀ {n b cover}, vsetlBody p s.readied = .ok (t.gave b p.d n cover) →
      ∃ u, exec (.vsetl p) s = .next u ∧ gaveUnder s t u p.d n ∧ u.cur.stream = b := fun h => by
    obtain ⟨hu, hstream, -⟩ := gaveUnder_completedV ht _ p.d _ _
    exact ⟨_, exec_vsetl_ok he hill h, hu, hstream⟩
  refine ⟨fun hb => hgave (hfree hb), fun hb hp => hgave (hbound hb hp), fun hb hp hc => hgave (hclosed hb hp hc), fun hb hp hc => ?_⟩
  obtain ⟨u, hu, hphase, -, hseat, hvec, hmask, hg, -⟩ := exec_vsetl_wait he hill (hwait hb hp hc)
  obtain ⟨v, m, seat, shift, ps, heq⟩ := ht
  exact ⟨u, hu, hphase, hseat, hvec, hmask, sameG_of_eq (hg.trans (by rw [heq]))⟩

end Sys2Proof.Machine
end

section
/-! PROOFS. Tiles, publication and barriers (R50, R51, R164, R320 to R325, R335 to R337). -/

namespace Sys2Proof.Machine

/-! ### Reads that instructions here share -/

theorem upto_zero_eq_range (n : Nat) : upto 0 n = List.range n := by
  have h : ∀ a, upto a n = List.range' a n := by
    induction n with
    | zero => exact fun _ => rfl
    | succ n ih => exact fun a => by rw [upto, ih, List.range'_succ]
  rw [h, List.range_eq_range']

/-- An instruction that reads no line counts none (R141). -/
theorem countReads_nil (s : State) : countReads s [] = s := by
  have hl1 : s.l1.filter (fun x => !s.ownLine [] x) = s.l1 := List.filter_eq_self.mpr fun x _ => by simp [State.ownLine]
  change { s with l1 := s.l1.filter (fun x => !s.ownLine [] x) } = s
  rw [hl1]

theorem State.tilePoisoned_of_clean {s : State} (h : s.clean = true) (r : TileRef) : s.tilePoisoned r = false := by
  have hp : s.poison = [] := List.isEmpty_iff.mp h
  simp [State.tilePoisoned, hp]

/-! ### Gets (R321, R324, R325) -/

section
variable {s : State} {r : TileRef} {v : Word} (hgot : s.cur.got = none) (hh : s.getHandle v = some (.tile r))
include hgot hh

/-- A get of a full tile goes on with its data (R324). -/
theorem getBody_full (hclean : s.clean = true) (hf : (s.tile r).full = true) (k : Get) (body : Nat → State → Res) :
    s.getBody k v body = body (s.tile r).data (if k = .take then (s.emptyTile r).pumpAt r else s).acquired := by
  simp [State.getBody, hgot, hh, State.getTile, hf, State.tilePoisoned_of_clean hclean]

/-- A get of an empty tile waits (R321). -/
theorem getBody_empty (hf : (s.tile r).full = false) (k : Get) (body : Nat → State → Res) : s.getBody k v body = .wait v s := by
  simp [State.getBody, hgot, hh, State.getTile, hf]

end

section
variable {p : R2} {s : State} {r : TileRef} (hready : s.queueReady) (hh : s.getHandle (s.src p.a) = some (.tile r))
include hready hh

theorem exec_ttake_tlook (hf : (s.tile r).full = true) (hc : noCond (s.tileConds (some p.a) p.d.toNat true 0)) :
    exec (.ttake p) s = .next ((((s.emptyTile r).pumpAt r).acquired.writeVec (vd p.d) (s.tileElems (s.tile r).data)).completedV) ∧
      exec (.tlook p) s = .next ((s.acquired.writeVec (vd p.d) (s.tileElems (s.tile r).data)).completedV) := by
  obtain ⟨hex, hclean, -, hgot, -⟩ := hready
  have hvec : ∀ k, getVec k p s = .ok ((if k = .take then (s.emptyTile r).pumpAt r else s).acquired.writeVec (vd p.d)
      (s.tileElems (s.tile r).data)) := fun k => by
    rw [getVec, hh, Option.isSome_some, checked_of_noCond hc, getBody_full hgot hh hclean hf, upto_zero_eq_range]
    rfl
  have hrun : ∀ (i : Instr) k, runV i none (getVec k p) s = .next (State.completedV
      ((if k = .take then (s.emptyTile r).pumpAt r else s).acquired.writeVec (vd p.d) (s.tileElems (s.tile r).data))) := fun i k => by
    rw [runV_of_executes hex, hvec, retireV_ok]
  exact ⟨hrun (.ttake p) .take, hrun (.tlook p) .look⟩

theorem exec_ttakeM_tlookM (hf : (s.tile r).full = true) {va : Nat} (hva : va = (s.src p.b).toNat) (h64 : va % 64 = 0) {ps : List (Phys × Nat)}
    (hps : s.transRange va 4096 .store = .ok ps) :
    exec (.ttakeM p) s = .next (((((s.emptyTile r).pumpAt r).acquired.settleRuns true ps).writeRuns true va ps
        (leBytes 4096 (s.tile r).data)).completedV) ∧
      exec (.tlookM p) s = .next (((s.acquired.settleRuns true ps).writeRuns true va ps (leBytes 4096 (s.tile r).data)).completedV) := by
  obtain ⟨hex, hclean, -, hgot, -⟩ := hready
  have hmem : ∀ k, getMem k p s = .ok ((((if k = .take then (s.emptyTile r).pumpAt r else s).acquired).settleRuns true ps).writeRuns true va ps
      (leBytes 4096 (s.tile r).data)) := fun k => by
    rw [getMem, hh, ← hva, checkedAt_of_noCond (by simp [noCond, State.tileConds, h64])]
    simp only [hps]
    rw [getBody_full hgot hh hclean hf]
  have hrun : ∀ (i : Instr) k, runV i none (getMem k p) s = .next (State.completedV
      ((((if k = .take then (s.emptyTile r).pumpAt r else s).acquired).settleRuns true ps).writeRuns true va ps
        (leBytes 4096 (s.tile r).data))) := fun i k => by
    rw [runV_of_executes hex, hmem, retireV_ok]
  exact ⟨hrun (.ttakeM p) .take, hrun (.tlookM p) .look⟩

theorem ttake_waits (hf : (s.tile r).full = false) (hc : noCond (s.tileConds (some p.a) p.d.toNat true 0)) :
    ∃ t, exec (.ttake p) s = .next t ∧ t.cur.phase = .waiting ∧ t.cur.waitOn = some (s.src p.a) ∧ sameG s t ∧ sameVec s t ∧ sameMemory s t ∧
      t.tiles = s.tiles := by
  obtain ⟨hex, -, -, hgot, -⟩ := hready
  obtain ⟨c, hret, hphase, hon, -, hvec, hmask, hg, -⟩ := retireV_wait (.ttake p) s.cur.unf (s.src p.a) s
  have hbody : getVec .take p s = .wait (s.src p.a) s := by
    rw [getVec, hh, Option.isSome_some, checked_of_noCond hc, getBody_empty hgot hh hf]
  refine ⟨{ s with cur := c }, ?_, hphase, hon, sameG_of_eq hg, ⟨hvec, hmask⟩, sameMemory_of_eq rfl rfl rfl, rfl⟩
  change execTtake p s = _
  rw [execTtake, runV_of_executes hex, hbody, hret]

end

section
variable {p : R1} {s : State} {r : TileRef} (hready : s.queueReady)
include hready

theorem exec_twait (hf : (s.tile r).full = true) (hh : s.getHandle (s.src p.a) = some (.tile r)) :
    exec (.twait p) s = .next s.acquired.completedV := by
  obtain ⟨hex, hclean, -, hgot, -⟩ := hready
  change execTwait p s = _
  rw [execTwait, runV_of_executes hex, twaitBody, checked_of_noCond (by simp [noCond, hh]), getBody_full hgot hh hclean hf]
  rfl

theorem exec_tdrop (hl : s.localTile (s.src p.a) = some r) :
    exec (.tdrop p) s = .next (State.completedV (if (s.tile r).full then (s.emptyTile r).pumpAt r else s)) := by
  obtain ⟨hex, -⟩ := hready
  change execTdrop p s = _
  rw [execTdrop, runV_of_executes hex, tdropBody, checked_of_noCond (by simp [noCond, hl])]
  simp only [hl]
  rfl

end

/-! ### Sends (R320, R323) -/

/-- The state in which a send of the current hart has asked for an entry of a core of its own module, and that core has come to rest (R320). -/
def State.askedFor (s : State) (x : Send) : State :=
  (({ s.settle with cur := { s.settle.cur with send := .asked } } : State).onMod s.cur.mod (fun y =>
    { y with asking := y.asking ++ [x] })).pumpAt x.dest

theorem settle_mod (s : State) : s.settle.cur.mod = s.cur.mod := by
  obtain ⟨r, hr⟩ := keepsHart_settle s
  rw [hr]

/-- A send to a core of the own module completes when it is given its entry (R320, R325). -/
theorem ask_eq (s : State) (v : Word) (x : Send) : s.settle.ask v s.cur.mod x =
    if (s.askedFor x).cur.send = .granted then .ok (s.askedFor x) else Res.unheld x.data.isNone v (s.askedFor x) := by
  rw [State.ask, settle_mod]
  exact if_pos rfl

section
variable {p : R1} {s : State} {r : TileRef} (hready : s.queueReady) (hl : s.localTile (s.src p.a) = some r) (hs : s.stuck = none)
include hready hl hs

theorem tmarkBody_eq : tmarkBody p s = s.settle.ask (s.src p.a) s.cur.mod ⟨r, none, some s.cur.id, none⟩ := by
  obtain ⟨-, -, hsend, -⟩ := hready
  rw [tmarkBody, State.sending, hsend]
  simp only
  rw [checked_of_noCond (by simp [noCond, hl])]
  simp only [hl, State.afterStores, hs]

/-- TMARK completes with an entry and else stays, which is no wait of R59 (R325, R467). -/
theorem exec_tmark : let u := s.askedFor ⟨r, none, some s.cur.id, none⟩
    (u.cur.send = .granted → exec (.tmark p) s = .next u.completedV) ∧
    (u.cur.send ≠ .granted → ∃ t, exec (.tmark p) s = .next t ∧ t.cur.phase ≠ .waiting) := by
  intro u
  have hex : exec (.tmark p) s = retireV (.tmark p) s.cur.unf _ := (runV_of_executes hready.1).trans
    (congrArg _ ((tmarkBody_eq hready hl hs).trans (ask_eq s _ _)))
  refine ⟨fun hg => hex.trans (by rw [if_pos hg, retireV_ok]), fun hg => ⟨_, hex.trans (by rw [if_neg hg]; rfl), ?_⟩⟩
  simp only [Hart.goesOn]
  split
  · exact fun h => nomatch h
  · assumption

end

/-- TSEND of a vector register to a tile of the own module completes with an entry and else waits (R320, R323). -/
theorem exec_tsend {p : R2} {s : State} {r : TileRef} {d : Nat} (hready : s.queueReady) (hput : s.putHandle (s.src p.a) = some (.tile r))
    (hh : s.handle (s.src p.a) = some (.tile r)) (hm : s.rankModule r.launch r.rank = some s.cur.mod) (hs : s.stuck = none)
    (hvec : p.b.isVec = true) (hc : noCond (s.tileConds (some p.b) p.b.val.toNat true 0)) (hd : s.settle.sendData p.b = .ok d) :
    let u := s.askedFor ⟨r, some d, some s.cur.id, none⟩
    (u.cur.send = .granted → exec (.tsend p) s = .next u.completedV) ∧
    (u.cur.send ≠ .granted → ∃ t, exec (.tsend p) s = .next t ∧ t.cur.phase = .waiting ∧ t.cur.waitOn = some (s.src p.a)) := by
  intro u
  have hreads : s.settle.sendReads p.b = [] := by rw [State.sendReads, if_pos hvec]
  have hbody : tsendBody p s = s.settle.ask (s.src p.a) s.cur.mod ⟨r, some d, some s.cur.id, none⟩ := by
    obtain ⟨-, -, hsend, -⟩ := hready
    rw [tsendBody]
    simp only [hvec, if_true, hh, hm, State.sending, hsend, hput, Option.isSome_some]
    rw [checkedAt_of_noCond hc]
    cases s.cur.got <;> simp only [hput, Option.getD_some, State.sendRelease, if_true, State.afterStores, hs, hd, hreads, countReads_nil]
  have hex : exec (.tsend p) s = retireV (.tsend p) s.cur.unf _ := (runV_of_executes hready.1).trans (congrArg _ (hbody.trans (ask_eq s _ _)))
  refine ⟨fun hg => hex.trans (by rw [if_pos hg, retireV_ok]), fun hg => ?_⟩
  obtain ⟨c, hret, hphase, hon, -⟩ := retireV_wait (.tsend p) s.cur.unf (s.src p.a) u
  exact ⟨_, hex.trans ((by rw [if_neg hg]; rfl : _ = _).trans hret), hphase, hon⟩

/-! ### A core that comes to rest (R320, R321) -/

/-- No hart of the machine waits for a full tile. -/
def State.noneWaits (s : State) : Prop := ∀ h ∈ s.allHarts, ∀ r, h.waitsFor r = false

/-- With no hart waiting no tile serves one (R321). -/
theorem serve_none {s : State} (h : s.noneWaits) (r : TileRef) : s.serve r = none := by
  have hf : s.allHarts.filter (fun g => g.waitsFor r) = [] := List.filter_eq_nil_iff.mpr fun g hg => by simp [h g hg r]
  simp [State.serve, hf, longest]

/-- Nothing is served where nobody waits. -/
theorem findSome?_serve_none {s : State} (h : s.noneWaits) (c : Nat × Nat) :
    (s.tiles.map (·.1)).findSome? (fun r => if s.coreOf r = some c then s.serve r else none) = none :=
  List.findSome?_eq_none_iff.mpr fun r _ => by rw [serve_none h, ite_self]

section
variable {s : State} (h : s.noneWaits) {m core : Nat} {y : Module} (hy : s.mod? m = some y)
include h hy

/-- With no hart waiting and nothing to deliver a core grants its next entry (R320). -/
theorem coreStep_grants (hnone : s.deliverable [] (y.holdsOf core) 0 = none) : s.coreStep m core = s.takeEntry m core := by
  simp only [State.coreStep, findSome?_serve_none h, hy, hnone]

/-- With no hart waiting a held send that can be delivered is (R320). -/
theorem coreStep_delivers {k : Nat} {x : Send} (hk : s.deliverable [] (y.holdsOf core) 0 = some k) (hx : (y.holdsOf core)[k]? = some x) :
    s.coreStep m core = some (s.deliver m core k x) := by
  simp only [State.coreStep, findSome?_serve_none h, hy, hk, hx]

end

/-- A change of every hart's fields that waiting does not look at. -/
theorem noneWaits_onHarts {s : State} (h : s.noneWaits) (p : Hart → Bool) {f : Hart → Hart} (hf : ∀ g r, (f g).waitsFor r = g.waitsFor r) :
    (s.onHarts p f).noneWaits := by
  have hone : ∀ g, (∀ r, g.waitsFor r = false) → ∀ r, (if p g then f g else g).waitsFor r = false := fun g hg r => by
    split
    · rw [hf, hg]
    · exact hg r
  intro g hg
  rcases List.mem_cons.mp hg with rfl | hg
  · exact hone _ (h _ List.mem_cons_self)
  · obtain ⟨g', hg', rfl⟩ := List.mem_map.mp hg
    exact hone _ (h _ (List.mem_cons_of_mem _ hg'))

/-- A delivery counted changes the launches alone. -/
theorem bump_frame (s : State) (l r : Nat) : ∃ ls, s.bump l r = { s with launches := ls } := by
  unfold State.bump State.onShare State.onLaunch
  split
  · exact ⟨_, rfl⟩
  · exact ⟨s.launches, rfl⟩

/-- A fill puts the tile with its data, and beside it changes marks of poison, a delivery count, and event bits (R164, R217, R320). -/
theorem fillTile_frame (s : State) (r : TileRef) (data : Option Nat) (seq : Nat) : ∃ ps ls p, s.fillTile r data seq =
    ({ s.putTile r ⟨true, data.getD (s.tile r).data, seq⟩ with poison := ps, launches := ls } : State).onHarts p
      (fun h => { h with event := true }) := by
  unfold State.fillTile
  simp only
  split
  · obtain ⟨ls, h⟩ := bump_frame (s.putTile r ⟨true, data.getD (s.tile r).data, seq⟩) r.launch r.rank
    exact ⟨_, ls, _, by rw [h]⟩
  · obtain ⟨ls, h⟩ := bump_frame { s.putTile r ⟨true, data.getD (s.tile r).data, seq⟩ with
      poison := (s.putTile r ⟨true, data.getD (s.tile r).data, seq⟩).poison.filter (fun w => match w with
        | .tile l rk x y k _ => !decide (r = ⟨l, rk, x, y, k⟩)
        | _ => true) } r.launch r.rank
    exact ⟨_, ls, _, congrArg (fun t => State.onHarts t _ _) h⟩

/-- What a step at a core's tiles leaves of the machine here: registers, memory and the hart's send; nobody waits for a tile. -/
structure AtRest (s t : State) : Prop where
  g : t.cur.g = s.cur.g
  vec : t.cur.vec = s.cur.vec
  mask : t.cur.mask = s.cur.mask
  near : t.near = s.near
  msc : t.msc = s.msc
  dram : t.dram = s.dram
  waits : t.noneWaits

section
variable {s : State} {m core : Nat} {y : Module} {x : Send} (hw : s.noneWaits) (hy : s.mod? m = some y)
include hw hy

/-- The only request for an entry of a core whose hold queue is empty takes it (R320). -/
theorem takeEntry_single (hholds : y.holdsOf core = []) (hask : y.asking = [x]) (hcore : s.coreOf x.dest = some (m, core))
    (hx : x.hart = some s.cur.id) (hphase : s.cur.phase ≠ .absent) (hrank : s.rankModule s.cur.id.launch s.cur.id.rank = some m) :
    ∃ t, s.coreStep m core = some t ∧ t.mod? m = some { y with asking := [], holds := Tbl.put core [x] y.holds } ∧ t.tiles = s.tiles ∧
      t.cur.send = .granted ∧ AtRest s t := by
  have hfirst : s.firstAsking m core = some (0, x) := by simp [State.firstAsking, hy, hask, hcore]
  refine ⟨(s.onMod m (fun y => { y with asking := y.asking.eraseIdx 0, holds := Tbl.put core (y.holdsOf core ++ [x]) y.holds })).onHart
    s.cur.id (fun h => { h with send := .granted }), ?_, ?_, by simp, ?_, ?_⟩
  · have hrank' : ∀ f, (s.onMod m f).rankModule s.cur.id.launch s.cur.id.rank = some m := fun f => by
      simpa [State.rankModule, State.launch?] using hrank
    rw [coreStep_grants hw hy (by rw [hholds]; rfl)]
    simp [State.takeEntry, hy, hholds, hfirst, State.granted, hx, hrank']
  · refine (State.mod?_onMod_self s m _ y hy).trans ?_
    rw [hask, hholds]
    rfl
  · simp [State.onHart, State.onHarts, hphase]
  · refine ⟨?_, ?_, ?_, by simp, by simp, by simp, noneWaits_onHarts ?_ _ fun _ _ => rfl⟩
    all_goals simp [State.onHart, State.onHarts, hphase]
    simpa [State.noneWaits, State.allHarts] using hw

/-- The only send that a core holds is delivered to its empty tile (R320). -/
theorem deliver_single (hholds : y.holdsOf core = [x]) (hf : (s.tile x.dest).full = false) (hnode : x.node = none) :
    ∃ t, s.coreStep m core = some t ∧ t.mod? m = some { y with holds := Tbl.put core [] y.holds } ∧
      t.tile x.dest = ⟨true, x.data.getD (s.tile x.dest).data, (s.tile x.dest).seq⟩ ∧ t.cur.send = s.cur.send ∧ AtRest s t := by
  have hstep : s.coreStep m core = some (s.deliver m core 0 x) :=
    coreStep_delivers hw hy (by rw [hholds]; simp [State.deliverable, hf]) (by rw [hholds]; rfl)
  let u := s.onMod m (fun y => { y with holds := Tbl.put core ((y.holdsOf core).eraseIdx 0) y.holds })
  obtain ⟨ps, ls, p, hfill⟩ := fillTile_frame u x.dest x.data (s.tile x.dest).seq
  have hdel : s.deliver m core 0 x = _ := (by rw [State.deliver, State.nodeDelivered, hnode] : s.deliver m core 0 x = _).trans hfill
  have htile : u.tile x.dest = s.tile x.dest := by simp [u, State.tile]
  refine ⟨_, hstep, ?_⟩
  rw [hdel, htile]
  refine ⟨?_, ?_, ?_, ?_⟩
  · refine (State.mod?_onMod_self s m _ y hy).trans ?_
    rw [hholds]
    rfl
  · simp [State.tile, State.putTile]
  · simp only [State.onHarts]
    split <;> simp [u]
  · refine ⟨?_, ?_, ?_, by simp [u], by simp [u], by simp [u], noneWaits_onHarts ?_ _ fun _ _ => rfl⟩
    case refine_4 => simpa [State.noneWaits, State.allHarts, u] using hw
    all_goals
      simp only [State.onHarts]
      split <;> simp [u]

/-- A core with nothing held and nothing asked for is at rest (R320, R321). -/
theorem coreStep_none (hholds : y.holdsOf core = []) (hask : y.asking = []) : s.coreStep m core = none := by
  have hfirst : s.firstAsking m core = none := by simp [State.firstAsking, hy, hask]
  rw [coreStep_grants hw hy (by rw [hholds]; rfl)]
  simp [State.takeEntry, hy, hholds, hfirst]

end

theorem pumpFor_next {s t : State} {m core : Nat} (h : s.coreStep m core = some t) (f : Nat) :
    State.pumpFor (f + 1) s m core = State.pumpFor f t m core := by
  rw [State.pumpFor, h]

theorem pumpFor_rest {s : State} {m core : Nat} (h : s.coreStep m core = none) (f : Nat) : State.pumpFor f s m core = s := by
  cases f with
  | zero => rfl
  | succ f => rw [State.pumpFor, h]

theorem AtRest.trans {s t u : State} (h : AtRest s t) (k : AtRest t u) : AtRest s u :=
  ⟨k.g.trans h.g, k.vec.trans h.vec, k.mask.trans h.mask, k.near.trans h.near, k.msc.trans h.msc, k.dram.trans h.dram, k.waits⟩

theorem Module.holdsOf_put (y : Module) (core : Nat) (a : List Send) (xs : List Send) :
    ({ y with asking := a, holds := Tbl.put core xs y.holds } : Module).holdsOf core = xs := Tbl.getD_put_self core xs [] y.holds

/-- A send to an empty tile of a core at rest is granted its entry and delivered in the sender's own step (R320). -/
theorem pumpAt_delivers {s : State} {m core : Nat} {y : Module} {x : Send} (hy : s.mod? m = some y) (hholds : y.holdsOf core = [])
    (hask : y.asking = [x]) (hcore : s.coreOf x.dest = some (m, core)) (hf : (s.tile x.dest).full = false) (hx : x.hart = some s.cur.id)
    (hnode : x.node = none) (hphase : s.cur.phase ≠ .absent) (hrank : s.rankModule s.cur.id.launch s.cur.id.rank = some m)
    (hw : s.noneWaits) : let t := s.pumpAt x.dest
    (t.tile x.dest).full = true ∧ (t.tile x.dest).data = x.data.getD (s.tile x.dest).data ∧ t.cur.send = .granted ∧ sameG s t ∧ sameVec s t ∧
      sameMemory s t := by
  obtain ⟨a, ha, hya, htiles, hsend, hrest⟩ := takeEntry_single hw hy hholds hask hcore hx hphase hrank
  have htile : a.tile x.dest = s.tile x.dest := by simp [State.tile, htiles]
  obtain ⟨b, hb, hyb, hput, hsend', hrest'⟩ := deliver_single hrest.waits hya (Module.holdsOf_put y core [] [x]) (by rw [htile, hf]) hnode
  have hnone := coreStep_none hrest'.waits hyb (Module.holdsOf_put _ core _ []) rfl
  have hpump : s.pumpAt x.dest = b := by
    rw [State.pumpAt, hcore]
    simp only [State.pump, hy, hholds, hask]
    change State.pumpFor (2 * (0 + 1) + s.allHarts.length + 1) s m core = b
    rw [pumpFor_next ha, show 2 * (0 + 1) + s.allHarts.length = (1 + s.allHarts.length) + 1 by omega, pumpFor_next hb, pumpFor_rest hnone]
  have h := hrest.trans hrest'
  intro t
  have ht : t = b := hpump
  rw [ht]
  refine ⟨by rw [hput], by rw [hput, htile], hsend'.trans hsend, sameG_of_eq h.g, ⟨h.vec, h.mask⟩, sameMemory_of_eq h.near h.msc h.dram⟩

/-! ### HWPUB and PUBLISH (R50, R51, R335, R336) -/

theorem exec_hwpub {p : R2} {s : State} (hready : s.queueReady) (hs : s.stuck = none) (ha : (s.src p.a).toNat < 64)
    (hb : (s.src p.b).toNat < 2 ^ 63) : exec (.hwpub p) s = .next
      (s.settle.publishCell s.cur.id.launch s.cur.id.rank (s.src p.a).toNat (s.src p.b).toNat (p.sf.getLsbD 0)).completedV := by
  obtain ⟨hex, -⟩ := hready
  change execHwpub p s = _
  rw [execHwpub, runV_of_executes hex, hwpubBody, checked_of_noCond (by simp [noCond, ha]; exact hb), State.afterStores, hs, bit_toNat]
  rfl

theorem share?_onShare_self {s : State} {l r : Nat} {sh : Share} (h : s.share? l r = some sh) (f : Share → Share) :
    (s.onShare l r f).share? l r = some (f sh) := by
  obtain ⟨x, hx, hsh⟩ := Option.bind_eq_some_iff.mp h
  rw [State.share?, State.onShare, State.launch?_onLaunch_self s l _ x hx]
  simp [hsh, Tbl.find_put_self]

theorem share?_congr {s t : State} (h : t.launches = s.launches) (l r : Nat) : t.share? l r = s.share? l r := by
  simp [State.share?, State.launch?, h]

/-- A high-water cell takes the greater index, and a close stays (R50). -/
theorem publishCell_share {s : State} {l r : Nat} {sh : Share} (h : s.share? l r = some sh) (n v : Nat) (close : Bool) :
    ∃ sh', (s.publishCell l r n v close).share? l r = some sh' ∧ Tbl.find n sh'.cells = some ⟨max (Tbl.getD sh.cells n ⟨0, false⟩).index v,
      (Tbl.getD sh.cells n ⟨0, false⟩).closed || close⟩ ∧ sh'.delivery = sh.delivery + 1 := by
  let c : HwCell := ⟨max (Tbl.getD sh.cells n ⟨0, false⟩).index v, (Tbl.getD sh.cells n ⟨0, false⟩).closed || close⟩
  have hput := share?_onShare_self (share?_onShare_self h (fun sh' => { sh' with cells := Tbl.put n c sh'.cells })) (fun sh' => { sh' with delivery := sh'.delivery + 1 })
  refine ⟨_, Eq.trans ?_ hput, Tbl.find_put_self n c sh.cells, rfl⟩
  unfold State.publishCell
  simp only [h, Option.map_some, Option.getD_some]
  split
  · rfl
  · exact share?_congr rfl l r

section
variable {p : R1} {s : State} {x : Module} {b : PubBuf} {va asid : Nat} (hready : s.queueReady) (hx : s.mod? s.cur.mod = some x)
  (hb : x.pub? asid va = some b) (hva : va = (s.src p.a).toNat) (hasid : asid = s.cur.atp.toNat / 2 ^ 44 % 2 ^ 16)
  (hnodes : ∀ n ∈ x.nodes, n.2.state ≠ .running) (hpub : ∀ h ∈ s.harts, s.publishing h = none)
include hready hx hb hva hasid hnodes hpub

/-- The state of a PUBLISH that has reached its buffer and flipped its selector. -/
def State.flippedFor (s : State) (asid va : Nat) (dom : Bool) : State :=
  ({ s with cur := { s.cur with got := some s.tick } } : State).flip s.cur.mod asid va dom

/-- A PUBLISH without an earlier writer flips the selector, and is over when no access uses the old image (R163, R335). -/
theorem publishBody_eq : publishBody p s = if (s.flip s.cur.mod asid va b.dom).imageInUse b s.cur.mod b.sel
    then .stall { s.flippedFor asid va b.dom with cur := { (s.flippedFor asid va b.dom).cur with send := .granted } }
    else .ok (s.flippedFor asid va b.dom) := by
  obtain ⟨-, -, hsend, hgot, -⟩ := hready
  have huse : (s.flippedFor asid va b.dom).imageInUse b s.cur.mod b.sel = (s.flip s.cur.mod asid va b.dom).imageInUse b s.cur.mod b.sel := by
    rfl
  rw [publishBody]
  have hbuf : ((s.mod? s.cur.mod).bind fun x => (x.pub? (bits s.cur.atp.toNat 44 16) (s.src p.a).toNat).map fun b => (x, b)) = some (x, b) := by
    rw [hx, Option.bind_some, ← hva, bits, ← hasid, hb, Option.map_some]
  simp only [hbuf, hgot, Option.getD_none]
  rw [if_neg (by rw [hsend]; decide), if_neg]
  · rw [← hva, bits, ← hasid]
    change (if (s.flippedFor asid va b.dom).imageInUse b s.cur.mod b.sel = true then _ else _) = _
    rw [huse]
    rfl
  · rw [Bool.or_eq_true, List.any_eq_true, List.any_eq_true]
    rintro (⟨n, hn, hrun⟩ | ⟨h, hh, hwait⟩)
    · simp [hnodes n hn] at hrun
    · rw [hpub h hh] at hwait
      cases hwait

omit hready hx hb hva hasid hnodes hpub in
/-- What an instruction of the queue kept of its progress is forgotten when it completes. -/
theorem completedV_got (t : State) (got : Option Nat) :
    ({ t with cur := { t.cur with got := got } } : State).completedV = t.completedV := by
  have hfin : ({ t with cur := { t.cur with got := got } } : State).finishV = t.finishV := by
    unfold State.finishV
    dsimp only
    split <;> rfl
  rw [State.completedV, hfin]
  rfl

/-- PUBLISH without an earlier writer flips the selector, and goes on when no access uses the old image (R163, R335). -/
theorem exec_publish : let t := s.flip s.cur.mod asid va b.dom
    (t.imageInUse b s.cur.mod b.sel = false → exec (.publish p) s = .next t.completedV) ∧
    (t.imageInUse b s.cur.mod b.sel = true →
      ∃ u, exec (.publish p) s = .next u ∧ u.mods = t.mods ∧ u.cur.send = .granted ∧ sameG s u ∧ sameMemory s u) := by
  intro t
  have hex : exec (.publish p) s = retireV (.publish p) s.cur.unf _ := (runV_of_executes hready.1).trans
    (congrArg _ (publishBody_eq hready hx hb hva hasid hnodes hpub))
  refine ⟨fun hfree => ?_, fun hused => ?_⟩
  · rw [hex, hfree, if_neg Bool.false_ne_true, retireV_ok]
    exact congrArg Host.Outcome.next (completedV_got t (some s.tick))
  · rw [if_pos hused] at hex
    obtain ⟨q, k, c, he⟩ := enqueue_frame
      { s.flippedFor asid va b.dom with cur := { (s.flippedFor asid va b.dom).cur with send := .granted } } (.publish p) false
    refine ⟨_, hex, ?_⟩
    rw [he]
    exact ⟨rfl, rfl, fun _ => rfl, sameMemory_of_eq rfl rfl rfl⟩

end

/-! ### Barriers (R43, R165, R337) -/

/-- The subrectangle of a barrier as its operand gives it: a field of 0 is the launch's own size (R337). -/
def barDim (field size : Nat) : Nat := if field = 0 then size else field

/-- The harts of the current hart's subrectangle of `bw` by `bh` cores (R337). -/
def State.inBar (t : State) (bw bh : Nat) : List Hart :=
  t.peers.filter (fun g => g.id.x / bw == t.cur.id.x / bw && g.id.y / bh == t.cur.id.y / bh)

/-- A BAR whose subrectangles tile the launch arrives, and goes on when every hart of its own has (R337). -/
theorem barBody_eq {p : R1} {s : State} {l : Launch} (hs : s.stuck = none) (hl : s.launch? s.cur.id.launch = some l)
    (hw : l.pkt.wid % barDim ((s.src p.a).toNat % 16) l.pkt.wid = 0)
    (hh : l.pkt.hgt % barDim ((s.src p.a).toNat / 16 % 16) l.pkt.hgt = 0) :
    let bw := barDim ((s.src p.a).toNat % 16) l.pkt.wid
    let bh := barDim ((s.src p.a).toNat / 16 % 16) l.pkt.hgt
    let t := s.settle.arrive (bw + 16 * bh)
    barBody p s = if (t.inBar bw bh).all (fun g => g.arrivedAt (bw + 16 * bh) (Tbl.getD t.cur.bars (bw + 16 * bh) 0)) then .ok t
      else .wait (s.src p.a) t := by
  have hx : bits (s.src p.a).toNat 0 4 = (s.src p.a).toNat % 16 := by simp [bits]
  have hy : bits (s.src p.a).toNat 4 4 = (s.src p.a).toNat / 16 % 16 := rfl
  unfold barBody
  simp only [hl, hx, hy]
  rw [checked_of_noCond]
  · simp only [State.afterStores, hs]
    rfl
  · intro c hc
    obtain rfl := List.mem_singleton.mp hc
    simp only [Bool.or_eq_false_iff, decide_eq_false_iff_not, not_not]
    exact ⟨hw, hh⟩

theorem arrivedAt_iff {h : Hart} {key n : Nat} : h.arrivedAt key n = true ↔ h.phase = .ended ∨ n ≤ Tbl.getD h.bars key 0 := by
  simp [Hart.arrivedAt]

/-- BAR completes when every hart of its subrectangle has arrived or Ended, and else waits (R337). -/
theorem exec_bar {p : R1} {s : State} {l : Launch} (hready : s.queueReady) (hs : s.stuck = none)
    (hl : s.launch? s.cur.id.launch = some l) (hw : l.pkt.wid % barDim ((s.src p.a).toNat % 16) l.pkt.wid = 0)
    (hh : l.pkt.hgt % barDim ((s.src p.a).toNat / 16 % 16) l.pkt.hgt = 0) :
    let bw := barDim ((s.src p.a).toNat % 16) l.pkt.wid
    let bh := barDim ((s.src p.a).toNat / 16 % 16) l.pkt.hgt
    let t := s.settle.arrive (bw + 16 * bh)
    let n := Tbl.getD t.cur.bars (bw + 16 * bh) 0
    ((∀ g ∈ t.inBar bw bh, g.phase = .ended ∨ n ≤ Tbl.getD g.bars (bw + 16 * bh) 0) → exec (.bar p) s = .next t.completedV) ∧
    ((∃ g ∈ t.inBar bw bh, g.phase ≠ .ended ∧ Tbl.getD g.bars (bw + 16 * bh) 0 < n) →
      ∃ u, exec (.bar p) s = .next u ∧ u.cur.phase = .waiting) := by
  intro bw bh t n
  have hex : exec (.bar p) s = retireV (.bar p) s.cur.unf _ := (runV_of_executes hready.1).trans (congrArg _ (barBody_eq hs hl hw hh))
  refine ⟨fun hall => ?_, fun ⟨g, hg, hend, hlt⟩ => ?_⟩
  · rw [hex, if_pos (List.all_eq_true.mpr fun g hg => arrivedAt_iff.mpr (hall g hg)), retireV_ok]
  · obtain ⟨c, hret, hphase, -⟩ := retireV_wait (.bar p) s.cur.unf (s.src p.a) t
    have hnot : ¬ (t.inBar bw bh).all (fun g => g.arrivedAt (bw + 16 * bh) n) = true := fun h =>
      (arrivedAt_iff.mp (List.all_eq_true.mp h g hg)).elim hend (Nat.not_le.mpr hlt)
    exact ⟨_, hex.trans ((by rw [if_neg hnot] : _ = _).trans hret), hphase⟩

theorem arrive_id (s : State) (key : Nat) : (s.arrive key).cur.id = s.cur.id := by
  obtain ⟨ls, h⟩ := bump_frame s s.cur.id.launch s.cur.id.rank
  unfold State.arrive
  split
  · rfl
  · simp only [h]

theorem tellArrival_id (s : State) (ranks : List Nat) : (s.tellArrival ranks).cur.id = s.cur.id := by
  unfold State.tellArrival
  split
  · rfl
  · exact arrive_id s domKey

/-- Releasing at domain scope and arriving leave the hart who it is (R165, R337). -/
theorem released_id (s : State) (ranks : List Nat) : ((writeBack s.acknowledged locHbm).tellArrival ranks).cur.id = s.cur.id := by
  obtain ⟨r, hr⟩ := keepsHart_settle s
  rw [tellArrival_id, (memStep_writeBack _ _).cur]
  change s.settle.cur.id = s.cur.id
  rw [hr]

/-- BAR.DOM completes when each hart of the launch has Ended or is seen to have arrived (R337). -/
theorem exec_barDom {p : R1} {s : State} {l : Launch} (hready : s.queueReady) (hs : s.stuck = none)
    (hl : s.launch? s.cur.id.launch = some l) (hlost : s.lostStore = none) (hranks : ∀ m ∈ l.pkt.ranks, s.rankLost m = false) :
    let t := (writeBack s.acknowledged locHbm).tellArrival l.pkt.ranks
    let n := Tbl.getD t.cur.bars domKey 0
    (∀ g ∈ t.allHarts, g.id.launch = s.cur.id.launch → g.phase ≠ .absent → g.phase = .ended ∨
      if g.id.rank = s.cur.id.rank then n ≤ Tbl.getD g.bars domKey 0
      else ∀ sh, t.share? s.cur.id.launch s.cur.id.rank = some sh → n ≤ sh.seen g.id) →
    exec (.barDom p) s = .next ({ t with cur := { t.cur with send := .asked } } : State).completedV := by
  intro t n hall
  obtain ⟨hex, -, hsend, -, hbar⟩ := hready
  have hid : t.cur.id = s.cur.id := released_id s _
  have hranksOf : s.ranksOf s.cur = l.pkt.ranks := by rw [State.ranksOf, hl]
  have hnolost : l.pkt.ranks.any s.rankLost = false := List.any_eq_false.mpr fun m hm => by simp [hranks m hm]
  let u : State := { t with cur := { t.cur with send := .asked } }
  have hmem : ∀ g ∈ u.allHarts, g.id.launch = s.cur.id.launch → g.phase ≠ .absent → g.phase = .ended ∨
      if g.id.rank = s.cur.id.rank then n ≤ Tbl.getD g.bars domKey 0
      else ∀ sh, t.share? s.cur.id.launch s.cur.id.rank = some sh → n ≤ sh.seen g.id := by
    intro g hg
    rcases List.mem_cons.mp hg with rfl | hg
    · exact hall t.cur List.mem_cons_self
    · exact hall g (List.mem_cons_of_mem _ hg)
  have hpeers : u.peers.all (fun g => g.arrivedAt domKey n) = true := List.all_eq_true.mpr fun g hg => by
    simp only [State.peers, List.mem_filter, Bool.and_eq_true, beq_iff_eq, Bool.not_eq_true', decide_eq_false_iff_not] at hg
    obtain ⟨hg, ⟨hlaunch, hrank⟩, hphase⟩ := hg
    have h := hmem g hg (hlaunch.trans (congrArg _ hid)) hphase
    rw [if_pos (hrank.trans (congrArg _ hid))] at h
    exact arrivedAt_iff.mpr h
  change runV (.barDom p) none barDomBody s = _
  rw [runV_of_executes hex, barDomBody]
  simp only [hranksOf]
  rw [hsend, if_neg (by decide), hlost]
  simp only
  rw [hnolost, if_neg Bool.false_ne_true, State.afterStores, hs]
  simp only
  rw [hbar, if_neg Bool.false_ne_true]
  change retireV _ _ (if (u.peers.all (fun g => g.arrivedAt domKey n) && _) = true then Res.ok u else _) = _
  rw [hpeers, Bool.true_and, if_pos, retireV_ok]
  refine List.all_eq_true.mpr fun g hg => ?_
  simp only [List.mem_filter, Bool.and_eq_true, beq_iff_eq, Bool.not_eq_true', beq_eq_false_iff_ne, decide_eq_false_iff_not] at hg
  obtain ⟨hg, ⟨hlaunch, hrank⟩, hphase⟩ := hg
  have h := hmem g hg (hlaunch.trans (congrArg _ hid)) hphase
  rw [if_neg (fun e => hrank (e.trans (congrArg _ hid.symm)))] at h
  change (match t.share? t.cur.id.launch t.cur.id.rank with
    | some sh => decide (g.phase = .ended) || decide (n ≤ sh.seen g.id)
    | none => true) = true
  rw [hid]
  cases hsh : t.share? s.cur.id.launch s.cur.id.rank with
  | none => rfl
  | some sh => simpa using h.imp_right (fun hseen => hseen sh hsh)

/-- Settles O46: each of the instructions ends as its body does, and a core at rest serves a send at once. -/
theorem tileAndBarrierResults : Obligations.TileAndBarrierResults := by
  refine ⟨?_, ?_, ?_, ?_, ?_, ?_, ?_, ?_⟩
  · intro p s r hready hh d va
    exact ⟨fun hf hc => exec_ttake_tlook hready hh hf hc, fun hf h64 ps hps => exec_ttakeM_tlookM hready hh hf rfl h64 hps,
      fun hf hc => ttake_waits hready hh hf hc⟩
  · intro p s r hready hl
    refine ⟨fun hf hh => exec_twait hready hf hh, exec_tdrop hready hl, ?_⟩
    rintro u hs rfl
    exact exec_tmark hready hl hs
  · rintro p s u r d hready hput hh hm hs hvec hc hd rfl
    exact exec_tsend hready hput hh hm hs hvec hc hd
  · intro s m core y x hy hholds hask hcore hf hx hnode hphase hrank hw
    exact pumpAt_delivers hy hholds hask hcore hf hx hnode hphase hrank hw
  · exact fun p s hready hs ha hb => exec_hwpub hready hs ha hb
  · intro s l r n v close sh hsh
    exact publishCell_share hsh n v close
  · intro p s x b va asid hready hx hb hnodes hpub
    exact exec_publish hready hx hb rfl rfl hnodes hpub
  · intro p s l hready hs hl
    exact ⟨fun hw hh => exec_bar hready hs hl hw hh, fun hlost hranks => exec_barDom hready hs hl hlost hranks⟩

end Sys2Proof.Machine
end

section
/-! PROOFS. Messages of the fabric at their arrival (R53, R54, R166, R267, R320, R323, R337, R347, R363, R405, R407, R473, R474). -/

namespace Sys2Proof.Machine

/-! ### What taking a message leaves -/

theorem State.modRuns_congr {s t : State} (h : t.mods = s.mods) (m : Nat) : t.modRuns m = s.modRuns m := by
  simp [State.modRuns, State.mod?, h]

/-- A change of the current hart by its identity. -/
theorem State.onHart_cur_self {s : State} (h : s.cur.phase ≠ .absent) (f : Hart → Hart) : (s.onHart s.cur.id f).cur = f s.cur := by
  simp [State.onHart, State.onHarts, h]

theorem taken_of_eq {s t : State} {n : Nat} (hf : t.fabric = s.fabric.eraseIdx n) (hg : t.cur.g = s.cur.g) (hv : t.cur.vec = s.cur.vec)
    (hk : t.cur.mask = s.cur.mask) (hn : t.near = s.near) (hm : t.msc = s.msc) (hd : t.dram = s.dram) (ht : t.tiles = s.tiles) :
    taken s t n := ⟨hf, sameG_of_eq hg, ⟨hv, hk⟩, sameMemory_of_eq hn hm hd, ht⟩

/-- A message that changes the current hart, and none of its registers, leaves all else but the fabric. -/
theorem reaches_cur {s : State} {n : Nat} {i : Instr} {f : Hart → Hart} (h : s.cur.phase ≠ .absent)
    (hexec : exec i s = .next ((s.dropMsg n).onHart s.cur.id f)) (hg : (f s.cur).g = s.cur.g) (hv : (f s.cur).vec = s.cur.vec)
    (hk : (f s.cur).mask = s.cur.mask) : ∃ t, exec i s = .next t ∧ taken s t n ∧ t.cur = f s.cur := by
  have hc : ((s.dropMsg n).onHart s.cur.id f).cur = f s.cur := by
    simpa using State.onHart_cur_self (s := s.dropMsg n) (by simpa using h) f
  exact ⟨_, hexec, taken_of_eq (by simp) (by rw [hc, hg]) (by rw [hc, hv]) (by rw [hc, hk]) (by simp) (by simp) (by simp) (by simp), hc⟩

/-! ### Far and key-value requests (R267, R347) -/

/-- A far request of the current hart runs in its stack at once when its launch is live there. -/
theorem farRequestArrival_runs {s : State} {n home : Nat} {x : Hart} (hx : s.hart? s.cur.id = some x) (hend : x.phase ≠ .ended)
    (hphase : s.cur.phase ≠ .absent) (harr : s.arrives n (home / 16) (.farReq s.cur.id home))
    (hlive : s.liveOn s.cur.id.launch (home / 16) = true) (hup : s.drooped home = false) :
    exec (.farRequestArrival n) s = .next (s.farArrive n home) := by
  obtain ⟨hmsg, hrun⟩ := harr
  change execFarRequestArrival n s = _
  simp [execFarRequestArrival, hmsg, hrun, hlive, hx, hend, hup, State.asHart, hphase]

theorem kvRemoteRequest_runs {s : State} {n m : Nat} {x : Hart} (hx : s.hart? s.cur.id = some x) (hend : x.phase ≠ .ended)
    (hphase : s.cur.phase ≠ .absent) (harr : s.arrives n m (.kvReq s.cur.id m)) :
    exec (.kvRemoteRequest n) s = .next (s.kvArrive n) := by
  obtain ⟨hmsg, hrun⟩ := harr
  change execKvRemoteRequest n s = _
  simp [execKvRemoteRequest, hmsg, hrun, hx, hend, State.asHart, hphase]

theorem farRequest_completes {s : State} {n home : Nat} {e : QEntry} {op : FarOp} (hhead : s.cur.vq.head? = some e)
    (hop : farOf e.instr = some op) :
    let o := op.run { s.dropMsg n with cur := { s.cur with active := some e } } home
    o.stop = none → (s.farArrive n home).fabric = o.s.fabric ++ [.farDone o.s.cur.id ⟨o.flags, o.data, none⟩] ∧
      (s.farArrive n home).banks = o.s.banks ∧ (s.farArrive n home).dram = o.s.dram ∧ (s.farArrive n home).near = o.s.near ∧
      (s.farArrive n home).msc = o.s.msc ∧ (s.farArrive n home).cur = { o.s.cur.quiet s.tick with active := none } := by
  intro o hstop
  have harrive : s.farArrive n home = { o.s with
      cur := { o.s.cur.quiet s.tick with active := none }
      fabric := o.s.fabric ++ [.farDone o.s.cur.id ⟨o.flags, o.data, none⟩] } := by
    simp only [State.farArrive, hhead, hop]
    rw [show (op.run { s.dropMsg n with cur := { s.cur with active := some e } } home).stop = none from hstop]
    rfl
  rw [harrive]
  exact ⟨rfl, rfl, rfl, rfl, rfl, rfl⟩

theorem kvRequest_completes {s : State} {n : Nat} {e : QEntry} {op : KvOp} {o} (hhead : s.cur.vq.head? = some e)
    (hop : kvOf e.instr = some op) (hdone : op.run { s.dropMsg n with cur := { s.cur with active := some e } } = .done o)
    (hstop : o.stop = none) :
    (s.kvArrive n).fabric = o.s.fabric ++ [.farDone o.s.cur.id ⟨o.flags, o.data, none⟩] ∧ (s.kvArrive n).dram = o.s.dram ∧
      (s.kvArrive n).near = o.s.near ∧ (s.kvArrive n).msc = o.s.msc := by
  have harrive : s.kvArrive n = { o.s with
      cur := { o.s.cur.quiet s.tick with active := none }
      fabric := o.s.fabric ++ [.farDone o.s.cur.id ⟨o.flags, o.data, none⟩] } := by
    simp only [State.kvArrive, hhead, hop, hdone, hstop]
    rfl
  rw [harrive]
  exact ⟨rfl, rfl, rfl, rfl⟩

/-! ### What reaches the current hart (R166, R267, R323, R473) -/

/-- A result for the request that the head of a queue has sent. -/
def answered (r : FarRes) : List QEntry → List QEntry
  | e :: rest => (if e.remote = .sent then { e with remote := .done r } else e) :: rest
  | [] => []

/-- A waiting head takes the result (R267). -/
theorem answered_sent {r : FarRes} {e : QEntry} (rest : List QEntry) (h : e.remote = .sent) :
    answered r (e :: rest) = { e with remote := .done r } :: rest := by simp [answered, h]

section
variable {s : State} {n : Nat} (hphase : s.cur.phase ≠ .absent)
include hphase

theorem farCompletion_reaches {r : FarRes} (hmsg : s.fabric[n]? = some (.farDone s.cur.id r)) :
    ∃ t, exec (.farCompletion n) s = .next t ∧ taken s t n ∧ t.cur = { s.cur.quiet s.tick with heldFrom := none, vq := answered r s.cur.vq } := by
  refine reaches_cur (f := fun x => { x.quiet s.tick with heldFrom := none, vq := answered r x.vq }) hphase ?_ rfl rfl rfl
  change execFarCompletion n s = _
  simp only [execFarCompletion, hmsg]
  rfl

/-- A refusal reaches a sender whose own launch is resident or Saved (R473). -/
theorem staleRefusal_reaches {m sub : Nat} {tval : Word} (hmsg : s.fabric[n]? = some (.refusal s.cur.id sub tval))
    (hrank : s.rankModule s.cur.id.launch s.cur.id.rank = some m) (hlive : s.liveOn s.cur.id.launch m = true) :
    ∃ t, exec (.staleRefusal n) s = .next t ∧ taken s t n ∧ t.cur = { s.cur with
      send := if s.cur.send = .asked then .refused else s.cur.send
      vq := answered ⟨0, [], some (0, ⟨⟨0x0F, 2⟩, tval, true⟩)⟩ s.cur.vq } := by
  refine reaches_cur (f := fun x => { x with
    send := if x.send = .asked then .refused else x.send
    vq := answered ⟨0, [], some (0, ⟨⟨0x0F, 2⟩, tval, true⟩)⟩ x.vq }) hphase ?_ rfl rfl rfl
  change execStaleRefusal n s = _
  simp only [execStaleRefusal, hmsg, hrank, hlive]
  rfl

theorem remoteStoreAck_reaches {va : Word} (hmsg : s.fabric[n]? = some (.ack s.cur.id va)) :
    ∃ t, exec (.remoteStoreAck n) s = .next t ∧ taken s t n ∧ t.cur = { s.cur with unacked := s.cur.unacked.erase va } := by
  refine reaches_cur (f := fun x => { x with unacked := x.unacked.erase va }) hphase ?_ rfl rfl rfl
  change execRemoteStoreAck n s = _
  simp only [execRemoteStoreAck, hmsg]

theorem entryGrant_reaches (hmsg : s.fabric[n]? = some (.grant s.cur.id)) :
    ∃ t, exec (.entryGrant n) s = .next t ∧ taken s t n ∧ t.cur = if s.cur.send = .asked then { s.cur with send := .granted } else s.cur := by
  have hreg {α : Type} (p : Hart → α) (hp : ∀ h : Hart, p { h with send := .granted } = p h) (x : Hart) :
      p (if x.send = .asked then { x with send := .granted } else x) = p x := by
    split
    · exact hp x
    · rfl
  refine reaches_cur (f := fun x => if x.send = .asked then { x with send := .granted } else x) hphase ?_
    (hreg Hart.g (fun _ => rfl) _) (hreg Hart.vec (fun _ => rfl) _) (hreg Hart.mask (fun _ => rfl) _)
  change execEntryGrant n s = _
  simp only [execEntryGrant, hmsg]

end

/-! ### Stores, entries and barriers at their module (R166, R320, R337) -/

/-- A posted store that nothing holds performs at its owner (R166). -/
theorem arriveStore_performs {s : State} {n a : Nat} {h : HartId} {va : Word} {vec far d : Bool} {rd : Nat} {bs : List Byte}
    (harr : s.arrives n (a / 2 ^ 52) (.store h va vec far d rd a bs))
    (hfirst : behindStore h vec (decide ((s.rankModule h.launch h.rank).getD 0 ≠ a / 2 ^ 52)) d a bs.length (s.fabric.take n) = false)
    (hstill : s.rangeMoves a bs.length = false) :
    arriveStore s n = performStore (s.dropMsg n) ((s.rankModule h.launch h.rank).getD 0) (.store h va vec far d rd a bs) := by
  obtain ⟨hmsg, hrun⟩ := harr
  simp only [arriveStore, hmsg, hrun, hfirst, hstill]
  rfl

section
variable {s : State} {n m : Nat} {x : Send} (harr : s.arrives n m (.entryReq x)) (hrank : s.rankModule x.dest.launch x.dest.rank = some m)
include harr hrank

theorem holdEntryRequest_live (hlive : s.liveOn x.dest.launch m = true) :
    exec (.holdEntryRequest n) s = .next (((s.dropMsg n).onMod m (fun y => { y with asking := y.asking ++ [x] })).pumpAt x.dest) := by
  obtain ⟨hmsg, hrun⟩ := harr
  change execHoldEntryRequest n s = _
  simp [execHoldEntryRequest, hmsg, hrank, hrun, hlive]

/-- A send to a launch that is over is refused (R473). -/
theorem holdEntryRequest_stale {h : HartId} (hlive : s.liveOn x.dest.launch m = false) (hx : x.hart = some h) :
    exec (.holdEntryRequest n) s = .next { countStale (s.dropMsg n) m true with
      fabric := (countStale (s.dropMsg n) m true).fabric ++ [.refusal h 1 x.dest.handle] } := by
  obtain ⟨hmsg, hrun⟩ := harr
  change execHoldEntryRequest n s = _
  simp [execHoldEntryRequest, hmsg, hrank, hrun, hlive, hx]

end

/-- The share at a barrier's module has seen the hart's arrival, and one delivery more (R164, R337). -/
theorem barDomMessage_seen {s : State} {n m l k : Nat} {h : HartId} {x : Launch} {sh : Share} (harr : s.arrives n m (.barDom l m h k))
    (hlive : s.liveOn l m = true) (hx : s.launch? l = some x) (hsh : Tbl.find (x.pkt.ranks.idxOf m) x.shares = some sh) :
    ∃ t sh', exec (.barDomMessage n) s = .next t ∧ taken s t n ∧
      t.share? l (x.pkt.ranks.idxOf m) = some sh' ∧ sh'.seen h = max k (sh.seen h) ∧ sh'.delivery = sh.delivery + 1 := by
  obtain ⟨hmsg, hrun⟩ := harr
  have hs : (s.dropMsg n).share? l (x.pkt.ranks.idxOf m) = some sh := by
    rw [share?_congr (s.dropMsg_launches n)]
    simp [State.share?, hx, hsh]
  have hseen := share?_onShare_self hs (fun sh => { sh with
    domSeen := (h, max k (sh.seen h)) :: sh.domSeen.filter (fun c => !decide (c.1 = h)) })
  have hbump := share?_onShare_self hseen (fun sh => { sh with delivery := sh.delivery + 1 })
  refine ⟨_, _, ?_, ?_, hbump, ?_, rfl⟩
  · change execBarDomMessage n s = _
    simp only [execBarDomMessage, hmsg, hrun, hlive, hx]
    rfl
  · exact taken_of_eq (by simp) (by simp) (by simp) (by simp) (by simp) (by simp) (by simp) (by simp)
  · simp [Share.seen]

/-! ### The March (R54, R363, R370, R474) -/

/-- A search down a descending list finds at the first level that yields something. -/
theorem findSome?_descending {β : Type} {f : Nat → Option β} {b : β} {q : Nat} (hb : f q = some b) : ∀ {ls : List Nat},
    ls.Pairwise (· > ·) → q ∈ ls → (∀ k ∈ ls, q < k → f k = none) → ls.findSome? f = some b
  | k :: ls, hls, hq, hnone => by
    obtain ⟨hk, hls⟩ := List.pairwise_cons.mp hls
    rcases List.mem_cons.mp hq with rfl | hq
    · simp [hb]
    · rw [List.findSome?_cons, hnone k List.mem_cons_self (hk q hq)]
      exact findSome?_descending hb hls hq fun j hj => hnone j (List.mem_cons_of_mem _ hj)

/-- The priorities from a level up, highest first (R365). -/
def levelsFrom (p : Nat) : List Nat := ([3, 2, 1, 0] : List Nat).filter (fun k => decide (p ≤ k))

theorem mem_levelsFrom {p k : Nat} : k ∈ levelsFrom p ↔ p ≤ k ∧ k ≤ 3 := by
  simp only [levelsFrom, List.mem_filter, List.mem_cons, List.not_mem_nil, or_false, decide_eq_true_eq]
  omega

theorem levelsFrom_none {β : Type} {f : Nat → Option β} {p : Nat} (h : ∀ k, p ≤ k → k ≤ 3 → f k = none) :
    (levelsFrom p).findSome? f = none :=
  List.findSome?_eq_none_iff.mpr fun k hk => h k (mem_levelsFrom.mp hk).1 (mem_levelsFrom.mp hk).2

theorem levelsFrom_some {β : Type} {f : Nat → Option β} {p q : Nat} {b : β} (hpq : p ≤ q) (hq : q ≤ 3)
    (h : ∀ k, q < k → k ≤ 3 → f k = none) (hb : f q = some b) : (levelsFrom p).findSome? f = some b :=
  findSome?_descending hb (List.Pairwise.filter _ (by decide)) (mem_levelsFrom.mpr ⟨hpq, hq⟩) fun k hk hlt =>
    h k hlt (mem_levelsFrom.mp hk).2

theorem share?_onLaunch_of_shares {s : State} {l r : Nat} {sh : Share} {f : Launch → Launch} (h : s.share? l r = some sh)
    (hf : ∀ x, (f x).shares = x.shares) : (s.onLaunch l f).share? l r = some sh := by
  obtain ⟨x, hx, hsh⟩ := Option.bind_eq_some_iff.mp h
  simp [State.share?, State.launch?_onLaunch_self s l f x hx, hf, hsh]

section
variable {s : State} {n l r : Nat} {x : Launch} (hx : s.launch? l = some x)
include hx

theorem marchPacketReceive_eq {m : Nat} (want : List Nat) (harr : s.arrives n m (.march l r)) (hm : x.pkt.ranks[r]? = some m) :
    let u := (s.dropMsg n).onMod m (fun y => { y with march := y.march ++ [(l, r)] })
    exec (.marchPacketReceive n want) s = .next (((levelsFrom x.prio).findSome? (fun p => u.placeAt m p want)).getD u) := by
  obtain ⟨hmsg, hrun⟩ := harr
  intro u
  change execMarchPacketReceive n want s = _
  simp only [execMarchPacketReceive, hmsg, hx, hm, hrun]
  rfl

theorem marchArrival_joins (harr : s.arrives n x.rank0 (.arrival l r)) (hfin : x.finished = false) :
    exec (.marchArrival n) s = .next (((s.dropMsg n).onLaunch l (fun y =>
      { y with arrivals := if r ∈ y.arrivals then y.arrivals else y.arrivals ++ [r] })).releaseAll l) := by
  obtain ⟨hmsg, hrun⟩ := harr
  change execMarchArrival n s = _
  simp [execMarchArrival, hmsg, hx, hrun, hfin]

omit hx in
theorem marchRelease_starts {m : Nat} {sh : Share} (harr : s.arrives n m (.release l r)) (hm : s.rankModule l r = some m)
    (hlive : s.liveOn l m = true) (hsh : s.share? l r = some sh) (harmed : sh.state = .armed) :
    exec (.marchRelease n) s = .next ((s.dropMsg n).startShare l r) := by
  obtain ⟨hmsg, hrun⟩ := harr
  change execMarchRelease n s = _
  simp [execMarchRelease, hmsg, hm, hrun, hlive, hsh, harmed]

/-- A rank's failure makes rank 0 abandon the start, unless it is over (R473, R474). -/
theorem marchDisarm_rank0 {m d f : Nat} (harr : s.arrives n m (.disarm l 0 d f)) (hm : s.rankModule l 0 = some m) :
    exec (.marchDisarm n) s = .next (if x.finished then countStale (s.dropMsg n) m false else (s.dropMsg n).abandon l d f) := by
  obtain ⟨hmsg, hrun⟩ := harr
  change execMarchDisarm n s = _
  cases hfin : x.finished <;> simp [execMarchDisarm, hmsg, hm, hrun, hx, hfin]

omit hx in
theorem marchDisarm_other {m d f : Nat} (harr : s.arrives n m (.disarm l r d f)) (hm : s.rankModule l r = some m) (hr : r ≠ 0) :
    exec (.marchDisarm n) s = .next (if ((s.share? l r).map (fun y => decide (y.state ≠ .gone))).getD false
      then (s.dropMsg n).dropShare l r else countStale ((s.dropMsg n).dropShare l r) m false) := by
  obtain ⟨hmsg, hrun⟩ := harr
  change execMarchDisarm n s = _
  simp only [execMarchDisarm, hmsg, hm, hrun, if_neg hr]
  exact (apply_ite Host.Outcome.next _ _ _).symm

/-- Rank 0 has a rank's report (R363). -/
theorem rankEndReport_reports {sh : Share} (harr : s.arrives n x.rank0 (.ended l r)) (hsh : s.share? l r = some sh) :
    ∃ t sh', exec (.rankEndReport n) s = .next t ∧ taken s t n ∧ t.share? l r = some sh' ∧ sh'.reported = true := by
  obtain ⟨hmsg, hrun⟩ := harr
  have hrep := share?_onShare_self ((share?_congr (s.dropMsg_launches n) l r).trans hsh) (fun y => { y with reported := true })
  refine ⟨(s.dropMsg n).noteReport l r, { sh with reported := true }, ?_, ?_, ?_, rfl⟩
  · change execRankEndReport n s = _
    simp only [execRankEndReport, hmsg, hx, hrun]
    rfl
  · exact taken_of_eq (by simp [State.noteReport]) (by simp [State.noteReport]) (by simp [State.noteReport]) (by simp [State.noteReport])
      (by simp [State.noteReport]) (by simp [State.noteReport]) (by simp [State.noteReport]) (by simp [State.noteReport])
  · exact share?_onLaunch_of_shares hrep fun y => by split <;> rfl

theorem errorRecordForward_writes {e : ErrRec} (harr : s.arrives n x.origin (.errRec l e)) :
    exec (.errorRecordForward n) s = .next (writeErr (s.dropMsg n) x.origin x.queue e) := by
  obtain ⟨hmsg, hrun⟩ := harr
  change execErrorRecordForward n s = _
  simp [execErrorRecordForward, hmsg, hx, hrun]

end

/-- An ACT at the faulting rank (R407). -/
theorem actForward_eq {s : State} {n m : Nat} {h : HartId} {node : Option NodeRef} {resume : Bool}
    (harr : s.arrives n m (.act h node resume)) (hm : s.rankModule h.launch h.rank = some m) : exec (.actForward n) s =
      .next (if resume then (s.dropMsg n).applyResume h node else abortLaunch (s.dropMsg n) m h.launch 2 0 0) := by
  obtain ⟨hmsg, hrun⟩ := harr
  change execActForward n s = _
  simp only [execActForward, hmsg, hm, hrun]
  exact (apply_ite Host.Outcome.next _ _ _).symm

/-- Settles O49: each message's event is given by the lemma about it. -/
theorem messagesTakeEffect : Obligations.MessagesTakeEffect := by
  unfold Obligations.MessagesTakeEffect
  refine ⟨?_, ?_, ?_, ?_, ?_, ?_, ?_, ?_⟩
  · rintro s n h x hx hend rfl hphase
    refine ⟨?_, ?_⟩
    · intro home e op harr hlive hup hhead hop o hstop
      exact ⟨_, farRequestArrival_runs hx hend hphase harr hlive hup, farRequest_completes hhead hop hstop⟩
    · intro m e op o harr hhead hop hdone hstop
      exact ⟨_, kvRemoteRequest_runs hx hend hphase harr, kvRequest_completes hhead hop hdone hstop⟩
  · intro s n e rest hphase hvq hsent tval sub r
    refine ⟨fun hmsg => ?_, fun m hmsg hrank hlive => ?_⟩
    · obtain ⟨t, ht, htaken, hcur⟩ := farCompletion_reaches hphase hmsg
      exact ⟨t, ht, htaken, by rw [hcur, hvq]; exact answered_sent rest hsent⟩
    · obtain ⟨t, ht, htaken, hcur⟩ := staleRefusal_reaches hphase hmsg hrank hlive
      exact ⟨t, ht, htaken, by rw [hcur, hvq]; exact answered_sent rest hsent⟩
  · intro s n h va vec far d rd a bs harr hfirst hstill t
    have harrive : arriveStore s n = t := arriveStore_performs harr hfirst hstill
    refine ⟨?_, fun hidx => ?_⟩
    · change execRemoteRequestArrival n s = _
      rw [execRemoteRequestArrival, harrive]
    · change execMemoryAccessPerform h s = _
      rw [execMemoryAccessPerform, hidx, harrive]
  · intro s n hphase
    refine ⟨fun va hmsg => ?_, fun hmsg => ?_⟩
    · obtain ⟨t, ht, htaken, hcur⟩ := remoteStoreAck_reaches hphase hmsg
      exact ⟨t, ht, htaken, by rw [hcur]⟩
    · obtain ⟨t, ht, htaken, hcur⟩ := entryGrant_reaches hphase hmsg
      exact ⟨t, ht, htaken, by rw [hcur, apply_ite Hart.send]⟩
  · intro s n m x harr hrank
    refine ⟨holdEntryRequest_live harr hrank, fun h hlive hx => ⟨_, holdEntryRequest_stale harr hrank hlive hx, ?_, ?_⟩⟩
    · simp [countStale]
    · simp [countStale]
  · intro s n m l h k x sh harr hlive hx hsh
    exact barDomMessage_seen harr hlive hx hsh
  · intro s n l r x hx
    refine ⟨?_, marchArrival_joins hx, fun m sh harr hm hlive hsh harmed => marchRelease_starts harr hm hlive hsh harmed,
      fun m d f harr hm => ⟨?_, fun hr => ⟨?_, ?_⟩⟩, fun harr sh hsh => rankEndReport_reports hx harr hsh,
      fun e harr => errorRecordForward_writes hx harr⟩
    · intro m want harr hm u
      have hexec := marchPacketReceive_eq hx want harr hm
      refine ⟨fun hnone => ?_, fun p t hp hp3 hhigher hplace => ?_⟩
      · rw [gives, hexec, levelsFrom_none hnone, Option.getD_none]
      · rw [gives, hexec, levelsFrom_some hp hp3 hhigher hplace, Option.getD_some]
    · rintro rfl
      exact marchDisarm_rank0 hx harr hm
    · intro sh hsh hlive
      rw [gives, marchDisarm_other harr hm hr]
      simp [hsh, hlive]
    · intro hgone
      rw [gives, marchDisarm_other harr hm hr]
      cases hsh : s.share? l r with
      | none => simp
      | some sh => simp [hgone sh hsh]
  · intro s n m h node hm
    exact ⟨fun harr => actForward_eq harr hm, fun harr => actForward_eq harr hm⟩

end Sys2Proof.Machine
end

section
/-! PROOFS. Queues and the host's registers, placement, the launch and its end, notices and saves, checks and ports (R35, R42, R53, R58,
R360 to R370, R405 to R409, R432, R442, R466 to R479). -/

namespace Sys2Proof.Machine

/-! ### Queues and the host's registers (R360, R361, R366, R406, R407) -/

/-- A queue reads what was written to it. -/
theorem State.mod?_onQueue {s : State} {m q : Nat} {x : Module} (hx : s.mod? m = some x) (f : Queue → Queue) :
    ∃ x', (s.onQueue m q f).mod? m = some x' ∧ x'.queue q = f (x.queue q) :=
  ⟨_, State.mod?_onMod_self s m _ x hx, by simp [Module.queue, Tbl.find_put_self]⟩

/-- The event writes the queue and nothing of it before is lost but through `f`. -/
theorem exec_onQueue {s : State} {m q : Nat} {x : Module} {i : Instr} {f : Queue → Queue} (hx : s.mod? m = some x)
    (hexec : exec i s = .next (s.onQueue m q f)) :
    ∃ t x', exec i s = .next t ∧ t.mod? m = some x' ∧ x'.queue q = f (x.queue q) := by
  obtain ⟨x', hx', hq⟩ := State.mod?_onQueue hx f
  exact ⟨_, x', hexec, hx', hq⟩

theorem State.modRuns_of_hostReaches {s : State} {m : Nat} (h : s.hostReaches m = true) : s.modRuns m = true := by
  simp only [State.hostReaches, Bool.and_eq_true] at h
  exact h.1

section
variable {s : State} {m q : Nat} {x : Module} (hreach : s.hostReaches m = true) (hx : s.mod? m = some x) (hq : q < 64)
include hreach hx

section
include hq

/-- A TAIL that passes the ring is recorded, any other is taken (R361, R479). -/
theorem hostQtailWrite_eq (tail : BitVec 32) : exec (.hostQtailWrite m q tail) s = .next
    (if 2 ^ (x.queue q).lsize.toNat < (tail - (x.queue q).head).toNat then queueErr s m q 1 tail
    else s.onQueue m q (fun y => { y with tail := tail, since := if y.head = y.tail then s.tick else y.since })) := by
  change execHostQtailWrite m q tail s = _
  simp only [execHostQtailWrite, hx, hreach, Nat.not_le.mpr hq, decide_false, Bool.not_true, Bool.or_false, Bool.false_eq_true, if_false]
  exact (apply_ite Host.Outcome.next _ _ _).symm

/-- Enabling a queue checks LSIZE, then the ring (R360, R479). -/
theorem qcfgEnable_eq (v : Word) (hen : (x.queue q).en = false) : let z := (x.queue q).configure v
    exec (.qcfgEnable m q v) s = .next
    (if z.lsize = 0 ∨ 12 < z.lsize.toNat then queueErr (s.onQueue m q (fun _ => z)) m q 5 (z.lsize.setWidth 32)
    else if z.ringOk = false then queueErr (s.onQueue m q (fun _ => z)) m q 2 0
    else (s.onQueue m q (fun _ => z)).onQueue m q (fun y => { y with en := true, since := s.tick })) := by
  intro z
  have hzen : z.en = false := by simp [z, Queue.configure, hen]
  change execQcfgEnable m q v s = _
  simp only [execQcfgEnable, hx, hreach, Nat.not_le.mpr hq, decide_false, Bool.not_true, Bool.or_false, Bool.false_eq_true, if_false,
    Bool.not_eq_true']
  rw [if_neg (by simpa [z] using hzen), apply_ite Host.Outcome.next, apply_ite Host.Outcome.next]

omit hreach hx hq in
/-- A ring size that QCFG takes (R360). -/
theorem lsize_ok {n : BitVec 4} (hlo : 1 ≤ n.toNat) (hhi : n.toNat ≤ 12) : ¬(n = 0 ∨ 12 < n.toNat) := by
  rintro (rfl | h)
  · simp at hlo
  · omega

omit hx in
theorem qcfgDisable_eq (v : Word) : exec (.qcfgDisable m q v) s = .next (s.onQueue m q (fun y => if !y.en then y.configure v
    else if y.head = y.tail then (y.configure v).close else { y.configure v with disabling := true })) := by
  change execQcfgDisable m q v s = _
  simp only [execQcfgDisable, hreach, Nat.not_le.mpr hq, decide_false, Bool.not_true, Bool.or_false, Bool.false_eq_true, if_false]

theorem headAgeExpiry_eq (hen : (x.queue q).en = true) (hne : (x.queue q).head ≠ (x.queue q).tail)
    (hage : x.set.age ≤ s.since (x.queue q).since) :
    exec (.headAgeExpiry m q) s = .next (s.onQueue m q (fun z => { z with reserved := true })) := by
  change execHeadAgeExpiry m q s = _
  simp [execHeadAgeExpiry, hx, State.modRuns_of_hostReaches hreach, hq, hen, hne, hage]

/-- VALID clears when no record waits (R406). -/
theorem errrecValidClear_clears (hnone : ∀ c ∈ x.pend, c.1 ≠ q) : ∃ t x', exec (.errrecValidClear m q) s = .next t ∧
    t.mod? m = some x' ∧ x'.err q = { x.err q with valid := false } := by
  have hdom : q ≠ domQueue := by unfold domQueue; omega
  have hget := State.mod?_onMod_self s m (fun x => if q = domQueue then { x with domErr := { x.domErr with valid := false } }
    else if q < 64 then { x with errs := Tbl.put q { x.err q with valid := false } x.errs } else x) x hx
  rw [if_neg hdom, if_pos hq] at hget
  have hnext : Module.nextErr { x with errs := Tbl.put q { x.err q with valid := false } x.errs } q = none := by
    simp only [Module.nextErr, Option.map_eq_none_iff, List.find?_eq_none]
    intro c hc
    simpa using hnone c.1 (List.fst_mem_of_mem_zipIdx hc)
  refine ⟨_, _, ?_, hget, by simp [Module.err, Tbl.find_put_self]⟩
  change execErrrecValidClear m q s = _
  simp [execErrrecValidClear, hreach, State.writeNext, hget, hnext]

end

omit hx in
theorem registerWrite_eq (off : Nat) (v : Word) : exec (.registerWrite m off v) s = .next (s.onMod m (fun x => x.regWrite off v)) := by
  change execRegisterWrite m off v s = _
  simp [execRegisterWrite, hreach]

/-- ACT resume of a record of the own module (R405, R406). -/
theorem errrecActResume_eq {h : HartId} (hvalid : (x.err q).valid = true) (hh : (x.err q).hart = some h)
    (hm : s.rankModule h.launch h.rank = some m) :
    exec (.errrecActResume m q) s = .next (if s.recWaits x (x.err q) then s else s.applyResume h (x.err q).node) := by
  change execErrrecActResume m q s = _
  cases hw : s.recWaits x (x.err q) <;> simp [execErrrecActResume, hx, hreach, hvalid, hh, hm, hw]

theorem errrecActAbort_eq {h : HartId} (hvalid : (x.err q).valid = true) (hh : (x.err q).hart = some h) :
    exec (.errrecActAbort m q) s = .next (abortLaunch s m h.launch 2 ((x.err q).cause.toNat % 256) (x.err q).rank.toNat) := by
  change execErrrecActAbort m q s = _
  simp [execErrrecActAbort, State.actAbort, hx, hreach, hvalid, hh]

theorem domainActAbort_eq {h : HartId} (hvalid : x.domErr.valid = true) (hh : x.domErr.hart = some h) :
    exec (.domainActAbort m) s = .next (abortLaunch s m h.launch 2 (x.domErr.cause.toNat % 256) x.domErr.rank.toNat) := by
  change execDomainActAbort m s = _
  simp [execDomainActAbort, State.actAbort, hx, hreach, hvalid, hh]

end

/-! ### Placement (R365) -/

theorem schedulerPlace_eq {s : State} {m : Nat} (want : List Nat) (hrun : s.modRuns m = true) :
    exec (.schedulerPlace m want) s = .next (((levelsFrom 0).findSome? (fun p => s.placeAt m p want)).getD s) := by
  change execSchedulerPlace m want s = _
  simp only [execSchedulerPlace, hrun]
  rfl

/-- The only domain share of a level that a module holds is placed when no Saved launch is its candidate (R365, R370). -/
theorem placeAt_march {s t : State} {m p l r : Nat} {want : List Nat} {x : Module} {y : Launch} (hx : s.mod? m = some x)
    (hfree : x.blocked p none = true ∨ s.savedAt m p = []) (hmarch : s.marchAt x p = [(l, r, y)])
    (harm : (s.onMod m (fun z => { z with march := z.march.erase (l, r) })).armRank l r m y.pkt want = some t) :
    s.placeAt m p want = some t := by
  have hsaved : (if x.blocked p none then none else (s.savedAt m p).findSome? (fun c =>
      (s.resumeSpot c.1 c.2.2.1 m c.2.1 c.2.2.2).map (fun cs => s.resumeShare c.1 c.2.2.1 m c.2.1 c.2.2.2 cs want))) = none := by
    rcases hfree with h | h <;> simp [h]
  simp only [State.placeAt, hx, hsaved, hmarch, List.findSome?_cons, harm]

/-! ### The March's time limits (R370, R474) -/

section
variable {s : State} {l rk m : Nat} {x : Launch} {y : Module} (hx : s.launch? l = some x) (hm : s.rankModule l rk = some m)
  (hrun : s.modRuns m = true)
include hx hm

theorem rank_of_rankModule : x.pkt.ranks[rk]? = some m := by simpa [State.rankModule, hx] using hm

include hrun

section
variable (hy : s.mod? m = some y) (hfin : x.finished = false) (hdom : x.pkt.single = false)
include hy hfin hdom

/-- At rank 0 an arrival is missing when the time is over (R474). -/
theorem marchTimeout_rank0 {t r : Nat} (hrk : rk = 0) (hrep : x.replicated = some t) (hmiss : x.missing = some r)
    (hlate : y.set.marchto ≤ s.since t) : exec (.marchTimeout l rk) s = .next (s.abandon l 4 r) := by
  subst hrk
  change execMarchTimeout l 0 s = _
  simp [execMarchTimeout, hx, rank_of_rankModule hx hm, hrun, hy, hfin, hdom, hrep, hmiss, hlate]

/-- Another rank that has no release when the time is over queries rank 0 (R474). -/
theorem marchTimeout_other {sh : Share} (hrk : rk ≠ 0) (hsh : Tbl.find rk x.shares = some sh) (harmed : sh.state = .armed)
    (hlate : y.set.marchto ≤ s.since sh.armedAt) : let rest := s.fabric.filter (fun q => decide (q ≠ .query l rk))
    exec (.marchTimeout l rk) s = .next (if x.rank0 ∈ y.lost then
      writeErr (({ s with free := s.free + 6, fabric := rest } : State).dropShare l rk) m domQueue (disarmErr s x rk)
    else if s.modRuns x.rank0 then ({ s with fabric := rest } : State).heard m x.rank0
    else if Msg.query l rk ∈ s.fabric then s else { s with fabric := s.fabric ++ [.query l rk] }) := by
  intro rest
  change execMarchTimeout l rk s = _
  simp only [execMarchTimeout, hx, rank_of_rankModule hx hm, hrun, hy, hfin, hdom, if_neg hrk, hsh, harmed, Option.bind_some, if_true,
    Nat.not_lt.mpr hlate, if_false, List.contains_eq_mem, decide_eq_true_eq, Bool.not_true, Bool.or_false, Bool.false_eq_true, rest]
  rw [apply_ite Host.Outcome.next, apply_ite Host.Outcome.next, apply_ite Host.Outcome.next]

end

/-! ### A launch's end (R363, R478) -/

omit hrun in
theorem rank0_of_rankModule (hrk : rk = 0) : m = x.rank0 := by
  subst hrk
  have h := rank_of_rankModule hx hm
  cases hr : x.pkt.ranks with
  | nil => simp [hr] at h
  | cons r rs => simpa [Launch.rank0, hr, eq_comm] using h

omit hrun in
/-- Rank 0 keeps its own report, and every other rank sends it (R363). -/
theorem reportEnd_fabric : (s.reportEnd l rk m x).fabric = if m = x.rank0 then s.fabric else s.fabric ++ [.ended l rk] := by
  have hwb : (writeBackModule s m).fabric = s.fabric := (memStep_writeBack s _).fabric
  unfold State.reportEnd
  split
  · next hrk => rw [if_pos (rank0_of_rankModule hx hm hrk)]; simp [State.noteReport, hwb]
  · split <;> simp [State.noteReport, hwb]

section
variable {sh : Share} (hclosed : x.closed = false) (hfin : x.finished = false) (hsh : Tbl.find rk x.shares = some sh)
  (hstate : sh.state = .running) (hend : s.shareEnded l rk = true)
include hclosed hfin hsh hstate hend

/-- A rank whose harts have all ended reports once (R363). -/
theorem launchCompletion_reports (hsent : sh.endSent = false)
    (hmore : ∀ z, (s.reportEnd l rk m x).launch? l = some z → z.allReported = false) :
    exec (.launchCompletion l rk) s = .next (s.reportEnd l rk m x) := by
  change execLaunchCompletion l rk s = _
  cases hz : (s.reportEnd l rk m x).launch? l with
  | none => simp [execLaunchCompletion, hx, rank_of_rankModule hx hm, hrun, hclosed, hfin, hsh, hstate, hend, hsent, hz]
  | some z => simp [execLaunchCompletion, hx, rank_of_rankModule hx hm, hrun, hclosed, hfin, hsh, hstate, hend, hsent, hz, hmore z hz]

/-- With every report the launch is over (R363). -/
theorem launchCompletion_closes (hsent : sh.endSent = true) (hall : x.allReported = true) (horigin : s.modRuns x.origin = true) :
    exec (.launchCompletion l rk) s = .next (s.closeLaunch l x 0) := by
  change execLaunchCompletion l rk s = _
  simp [execLaunchCompletion, hx, rank_of_rankModule hx hm, hrun, hclosed, hfin, hsh, hstate, hend, hsent, hall, horigin]

end

omit hm hrun in
/-- An aborted launch's record waits for each rank's confirmation (R478). -/
theorem launchCompletion_aborted {z : Launch} (hclosed : x.closed = false) (hfin : x.finished = true)
    (horigin : s.modRuns x.origin = true) (hz : (s.confirmRanks l x).launch? l = some z)
    (hgone : ∀ sh, Tbl.find (z.pkt.ranks.idxOf z.origin) z.shares = some sh → sh.state = .gone) :
    exec (.launchCompletion l rk) s = .next (if (s.confirmRanks l x).gaveUp z
      then (s.confirmRanks l x).closeLaunch l z (unconfirmed z.status (z.unsure.map (·.1))) else s.confirmRanks l x) := by
  have hown : ((Tbl.find (z.pkt.ranks.idxOf z.origin) z.shares).map (fun y => decide (y.state = .gone))).getD true = true := by
    cases h : Tbl.find (z.pkt.ranks.idxOf z.origin) z.shares with
    | none => rfl
    | some sh => simp [hgone sh h]
  change execLaunchCompletion l rk s = _
  simp only [execLaunchCompletion, hx, hclosed, hfin, horigin, hz, hown]
  exact (apply_ite Host.Outcome.next _ _ _).symm

omit hx hm hrun in
/-- Nothing is to be confirmed when every rank has answered. -/
theorem confirmRanks_of_sure (hsure : x.unsure = []) : s.confirmRanks l x = s := by simp [State.confirmRanks, hsure]

omit hx hm hrun in
theorem gaveUp_of_sure (horigin : s.modRuns x.origin = true) (hsure : x.unsure = []) : s.gaveUp x = true := by
  cases hy : s.mod? x.origin with
  | none => simp [State.modRuns, hy] at horigin
  | some y => simp [State.gaveUp, hy, hsure]

/-! ### Suspension, resumption and firmware's requests (R220, R368, R369, R432) -/

omit hx in
theorem launchSuspend_saves {sh : Share} {deadline : BitVec 32} (hsh : s.share? l rk = some sh) (hd : 4096 ≤ deadline.toNat)
    (hstate : sh.state = .suspending) (hsaved : s.allSaved l rk = true) :
    exec (.launchSuspend l rk deadline) s = .next (s.saveShare l rk m) := by
  change execLaunchSuspend l rk deadline s = _
  simp [execLaunchSuspend, hsh, hm, hrun, Nat.not_lt.mpr hd, hstate, hsaved]

omit hx in
/-- A running hart of a share that is suspended takes the notice (R368). -/
theorem launchSuspend_notifies {sh : Share} {deadline : BitVec 32} (hsh : s.share? l rk = some sh) (hd : 4096 ≤ deadline.toNat)
    (hstate : sh.state = .running) (hl : s.cur.id.launch = l) (hrk : s.cur.id.rank = rk) (hphase : s.cur.phase = .running) :
    ∃ t, exec (.launchSuspend l rk deadline) s = .next t ∧ t.cur = s.cur.notify deadline s.tick := by
  let t := (s.onShare l rk (fun z => { z with state := .suspending })).onHarts
    (fun h => h.id.launch == l && h.id.rank == rk && h.active?) (fun h => h.notify deadline s.tick)
  have hcur : t.cur = s.cur.notify deadline s.tick := by simp [t, State.onHarts, hl, hrk, Hart.active?, hphase]
  have hsaved : t.allSaved l rk = false := by
    rw [State.allSaved, List.all_eq_false]
    refine ⟨t.cur, ?_, ?_⟩
    · simp [State.shareHarts, State.allHarts, hcur, Hart.notify, hl, hrk, hphase]
    · simp [hcur, Hart.notify, hphase]
  refine ⟨t, ?_, hcur⟩
  change execLaunchSuspend l rk deadline s = _
  simp only [execLaunchSuspend, hsh, hm, hrun, Nat.not_lt.mpr hd, hstate, decide_false, Bool.not_true, Bool.or_false, Bool.false_eq_true,
    if_false, if_true]
  exact congrArg Host.Outcome.next (if_neg (by rw [hsaved]; decide))

theorem launchResume_eq {sh : Share} {cores want : List Nat} (hsh : s.share? l rk = some sh)
    (hfit : s.canResume l rk m x sh cores = true) :
    exec (.launchResume l rk cores want) s = .next (s.resumeShare l rk m x sh cores want) := by
  change execLaunchResume l rk cores want s = _
  simp [execLaunchResume, hx, hsh, hm, hrun, hfit]

omit hm hrun hx in
/-- A table after its entries from `a` on are written in turn. -/
theorem find_foldl_put {α : Type} (f : Nat → α) (a k : Nat) (n b : Nat) (t : Tbl α) :
    Tbl.find k ((upto b n).foldl (fun t i => Tbl.put (a + i) (f i) t) t) =
      if a + b ≤ k ∧ k < a + b + n then some (f (k - a)) else Tbl.find k t := by
  induction n generalizing b t with
  | zero => simp [upto]
  | succ n ih =>
    rw [upto, List.foldl_cons, ih]
    by_cases hk : k = a + b
    · subst hk
      rw [if_neg (by omega), if_pos (by omega), Tbl.find_put_self, Nat.add_sub_cancel_left]
    · rw [Tbl.find_put_other hk]
      exact if_congr (by omega) rfl rfl

/-- Firmware replaces the slots it names and leaves the others (R432). -/
theorem constBankReload_reloads {ka kb : Nat} {image : Word} {bs : List Byte} (hfin : x.finished = false) (hle : ka ≤ kb) (hkb : kb ≤ 255)
    (hread : s.readAs x.pkt.ranks m x.pkt.atp (lineRuns ((kb + 1 - ka) / 16 + 2) image.toNat (8 * (kb + 1 - ka))) = .ok bs) :
    ∃ t, exec (.constBankReload l rk ka kb image) s = .next t ∧ sameG s t ∧ sameMemory s t ∧ t.cur.vq = s.cur.vq ∧
      ∀ sh sh', s.share? l rk = some sh → t.share? l rk = some sh' → (∀ k, ka ≤ k → k ≤ kb →
        Tbl.find k sh'.const = some (BitVec.ofNat 64 (leNat ((bs.drop (8 * (k - ka))).take 8)))) ∧
        ∀ k, k < ka ∨ kb < k → Tbl.find k sh'.const = Tbl.find k sh.const := by
  have hexec : exec (.constBankReload l rk ka kb image) s = .next (s.onShare l rk (fun y => { y with
      const := (upto 0 (kb + 1 - ka)).foldl (fun t i => Tbl.put (ka + i) (BitVec.ofNat 64 (leNat ((bs.drop (8 * i)).take 8))) t) y.const })) := by
    change execConstBankReload l rk ka kb image s = _
    simp [execConstBankReload, hx, hm, hrun, hfin, Nat.not_lt.mpr hle, Nat.not_lt.mpr hkb, hread]
  refine ⟨_, hexec, sameG_of_eq (by rw [State.onShare_cur]), sameMemory_of_eq (by simp) (by simp) (by simp), by rw [State.onShare_cur], ?_⟩
  intro sh sh' hsh hsh'
  rw [share?_onShare_self hsh] at hsh'
  obtain rfl := Option.some.inj hsh'
  refine ⟨fun k hlo hhi => ?_, fun k hk => ?_⟩
  · rw [find_foldl_put, if_pos (by omega)]
  · rw [find_foldl_put, if_neg (by omega)]

omit hm hrun in
theorem frzEnable_sets : ∃ t x', exec (.frzEnable l) s = .next t ∧ t.launch? l = some x' ∧ x' = { x with frz := true } :=
  ⟨_, _, rfl, State.launch?_onLaunch_self s l _ x hx, rfl⟩

end

/-! ### Notices, forced saves and the limits on a hart (R56, R405, R408, R442, R468) -/

/-- What is done as the current hart is done. -/
theorem State.asHart_cur {s : State} (h : s.cur.phase ≠ .absent) (f : State → State) : s.asHart s.cur.id f = f s := if_pos ⟨rfl, h⟩

/-- A hart with nothing in its queue has no request to settle. -/
theorem State.settleRequest_of_empty {s : State} (h : s.cur.vq = []) : s.settleRequest = s := by simp [State.settleRequest, h]

theorem State.trapHead_of_empty {s : State} (h : s.cur.vq = []) : s.trapHead = s := by simp [State.trapHead, h]

/-- Settling a request changes the fabric and the hart's queue alone. -/
theorem settleRequest_frame (s : State) : ∃ fs q, s.settleRequest = { s with fabric := fs, cur := { s.cur with vq := q } } := by
  unfold State.settleRequest
  split
  · exact ⟨s.fabric, s.cur.vq, rfl⟩
  · split
    · exact ⟨s.fabric, s.cur.vq, rfl⟩
    · simp only
      split
      · exact ⟨_, _, rfl⟩
      · exact ⟨s.fabric, s.cur.vq, rfl⟩

/-- A trap on route F saves the hart, which awaits ACT, and keeps its registers (R405). -/
theorem takeTrap_awaits {s : State} {x : Trap} (hm : s.cur.trap.hm = false) (hroute : onH x.cause = false) :
    (takeTrap s x).cur.phase = .saved ∧ (takeTrap s x).cur.needsAct = true ∧ (takeTrap s x).cur.trap.cause = x.cause ∧
      (takeTrap s x).cur.trap.tval = x.tval ∧ sameG s (takeTrap s x) ∧ sameVec s (takeTrap s x) := by
  have hcur : (takeTrap s x).cur = ((s.markLeft s.cur).await x).refaulted := by rw [takeTrap_firmware hm hroute, firmwareRoute_cur]
  refine ⟨by rw [hcur]; rfl, by rw [hcur]; rfl, ?_, ?_, sameG_of_eq ?_, ?_, ?_⟩ <;> rw [hcur] <;>
    simp [Hart.refaulted, Hart.await, State.markLeft, Hart.record]

section
variable {s : State} (hrun : s.modRuns s.cur.mod = true) (hhart : s.hart? s.cur.id = some s.cur)
include hrun hhart

theorem noticePost_posts {d : BitVec 32} (hact : s.cur.phase = .running ∨ s.cur.phase = .waiting) (hd : 4096 ≤ d.toNat) :
    ∃ t, exec (.noticePost s.cur.id d) s = .next t ∧ t.cur = s.cur.notify d s.tick := by
  have hphase : s.cur.phase ≠ .absent := by rcases hact with h | h <;> simp [h]
  have hactive : s.cur.active? = true := by simpa [Hart.active?] using hact
  refine ⟨s.onHart s.cur.id (fun y => y.notify d s.tick), ?_, State.onHart_cur_self hphase _⟩
  change execNoticePost s.cur.id d s = _
  simp [execNoticePost, hhart, hrun, hactive, hd]

/-- A hart saved by force keeps its registers, its accumulator tiles and its grant's size (R408). -/
theorem forcedPreemption_saves (hact : s.cur.phase = .running ∨ s.cur.phase = .waiting) (hpend : s.cur.notice.pend = true)
    (hm : s.cur.trap.hm = false) (hleft : s.leftOf s.cur = 0) : ∃ t, exec (.forcedPreemption s.cur.id) s = .next t ∧
      t.cur.phase = .saved ∧ t.cur.trap.cause = ⟨0x10, 0⟩ ∧ t.cur.trap.tepc = s.cur.pc ∧ t.cur.trap.tval = 0 ∧ t.cur.trap.pin = true ∧
      t.cur.trap.grnt = BitVec.ofNat 4 s.cur.grant ∧ t.cur.resv = none ∧ t.cur.accs = s.cur.accs ∧ sameG s t ∧ sameVec s t ∧ sameMemory s t := by
  have hphase : s.cur.phase ≠ .absent := by rcases hact with h | h <;> simp [h]
  have hactive : s.cur.active? = true := by simpa [Hart.active?] using hact
  have hexec : exec (.forcedPreemption s.cur.id) s = .next (s.forceSave s.cur.id) := by
    change execForcedPreemption s.cur.id s = _
    simp [execForcedPreemption, hhart, hrun, hactive, hpend, hm, hleft]
  refine ⟨s.forceSave s.cur.id, hexec, ?_⟩
  rw [State.forceSave, State.asHart_cur hphase]
  obtain ⟨fs, q, hsettle⟩ := settleRequest_frame s
  rw [hsettle]
  refine ⟨rfl, rfl, ?_, rfl, rfl, ?_, rfl, ?_, sameG_of_eq ?_, ⟨?_, ?_⟩, sameMemory_of_eq rfl rfl rfl⟩
  all_goals simp [Hart.forced, State.markLeft, State.stow, Hart.grant]

section
variable {y : Module} (hy : s.mod? s.cur.mod = some y) (hphase : s.cur.phase = .running) (hm : s.cur.trap.hm = false) (hvq : s.cur.vq = [])
include hy hphase hm hvq

/-- A hart without progress for WDLIM traps with cause 0x11.1 (R468). -/
theorem watchdogFire_traps (hquiet : y.set.wdlim ≤ s.quietOf s.cur) : ∃ t, exec (.watchdogFire s.cur.id) s = .next t ∧
    t.cur.phase = .saved ∧ t.cur.needsAct = true ∧ t.cur.trap.cause = ⟨0x11, 1⟩ ∧ sameG s t ∧ sameVec s t := by
  let u : State := { s with cur := { s.cur with heldFrom := none } }
  have hexec : exec (.watchdogFire s.cur.id) s = .next (takeTrap u ⟨mkCause 0x11 1, 0, false⟩) := by
    have hu : ({ s.settleRequest with cur := { s.settleRequest.cur with heldFrom := none } } : State).trapHead = u := by
      rw [State.settleRequest_of_empty hvq]
      exact State.trapHead_of_empty (s := u) hvq
    change execWatchdogFire s.cur.id s = _
    simp only [execWatchdogFire, hhart, hy]
    rw [if_pos (by simp [hrun, hphase, Hart.frozen, hm, hquiet]), State.asHart_cur (by simp [hphase])]
    exact (congrArg (fun v => Host.Outcome.next (takeTrap v ⟨mkCause 0x11 1, 0, !v.cur.vq.isEmpty⟩)) hu).trans (by simp [u, hvq])
  obtain ⟨hsaved, hneeds, hcause, -, hg, hv⟩ := takeTrap_awaits (s := u) (x := ⟨mkCause 0x11 1, 0, false⟩) hm rfl
  exact ⟨_, hexec, hsaved, hneeds, hcause, hg, hv⟩

/-- A posted store that a migration holds too long traps its hart with cause 0x0B.1 (R442). -/
theorem migrationHoldTimeout_store {va : Word} (hheld : s.cur.heldFrom = none) (hlong : s.heldLong s.cur.id y.set.mhold = some va) :
    ∃ t, exec (.migrationHoldTimeout s.cur.id) s = .next t ∧ t.cur.phase = .saved ∧
      t.cur.trap.cause = ⟨0x0B, 1⟩ ∧ t.cur.trap.tval = va ∧ sameG s t ∧ sameVec s t := by
  have hexec : exec (.migrationHoldTimeout s.cur.id) s = .next (takeTrap (s.holdAgain s.cur.id) ⟨mkCause 0x0B 1, va, false⟩) := by
    change execMigrationHoldTimeout s.cur.id s = _
    simp only [execMigrationHoldTimeout, hhart, hy]
    rw [if_neg (by simp [hphase, hrun]), hheld]
    simp only [Option.filter_none, Option.bind_none, hlong]
    exact congrArg Host.Outcome.next ((State.asHart_cur (s := s.holdAgain s.cur.id) (by simp [State.holdAgain, hphase]) _).trans
      (by rw [State.settleRequest_of_empty (s := s.holdAgain s.cur.id) hvq]))
  obtain ⟨hsaved, -, hcause, htval, hg, hv⟩ :=
    takeTrap_awaits (s := s.holdAgain s.cur.id) (x := ⟨mkCause 0x0B 1, va, false⟩) hm rfl
  exact ⟨_, hexec, hsaved, hcause, htval, hg, hv⟩

/-- An access that a migration holds too long traps, at its frame with sub-cause 1, at a table of its walk with 2 (R442). -/
theorem migrationHoldTimeout_access {k : Hold} (hheld : s.cur.heldFrom = some k) (hlong : y.set.mhold < s.since k.since)
    (hholder : k.holder = .frame ∨ k.holder = .table) :
    ∃ t, exec (.migrationHoldTimeout s.cur.id) s = .next t ∧ t.cur.phase = .saved ∧ t.cur.needsAct = true ∧
      t.cur.trap.cause = ⟨0x0B, if k.holder = .table then 2 else 1⟩ ∧ t.cur.trap.tval = k.va ∧ sameG s t ∧ sameVec s t := by
  let u : State := { s with cur := { s.cur with heldFrom := none } }
  have hexec : exec (.migrationHoldTimeout s.cur.id) s =
      .next (takeTrap u ⟨⟨0x0B, if k.holder = .table then 2 else 1⟩, k.va, k.vec⟩) := by
    have hu : (if k.vec then u.trapHead else u) = u := by rw [State.trapHead_of_empty (s := u) hvq, ite_self]
    have hsub : k.holder.subCause = some (if k.holder = .table then 2 else 1) := by rcases hholder with h | h <;> rw [h] <;> rfl
    have hcode : mkCause 0x0B (if k.holder = .table then 2 else 1) = ⟨0x0B, if k.holder = .table then 2 else 1⟩ := by split <;> rfl
    change execMigrationHoldTimeout s.cur.id s = _
    simp only [execMigrationHoldTimeout, hhart, hy]
    rw [if_neg (by simp [hphase, hrun]), hheld]
    simp only [Option.filter_some, hlong, decide_true, if_true, Option.bind_some, hsub, Option.map_some]
    refine congrArg Host.Outcome.next ((State.asHart_cur (by simp [hphase]) _).trans ?_)
    rw [State.settleRequest_of_empty hvq, hcode]
    exact congrArg (fun v => takeTrap v _) hu
  obtain ⟨hsaved, hneeds, hcause, htval, hg, hv⟩ := takeTrap_awaits (s := u)
    (x := ⟨⟨0x0B, if k.holder = .table then 2 else 1⟩, k.va, k.vec⟩) hm (by split <;> rfl)
  exact ⟨_, hexec, hsaved, hneeds, hcause, htval, hg, hv⟩

end

end

/-- A saved hart of a running launch takes the lanes it is given (R37, R368). -/
theorem hartResume_seats {s : State} {h : HartId} {x : Hart} {l : Launch} {y : Share} {lanes : Nat} (hx : s.hart? h = some x)
    (hl : s.launch? h.launch = some l) (hy : s.share? h.launch h.rank = some y) (hrun : s.modRuns x.mod = true) (hsaved : x.phase = .saved)
    (hact : x.needsAct = false) (hstate : y.state = .running) (hstages : l.pkt.stages < 2) (hpin : x.trap.pin = false)
    (hmin : l.pkt.gmin ≤ lanes) (hmax : lanes ≤ l.pkt.greq) (hpool : lanes ≤ (s.pool x.mod x.seat.core).length)
    (hacc : x.acnt + s.tilesHeld x.mod x.seat.core ≤ 8) : exec (.hartResume h lanes) s =
      .next ((s.seatHart h x.seat.core x.seat.slot ((s.pool x.mod x.seat.core).take lanes)).onHart h (fun z => { z with phase := .running })) := by
  change execHartResume h lanes s = _
  simp [execHartResume, hx, hl, hy, hrun, hsaved, hact, hstate, Nat.not_le.mpr hstages, hpin, hmin, hmax, hpool, hacc]

/-! ### Checks, lost ranks and ports (R470, R475) -/

section
variable {s : State} {m : Nat} {x : Module} (hx : s.mod? m = some x) (hrun : s.modRuns m = true)
include hx hrun

theorem deadlockCheck_checks (hdue : x.set.dlck ≤ s.since x.lastCheck) :
    exec (.deadlockCheck m) s = .next ((s.launches.map (·.1)).foldl (fun t l => t.checkLaunch m l)
      (s.onMod m (fun y => { y with lastCheck := s.tick }))) := by
  change execDeadlockCheck m s = _
  simp [execDeadlockCheck, hx, hrun, hdue]

omit hrun in
/-- A rank from which no answer is due is not lost. -/
theorem rankLost_none {lost : Nat}
    (h : Tbl.find lost x.asked = none ∨ ∃ t, Tbl.find lost x.asked = some t ∧ s.since t < x.set.ltimeout) :
    exec (.rankLost m lost) s = .next s := by
  change execRankLost m lost s = _
  rcases h with h | ⟨t, h, hlt⟩
  · simp [execRankLost, hx, h]
  · simp [execRankLost, hx, h, Nat.not_le.mpr hlt]

/-- With nothing in flight and no launch a lost rank is noted and no more. -/
theorem rankLost_notes {lost t : Nat} (hne : m ≠ lost) (hnew : lost ∉ x.lost) (hasked : Tbl.find lost x.asked = some t)
    (hlate : x.set.ltimeout ≤ s.since t) (hf : s.fabric = []) (hl : s.launches = []) :
    exec (.rankLost m lost) s = .next (s.onMod m (fun y => { y with lost := y.lost ++ [lost] })) := by
  have hfab : ({ s.onMod m (fun y => { y with lost := y.lost ++ [lost] }) with fabric := [] } : State) =
      s.onMod m (fun y => { y with lost := y.lost ++ [lost] }) := by
    rw [← hf, ← State.onMod_fabric s m (fun y => { y with lost := y.lost ++ [lost] })]
  change execRankLost m lost s = _
  simp only [execRankLost, hx]
  rw [if_neg (by simp [hrun, hne, hnew, hasked, hlate])]
  simp only [State.onMod_fabric, hf, hl, List.filter_nil, List.foldl_nil]
  exact congrArg Host.Outcome.next hfab

section
variable {p : Nat} (hp : p < 18)
include hp

/-- A port reads what was written to it. -/
theorem mod?_onPort (f : Port → Port) : ∃ x', (s.onPort m p f).mod? m = some x' ∧ x'.port p = f (x.port p) := by
  have hon : s.onPort m p f = s.onMod m (fun x => { x with ports := Tbl.put p (f (x.port p)) x.ports }) := by simp [State.onPort, hrun, hp]
  exact ⟨_, (congrArg (State.mod? · m) hon).trans (State.mod?_onMod_self s m _ x hx), by simp [Module.port, Tbl.find_put_self]⟩

theorem linkTrained_up : ∃ t x', exec (.linkTrained m p) s = .next t ∧ t.mod? m = some x' ∧ x'.port p = { x.port p with up := true } := by
  obtain ⟨x', hx', hport⟩ := mod?_onPort hx hrun hp (fun y => { y with up := true })
  exact ⟨_, x', rfl, hx', hport⟩

/-- A corrected error of a link is counted up to the register's end (R475). -/
theorem ualinkLinkError_counts : ∃ t x', exec (.ualinkLinkError m p) s = .next t ∧ t.mod? m = some x' ∧
    (x'.port p).up = (x.port p).up ∧ (x'.port p).retries = satInc (x.port p).retries := by
  obtain ⟨x', hx', hport⟩ := mod?_onPort hx hrun hp
    (fun y => { y with retries := satInc y.retries, degraded := (Config.unstated s.free).getLsbD 0 })
  exact ⟨_, x', rfl, hx', by rw [hport], by rw [hport]⟩

theorem ualinkPortFailure_down (hup : (x.port p).up = true) : ∃ t x', exec (.ualinkPortFailure m p) s = .next t ∧ t.mod? m = some x' ∧
    (x'.port p).up = false ∧ (x'.port p).downs = satInc (x.port p).downs := by
  obtain ⟨x', hx', hport⟩ := mod?_onPort hx hrun hp (fun y => if y.up then { y with
    up := false, downs := satInc y.downs
    reissued := satAdd y.reissued ((Config.unstated s.free).toNat % (s.fabric.length + 1)) } else y)
  rw [if_pos hup] at hport
  exact ⟨_, x', rfl, hx', by rw [hport], by rw [hport]⟩

end

end

/-- Settles O50: each event is given by the lemma about it, in the state in which it acts. -/
theorem launchEventsTakeEffect : Obligations.LaunchEventsTakeEffect := by
  unfold Obligations.LaunchEventsTakeEffect
  refine ⟨?_, ?_, ?_, ?_, ?_, ?_⟩
  · intro s m q x hreach hx hq y
    refine ⟨fun tail => ⟨fun hpass => ?_, fun hfit => ?_⟩, ?_, fun hen hne hage => exec_onQueue hx (headAgeExpiry_eq hreach hx hq hen hne hage),
      registerWrite_eq hreach, fun hvalid h hh => ⟨errrecActResume_eq hreach hx hvalid hh, errrecActAbort_eq hreach hx hvalid hh⟩,
      fun hvalid h hh => domainActAbort_eq hreach hx hvalid hh, errrecValidClear_clears hreach hx hq⟩
    · rw [gives, hostQtailWrite_eq hreach hx hq, if_pos hpass]
    · exact exec_onQueue hx ((hostQtailWrite_eq hreach hx hq tail).trans (by rw [if_neg (Nat.not_lt.mpr hfit)]))
    · intro v z
      refine ⟨fun hen hlo hhi hring => ?_, fun hen hsize => ?_, fun hen hlo hhi hring => ?_, fun hen => ?_⟩
      · obtain ⟨x', hx', hz⟩ := State.mod?_onQueue hx (fun _ => z)
        obtain ⟨x'', hx'', hz'⟩ := State.mod?_onQueue hx' (fun y => { y with en := true, since := s.tick })
        refine ⟨_, x'', (qcfgEnable_eq hreach hx hq v hen).trans (by rw [if_neg (lsize_ok hlo hhi), if_neg (by simpa using hring)]), hx'', ?_⟩
        rw [hz', hz]
      · rw [gives, qcfgEnable_eq hreach hx hq v hen, if_pos hsize]
      · rw [gives, qcfgEnable_eq hreach hx hq v hen, if_neg (lsize_ok hlo hhi), if_pos hring]
      · obtain ⟨t, x', hexec, hx', hz⟩ := exec_onQueue hx (qcfgDisable_eq hreach hq v)
        exact ⟨t, x', hexec, hx', by rw [hz, hen]; rfl⟩
  · intro s m want hrun
    refine ⟨fun p t hp hhigher hplace => ?_, fun hnone => ?_, fun x p l r y t hx hfree hmarch harm => placeAt_march hx hfree hmarch harm⟩
    · rw [gives, schedulerPlace_eq want hrun, levelsFrom_some (Nat.zero_le p) hp hhigher hplace, Option.getD_some]
    · rw [gives, schedulerPlace_eq want hrun, levelsFrom_none (fun k _ hk => hnone k hk), Option.getD_none]
  · intro s l rk m x hx hm hrun
    refine ⟨fun y hy hrk hfin hdom t r hrep hmiss hlate => marchTimeout_rank0 hx hm hrun hy hfin hdom hrk hrep hmiss hlate, ?_, ?_, ?_,
      fun sh deadline hsh hd => ⟨launchSuspend_saves hm hrun hsh hd, ?_⟩, fun sh cores want hsh hfit => launchResume_eq hx hm hrun hsh hfit,
      fun ka kb image bs hfin hle hkb hread => constBankReload_reloads hx hm hrun hfin hle hkb hread, frzEnable_sets hx⟩
    · intro y sh hy hrk hfin hdom hsh harmed hlate rest
      have hexec := marchTimeout_other hx hm hrun hy hfin hdom hrk hsh harmed hlate
      refine ⟨fun hlost => ?_, fun hlost hrun0 => ?_, fun hlost hrun0 hq => ?_⟩
      · rw [gives, hexec, if_pos hlost]
      · rw [gives, hexec, if_neg hlost, if_pos hrun0]
      · rw [gives, hexec, if_neg hlost, if_neg (by simp [hrun0]), if_neg hq]
    · intro sh hclosed hfin hsh hstate hend
      exact ⟨fun hsent hmore => ⟨launchCompletion_reports hx hm hrun hclosed hfin hsh hstate hend hsent hmore, reportEnd_fabric hx hm⟩,
        fun hsent hall horigin => launchCompletion_closes hx hm hrun hclosed hfin hsh hstate hend hsent hall horigin⟩
    · intro hclosed hfin horigin z hz hgone
      have hexec := launchCompletion_aborted (rk := rk) hx hclosed hfin horigin hz hgone
      refine ⟨fun hup => ?_, fun hup => ?_, fun hsure => ?_⟩
      · rw [gives, hexec, if_pos hup]
      · rw [gives, hexec, if_neg (by simp [hup])]
      · rw [confirmRanks_of_sure hsure] at hz hexec
        obtain rfl := Option.some.inj (hx.symm.trans hz)
        rw [gives, hexec, if_pos (gaveUp_of_sure horigin hsure), hsure]
        rfl
    · rintro hstate _ rfl hl hrk hphase
      obtain ⟨t, ht, hcur⟩ := launchSuspend_notifies hm hrun hsh hd hstate hl hrk hphase
      exact ⟨t, ht, by rw [hcur]; rfl, by rw [hcur]; rfl, by rw [hcur]; rfl⟩
  · intro s hrun hhart hact
    refine ⟨fun d hd => ?_, forcedPreemption_saves hrun hhart hact,
      fun y hy hphase hm hquiet hvq => watchdogFire_traps hrun hhart hy hphase hm hvq hquiet,
      fun y va hy hphase hm hvq hheld hlong => migrationHoldTimeout_store hrun hhart hy hphase hm hvq hheld hlong,
      fun y k hy hphase hm hvq hheld hlong hholder => migrationHoldTimeout_access hrun hhart hy hphase hm hvq hheld hlong hholder⟩
    obtain ⟨t, ht, hcur⟩ := noticePost_posts hrun hhart hact hd
    exact ⟨t, ht, by rw [hcur]; rfl, by rw [hcur]; rfl, sameG_of_eq (by rw [hcur]; rfl), by rw [hcur]; rfl, by rw [hcur]; rfl⟩
  · intro s h x l y lanes hx hl hy hrun hsaved hact hstate hstages hpin hmin hmax hpool hacc
    exact hartResume_seats hx hl hy hrun hsaved hact hstate hstages hpin hmin hmax hpool hacc
  · intro s m x hx hrun
    refine ⟨deadlockCheck_checks hx hrun, fun lost h => rankLost_none hx h,
      fun lost t hne hnew hasked hlate hf hl => rankLost_notes hx hrun hne hnew hasked hlate hf hl, ?_⟩
    intro p hp y
    exact ⟨linkTrained_up hx hrun hp, ualinkLinkError_counts hx hrun hp, ualinkPortFailure_down hx hrun hp⟩

end Sys2Proof.Machine
end

section
/-! PROOFS. What the scalar register instructions leave as it was (R62, R193, R198). -/

namespace Sys2Proof.Machine

/-! ### The integer, move and field instructions -/

/-- An instruction completes in every state and writes one general register. -/
def CompletesWithG (i : Instr) (d : BitVec 6) : Prop := ∀ s, ∃ v, SetsG i s d v

theorem onlyWrites_of_completes {i : Instr} {d : BitVec 6} {s t : State} (ht : exec i s = .next t) (h : CompletesWithG i d) :
    onlyWrites (gd d) s t := by
  obtain ⟨v, hv⟩ := h s
  cases hv.symm.trans ht
  exact onlyWrites_setG_completed s (gd d) v

theorem onlyD_of_completes {c : R2 → Instr} (h : ∀ p, CompletesWithG (c p) p.d) : OnlyD c := fun p _ _ ht => onlyWrites_of_completes ht (h p)

/-- The one-source integer instructions and the move of a register. -/
theorem oneSource_onlyWrites (p : R1) (s t : State) (h : exec (.clz p) s = .next t ∨ exec (.ctz p) s = .next t ∨ exec (.popc p) s = .next t ∨
    exec (.sext p) s = .next t ∨ exec (.zext p) s = .next t ∨ exec (.liReg p) s = .next t) : onlyWrites (gd p.d) s t := by
  rcases h with h | h | h | h | h | h
  all_goals exact onlyWrites_of_completes h fun _ => ⟨_, rfl⟩

/-- SEL and the field instructions. -/
theorem field_onlyWrites (p : R3) (s t : State) (h : exec (.sel p) s = .next t ∨ exec (.bfx p) s = .next t ∨ exec (.bfi p) s = .next t) :
    onlyWrites (gd p.d) s t := by
  rcases h with h | h | h
  all_goals exact onlyWrites_of_completes h fun _ => ⟨_, rfl⟩

theorem integerFrame : IntegerFrame := by
  refine ⟨?_, ?_, ?_, ?_, ?_, ?_, ?_, ?_, ?_, ?_, ?_, ?_, ?_, ?_, ?_, ?_, ?_, ?_, ?_, ?_, ?_, ?_, ?_, ?_, ?_,
    oneSource_onlyWrites, fun _ _ _ h => onlyWrites_of_completes h fun _ => ⟨_, rfl⟩, field_onlyWrites⟩
  all_goals exact onlyD_of_completes fun _ _ => ⟨_, rfl⟩

/-! ### The float instructions -/

/-- What a float instruction's completion leaves: one general register and the sticky flags apart, everything; and no flag falls (R62, R87). -/
def FloatFrame (d : BitVec 6) (s t : State) : Prop :=
  sameGBut (gd d) s t ∧ sameVec s t ∧ sameSpecial s t ∧ sameMemory s t ∧ sameOthers s t ∧
    ∀ k, s.cur.aflags.getLsbD k = true → t.cur.aflags.getLsbD k = true

theorem floatFrame_raise_setG (s : State) (f : Flags) (d : BitVec 6) (v : Word) :
    FloatFrame d s ((s.raise f).setG (gd d) v).completed := by
  obtain ⟨hg, hv, hs, hf, hm, ho⟩ := onlyWrites_setG_completed (s.raise f) (gd d) v
  refine ⟨hg, hv, hs, hm, ho, fun k hk => ?_⟩
  rw [hf]
  simp [State.raise, hk]

theorem floatFrame_setG (s : State) (d : BitVec 6) (v : Word) : FloatFrame d s (s.setG (gd d) v).completed := by
  obtain ⟨hg, hv, hs, hf, hm, ho⟩ := onlyWrites_setG_completed s (gd d) v
  exact ⟨hg, hv, hs, hm, ho, fun k hk => by rwa [hf]⟩

theorem scalarFloatFrame : ScalarFloatFrame := by
  rintro d i s (⟨p, rfl, h⟩ | ⟨p, rfl, h⟩ | ⟨p, rfl, h⟩)
  · rcases h with rfl | rfl | rfl | rfl | rfl | rfl | rfl
    all_goals exact ⟨_, rfl, floatFrame_raise_setG s _ _ _⟩
  · rcases h with rfl | rfl
    · exact ⟨_, rfl, floatFrame_raise_setG s _ _ _⟩
    · exact ⟨_, rfl, floatFrame_setG s _ _⟩
  · rcases h with rfl | rfl
    all_goals exact ⟨_, rfl, floatFrame_raise_setG s _ _ _⟩

/-- Settles O6: each instruction completes with a general register written, the float ones after raising flags. -/
theorem scalarFrame : Obligations.ScalarFrame := ⟨integerFrame, scalarFloatFrame⟩

end Sys2Proof.Machine
end

section
/-! PROOFS. What reset leaves, what the host reads in the device registers then, and how a hart first starts (R74, R89, R360, R372, R394). -/

namespace Sys2Proof.Machine

/-! ### The machine at reset -/

theorem memOk_reset : State.reset.memOk := ⟨rfl, rfl, rfl, List.forall_mem_nil _⟩

theorem tilesInForm_reset : State.reset.tilesInForm := ⟨List.forall_mem_nil _, List.forall_mem_nil _, List.forall_mem_nil _⟩

/-- Memory reads zero (log 1). -/
theorem byteAt_reset (a : Nat) : State.reset.byteAt a = 0 := rfl

/-! ### The device registers at reset -/

/-- CAPS and the module's number (R372). -/
theorem regRead_reset_caps {m : Nat} (hm : m < 65536) : Module.reset.regRead m 0 = 2861 + m * 2 ^ 16 := by
  change 2861 + m % 2 ^ 16 * 2 ^ 16 = _
  omega

/-- A queue's registers are read in its block of 32 bytes (R360). -/
theorem regRead_queue (x : Module) (m : Nat) {q i : Nat} (hq : q < 64) (hi : i < 4) :
    x.regRead m (0x100000 + 32 * q + 8 * i) = (x.queue q).word i := by
  have h8 : (0x100000 + 32 * q + 8 * i) % 8 = 0 := by omega
  have hidx : (0x100000 + 32 * q + 8 * i - 0x100000) / 32 = q := by omega
  have hword : (0x100000 + 32 * q + 8 * i) % 32 / 8 = i := by omega
  unfold Module.regRead
  rw [if_neg (by omega), if_neg (by omega), if_pos (by omega), hidx, hword]

/-- A queue's error record is read in its block of 64 bytes (R406). -/
theorem regRead_err (x : Module) (m : Nat) {q i : Nat} (hq : q < 64) (hi : i < 8) :
    x.regRead m (0x200000 + 64 * q + 8 * i) = (x.err q).word i := by
  have hidx : (0x200000 + 64 * q + 8 * i - 0x200000) / 64 = q := by omega
  have hword : (0x200000 + 64 * q + 8 * i) % 64 / 8 = i := by omega
  unfold Module.regRead
  rw [if_neg (by omega), if_neg (by omega), if_neg (by omega), if_pos (by omega), hidx, hword]

/-- A stack's registers are read in its block of 64 bytes (R460). -/
theorem regRead_stack (x : Module) (m : Nat) {k i : Nat} (hk : k < 12) (hi : i < 8) :
    x.regRead m (0x400000 + 64 * k + 8 * i) = (x.stack k).word i := by
  have hidx : (0x400000 + 64 * k + 8 * i - 0x400000) / 64 = k := by omega
  have hword : (0x400000 + 64 * k + 8 * i) % 64 / 8 = i := by omega
  unfold Module.regRead
  rw [if_neg (by omega), if_neg (by omega), if_neg (by omega), if_neg (by omega), if_neg (by omega), if_neg (by omega), if_neg (by omega),
    if_neg (by omega), if_pos (by omega), hidx, hword]

theorem queueWords_reset : Queue.reset.word 0 = 0 ∧ Queue.reset.word 1 = 2 ^ 4 := by decide

theorem errWord_reset : ErrRec.reset.word 0 = 0 := by decide

theorem stackWord_reset : Stack.reset.word 5 = 2048 := by decide

/-- QCFG reads LSIZE 1 and nothing else, every other word of a queue and its error record zero, THRESH 2,048 (R360, R406, R460). -/
theorem regRead_reset :
    (∀ m, m < 65536 → Module.reset.regRead m 0 = 2861 + m * 2 ^ 16) ∧
    (∀ m q, q < 64 → Module.reset.regRead m (0x100000 + 32 * q) = 0 ∧ Module.reset.regRead m (0x100008 + 32 * q) = 2 ^ 4 ∧
      Module.reset.regRead m (0x200000 + 64 * q) = 0) ∧ ∀ m k, k < 12 → Module.reset.regRead m (0x400028 + 64 * k) = 2048 := by
  refine ⟨fun m => regRead_reset_caps, fun m q hq => ⟨?_, ?_, ?_⟩, fun m k hk => ?_⟩
  · rw [show 0x100000 + 32 * q = 0x100000 + 32 * q + 8 * 0 by omega, regRead_queue _ m hq (by decide)]
    exact queueWords_reset.1
  · rw [show 0x100008 + 32 * q = 0x100000 + 32 * q + 8 * 1 by omega, regRead_queue _ m hq (by decide)]
    exact queueWords_reset.2
  · rw [show 0x200000 + 64 * q = 0x200000 + 64 * q + 8 * 0 by omega, regRead_err _ m hq (by decide)]
    exact errWord_reset
  · rw [show 0x400028 + 64 * k = 0x400000 + 64 * k + 8 * 5 by omega, regRead_stack _ m hk (by decide)]
    exact stackWord_reset

/-! ### A hart that starts -/

/-- A far register's key names its stack and its number within the bank of its slot (R20, R74). -/
theorem bankOf_bankKey {home m slot r : Nat} (hr : r < 16) (hm : m < 65536) (hs : slot < 2048) :
    bankOf m slot (bankKey home m slot r) = some (home, r) := by
  unfold bankOf bankKey
  have hslot : (((home * 65536 + m) * 2048 + slot) * 16 + r) / 16 % 2048 = slot := by omega
  have hmod : (((home * 65536 + m) * 2048 + slot) * 16 + r) / 32768 % 65536 = m := by omega
  have hhome : (((home * 65536 + m) * 2048 + slot) * 16 + r) / 2147483648 = home := by omega
  rw [if_pos ⟨hslot, hmod⟩, hhome]
  congr 2
  omega

/-- A hart that holds no far bank finds zeros in the bank of its slot (R74). -/
theorem far_unstow_of_empty {s : State} (hb : s.cur.bank = []) {home r : Nat} (hr : r < 16) (hm : s.cur.mod < 65536)
    (hs : s.cur.devSlot < 2048) : s.unstow.far home r = 0 := by
  have hout : ∀ v : Nat, (bankOf s.cur.mod s.cur.devSlot (bankKey home s.cur.mod s.cur.devSlot r, v).1).isNone = false := fun v => by
    rw [bankOf_bankKey hr hm hs]
    rfl
  change Tbl.getD (s.cur.bank.foldl _ (s.banks.filter _)) _ 0 = 0
  rw [hb, List.foldl_nil, Tbl.getD]
  exact congrArg (Option.getD · 0) (Tbl.find_filter_none hout s.banks)

theorem newHart_greg (id : HartId) (m : Nat) (p : Packet) (bank : Tbl Word) (seat : Seat) (tick : Nat) (r : Fin 32) :
    (newHart id m p bank seat tick).greg r = 0 := by
  simp [Hart.greg, newHart, Hart.reset]

/-- Settles O60: the fields are read off the definitions; the registers in the host's map and the far banks of a new slot by their addresses. -/
theorem resetState : Obligations.ResetState := by
  refine ⟨⟨memOk_reset, rfl, tilesInForm_reset, rfl, rfl, rfl, rfl, rfl, rfl, rfl, rfl, rfl, byteAt_reset⟩,
    fun q => ⟨rfl, rfl, rfl, rfl, rfl, rfl, rfl, rfl, rfl, rfl, rfl, rfl, rfl, rfl⟩, rfl, regRead_reset, ?_⟩
  intro id m p bank seat tick
  exact ⟨newHart_greg id m p bank seat tick, rfl, rfl, rfl, rfl, rfl, rfl, rfl, rfl, rfl, rfl, rfl, rfl, rfl, rfl, rfl, rfl,
    fun s home r hr hm hs => far_unstow_of_empty rfl hr hm hs⟩

end Sys2Proof.Machine
end

section
/-! PROOFS. VSPILL and VFILL (R93, R230, R231): the fields of a frame's bytes, the frame of a hart, and the hart that a frame fills. -/

namespace Sys2Proof.Machine

/-! ### Fields of a run of bytes -/

/-- The value of the `k` bytes from offset `o` on (R4). -/
def fieldAt (bs : List Byte) (o k : Nat) : Nat := leNat ((bs.drop o).take k)

theorem fieldAt_append_left {xs : List Byte} {o k : Nat} (h : o + k ≤ xs.length) (ys : List Byte) :
    fieldAt (xs ++ ys) o k = fieldAt xs o k := by
  rw [fieldAt, List.drop_append_of_le_length (by omega), List.take_append_of_le_length (by rw [List.length_drop]; omega), fieldAt]

theorem fieldAt_append_right (xs ys : List Byte) (o k : Nat) : fieldAt (xs ++ ys) (xs.length + o) k = fieldAt ys o k := by
  rw [fieldAt, ← List.drop_drop, List.drop_left, fieldAt]

/-- A field of what follows a run of `n` bytes. -/
theorem fieldAt_append_of_length {xs : List Byte} {n : Nat} (hn : xs.length = n) (ys : List Byte) (o k : Nat) :
    fieldAt (xs ++ ys) (n + o) k = fieldAt ys o k := hn ▸ fieldAt_append_right xs ys o k

theorem fieldAt_leBytes (k v : Nat) : fieldAt (leBytes k v) 0 k = v % 2 ^ (8 * k) := by
  rw [fieldAt, List.drop_zero, List.take_of_length_le (length_leBytes k v).le, leNat_leBytes]

theorem leNat_replicate_zero (n : Nat) : leNat (List.replicate n 0) = 0 := by
  induction n with
  | zero => rfl
  | succ n ih =>
    change 0 + 256 * leNat (List.replicate n 0) = 0
    rw [ih]

theorem fieldAt_replicate_zero (n o k : Nat) : fieldAt (List.replicate n 0) o k = 0 := by
  rw [fieldAt, List.drop_replicate, List.take_replicate, leNat_replicate_zero]

theorem fieldAt_drop (bs : List Byte) (a o k : Nat) : fieldAt (bs.drop a) o k = fieldAt bs (a + o) k := by
  rw [fieldAt, List.drop_drop, fieldAt]

theorem fieldAt_lt (bs : List Byte) (o k : Nat) : fieldAt bs o k < 2 ^ (8 * k) :=
  (leNat_lt _).trans_le (Nat.pow_le_pow_right (by decide) (Nat.mul_le_mul_left 8 (List.length_take_le k _)))

/-- A value cut to its low bits fits in more of them. -/
theorem mod_two_pow_of_le {v k w : Nat} (h : k ≤ w) : v % 2 ^ k % 2 ^ w = v % 2 ^ k :=
  Nat.mod_eq_of_lt ((Nat.mod_lt _ (Nat.two_pow_pos k)).trans_le (Nat.pow_le_pow_right (by decide) h))

section
variable {α : Type} {f : α → List Byte} {w : Nat}

theorem length_flatMap_of_width (hw : ∀ x, (f x).length = w) (l : List α) : (l.flatMap f).length = l.length * w := by
  induction l with
  | nil => simp
  | cons a l ih => rw [List.flatMap_cons, List.length_append, hw, ih, List.length_cons]; ring

/-- A field within the i-th of several blocks of one width. -/
theorem fieldAt_flatMap (hw : ∀ x, (f x).length = w) {o k : Nat} (hk : o + k ≤ w) : ∀ (l : List α) {i : Nat} {x : α}, l[i]? = some x →
    fieldAt (l.flatMap f) (i * w + o) k = fieldAt (f x) o k := by
  intro l
  induction l with
  | nil => intro i x h; simp at h
  | cons a l ih =>
    intro i x h
    rw [List.flatMap_cons]
    cases i with
    | zero =>
      obtain rfl : a = x := by simpa using h
      rw [Nat.zero_mul, Nat.zero_add]
      exact fieldAt_append_left (hk.trans (hw a).ge) _
    | succ i =>
      rw [show (i + 1) * w + o = w + (i * w + o) by ring, fieldAt_append_of_length (hw a)]
      exact ih (by simpa using h)

end

/-! ### The frame of a hart (R93) -/

/-- The header: n, the vector type and the number of tiles, the binding, the flags, and 32 bytes of zeros. -/
def Hart.frameHead (h : Hart) (n : Nat) : List Byte :=
  leBytes 8 (n % 2 ^ 18 + h.cfg.etype.toNat * 2 ^ 20 + h.cfg.nregc.toNat * 2 ^ 24 + h.acnt * 2 ^ 28) ++
    leBytes 8 h.stream.bpos.toNat ++ leBytes 8 ((if h.stream.bound then 2 ^ 6 else 0) + h.stream.cell.toNat) ++
    leBytes 8 h.aflags.toNat ++ List.replicate 32 0

/-- The elements below n of each named register. -/
def Hart.frameRegs (h : Hart) (n : Nat) : List Byte :=
  (h.vec.toList.take h.cfg.nreg).flatMap (fun v => leBytes (regBytes h.cfg n) (v % 2 ^ (n * h.cfg.sew)))

/-- The bits below n of each mask. -/
def Hart.frameMasks (h : Hart) (n : Nat) : List Byte := h.mask.toList.flatMap (fun v => leBytes (maskBytes n) (v % 2 ^ n))

theorem Hart.frame_eq (h : Hart) (n : Nat) : h.frame n = h.frameHead n ++ (h.frameRegs n ++ (h.frameMasks n ++ h.accs.flatMap Acc.bytes)) := by
  simp only [Hart.frame, Hart.frameHead, Hart.frameRegs, Hart.frameMasks, List.append_assoc]

theorem VCfg.nreg_le (c : VCfg) : c.nreg ≤ 64 := by
  have h : c.nregc.toNat ≤ 3 := Nat.le_of_lt_succ c.nregc.isLt
  exact Nat.mul_le_mul_left 8 (Nat.pow_le_pow_right (by decide) h)

theorem Hart.length_frameHead (h : Hart) (n : Nat) : (h.frameHead n).length = 64 := by simp [Hart.frameHead]

theorem Hart.length_frameRegs (h : Hart) (n : Nat) : (h.frameRegs n).length = h.cfg.nreg * regBytes h.cfg n := by
  rw [Hart.frameRegs, length_flatMap_of_width (fun _ => length_leBytes _ _)]
  simp [h.cfg.nreg_le]

theorem Hart.length_frameMasks (h : Hart) (n : Nat) : (h.frameMasks n).length = 8 * maskBytes n := by
  rw [Hart.frameMasks, length_flatMap_of_width (fun _ => length_leBytes _ _)]
  simp

/-- A tile's header in a frame. -/
def Acc.headBytes (a : Acc) : List Byte :=
  [if a.bf16 then 1 else 0, 0] ++ leBytes 2 a.tag.toNat ++ List.replicate 60 0

/-- Bytes of one body entry of a tile (R93). -/
def Acc.width (a : Acc) : Nat := if a.bf16 then 2 else 4

theorem Acc.cols_mul_width (a : Acc) : a.cols * a.width = 256 := by
  unfold Acc.cols Acc.width
  split <;> rfl

/-- The body entries of a tile in a frame. -/
def Acc.bodyBytes (a : Acc) : List Byte := (upto 0 (96 * a.cols)).flatMap (fun i => leBytes a.width (Tbl.getD a.body i 0))

/-- The row state of a tile in a frame. -/
def Acc.rowBytes (a : Acc) : List Byte := (upto 0 96).flatMap (fun r => leBytes 4 (a.mAt r) ++ leBytes 4 (a.lAt r))

theorem Acc.bytes_eq (a : Acc) : a.bytes = a.headBytes ++ (a.bodyBytes ++ a.rowBytes) := by
  simp only [Acc.bytes, Acc.headBytes, Acc.bodyBytes, Acc.rowBytes, Acc.width, List.append_assoc]

theorem Acc.length_headBytes (a : Acc) : a.headBytes.length = 64 := by simp [Acc.headBytes]

theorem Acc.length_bodyBytes (a : Acc) : a.bodyBytes.length = 24576 := by
  rw [Acc.bodyBytes, length_flatMap_of_width (fun _ => length_leBytes _ _), length_upto, Nat.mul_assoc, a.cols_mul_width]

theorem Acc.length_rowBytes (a : Acc) : a.rowBytes.length = 768 := by
  rw [Acc.rowBytes, length_flatMap_of_width (w := 8) (fun _ => by simp), length_upto]

theorem Acc.length_bytes (a : Acc) : a.bytes.length = 25408 := by
  rw [a.bytes_eq, List.length_append, List.length_append, a.length_headBytes, a.length_bodyBytes, a.length_rowBytes]

theorem getElem?_upto_zero {n i : Nat} (h : i < n) : (upto 0 n)[i]? = some i := by
  rw [upto_zero_eq_range, List.getElem?_range h]

/-! #### A tile's bytes -/

theorem Acc.head_fields (a : Acc) : fieldAt a.bytes 0 1 = (if a.bf16 then 1 else 0) ∧ fieldAt a.bytes 1 1 = 0 ∧
    fieldAt a.bytes 2 2 = a.tag.toNat ∧ fieldAt a.bytes 4 60 = 0 := by
  have hl := a.length_headBytes
  rw [a.bytes_eq]
  refine ⟨?_, ?_, ?_, ?_⟩ <;> rw [fieldAt_append_left (by omega), Acc.headBytes]
  · cases a.bf16 <;> rfl
  · cases a.bf16 <;> rfl
  · rw [List.append_assoc, fieldAt_append_of_length (n := 2) rfl _ 0, fieldAt_append_left (by simp), fieldAt_leBytes]
    exact Nat.mod_eq_of_lt a.tag.isLt
  · rw [fieldAt_append_of_length (n := 4) (by simp) _ 0]
    exact fieldAt_replicate_zero 60 0 60

theorem Acc.index_lt (a : Acc) {r k : Nat} (hr : r < 96) (hk : k < a.cols) : r * a.cols + k < 96 * a.cols := by
  calc r * a.cols + k < (r + 1) * a.cols := by rw [Nat.add_mul, Nat.one_mul]; omega
    _ ≤ 96 * a.cols := Nat.mul_le_mul_right _ hr

/-- An entry of the body lies within the body's bytes. -/
theorem Acc.entry_end (a : Acc) {r k : Nat} (hr : r < 96) (hk : k < a.cols) : a.width * (r * a.cols + k) + a.width ≤ 24576 := by
  calc a.width * (r * a.cols + k) + a.width = a.width * (r * a.cols + k + 1) := by ring
    _ ≤ a.width * (96 * a.cols) := Nat.mul_le_mul_left _ (a.index_lt hr hk)
    _ = 24576 := by rw [Nat.mul_left_comm, Nat.mul_comm a.width, a.cols_mul_width]

theorem Acc.entry_fits (a : Acc) {r k : Nat} (hr : r < 96) (hk : k < a.cols) : 64 + a.width * (r * a.cols + k) + a.width ≤ 25408 := by
  have := a.entry_end hr hk
  omega

theorem Acc.body_field (a : Acc) {r k : Nat} (hr : r < 96) (hk : k < a.cols) :
    fieldAt a.bytes (64 + a.width * (r * a.cols + k)) a.width = a.at r k % 2 ^ (8 * a.width) := by
  rw [a.bytes_eq, fieldAt_append_of_length a.length_headBytes, fieldAt_append_left (a.length_bodyBytes ▸ a.entry_end hr hk), Acc.bodyBytes,
    Nat.mul_comm a.width, ← Nat.add_zero ((r * a.cols + k) * a.width),
    fieldAt_flatMap (fun _ => length_leBytes _ _) (by omega) _ (getElem?_upto_zero (a.index_lt hr hk)), fieldAt_leBytes]
  rfl

theorem Acc.row_field (a : Acc) {r : Nat} (hr : r < 96) :
    fieldAt a.bytes (24640 + 8 * r) 4 = a.mAt r % 2 ^ 32 ∧ fieldAt a.bytes (24644 + 8 * r) 4 = a.lAt r % 2 ^ 32 := by
  have key (o : Nat) (ho : o + 4 ≤ 8) :
      fieldAt a.bytes (24640 + 8 * r + o) 4 = fieldAt (leBytes 4 (a.mAt r) ++ leBytes 4 (a.lAt r)) o 4 := by
    rw [a.bytes_eq, show 24640 + 8 * r + o = 64 + (24576 + (r * 8 + o)) by omega, fieldAt_append_of_length a.length_headBytes,
      fieldAt_append_of_length a.length_bodyBytes, Acc.rowBytes, fieldAt_flatMap (fun _ => by simp) ho _ (getElem?_upto_zero hr)]
  constructor
  · rw [← Nat.add_zero (24640 + 8 * r), key 0 (by decide), fieldAt_append_left (by simp), fieldAt_leBytes]
  · rw [show 24644 + 8 * r = 24640 + 8 * r + 4 by omega, key 4 (by decide), fieldAt_append_of_length (n := 4) (by simp) _ 0, fieldAt_leBytes]

/-! #### The parts of the frame -/

theorem Hart.head_fields (h : Hart) {n : Nat} (ha : h.accs.length ≤ 8) (hn : n ≤ 16384) :
    fieldAt (h.frame n) 0 8 = n + h.cfg.etype.toNat * 2 ^ 20 + h.cfg.nregc.toNat * 2 ^ 24 + h.accs.length * 2 ^ 28 ∧
    fieldAt (h.frame n) 8 8 = h.stream.bpos.toNat ∧
    fieldAt (h.frame n) 16 8 = (if h.stream.bound then 64 else 0) + h.stream.cell.toNat ∧
    fieldAt (h.frame n) 24 8 = h.aflags.toNat ∧ fieldAt (h.frame n) 32 32 = 0 := by
  have hl := h.length_frameHead n
  have he := h.cfg.etype.isLt
  have hr := h.cfg.nregc.isLt
  have hb := h.stream.bpos.isLt
  have hc := h.stream.cell.isLt
  have hf := h.aflags.isLt
  rw [h.frame_eq]
  refine ⟨?_, ?_, ?_, ?_, ?_⟩ <;> rw [fieldAt_append_left (by omega)] <;> simp only [Hart.frameHead, List.append_assoc]
  · rw [fieldAt_append_left (by simp), fieldAt_leBytes, Nat.mod_eq_of_lt (a := n) (by omega)]
    exact Nat.mod_eq_of_lt (by simp only [Hart.acnt]; omega)
  · rw [fieldAt_append_of_length (n := 8) (by simp) _ 0, fieldAt_append_left (by simp), fieldAt_leBytes]
    exact Nat.mod_eq_of_lt (by omega)
  · rw [fieldAt_append_of_length (n := 8) (by simp) _ 8, fieldAt_append_of_length (n := 8) (by simp) _ 0, fieldAt_append_left (by simp),
      fieldAt_leBytes]
    exact Nat.mod_eq_of_lt (by split <;> omega)
  · rw [fieldAt_append_of_length (n := 8) (by simp) _ 16, fieldAt_append_of_length (n := 8) (by simp) _ 8,
      fieldAt_append_of_length (n := 8) (by simp) _ 0, fieldAt_append_left (by simp), fieldAt_leBytes]
    exact Nat.mod_eq_of_lt (by omega)
  · rw [fieldAt_append_of_length (n := 8) (by simp) _ 24, fieldAt_append_of_length (n := 8) (by simp) _ 16,
      fieldAt_append_of_length (n := 8) (by simp) _ 8, fieldAt_append_of_length (n := 8) (by simp) _ 0]
    exact fieldAt_replicate_zero 32 0 32

theorem Hart.reg_field (h : Hart) {n : Nat} {r : Fin 64} (hr : r.val < h.cfg.nreg) :
    fieldAt (h.frame n) (64 + r.val * regBytes h.cfg n) (regBytes h.cfg n) = h.vec[r] % 2 ^ (n * h.cfg.sew) := by
  have hend : r.val * regBytes h.cfg n + regBytes h.cfg n ≤ (h.frameRegs n).length := by
    rw [h.length_frameRegs, ← Nat.succ_mul]
    exact Nat.mul_le_mul_right _ hr
  have hget : (h.vec.toList.take h.cfg.nreg)[r.val]? = some h.vec[r] := by
    rw [List.getElem?_take_of_lt hr]
    simp
  have hfit : n * h.cfg.sew ≤ 8 * regBytes h.cfg n := by
    unfold regBytes ceilDiv
    omega
  rw [h.frame_eq, fieldAt_append_of_length (h.length_frameHead n), fieldAt_append_left hend, Hart.frameRegs,
    ← Nat.add_zero (r.val * regBytes h.cfg n), fieldAt_flatMap (fun _ => length_leBytes _ _) (by omega) _ hget, fieldAt_leBytes]
  exact mod_two_pow_of_le hfit

theorem Hart.mask_field (h : Hart) (n : Nat) (q : Fin 8) :
    fieldAt (h.frame n) (64 + h.cfg.nreg * regBytes h.cfg n + q.val * maskBytes n) (maskBytes n) = h.mask[q] % 2 ^ n := by
  have hend : q.val * maskBytes n + maskBytes n ≤ (h.frameMasks n).length := by
    rw [h.length_frameMasks, ← Nat.succ_mul]
    exact Nat.mul_le_mul_right _ q.isLt
  have hget : h.mask.toList[q.val]? = some h.mask[q] := by simp
  have hfit : n ≤ 8 * maskBytes n := by
    unfold maskBytes ceilDiv
    omega
  rw [h.frame_eq, Nat.add_assoc, fieldAt_append_of_length (h.length_frameHead n), fieldAt_append_of_length (h.length_frameRegs n),
    fieldAt_append_left hend, Hart.frameMasks, ← Nat.add_zero (q.val * maskBytes n),
    fieldAt_flatMap (fun _ => length_leBytes _ _) (by omega) _ hget, fieldAt_leBytes]
  exact mod_two_pow_of_le hfit

/-- Where a tile stands in the frame for n (R93). -/
def Hart.tileAt (h : Hart) (n c : Nat) : Nat := 64 + h.cfg.nreg * regBytes h.cfg n + 8 * maskBytes n + 25408 * c

theorem Hart.length_frame (h : Hart) (n : Nat) : (h.frame n).length = h.frameSize n := by
  rw [h.frame_eq, List.length_append, List.length_append, List.length_append, h.length_frameHead, h.length_frameRegs, h.length_frameMasks,
    length_flatMap_of_width Acc.length_bytes, Hart.frameSize, Hart.acnt]
  omega

theorem Hart.frameSize_eq (h : Hart) (n : Nat) : h.frameSize n = h.tileAt n h.accs.length := by
  unfold Hart.frameSize Hart.tileAt Hart.acnt
  omega

theorem Hart.tile_field (h : Hart) (n : Nat) {c : Nat} {a : Acc} (ha : h.accs[c]? = some a) {o k : Nat} (hk : o + k ≤ 25408) :
    fieldAt (h.frame n) (h.tileAt n c + o) k = fieldAt a.bytes o k := by
  rw [h.frame_eq, Hart.tileAt, Nat.add_assoc, Nat.add_assoc, Nat.add_assoc, fieldAt_append_of_length (h.length_frameHead n),
    fieldAt_append_of_length (h.length_frameRegs n), fieldAt_append_of_length (h.length_frameMasks n), Nat.mul_comm,
    fieldAt_flatMap Acc.length_bytes hk _ ha]

/-- The entries of a tile in the frame, at the places that R93 gives them. -/
theorem Hart.tile_fields (h : Hart) (n : Nat) {c : Nat} {a : Acc} (ha : h.accs[c]? = some a) :
    fieldAt (h.frame n) (h.tileAt n c) 1 = (if a.bf16 then 1 else 0) ∧ fieldAt (h.frame n) (h.tileAt n c + 1) 1 = 0 ∧
    fieldAt (h.frame n) (h.tileAt n c + 2) 2 = a.tag.toNat ∧ fieldAt (h.frame n) (h.tileAt n c + 4) 60 = 0 ∧
    (∀ r k, r < 96 → k < a.cols →
      fieldAt (h.frame n) (h.tileAt n c + 64 + a.width * (r * a.cols + k)) a.width = a.at r k % 2 ^ (8 * a.width)) ∧
    ∀ r, r < 96 → fieldAt (h.frame n) (h.tileAt n c + 24640 + 8 * r) 4 = a.mAt r % 2 ^ 32 ∧
      fieldAt (h.frame n) (h.tileAt n c + 24644 + 8 * r) 4 = a.lAt r % 2 ^ 32 := by
  obtain ⟨hmode, hpad, htag, hzero⟩ := a.head_fields
  refine ⟨?_, ?_, ?_, ?_, fun r k hr hk => ?_, fun r hr => ⟨?_, ?_⟩⟩
  · rw [← Nat.add_zero (h.tileAt n c), h.tile_field n ha (by decide), hmode]
  · rw [h.tile_field n ha (by decide), hpad]
  · rw [h.tile_field n ha (by decide), htag]
  · rw [h.tile_field n ha (by decide), hzero]
  · rw [Nat.add_assoc, h.tile_field n ha (a.entry_fits hr hk), a.body_field hr hk]
  · rw [Nat.add_assoc, h.tile_field n ha (by omega), (a.row_field hr).1]
  · rw [Nat.add_assoc, h.tile_field n ha (by omega), (a.row_field hr).2]

/-! ### VSPILL (R230) -/

/-- The frame of R93 holds every part of the vector state at the place that the rule gives it. -/
def Hart.FrameHolds (h : Hart) (n : Nat) : Prop :=
  let fr := h.frame n
  let at_ := fun (o k : Nat) => leNat ((fr.drop o).take k)
  let rb := (n * h.cfg.sew + 511) / 512 * 64
  let mb := (n + 511) / 512 * 64
  let masks := 64 + h.cfg.nreg * rb
  let tile := fun (c : Nat) => masks + 8 * mb + 25408 * c
  fr.length = h.frameSize n ∧ h.frameSize n = tile h.accs.length ∧
  at_ 0 8 = n + h.cfg.etype.toNat * 2 ^ 20 + h.cfg.nregc.toNat * 2 ^ 24 + h.accs.length * 2 ^ 28 ∧ at_ 8 8 = h.stream.bpos.toNat ∧
  at_ 16 8 = (if h.stream.bound then 64 else 0) + h.stream.cell.toNat ∧ at_ 24 8 = h.aflags.toNat ∧ at_ 32 32 = 0 ∧
  (∀ (r : Fin 64) i, r.val < h.cfg.nreg → i < n → at_ (64 + r.val * rb) rb / 2 ^ (h.cfg.sew * i) % 2 ^ h.cfg.sew = h.elem r i) ∧
  (∀ (q : Fin 8) i, i < n → (at_ (masks + q.val * mb) mb).testBit i = h.maskBit q i) ∧
  ∀ c a, h.accs[c]? = some a → let w := if a.bf16 then 2 else 4
    at_ (tile c) 1 = (if a.bf16 then 1 else 0) ∧ at_ (tile c + 1) 1 = 0 ∧ at_ (tile c + 2) 2 = a.tag.toNat ∧ at_ (tile c + 4) 60 = 0 ∧
    (∀ r k, r < 96 → k < a.cols → at_ (tile c + 64 + w * (r * a.cols + k)) w = a.at r k % 2 ^ (8 * w)) ∧
    ∀ r, r < 96 → at_ (tile c + 24640 + 8 * r) 4 = a.mAt r % 2 ^ 32 ∧ at_ (tile c + 24644 + 8 * r) 4 = a.lAt r % 2 ^ 32

/-- A bit of a number, as the model and as the library read it. -/
theorem testBit_eq_bit (v i : Nat) : v.testBit i = bit v i := by
  rw [Nat.testBit_eq_decide_div_mod_eq, bit, Bool.beq_eq_decide_eq]

/-- An element below n lies within the bits of n elements. -/
theorem elem_end_le {n i sew : Nat} (h : i < n) : sew * i + sew ≤ n * sew := by
  calc sew * i + sew = (i + 1) * sew := by ring
    _ ≤ n * sew := Nat.mul_le_mul_right _ h

theorem Hart.frameHolds (h : Hart) {n : Nat} (ha : h.accs.length ≤ 8) (hn : n ≤ 16384) : h.FrameHolds n := by
  obtain ⟨hcount, hpos, hcell, hflags, hzero⟩ := h.head_fields ha hn
  refine ⟨h.length_frame n, h.frameSize_eq n, hcount, hpos, hcell, hflags, hzero, fun r i hr hi => ?_, fun q i hi => ?_,
    fun c a hc => h.tile_fields n hc⟩
  · change bits (fieldAt (h.frame n) (64 + r.val * regBytes h.cfg n) (regBytes h.cfg n)) (h.cfg.sew * i) h.cfg.sew = _
    rw [h.reg_field hr, bits_mod_of_le (elem_end_le hi), Hart.elem]
  · change (fieldAt (h.frame n) (64 + h.cfg.nreg * regBytes h.cfg n + q.val * maskBytes n) (maskBytes n)).testBit i = _
    rw [h.mask_field, Nat.testBit_mod_two_pow, testBit_eq_bit, decide_eq_true hi, Bool.true_and, Hart.maskBit]

/-- A base and a signed 16-bit offset, as the spec and as the model write the sum (R230). -/
theorem State.frameAddr_eq (s : State) (p : L) : s.frameAddr p = (s.src p.a + p.imm.signExtend 64).toNat := by
  have h : word (signed 16 p.imm.toNat) = p.imm.signExtend 64 := by
    rw [signed_toNat, ← BitVec.ofInt_toInt (x := p.imm.signExtend 64), BitVec.toInt_signExtend_of_le (by decide)]
    apply BitVec.eq_of_toNat_eq
    simp [word, wrap, BitVec.toNat_ofInt]
    omega
  rw [State.frameAddr, addrOf, h]

/-- With no poison a frame holds no poisoned word (R455). -/
theorem State.framePoison_of_clean {s : State} (h : s.clean = true) (n : Nat) : s.framePoison n = [] := by
  have : s.poison = [] := by simpa [State.clean] using h
  simp [State.framePoison, this]

theorem exec_vspill {p : L} {s : State} {ps : List (Phys × Nat)} (he : s.executes = true) (hcfg : s.cur.configured = true)
    (hp : s.clean = true) (hn : (s.gread (gd p.d)).toNat ≤ s.cur.vlmax) (hva : (s.src p.a + p.imm.signExtend 64).toNat % 64 = 0)
    (hps : s.transRangeD s.view (s.src p.a + p.imm.signExtend 64).toNat (s.cur.frameSize (s.gread (gd p.d)).toNat) .store 6 = .ok ps) :
    exec (.vspill p) s = .next ((s.settleRuns true ps).writeRuns true (s.src p.a + p.imm.signExtend 64).toNat ps
      (s.cur.frame (s.gread (gd p.d)).toNat)).completedV := by
  change execVspill p s = _
  have hal : s.frameAddr p % 64 = 0 := s.frameAddr_eq p ▸ hva
  rw [execVspill, runV_of_executes he, checkedAt_of_noCond (by simp [noCond, hcfg, hal, hn])]
  simp only [s.frameAddr_eq, hps, s.framePoison_of_clean hp, State.spoilRuns, List.foldl_nil, retireV_ok]

/-! ### VFILL (R231) -/

/-- Tables built entry by entry from the last on: their keys rise. -/
theorem rising_foldr_store {d : Nat} (f : Nat → Nat) (l : List Nat) : Tbl.rising (l.foldr (fun i t => Tbl.store d i (f i) t) []) = true := by
  induction l with
  | nil => rfl
  | cons i l ih => exact Tbl.rising_store d i (f i) ih

/-- A table built of one entry for each of several keys reads them back. -/
theorem getD_foldr_store {d : Nat} (f : Nat → Nat) {l : List Nat} {k : Nat} (hk : k ∈ l) :
    Tbl.getD (l.foldr (fun i t => Tbl.store d i (f i) t) []) k d = f k := by
  induction l with
  | nil => cases hk
  | cons i l ih =>
    have hr := rising_foldr_store (d := d) f l
    by_cases h : k = i
    · subst h
      exact Tbl.getD_store_self d k (f k) hr
    · exact (Tbl.getD_store_other d (f i) hr h).trans (ih ((List.mem_cons.mp hk).resolve_left h))

theorem Acc.width_pos (a : Acc) : 0 < a.width := by
  unfold Acc.width
  split <;> decide

theorem mem_upto_zero {n k : Nat} (h : k < n) : k ∈ upto 0 n := (mem_upto n).mpr ⟨Nat.zero_le k, by rwa [Nat.zero_add]⟩

/-- A tile read from its bytes has the fields that they hold (R93). -/
theorem accOfBytes_fields (bs : List Byte) : let a := accOfBytes bs
    a.bf16 = (fieldAt bs 0 1).testBit 0 ∧ a.tag.toNat = fieldAt bs 2 2 ∧
    (∀ r k, r < 96 → k < a.cols → a.at r k = fieldAt bs (64 + a.width * (r * a.cols + k)) a.width) ∧
    ∀ r, r < 96 → a.mAt r = fieldAt bs (24640 + 8 * r) 4 ∧ a.lAt r = fieldAt bs (24644 + 8 * r) 4 := by
  intro a
  refine ⟨?_, ?_, fun r k hr hk => ?_, fun r hr => ⟨?_, ?_⟩⟩
  · exact (testBit_eq_bit _ _).symm
  · exact (BitVec.toNat_ofNat _ _).trans (Nat.mod_eq_of_lt (fieldAt_lt bs 2 2))
  · have hlt : r * a.cols + k < 24576 / a.width := by
      have hend := a.entry_end hr hk
      have hw := a.width_pos
      exact (Nat.le_div_iff_mul_le hw).mpr (by rw [Nat.mul_comm, Nat.mul_succ]; exact hend)
    refine (getD_foldr_store (fun i => fieldAt (bs.drop 64) (a.width * i) a.width) (mem_upto_zero hlt)).trans ?_
    exact fieldAt_drop bs 64 _ _
  · refine (getD_foldr_store (fun r => fieldAt (bs.drop (64 + 24576)) (8 * r) 4) (mem_upto_zero hr)).trans ?_
    exact fieldAt_drop bs 24640 _ _
  · refine (getD_foldr_store (fun r => fieldAt (bs.drop (64 + 24576)) (8 * r + 4) 4) (mem_upto_zero hr)).trans ?_
    rw [fieldAt_drop]
    congr 1
    omega

section
variable {p : L} {s : State}

/-- Waiting for posted stores leaves the acting hart alone but for its reservation (R158, R211). -/
theorem keepsHart_settleRuns (ps : List (Phys × Nat)) (vec : Bool) (s : State) : KeepsHart s (s.settleRuns vec ps) := by
  refine keepsHart_foldl _ (fun t q => ?_) ps s
  unfold State.settleFor State.settleOn
  split
  · split
    · exact keepsHart_drain t _
    · exact .of_cur rfl
  · exact keepsHart_settle t

/-- The state in which VFILL has loaded a frame's bytes for n, before it completes (R231, R455). -/
def State.filled (s : State) (p : L) (qs : List (Phys × Nat)) (n : Nat) (bs : List Byte) : State :=
  let t := countReads ((s.settleRuns true qs).coverSr [0x000, 0x006, 0x007]) (runReqs qs)
  let clean := t.poison.filter (fun w => match w with
    | .vec h _ _ => !decide (h = s.cur.id)
    | .mask h _ _ => !decide (h = s.cur.id)
    | .acc h _ _ => !decide (h = s.cur.id)
    | _ => true)
  ({ t with cur := t.cur.fill n bs, poison := clean } : State).setG (gd p.d) (BitVec.ofNat 64 n)

/-- The hart that VFILL leaves: its own, filled, with gn written. -/
theorem State.filled_cur (s : State) (p : L) (qs : List (Phys × Nat)) (n : Nat) (bs : List Byte) :
    ∃ r, (s.filled p qs n bs).cur = (({ s.cur with resv := r } : Hart).fill n bs).setG (gd p.d) (BitVec.ofNat 64 n) := by
  obtain ⟨r, hr⟩ := keepsHart_settleRuns qs true s
  refine ⟨r, ?_⟩
  have ht : (countReads ((s.settleRuns true qs).coverSr [0x000, 0x006, 0x007]) (runReqs qs)).cur = { s.cur with resv := r } :=
    ((memStep_countReads _ _).cur.trans (State.coverSr_cur _ _)).trans hr
  exact congrArg (fun h : Hart => (h.fill n bs).setG (gd p.d) (BitVec.ofNat 64 n)) ht

/-- VFILL of a frame whose header agrees with the hart completes. -/
theorem exec_vfill {ps qs : List (Phys × Nat)} {hd bs : List Byte} {n : Nat} (he : s.executes = true) (hcfg : s.cur.configured = true)
    (hva : (s.src p.a + p.imm.signExtend 64).toNat % 64 = 0)
    (hps : s.transRangeD s.view (s.src p.a + p.imm.signExtend 64).toNat 64 .load 6 = .ok ps)
    (hhd : (s.settleRuns true ps).readRuns false ps = .ok hd) (hn : leNat (hd.take 8) % 2 ^ 18 = n)
    (het : leNat (hd.take 8) / 2 ^ 20 % 16 = s.cur.cfg.etype.toNat) (hnr : leNat (hd.take 8) / 2 ^ 24 % 4 = s.cur.cfg.nregc.toNat)
    (hac : leNat (hd.take 8) / 2 ^ 28 % 16 = s.cur.accs.length) (hmax : n ≤ s.cur.vlmax)
    (hqs : s.transRangeD s.view (s.src p.a + p.imm.signExtend 64).toNat (s.cur.frameSize n) .load 6 = .ok qs)
    (hbs : (s.settleRuns true qs).readRuns false qs = .ok bs) :
    exec (.vfill p) s = .next (s.filled p qs n bs).completedV := by
  change execVfill p s = _
  have hal : s.frameAddr p % 64 = 0 := s.frameAddr_eq p ▸ hva
  have h18 : bits (leNat (hd.take 8)) 0 18 = n := by rw [← hn, bits, Nat.pow_zero, Nat.div_one]
  have h20 : bits (leNat (hd.take 8)) 20 4 = s.cur.cfg.etype.toNat := het
  have h24 : bits (leNat (hd.take 8)) 24 2 = s.cur.cfg.nregc.toNat := hnr
  have h28 : bits (leNat (hd.take 8)) 28 4 = s.cur.acnt := hac
  rw [execVfill, runV_of_executes he, checkedAt_of_noCond (by simp [noCond, hcfg, hal])]
  simp only [s.frameAddr_eq, hps, hhd, h18, h20, h24, h28, hqs, hbs, Nat.not_lt.mpr hmax, ne_eq, not_true_eq_false, decide_false,
    Bool.or_false, Bool.false_eq_true, if_false]
  rfl

end

/-- The elements and mask bits below n of a filled hart are the frame's, the others zero (R231). -/
theorem Hart.fill_elem (h : Hart) {n : Nat} (bs : List Byte) {r : Fin 64} {i : Nat} (hi : i < n) (hr : r.val < h.cfg.nreg) :
    (h.fill n bs).elem r i =
      bits (fieldAt bs (64 + r.val * regBytes h.cfg n) (regBytes h.cfg n)) (h.cfg.sew * i) h.cfg.sew := by
  rw [← bits_mod_of_le (elem_end_le hi)]
  simp [Hart.elem, Hart.fill, VCfg.sew, hr, fieldAt]

theorem Hart.fill_elem_beyond (h : Hart) {n : Nat} (bs : List Byte) (r : Fin 64) {i : Nat} (hi : n ≤ i) : (h.fill n bs).elem r i = 0 := by
  have hle : n * h.cfg.sew ≤ h.cfg.sew * i := by
    rw [Nat.mul_comm n]
    exact Nat.mul_le_mul_left _ hi
  change bits (Vector.ofFn _)[r.val] (h.cfg.sew * i) h.cfg.sew = 0
  rw [Vector.getElem_ofFn]
  split
  · exact bits_mod_of_ge hle
  · simp [bits]

theorem Hart.fill_maskBit (h : Hart) {n : Nat} (bs : List Byte) (q : Fin 8) (i : Nat) : (h.fill n bs).maskBit q i =
    (decide (i < n) && (fieldAt bs (64 + h.cfg.nreg * regBytes h.cfg n + q.val * maskBytes n) (maskBytes n)).testBit i) := by
  rw [← Nat.testBit_mod_two_pow, testBit_eq_bit]
  simp [Hart.maskBit, Hart.fill, fieldAt]

theorem Hart.fill_acc (h : Hart) (n : Nat) (bs : List Byte) {c : Nat} (hc : c < h.accs.length) :
    (h.fill n bs).accs.getD c Acc.fresh = accOfBytes (bs.drop (h.tileAt n c)) := by
  have hget : (h.fill n bs).accs[c]? = some (accOfBytes (bs.drop (64 + h.cfg.nreg * regBytes h.cfg n + 8 * maskBytes n + c * 25408))) := by
    change ((upto 0 h.acnt).map _)[c]? = _
    rw [List.getElem?_map, Hart.acnt, getElem?_upto_zero hc]
    rfl
  rw [List.getD_eq_getElem?_getD, hget, Hart.tileAt, Nat.mul_comm 25408]
  rfl

theorem Hart.length_fill_accs (h : Hart) (n : Nat) (bs : List Byte) : (h.fill n bs).accs.length = h.accs.length := by
  simp [Hart.fill, Hart.acnt]

/-- What VFILL leaves of the acting hart: all that a frame gives or the instruction keeps, but for gn (R231). -/
theorem State.filled_cur_fields (s : State) (p : L) (qs : List (Phys × Nat)) (n : Nat) (bs : List Byte) :
    let h := (s.filled p qs n bs).cur
    let k := s.cur.fill n bs
    h.active = k.active ∧ h.pc = k.pc ∧ h.npc = k.npc ∧ h.vq = k.vq ∧ h.cfg = k.cfg ∧ h.vec = k.vec ∧ h.mask = k.mask ∧ h.accs = k.accs ∧
      h.aflags = k.aflags ∧ h.stream = k.stream ∧ h.g = (k.setG (gd p.d) (BitVec.ofNat 64 n)).g := by
  obtain ⟨r, hr⟩ := s.filled_cur p qs n bs
  simp only [hr]
  refine ⟨?_, ?_, ?_, ?_, ?_, ?_, ?_, ?_, ?_, ?_, ?_⟩
  case refine_11 =>
    unfold Hart.setG
    split <;> rfl
  all_goals simp [Hart.fill, Hart.acnt]

section
variable (s : State) (p : L) (qs : List (Phys × Nat)) (n : Nat) (bs : List Byte)

theorem State.filled_finishes : finishes s (s.filled p qs n bs).completedV := by
  obtain ⟨hactive, hpc, hnpc, hvq, -⟩ := s.filled_cur_fields p qs n bs
  exact finishes_completedV (congrArg Option.isSome hactive) hpc hnpc hvq

theorem State.filled_elem (r : Fin 64) (i : Nat) : (s.filled p qs n bs).completedV.cur.elem r i = (s.cur.fill n bs).elem r i := by
  obtain ⟨-, -, -, -, hcfg, hvec, -⟩ := s.filled_cur_fields p qs n bs
  exact Hart.elem_congr (by rw [State.completedV_cur_vec, hvec]) (by rw [State.completedV_cur_cfg, hcfg]) r i

theorem State.filled_maskBit (q : Fin 8) (i : Nat) : (s.filled p qs n bs).completedV.cur.maskBit q i = (s.cur.fill n bs).maskBit q i := by
  obtain ⟨-, -, -, -, -, -, hmask, -⟩ := s.filled_cur_fields p qs n bs
  rw [Hart.maskBit, State.completedV_cur_mask, hmask, Hart.maskBit]

theorem State.filled_greg (r : Fin 32) : (s.filled p qs n bs).completedV.cur.greg r = (s.cur.setG (gd p.d) (BitVec.ofNat 64 n)).greg r := by
  obtain ⟨-, -, -, -, -, -, -, -, -, -, hg⟩ := s.filled_cur_fields p qs n bs
  rw [Hart.greg_congr (State.completedV_cur_g _), Hart.greg_congr hg]
  unfold Hart.setG
  split <;> rfl

/-- The tiles are those of the frame's bytes (R93). -/
theorem State.filled_tile {c : Nat} (hc : c < s.cur.accs.length) :
    let bytes := bs.drop (s.cur.tileAt n c)
    let a := (s.filled p qs n bs).completedV.acc c
    a.bf16 = (fieldAt bytes 0 1).testBit 0 ∧ a.tag.toNat = fieldAt bytes 2 2 ∧
    (∀ r k, r < 96 → k < a.cols → a.at r k = fieldAt bytes (64 + a.width * (r * a.cols + k)) a.width) ∧
    ∀ r, r < 96 → a.mAt r = fieldAt bytes (24640 + 8 * r) 4 ∧ a.lAt r = fieldAt bytes (24644 + 8 * r) 4 := by
  obtain ⟨-, -, -, -, -, -, -, haccs, -⟩ := s.filled_cur_fields p qs n bs
  have hacc : (s.filled p qs n bs).completedV.acc c = accOfBytes (bs.drop (s.cur.tileAt n c)) := by
    rw [State.acc, State.completedV_cur_accs, haccs, Hart.fill_acc _ _ _ hc]
  rw [hacc]
  exact accOfBytes_fields _

end

/-- Settles O33: VSPILL writes the frame, whose fields are where R93 puts them, and VFILL reads them back from there. -/
theorem spillAndFillResults : Obligations.SpillAndFillResults := by
  refine ⟨fun p s ps he hcfg hp hn hva hps => exec_vspill he hcfg hp hn hva hps, fun h n ha hn => h.frameHolds ha hn, ?_⟩
  intro p s ps qs hd bs va w w0 n rb he hcfg hva hps hhd het hnr hac hmax hqs hbs
  obtain ⟨-, -, -, -, hcfg', -, -, haccs, hflags, hstream, -⟩ := s.filled_cur_fields p qs n bs
  refine ⟨_, exec_vfill he hcfg hva hps hhd rfl het hnr hac hmax hqs hbs, s.filled_finishes p qs n bs, ?_, fun k hk => ?_, fun hd => ?_,
    ?_, ?_, ?_, fun q i hi hq => ?_, fun q i hi => ?_, fun q i hi => ?_, fun q i hi => ?_, fun c hc => ?_⟩
  · rw [State.completedV_cur_cfg, hcfg', Hart.fill]
  · rw [s.filled_greg, Hart.greg_setG_other _ _ _ _ hk]
  · rw [s.filled_greg, Hart.greg_setG_self _ _ _ hd]
  · rw [State.completedV_cur_aflags, hflags, Hart.fill]
  · rw [State.completedV_cur_stream, hstream, testBit_eq_bit, Hart.fill]
  · rw [State.completedV_cur_accs, haccs, Hart.length_fill_accs]
  · rw [s.filled_elem, Hart.fill_elem _ _ hi hq]
    rfl
  · rw [s.filled_maskBit, Hart.fill_maskBit, decide_eq_true hi, Bool.true_and]
    rfl
  · rw [s.filled_elem, Hart.fill_elem_beyond _ _ _ hi]
  · rw [s.filled_maskBit, Hart.fill_maskBit, decide_eq_false (Nat.not_lt.mpr hi), Bool.false_and]
  · intro tile at_
    have hat : at_ = fieldAt (bs.drop (s.cur.tileAt n c)) := funext fun o => funext fun k => (fieldAt_drop bs _ o k).symm
    rw [hat]
    exact s.filled_tile p qs n bs hc

end Sys2Proof.Machine
end

section
/-! PROOFS. What every part of a step keeps of the general registers and of the accumulator tables: the operations on the state (R62, R75). -/

namespace Sys2Proof.Machine

/-! ### The relation -/

/-- The accumulator tables of a hart are in form. -/
def Hart.inForm (h : Hart) : Prop := ∀ a ∈ h.accs, a.ok

/-- From `h` to `k` a hart keeps its general registers, and its accumulator tables in form. -/
def Hart.Kept (h k : Hart) : Prop := k.g = h.g ∧ (h.inForm → k.inForm)

/-- From `r` to `s` the machine keeps its accumulator tables in form, those of the harts and those of the saved frames, and under `G` the
general registers of the acting hart. -/
def Keeps (G : Prop) (r s : State) : Prop := (G → s.cur.g = r.cur.g) ∧ (r.tilesInForm → s.tilesInForm)

theorem Hart.Kept.of_eq {h k : Hart} (hg : k.g = h.g) (ha : k.accs = h.accs) : h.Kept k :=
  ⟨hg, fun w => by rwa [Hart.inForm, ha]⟩

theorem Hart.Kept.refl (h : Hart) : h.Kept h := ⟨rfl, fun w => w⟩

theorem Hart.Kept.trans {h k l : Hart} (a : h.Kept k) (b : k.Kept l) : h.Kept l := ⟨b.1.trans a.1, fun w => b.2 (a.2 w)⟩

variable {G : Prop} {r s t : State}

theorem Keeps.refl (G : Prop) (s : State) : Keeps G s s := ⟨fun _ => rfl, id⟩

theorem Keeps.trans {u : State} (h : Keeps G r s) (k : Keeps G s u) : Keeps G r u := ⟨fun w => (k.1 w).trans (h.1 w), fun w => k.2 (h.2 w)⟩

/-- An operation that leaves the other harts and the frames needs to be looked at for the acting hart alone. -/
theorem Keeps.acting (h : Keeps G r s) (hc : s.cur.Kept t.cur) (hh : t.harts = s.harts) (hf : t.frames = s.frames) : Keeps G r t :=
  ⟨fun w => hc.1.trans (h.1 w), fun w => by
    obtain ⟨wc, wh, wf⟩ := h.2 w
    exact ⟨hc.2 wc, by rwa [hh], by rwa [hf]⟩⟩

/-- The acting hart replaced. -/
theorem Keeps.cur (h : Keeps G r s) {x : Hart} (hx : s.cur.Kept x) : Keeps G r { s with cur := x } := h.acting hx rfl rfl

/-- An operation that leaves every hart and the frames. -/
theorem Keeps.same (h : Keeps G r s) (hc : t.cur = s.cur) (hh : t.harts = s.harts) (hf : t.frames = s.frames) : Keeps G r t :=
  h.acting (hc ▸ Hart.Kept.refl _) hh hf

theorem Keeps.mem (h : Keeps G r s) (m : MemStep s t) : Keeps G r t := h.same m.cur m.harts m.frames

theorem Keeps.foldl {β : Type} {f : State → β → State} (hf : ∀ (s : State) b, Keeps G r s → Keeps G r (f s b)) (l : List β) :
    ∀ {s : State}, Keeps G r s → Keeps G r (l.foldl f s) := by
  induction l with
  | nil => exact id
  | cons b l ih => exact fun h => ih (hf _ b h)

/-- Every hart changed in the same way. -/
theorem Keeps.everyHart (h : Keeps G r s) {f : Hart → Hart} (hf : ∀ x : Hart, x.Kept (f x)) :
    Keeps G r { s with cur := f s.cur, harts := s.harts.map f } :=
  ⟨fun w => (hf _).1.trans (h.1 w), fun w => by
    obtain ⟨wc, wh, wf⟩ := h.2 w
    exact ⟨(hf _).2 wc, fun x hx => by
      obtain ⟨y, hy, rfl⟩ := List.mem_map.mp hx
      exact (hf y).2 (wh y hy), wf⟩⟩

theorem Keeps.onHarts (h : Keeps G r s) (p : Hart → Bool) {f : Hart → Hart} (hf : ∀ x : Hart, x.Kept (f x)) : Keeps G r (s.onHarts p f) :=
  h.everyHart (f := fun x => if p x then f x else x) (fun x => by
    split
    · exact hf x
    · exact .refl x)

theorem Keeps.onHart (h : Keeps G r s) (i : HartId) {f : Hart → Hart} (hf : ∀ x : Hart, x.Kept (f x)) : Keeps G r (s.onHart i f) :=
  h.onHarts _ hf

/-! ### Operations on one hart -/

theorem Hart.kept_setG (h : Hart) (d : Fin 32) (v : Word) (hd : d = 0) : h.Kept (h.setG d v) := by rw [Hart.setG, if_pos hd]; exact .refl h

theorem Hart.kept_breakResv (h : Hart) (a n : Nat) : h.Kept (h.breakResv a n) := by
  unfold Hart.breakResv
  split
  · split
    · exact .of_eq rfl rfl
    · exact .refl h
  · exact .refl h

theorem Hart.kept_withdraw (h : Hart) : h.Kept h.withdraw := by
  unfold Hart.withdraw
  split
  · split
    · exact .of_eq rfl rfl
    · split
      · exact .refl h
      · exact .of_eq rfl rfl
    · exact .refl h
  · exact .refl h

theorem Hart.kept_saveInPlace (h : Hart) : h.Kept h.saveInPlace := h.kept_withdraw.trans (.of_eq rfl rfl)

theorem Hart.kept_await (h : Hart) (t : Trap) : h.Kept (h.await t) :=
  .trans ((.of_eq rfl rfl) : h.Kept (h.record t)) ((h.record t).kept_saveInPlace.trans (.of_eq rfl rfl))

theorem Hart.kept_finish (h : Hart) : h.Kept h.finish := ⟨rfl, fun _ => List.forall_mem_nil _⟩

theorem Hart.kept_forced (h : Hart) : h.Kept h.forced := h.kept_saveInPlace.trans (.of_eq rfl rfl)

theorem Hart.kept_writeElems (h : Hart) (d : Fin 64) (els : List (Nat × Nat)) : h.Kept (writeElems h d els) := by
  obtain ⟨v, hv⟩ := writeElems_frame d els h
  rw [hv]
  exact .of_eq rfl rfl

/-! ### Operations on the state that leave the harts -/

theorem Keeps.onMod (h : Keeps G r s) (m : Nat) (f : Module → Module) : Keeps G r (s.onMod m f) := h.same (by simp) (by simp) (by simp)
theorem Keeps.onLaunch (h : Keeps G r s) (l : Nat) (f : Launch → Launch) : Keeps G r (s.onLaunch l f) := h.same (by simp) (by simp) (by simp)
theorem Keeps.onShare (h : Keeps G r s) (l k : Nat) (f : Share → Share) : Keeps G r (s.onShare l k f) := h.same (by simp) (by simp) (by simp)
theorem Keeps.heard (h : Keeps G r s) (m k : Nat) : Keeps G r (s.heard m k) := h.onMod m _
theorem Keeps.coverSr (h : Keeps G r s) (ns : List Nat) : Keeps G r (s.coverSr ns) := h.same (by simp) (by simp) (by simp)
theorem Keeps.dropMsg (h : Keeps G r s) (n : Nat) : Keeps G r (s.dropMsg n) := h.same (by simp) (by simp) (by simp)
theorem Keeps.ticked (h : Keeps G r s) : Keeps G r s.ticked := by
  obtain ⟨u, hu, ht⟩ := s.ticked_eq
  exact h.same (by simp) (by simp) (by rw [ht]; exact hu.frames)

theorem Keeps.fillTlb (h : Keeps G r s) (v : View) (va : Nat) : Keeps G r (s.fillTlb v va) := by
  have hread : ∀ (s : State) (c : Spot × Nat × Nat), Keeps G r s → Keeps G r (s.walkRead v c.1) := fun s c h => by
    unfold State.walkRead
    split
    · exact h.mem (memStep_fillFar _ _)
    · split
      · exact h.mem (memStep_fillCopy _ _)
      · exact h
  have hput : ∀ (u : State) (e : TlbEntry), Keeps G r u → Keeps G r (u.putTlb e) := fun _ _ hu => hu
  unfold State.fillTlb
  split
  · exact h
  · have hpath := h.foldl hread (walkPath s v va 5 (bits v.atp.toNat 0 40))
    simp only
    split
    · exact hpath
    · split
      · exact hpath
      · refine .foldl (fun u c hu => ?_) _ (hpath.foldl (fun u q hu => hput u _ hu) _)
        exact hu.foldl (fun u q hu => hput u _ hu) _

/-! ### Posted stores -/

theorem Keeps.breakResvs (h : Keeps G r s) (a n : Nat) : Keeps G r (breakResvs s a n) := h.everyHart fun x => x.kept_breakResv a n

theorem Keeps.storeFar (h : Keeps G r s) (a : Nat) (bs : List Byte) (n : Nat) : Keeps G r (storeFar s a bs n) :=
  (h.breakResvs a bs.length).mem (memStep_storeFar s a bs n)

theorem Keeps.storeNear (h : Keeps G r s) (a : Nat) (bs : List Byte) : Keeps G r (storeNear s a bs) :=
  (h.breakResvs a bs.length).mem (memStep_storeNear s a bs)

theorem Keeps.writeL1 {m c a : Nat} (put : State → State) (h : Keeps G r (put s)) : Keeps G r (s.writeL1 m c a put) := by
  unfold State.writeL1
  simp only
  split <;> exact h

theorem Keeps.putFor {i : HartId} {near : Bool} {a : Nat} (put : State → State) (h : Keeps G r (put s)) : Keeps G r (s.putFor i near a put) := by
  unfold State.putFor
  split
  · exact .writeL1 put h
  · exact h

theorem Keeps.countPage (h : Keeps G r s) (src a : Nat) : Keeps G r (countPage s src a) := by
  unfold Machine.countPage
  split
  · exact h
  · exact h.onMod _ _

theorem Keeps.performStore (h : Keeps G r s) (src : Nat) (m : Msg) : Keeps G r (performStore s src m) := by
  unfold Machine.performStore
  split
  · rename_i i va vec far d readers a bs
    have hput : Keeps G r (if far then Machine.storeFar s a bs readers else Machine.storeNear s a bs) := by
      split
      · exact h.storeFar a bs readers
      · exact h.storeNear a bs
    have hat := Keeps.putFor (i := i) (near := !vec && !far && decide (src = a / 2 ^ 52)) (a := a)
      (fun u => if far then Machine.storeFar u a bs readers else Machine.storeNear u a bs) hput
    simp only
    split
    · exact hat.countPage _ _
    · exact (hat.countPage _ _).heard _ _
  · exact h

theorem Keeps.drain (h : Keeps G r s) (mine : Msg → Bool) : Keeps G r (s.drain mine) :=
  Keeps.foldl (s := { s with fabric := _ }) (fun _ x hu => hu.performStore _ x) _ h

theorem Keeps.settle (h : Keeps G r s) : Keeps G r s.settle := by
  unfold State.settle
  split
  · exact h.drain _
  · exact h

theorem Keeps.settleOn (h : Keeps G r s) (vec : Bool) : Keeps G r (s.settleOn vec) := by
  unfold State.settleOn
  split
  · exact h.drain _
  · exact h

theorem Keeps.settleFor (h : Keeps G r s) (vec : Bool) (p : Phys) : Keeps G r (s.settleFor vec p) := by
  unfold State.settleFor
  split
  · exact h.settleOn vec
  · exact h.settle

theorem Keeps.settleRuns (h : Keeps G r s) (vec : Bool) (ps : List (Phys × Nat)) : Keeps G r (s.settleRuns vec ps) :=
  h.foldl (fun _ q hu => hu.settleFor vec q.1) ps

theorem Keeps.acknowledged (h : Keeps G r s) : Keeps G r s.acknowledged := h.settle.cur (.of_eq rfl rfl)

theorem Keeps.putPhys (h : Keeps G r s) (p : Phys) (bs : List Byte) (n : Nat) : Keeps G r (s.putPhys p bs n) := by
  unfold State.putPhys
  split
  · exact h.storeFar _ _ _
  · exact h.storeNear _ _

theorem Keeps.putScalar (h : Keeps G r s) (p : Phys) (bs : List Byte) : Keeps G r (s.putScalar p bs) := by
  unfold State.putScalar
  split
  · exact .writeL1 (fun t => t.putPhys p bs 0) (h.putPhys p bs 0)
  · exact h.putPhys p bs 0

theorem Keeps.writePhys (h : Keeps G r s) (vec : Bool) (va : Word) (p : Phys) (bs : List Byte) (n : Nat) : Keeps G r (s.writePhys vec va p bs n) := by
  unfold State.writePhys
  split
  · exact h.cur (.of_eq rfl rfl)
  · split
    · exact h
    · split
      · exact h.putPhys p bs n
      · exact h.putScalar p bs

theorem Keeps.writeRuns (vec : Bool) (ps : List (Phys × Nat)) :
    ∀ {s : State} (va : Nat) (bs : List Byte), Keeps G r s → Keeps G r (s.writeRuns vec va ps bs) := by
  induction ps with
  | nil => exact fun _ _ h => h
  | cons q ps ih => exact fun _ _ h => ih _ _ (h.writePhys vec _ _ _ _)

theorem Keeps.spoilRuns (h : Keeps G r s) (ps : List (Phys × Nat)) (offs : List Nat) : Keeps G r (s.spoilRuns ps offs) :=
  h.foldl (fun _ _ hu => hu.settle.mem (memStep_spoil _ _ _)) offs

theorem Keeps.countReads (h : Keeps G r s) (reqs : List Nat) : Keeps G r (countReads s reqs) := h.mem (memStep_countReads s reqs)
theorem Keeps.countFarReads (h : Keeps G r s) (reqs : List Nat) : Keeps G r (countFarReads s reqs) := h.mem (memStep_countFarReads s reqs)
theorem Keeps.scalarReadDone (h : Keeps G r s) (p : Phys) : Keeps G r (s.scalarReadDone p) := h.mem (memStep_scalarReadDone s p)
theorem Keeps.writeBack (h : Keeps G r s) (mine : Nat → Bool) : Keeps G r (writeBack s mine) := h.mem (memStep_writeBack s mine)
theorem Keeps.fillCopy (h : Keeps G r s) (line : Nat) : Keeps G r (fillCopy s line) := h.mem (memStep_fillCopy s line)
theorem Keeps.spoil (h : Keeps G r s) (far : Bool) (w : Nat) : Keeps G r (s.spoil far w) := h.mem (memStep_spoil s far w)

/-! ### Error records, the end of a launch and traps -/

theorem Keeps.raiseMsix (h : Keeps G r s) (m v : Nat) : Keeps G r (raiseMsix s m v) := h.onMod m _

theorem Keeps.putErr (h : Keeps G r s) (m q : Nat) (e : ErrRec) : Keeps G r (putErr s m q e) := by
  unfold Machine.putErr
  split
  · exact h
  · split
    · exact (h.onMod _ _).raiseMsix _ _
    · simp only
      split
      · exact (h.onMod _ _).raiseMsix _ _
      · exact h.onMod _ _

theorem Keeps.writeErr (h : Keeps G r s) (m q : Nat) (e : ErrRec) : Keeps G r (writeErr s m q e) := by
  unfold Machine.writeErr
  split
  · exact h
  · simp only
    split <;> split
    · exact h.onMod _ _
    · exact h.putErr _ _ _
    · exact h.onMod _ _
    · exact h.putErr _ _ _

theorem Keeps.reportRec (h : Keeps G r s) (l m : Nat) (e : ErrRec) : Keeps G r (reportRec s l m e) := by
  unfold Machine.reportRec
  split
  · exact h
  · split
    · exact h.writeErr _ _ _
    · split
      · exact h.writeErr _ _ _
      · exact h

theorem Keeps.reportErr (h : Keeps G r s) (x : Hart) : Keeps G r (reportErr s x) := by
  unfold Machine.reportErr
  split
  · exact h
  · exact h.reportRec _ _ _

theorem Keeps.firmwareRoute (h : Keeps G r s) (t : Trap) : Keeps G r (firmwareRoute s t) := by
  have hleft : s.cur.Kept (s.markLeft s.cur) := .of_eq rfl rfl
  have hcur : s.cur.Kept ((s.markLeft s.cur).await t).refaulted := (hleft.trans (Hart.kept_await _ t)).trans (.of_eq rfl rfl)
  exact Keeps.reportErr (h.acting (t := { s.coverSr _ with cur := _ }) hcur (by simp) (by simp)) _

theorem Keeps.discardLaunch (h : Keeps G r s) (l : Nat) (ranks : List Nat) (out : Nat → Bool) : Keeps G r (discardLaunch s l ranks out) := h

theorem Keeps.endRanks (h : Keeps G r s) (l : Nat) (x : Launch) (out : Nat → Bool) : Keeps G r (s.endRanks l x out) :=
  ((h.onLaunch l _).onHarts _ Hart.kept_finish).discardLaunch _ _ _

theorem Keeps.abortLaunch (h : Keeps G r s) (m l status detail rank : Nat) : Keeps G r (abortLaunch s m l status detail rank) := by
  unfold Machine.abortLaunch
  split
  · exact h
  · split
    · exact h
    · exact (h.onLaunch l _).endRanks _ _ _

theorem Keeps.takeTrap (h : Keeps G r s) (t : Trap) : Keeps G r (takeTrap s t) := by
  unfold Machine.takeTrap
  split
  · exact (h.firmwareRoute _).abortLaunch _ _ _ _ _
  · split
    · exact h.acting (.of_eq rfl rfl) (by simp) (by simp)
    · split
      · exact (h.firmwareRoute t).abortLaunch _ _ _ _ _
      · exact h.firmwareRoute t

theorem Keeps.noteEnd (h : Keeps G r s) : Keeps G r s.noteEnd := by
  unfold State.noteEnd
  simp only
  split
  · exact h.onLaunch _ _
  · exact h

theorem Keeps.endHart (h : Keeps G r s) : Keeps G r (endHart s) := (h.settle.cur (Hart.kept_finish _)).noteEnd

/-! ### Registers of the acting hart -/

theorem Keeps.setG (h : Keeps G r s) {d : Fin 32} (hd : G → d = 0) (v : Word) : Keeps G r (s.setG d v) :=
  ⟨fun w => (s.cur.kept_setG d v (hd w)).1.trans (h.1 w), fun w => by
    obtain ⟨wc, wh, wf⟩ := h.2 w
    exact ⟨by rwa [State.setG_cur, Hart.setG_accs], wh, wf⟩⟩

theorem Keeps.raise (h : Keeps G r s) (f : Flags) : Keeps G r (s.raise f) := h.cur (.of_eq rfl rfl)

theorem Keeps.draw (h : Keeps G r s) : Keeps G r s.draw := h

theorem Keeps.writeVec (h : Keeps G r s) (d : Fin 64) (els : List (Nat × Nat)) : Keeps G r (s.writeVec d els) := by
  obtain ⟨p, hp⟩ := s.writeVec_frame d els
  rw [hp]
  exact h.cur (s.cur.kept_writeElems d els)

theorem Keeps.setAcc (h : Keeps G r s) (c : Nat) {a : Acc} (ha : r.tilesInForm → a.ok) : Keeps G r (s.setAcc c a) :=
  ⟨h.1, fun w => ⟨fun b hb => (List.mem_or_eq_of_mem_set hb).elim ((h.2 w).1 b) fun e => e ▸ ha w, (h.2 w).2⟩⟩

end Sys2Proof.Machine
end

section
/-! PROOFS. What results of instructions keep: the scalar stream and the near vector instructions (R62, R75). -/

namespace Sys2Proof.Machine

variable {G : Prop} {r s t : State}

/-! ### Results and outcomes -/

/-- Whatever a body gives, its state keeps what `Keeps` follows. -/
def Res.Keep (G : Prop) (r : State) : Res → Prop
  | .ok s | .trap _ s | .wait _ s | .held _ _ s | .stall s => Keeps G r s

/-- A next state, if there is one, keeps what `Keeps` follows. -/
def KeepsNext (G : Prop) (r : State) (o : Host.Outcome State Fault Refusal) : Prop := ∀ t, o = .next t → Keeps G r t

theorem Keeps.next (h : Keeps G r t) : KeepsNext G r (.next t) := fun _ e => by cases e; exact h

theorem Keeps.ok (h : Keeps G r s) : (Res.ok s).Keep G r := h
theorem Keeps.trapped (h : Keeps G r s) (x : Trap) : (Res.trap x s).Keep G r := h
theorem Keeps.precise (h : Keeps G r s) (c k : Nat) (v : Word) : (precise c k v s).Keep G r := h
theorem Keeps.imprecise (h : Keeps G r s) (c k va : Nat) : (imprecise c k va s).Keep G r := h

theorem Keeps.stop (h : Keeps G r s) (e : Stop) (imp : Bool) : (e.res imp s).Keep G r := by
  cases e with
  | trap c v => exact h
  | hold w va => exact h

theorem Keeps.afterStores (h : Keeps G r s) {body : State → Res} (hb : (body s.settle).Keep G r) : (s.afterStores body).Keep G r := by
  unfold State.afterStores
  split
  · exact h
  · exact hb

theorem Keeps.afterQueue (h : Keeps G r s) {x : Res} (hx : x.Keep G r) : (afterQueue s x).Keep G r := by
  unfold Machine.afterQueue
  split
  · exact hx
  · exact h

theorem Res.Keep.onStop {x : Res} (hx : x.Keep G r) {f : State → State} (hf : ∀ s, Keeps G r s → Keeps G r (f s)) : (x.onStop f).Keep G r := by
  cases x with
  | trap t s => exact hf s hx
  | held w va s => exact hf s hx
  | ok s => exact hx
  | wait on s => exact hx
  | stall s => exact hx

theorem Keeps.checkedAt (h : Keeps G r s) {va : Nat} {conds : List (Bool × Nat × Nat)} {body : State → Res} (hb : (body s).Keep G r) :
    (checkedAt va conds body s).Keep G r := by
  unfold Machine.checkedAt
  split
  · exact h
  · exact hb

theorem Keeps.checked (h : Keeps G r s) {conds : List (Bool × Nat × Nat)} {body : State → Res} (hb : (body s).Keep G r) :
    (checked conds body s).Keep G r := h.checkedAt hb

theorem Keeps.setD (h : Keeps G r s) {d : BitVec 6} (hd : G → gd d = 0) (v : Word) : (s.setD d v).Keep G r := h.setG hd v

theorem Keeps.jumpTo (h : Keeps G r s) (target : Word) : (jumpTo s target).Keep G r := by
  unfold Machine.jumpTo
  split
  · refine h.afterQueue ?_
    split
    · exact h
    · exact h.afterStores h.settle.endHart
  · split
    · exact h
    · exact h

theorem Hart.kept_ite {h a b : Hart} {c : Prop} [Decidable c] (ha : h.Kept a) (hb : h.Kept b) : h.Kept (if c then a else b) := by
  split
  · exact ha
  · exact hb

theorem Keeps.ite {a b : State} {c : Prop} [Decidable c] (ha : Keeps G r a) (hb : Keeps G r b) : Keeps G r (if c then a else b) := by
  split
  · exact ha
  · exact hb

theorem Res.Keep.ite {a b : Res} {c : Prop} [Decidable c] (ha : a.Keep G r) (hb : b.Keep G r) : (if c then a else b).Keep G r := by
  split
  · exact ha
  · exact hb

/-- A hart that is held (R442, R475). -/
theorem Keeps.holding (h : Keeps G r s) {x : Hart} (hx : s.cur.Kept x) (w : Holder) (va : Word) (vec : Bool) (n : Nat) :
    Keeps G r { s with cur := x.hold w va vec n } := h.cur (hx.trans (.of_eq rfl rfl))

theorem Keeps.waits (h : Keeps G r s) (on : Word) : Keeps G r (s.waits on) := h.cur (.of_eq rfl rfl)

theorem Keeps.enqueue (h : Keeps G r s) (i : Instr) (trapped : Bool) : Keeps G r (s.enqueue i trapped) := by
  unfold State.enqueue
  split
  · exact h
  · exact h

theorem Keeps.noteMatrix (h : Keeps G r s) (i : Instr) : Keeps G r (s.noteMatrix i) := by
  unfold State.noteMatrix
  split
  · exact h
  · exact h

theorem Keeps.finishV (h : Keeps G r s) : Keeps G r s.finishV := by
  unfold State.finishV
  split
  · exact h
  · exact h

theorem Res.Keep.retire {x : Res} (hx : x.Keep G r) : KeepsNext G r (retire x) := by
  cases x with
  | ok s => exact Keeps.next hx
  | trap t s => exact Keeps.next (Keeps.takeTrap (by exact hx) t)
  | wait on s => exact Keeps.next hx
  | held w va s => exact Keeps.next hx
  | stall s => exact Keeps.next hx

theorem Res.Keep.retireV {x : Res} (hx : x.Keep G r) (i : Instr) (was : Unfinished) : KeepsNext G r (retireV i was x) := by
  cases x with
  | ok s => exact Keeps.next (Keeps.finishV hx)
  | trap t s =>
    unfold Machine.retireV
    simp only
    split
    · have hq : Keeps G r ((s.noteMatrix i).enqueue i true) := Keeps.enqueue (Keeps.noteMatrix hx i) i true
      exact Keeps.next (Keeps.takeTrap (by exact hq) t)
    · exact Keeps.next (Keeps.takeTrap (by exact hx) t)
  | wait on s => exact ((Keeps.enqueue hx i false).waits on).next
  | held w va s =>
    exact Keeps.next ((Keeps.enqueue hx i false).holding (Hart.kept_ite (.refl _) (.of_eq (by rfl) (by rfl))) w va true s.tick)
  | stall s => exact Keeps.next (Keeps.enqueue hx i false)

theorem Keeps.runV (h : Keeps G r s) {i : Instr} {n : Option Nat} {body : State → Res} (hb : (body s).Keep G r) :
    KeepsNext G r (runV i n body s) := by
  unfold Machine.runV
  split
  · split
    · exact (h.precise _ _ _).retire
    · exact hb.retireV i _
  · rw [← apply_ite (retireV i s.cur.unf)]
    exact Res.Keep.retireV (.ite h.ok hb) i _

/-- A vector-queue instruction under conditions. -/
theorem Keeps.runChecked (h : Keeps G r s) {i : Instr} {n : Option Nat} {conds : State → List (Bool × Nat × Nat)} {body : State → Res}
    (hb : (body s).Keep G r) : KeepsNext G r (Machine.runV i n (fun s => Machine.checked (conds s) body s) s) := h.runV (h.checked hb)

/-! ### Scalar accesses -/

theorem Keeps.scalarAccess (h : Keeps G r s) {va n : Nat} {w : Want} {body : Phys → State → Res}
    (hb : ∀ q t, Keeps G r t → (body q t).Keep G r) : (scalarAccess s va n w body).Keep G r := by
  unfold Machine.scalarAccess
  split
  · exact h
  · split
    · exact h.stop _ _
    · exact hb _ _ (h.settleFor _ _)

theorem Keeps.scalarRead (h : Keeps G r s) {p : Phys} {n : Nat} {body : Nat → Res} (hb : ∀ v, (body v).Keep G r) :
    (scalarRead s p n body).Keep G r := by
  unfold Machine.scalarRead
  split
  · exact h.stop _ _
  · exact hb _

theorem execLd_keeps (p : L) (h : Keeps G r s) (hd : G → gd p.d = 0) : KeepsNext G r (execLd p s) :=
  Res.Keep.retire (h.scalarAccess fun _ _ ht => ht.scalarRead fun _ => (ht.scalarReadDone _).setD hd _)

theorem execSt_keeps (p : S) (h : Keeps G r s) : KeepsNext G r (execSt p s) :=
  Res.Keep.retire (h.scalarAccess fun _ _ ht => ht.writePhys _ _ _ _ _)

theorem execPref_keeps (p : S) (h : Keeps G r s) : KeepsNext G r (execPref p s) := by
  refine Res.Keep.retire (x := .ok _) (?_ : Keeps G r _)
  unfold State.prefetch
  split
  · exact h
  · split
    · exact h
    · have hl1 (l2only : Bool) (a : Nat) : Keeps G r (if l2only then fillCopy s (a / 128)
          else (fillCopy s (a / 128)).readL1 s.cur.mod s.cur.seat.core a) := by
        split
        · exact h.fillCopy _
        · exact (h.fillCopy _).mem (memStep_readL1 _ _ _ _)
      simp only
      split
      · exact (hl1 _ _).mem (memStep_dropL1 _ _)
      · exact hl1 _ _

theorem execAmo_keeps (p : R3) (h : Keeps G r s) (hd : G → gd p.d = 0) : KeepsNext G r (execAmo p s) := by
  refine Res.Keep.retire (h.scalarAccess fun q t ht => ht.scalarRead fun v => Keeps.setD ?_ hd _)
  split
  · exact ht.putScalar _ _
  · split
    · exact (ht.fillCopy _).mem (memStep_readL1 _ _ _ _)
    · exact ht

theorem execLr_keeps (p : R1) (h : Keeps G r s) (hd : G → gd p.d = 0) : KeepsNext G r (execLr p s) :=
  Res.Keep.retire (h.scalarAccess fun _ _ ht => ht.scalarRead fun _ => Keeps.setD (by exact ht.scalarReadDone _) hd _)

theorem execSc_keeps (p : R2) (h : Keeps G r s) (hd : G → gd p.d = 0) : KeepsNext G r (execSc p s) := by
  have hfail (t : State) (ht : Keeps G r t) : Res.Keep G r (({ t with cur := { t.cur with resv := none } } : State).setD p.d 1) :=
    Keeps.setD (by exact ht) hd _
  refine Res.Keep.retire ?_
  split
  · exact .ite (h.precise _ _ _) (hfail s h)
  · refine h.scalarAccess fun q t ht => ?_
    split
    · exact ht
    · split
      · exact Keeps.setD (by exact ht.putScalar _ _) hd _
      · exact hfail t ht

/-! ### Masks, elements and whole registers -/

theorem Hart.kept_writeMask (q : Fin 8) (els : List (Nat × Bool)) : ∀ h : Hart, h.Kept (writeMask h q els) := by
  induction els with
  | nil => exact .refl
  | cons e els ih => exact fun h => .trans (.of_eq rfl rfl) (ih (h.setMaskBit q e.1 e.2))

theorem Hart.kept_writeGroup (d : Fin 64) (rho : Nat) (els : List (Nat × Nat)) : ∀ h : Hart, h.Kept (writeGroup h d rho els) := by
  induction els with
  | nil => exact .refl
  | cons e els ih => exact fun h => .trans (.of_eq rfl rfl) (ih (h.setGroupElem d rho e.1 e.2))

theorem Keeps.writeQ (h : Keeps G r s) (q : Fin 8) (els : List (Nat × Bool)) : Keeps G r (s.writeQ q els) :=
  h.cur (Hart.kept_writeMask q els s.cur)

theorem Keeps.stopAt (h : Keeps G r s) (k : Nat) : Keeps G r (s.stopAt k) := h

theorem Res.Keep.stepElems {els : List Nat} {words : Nat → List SramWord} {perform : List Nat → State}
    (hp : ∀ l, Keeps G r (perform l)) : (s.stepElems els words perform).Keep G r := by
  unfold State.stepElems
  split
  · exact hp _
  · exact (hp _).stopAt _

theorem Keeps.readAll (h : Keeps G r s) {els : List Nat} {words : Nat → List SramWord} {body : State → Res} (hb : (body s).Keep G r) :
    (s.readAll els words body).Keep G r := by
  unfold State.readAll
  split
  · exact hb
  · exact h

theorem Keeps.elementwise (h : Keeps G r s) (m : Mk) (regs : List Nat) (d : BitVec 6) (f : Nat → Nat × Flags) :
    (s.elementwise m regs d f).Keep G r := .stepElems fun _ => (h.raise _).writeVec _ _

theorem Keeps.setFirst (h : Keeps G r s) (d : BitVec 6) (x : Nat × Flags) : (s.setFirst d x).Keep G r := by
  unfold State.setFirst
  split
  · exact h
  · exact (h.raise _).writeVec _ _

theorem execVcmp_keeps (p : R2) (h : Keeps G r s) : KeepsNext G r (execVcmp p s) :=
  h.runChecked (.stepElems fun _ => (h.raise _).writeQ _ _)

theorem maskOp_keeps (i : Instr) (p : Q) (two : Bool) (f : Bool → Bool → Bool) (h : Keeps G r s) : KeepsNext G r (maskOp i p two f s) :=
  h.runChecked (.stepElems fun _ => h.writeQ _ _)

theorem maskCount_keeps (i : Instr) (p : Q) (f : List Nat → Word) (h : Keeps G r s) (hd : G → gd p.d = 0) :
    KeepsNext G r (maskCount i p f s) := h.runChecked (h.readAll (h.setD hd _))

theorem execQnot_keeps (p : Q) (h : Keeps G r s) : KeepsNext G r (execQnot p s) := maskOp_keeps _ _ _ _ h
theorem execQpop_keeps (p : Q) (h : Keeps G r s) (hd : G → gd p.d = 0) : KeepsNext G r (execQpop p s) := maskCount_keeps _ _ _ h hd
theorem execQfirst_keeps (p : Q) (h : Keeps G r s) (hd : G → gd p.d = 0) : KeepsNext G r (execQfirst p s) := maskCount_keeps _ _ _ h hd

theorem execVsel_keeps (p : R2) (h : Keeps G r s) : KeepsNext G r (execVsel p s) := h.runChecked (.stepElems fun _ => h.writeVec _ _)
theorem execViota_keeps (p : R2) (h : Keeps G r s) : KeepsNext G r (execViota p s) := h.runChecked (h.elementwise _ _ _ _)
theorem execVredo_keeps (p : R2) (h : Keeps G r s) : KeepsNext G r (execVredo p s) := h.runChecked (h.readAll (h.setFirst _ _))

theorem execVred_keeps (p : R2) (h : Keeps G r s) : KeepsNext G r (execVred p s) := by
  refine h.runChecked (h.readAll ?_)
  simp only
  split
  · exact h.draw.setFirst _ _
  · exact h.setFirst _ _

theorem execVscan_keeps (p : R2) (h : Keeps G r s) : KeepsNext G r (execVscan p s) :=
  h.runChecked (h.readAll ((h.raise _).writeVec _ _ : Keeps G r _))

theorem permute_keeps (i : Instr) (p : R2) (regs : List Nat) (k : State → Nat → Option Nat) (h : Keeps G r s) :
    KeepsNext G r (permute i p regs k s) := h.runChecked (.stepElems fun _ => h.writeVec _ _)

theorem execVcompress_keeps (p : R2) (h : Keeps G r s) : KeepsNext G r (execVcompress p s) :=
  h.runChecked (.stepElems fun _ => h.writeVec _ _)

theorem execVexpand_keeps (p : R2) (h : Keeps G r s) : KeepsNext G r (execVexpand p s) :=
  h.runChecked (.stepElems fun _ => h.writeVec _ _)

theorem execVbcast_keeps (p : R2) (h : Keeps G r s) : KeepsNext G r (execVbcast p s) := by
  unfold execVbcast
  split
  · exact permute_keeps _ _ _ _ h
  · exact h.runChecked (h.elementwise _ _ _ _)

theorem execVext_keeps (p : R2) (h : Keeps G r s) (hd : G → gd p.d = 0) : KeepsNext G r (execVext p s) := by
  refine h.runChecked ?_
  simp only
  split
  · exact h.readAll (h.setD hd _)
  · exact h.setD hd _

theorem execVins_keeps (p : R2) (h : Keeps G r s) : KeepsNext G r (execVins p s) := by
  refine h.runChecked ?_
  simp only
  split
  · exact h.writeVec _ _
  · exact h

theorem execVdupm_keeps (p : R2) (h : Keeps G r s) : KeepsNext G r (execVdupm p s) :=
  h.runChecked (h.readAll (h.writeVec _ _ : Keeps G r _))

theorem addCounts_keeps {base : Nat} {cs : List (Nat × Nat)} (h : Keeps G r s) (ht : addCounts s base cs = .ok t) : Keeps G r t := by
  unfold addCounts at ht
  simp only at ht
  split at ht
  · cases ht
  · split at ht
    · cases ht
    · cases ht
      exact (h.settleRuns _ _).foldl (fun _ _ hu => hu.putPhys _ _ _) _

theorem execVsortk_keeps (p : R3) (h : Keeps G r s) : KeepsNext G r (execVsortk p s) := by
  refine h.runV (h.checkedAt (h.readAll ?_))
  simp only
  split
  · exact h.stop _ _
  · exact (addCounts_keeps h (by assumption)).writeVec _ _

theorem execVtopk_keeps (p : R3) (h : Keeps G r s) : KeepsNext G r (execVtopk p s) :=
  h.runV (h.checked (h.readAll (h.writeVec _ _ : Keeps G r _)))

/-! ### Vector loads and stores -/

theorem Keeps.keepSpans (h : Keeps G r s) (spans : List (Nat × Nat)) : Keeps G r (s.keepSpans spans) := by
  unfold State.keepSpans
  split
  · exact h
  · exact h

theorem Keeps.keepImages (h : Keeps G r s) (vas : List Nat) : Keeps G r (s.keepImages vas) := h.keepSpans _

theorem Keeps.loadElems (h : Keeps G r s) (d : BitVec 6) (els : List Nat) (addr : Nat → List Nat) (get : Nat → Except Stop Got) :
    (s.loadElems d els addr get).Keep G r := by
  have hw {fl ws} : Keeps G r (((Machine.countReads s ((loadLoop get els).1.flatMap (fun x => x.2.2.2))).raise fl).writeVec (vd d) ws) :=
    ((h.countReads _).raise _).writeVec _ _
  unfold State.loadElems
  simp only
  split
  · exact hw
  · exact ((hw.keepImages _).stopAt _).stop _ _

theorem Keeps.putAll (h : Keeps G r s) (n : Nat) (ps : List Put) : Keeps G r (s.putAll n ps) :=
  h.foldl (fun _ _ hu => hu.writePhys _ _ _ _ _) _

theorem Keeps.storeElems (h : Keeps G r s) (n : Nat) (els : List Nat) (make : Nat → Except Stop (List Put × Flags)) :
    (s.storeElems n els make).Keep G r := by
  have hw {fl qs ps} : Keeps G r (((s.raise fl).settleRuns true qs).putAll n ps) := ((h.raise _).settleRuns _ _).putAll _ _
  unfold State.storeElems
  simp only
  split
  · exact hw
  · exact ((hw.keepImages _).stopAt _).stop _ _

theorem loadAt_keeps (p : M) (words : Nat → List SramWord) (addr : Nat → Nat) (h : Keeps G r s) : (loadAt s p words addr).Keep G r :=
  h.loadElems _ _ _ _

theorem storeAt_keeps (p : M) (words : Nat → List SramWord) (addr : Nat → Nat) (h : Keeps G r s) : (storeAt s p words addr).Keep G r :=
  h.storeElems _ _ _

theorem execVld_keeps (p : M) (h : Keeps G r s) : KeepsNext G r (execVld p s) := by
  refine h.runV (h.checkedAt ?_)
  split
  · exact h.loadElems _ _ _ _
  · exact loadAt_keeps _ _ _ h

theorem execVst_keeps (p : M) (h : Keeps G r s) : KeepsNext G r (execVst p s) := by
  refine h.runV (h.checkedAt ?_)
  split
  · exact h.storeElems _ _ _
  · exact storeAt_keeps _ _ _ h

theorem execVlds_keeps (p : M) (h : Keeps G r s) : KeepsNext G r (execVlds p s) := h.runChecked (loadAt_keeps _ _ _ h)
theorem execVsts_keeps (p : M) (h : Keeps G r s) : KeepsNext G r (execVsts p s) := h.runChecked (storeAt_keeps _ _ _ h)
theorem execVldx_keeps (p : M) (h : Keeps G r s) : KeepsNext G r (execVldx p s) := h.runChecked (loadAt_keeps _ _ _ h)
theorem execVstx_keeps (p : M) (h : Keeps G r s) : KeepsNext G r (execVstx p s) := h.runChecked (storeAt_keeps _ _ _ h)

theorem execVldt_keeps (p : M) (h : Keeps G r s) : KeepsNext G r (execVldt p s) := by
  refine h.runChecked ?_
  split
  · exact h
  · exact h.loadElems _ _ _ _

theorem execVstt_keeps (p : M) (h : Keeps G r s) : KeepsNext G r (execVstt p s) := by
  refine h.runChecked ?_
  split
  · exact h
  · exact h.storeElems _ _ _

theorem amoLoop_keeps (p : M) (orig : State) (els : List (Nat × Phys)) : ∀ {s : State}, Keeps G r s → (amoLoop p orig els s).Keep G r := by
  induction els with
  | nil => exact fun h => h
  | cons e els ih =>
    intro s h
    unfold amoLoop
    simp only
    split
    · exact (h.stopAt _).stop _ _
    · split
      · exact h.stopAt _
      · refine ih ?_
        split
        · exact (h.settleFor _ _).putPhys _ _ _
        · exact ((h.settleFor _ _).putPhys _ _ _).writeVec _ _

theorem execVamo_keeps (p : M) (h : Keeps G r s) : KeepsNext G r (execVamo p s) := by
  refine h.runV (h.checked ?_)
  split
  · exact h.stop _ _
  · exact (amoLoop_keeps p s _ h).onStop fun _ hu => hu.keepImages _

theorem execVpref_keeps (p : M) (h : Keeps G r s) : KeepsNext G r (execVpref p s) := by
  refine h.runV (Keeps.foldl (fun u va hu => ?_) _ h : Keeps G r _)
  unfold State.prefNear
  split
  · split
    · exact hu
    · exact hu.fillCopy _
  · exact hu

/-! ### Vector arithmetic -/

theorem float2V_keeps (i : Instr) (p : R2) (f : FT → Nat → Nat → Nat → Nat × Flags) (h : Keeps G r s) : KeepsNext G r (float2V i p f s) :=
  h.runChecked (h.elementwise _ _ _ _)

theorem float1V_keeps (i : Instr) (p : R2) (f : FT → Nat → Nat → Nat × Flags) (h : Keeps G r s) : KeepsNext G r (float1V i p f s) :=
  h.runChecked (h.elementwise _ _ _ _)

theorem float3V_keeps (i : Instr) (p : R3) (f : FT → Nat → Nat → Nat → Nat → Nat × Flags) (h : Keeps G r s) :
    KeepsNext G r (float3V i p f s) := h.runChecked (h.elementwise _ _ _ _)

theorem int2V_keeps (i : Instr) (p : R2) (f : Nat → Nat → Nat → Nat → Nat) (h : Keeps G r s) : KeepsNext G r (int2V i p f s) :=
  h.runChecked (h.elementwise _ _ _ _)

theorem execVclass_keeps (p : R2) (h : Keeps G r s) : KeepsNext G r (execVclass p s) := h.runChecked (h.elementwise _ _ _ _)

theorem Keeps.writeGroupV (h : Keeps G r s) (d : Fin 64) (rho : Nat) (els : List (Nat × Nat)) : Keeps G r (s.writeGroupV d rho els) := by
  have hcover : ∀ (u : State) k w l, (u.cur = s.cur ∧ u.harts = s.harts ∧ u.frames = s.frames) →
      ((u.coverVec k w l).cur = s.cur ∧ (u.coverVec k w l).harts = s.harts ∧ (u.coverVec k w l).frames = s.frames) := fun u k w l hu => by
    unfold State.coverVec
    split
    · exact hu
    · exact hu
  have hall : ∀ (l : List Nat) (w : Nat) (g : Nat → List Nat) (u : State), (u.cur = s.cur ∧ u.harts = s.harts ∧ u.frames = s.frames) →
      ((l.foldl (fun t k => t.coverVec (d.val + k) w (g k)) u).cur = s.cur ∧ (l.foldl (fun t k => t.coverVec (d.val + k) w (g k)) u).harts = s.harts ∧
        (l.foldl (fun t k => t.coverVec (d.val + k) w (g k)) u).frames = s.frames) := fun l w g => by
    induction l with
    | nil => exact fun _ hu => hu
    | cons k l ih => exact fun u hu => ih _ (hcover u _ _ _ hu)
  obtain ⟨_, hh, hf⟩ := hall (upto 0 rho) (s.cur.cfg.sew * rho) _ s ⟨rfl, rfl, rfl⟩
  exact h.acting (Hart.kept_writeGroup d rho els s.cur) hh hf

theorem execVcvt_keeps (p : R3) (h : Keeps G r s) : KeepsNext G r (execVcvt p s) :=
  h.runChecked (.stepElems fun _ => (h.raise _).writeGroupV _ _ _)

end Sys2Proof.Machine
end

section
/-! PROOFS. What the far vector forms keep of the general registers and of the accumulator tables (R62, R75). -/

namespace Sys2Proof.Machine

variable {G : Prop} {r s t : State}

/-! ### Far registers and far memory -/

/-- What a far form does in its stack keeps what `Keeps` follows. -/
def FarOp.Keep (op : FarOp) : Prop := ∀ (G : Prop) (r s : State) (home : Nat), Keeps G r s → Keeps G r (op.run s home).s

theorem Keeps.writeFar (home d w : Nat) (els : List (Nat × Nat)) : ∀ {s : State}, Keeps G r s → Keeps G r (s.writeFar home d w els) := by
  induction els with
  | nil => exact fun h => h
  | cons e els ih => exact fun h => ih (by exact h)

theorem Keeps.putFar (h : Keeps G r s) (home d w : Nat) (els : List (Nat × Nat)) : Keeps G r (s.putFar home d w els) := by
  unfold State.putFar
  exact Keeps.writeFar _ _ _ _ (.ite h (by exact h))

theorem Keeps.putAllFar (h : Keeps G r s) (n : Nat) (ps : List Put) : Keeps G r (s.putAllFar n ps) :=
  h.foldl (fun _ _ hu => hu.storeFar _ _ _) _

theorem Keeps.farDone (h : Keeps G r s) (op : FarOp) (f : Flags) (data : List (Nat × Nat)) : Keeps G r (s.farDone op f data) := by
  unfold State.farDone
  split
  · exact (h.raise f).writeVec _ _
  · exact h.raise f

theorem Keeps.farFinish (h : Keeps G r s) (op : FarOp) (f : Flags) (data : List (Nat × Nat)) (stop : Option (Nat × Stop)) :
    (s.farFinish op f data stop).Keep G r := by
  have hd : Keeps G r (s.farDone op f data).noRequest := (h.farDone op f data).cur (.of_eq rfl rfl)
  unfold State.farFinish
  simp only
  split
  · exact hd
  · exact (hd.stopAt _).stop _ _

/-! ### Running a far form -/

theorem farBody_keeps {op : FarOp} (hop : op.Keep) (h : Keeps G r s) : (farBody op s).Keep G r := by
  unfold farBody
  split
  · exact h
  · exact h.farFinish _ _ _ _
  · refine h.checkedAt ?_
    split
    · exact h.stop _ _
    · rename_i home _
      split
      · exact .ite h.ok ((hop _ _ _ home h).farFinish _ _ _ _)
      · split
        · exact h
        · exact h

/-! ### The forms -/

theorem FarOut.keeps_ite {a b : FarOut} {c : Prop} [Decidable c] (ha : Keeps G r a.s) (hb : Keeps G r b.s) : Keeps G r (if c then a else b).s := by
  rw [apply_ite FarOut.s]
  exact .ite ha hb

theorem FarOut.keeps_keeping {o : FarOut} (h : Keeps G r o.s) (spans : Nat → List (Nat × Nat)) : Keeps G r (o.keeping spans).s := by
  unfold FarOut.keeping
  split
  · exact keeps_ite h (h.keepSpans _)
  · exact h

theorem Keeps.farMap (h : Keeps G r s) (home : Nat) (words : Nat → List SramWord) (d wd : Nat) (f : Nat → Nat × Flags) :
    Keeps G r (s.farMap home words d wd f).s := h.putFar _ _ _ _

theorem farMapOp_keep (p : R3) (xs : List S10) (ty : State → Bool) (f : State → Nat → Nat → Nat × Flags) : (farMapOp p xs ty f).Keep :=
  fun _ _ _ _ h => h.farMap _ _ _ _ _

theorem farCvt_keep (p : R3) : (farCvt p).Keep := fun _ _ _ _ h => h.farMap _ _ _ _ _
theorem farVbcast_keep (p : R3) : (farVbcast p).Keep := fun _ _ _ _ h => h.farMap _ _ _ _ _
theorem farExpr_keep (p : R3) : (farExpr p).Keep := fun _ _ _ _ h => h.farMap _ _ _ _ _
theorem farGet_keep (p : R3) : (farGet p).Keep := fun _ _ _ _ h => h
theorem farPut_keep (p : R3) : (farPut p).Keep := fun _ _ _ _ h => h.putFar _ _ _ _

theorem farReduce_keep (p : R3) (f : State → Nat → List Nat → Nat × Flags) : (farReduce p f).Keep := fun _ _ _ _ h => by
  unfold farReduce
  simp only
  split
  · exact h
  · split
    · exact h
    · exact h.draw.putFar _ _ _ _

theorem Keeps.farElems (h : Keeps G r s) {home w : Nat} {k : Want} {addr : Nat → Nat} {perform : List (Nat × Phys) → FarOut}
    (hp : ∀ els, Keeps G r (perform els).s) : Keeps G r (s.farElems home w k addr perform).s := by
  unfold State.farElems
  split
  · exact h
  · split
    · exact h
    · exact FarOut.keeps_keeping (by exact hp _) _

theorem Keeps.farLoads (h : Keeps G r s) (home : Nat) (p : M) (words : Nat → List SramWord) (els : List (Nat × Phys)) :
    Keeps G r (s.farLoads home p words els).s := (h.countFarReads _).putFar _ _ _ _

theorem Keeps.farStores (h : Keeps G r s) (home : Nat) (p : M) (words : Nat → List SramWord) (els : List (Nat × Phys)) :
    Keeps G r (s.farStores home p words els).s := h.putAllFar _ _

theorem Keeps.farKb (h : Keeps G r s) {home : Nat} {p : M} {store : Bool} {body : FarOut} (hb : Keeps G r body.s) :
    Keeps G r (s.farKb home p store body).s := by
  unfold State.farKb
  simp only
  split
  · exact h
  · exact hb

theorem Keeps.farKbLoad (h : Keeps G r s) (home : Nat) (p : M) : Keeps G r (s.farKbLoad home p).s := by
  unfold State.farKbLoad
  simp only
  split
  · exact h
  · exact FarOut.keeps_keeping (by exact (h.countFarReads _).putFar _ _ _ _) _

theorem Keeps.farKbStore (h : Keeps G r s) (home : Nat) (p : M) : Keeps G r (s.farKbStore home p).s := by
  unfold State.farKbStore
  simp only
  split
  · exact h
  · exact FarOut.keeps_keeping (by exact h.putAllFar _ _) _

theorem farVld_keep (p : M) : (farVld p).Keep := fun _ _ _ _ h => by
  unfold farVld
  simp only
  split
  · exact h.farKb (h.farKbLoad _ p)
  · exact h.farElems fun _ => h.farLoads _ _ _ _

theorem farVst_keep (p : M) : (farVst p).Keep := fun _ _ _ _ h => by
  unfold farVst
  simp only
  split
  · exact h.farKb (h.farKbStore _ p)
  · exact h.farElems fun _ => h.farStores _ _ _ _

theorem farVlds_keep (p : M) : (farVlds p).Keep := fun _ _ _ _ h => h.farElems fun _ => h.farLoads _ _ _ _
theorem farVsts_keep (p : M) : (farVsts p).Keep := fun _ _ _ _ h => h.farElems fun _ => h.farStores _ _ _ _
theorem farVldx_keep (p : M) : (farVldx p).Keep := fun _ _ _ _ h => h.farElems fun _ => h.farLoads _ _ _ _
theorem farVstx_keep (p : M) : (farVstx p).Keep := fun _ _ _ _ h => h.farElems fun _ => h.farStores _ _ _ _

theorem farAmoLoop_keeps (p : M) (home : Nat) (orig : State) (els : List (Nat × Phys)) :
    ∀ {s : State}, Keeps G r s → Keeps G r (farAmoLoop p home orig els s).s := by
  induction els with
  | nil => exact fun h => h
  | cons e els ih =>
    intro s h
    have hrecall : Keeps G r (recallLine s (e.2.spot.loc / 128)) := h.mem (memStep_recallLine _ _)
    unfold farAmoLoop
    simp only
    refine FarOut.keeps_ite h ?_
    split
    · exact hrecall
    · exact ih (.ite (hrecall.storeFar _ _ _) ((hrecall.storeFar _ _ _).putFar _ _ _ _))

theorem farVamo_keep (p : M) : (farVamo p).Keep := fun _ _ _ home h => h.farElems fun els => farAmoLoop_keeps p home _ els h

theorem dotLoop_keeps (p : M) (home : Nat) (q : List FV) (rows : List Nat) :
    ∀ {s : State} {f : Flags}, Keeps G r s → Keeps G r (dotLoop p home q rows s f).s := by
  induction rows with
  | nil => exact fun h => h
  | cons k rows ih =>
    intro s f h
    unfold dotLoop
    simp only
    split
    · exact h
    · exact FarOut.keeps_ite h (ih ((h.countFarReads _).putFar _ _ _ _))

theorem farDot_keep (p : M) : (farDot p).Keep := fun _ _ _ home h => by
  unfold farDot
  simp only
  split
  · exact h
  · exact FarOut.keeps_keeping (dotLoop_keeps p home _ _ h) _

theorem redLoop_keeps (p : M) (home n fuel : Nat) :
    ∀ {k : Nat} {s : State} {acc : List Nat} {f : Flags}, Keeps G r s → Keeps G r (redLoop p home n fuel k s acc f).s := by
  induction fuel with
  | zero => exact fun h => h
  | succ fuel ih =>
    intro k s acc f h
    unfold redLoop
    simp only
    split
    · exact h.putFar _ _ _ _
    · split
      · exact (h.countFarReads _).putFar _ _ _ _
      · exact ih (h.countFarReads _)

theorem farRed_keep (p : M) : (farRed p).Keep := fun _ _ _ home h => by
  unfold farRed
  simp only
  split
  · exact h
  · split
    · exact h
    · exact FarOut.keeps_keeping (redLoop_keeps p home _ _ h) _

theorem farAttn_keep (p : M) : (farAttn p).Keep := fun _ _ _ home h => by
  unfold farAttn
  simp only
  split
  · exact h
  · split
    · exact h
    · have hout {l2 l3 : Nat} {reqs : List Nat} {e2 e3 : List (Nat × Nat)} :
          Keeps _ _ (((countFarReads _ reqs).putFar home l2 32 e2).putFar home l3 32 e3) := ((h.countFarReads _).putFar _ _ _ _).putFar _ _ _ _
      exact .ite (hout.putFar _ _ _ _) hout

/-- Every far form keeps what `Keeps` follows. -/
theorem farOf_keep {i : Instr} {op : FarOp} (h : farOf i = some op) : op.Keep := by
  unfold farOf at h
  split at h <;> cases h
  exacts [farMapOp_keep _ _ _ _, farMapOp_keep _ _ _ _, farMapOp_keep _ _ _ _, farMapOp_keep _ _ _ _, farMapOp_keep _ _ _ _,
    farMapOp_keep _ _ _ _, farMapOp_keep _ _ _ _, farMapOp_keep _ _ _ _, farMapOp_keep _ _ _ _, farMapOp_keep _ _ _ _,
    farMapOp_keep _ _ _ _, farMapOp_keep _ _ _ _, farMapOp_keep _ _ _ _, farMapOp_keep _ _ _ _, farMapOp_keep _ _ _ _,
    farMapOp_keep _ _ _ _, farMapOp_keep _ _ _ _, farMapOp_keep _ _ _ _, farMapOp_keep _ _ _ _, farMapOp_keep _ _ _ _,
    farMapOp_keep _ _ _ _, farMapOp_keep _ _ _ _, farCvt_keep _, farReduce_keep _ _, farReduce_keep _ _, farVbcast_keep _, farVld_keep _,
    farVst_keep _, farVlds_keep _, farVsts_keep _, farVldx_keep _, farVstx_keep _, farVamo_keep _, farExpr_keep _, farDot_keep _,
    farRed_keep _, farGet_keep _, farPut_keep _, farAttn_keep _]

theorem runFar_keeps {i : Instr} {op : FarOp} (h : Keeps G r s) (hi : farOf i = some op) : KeepsNext G r (runFar i op s) :=
  h.runV (farBody_keeps (farOf_keep hi) h)

theorem execFVpref_keeps (p : M) (h : Keeps G r s) : KeepsNext G r (execFVpref p s) := by
  refine h.runV (?_ : Keeps G r _)
  split
  · refine Keeps.foldl (fun u va hu => ?_) _ h
    unfold State.prefFar
    split
    · exact .ite hu (hu.mem (memStep_fillFar _ _))
    · exact hu
  · exact h

end Sys2Proof.Machine
end

section
/-! PROOFS. What control, system and configuration instructions keep of the general registers and of the accumulator tables (R62, R75). -/

namespace Sys2Proof.Machine

variable {G : Prop} {r s t : State}

/-! ### Faults at the fetch, the first issue and the end -/

theorem Keeps.noHead (h : Keeps G r s) : Keeps G r s.noHead := h
theorem Keeps.atHead (h : Keeps G r s) (x : Half) : Keeps G r (s.atHead x) := h

theorem Keeps.markFirst (h : Keeps G r s) : Keeps G r s.markFirst := by
  unfold State.markFirst
  split
  · exact h
  · exact .ite h (h.onShare _ _ _)

theorem Keeps.handlerOnly (h : Keeps G r s) {x : Res} (hx : x.Keep G r) : (handlerOnly s x).Keep G r := .ite hx (h.precise _ _ _)

theorem execEret_keeps (p : Head) (h : Keeps G r s) : KeepsNext G r (execEret p s) := by
  have hleft : Keeps G r { s with cur := s.cur.leaveHandler s.tick } := h
  refine Res.Keep.retire (h.handlerOnly ?_)
  simp only
  refine .ite (h.precise _ _ _) (.ite (.ite ?_ hleft.ok) (.ite hleft.ok (h.precise _ _ _)))
  have hjump := hleft.jumpTo 0
  split
  · rename_i hu
    rw [hu] at hjump
    exact hjump
  · exact h
  · exact hjump

/-! ### State registers -/

theorem execSrr_keeps (p : L) (h : Keeps G r s) (hd : G → gd p.d = 0) : KeepsNext G r (execSrr p s) := by
  refine Res.Keep.retire ?_
  split
  · exact h
  · exact .ite (h.precise _ _ _) (h.setD hd _)

theorem Acc.ok_fresh : Acc.fresh.ok := ⟨rfl, rfl, rfl⟩

theorem Keeps.claim (h : Keeps G r s) (v : Word) : Keeps G r (s.claim v) := by
  unfold State.claim
  simp only
  split
  · refine h.acting ⟨rfl, fun w a ha => ?_⟩ rfl rfl
    rcases List.mem_append.mp ha with ha | ha
    · exact w a ha
    · exact (List.mem_replicate.mp ha).2 ▸ Acc.ok_fresh
  · exact h.acting ⟨rfl, fun w a ha => w a (List.mem_of_mem_take ha)⟩ rfl rfl

theorem Hart.kept_writeTrap (h : Hart) (n : Nat) (v : Word) : h.Kept (h.writeTrap n v) := by
  unfold Hart.writeTrap
  simp only
  split
  · exact Hart.kept_ite (.refl h) (.of_eq rfl rfl)
  · exact Hart.kept_ite (.refl h) (.of_eq rfl rfl)
  all_goals exact .of_eq rfl rfl

/-- State registers written. -/
theorem Keeps.written (h : Keeps G r s) (ns : List Nat) {x : Hart} (hx : s.cur.Kept x) : Keeps G r { s.coverSr ns with cur := x } :=
  h.acting hx (by simp) (by simp)

theorem execSrw_keeps (p : L) (h : Keeps G r s) : KeepsNext G r (execSrw p s) := by
  have hclaim : Keeps G r ((s.claim (s.src p.a)).coverSr [p.imm.toNat % 4096]) := (h.claim _).coverSr _
  refine Res.Keep.retire ?_
  split
  · exact h
  · simp only
    refine .ite (.ite hclaim.ok (h.afterQueue hclaim.ok)) (.ite (by exact h) (.ite h.ok (.ite ?_ (.ite ?_ h.ok))))
    · refine .ite (h.precise _ _ _) (.ite h (h.afterQueue (h.afterStores ?_)))
      exact h.settle.written _ (.of_eq rfl rfl)
    · exact h.written _ (s.cur.kept_writeTrap _ _)

/-! ### Waiting, ordering and saving -/

theorem execPause_keeps (p : R1) (h : Keeps G r s) : KeepsNext G r (execPause p s) :=
  Res.Keep.retire (.ite h.ok (by exact h))

theorem execWfev_keeps (p : Head) (h : Keeps G r s) : KeepsNext G r (execWfev p s) :=
  Res.Keep.retire (.ite (by exact h) (by exact h))

theorem Keeps.stow (h : Keeps G r s) : Keeps G r s.stow := h.acting (.of_eq rfl rfl) rfl rfl
theorem Keeps.unstow (h : Keeps G r s) : Keeps G r s.unstow := h.acting (.of_eq rfl rfl) rfl rfl

theorem Keeps.coverYield (h : Keeps G r s) (n : Nat) : Keeps G r (s.coverYield n) := .ite h (by exact h)

theorem Keeps.yield (h : Keeps G r s) (n : Nat) : Keeps G r (s.yield n) := (h.coverYield n).stow.cur (.of_eq rfl rfl)

theorem execYield_keeps (p : R1) (h : Keeps G r s) : KeepsNext G r (execYield p s) := by
  refine Res.Keep.retire (.ite (h.precise _ _ _) (h.afterQueue ?_))
  split
  · exact h
  · exact h.afterStores (h.settle.yield _)

theorem execFenceSv_keeps (p : R1) (h : Keeps G r s) : KeepsNext G r (execFenceSv p s) := by
  have ht (a b c d : Bool) : Keeps G r (if c || d then (if a || b then s.settleOn false else s).settleOn true
      else if a || b then s.settleOn false else s) :=
    .ite (Keeps.settleOn (.ite (h.settleOn _) h) _) (.ite (h.settleOn _) h)
  have hx (o : Option Msg) (x : State) (hx : Keeps G r x) : Res.Keep G r (match o with
      | some (.store i va v f o rd a bs) => .held ((s.storeHolder s.cur.mod (.store i va v f o rd a bs)).getD .frame) va s
      | _ => .ok x) := by
    split
    · exact h
    · exact hx
  exact Res.Keep.retire (.ite (h.afterQueue (hx _ _ (ht _ _ _ _))) (hx _ _ (ht _ _ _ _)))

theorem Keeps.fenceStack (h : Keeps G r s) (va : Nat) : (fenceStack s va).Keep G r := by
  refine h.afterStores ?_
  split
  · exact h
  · exact h.settle.writeBack _
  · split
    · exact h.settle.writeBack _
    · exact h.settle.writeBack _

theorem execFenceStk_keeps (p : R1) (h : Keeps G r s) : KeepsNext G r (execFenceStk p s) := Res.Keep.retire (h.afterQueue (h.fenceStack _))

theorem scopeOrder_keep (p : R1) (h : Keeps G r s) : (scopeOrder p s).Keep G r := by
  unfold scopeOrder
  split
  · exact h.afterStores (h.settle.writeBack _)
  · exact h.fenceStack _
  · exact h.afterStores (h.settle.writeBack _)
  · split
    · exact h
    · exact h.afterStores (h.acknowledged.writeBack _)
  · exact h.afterStores h.settle

theorem execRel_keeps (p : R1) (h : Keeps G r s) : KeepsNext G r (execRel p s) := Res.Keep.retire (h.afterQueue (scopeOrder_keep p h))

theorem execAcq_keeps (p : R1) (h : Keeps G r s) : KeepsNext G r (execAcq p s) :=
  Res.Keep.retire (h.afterQueue (.ite h.ok (scopeOrder_keep p h)))

/-! ### Opaque frames -/

theorem Keeps.frameAccess (h : Keeps G r s) {va n : Nat} {w : Want} {body : List (Phys × Nat) → Res} (hb : ∀ ps, (body ps).Keep G r) :
    (frameAccess s va n w body).Keep G r := by
  refine .ite (h.precise _ _ _) ?_
  split
  · exact h.stop _ _
  · exact .ite (h.precise _ _ _) (hb _)

/-- A frame saved: its tables are as the hart's were. -/
theorem Keeps.saved (h : Keeps G r s) {x : Hart} (hx : s.cur.Kept x) (q : List SramWord) {f : Frame} (hf : r.tilesInForm → ∀ a ∈ f.accs, a.ok) :
    Keeps G r { s with cur := x, poison := q, frames := f :: s.frames } :=
  ⟨fun w => hx.1.trans (h.1 w), fun w => by
    obtain ⟨wc, wh, wf⟩ := h.2 w
    exact ⟨hx.2 wc, wh, List.forall_mem_cons.mpr ⟨hf w, wf⟩⟩⟩

/-- A frame restored: the hart takes its tables. -/
theorem Keeps.restored (h : Keeps G r s) {x : Hart} (hg : x.g = s.cur.g) (q : List SramWord) (ha : r.tilesInForm → x.inForm) :
    Keeps G r { s with cur := x, poison := q } :=
  ⟨fun w => hg.trans (h.1 w), fun w => ⟨ha w, (h.2 w).2⟩⟩

theorem execVsave_keeps (p : R1) (h : Keeps G r s) (hd : G → gd p.d = 0) : KeepsNext G r (execVsave p s) := by
  refine Res.Keep.retire (h.handlerOnly (h.frameAccess fun ps => Keeps.setD (Keeps.saved ?_ (.of_eq (by rfl) (by rfl)) _ fun w => (h.2 w).1) hd _))
  exact (Keeps.writeRuns true ps _ _ (h.draw.settleRuns true ps)).spoilRuns ps _

theorem Keeps.behindQueue (h : Keeps G r s) {x : Res} (hx : x.Keep G r) (c : Prop) [Decidable c] :
    ((if c then id else Machine.afterQueue s) x).Keep G r := by
  split
  · exact hx
  · exact h.afterQueue hx

theorem execVrstr_keeps (p : R1) (h : Keeps G r s) : KeepsNext G r (execVrstr p s) := by
  refine Res.Keep.retire (h.handlerOnly (h.behindQueue (h.frameAccess fun ps => ?_) _))
  split
  · exact h.stop _ _
  · refine .ite (h.precise _ _ _) (h.frameAccess fun qs => ?_)
    simp only
    split
    · exact h.stop _ _
    · refine .ite (h.precise _ _ _) ?_
      split
      · exact h
      · rename_i f hf
        exact Keeps.restored (s := s.settleRuns true qs) (x := (s.settleRuns true qs).cur.vrestored f _) (h.settleRuns true qs) rfl _
          fun w => (h.2 w).2.2 f (List.mem_of_find?_eq_some hf)

/-! ### The freeze -/

theorem Keeps.freezeModule (h : Keeps G r s) (m : Nat) (source : BitVec 3) : Keeps G r (freezeModule s m source) := h.onMod _ _

theorem execFrz_keeps (p : Head) (h : Keeps G r s) : KeepsNext G r (execFrz p s) := by
  unfold execFrz
  split
  · exact (h.freezeModule _ _).next
  · exact (h.precise _ _ _).retire

/-! ### The vector configuration -/

theorem Keeps.cleanVec (h : Keeps G r s) : Keeps G r s.cleanVec := h

theorem Hart.kept_configure (h : Hart) (code et free : Nat) : h.Kept (h.configure code et free) := by
  unfold Hart.configure
  exact Hart.kept_ite (.of_eq rfl rfl) (.of_eq rfl rfl)

theorem execVcfg_keeps (p : R1) (h : Keeps G r s) (hd : G → gd p.d = 0) : KeepsNext G r (execVcfg p s) := by
  refine h.runV ?_
  split
  · exact h
  · rename_i c _
    have hclean : Keeps G r (if c = s.cur.cfg.nregc.toNat then s else s.cleanVec) := .ite h h.cleanVec
    exact Keeps.setD (hclean.draw.acting (Hart.kept_configure _ _ _ _) (by simp) (by simp)) hd _

theorem Keeps.regrant (h : Keeps G r s) (lanes : List Nat) : Keeps G r (s.regrant lanes) := h.acting (.of_eq rfl rfl) rfl rfl

theorem Keeps.rebalance (h : Keeps G r s) : Keeps G r s.rebalance := by
  unfold State.rebalance
  split
  · exact .ite h (.ite (h.regrant _) (.ite (h.regrant _) h))
  · exact h

theorem Keeps.setVl (h : Keeps G r s) {d : BitVec 6} (hd : G → gd d = 0) (n : Nat) (cover : List Nat) : (s.setVl d n cover).Keep G r :=
  Keeps.setD (h.written _ (.of_eq (by rfl) (by rfl))) hd _

theorem vsetlBody_keep (p : R1) (h : Keeps G r s) (hd : G → gd p.d = 0) : (vsetlBody p s).Keep G r := by
  refine .ite (by exact h) (.ite (h.setVl hd _ _) ?_)
  have hb := h.rebalance
  refine .ite (.ite ?_ (.ite (hb.setVl hd _ _) (by exact hb))) (hb.setVl hd _ _)
  exact Keeps.setVl (by exact hb) hd _ _

theorem execVsetl_keeps (p : R1) (h : Keeps G r s) (hd : G → gd p.d = 0) : KeepsNext G r (execVsetl p s) :=
  h.runV (h.checked (vsetlBody_keep p (.ite (by exact h) h) hd))

theorem execVqlen_keeps (p : R1) (h : Keeps G r s) (hd : G → gd p.d = 0) : KeepsNext G r (execVqlen p s) := h.runChecked (h.setD hd _)

theorem Keeps.bind (h : Keeps G r s) (b : Stream) : (s.bind b).Keep G r :=
  h.written _ (.of_eq rfl rfl)

theorem execVbind_keeps (p : R2) (h : Keeps G r s) : KeepsNext G r (execVbind p s) := h.runV (h.checked (.ite (h.bind _) (h.bind _)))
theorem execVbindOff_keeps (p : R2) (h : Keeps G r s) : KeepsNext G r (execVbindOff p s) := h.runChecked (h.bind _)

/-! ### VSPILL and VFILL -/

theorem accOfBytes_ok (bs : List Byte) : (accOfBytes bs).ok := ⟨rising_foldr_store _ _, rising_foldr_store _ _, rising_foldr_store _ _⟩

theorem Hart.kept_fill (h : Hart) (n : Nat) (bs : List Byte) : h.Kept (h.fill n bs) :=
  ⟨rfl, fun _ a ha => by
    obtain ⟨c, _, rfl⟩ := List.mem_map.mp ha
    exact accOfBytes_ok _⟩

theorem execVspill_keeps (p : L) (h : Keeps G r s) : KeepsNext G r (execVspill p s) := by
  refine h.runV (h.checkedAt ?_)
  split
  · exact h.stop _ _
  · exact (Keeps.writeRuns true _ _ _ (h.settleRuns true _)).spoilRuns _ _

theorem execVfill_keeps (p : L) (h : Keeps G r s) (hd : G → gd p.d = 0) : KeepsNext G r (execVfill p s) := by
  refine h.runV (h.checkedAt ?_)
  split
  · exact h.stop _ _
  · split
    · exact h.stop _ _
    · refine .ite (h.imprecise _ _ _) ?_
      split
      · exact h.stop _ _
      · split
        · exact h.stop _ _
        · refine Keeps.setD ?_ hd _
          exact Keeps.cur (s := { countReads _ _ with poison := _ }) (((h.settleRuns true _).coverSr _).countReads _) (Hart.kept_fill _ _ _)

end Sys2Proof.Machine
end

section
/-! PROOFS. What tile exchange and the task table keep of the general registers and of the accumulator tables (R62, R75). -/

namespace Sys2Proof.Machine

variable {G : Prop} {r s t : State}

/-! ### Tiles -/

theorem Keeps.bump (h : Keeps G r s) (l k : Nat) : Keeps G r (s.bump l k) := h.onShare l k _

theorem Keeps.fillTile (h : Keeps G r s) (x : TileRef) (data : Option Nat) (seq : Nat) : Keeps G r (s.fillTile x data seq) :=
  (Keeps.bump (by exact .ite h (by exact h)) _ _).onHarts _ fun _ => .of_eq rfl rfl

theorem Keeps.emptyTile (h : Keeps G r s) (x : TileRef) : Keeps G r (s.emptyTile x) := Keeps.bump (by exact h) _ _

theorem serve_keeps {x : TileRef} (h : Keeps G r s) (ht : s.serve x = some t) : Keeps G r t := by
  unfold State.serve at ht
  split at ht
  · cases ht
  · split at ht
    · cases ht
    · cases ht
      have hgot := h.onHart (s := s) (by assumption : Hart).id (f := fun y => { y with got := some (s.tile x).data }) fun _ => .of_eq rfl rfl
      exact .ite (hgot.emptyTile x) hgot

theorem Keeps.nodeDelivered (h : Keeps G r s) (m : Nat) (x : Send) : Keeps G r (s.nodeDelivered m x) := by
  unfold State.nodeDelivered
  split
  · exact h
  · exact h.onMod _ _

theorem Keeps.deliver (h : Keeps G r s) (m core k : Nat) (x : Send) : Keeps G r (s.deliver m core k x) :=
  ((h.onMod m _).fillTile _ _ _).nodeDelivered m x

theorem Keeps.granted (h : Keeps G r s) (m : Nat) (x : Send) : Keeps G r (s.granted m x) := by
  unfold State.granted
  split
  · exact h
  · exact .ite (h.onHart _ fun _ => .of_eq rfl rfl) (by exact h)

theorem takeEntry_keeps {m core : Nat} (h : Keeps G r s) (ht : s.takeEntry m core = some t) : Keeps G r t := by
  unfold State.takeEntry at ht
  split at ht
  · cases ht
  · split at ht
    · cases ht
    · split at ht
      · cases ht
      · cases ht
        exact (h.onMod m _).granted m _

theorem coreStep_keeps {m core : Nat} (h : Keeps G r s) (ht : s.coreStep m core = some t) : Keeps G r t := by
  unfold State.coreStep at ht
  split at ht
  · rename_i hserve
    cases ht
    obtain ⟨x, _, hx⟩ := List.exists_of_findSome?_eq_some hserve
    split at hx
    · exact serve_keeps h hx
    · cases hx
  · split at ht
    · cases ht
    · split at ht
      · split at ht
        · cases ht
          exact h.deliver m core _ _
        · cases ht
      · exact takeEntry_keeps h ht

theorem Keeps.pumpFor (f m core : Nat) : ∀ {s : State}, Keeps G r s → Keeps G r (s.pumpFor f m core) := by
  induction f with
  | zero => exact fun h => h
  | succ f ih =>
    intro s h
    unfold State.pumpFor
    split
    · exact ih (coreStep_keeps h (by assumption))
    · exact h

theorem Keeps.pump (h : Keeps G r s) (m core : Nat) : Keeps G r (s.pump m core) := Keeps.pumpFor _ m core h

theorem Keeps.pumpAt (h : Keeps G r s) (x : TileRef) : Keeps G r (s.pumpAt x) := by
  unfold State.pumpAt
  split
  · exact h.pump _ _
  · exact h

/-! ### Sends -/

theorem Keeps.unsent (h : Keeps G r s) : Keeps G r s.unsent := h

theorem Keeps.unheld (h : Keeps G r s) (mark : Bool) (v : Word) : (Res.unheld mark v s).Keep G r := .ite (by exact h) (by exact h)

theorem Keeps.ask (h : Keeps G r s) (v : Word) (m : Nat) (x : Send) : (s.ask v m x).Keep G r := by
  have hasked : Keeps G r { s with cur := { s.cur with send := .asked } } := h
  have hpump {f : Module → Module} {y : TileRef} : Keeps G r (({ s with cur := { s.cur with send := .asked } } : State).onMod m f |>.pumpAt y) :=
    (hasked.onMod m f).pumpAt y
  exact .ite (.ite hpump.ok (hpump.unheld _ _)) (Keeps.unheld (by exact h) _ _)

theorem Keeps.sending (h : Keeps G r s) (mark : Bool) (v : Word) (m : Option Nat) {first : State → Res} (hf : (first s).Keep G r) :
    (s.sending mark v m first).Keep G r := by
  unfold State.sending
  split
  · exact h
  · exact h.unsent
  · exact .ite (by exact h.unsent) (h.unheld _ _)
  · exact hf

theorem Keeps.queuePut (h : Keeps G r s) (q : Nat) (v : Word) (data : Nat) : (s.queuePut q v data).Keep G r := by
  unfold State.queuePut
  split
  · exact h
  · simp only
    split
    · exact h
    · exact h.fillTile _ _ _

theorem Keeps.sendRelease (h : Keeps G r s) {m : Nat} {v : Word} {body : State → Res} (hb : ∀ t, Keeps G r t → (body t).Keep G r) :
    (s.sendRelease m v body).Keep G r := by
  refine .ite (h.afterStores (hb _ h.settle)) ?_
  split
  · exact h
  · exact .ite (by exact h) (h.afterStores (hb _ (h.acknowledged.writeBack _)))

theorem tsendBody_keep (p : R2) (h : Keeps G r s) : (tsendBody p s).Keep G r := by
  refine h.sending _ _ _ (h.checkedAt ?_)
  split
  · exact h.queuePut _ _ _
  · refine h.sendRelease fun t ht => ?_
    split
    · exact ht.stop _ _
    · exact (ht.countReads _).queuePut _ _ _
  · refine h.sendRelease fun t ht => ?_
    split
    · exact ht.stop _ _
    · exact (ht.countReads _).ask _ _ _
  · exact h

theorem execTsend_keeps (p : R2) (h : Keeps G r s) : KeepsNext G r (execTsend p s) := h.runV (tsendBody_keep p h)

theorem execTmark_keeps (p : R1) (h : Keeps G r s) : KeepsNext G r (execTmark p s) := by
  refine h.runV (h.sending _ _ _ (h.checked ?_))
  split
  · exact h.afterStores (h.settle.ask _ _ _)
  · exact h

/-! ### Gets -/

theorem Keeps.acquired (h : Keeps G r s) : Keeps G r s.acquired := .ite h (h.settle.writeBack _)

theorem Keeps.getBody (h : Keeps G r s) {k : Get} {v : Word} {body : Nat → State → Res} (hb : ∀ d t, Keeps G r t → (body d t).Keep G r) :
    (s.getBody k v body).Keep G r := by
  unfold State.getBody
  split
  · exact hb _ _ (Keeps.acquired (by exact h))
  · split
    · exact h
    · exact .ite (by exact h) (hb _ _ (Keeps.acquired (.ite ((h.emptyTile _).pumpAt _) h)))

theorem getVec_keep (k : Get) (p : R2) (h : Keeps G r s) : (getVec k p s).Keep G r :=
  h.checked (h.getBody fun _ _ ht => ht.writeVec _ _)

theorem getMem_keep (k : Get) (p : R2) (h : Keeps G r s) : (getMem k p s).Keep G r := by
  unfold getMem
  refine h.checkedAt ?_
  split
  · exact h.stop _ _
  · exact h.getBody fun _ _ ht => Keeps.writeRuns true _ _ _ (ht.settleRuns true _)

theorem execTwait_keeps (p : R1) (h : Keeps G r s) : KeepsNext G r (execTwait p s) := h.runV (h.checked (h.getBody fun _ _ ht => ht))

theorem execTdrop_keeps (p : R1) (h : Keeps G r s) : KeepsNext G r (execTdrop p s) := by
  refine h.runV (h.checked ?_)
  split
  · exact Keeps.ite ((h.emptyTile _).pumpAt _) h
  · exact h

/-! ### Messages to and from tiles -/

theorem Keeps.countStale (h : Keeps G r s) (m : Nat) (tile : Bool) : Keeps G r (countStale s m tile) := h.onMod m _

theorem execHoldEntryRequest_keeps (n : Nat) (h : Keeps G r s) : KeepsNext G r (execHoldEntryRequest n s) := by
  unfold execHoldEntryRequest
  split
  · split
    · exact (h.dropMsg n).next
    · split
      · exact h.next
      · split
        · exact (((h.dropMsg n).onMod _ _).pumpAt _).next
        · refine Keeps.next ?_
          have hstale := (h.dropMsg n).countStale (by assumption) true
          split
          · exact hstale
          · exact hstale
  · exact h.next

theorem execEntryGrant_keeps (n : Nat) (h : Keeps G r s) : KeepsNext G r (execEntryGrant n s) := by
  unfold execEntryGrant
  split
  · exact ((h.dropMsg n).onHart _ fun _ => Hart.kept_ite (.of_eq (by rfl) (by rfl)) (.refl _)).next
  · exact h.next

theorem execStaleRefusal_keeps (n : Nat) (h : Keeps G r s) : KeepsNext G r (execStaleRefusal n s) := by
  unfold execStaleRefusal
  split
  · split
    · exact (h.dropMsg n).next
    · split
      · exact (h.dropMsg n).next
      · exact ((h.dropMsg n).onHart _ fun _ => .of_eq (by rfl) (by rfl)).next
  · exact h.next

/-! ### Nodes -/

theorem Keeps.onNode (h : Keeps G r s) (m i : Nat) (f : Node → Node) : Keeps G r (s.onNode m i f) := h.onMod m _

theorem Keeps.finishNode (h : Keeps G r s) (m i : Nat) (n : Node) : Keeps G r (s.finishNode m i n) :=
  ((h.onNode m i _).foldl (fun _ _ hu => hu.onNode _ _ _) n.succs).onHart _ fun _ => .of_eq rfl rfl

theorem Keeps.createNode (h : Keeps G r s) {d : BitVec 6} (hd : G → gd d = 0) (k : NodeKind) : (s.createNode d k).Keep G r := by
  unfold State.createNode
  split
  · exact h.setD hd _
  · exact (h.onMod _ _).setD hd _

theorem execNodeCopy_keeps (p : R3) (h : Keeps G r s) (hd : G → gd p.d = 0) : KeepsNext G r (execNodeCopy p s) :=
  h.runV (h.checked (h.readAll (h.createNode hd _)))

theorem execNodeCall_keeps (p : R3) (h : Keeps G r s) (hd : G → gd p.d = 0) : KeepsNext G r (execNodeCall p s) :=
  h.runV (h.checked (h.createNode hd _))

theorem execNodeEdge_keeps (p : R2) (h : Keeps G r s) (hd : G → gd p.d = 0) : KeepsNext G r (execNodeEdge p s) := by
  refine h.runV ?_
  unfold nodeEdgeBody
  simp only
  split
  · exact h
  · exact .ite (h.imprecise _ _ _) (h.setD hd _)
  · exact .ite (h.imprecise _ _ _) (((h.onNode _ _ _).onNode _ _ _).setD hd _)

theorem execNodeArm_keeps (p : R1) (h : Keeps G r s) : KeepsNext G r (execNodeArm p s) := by
  refine h.runV ?_
  unfold nodeArmBody
  split
  · exact h
  · exact h.afterStores (h.settle.onNode _ _ _)

theorem execNodeArmDone_keeps (p : R1) (h : Keeps G r s) : KeepsNext G r (execNodeArmDone p s) := by
  refine h.runV ?_
  unfold nodeArmDoneBody
  split
  · exact h
  · split
    · exact h
    · exact .ite (h.afterStores ((h.settle.writeBack _).finishNode _ _ _)) (h.imprecise _ _ _)

theorem execNodeWait_keeps (p : R1) (h : Keeps G r s) : KeepsNext G r (execNodeWait p s) :=
  h.runV (.ite (by exact h) (h.afterStores (h.settle.writeBack _)))

/-! ### Copy engines -/

theorem Keeps.engPut (h : Keeps G r s) (n : Nat) (p : Put) : Keeps G r (s.engPut n p) := .ite (h.storeFar _ _ _) (h.storeNear _ _)

theorem Keeps.engCount (h : Keeps G r s) (replay : Bool) (rs : List (Nat × Phys × Nat)) : Keeps G r (s.engCount replay rs) :=
  .ite h (h.foldl (fun _ _ hu => hu.mem (memStep_mscRead _ _)) _)

/-- A block that is copied, and one that stops. -/
theorem copyBlock_keeps {ranks : List Nat} {m : Nat} {n : Node} {j : CopyJob} {k : Nat} (h : Keeps G r s) :
    (∀ x, s.copyBlock ranks m n j k = .ok x → Keeps G r x.1) ∧ ∀ e, s.copyBlock ranks m n j k = .error e → Keeps G r e.2 := by
  unfold State.copyBlock
  split
  · exact ⟨fun _ e => (by cases e), fun _ e => by cases e; exact h⟩
  · split
    · exact ⟨fun _ e => (by cases e), fun _ e => by cases e; exact h⟩
    · have hcount {rs} := h.engCount n.replay rs
      simp only
      split
      · exact ⟨fun _ e => (by cases e; exact hcount), fun _ e => by cases e⟩
      · split
        · exact ⟨fun _ e => (by cases e), fun _ e => by cases e; exact hcount⟩
        · exact ⟨fun _ e => (by cases e; exact hcount.foldl (fun _ _ hu => hu.engPut _ _) _), fun _ e => by cases e⟩

theorem Keeps.faultNode (h : Keeps G r s) (m i : Nat) (n : Node) (c : Cause) (v : Word) : Keeps G r (s.faultNode m i n c v) :=
  (h.onNode m i _).draw.reportRec _ _ _

theorem Keeps.moveBlocks (m i : Nat) (j : CopyJob) (f : Nat) : ∀ {s : State}, Keeps G r s → Keeps G r (s.moveBlocks m i j f) := by
  induction f with
  | zero => exact fun h => h
  | succ f ih =>
    intro s h
    unfold State.moveBlocks
    split
    · exact h
    · refine .ite h ?_
      split
      · exact ((copyBlock_keeps h).2 _ (by assumption)).faultNode _ _ _ _ _
      · exact h
      · exact ih (((copyBlock_keeps h).1 _ (by assumption)).onNode _ _ _)

theorem execCopyNodeStart_keeps (m i : Nat) (h : Keeps G r s) : KeepsNext G r (execCopyNodeStart m i s) := by
  unfold execCopyNodeStart
  split
  · exact h.next
  · split
    · exact h.next
    · split_ifs
      · exact h.next
      · exact (Keeps.moveBlocks m i _ 1 h).next
      · exact (h.onNode m i _).next
      · exact h.next

theorem execCopyNodeFinish_keeps (m i : Nat) (h : Keeps G r s) : KeepsNext G r (execCopyNodeFinish m i s) := by
  unfold execCopyNodeFinish
  split
  · exact h.next
  · rename_i n _
    split
    · exact h.next
    · rename_i j _
      have hmoved : Keeps G r (s.moveBlocks m i j (j.blocks - n.block)) := Keeps.moveBlocks m i j _ h
      simp only
      split
      · exact h.next
      · split
        · exact hmoved.next
        · split
          · exact hmoved.next
          · split
            · exact (hmoved.finishNode _ _ _).next
            · split
              · exact (hmoved.finishNode _ _ _).next
              · exact hmoved.next
              · split
                · have hasked {f g x} : Keeps G r (((s.moveBlocks m i j (j.blocks - n.block)).onNode m i f).onMod m g |>.pumpAt x) :=
                    ((hmoved.onNode m i f).onMod m g).pumpAt x
                  split
                  · exact (Keeps.ite (hasked.finishNode _ _ _) hasked).next
                  · exact hasked.next
                · exact hmoved.next

theorem execCallNodeDelivery_keeps (m i : Nat) (h : Keeps G r s) : KeepsNext G r (execCallNodeDelivery m i s) := by
  unfold execCallNodeDelivery
  split
  · exact h.next
  · split
    · exact h.next
    · split
      · exact h.next
      · split
        · exact (((h.onNode m i _).onMod m _).pumpAt _).next
        · exact h.next

/-! ### Publication, cells and barriers -/

theorem execPublish_keeps (p : R1) (h : Keeps G r s) : KeepsNext G r (execPublish p s) := by
  refine h.runV ?_
  unfold publishBody
  simp only
  split
  · exact h
  · exact .ite (.ite h h.ok) (.ite (by exact h) (.ite (by exact h) (by exact h)))

theorem Keeps.publishCell (h : Keeps G r s) (l k n v : Nat) (close : Bool) : Keeps G r (s.publishCell l k n v close) :=
  .ite ((h.onShare l k _).bump l k) (((h.onShare l k _).bump l k).onHarts _ fun _ => .of_eq rfl rfl)

theorem execHwpub_keeps (p : R2) (h : Keeps G r s) : KeepsNext G r (execHwpub p s) :=
  h.runV (h.checked (h.afterStores (h.settle.publishCell _ _ _ _ _)))

theorem Keeps.arrive (h : Keeps G r s) (key : Nat) : Keeps G r (s.arrive key) := .ite h (Keeps.cur (h.bump _ _) (.of_eq rfl rfl))

theorem execBar_keeps (p : R1) (h : Keeps G r s) : KeepsNext G r (execBar p s) := by
  refine h.runV ?_
  unfold barBody
  simp only
  exact h.checked (h.afterStores (.ite (h.settle.arrive _).ok (h.settle.arrive _)))

theorem Keeps.tellArrival (h : Keeps G r s) (ranks : List Nat) : Keeps G r (s.tellArrival ranks) := .ite h (by exact h.arrive domKey)

theorem Keeps.unarrive (h : Keeps G r s) : Keeps G r s.unarrive := h

theorem barDomBody_keep (h : Keeps G r s) : (barDomBody s).Keep G r := by
  refine .ite (by exact h.unarrive) ?_
  split
  · exact h.unarrive
  · have htold : Keeps G r ((if s.cur.atBar then s else writeBack s.acknowledged locHbm).tellArrival (s.ranksOf s.cur)) :=
      Keeps.tellArrival (.ite h (h.acknowledged.writeBack _)) _
    exact .ite (by exact h.unarrive) (h.afterStores (.ite (by exact htold) (by exact htold)))

theorem execBarDom_keeps (p : R1) (h : Keeps G r s) : KeepsNext G r (execBarDom p s) := h.runV (barDomBody_keep h)

theorem execBarDomMessage_keeps (n : Nat) (h : Keeps G r s) : KeepsNext G r (execBarDomMessage n s) := by
  unfold execBarDomMessage
  split
  · split
    · exact h.next
    · split
      · exact Keeps.next ((h.dropMsg n).countStale _ false)
      · exact (((h.dropMsg n).onShare _ _ _).bump _ _).next
  · exact h.next

end Sys2Proof.Machine
end

section
/-! PROOFS. What the key-value cache keeps of the general registers and of the accumulator tables (R62, R75). -/

namespace Sys2Proof.Machine

variable {G : Prop} {r s t : State}

/-! ### Computations on the cache -/

/-- A computation on the cache that completes keeps every general register and the accumulator tables in form. -/
def KvKeep {α : Type} (f : Kv α) : Prop := ∀ s a t, f s = .ok (a, t) → Keeps True s t

/-- What keeps every general register of the acting hart may follow. -/
theorem Keeps.thenAll (h : Keeps G r s) (k : Keeps True s t) : Keeps G r t := h.trans ⟨fun _ => k.1 trivial, k.2⟩

variable {α β : Type}

theorem KvKeep.pure (a : α) : KvKeep (pure a) := fun s _ _ e => by cases e; exact .refl _ s

theorem KvKeep.get : KvKeep (get : Kv State) := fun s _ _ e => by cases e; exact .refl _ s

theorem KvKeep.error (e : Stop) : KvKeep (α := α) (fun _ => Except.error e) := fun _ _ _ h => by cases h

theorem KvKeep.bind {f : Kv α} {g : α → Kv β} (hf : KvKeep f) (hg : ∀ a, KvKeep (g a)) : KvKeep (f >>= g) := fun s b u e => by
  change (f s >>= fun x => g x.1 x.2) = .ok (b, u) at e
  cases hfs : f s with
  | error w =>
    rw [hfs] at e
    cases e
  | ok x =>
    rw [hfs] at e
    exact (hf s _ _ hfs).trans (hg _ _ _ _ e)

theorem KvKeep.ite {f g : Kv α} {c : Prop} [Decidable c] (hf : KvKeep f) (hg : KvKeep g) : KvKeep (if c then f else g) := by
  split
  · exact hf
  · exact hg

theorem KvKeep.forM {f : α → Kv PUnit} (hf : ∀ a, KvKeep (f a)) (l : List α) : KvKeep (l.forM f) := by
  induction l with
  | nil => exact .pure _
  | cons a l ih => exact .bind (hf a) fun _ => ih

theorem kvFail_keep (sub va : Nat) : KvKeep (kvFail sub va : Kv α) := .error _

theorem kvCheck_keep (b : Bool) (sub va : Nat) : KvKeep (kvCheck b sub va) := fun s _ _ e => by
  unfold kvCheck at e
  split at e
  · cases e
  · cases e; exact .refl _ s

theorem kvRead_keep (cx : KvCx) (m va n : Nat) : KvKeep (kvRead cx m va n) := fun s _ _ e => by
  unfold kvRead at e
  split at e
  · cases e
  · split at e
    · cases e
    · cases e; exact .refl _ s

theorem kvReadVec_keep (cx : KvCx) (m va n : Nat) : KvKeep (kvReadVec cx m va n) := fun s _ _ e => by
  unfold kvReadVec at e
  split at e
  · cases e
  · split at e
    · cases e
    · cases e; exact ((Keeps.refl _ s).settleRuns _ _).countReads _

theorem Keeps.putRuns (ps : List (Phys × Nat)) : ∀ {s : State} (bs : List Byte), Keeps G r s → Keeps G r (putRuns s ps bs) := by
  induction ps with
  | nil => exact fun _ h => h
  | cons q ps ih => exact fun _ h => ih _ (h.putPhys _ _ _)

theorem kvWrite_keep (cx : KvCx) (m va n v : Nat) : KvKeep (kvWrite cx m va n v) := fun s _ _ e => by
  unfold kvWrite at e
  split at e
  · cases e
  · cases e; exact .putRuns _ _ (.refl _ s)

/-- The bytes of a row go to their far point piece by piece. -/
theorem engPutRuns_keeps (qs : List (Phys × Nat)) : ∀ {s : State} (bs : List Byte), Keeps G r s →
    Keeps G r (qs.foldl (fun (c : State × List Byte) q => (c.1.engPut 0 ⟨0, q.1, c.2.take q.2⟩, c.2.drop q.2)) (s, bs)).1 := by
  induction qs with
  | nil => exact fun _ h => h
  | cons q qs ih => exact fun _ h => ih _ (h.engPut _ _)

theorem kvCopy_keep (cx : KvCx) (src dst n : Nat) : KvKeep (kvCopy cx src dst n) := fun s _ _ e => by
  unfold kvCopy at e
  simp only at e
  split at e
  · cases e
  · split at e
    · cases e
    · split at e
      · cases e
      · cases e; exact engPutRuns_keeps _ _ (((Keeps.refl _ s).settleRuns _ _).countReads _)

/-! ### Roots, free stacks and entries -/

theorem kvRootRead_keep (cx : KvCx) (m : Nat) : KvKeep (kvRootRead cx m) :=
  .bind (kvRead_keep _ _ _ _) fun _ => .bind (kvCheck_keep _ _ _) fun _ => .bind (kvCheck_keep _ _ _) fun _ => .pure _

theorem kvRootCheck_keep (cx : KvCx) (x : KvRoot × Nat) : KvKeep (kvRootCheck cx x) := kvCheck_keep _ _ _

theorem kvRootAt_keep (cx : KvCx) (m : Nat) : KvKeep (kvRootAt cx m) :=
  .bind (kvRootRead_keep _ _) fun _ => .bind (kvRootCheck_keep _ _) fun _ => .pure _

theorem kvRoot_keep (cx : KvCx) (rank va : Nat) : KvKeep (kvRoot cx rank va) := by
  unfold kvRoot
  split
  · exact kvFail_keep _ _
  · rename_i m _
    have hrest : KvKeep (do
        let mine ← kvRootAt cx cx.m
        if m = cx.m then return mine
        let x ← kvRootAt cx m
        kvCheck (x.geo != mine.geo) 2 cx.root
        return x : Kv KvRoot) :=
      .bind (kvRootAt_keep _ _) fun _ => .ite (.pure _) (.bind (kvRootAt_keep _ _) fun _ => .bind (kvCheck_keep _ _ _) fun _ => .pure _)
    exact .bind .get fun _ => .ite (.bind (.error _) fun _ => hrest) hrest

theorem kvPop_keep (cx : KvCx) (m va : Nat) : KvKeep (kvPop cx m va) :=
  .bind (kvRead_keep _ _ _ _) fun _ => .bind (kvCheck_keep _ _ _) fun _ => .bind (kvRead_keep _ _ _ _) fun _ =>
    .bind (kvWrite_keep _ _ _ _ _) fun _ => .pure _

theorem kvPush_keep (cx : KvCx) (m va v : Nat) : KvKeep (kvPush cx m va v) :=
  .bind (kvRead_keep _ _ _ _) fun _ => .bind (kvCheck_keep _ _ _) fun _ => .bind (kvWrite_keep _ _ _ _ _) fun _ => kvWrite_keep _ _ _ _ _

theorem kvEntry_keep (cx : KvCx) (w va : Nat) : KvKeep (kvEntry cx w va) :=
  .bind (kvCheck_keep _ _ _) fun _ => .bind (kvRoot_keep _ _ _) fun _ => .bind (kvCheck_keep _ _ _) fun _ => .bind (kvRead_keep _ _ _ _) fun _ =>
    .bind (kvCheck_keep _ _ _) fun _ => .bind (kvCheck_keep _ _ _) fun _ => .bind (kvCheck_keep _ _ _) fun _ => .pure _

theorem kvSetRef_keep (cx : KvCx) (x : KvEntry) (n : Nat) : KvKeep (kvSetRef cx x n) :=
  .bind (kvCheck_keep _ _ _) fun _ => kvWrite_keep _ _ _ _ _

theorem kvShare_keep (cx : KvCx) (w va : Nat) : KvKeep (kvShare cx w va) := .bind (kvEntry_keep _ _ _) fun _ => kvSetRef_keep _ _ _

theorem kvDrop_keep (cx : KvCx) (w va : Nat) : KvKeep (kvDrop cx w va) :=
  .bind (kvEntry_keep _ _ _) fun _ => .ite (.bind (kvSetRef_keep _ _ _) fun _ => .pure _)
    (.bind (kvWrite_keep _ _ _ _ _) fun _ => .bind (kvPush_keep _ _ _ _) fun _ => .bind (kvPush_keep _ _ _ _) fun _ => .pure _)

theorem kvAlloc_keep (cx : KvCx) (base rank tier cls va : Nat) : KvKeep (kvAlloc cx base rank tier cls va) :=
  .bind (kvRoot_keep _ _ _) fun _ => .bind (kvPop_keep _ _ _) fun _ => .bind (kvPop_keep _ _ _) fun _ => .bind (kvCheck_keep _ _ _) fun _ =>
    .bind (kvCheck_keep _ _ _) fun _ => .bind (kvWrite_keep _ _ _ _ _) fun _ => .pure _

/-! ### Sequences -/

theorem kvRow_keep (cx : KvCx) (dim cls src dst k q : Nat) : KvKeep (kvRow cx dim cls src dst k q) := .forM (fun _ => kvCopy_keep _ _ _ _) _

theorem kvToken_keep (cx : KvCx) (dim cls src dst k q : Nat) : KvKeep (kvToken cx dim cls src dst k q) :=
  .bind (kvRow_keep _ _ _ _ _ _ _) fun _ => kvRow_keep _ _ _ _ _ _ _

theorem kvSeq_keep (cx : KvCx) (va : Nat) : KvKeep (kvSeq cx va) :=
  .bind (kvRead_keep _ _ _ _) fun _ => .bind (kvCheck_keep _ _ _) fun _ => .bind (kvCheck_keep _ _ _) fun _ => .bind (kvRootRead_keep _ _) fun _ =>
    .bind (kvCheck_keep _ _ _) fun _ => .bind (kvRootCheck_keep _ _) fun _ => .pure _

theorem kvLocal_keep (cx : KvCx) (d : KvSeq) (b : Nat) : KvKeep (kvLocal cx d b) := kvRead_keep _ _ _ _
theorem kvSetLocal_keep (cx : KvCx) (d : KvSeq) (b w : Nat) : KvKeep (kvSetLocal cx d b w) := kvWrite_keep _ _ _ _ _
theorem kvSetLen_keep (cx : KvCx) (d : KvSeq) (n : Nat) : KvKeep (kvSetLen cx d n) := kvWrite_keep _ _ _ _ _

theorem kvTranslate_keep (cx : KvCx) (e : Bool) (a b : Nat) : KvKeep (kvTranslate cx e a b) :=
  .bind (kvSeq_keep _ _) fun _ => .bind (kvCheck_keep _ _ _) fun _ => .bind (kvLocal_keep _ _ _) fun _ => .ite (.pure _)
    (.bind (kvEntry_keep _ _ _) fun _ => .bind (kvRootAt_keep _ _) fun _ => .pure _)

theorem kvReleaseAll_keep (cx : KvCx) (d : KvSeq) (l : List Nat) : KvKeep (kvReleaseAll cx d l) := by
  induction l with
  | nil => exact .pure _
  | cons b l ih =>
    exact .bind (kvLocal_keep _ _ _) fun _ => .bind (kvDrop_keep _ _ _) fun _ => .bind (kvSetLocal_keep _ _ _ _) fun _ => .bind ih fun _ => .pure _

theorem kvRelease_keep (cx : KvCx) (a b : Nat) : KvKeep (kvRelease cx a b) :=
  .bind (kvSeq_keep _ _) fun _ => .bind (kvReleaseAll_keep _ _ _) fun _ => .bind (kvSetLen_keep _ _ _) fun _ => .pure _

theorem kvClear_keep (cx : KvCx) (d : KvSeq) (p n : Nat) : KvKeep (kvClear cx d p n) := .ite (.pure _) (.forM (fun _ => kvWrite_keep _ _ _ _ _) _)

theorem kvAppend_keep (cx : KvCx) (shared : Bool) (a b : Nat) : KvKeep (kvAppend cx shared a b) := by
  refine .bind (kvSeq_keep _ _) fun d => .bind (kvCheck_keep _ _ _) fun _ => .bind (kvRootAt_keep _ _) fun x => .bind ?_ fun _ =>
    .bind (kvClear_keep _ _ _ _) fun _ => .bind (kvSetLen_keep _ _ _) fun _ => .pure _
  have hfresh := KvKeep.bind (kvAlloc_keep cx x.base d.arank d.atier d.acls a) fun p =>
    KvKeep.bind (kvSetLocal_keep cx d (d.len / 16) p.1) fun _ => .pure p.2
  exact .ite hfresh (.bind (kvLocal_keep _ _ _) fun _ => .bind (kvEntry_keep _ _ _) fun _ => .ite (.bind (kvAlloc_keep _ _ _ _ _ _) fun _ =>
    .bind (.forM (fun _ => kvToken_keep _ _ _ _ _ _ _) _) fun _ => .bind (kvDrop_keep _ _ _) fun _ => .bind (kvSetLocal_keep _ _ _ _) fun _ =>
      .pure _) (.pure _))

theorem kvInstall_keep (cx : KvCx) (own : Bool) (a b c : Nat) : KvKeep (kvInstall cx own a b c) := by
  refine .bind (kvSeq_keep _ _) fun d => .bind (kvCheck_keep _ _ _) fun _ => .bind (kvEntry_keep _ _ _) fun x => .ite ?_ ?_
  · refine .bind (kvLocal_keep _ _ _) fun old => .bind (kvEntry_keep _ _ _) fun y => ?_
    have hset : KvKeep (do kvSetLocal cx d b c; return old : Kv Nat) := .bind (kvSetLocal_keep _ _ _ _) fun _ => .pure _
    have hdrop : KvKeep (do let _ ← kvDrop cx old a; kvSetLocal cx d b c; return old : Kv Nat) := .bind (kvDrop_keep _ _ _) fun _ => hset
    exact .ite (.ite hdrop hset) (.ite (.bind (kvSetRef_keep _ _ _) fun _ => hdrop) hdrop)
  · have hset : KvKeep (do kvSetLocal cx d b c; kvSetLen cx d (d.len + 16); return 0 : Kv Nat) :=
      .bind (kvSetLocal_keep _ _ _ _) fun _ => .bind (kvSetLen_keep _ _ _) fun _ => .pure _
    exact .ite (.bind (kvSetRef_keep _ _ _) fun _ => hset) hset

theorem kvFork_keep (cx : KvCx) (a b n : Nat) : KvKeep (kvFork cx a b n) :=
  .bind (kvSeq_keep _ _) fun _ => .bind (kvSeq_keep _ _) fun _ => .bind (kvCheck_keep _ _ _) fun _ => .bind (kvCheck_keep _ _ _) fun _ =>
    .bind (.forM (fun _ => .bind (kvLocal_keep _ _ _) fun _ => .bind (kvShare_keep _ _ _) fun _ => kvSetLocal_keep _ _ _ _) _) fun _ =>
      .bind (kvSetLen_keep _ _ _) fun _ => .pure _

theorem kvOldPages_keep (cx : KvCx) (d : KvSeq) (base : Nat) (l : List Nat) : KvKeep (kvOldPages cx d base l) := by
  induction l with
  | nil => exact .pure _
  | cons b l ih =>
    exact .bind (kvLocal_keep _ _ _) fun _ => .bind (kvEntry_keep _ _ _) fun _ => .bind (kvCheck_keep _ _ _) fun _ => .bind ih fun _ => .pure _

theorem kvNewPages_keep (cx : KvCx) (d : KvSeq) (base n : Nat) : KvKeep (kvNewPages cx d base n) := by
  induction n with
  | zero => exact .pure _
  | succ n ih => exact .bind (kvAlloc_keep _ _ _ _ _ _) fun _ => .bind ih fun _ => .pure _

theorem kvKeep_keep (cx : KvCx) (a : Nat) (keep : List Nat) : KvKeep (kvKeep cx a keep) := by
  refine .ite (kvRelease_keep _ _ _) (.bind (kvSeq_keep _ _) fun d => .bind (kvRootAt_keep _ _) fun x => .bind (kvCheck_keep _ _ _) fun _ =>
    .bind (kvOldPages_keep _ _ _ _) fun _ => .bind (kvNewPages_keep _ _ _ _) fun _ => .bind (.forM (fun _ => ?_) _) fun _ =>
    .bind (kvReleaseAll_keep _ _ _) fun _ => .bind (.forM (fun _ => kvSetLocal_keep _ _ _ _) _) fun _ => .bind (kvSetLen_keep _ _ _) fun _ => .pure _)
  exact .bind (kvToken_keep _ _ _ _ _ _ _) fun _ => .ite (.bind (kvRead_keep _ _ _ _) fun _ => kvWrite_keep _ _ _ _ _) (.pure _)

theorem kvScores_keep (cx : KvCx) (a : Nat) : KvKeep (kvScores cx a) :=
  .bind (kvSeq_keep _ _) fun _ => .bind (kvCheck_keep _ _ _) fun _ => .pure _

theorem kvTop_keep (cx : KvCx) (a k lo hi : Nat) : KvKeep (kvTop cx a k lo hi) :=
  .bind (kvScores_keep _ _) fun _ => .ite (.pure _) (.bind (kvReadVec_keep _ _ _ _) fun _ => .pure _)

theorem kvIndex_keep (cx : KvCx) (ids link key : Nat) (ins : Option Nat) : KvKeep (kvIndex cx ids link key ins) := by
  refine .bind (kvRootAt_keep _ _) fun _ => .bind (kvCheck_keep _ _ _) fun _ => .bind (kvRoot_keep _ _ _) fun _ => .bind (kvRead_keep _ _ _ _) fun _ => ?_
  split
  · exact .bind (kvShare_keep _ _ _) fun _ => .pure _
  · split
    · exact .pure _
    · refine .bind (kvShare_keep _ _ _) fun _ => ?_
      split
      · exact kvFail_keep _ _
      · exact .bind (kvWrite_keep _ _ _ _ _) fun _ => .pure _

/-! ### Key-value instructions -/

/-- What a key-value operation leaves, whether it is done or goes on. -/
def KvOut.Keep (G : Prop) (r : State) : KvOut → Prop
  | .again s => Keeps G r s
  | .done o => Keeps G r o.s

/-- A key-value operation keeps what `Keeps` follows. -/
def KvOp.Keep (op : KvOp) : Prop := ∀ (G : Prop) (r s : State), Keeps G r s → (op.run s).Keep G r

theorem Keeps.kvRun (h : Keeps G r s) {f : Kv Nat} (hf : KvKeep f) : (kvRun s f).Keep G r := by
  unfold Machine.kvRun
  split
  · exact h.thenAll (hf _ _ _ (by assumption))
  · exact h

theorem Keeps.kvOn (h : Keeps G r s) {vas : List Nat} {f : State → KvOut} (hf : (f s).Keep G r) : (kvOn s vas f).Keep G r := by
  unfold Machine.kvOn
  split
  · exact h
  · exact hf

theorem KvOp.Keep.of_run {op : KvOp} {vas : State → List Nat} {f : State → Kv Nat}
    (hrun : op.run = fun s => Machine.kvOn s (vas s) fun s => Machine.kvRun s (f s)) (hf : ∀ s, KvKeep (f s)) : op.Keep := fun G r s h => by
  rw [hrun]
  exact Keeps.kvOn h (f := fun s => Machine.kvRun s (f s)) (h.kvRun (hf s))

theorem opKvxl_keep (e : Bool) (p : R3) : (opKvxl e p).Keep := .of_run rfl fun _ => kvTranslate_keep _ _ _ _
theorem opKvrel_keep (p : R3) : (opKvrel p).Keep := .of_run rfl fun _ => kvRelease_keep _ _ _
theorem opKvmap_keep (p : R3) : (opKvmap p).Keep := .of_run rfl fun _ => kvInstall_keep _ _ _ _ _
theorem opKvfork_keep (p : R3) : (opKvfork p).Keep := .of_run rfl fun _ => kvFork_keep _ _ _ _
theorem opKvkeep_keep (p : R3) : (opKvkeep p).Keep := .of_run rfl fun _ => kvKeep_keep _ _ _

theorem opKvapp_keep (p : R3) : (opKvapp p).Keep := fun G r s h => by
  unfold opKvapp
  simp only
  refine h.kvOn ?_
  split
  · exact h.kvRun (kvAppend_keep _ _ _ _)
  · split
    · exact h
    · exact h.kvRun (kvAppend_keep _ _ _ _)
    · exact h

theorem scoreLoop_keeps (v : Fin 64) (orig : State) (els : List (Nat × Phys)) :
    ∀ {s : State} {f : Flags}, Keeps G r s → Keeps G r (scoreLoop v orig els s f).s := by
  induction els with
  | nil => exact fun h => h
  | cons e els ih =>
    intro s f h
    unfold scoreLoop
    split
    · exact h
    · split
      · exact h
      · exact ih ((h.settleFor _ _).putPhys _ _ _)

theorem opKvscore_keep (p : R3) : (opKvscore p).Keep := fun G r s h => by
  unfold opKvscore
  simp only
  refine h.kvOn ?_
  split
  · exact h
  · split
    · exact h
    · exact scoreLoop_keeps _ _ _ h

theorem opKvtopk_keep (p : R3) : (opKvtopk p).Keep := fun G r s h => by
  unfold opKvtopk
  simp only
  refine h.kvOn ?_
  split
  · exact h
  · exact h.thenAll (kvTop_keep _ _ _ _ _ _ _ _ (by assumption))

theorem opKvpidx_keep (ins : Bool) (p : R3) : (opKvpidx ins p).Keep := fun G r s h => by
  unfold opKvpidx
  simp only
  split
  · exact h
  · exact h.kvRun (kvIndex_keep _ _ _ _ _)

/-- Every key-value operation keeps what `Keeps` follows. -/
theorem kvOf_keep {i : Instr} {op : KvOp} (h : kvOf i = some op) : op.Keep := by
  unfold kvOf at h
  split at h <;> cases h
  exacts [opKvmap_keep _, opKvapp_keep _, opKvxl_keep _ _, opKvxl_keep _ _, opKvfork_keep _, opKvrel_keep _, opKvscore_keep _, opKvtopk_keep _,
    opKvkeep_keep _, opKvpidx_keep _ _, opKvpidx_keep _ _]

theorem Keeps.noRequest (h : Keeps G r s) : Keeps G r s.noRequest := h

theorem kvFinish_keep {d : BitVec 6} {vec : Bool} (h : Keeps G r s) (hd : vec = false → G → gd d = 0) (f : Flags) (data : List (Nat × Nat))
    (stop : Option (Nat × Stop)) : (kvFinish d vec s f data stop).Keep G r := by
  have hg : Keeps G r { (s.raise f).noRequest with cur := { (s.raise f).noRequest.cur with got := none } } := (h.raise f).noRequest
  unfold kvFinish
  simp only
  split
  · exact (hg.stopAt _).stop _ _
  · split
    · exact hg.writeVec _ _
    · have hv : vec = false := by simpa using ‹¬ vec = true›
      split
      · exact hg.setG (hd hv) _
      · exact hg

theorem kvBody_keep {op : KvOp} (hop : op.Keep) {d : BitVec 6} {vec : Bool} (h : Keeps G r s) (hd : vec = false → G → gd d = 0) :
    (kvBody op d vec s).Keep G r := by
  unfold kvBody
  split
  · exact h
  · exact kvFinish_keep h hd _ _ _
  · refine h.checked ?_
    split
    · exact kvFinish_keep h hd _ _ _
    · have hrun := hop G r s h
      split
      · split
        · rename_i heq
          rw [heq] at hrun
          exact hrun
        · rename_i heq
          rw [heq] at hrun
          exact kvFinish_keep hrun hd _ _ _
      · split
        · exact h
        · exact h

theorem runKv_keeps {i : Instr} {op : KvOp} {d : BitVec 6} {vec : Bool} (h : Keeps G r s) (hi : kvOf i = some op)
    (hd : vec = false → G → gd d = 0) : KeepsNext G r (runV i none (kvBody op d vec) s) := h.runV (kvBody_keep (kvOf_keep hi) h hd)

/-! ### Ouvenaern's work on the cache -/

theorem kvCompact_keep (cx : KvCx) (x : KvRoot) (rank tier cls f : Nat) :
    ∀ (live : List (Nat × Nat)) (free : List Nat), KvKeep (kvCompact cx x rank tier cls f live free) := by
  induction f with
  | zero => exact fun _ _ => .pure _
  | succ f ih =>
    exact fun _ _ => .ite (.pure _) (.bind (kvRead_keep _ _ _ _) fun _ => .bind (kvWrite_keep _ _ _ _ _) fun _ =>
      .bind (kvCopy_keep _ _ _ _) fun _ => .bind (kvWrite_keep _ _ _ _ _) fun _ => ih _ _)

theorem kvAutumn_keep (cx : KvCx) (rank tier cls : Nat) : KvKeep (kvAutumn cx rank tier cls) := by
  have hstack (m va : Nat) : KvKeep (kvStackSlots cx m va) :=
    .bind (kvRead_keep _ _ _ _) fun _ => .bind (kvRead_keep _ _ _ _) fun _ => .pure _
  have hslab (x : KvRoot) : KvKeep (kvSlab cx x tier cls) := .bind (kvRead_keep _ _ _ _) fun _ => .pure _
  exact .bind (kvRootAt_keep _ _) fun _ => .bind (hstack _ _) fun _ => .bind (hslab _) fun _ => .bind (kvCompact_keep _ _ _ _ _ _ _ _) fun _ =>
    .bind (kvWrite_keep _ _ _ _ _) fun _ => kvWrite_keep _ _ _ _ _

theorem kvRemove_keep (cx : KvCx) (bucket slot : Nat) : KvKeep (kvRemove cx bucket slot) :=
  .bind (kvRootAt_keep _ _) fun _ => .bind (kvRead_keep _ _ _ _) fun _ => .ite (.bind (kvDrop_keep _ _ _) fun _ => kvWrite_keep _ _ _ _ _) (.pure _)

theorem Keeps.kvQuiet (h : Keeps G r s) {f : Kv Unit} (hf : KvKeep f) : Keeps G r (kvQuiet s f) := by
  unfold Machine.kvQuiet
  split
  · exact h.thenAll (hf _ _ _ (by assumption))
  · exact h

theorem execAutumnRun_keeps (m root tier cls : Nat) (atp : Word) (h : Keeps G r s) : KeepsNext G r (execAutumnRun m root tier cls atp s) := by
  unfold execAutumnRun
  split
  · exact h.next
  · exact (h.kvQuiet (kvAutumn_keep _ _ _ _)).next

theorem execIndexEntryRemoval_keeps (m root bucket slot : Nat) (atp : Word) (h : Keeps G r s) :
    KeepsNext G r (execIndexEntryRemoval m root bucket slot atp s) := by
  unfold execIndexEntryRemoval
  split
  · exact h.next
  · exact (h.kvQuiet (kvRemove_keep _ _ _)).next

end Sys2Proof.Machine
end

section
/-! PROOFS. What messages, links and memory events keep of the accumulator tables (R75). -/

namespace Sys2Proof.Machine

variable {G : Prop} {r s t : State}

/-! ### Other harts take the current place -/

/-- What keeps the tables in form, whichever hart acts afterwards. -/
theorem Keeps.of_form (h : Keeps False r s) (w : s.tilesInForm → t.tilesInForm) : Keeps False r t := ⟨False.elim, fun x => w (h.2 x)⟩

theorem Keeps.focus (h : Keeps False r s) (i : HartId) : Keeps False r (s.focus i) := by
  unfold State.focus
  split
  · exact h
  · split
    · rename_i x hx
      refine h.of_form fun ⟨wc, wh, wf⟩ => ⟨wh x (List.mem_of_find?_eq_some hx), fun y hy => ?_, wf⟩
      rcases List.mem_append.mp hy with hy | hy
      · split at hy
        · cases hy
        · exact List.mem_singleton.mp hy ▸ wc
      · exact wh y (List.mem_of_mem_filter hy)
    · exact h

theorem Keeps.addHart (h : Keeps False r s) {x : Hart} (hx : x.inForm) : Keeps False r (s.addHart x) := by
  unfold State.addHart
  split
  · exact h.of_form fun w => ⟨hx, w.2⟩
  · refine h.of_form fun ⟨wc, wh, wf⟩ => ⟨wc, fun y hy => ?_, wf⟩
    rcases List.mem_append.mp hy with hy | hy
    · exact wh y hy
    · exact List.mem_singleton.mp hy ▸ hx

theorem Keeps.asHart (h : Keeps False r s) (i : HartId) {f : State → State} (hf : ∀ s, Keeps False r s → Keeps False r (f s)) :
    Keeps False r (s.asHart i f) := by
  unfold State.asHart
  split
  · exact hf s h
  · exact .ite (hf _ (h.focus i)) ((hf _ (h.focus i)).focus _)

theorem KeepsNext.ite {a b : Host.Outcome State Fault Refusal} {c : Prop} [Decidable c] (ha : KeepsNext G r a) (hb : KeepsNext G r b) :
    KeepsNext G r (if c then a else b) := by
  split
  · exact ha
  · exact hb

theorem execPauseExpiry_keeps (i : HartId) (h : Keeps False r s) : KeepsNext False r (execPauseExpiry i s) := by
  have hf : Keeps False r (s.focus i) := h.focus i
  unfold execPauseExpiry
  refine .ite ?_ h.next
  split
  · exact execPause_keeps _ (by exact hf)
  · exact h.next

/-! ### Requests to stacks and to the cache -/

theorem Keeps.holdStop (h : Keeps G r s) (e : Stop) : Keeps G r (s.holdStop e) := by
  cases e with
  | trap c v => exact h
  | hold w va => exact h

theorem Keeps.farArrive (h : Keeps G r s) (n home : Nat) : Keeps G r (s.farArrive n home) := by
  unfold State.farArrive
  split
  · exact h.dropMsg n
  · split
    · exact h.dropMsg n
    · rename_i e _ _ op hop
      have hact : Keeps G r { s.dropMsg n with cur := { s.cur with active := some e } } := h.acting (.of_eq rfl rfl) (by simp) (by simp)
      have hrun := farOf_keep hop _ _ _ home hact
      simp only
      split
      · exact hrun.acting (.of_eq rfl rfl) rfl rfl
      · split
        · exact hrun.acting (.of_eq rfl rfl) rfl rfl
        · exact h.holdStop _

theorem Keeps.kvArrive (h : Keeps G r s) (n : Nat) : Keeps G r (s.kvArrive n) := by
  unfold State.kvArrive
  split
  · exact h.dropMsg n
  · split
    · exact h.dropMsg n
    · rename_i e _ _ op hop
      have hact : Keeps G r { s.dropMsg n with cur := { s.cur with active := some e } } := h.acting (.of_eq rfl rfl) (by simp) (by simp)
      have hrun := kvOf_keep hop _ _ _ hact
      split
      · rename_i heq
        rw [heq] at hrun
        exact Keeps.acting hrun (.of_eq rfl rfl) rfl rfl
      · rename_i heq
        rw [heq] at hrun
        simp only
        split
        · exact Keeps.acting hrun (.of_eq rfl rfl) rfl rfl
        · split
          · exact Keeps.acting hrun (.of_eq rfl rfl) rfl rfl
          · exact h.holdStop _

theorem Keeps.settleRequest (h : Keeps G r s) : Keeps G r s.settleRequest := by
  obtain ⟨fs, q, hq⟩ := settleRequest_frame s
  rw [hq]
  exact h.acting (.of_eq rfl rfl) rfl rfl

theorem execFarRequestArrival_keeps (n : Nat) (h : Keeps False r s) : KeepsNext False r (execFarRequestArrival n s) := by
  unfold execFarRequestArrival
  split
  · refine .ite h.next (.ite (Keeps.next (by exact (h.dropMsg n).countStale _ _)) ?_)
    split
    · exact (h.dropMsg n).next
    · exact .ite (h.dropMsg n).next (.ite h.next (h.asHart _ fun _ hu => hu.farArrive n _).next)
  · exact h.next

theorem execFarCompletion_keeps (n : Nat) (h : Keeps G r s) : KeepsNext G r (execFarCompletion n s) := by
  unfold execFarCompletion
  split
  · exact ((h.dropMsg n).onHart _ fun _ => .of_eq (by rfl) (by rfl)).next
  · exact h.next

theorem execKvRemoteRequest_keeps (n : Nat) (h : Keeps False r s) : KeepsNext False r (execKvRemoteRequest n s) := by
  unfold execKvRemoteRequest
  split
  · split
    · exact (h.dropMsg n).next
    · exact .ite (h.dropMsg n).next (.ite h.next (h.asHart _ fun _ hu => hu.kvArrive n).next)
  · exact h.next

/-! ### Stores, memory and links -/

theorem Keeps.arriveStore (h : Keeps G r s) (n : Nat) : Keeps G r (arriveStore s n) := by
  unfold Machine.arriveStore
  split
  · exact .ite h (.ite (h.onMod _ _) ((h.dropMsg n).performStore _ _))
  · exact h

theorem execRemoteStoreAck_keeps (n : Nat) (h : Keeps G r s) : KeepsNext G r (execRemoteStoreAck n s) := by
  unfold execRemoteStoreAck
  split
  · exact ((h.dropMsg n).onHart _ fun _ => .of_eq (by rfl) (by rfl)).next
  · exact h.next

theorem execMscReadRequest_keeps (a : Nat) (h : Keeps G r s) : KeepsNext G r (execMscReadRequest a s) :=
  .ite h.next (h.mem (memStep_mscRead _ _)).next

theorem execMscWrite_keeps (a : Nat) (bs : List Byte) (n : BitVec 4) (h : Keeps G r s) : KeepsNext G r (execMscWrite a bs n s) :=
  .ite h.next (h.storeFar _ _ _).next

theorem execHostMemoryAccess_keeps (m pa n : Nat) (w : Option (List Byte)) (h : Keeps G r s) : KeepsNext G r (execHostMemoryAccess m pa n w s) := by
  unfold execHostMemoryAccess
  split
  · exact h.next
  · refine .ite h.next ?_
    split
    · exact .ite (h.storeFar _ _ _).next h.next
    · exact .ite h.next (.ite (h.onMod m _).next (Keeps.next (.ite ((h.onMod m _).foldl (fun _ _ hu => hu.mem (memStep_mscRead _ _)) _) (h.onMod m _))))

theorem Keeps.onStack (h : Keeps G r s) (m k : Nat) (f : Stack → Stack) : Keeps G r (s.onStack m k f) := h.onMod m _

theorem Keeps.spoilDram (h : Keeps G r s) (m pa : Nat) : Keeps G r (s.spoilDram m pa) := .ite h (by exact h)

theorem execRefreshCommand_keeps (m k bank : Nat) (f : Finding) (h : Keeps G r s) : KeepsNext G r (execRefreshCommand m k bank f s) := by
  refine .ite h.next ?_
  split
  · exact h.next
  · exact (h.onStack m k _).next
  · exact .ite ((h.spoilDram m _).onStack m k _).next h.next

theorem execRowActivationAlert_keeps (m k bank : Nat) (h : Keeps G r s) : KeepsNext G r (execRowActivationAlert m k bank s) := by
  unfold execRowActivationAlert
  split
  · exact h.next
  · refine .ite h.next ?_
    split
    · exact h.next
    · exact (h.onStack m k _).next

theorem execActivationBackoffEnd_keeps (m k bank : Nat) (h : Keeps G r s) : KeepsNext G r (execActivationBackoffEnd m k bank s) :=
  .ite h.next (h.onStack m k _).next
theorem execDroopVbaseLow_keeps (m k : Nat) (h : Keeps G r s) : KeepsNext G r (execDroopVbaseLow m k s) := .ite h.next (h.onStack m k _).next
theorem execDroopStopEnd_keeps (m k : Nat) (h : Keeps G r s) : KeepsNext G r (execDroopStopEnd m k s) := .ite h.next (h.onStack m k _).next
theorem execBankCountCopy_keeps (m k : Nat) (h : Keeps G r s) : KeepsNext G r (execBankCountCopy m k s) := .ite h.next (h.onStack m k _).next
theorem execStackCountClr_keeps (m k : Nat) (h : Keeps G r s) : KeepsNext G r (execStackCountClr m k s) := .ite h.next (h.onStack m k _).next

theorem execTlbInvalidate_keeps (m : Nat) (asid : Option Nat) (va len : Nat) (h : Keeps G r s) : KeepsNext G r (execTlbInvalidate m asid va len s) :=
  .ite h.next (Keeps.onMod (s := s.dropTlb m asid va len) h m _).next

theorem execPublishableSetup_keeps (m asid va len i0 i1 : Nat) (dom : Bool) (h : Keeps G r s) :
    KeepsNext G r (execPublishableSetup m asid va len i0 i1 dom s) := .ite h.next (Keeps.next (by exact h))

theorem execPublishabilityWithdrawal_keeps (m i : Nat) (h : Keeps G r s) : KeepsNext G r (execPublishabilityWithdrawal m i s) := by
  unfold execPublishabilityWithdrawal
  split
  · exact h.next
  · exact .ite h.next (Keeps.next (Keeps.foldl (fun _ _ hu => hu.foldl (fun _ _ hv => hv.faultNode _ _ _ _ _) _) _ (by exact h)))

/-! ### Extents of the second tier -/

theorem execCxlExtentAccept_keeps (m base len off : Nat) (h : Keeps G r s) : KeepsNext G r (execCxlExtentAccept m base len off s) := by
  unfold execCxlExtentAccept
  split
  · exact h.next
  · exact .ite h.next (h.onMod m _).next

theorem Keeps.dropCached (h : Keeps G r s) (m : Nat) (e : Extent) : Keeps G r (s.dropCached m e) := h
theorem Keeps.dropWindow (h : Keeps G r s) (m : Nat) (e : Extent) : Keeps G r (s.dropWindow m e) := h.dropCached m e
theorem Keeps.reportExtent (h : Keeps G r s) (m : Nat) (e : Extent) (forced : Bool) (lost : Nat) : Keeps G r (s.reportExtent m e forced lost) :=
  (h.dropWindow m e).onMod m _
theorem Keeps.onExtent (h : Keeps G r s) (m off : Nat) (f : Extent → Extent) : Keeps G r (s.onExtent m off f) := h.onMod m _

theorem Keeps.forceExtent (h : Keeps G r s) (m : Nat) (e : Extent) : Keeps G r (s.forceExtent m e) := by
  unfold State.forceExtent
  simp only
  split
  · exact h
  · exact .ite (h.reportExtent m e _ _) ((h.dropCached m e).onExtent m _ _)

theorem execCxlExtentRelease_keeps (m off : Nat) (h : Keeps G r s) : KeepsNext G r (execCxlExtentRelease m off s) := by
  unfold execCxlExtentRelease
  split
  · exact h.next
  · split
    · exact h.next
    · exact .ite h.next (.ite (h.forceExtent m _).next (.ite (h.onExtent m off _).next (.ite h.next (.ite (h.forceExtent m _).next
        (h.reportExtent m _ _ _).next))))

theorem execForcedExtentWithdrawal_keeps (m off : Nat) (h : Keeps G r s) : KeepsNext G r (execForcedExtentWithdrawal m off s) := by
  unfold execForcedExtentWithdrawal
  split
  · exact h.next
  · exact .ite (h.forceExtent m _).next h.next

theorem execXrelValidClear_keeps (m : Nat) (h : Keeps G r s) : KeepsNext G r (execXrelValidClear m s) := .ite h.next (h.onMod m _).next

theorem execHostLinkDown_keeps (m : Nat) (h : Keeps G r s) : KeepsNext G r (execHostLinkDown m s) := by
  unfold execHostLinkDown
  split
  · exact h.next
  · exact .ite h.next ((h.onMod m _).foldl (fun _ _ hu => hu.forceExtent m _) _).next

theorem execHostLinkUp_keeps (m : Nat) (h : Keeps G r s) : KeepsNext G r (execHostLinkUp m s) := (h.onMod m _).next

end Sys2Proof.Machine
end

section
/-! PROOFS. What launches and moving pages keep of the accumulator tables (R75). -/

namespace Sys2Proof.Machine

variable {r s t : State}

/-! ### Queues -/

theorem Keeps.onQueue (h : Keeps False r s) (m q : Nat) (f : Queue → Queue) : Keeps False r (s.onQueue m q f) := h.onMod m _

theorem Keeps.queueMsix (h : Keeps False r s) (m q : Nat) : Keeps False r (queueMsix s m q) := by
  unfold Machine.queueMsix
  split
  · exact h
  · exact .ite (h.raiseMsix _ _) h

theorem Keeps.queueErr (h : Keeps False r s) (m q code : Nat) (w : BitVec 32) : Keeps False r (queueErr s m q code w) :=
  (h.onMod m _).queueMsix m q

theorem execHostQtailWrite_keeps (m q : Nat) (tail : BitVec 32) (h : Keeps False r s) : KeepsNext False r (execHostQtailWrite m q tail s) := by
  unfold execHostQtailWrite
  split
  · exact h.next
  · exact .ite h.next (.ite (h.queueErr _ _ _ _).next (h.onQueue _ _ _).next)

theorem execQcfgEnable_keeps (m q : Nat) (v : Word) (h : Keeps False r s) : KeepsNext False r (execQcfgEnable m q v s) := by
  unfold execQcfgEnable
  split
  · exact h.next
  · exact .ite h.next (.ite (h.onQueue m q _).next (.ite ((h.onQueue m q _).queueErr m q _ _).next (.ite ((h.onQueue m q _).queueErr m q _ _).next
      ((h.onQueue m q _).onQueue m q _).next)))

theorem execQcfgDisable_keeps (m q : Nat) (v : Word) (h : Keeps False r s) : KeepsNext False r (execQcfgDisable m q v s) :=
  .ite h.next (h.onQueue m q _).next

/-! ### Arming, starting and dropping a share -/

theorem newHart_inForm (i : HartId) (m : Nat) (p : Packet) (bank : Tbl Word) (seat : Seat) (n : Nat) : (newHart i m p bank seat n).inForm :=
  List.forall_mem_nil Acc.ok

theorem Keeps.armHart (h : Keeps False r s) (l k m : Nat) (p : Packet) (bank : Tbl Word) (want : List Nat) (c : (Nat × Nat) × Nat) (i : Nat) :
    Keeps False r (s.armHart l k m p bank want c i) :=
  (h.addHart (newHart_inForm _ _ _ _ _ _)).asHart _ fun _ hu => hu.unstow

theorem Keeps.fuseCluster (h : Keeps False r s) (m : Nat) (fused : Bool) (n : Nat) : Keeps False r (s.fuseCluster m fused n) := by
  unfold State.fuseCluster
  split
  · exact h
  · exact .ite h (Keeps.onMod (by exact h) m _)

theorem Keeps.readyCores (h : Keeps False r s) (m : Nat) (p : Packet) (cores : List Nat) : Keeps False r (s.readyCores m p cores) :=
  h.foldl (fun _ _ hu => hu.fuseCluster m _ _) _

theorem Keeps.armShare (h : Keeps False r s) (l k m : Nat) (p : Packet) (bank : Tbl Word) (want : List Nat) (cores : List ((Nat × Nat) × Nat)) :
    Keeps False r (s.armShare l k m p bank want cores) :=
  ((h.onLaunch l _).readyCores m p _).foldl (fun _ _ hu => hu.foldl (fun _ _ hv => hv.armHart l k m p bank want _ _) _) cores

theorem Keeps.startShare (h : Keeps False r s) (l k : Nat) : Keeps False r (s.startShare l k) := (h.onShare l k _).onHarts _ fun _ => .of_eq rfl rfl

theorem Keeps.dropHarts (h : Keeps False r s) (p : Hart → Bool) : Keeps False r (s.dropHarts p) := by
  refine h.of_form fun ⟨wc, wh, wf⟩ => ⟨?_, fun x hx => wh x (List.mem_of_mem_filter hx), wf⟩
  exact (Hart.kept_ite (h := s.cur) (.of_eq (by rfl) (by rfl)) (.refl _)).2 wc

theorem Keeps.dropShare (h : Keeps False r s) (l k : Nat) : Keeps False r (s.dropShare l k) := by
  have hd := (h.onShare l k (fun x => { x with state := .gone })).dropHarts (fun x => x.id.launch == l && x.id.rank == k)
  unfold State.dropShare
  simp only
  split
  · exact hd.onMod _ _
  · exact hd

/-! ### The end of a launch -/

theorem writeRecord_keeps {m q : Nat} {p : Packet} {status first last : Word} {taken : BitVec 32} (h : Keeps False r s)
    (ht : s.writeRecord m q p status first last taken = some t) : Keeps False r t := by
  unfold State.writeRecord at ht
  split at ht
  · cases ht
  · cases ht
    exact (h.queueErr m q _ _).queueMsix m q
  · cases ht
    exact ((h.storeFar _ _ _).storeFar _ _ _).queueMsix m q

theorem Keeps.forgetLaunch (h : Keeps False r s) (l : Nat) : Keeps False r (s.forgetLaunch l) := by
  unfold State.forgetLaunch
  split
  · exact h
  · exact ((h.discardLaunch l _ _).dropHarts _).onLaunch l _

theorem Keeps.writeBackModule (h : Keeps False r s) (m : Nat) : Keeps False r (writeBackModule s m) := h.writeBack _

theorem Keeps.closeLaunch (h : Keeps False r s) (l : Nat) (x : Launch) (status : Word) : Keeps False r (s.closeLaunch l x status) := by
  unfold State.closeLaunch
  split
  · exact h.forgetLaunch l
  · simp only
    split
    · exact h
    · rename_i hrec
      exact (writeRecord_keeps (h.foldl (fun _ _ hu => hu.writeBackModule _) _) hrec).forgetLaunch l

theorem Keeps.noteReport (h : Keeps False r s) (l k : Nat) : Keeps False r (s.noteReport l k) := (h.onShare l k _).onLaunch l _

theorem Keeps.reportEnd (h : Keeps False r s) (l k m : Nat) (x : Launch) : Keeps False r (s.reportEnd l k m x) := by
  have hw {f} := (h.writeBackModule m).onShare l k f
  exact .ite (hw.noteReport l 0) (.ite (hw.noteReport l k) (by exact hw))

theorem Keeps.confirmRanks (h : Keeps False r s) (l : Nat) (x : Launch) : Keeps False r (s.confirmRanks l x) :=
  .ite h ((h.endRanks l x _).onLaunch l _)

theorem execLaunchCompletion_keeps (l rk : Nat) (h : Keeps False r s) : KeepsNext False r (execLaunchCompletion l rk s) := by
  unfold execLaunchCompletion
  split
  · exact h.next
  · rename_i x _
    refine .ite h.next (.ite (.ite h.next ?_) ?_)
    · have hc := h.confirmRanks l x
      simp only
      split
      · exact hc.next
      · exact .ite (hc.closeLaunch l _ _).next hc.next
    · split
      · rename_i m y _ _
        refine .ite h.next ?_
        have he : Keeps False r (if y.endSent then s else s.reportEnd l rk m x) := .ite h (h.reportEnd l rk m x)
        simp only
        split
        · exact he.next
        · exact .ite (he.closeLaunch l _ _).next he.next
      · exact h.next

theorem execRankEndReport_keeps (n : Nat) (h : Keeps False r s) : KeepsNext False r (execRankEndReport n s) := by
  unfold execRankEndReport
  split
  · split
    · exact (h.dropMsg n).next
    · exact .ite ((h.dropMsg n).noteReport _ _).next h.next
  · exact h.next

/-! ### Placement -/

theorem Keeps.takeHead (h : Keeps False r s) (m q : Nat) : Keeps False r (s.takeHead m q) := h.onMod m _

theorem refuse_keeps {m q : Nat} {y : Queue} {p : Packet} {w : Nat} (h : Keeps False r s) (ht : s.refuse m q y p w = some t) : Keeps False r t :=
  writeRecord_keeps (((h.takeHead m q).queueErr m q _ _).writeBackModule m) ht

theorem Keeps.refuseRank (h : Keeps False r s) (l k d f : Nat) : Keeps False r (s.refuseRank l k d f) := h.dropShare l k

theorem armRank_keeps {l k m : Nat} {p : Packet} {want : List Nat} (h : Keeps False r s) (ht : s.armRank l k m p want = some t) :
    Keeps False r t := by
  unfold State.armRank at ht
  split at ht
  · cases ht
  · split at ht
    · cases ht
      exact h.refuseRank _ _ _ _
    · split at ht
      · cases ht
        exact h.refuseRank _ _ _ _
      · cases ht
        exact h.refuseRank _ _ _ _
      · cases ht
      · split at ht
        · cases ht
        · cases ht
          exact (h.armShare l k m p _ want _).onMod m _

theorem placeHead_keeps {m q : Nat} {y : Queue} {p : Packet} {want : List Nat} (h : Keeps False r s) (ht : s.placeHead m q y p want = some t) :
    Keeps False r t := by
  have hl : Keeps False r { s with serial := s.serial + 1, launches := Tbl.put s.serial (newLaunch m q y p s.tick) s.launches } := h
  unfold State.placeHead at ht
  simp only at ht
  split at ht
  · split at ht
    · cases ht
      exact ((hl.armShare _ _ _ _ _ _ _).startShare _ _).takeHead m q
    · cases ht
  · split at ht
    · obtain ⟨v, hv, rfl⟩ := Option.map_eq_some_iff.mp ht
      exact (armRank_keeps (by exact hl) hv).takeHead m q
    · cases ht
      exact Keeps.takeHead (by exact hl) m q

theorem tryHead_keeps {m q : Nat} {want : List Nat} (h : Keeps False r s) (ht : s.tryHead m q want = some t) : Keeps False r t := by
  unfold State.tryHead at ht
  split at ht
  · cases ht
  · simp only at ht
    split at ht
    · cases ht
    · split at ht
      · exact refuse_keeps h ht
      · split at ht
        · cases ht
        · exact placeHead_keeps h ht

theorem execHeadAgeExpiry_keeps (m q : Nat) (h : Keeps False r s) : KeepsNext False r (execHeadAgeExpiry m q s) := by
  unfold execHeadAgeExpiry
  split
  · exact h.next
  · exact .ite (h.onQueue m q _).next h.next

/-! ### Arrival, release and disarm -/

theorem Keeps.abandon (h : Keeps False r s) (l d f : Nat) : Keeps False r (s.abandon l d f) := by
  unfold State.abandon
  split
  · exact h
  · exact .ite h (.ite (h.abortLaunch _ _ _ _ _) (by exact (h.onLaunch l _).dropShare l 0))

theorem Keeps.releaseAll (h : Keeps False r s) (l : Nat) : Keeps False r (s.releaseAll l) := by
  unfold State.releaseAll
  split
  · exact h
  · exact .ite (by exact h.onLaunch l _) h

theorem execMarchArrival_keeps (n : Nat) (h : Keeps False r s) : KeepsNext False r (execMarchArrival n s) := by
  unfold execMarchArrival
  split
  · split
    · exact (h.dropMsg n).next
    · exact .ite h.next (.ite ((h.dropMsg n).countStale _ _).next (((h.dropMsg n).onLaunch _ _).releaseAll _).next)
  · exact h.next

theorem execMarchRelease_keeps (n : Nat) (h : Keeps False r s) : KeepsNext False r (execMarchRelease n s) := by
  unfold execMarchRelease
  split
  · split
    · exact (h.dropMsg n).next
    · exact .ite h.next (.ite ((h.dropMsg n).countStale _ _).next (.ite ((h.dropMsg n).startShare _ _).next (h.dropMsg n).next))
  · exact h.next

theorem execMarchDisarm_keeps (n : Nat) (h : Keeps False r s) : KeepsNext False r (execMarchDisarm n s) := by
  have hd := h.dropMsg n
  unfold execMarchDisarm
  split
  · split
    · exact hd.next
    · exact .ite h.next (.ite (.ite (hd.countStale _ _).next (hd.abandon _ _ _).next) (.ite (hd.dropShare _ _).next
        ((hd.dropShare _ _).countStale _ _).next))
  · exact h.next

theorem execMarchTimeout_keeps (l rk : Nat) (h : Keeps False r s) : KeepsNext False r (execMarchTimeout l rk s) := by
  unfold execMarchTimeout
  split
  · exact h.next
  · split
    · exact h.next
    · split
      · exact h.next
      · refine .ite h.next (.ite ?_ ?_)
        · split
          · exact .ite (h.abandon _ _ _).next h.next
          · exact h.next
        · split
          · exact h.next
          · exact .ite h.next (.ite (Keeps.writeErr (Keeps.dropShare (by exact h) _ _) _ _ _).next (.ite (Keeps.heard (by exact h) _ _).next
              (.ite h.next (Keeps.next (by exact h)))))

/-! ### Lost ranks and ports -/

theorem Keeps.failRequest (h : Keeps False r s) (i : HartId) : Keeps False r (s.failRequest i) := h.onHart i fun _ => .of_eq rfl rfl

theorem Keeps.lose (h : Keeps False r s) (m : Nat) (x : Msg) : Keeps False r (s.lose m x) := by
  unfold State.lose
  split
  · exact h.failRequest _
  · exact h.failRequest _
  · exact h.reportRec _ _ _
  · exact .ite (by exact h) h
  · exact h

theorem execRankLost_keeps (m lost : Nat) (h : Keeps False r s) : KeepsNext False r (execRankLost m lost s) := by
  unfold execRankLost
  split
  · exact h.next
  · refine .ite h.next (Keeps.next (.foldl (fun u c hu => ?_) _ (.foldl (fun u y hu => hu.lose m y) _ (by exact h.onMod m _))))
    exact .ite (hu.abandon _ _ _) hu

theorem Keeps.onPort (h : Keeps False r s) (m p : Nat) (f : Port → Port) : Keeps False r (s.onPort m p f) := .ite (h.onMod m _) h

theorem execConstBankReload_keeps (l rk ka kb : Nat) (image : Word) (h : Keeps False r s) :
    KeepsNext False r (execConstBankReload l rk ka kb image s) := by
  unfold execConstBankReload
  split
  · refine .ite h.next ?_
    split
    · exact h.next
    · exact (h.onShare _ _ _).next
  · exact h.next

/-! ### Moving pages -/

theorem Keeps.flushRange (h : Keeps False r s) (a n : Nat) : Keeps False r (s.flushRange a n) :=
  (h.foldl (fun _ _ hu => hu.mem (memStep_recallLine _ _)) _).foldl (fun _ _ hu => hu.mem (memStep_evictMsc _ _)) _

theorem Keeps.putEntries (h : Keeps False r s) (a : Nat) (es : List Nat) : Keeps False r (s.putEntries a es) := h.storeFar _ _ _

theorem Keeps.rewriteLeaf (h : Keeps False r s) (ranks : List Nat) (m src dst n : Nat) (x : Nat × Nat) :
    Keeps False r (s.rewriteLeaf ranks m src dst n x) := by
  unfold State.rewriteLeaf
  split
  · exact h
  · exact .ite (h.putEntries _ _) h

theorem Keeps.rewriteLeaves (h : Keeps False r s) (src dst n : Nat) : Keeps False r (s.rewriteLeaves src dst n) :=
  h.foldl (fun _ _ hu => hu.rewriteLeaf _ _ _ _ _ _) _

theorem splitLeaf_keeps {ranks : List Nat} {x : Nat × Nat} (h : Keeps False r s) (ht : s.splitLeaf ranks x = some t) : Keeps False r t := by
  unfold State.splitLeaf at ht
  split at ht
  · cases ht
  · cases ht
    exact ((h.onMod _ _).putEntries _ _).putEntries _ _

theorem splitLeaves_keeps (src n f : Nat) : ∀ {s t : State}, Keeps False r s → splitLeaves src n f s = some t → Keeps False r t := by
  induction f with
  | zero => exact fun _ ht => by cases ht
  | succ f ih =>
    intro s t h ht
    unfold splitLeaves at ht
    split at ht
    · cases ht
      exact h
    · obtain ⟨u, hu, hut⟩ := Option.bind_eq_some_iff.mp ht
      exact ih (splitLeaf_keeps h hu) hut

theorem Keeps.withMemory (h : Keeps False r s) (d : Memory) (b : List Nat) : Keeps False r { s with dram := d, badMem := b } := h
theorem Keeps.withFabric (h : Keeps False r s) (f : List Msg) : Keeps False r { s with fabric := f } := h

theorem finishMove_keeps {src dst n : Nat} (h : Keeps False r s) (ht : s.finishMove src dst n = some t) : Keeps False r t := by
  unfold State.finishMove at ht
  obtain ⟨u, hu, hut⟩ := Option.map_eq_some_iff.mp ht
  rw [← hut]
  exact (((((splitLeaves_keeps _ _ _ h hu).flushRange src n).flushRange dst n).withMemory _ _).rewriteLeaves src dst n).withFabric _ |>.onMod _ _

theorem Keeps.startMove (h : Keeps False r s) (src dst n : Nat) : Keeps False r (s.startMove src dst n) := .ite h (h.onMod _ _)
theorem Keeps.migstat (h : Keeps False r s) (m : Nat) (pin : Bool) : Keeps False r (s.migstat m pin) := h.onMod m _

theorem execMigrationTrigger_keeps (m page src frame : Nat) (h : Keeps False r s) : KeepsNext False r (execMigrationTrigger m page src frame s) := by
  unfold execMigrationTrigger
  split
  · exact h.next
  · split
    · exact h.next
    · refine .ite h.next (.ite ?_ (.ite h.next (.ite (((h.onMod m _).migstat _ _).migstat _ _).next (h.startMove _ _ _).next)))
      split
      · exact h.next
      · rename_i hmove
        split at hmove
        · exact ((((finishMove_keeps h hmove).onMod _ _).onMod _ _).migstat _ _ |>.migstat _ _).next
        · cases hmove

theorem execPageTierMigrate_keeps (m src dst size : Nat) (h : Keeps False r s) : KeepsNext False r (execPageTierMigrate m src dst size s) := by
  unfold execPageTierMigrate
  split
  · exact h.next
  · split
    · refine .ite h.next ?_
      split
      · refine .ite (Keeps.next ?_) h.next
        cases hmove : s.finishMove (loc m src) (by assumption : Nat × Nat).1 size with
        | none => exact h
        | some t => exact finishMove_keeps h hmove
      · exact (h.startMove _ _ _).next
    · exact h.next

theorem Keeps.trapHead (h : Keeps False r s) : Keeps False r s.trapHead := by
  unfold State.trapHead
  split
  · exact h
  · exact Keeps.noteMatrix (by exact h) _

theorem execMigrationHoldTimeout_keeps (i : HartId) (h : Keeps False r s) : KeepsNext False r (execMigrationHoldTimeout i s) := by
  unfold execMigrationHoldTimeout
  split
  · exact h.next
  · split
    · exact h.next
    · refine .ite h.next ?_
      split
      · refine (h.asHart _ fun u hu => Keeps.takeTrap (.ite (Keeps.trapHead ?_) ?_) _).next
        · exact hu.settleRequest.cur (.of_eq rfl rfl)
        · exact hu.settleRequest.cur (.of_eq rfl rfl)
      · split
        · exact h.next
        · exact (Keeps.asHart (s := s.holdAgain i) h _ fun _ hu => hu.settleRequest.takeTrap _).next

theorem execMigratableMarkClear_keeps (m page : Nat) (h : Keeps False r s) : KeepsNext False r (execMigratableMarkClear m page s) :=
  .ite h.next (h.onMod m _).next

end Sys2Proof.Machine
end

section
/-! PROOFS. What recovery, the host, power and the acts of the machine keep of the accumulator tables (R75). -/

namespace Sys2Proof.Machine

variable {G : Prop} {r s t : State}

/-! ### Notices, saves and resumption -/

theorem execNoticePost_keeps (i : HartId) (d : BitVec 32) (h : Keeps False r s) : KeepsNext False r (execNoticePost i d s) := by
  unfold execNoticePost
  split
  · exact h.next
  · exact .ite (h.onHart i fun _ => .of_eq (by rfl) (by rfl)).next h.next

theorem Hart.kept_markLeft (s : State) (h : Hart) : h.Kept (s.markLeft h) := .of_eq rfl rfl

theorem Keeps.forceSave (h : Keeps False r s) (i : HartId) : Keeps False r (s.forceSave i) :=
  h.asHart i fun _ hu => hu.settleRequest.stow.cur (((Hart.kept_markLeft _ _).trans (Hart.kept_forced _)).trans (.of_eq rfl rfl))

theorem execForcedPreemption_keeps (i : HartId) (h : Keeps False r s) : KeepsNext False r (execForcedPreemption i s) := by
  unfold execForcedPreemption
  split
  · exact h.next
  · exact .ite (h.forceSave i).next h.next

theorem Keeps.saveShare (h : Keeps False r s) (l k m : Nat) : Keeps False r (s.saveShare l k m) := by
  unfold State.saveShare
  split
  · exact h
  · exact ((h.onMod m _).onShare l k _).foldl (fun _ _ hu => hu.pump m _) _

theorem execLaunchSuspend_keeps (l rk : Nat) (d : BitVec 32) (h : Keeps False r s) : KeepsNext False r (execLaunchSuspend l rk d s) := by
  unfold execLaunchSuspend
  split
  · have hn {p d} := (h.onShare l rk (fun z => { z with state := .suspending })).onHarts p (f := fun x => x.notify d s.tick) fun _ => .of_eq rfl rfl
    exact .ite h.next (.ite (Keeps.next (.ite (hn.saveShare l rk _) hn)) (.ite (h.saveShare l rk _).next h.next))
  · exact h.next

theorem Keeps.seatHart (h : Keeps False r s) (i : HartId) (core slot : Nat) (lanes : List Nat) : Keeps False r (s.seatHart i core slot lanes) :=
  (h.asHart i fun _ hu => hu.cur (.of_eq (by rfl) (by rfl))).asHart i fun _ hu => hu.unstow

theorem Keeps.seatHarts (m core : Nat) (p : Packet) (want : List Nat) (hs : List Hart) :
    ∀ {s : State}, Keeps False r s → Keeps False r (s.seatHarts m core p want hs) := by
  induction hs with
  | nil => exact fun h => h
  | cons x hs ih => exact fun h => ih (h.seatHart _ _ _ _)

theorem Keeps.resumeShare (h : Keeps False r s) (l k m : Nat) (x : Launch) (y : Share) (cores want : List Nat) :
    Keeps False r (s.resumeShare l k m x y cores want) := by
  have hseat {cs : List ((Nat × Nat) × Nat)} {hs : List (Nat × List Hart)} {f : Share → Share} :=
    ((((h.readyCores m x.pkt (cs.map (·.2))).foldl (fun _ c hu => Keeps.seatHarts m c.1 x.pkt want c.2 hu) hs).onShare l k f).foldl
      (fun _ c hu => hu.onMod m (fun z => z.restoreHeld c y.held)) cs)
  unfold State.resumeShare
  simp only
  split
  · exact Keeps.abandon (.foldl (fun _ _ hu => hu.pump m _) _ (.ite (hseat.startShare l k) (by exact hseat))) _ _ _
  · exact .foldl (fun _ _ hu => hu.pump m _) _ (.ite (hseat.startShare l k) (by exact hseat))

theorem execLaunchResume_keeps (l rk : Nat) (cores want : List Nat) (h : Keeps False r s) : KeepsNext False r (execLaunchResume l rk cores want s) := by
  unfold execLaunchResume
  split
  · exact .ite (h.resumeShare _ _ _ _ _ _ _).next h.next
  · exact h.next

theorem execHartResume_keeps (i : HartId) (lanes : Nat) (h : Keeps False r s) : KeepsNext False r (execHartResume i lanes s) := by
  unfold execHartResume
  split
  · exact .ite ((h.seatHart i _ _ _).onHart i fun _ => .of_eq (by rfl) (by rfl)).next h.next
  · exact h.next

/-! ### Placement by priority -/

theorem placeAt_keeps {m prio : Nat} {want : List Nat} (h : Keeps False r s) (ht : s.placeAt m prio want = some t) : Keeps False r t := by
  unfold State.placeAt at ht
  split at ht
  · cases ht
  · split at ht
    · rename_i hsaved
      cases ht
      split at hsaved
      · cases hsaved
      · obtain ⟨c, _, hc⟩ := List.exists_of_findSome?_eq_some hsaved
        obtain ⟨cs, _, rfl⟩ := Option.map_eq_some_iff.mp hc
        exact h.resumeShare _ _ _ _ _ _ _
    · split at ht
      · rename_i hmarch
        cases ht
        obtain ⟨c, _, hc⟩ := List.exists_of_findSome?_eq_some hmarch
        exact armRank_keeps (h.onMod m _) hc
      · obtain ⟨q, _, hq⟩ := List.exists_of_findSome?_eq_some ht
        split at hq
        · cases hq
        · exact tryHead_keeps h hq

/-- The first level at which something is placed. -/
theorem placeFirst_keeps (h : Keeps False r s) (m : Nat) (want l : List Nat) : Keeps False r ((l.findSome? (fun p => s.placeAt m p want)).getD s) := by
  cases hp : l.findSome? (fun p => s.placeAt m p want) with
  | none => exact h
  | some u =>
    obtain ⟨p, _, hu⟩ := List.exists_of_findSome?_eq_some hp
    exact placeAt_keeps h hu

theorem execSchedulerPlace_keeps (m : Nat) (want : List Nat) (h : Keeps False r s) : KeepsNext False r (execSchedulerPlace m want s) :=
  .ite h.next (placeFirst_keeps h m want _).next

theorem execMarchPacketReceive_keeps (n : Nat) (want : List Nat) (h : Keeps False r s) : KeepsNext False r (execMarchPacketReceive n want s) := by
  unfold execMarchPacketReceive
  split
  · split
    · exact (h.dropMsg n).next
    · split
      · exact (h.dropMsg n).next
      · exact .ite h.next (placeFirst_keeps ((h.dropMsg n).onMod _ _) _ want _).next
  · exact h.next

/-! ### Watchdog and deadlock -/

theorem execWatchdogFire_keeps (i : HartId) (h : Keeps False r s) : KeepsNext False r (execWatchdogFire i s) := by
  unfold execWatchdogFire
  split
  · exact h.next
  · split
    · exact h.next
    · exact .ite (h.asHart _ fun u hu => Keeps.takeTrap (Keeps.trapHead (hu.settleRequest.cur (.of_eq (by rfl) (by rfl)))) _).next h.next

theorem Keeps.deadlock (h : Keeps False r s) (m l : Nat) (x : Launch) : Keeps False r (s.deadlock m l x) := by
  unfold State.deadlock
  simp only
  split
  · exact h
  · exact (((h.foldl (fun _ k hu => hu.forceSave k.id) _).foldl (fun _ _ hu => hu.saveShare l _ _) _).onLaunch l _).reportRec l m _

theorem Keeps.checkLaunch (h : Keeps False r s) (m l : Nat) : Keeps False r (s.checkLaunch m l) := by
  unfold State.checkLaunch
  split
  · exact h
  · exact .ite h (.ite (h.deadlock m l _) (h.onShare l 0 _))

theorem execDeadlockCheck_keeps (m : Nat) (h : Keeps False r s) : KeepsNext False r (execDeadlockCheck m s) := by
  unfold execDeadlockCheck
  split
  · exact h.next
  · exact .ite ((h.onMod m _).foldl (fun _ _ hu => hu.checkLaunch m _) _).next h.next

/-! ### Acts of firmware -/

theorem Keeps.resumeHart (h : Keeps False r s) (i : HartId) : Keeps False r (s.resumeHart i) := by
  unfold State.resumeHart
  split
  · exact h
  · exact .ite h (.ite ((h.asHart i fun _ hu => hu.settleRequest.stow).onHart i fun _ => .of_eq rfl rfl) (h.onHart i fun _ => .of_eq rfl rfl))

theorem Keeps.applyResume (h : Keeps False r s) (i : HartId) (node : Option NodeRef) : Keeps False r (s.applyResume i node) := by
  unfold State.applyResume
  split
  · exact h.onNode _ _ _
  · exact .ite (h.onLaunch _ _) (h.resumeHart i)

theorem execErrrecActResume_keeps (m q : Nat) (h : Keeps False r s) : KeepsNext False r (execErrrecActResume m q s) := by
  unfold execErrrecActResume
  split
  · exact h.next
  · refine .ite h.next ?_
    split
    · exact h.next
    · split
      · exact h.next
      · exact .ite (h.applyResume _ _).next (Keeps.next (by exact h))

theorem Keeps.actAbort (h : Keeps False r s) (m : Nat) (e : ErrRec) : Keeps False r (s.actAbort m e) := by
  unfold State.actAbort
  split
  · exact h
  · exact h.abortLaunch _ _ _ _ _

theorem execErrrecActAbort_keeps (m q : Nat) (h : Keeps False r s) : KeepsNext False r (execErrrecActAbort m q s) := by
  unfold execErrrecActAbort
  split
  · exact h.next
  · exact .ite (h.actAbort m _).next h.next

theorem execDomainActAbort_keeps (m : Nat) (h : Keeps False r s) : KeepsNext False r (execDomainActAbort m s) := by
  unfold execDomainActAbort
  split
  · exact h.next
  · exact .ite (h.actAbort m _).next h.next

theorem execActForward_keeps (n : Nat) (h : Keeps False r s) : KeepsNext False r (execActForward n s) := by
  unfold execActForward
  split
  · split
    · exact (h.dropMsg n).next
    · exact .ite h.next (.ite ((h.dropMsg n).applyResume _ _).next ((h.dropMsg n).abortLaunch _ _ _ _ _).next)
  · exact h.next

theorem execErrorRecordForward_keeps (n : Nat) (h : Keeps False r s) : KeepsNext False r (execErrorRecordForward n s) := by
  unfold execErrorRecordForward
  split
  · split
    · exact (h.dropMsg n).next
    · exact .ite ((h.dropMsg n).writeErr _ _ _).next h.next
  · exact h.next

theorem Keeps.writeNext (h : Keeps False r s) (m q : Nat) : Keeps False r (s.writeNext m q) := by
  unfold State.writeNext
  split
  · exact h
  · split
    · exact h
    · exact (h.onMod m _).putErr _ _ _

theorem execErrrecValidClear_keeps (m q : Nat) (h : Keeps False r s) : KeepsNext False r (execErrrecValidClear m q s) :=
  .ite h.next ((h.onMod m _).writeNext m q).next

theorem execRegisterWrite_keeps (m off : Nat) (v : Word) (h : Keeps False r s) : KeepsNext False r (execRegisterWrite m off v s) :=
  .ite (h.onMod m _).next h.next

theorem execErrcntClr_keeps (m : Nat) (h : Keeps False r s) : KeepsNext False r (execErrcntClr m s) := .ite (h.onMod m _).next h.next

/-! ### Storage errors, the TAP, boot and power -/

theorem refill_keeps {m : Nat} {w : SramWord} (h : Keeps False r s) (ht : s.refill m w = some t) : Keeps False r t := by
  unfold State.refill at ht
  split at ht
  · cases ht
    exact h
  · split at ht
    · cases ht
    · cases ht
      exact h
  · split at ht
    · cases ht
    · cases ht
      exact h
  · cases ht

theorem Keeps.poisonWord (h : Keeps False r s) (w : SramWord) : Keeps False r (s.poisonWord w) := by
  unfold State.poisonWord
  split
  · exact h.spoil _ _
  · exact .ite h (h.spoil _ _)
  · exact h.spoil _ _
  · exact h

theorem execPatrolSweep_keeps (m : Nat) (w : SramWord) (f : Finding) (h : Keeps False r s) : KeepsNext False r (execPatrolSweep m w f s) := by
  unfold execPatrolSweep
  split
  · exact h.next
  · refine .ite h.next ?_
    split
    · exact h.next
    · exact (h.onMod m _).next
    · refine .ite h.next ?_
      split
      · exact ((refill_keeps h (by assumption)).onMod m _).next
      · exact ((h.poisonWord w).onMod m _).next

theorem Keeps.tapOut (h : Keeps False r s) (m : Nat) (v : Word) : Keeps False r (s.tapOut m v) := .ite (h.onMod m _) h

theorem execTapSolstat_keeps (m : Nat) (h : Keeps False r s) : KeepsNext False r (execTapSolstat m s) := by
  unfold execTapSolstat
  split
  · exact h.next
  · exact (h.tapOut m _).next

theorem execTapSolsel_keeps (m : Nat) (v : Word) (h : Keeps False r s) : KeepsNext False r (execTapSolsel m v s) := .ite (h.onMod m _).next h.next

theorem execTapSoldata_keeps (m : Nat) (h : Keeps False r s) : KeepsNext False r (execTapSoldata m s) := by
  unfold execTapSoldata
  split
  · exact h.next
  · exact .ite ((h.tapOut m _).draw.onMod m _).next h.next

theorem execTapSolfrz_keeps (m : Nat) (h : Keeps False r s) : KeepsNext False r (execTapSolfrz m s) := .ite (h.freezeModule m _).next h.next
theorem execMboebFreeze_keeps (m : Nat) (h : Keeps False r s) : KeepsNext False r (execMboebFreeze m s) := .ite (h.freezeModule m _).next h.next
theorem execSolsticeUnlock_keeps (m : Nat) (req : List Byte) (h : Keeps False r s) : KeepsNext False r (execSolsticeUnlock m req s) :=
  .ite (h.onMod m _).next h.next
theorem execVcoreRemoval_keeps (m : Nat) (h : Keeps False r s) : KeepsNext False r (execVcoreRemoval m s) := (h.onMod m _).next

theorem execSpdmRequest_keeps (m : Nat) (req : List Byte) (h : Keeps False r s) : KeepsNext False r (execSpdmRequest m req s) := by
  unfold execSpdmRequest
  split
  · exact h.next
  · exact .ite (h.onMod m _).next h.next

theorem Keeps.discardModule (h : Keeps False r s) (m : Nat) : Keeps False r (s.discardModule m) :=
  (h.dropHarts fun x => x.mod == m && !decide (x.phase = .absent)).of_form fun ⟨wc, wh, wf⟩ => ⟨wc, wh, fun f hf => wf f (List.mem_of_mem_filter hf)⟩

theorem Keeps.clearChip (h : Keeps False r s) (m : Nat) : Keeps False r (s.clearChip m) := h

theorem Keeps.warmResetModule (h : Keeps False r s) (m : Nat) : Keeps False r (warmResetModule s m) := by
  unfold Machine.warmResetModule
  split
  · exact h
  · exact .ite h ((((h.mem (memStep_drainMsc s m)).discardModule m).clearChip m).onMod m _)

theorem execPowerOnBoot_keeps (m : Nat) (image signature : List Byte) (key version : Nat) (h : Keeps False r s) :
    KeepsNext False r (execPowerOnBoot m image signature key version s) := by
  unfold execPowerOnBoot
  simp only
  split
  · exact Keeps.next (by exact h)
  · exact .ite (h.onMod m _).next h.next

theorem Keeps.gateCluster (h : Keeps False r s) (m n : Nat) : Keeps False r (s.gateCluster m n) := .ite h (Keeps.onMod (by exact h) m _)

theorem execD3hotEntry_keeps (m : Nat) (h : Keeps False r s) : KeepsNext False r (execD3hotEntry m s) :=
  .ite (((h.writeBackModule m).foldl (fun _ _ hu => hu.gateCluster m _) _).onMod m _).next h.next

theorem execPowerRemoval_keeps (m : Nat) (h : Keeps False r s) : KeepsNext False r (execPowerRemoval m s) := by
  unfold execPowerRemoval
  split
  · exact h.next
  · exact (Keeps.onMod (by exact (h.discardModule m).clearChip m) m _).next

theorem execThermalStepDown_keeps (m n : Nat) (h : Keeps False r s) : KeepsNext False r (execThermalStepDown m n s) := .ite (h.onMod m _).next h.next
theorem execThermalTrip_keeps (m n : Nat) (h : Keeps False r s) : KeepsNext False r (execThermalTrip m n s) := .ite (h.freezeModule m _).next h.next

theorem execPowerCapWindow_keeps (m : Nat) (k : Fin 4) (h : Keeps False r s) : KeepsNext False r (execPowerCapWindow m k s) := by
  unfold execPowerCapWindow
  split
  · exact h.next
  · exact .ite h.next (h.draw.onMod m _).next

/-! ### Acts of the machine -/

theorem Keeps.actOn (h : Keeps False r s) (m : Nat) {f : State → State} (hf : Keeps False r (f s)) : Keeps False r (s.actOn m f) := .ite hf h

theorem Keeps.walkFor (h : Keeps False r s) (i : HartId) (va : Nat) (far : Option Nat) : Keeps False r (s.walkFor i va far) := by
  unfold State.walkFor
  split
  · exact h
  · exact h.actOn _ (h.asHart i fun _ hu => hu.fillTlb _ _)

theorem Keeps.fetchFill (h : Keeps G r s) (va : Nat) : Keeps G r (s.fetchFill va) := by
  unfold State.fetchFill
  split
  · exact h
  · exact .ite h (h.fillCopy _)

theorem Keeps.fillFetch (h : Keeps G r s) (va : Nat) : Keeps G r (s.fillFetch va) := by
  unfold State.fillFetch
  split
  · exact h
  · split
    · exact h
    · exact h.fetchFill va

theorem Keeps.retryAbort (h : Keeps False r s) (i : HartId) : Keeps False r (s.retryAbort i) := by
  unfold State.retryAbort
  split
  · exact h
  · exact h.actOn _ (.ite (h.abortLaunch _ _ _ _ _) h)

theorem Keeps.stackAct (h : Keeps False r s) (m k : Nat) (f : Stack → Stack) : Keeps False r (s.stackAct m k f) := .ite (h.onStack m k f) h

theorem Keeps.runAct (h : Keeps False r s) (a : Act) : Keeps False r (runAct a s) := by
  cases a with
  | evictL1 core line => exact h.actOn _ (h.mem (memStep_evictL1 _ _ _))
  | evictL2 line => exact h.actOn _ (h.mem (memStep_recallLine _ _))
  | evictMsc line => exact h.actOn _ (h.mem (memStep_evictMsc _ _))
  | fillTlb i va far => exact h.walkFor i va far
  | dropTlb n => exact h
  | fillFetch i va =>
    unfold Machine.runAct
    simp only
    split
    · exact h.actOn _ (h.asHart i fun _ hu => hu.fillFetch va)
    · exact h
  | dropFetch n => exact h
  | gate m n => exact h.actOn m (h.gateCluster m n)
  | ungate m n => exact h.actOn m (h.onMod m _)
  | threshold m k v => exact h.actOn m (.ite (h.stackAct m k _) h)
  | settings m v => exact h.actOn m (.ite (h.onMod m _) h)
  | rowOpen m k bank row => exact h.actOn m (h.stackAct m k _)
  | startLimit m k => exact h.actOn m (h.stackAct m k _)
  | tier2Error m pa =>
    refine h.actOn m ?_
    split
    · split
      · exact .ite (h.spoilDram m pa) h
      · exact h
    · exact h
  | retryAbort i => exact h.retryAbort i
  | spareFrame m f => exact h.actOn m (h.onMod m _)
  | keepSpace m ranks root => exact h.actOn m (h.onMod m _)
  | pcieError m e => exact h.actOn m (h.onMod m _)

end Sys2Proof.Machine
end

section
/-! PROOFS. What control transfer, matrix, attention and vocabulary instructions keep of the general registers and of the accumulator tables
(R62, R75). -/

namespace Sys2Proof.Machine

variable {G : Prop} {r s t : State}

/-! ### Control transfer -/

theorem Keeps.jumpLink (h : Keeps G r s) {d : Fin 32} (hd : G → d = 0) (v target : Word) : (s.jumpLink d v target).Keep G r := by
  have hj := h.jumpTo target
  unfold State.jumpLink
  split
  · rename_i heq
    rw [heq] at hj
    exact Keeps.setG hj hd v
  · exact hj

theorem execBCc_keeps (p : S) (h : Keeps G r s) : KeepsNext G r (execBCc p s) := Res.Keep.retire (.ite (h.jumpTo _) h.ok)

theorem execLoop_keeps (p : S) (h : Keeps G r s) (hd : G → p.a.gidx = 0) : KeepsNext G r (execLoop p s) :=
  Res.Keep.retire (.ite (h.jumpLink hd _ _) (h.setG hd _).ok)

/-! ### Tiles -/

theorem Acc.ok.put {a : Acc} (h : a.ok) (k c v : Nat) : (a.put k c v).ok := ⟨Tbl.rising_store _ _ _ h.1, h.2⟩
theorem Acc.ok.putM {a : Acc} (h : a.ok) (k v : Nat) : (a.putM k v).ok := ⟨h.1, Tbl.rising_store _ _ _ h.2.1, h.2.2⟩
theorem Acc.ok.putL {a : Acc} (h : a.ok) (k v : Nat) : (a.putL k v).ok := ⟨h.1, h.2.1, Tbl.rising_store _ _ _ h.2.2⟩

theorem Acc.ok.retag {a : Acc} (h : a.ok) (v : BitVec 16) : Acc.ok { a with tag := v } := h

theorem Acc.ok_ite {a b : Acc} {c : Prop} [Decidable c] (ha : a.ok) (hb : b.ok) : (if c then a else b).ok := by
  split
  · exact ha
  · exact hb

/-- A tile changed entry by entry. -/
theorem Acc.ok_foldl {β : Type} {f : Acc → β → Acc} (hf : ∀ a b, a.ok → (f a b).ok) (l : List β) : ∀ {a : Acc}, a.ok → (l.foldl f a).ok := by
  induction l with
  | nil => exact id
  | cons b l ih => exact fun h => ih (hf _ b h)

/-- A tile changed entry by entry, with flags. -/
theorem Acc.ok_foldl_fst {β γ : Type} {f : Acc × γ → β → Acc × γ} (hf : ∀ x b, x.1.ok → (f x b).1.ok) (l : List β) :
    ∀ {x : Acc × γ}, x.1.ok → (l.foldl f x).1.ok := by
  induction l with
  | nil => exact id
  | cons b l ih => exact fun h => ih (hf _ b h)

theorem Acc.ok.putCols {a : Acc} (h : a.ok) (k : Nat) (vs : List Nat) : (a.putCols k vs).ok := Acc.ok_foldl (fun _ _ h => h.put _ _ _) _ h

theorem Acc.ok.putHeap {a : Acc} (h : a.ok) (k kh : Nat) (l : List (Nat × Nat)) : (a.putHeap k kh l).ok :=
  Acc.ok_foldl (fun _ _ h => (h.put _ _ _).put _ _ _) _ h

theorem Tbl.rising_foldr {α β : Type} {f : β → Tbl α → Tbl α} (hf : ∀ b t, Tbl.rising t = true → Tbl.rising (f b t) = true) :
    ∀ l : List β, Tbl.rising (l.foldr f []) = true
  | [] => rfl
  | b :: l => hf b _ (Tbl.rising_foldr hf l)

theorem Acc.ok.recast {a : Acc} (h : a.ok) (b : Bool) : (a.recast b).ok :=
  Acc.ok_ite h (Acc.ok_ite ⟨Tbl.rising_foldr (fun _ _ ht => Tbl.rising_store _ _ _ (Tbl.rising_store _ _ _ ht)) _, h.2⟩
    ⟨rising_foldr_store _ _, h.2⟩)

theorem Acc.ok.mmovPut {a : Acc} (h : a.ok) (st : Bool) (row0 i v : Nat) : (a.mmovPut st row0 i v).ok :=
  Acc.ok_ite (Acc.ok_ite (h.putM _ _) (h.putL _ _)) (h.put _ _ _)

theorem Acc.ok.chunkRow {a : Acc} (h : a.ok) (k n kn : Nat) (row : Row) (b : ChunkB) : (a.chunkRow k n kn row b).1.ok :=
  Acc.ok_foldl_fst (fun _ _ h => h.put _ _ _) _ h

/-- Each tile of the acting hart is in form. -/
theorem Keeps.acc (h : Keeps G r s) (c : Nat) (w : r.tilesInForm) : (s.acc c).ok := by
  unfold State.acc
  rw [List.getD_eq_getElem?_getD]
  cases hc : s.cur.accs[c]? with
  | none => exact Acc.ok_fresh
  | some a => exact (h.2 w).1 a (List.mem_of_getElem? hc)

theorem Keeps.setUntagged (h : Keeps G r s) (c : Nat) {a : Acc} (ha : r.tilesInForm → a.ok) : Keeps G r (s.setUntagged c a) := h.setAcc c ha

theorem Keeps.stopRow (h : Keeps G r s) (rows k : Nat) : Keeps G r (s.stopRow rows k) := h

theorem Keeps.nanRow (h : Keeps G r s) (c k : Nat) : Keeps G r (s.nanRow c k) :=
  h.setAcc c fun w => ((Acc.ok_foldl (fun _ _ h => h.put _ _ _) _ (h.acc c w)).putM _ _).putL _ _

theorem Keeps.cleanRows (h : Keeps G r s) (c : Nat) (rows : List Nat) : Keeps G r (s.cleanRows c rows) := .ite h (by exact h)

/-! ### Row by row -/

theorem rowLoop_keep (cs : List Nat) {step : Nat → State → Except Stop State}
    (hstep : ∀ k s t, Keeps G r s → step k s = .ok t → Keeps G r t) (rows : List Nat) :
    ∀ {s : State}, Keeps G r s → (rowLoop cs step rows s).Keep G r := by
  induction rows with
  | nil => exact fun h => h
  | cons k rows ih =>
    intro s h
    unfold rowLoop
    split
    · exact ((h.nanRow _ _).stopRow _ _).stop _ _
    · split
      · exact (h.stopRow _ _).stop _ _
      · exact ih (hstep _ _ _ h (by assumption))

/-- Rows each of which is always performed. -/
theorem rowLoop_keep_ok (cs : List Nat) {f : Nat → State → State} (hf : ∀ k s, Keeps G r s → Keeps G r (f k s)) (rows : List Nat)
    (h : Keeps G r s) : (rowLoop cs (fun k s => .ok (f k s)) rows s).Keep G r :=
  rowLoop_keep cs (fun k s _ hs e => by cases e; exact hf k s hs) rows h

theorem Keeps.storeRows (h : Keeps G r s) (cs : List Nat) (n : Nat) (rows : List Nat) (make : Nat → Except Stop (List Put × Flags)) :
    (s.storeRows cs n rows make).Keep G r := by
  have hw {fl qs ps} : Keeps G r (((s.raise fl).settleRuns true qs).putAll n ps) := ((h.raise _).settleRuns _ _).putAll _ _
  unfold State.storeRows
  simp only
  split
  · exact hw
  · split
    · exact ((hw.nanRow _ _).stopRow _ _).stop _ _
    · exact (hw.stopRow _ _).stop _ _

theorem Res.Keep.keeping {x : Res} (hx : x.Keep G r) (spans : List (Nat × Nat)) : (x.keeping spans).Keep G r :=
  hx.onStop fun _ h => .ite h (h.keepSpans _)

theorem Keeps.noD (h : Keeps G r s) {w : Want} {spans : List (Nat × Nat)} {body : State → Res} (hb : (body s).Keep G r) :
    (s.noD w spans body).Keep G r := by
  unfold State.noD
  split
  · exact h
  · exact hb.keeping _

theorem Keeps.kbBasesOk (h : Keeps G r s) {fmt : Nat} {bases : List Nat} {body : State → Res} (hb : (body s).Keep G r) :
    (kbBasesOk fmt bases s body).Keep G r := by
  unfold Machine.kbBasesOk
  split
  · exact h
  · exact hb

/-! ### Multiplies -/

theorem Keeps.bandUpdate (x : Mul) (kn : Nat) (b : ChunkB) (rows : List (Nat × Row)) :
    ∀ {s : State}, Keeps G r s → Keeps G r (s.bandUpdate x kn b rows) := by
  induction rows with
  | nil => exact fun h => h
  | cons q rows ih => exact fun h => ih ((h.raise _).setAcc _ fun w => (h.acc _ w).chunkRow _ _ _ _ _)

theorem bandLoop_keeps (x : Mul) (b : Except Stop ChunkB) (k0 kn pos f : Nat) :
    ∀ {r0 : Nat} {fetched : Bool} {o : MulOut}, Keeps G r o.s → Keeps G r (bandLoop x b k0 kn pos f r0 fetched o).s := by
  induction f with
  | zero => exact fun h => h
  | succ f ih =>
    intro r0 fetched o h
    unfold bandLoop
    split
    · exact h
    · simp only
      split
      · exact h.nanRow _ _
      · split
        · exact h
        · split
          · exact .ite h (h.raise _)
          · exact ih (by exact Keeps.bandUpdate x kn _ _ (.ite h (h.raise _)))

theorem chunkLoop_keeps (x : Mul) (cs : List (Nat × Nat)) : ∀ {r0 : Nat} {o : MulOut}, Keeps G r o.s → Keeps G r (chunkLoop x cs r0 o).s := by
  induction cs with
  | nil => exact fun h => h
  | cons c cs ih =>
    intro r0 o h
    unfold chunkLoop
    simp only
    split
    · exact bandLoop_keeps x _ _ _ _ _ h
    · exact ih (bandLoop_keeps x _ _ _ _ _ h)

theorem Keeps.multiply (h : Keeps G r s) (x : Mul) : (s.multiply x).Keep G r := by
  have hs : Keeps G r (if x.ordered || s.cur.unf.valid then s
      else { s.draw with cur := { s.cur with unf := { s.cur.unf with order := s.free } } }) := .ite h (by exact h)
  have ho {cs r0 l} := (chunkLoop_keeps x cs (r0 := r0) (o := ⟨_, [], none⟩) hs).countReads l
  unfold State.multiply
  simp only
  split
  · exact ho
  · exact (ho.stopRow _ _).stop _ _

theorem Keeps.mulRun (h : Keeps G r s) (x : Mul) : (s.mulRun x).Keep G r :=
  .ite h.ok (h.kbBasesOk (h.kbBasesOk (h.noD (h.multiply x))))

theorem mmaBody_keep (p : M) (ordered : Bool) (h : Keeps G r s) : (mmaBody p ordered s).Keep G r := h.checked (h.mulRun _)

theorem mgrpBody_keep (p : M) (ordered : Bool) (h : Keeps G r s) : (mgrpBody p ordered s).Keep G r := by
  unfold mgrpBody
  refine h.checkedAt ?_
  split
  · exact h.stop _ _
  · exact h.checkedAt ((h.countReads _).checked ((h.countReads _).mulRun _))

theorem execEqclaim_keeps (p : R2) (h : Keeps G r s) (hd : G → gd p.d = 0) : KeepsNext G r (execEqclaim p s) := by
  refine Res.Keep.retire (.ite (h.precise _ _ _) ?_)
  split
  · exact h.stop _ _
  · simp only
    split
    · exact h.stop _ _
    · split
      · exact h.stop _ _
      · refine .ite (h.precise _ _ _) (.ite (h.precise _ _ _) ?_)
        split
        · exact h.stop _ _
        · exact Keeps.setD (((h.settleFor _ _).putPhys _ _ _).countReads _) hd _

/-! ### Tiles loaded, stored, moved and scaled -/

theorem execMzero_keeps (p : R1) (h : Keeps G r s) : KeepsNext G r (execMzero p s) :=
  h.runV (h.checked ((h.setAcc _ fun _ => ⟨rfl, rfl, rfl⟩).cleanRows _ _).ok)

theorem Keeps.loadRow (h : Keeps G r s) (c k : Nat) (bf : Bool) (vs : List Nat) : Keeps G r (s.loadRow c k bf vs) :=
  Keeps.cleanRows (h.setAcc c fun w =>
    Acc.ok.retag (((Acc.ok_foldl (fun _ _ h => h.put _ _ _) _ ((h.acc c w).recast bf)).putM _ _).putL _ _) 0) _ _

theorem execMld_keeps (p : M) (h : Keeps G r s) : KeepsNext G r (execMld p s) := by
  refine h.runV (h.checked (.ite h.ok (h.noD ?_)))
  generalize hx : rowLoop _ _ _ _ = x
  have hk : x.Keep G r := by
    rw [← hx]
    refine rowLoop_keep [] (fun k u t hu e => ?_) _ h
    split at e
    · cases e
    · cases e
      exact (hu.countReads _).loadRow _ _ _ _
  split
  · exact Keeps.foldl (fun _ _ hu => hu.loadRow _ _ _ _) _ (by exact hk)
  · exact hk

theorem execMst_keeps (p : M) (h : Keeps G r s) : KeepsNext G r (execMst p s) := h.runV (h.checked (.ite h.ok (h.noD (h.storeRows _ _ _ _))))

theorem mmovOut_keep (p : R2) (st : Bool) (h : Keeps G r s) : (mmovOut p st s).Keep G r := by
  refine h.checked ?_
  simp only
  split
  · exact h.writeVec _ _
  · exact .ite ((((h.writeVec _ _).nanRow _ _).stopRow _ _).stop _ _) ((((h.writeVec _ _).stopRow _ _).stopAt _).stop _ _)

theorem mmovIn_keep (p : R2) (st : Bool) (h : Keeps G r s) : (mmovIn p st s).Keep G r :=
  h.checked (h.readAll (h.setAcc _ fun w => Acc.ok_foldl (fun _ _ h => h.mmovPut _ _ _ _) _ (h.acc _ w) : Keeps G r _))

theorem Keeps.scaleRow (h : Keeps G r s) (p : R2) (c k : Nat) : Keeps G r (scaleRow p c k s) := by
  refine (h.raise _).setAcc c fun w => Acc.ok_foldl_fst (γ := Flags) (fun x n hx => ?_) _ (h.acc c w)
  split
  · exact hx
  · exact hx.put _ _ _

theorem execMscale_keeps (p : R2) (h : Keeps G r s) : KeepsNext G r (execMscale p s) :=
  h.runV (h.checked (h.readAll (rowLoop_keep_ok _ (fun _ _ hs => hs.scaleRow p _ _) _ h)))

/-! ### Attention -/

theorem softUpdate_keeps {c k n : Nat} {scores : List Nat} {values : Except Stop (List Row)} {first : Bool} (h : Keeps G r s)
    (ht : softUpdate s c k n scores values first = .ok t) : Keeps G r t := by
  unfold softUpdate at ht
  simp only at ht
  split at ht
  · cases ht
    exact (h.raise _).setUntagged c fun w => (((h.acc c w).putCols _ _).putM _ _).putL _ _
  · cases ht
    exact h.setUntagged c (h.acc c)
  · split at ht
    · cases ht
    · cases ht
      exact Keeps.setUntagged (.ite ((h.raise _).countReads _) (h.raise _)) c
        fun w => (((h.acc c w).putCols _ _).putM _ _).putL _ _

theorem execMsoft_keeps (p : M) (h : Keeps G r s) : KeepsNext G r (execMsoft p s) :=
  h.runV (h.checked (.ite h.ok (h.kbBasesOk (h.noD (rowLoop_keep _ (fun _ _ _ hs e => softUpdate_keeps hs e) _ h)))))

theorem execMmask_keeps (p : R2) (h : Keeps G r s) : KeepsNext G r (execMmask p s) :=
  h.runV (h.checked (rowLoop_keep_ok _ (fun _ _ hs => hs.setUntagged _ fun w =>
    Acc.ok_foldl (fun _ _ h => Acc.ok_ite (h.put _ _ _) h) _ (hs.acc _ w)) _ h))

theorem Keeps.mergeRow (h : Keeps G r s) (d a n k : Nat) : Keeps G r (mergeRow s d a n k) := by
  unfold Machine.mergeRow
  simp only
  split
  · exact h.setUntagged d (h.acc d)
  · exact (h.raise _).setUntagged d fun w => (((h.acc d w).putCols _ _).putM _ _).putL _ _

theorem execMmerge_keeps (p : R2) (h : Keeps G r s) : KeepsNext G r (execMmerge p s) :=
  h.runV (h.checked (.ite h.ok (rowLoop_keep_ok _ (fun _ _ hs => hs.mergeRow _ _ _ _) _ h)))

theorem execMfin_keeps (p : M) (h : Keeps G r s) : KeepsNext G r (execMfin p s) := h.runV (h.checked (.ite h.ok (h.noD (h.storeRows _ _ _ _))))

/-! ### The vocabulary -/

theorem stripChecks_keep (p : M) (grad : Bool) (tagOk : State → Proj → Bool) {body : Strip → State → Res}
    (hb : ∀ x t, Keeps G r t → (body x t).Keep G r) (h : Keeps G r s) : (stripChecks p grad tagOk body s).Keep G r := by
  unfold stripChecks
  refine h.checkedAt ?_
  split
  · exact h.stop _ _
  · refine h.checked (h.kbBasesOk (h.kbBasesOk (h.checkedAt (h.checkedAt (h.noD ?_)))))
    split
    · exact h.stop _ _
    · split
      · exact h.stop _ _
      · exact (hb _ _ (h.countReads _)).keeping _

theorem projRow_keeps {x : Strip} {c k : Nat} {init : Bool} (h : Keeps G r s) (ht : projRow x c init k s = .ok t) : Keeps G r t := by
  have htag {a : Acc} (ha : r.tilesInForm → a.ok) (w : r.tilesInForm) : (if init then { a with tag := x.d.tag } else a).ok := Acc.ok_ite (ha w) (ha w)
  have hinit (w : r.tilesInForm) : (if init then
      (if x.d.lbl then (((((s.acc c).putM k negInf).putL k 0).putHeap k x.d.kh []).put k 31 FT.fp32.nan).put k 63 0xFFFFFFFF
        else (((s.acc c).putM k negInf).putL k 0).putHeap k x.d.kh []) else s.acc c).ok :=
    have hb := (((h.acc c w).putM k negInf).putL k 0).putHeap k x.d.kh []
    Acc.ok_ite (Acc.ok_ite ((hb.put _ _ _).put _ _ _) hb) (h.acc c w)
  unfold projRow at ht
  simp only at ht
  split at ht
  · cases ht
    exact h.setAcc c (htag hinit)
  · split at ht
    · cases ht
    · cases ht
      refine ((h.countReads _).raise _).setAcc c (htag fun w => ?_)
      have hb {m l hp} := (((hinit w).putM k m).putL k l).putHeap k x.d.kh hp
      exact Acc.ok_ite ((hb.put _ _ _).put _ _ _) hb

theorem execVproj_keeps (p : M) (h : Keeps G r s) : KeepsNext G r (execVproj p s) :=
  h.runV (stripChecks_keep p _ _ (fun _ _ ht => rowLoop_keep _ (fun _ _ _ hs e => projRow_keeps hs e) _ ht) h)

theorem Keeps.vpmergeRow (h : Keeps G r s) (d a : Nat) (tag : BitVec 16) (k : Nat) : Keeps G r (vpmergeRow s d a tag k) := by
  have hheap {kh hp} (w : r.tilesInForm) := (h.acc d w).putHeap k kh hp
  unfold Machine.vpmergeRow
  simp only
  split
  · exact h.setAcc d fun w => Acc.ok_ite (((hheap w).put _ _ _).put _ _ _) (hheap w)
  · exact (h.raise _).setAcc d fun w => ((Acc.ok_ite (((hheap w).put _ _ _).put _ _ _) (hheap w)).putM _ _).putL _ _

theorem execVpmerge_keeps (p : R2) (h : Keeps G r s) : KeepsNext G r (execVpmerge p s) :=
  h.runV (h.checked (rowLoop_keep_ok _ (fun _ _ hs => hs.vpmergeRow _ _ _ _) _ h))

theorem execVpfin_keeps (p : M) (h : Keeps G r s) : KeepsNext G r (execVpfin p s) :=
  h.runV (h.checked (h.checkedAt (h.noD (h.checked (h.storeRows _ _ _ _)))))

theorem gradRow_keeps {x : Strip} {c k : Nat} (h : Keeps G r s) (ht : gradRow x c k s = .ok t) : Keeps G r t := by
  unfold gradRow at ht
  split at ht
  · cases ht
  · cases ht
    exact ((h.countReads _).raise _).setUntagged c fun w => (h.acc c w).putCols _ _

theorem execVpgrad_keeps (p : M) (h : Keeps G r s) : KeepsNext G r (execVpgrad p s) :=
  h.runV (stripChecks_keep p _ _ (fun _ _ ht => rowLoop_keep _ (fun _ _ _ hs e => gradRow_keeps hs e) _ ht) h)

end Sys2Proof.Machine
end

section
/-! PROOFS. What every instruction and event keeps of the general registers and of the accumulator tables (R62, R75). -/

namespace Sys2Proof.Machine

/-! ### Every instruction and event

What names g0 writes no general register, and every accumulator table stays in form: the cases of `exec`, family by family. -/

/-- The scalar stream's own instructions. -/
theorem scalar_keeps {i : Instr} (hi : (standsBehind i || runsAhead i) = true) (s : State) : KeepsNext (namedG i = some 0) s (exec i s) := by
  have hk {G : Prop} : Keeps G s s := .refl G s
  cases i with
  | nop p => exact Res.Keep.retire hk.ok
  | add p | sub p | mul p | mulh p | mulhsu p | div p | divu p | rem p | remu p | and p | or p | xor p | andn p | sll p | srl p
  | sra p | rol p | ror p | slt p | sltu p | min p | max p | minu p | maxu p | clz p | ctz p | popc p | sext p | zext p | liReg p
  | liLit32 p | liHn p | lea p | leaDisp p | sel p | bfx p | bfi p | fclass p | mshape p => exact Res.Keep.retire (hk.setD Option.some.inj _)
  | fadd p | fsub p | fmul p | fdiv p | fsqrt p | fmadd p | fmin p | fmax p | fcmp p | fcvt p =>
    exact Res.Keep.retire ((hk.raise _).setD Option.some.inj _)
  | bCc p => exact execBCc_keeps p hk
  | jShort p | jLong p | ret p => exact Res.Keep.retire (hk.jumpTo _)
  | jalShort p | jalLong p => exact Res.Keep.retire (hk.jumpLink nofun _ _)
  | jr p => exact Res.Keep.retire (hk.jumpLink Option.some.inj _ _)
  | loop p => exact execLoop_keeps p hk Option.some.inj
  | ld p => exact execLd_keeps p hk Option.some.inj
  | st p => exact execSt_keeps p hk
  | pref p => exact execPref_keeps p hk
  | amo p => exact execAmo_keeps p hk Option.some.inj
  | lr p => exact execLr_keeps p hk Option.some.inj
  | sc p => exact execSc_keeps p hk Option.some.inj
  | trap p => exact Res.Keep.retire (hk.trapped _)
  | eret p => exact execEret_keeps p hk
  | srr p => exact execSrr_keeps p hk Option.some.inj
  | srw p => exact execSrw_keeps p hk
  | pause p => exact execPause_keeps p hk
  | yield p => exact execYield_keeps p hk
  | wfev p => exact execWfev_keeps p hk
  | fenceSv p => exact execFenceSv_keeps p hk
  | fenceStk p => exact execFenceStk_keeps p hk
  | rel p => exact execRel_keeps p hk
  | acq p => exact execAcq_keeps p hk
  | vsave p => exact execVsave_keeps p hk Option.some.inj
  | vrstr p => exact execVrstr_keeps p hk
  | frz p => exact execFrz_keeps p hk
  | eqclaim p => exact execEqclaim_keeps p hk Option.some.inj
  | _ => cases hi

/-- The matrix engine's instructions. -/
theorem matrix_keeps {i : Instr} (hi : isMatrix i = true) (s : State) : KeepsNext (namedG i = some 0) s (exec i s) := by
  have hk {G : Prop} : Keeps G s s := .refl G s
  cases i with
  | mmaO p | mmaF p => exact hk.runV (mmaBody_keep _ _ hk)
  | mgrpO p | mgrpF p => exact hk.runV (mgrpBody_keep _ _ hk)
  | mzero p => exact execMzero_keeps p hk
  | mld p => exact execMld_keeps p hk
  | mst p => exact execMst_keeps p hk
  | mmovBodyToVec p | mmovStToVec p => exact hk.runV (mmovOut_keep _ _ hk)
  | mmovVecToBody p | mmovVecToSt p => exact hk.runV (mmovIn_keep _ _ hk)
  | mscale p => exact execMscale_keeps p hk
  | msoft p => exact execMsoft_keeps p hk
  | mmask p => exact execMmask_keeps p hk
  | mmerge p => exact execMmerge_keeps p hk
  | mfin p => exact execMfin_keeps p hk
  | vproj p => exact execVproj_keeps p hk
  | vpmerge p => exact execVpmerge_keeps p hk
  | vpfin p => exact execVpfin_keeps p hk
  | vpgrad p => exact execVpgrad_keeps p hk
  | _ => cases hi

/-- The far instructions. -/
theorem far_keeps {i : Instr} (hi : (farOf i).isSome = true) (s : State) : KeepsNext (namedG i = some 0) s (exec i s) := by
  have hk {G : Prop} : Keeps G s s := .refl G s
  cases i with
  | fVadd p | fVsub p | fVmul p | fVfma p | fVfms p | fVnfma p | fVmin p | fVmax p | fVabs p | fVneg p | fVcvt p | fViadd p | fVisub p
  | fVimul p | fVimulh p | fVand p | fVor p | fVxor p | fVshl p | fVshr p | fVsra p | fVimin p | fVimax p | fVred p | fVredo p
  | fVbcast p | fVld p | fVst p | fVlds p | fVsts p | fVldx p | fVstx p | fVamo p | fexpr p | fdot p | fred p | fget p | fput p
  | fattn p => exact runFar_keeps hk rfl
  | _ => cases hi

/-- The vector queue's other instructions. -/
theorem vector_keeps {i : Instr} (hi : (standsBehind i || runsAhead i || isMatrix i || (farOf i).isSome || i.isEvent) = false) (s : State) :
    KeepsNext (namedG i = some 0) s (exec i s) := by
  have hk {G : Prop} : Keeps G s s := .refl G s
  cases i with
  | vcfg p => exact execVcfg_keeps p hk Option.some.inj
  | vsetl p => exact execVsetl_keeps p hk Option.some.inj
  | vqlen p => exact execVqlen_keeps p hk Option.some.inj
  | vbind p => exact execVbind_keeps p hk
  | vbindOff p => exact execVbindOff_keeps p hk
  | vspill p => exact execVspill_keeps p hk
  | vfill p => exact execVfill_keeps p hk Option.some.inj
  | vadd p | vsub p | vmul p | vdiv p | vmin p | vmax p => exact float2V_keeps _ _ _ hk
  | vfma p | vfms p | vnfma p => exact float3V_keeps _ _ _ hk
  | vsqrt p | vrsqrt p | vexp2 p | vlog2 p | vabs p | vneg p => exact float1V_keeps _ _ _ hk
  | vcvt p => exact execVcvt_keeps p hk
  | vclass p => exact execVclass_keeps p hk
  | viadd p | visub p | vimul p | vimulh p | vand p | vor p | vxor p | vshl p | vshr p | vsra p | vimin p | vimax p =>
    exact int2V_keeps _ _ _ hk
  | vcmp p => exact execVcmp_keeps p hk
  | qand p | qor p => exact maskOp_keeps _ _ _ _ hk
  | qnot p => exact execQnot_keeps p hk
  | qpop p => exact execQpop_keeps p hk Option.some.inj
  | qfirst p => exact execQfirst_keeps p hk Option.some.inj
  | vsel p => exact execVsel_keeps p hk
  | viota p => exact execViota_keeps p hk
  | vred p => exact execVred_keeps p hk
  | vredo p => exact execVredo_keeps p hk
  | vscan p => exact execVscan_keeps p hk
  | vperm p | vslide p => exact permute_keeps _ _ _ _ hk
  | vcompress p => exact execVcompress_keeps p hk
  | vexpand p => exact execVexpand_keeps p hk
  | vbcast p => exact execVbcast_keeps p hk
  | vext p => exact execVext_keeps p hk Option.some.inj
  | vins p => exact execVins_keeps p hk
  | vdupm p => exact execVdupm_keeps p hk
  | vsortk p => exact execVsortk_keeps p hk
  | vtopk p => exact execVtopk_keeps p hk
  | vld p => exact execVld_keeps p hk
  | vst p => exact execVst_keeps p hk
  | vlds p => exact execVlds_keeps p hk
  | vsts p => exact execVsts_keeps p hk
  | vldx p => exact execVldx_keeps p hk
  | vstx p => exact execVstx_keeps p hk
  | vldt p => exact execVldt_keeps p hk
  | vstt p => exact execVstt_keeps p hk
  | vamo p => exact execVamo_keeps p hk
  | vpref p => exact execVpref_keeps p hk
  | fVpref p => exact execFVpref_keeps p hk
  | tsend p => exact execTsend_keeps p hk
  | ttake p | tlook p => exact hk.runV (getVec_keep _ _ hk)
  | ttakeM p | tlookM p => exact hk.runV (getMem_keep _ _ hk)
  | tdrop p => exact execTdrop_keeps p hk
  | twait p => exact execTwait_keeps p hk
  | tmark p => exact execTmark_keeps p hk
  | nodeCopy p => exact execNodeCopy_keeps p hk Option.some.inj
  | nodeCall p => exact execNodeCall_keeps p hk Option.some.inj
  | nodeEdge p => exact execNodeEdge_keeps p hk Option.some.inj
  | nodeArm p => exact execNodeArm_keeps p hk
  | nodeArmDone p => exact execNodeArmDone_keeps p hk
  | nodeWait p => exact execNodeWait_keeps p hk
  | publish p => exact execPublish_keeps p hk
  | hwpub p => exact execHwpub_keeps p hk
  | bar p => exact execBar_keeps p hk
  | barDom p => exact execBarDom_keeps p hk
  | kvmap p | kvapp p | kvxl p | kvxlE p | kvfork p | kvrel p | kvkeep p | kvpidx p | kvpidxIns p =>
    exact runKv_keeps hk rfl fun _ => Option.some.inj
  | kvscore p | kvtopk p => exact runKv_keeps hk rfl nofun
  | _ => cases hi

/-- The events of the device. -/
theorem event_keeps {i : Instr} (hi : i.isEvent = true) (s : State) : KeepsNext False s (exec i s) := by
  have hk : Keeps False s s := .refl False s
  cases i with
  | pauseExpiry h => exact execPauseExpiry_keeps h hk
  | farRequestArrival n => exact execFarRequestArrival_keeps n hk
  | farCompletion n => exact execFarCompletion_keeps n hk
  | holdEntryRequest n => exact execHoldEntryRequest_keeps n hk
  | copyNodeStart m ix => exact execCopyNodeStart_keeps m ix hk
  | copyNodeFinish m ix => exact execCopyNodeFinish_keeps m ix hk
  | callNodeDelivery m ix => exact execCallNodeDelivery_keeps m ix hk
  | barDomMessage n => exact execBarDomMessage_keeps n hk
  | kvRemoteRequest n => exact execKvRemoteRequest_keeps n hk
  | remoteRequestArrival n | memoryAccessPerform h => exact (hk.arriveStore _).next
  | remoteStoreAck n => exact execRemoteStoreAck_keeps n hk
  | staleRefusal n => exact execStaleRefusal_keeps n hk
  | mscReadRequest loc => exact execMscReadRequest_keeps loc hk
  | mscWrite loc bytes readers => exact execMscWrite_keeps loc bytes readers hk
  | hostMemoryAccess m pa n write => exact execHostMemoryAccess_keeps m pa n write hk
  | hostQtailWrite m q tail => exact execHostQtailWrite_keeps m q tail hk
  | qcfgEnable m q v => exact execQcfgEnable_keeps m q v hk
  | qcfgDisable m q v => exact execQcfgDisable_keeps m q v hk
  | registerWrite m off v => exact execRegisterWrite_keeps m off v hk
  | schedulerPlace m want => exact execSchedulerPlace_keeps m want hk
  | headAgeExpiry m q => exact execHeadAgeExpiry_keeps m q hk
  | marchPacketReceive n want => exact execMarchPacketReceive_keeps n want hk
  | marchArrival n => exact execMarchArrival_keeps n hk
  | marchRelease n => exact execMarchRelease_keeps n hk
  | marchDisarm n => exact execMarchDisarm_keeps n hk
  | marchTimeout l rk => exact execMarchTimeout_keeps l rk hk
  | rankEndReport n => exact execRankEndReport_keeps n hk
  | launchCompletion l rk => exact execLaunchCompletion_keeps l rk hk
  | noticePost h deadline => exact execNoticePost_keeps h deadline hk
  | forcedPreemption h => exact execForcedPreemption_keeps h hk
  | launchSuspend l rk deadline => exact execLaunchSuspend_keeps l rk deadline hk
  | launchResume l rk cores want => exact execLaunchResume_keeps l rk cores want hk
  | watchdogFire h => exact execWatchdogFire_keeps h hk
  | deadlockCheck m => exact execDeadlockCheck_keeps m hk
  | errrecActResume m q => exact execErrrecActResume_keeps m q hk
  | errrecActAbort m q => exact execErrrecActAbort_keeps m q hk
  | errrecValidClear m q => exact execErrrecValidClear_keeps m q hk
  | domainActAbort m => exact execDomainActAbort_keeps m hk
  | errorRecordForward n => exact execErrorRecordForward_keeps n hk
  | actForward n => exact execActForward_keeps n hk
  | errcntClr m => exact execErrcntClr_keeps m hk
  | stackCountClr m st => exact execStackCountClr_keeps m st hk
  | xrelValidClear m => exact execXrelValidClear_keeps m hk
  | tapIdcode m | tapBypass m b => exact (hk.tapOut _ _).next
  | tapSolstat m => exact execTapSolstat_keeps m hk
  | tapSolsel m v => exact execTapSolsel_keeps m v hk
  | tapSoldata m => exact execTapSoldata_keeps m hk
  | tapSolfrz m => exact execTapSolfrz_keeps m hk
  | tapSolrst m | warmReset m => exact (hk.warmResetModule _).next
  | solsticeUnlock m req => exact execSolsticeUnlock_keeps m req hk
  | spdmRequest m req => exact execSpdmRequest_keeps m req hk
  | mboebFreeze m => exact execMboebFreeze_keeps m hk
  | powerOnBoot m image signature key version => exact execPowerOnBoot_keeps m image signature key version hk
  | d3hotEntry m => exact execD3hotEntry_keeps m hk
  | d0Return m => exact (hk.onMod _ _).next
  | powerRemoval m => exact execPowerRemoval_keeps m hk
  | thermalStepDown m temp => exact execThermalStepDown_keeps m temp hk
  | thermalTrip m temp => exact execThermalTrip_keeps m temp hk
  | vcoreRemoval m => exact execVcoreRemoval_keeps m hk
  | powerCapWindow m point => exact execPowerCapWindow_keeps m point hk
  | refreshCommand m st bank found => exact execRefreshCommand_keeps m st bank found hk
  | rowActivationAlert m st bank => exact execRowActivationAlert_keeps m st bank hk
  | activationBackoffEnd m st bank => exact execActivationBackoffEnd_keeps m st bank hk
  | droopVbaseLow m st => exact execDroopVbaseLow_keeps m st hk
  | droopStopEnd m st => exact execDroopStopEnd_keeps m st hk
  | patrolSweep m w found => exact execPatrolSweep_keeps m w found hk
  | bankCountCopy m st => exact execBankCountCopy_keeps m st hk
  | migrationTrigger m page src frame => exact execMigrationTrigger_keeps m page src frame hk
  | migrationHoldTimeout h => exact execMigrationHoldTimeout_keeps h hk
  | pageTierMigrate m src dst size => exact execPageTierMigrate_keeps m src dst size hk
  | autumnRun m root tier cls atp => exact execAutumnRun_keeps m root tier cls atp hk
  | constBankReload l rk ka kb image => exact execConstBankReload_keeps l rk ka kb image hk
  | tlbInvalidate m asid va len => exact execTlbInvalidate_keeps m asid va len hk
  | publishableSetup m asid va len image0 image1 dom => exact execPublishableSetup_keeps m asid va len image0 image1 dom hk
  | frzEnable l => exact (hk.onLaunch _ _).next
  | cxlExtentAccept m base len off => exact execCxlExtentAccept_keeps m base len off hk
  | cxlExtentRelease m off => exact execCxlExtentRelease_keeps m off hk
  | ualinkLinkError m p | ualinkPortFailure m p => exact (hk.onPort _ _ _).draw.next
  | rankLost m lost => exact execRankLost_keeps m lost hk
  | hostLinkDown m => exact execHostLinkDown_keeps m hk
  | hartResume h lanes => exact execHartResume_keeps h lanes hk
  | entryGrant n => exact execEntryGrant_keeps n hk
  | linkTrained m p => exact (hk.onPort _ _ _).next
  | hostLinkUp m => exact execHostLinkUp_keeps m hk
  | publishabilityWithdrawal m ix => exact execPublishabilityWithdrawal_keeps m ix hk
  | indexEntryRemoval m root bucket slot atp => exact execIndexEntryRemoval_keeps m root bucket slot atp hk
  | migratableMarkClear m page => exact execMigratableMarkClear_keeps m page hk
  | forcedExtentWithdrawal m off => exact execForcedExtentWithdrawal_keeps m off hk
  | _ => cases hi

theorem namedG_of_isEvent {i : Instr} (hi : i.isEvent = true) : namedG i = none := by
  cases hn : namedG i with
  | none => rfl
  | some d =>
    unfold namedG at hn
    split at hn <;> cases hn <;> cases hi

theorem exec_keeps (i : Instr) (s : State) : KeepsNext (namedG i = some 0) s (exec i s) := by
  cases he : i.isEvent with
  | true => exact fun t ht => ⟨fun w => by simp [namedG_of_isEvent he] at w, (event_keeps he s t ht).2⟩
  | false =>
    cases hs : standsBehind i || runsAhead i with
    | true => exact scalar_keeps hs s
    | false =>
      cases hm : isMatrix i with
      | true => exact matrix_keeps hm s
      | false =>
        cases hf : (farOf i).isSome with
        | true => exact far_keeps hf s
        | false => exact vector_keeps (by simp [hs, hm, hf, he]) s

end Sys2Proof.Machine
end

section
/-! PROOFS. What a turn and a step keep of the accumulator tables (O59), and that g0 reads zero and takes no write (O3). -/

namespace Sys2Proof.Machine

variable {r s t : State}

/-! ### The queues -/

theorem exec_keepsForm (i : Instr) (h : Keeps False r s) : KeepsNext False r (exec i s) :=
  fun t ht => h.of_form (exec_keeps i s t ht).2

theorem Keeps.issued (h : Keeps False r s) (head : Half) (next : Word) : Keeps False r (s.issued head next) :=
  ⟨False.elim, fun w => ⟨(h.2 w).1, ((h.fetchFill s.cur.pc.toNat).markFirst.2 w).2⟩⟩

theorem Keeps.describe (h : Keeps False r s) (e : QEntry) : Keeps False r (s.describe e).1 := by
  have ht := Keeps.countReads (s := s.asEntry e) h ((s.asEntry e).descriptors e.instr).2
  exact ht.cur (.of_eq rfl rfl)

theorem Keeps.describeAt (h : Keeps False r s) (n : Nat) : Keeps False r (s.describeAt n) := by
  unfold State.describeAt
  split
  · exact h
  · exact (h.describe _).cur (.of_eq rfl rfl)

theorem Keeps.moveOne (h : Keeps False r s) : Keeps False r s.moveOne := h.describeAt _

theorem Keeps.beginHead (h : Keeps False r s) : Keeps False r s.beginHead := by
  unfold State.beginHead
  extract_lets t
  have ht : Keeps False r t := .ite (h.describeAt 0) h
  have hs : Keeps False r t.serveEngine := ht.onMod _ _
  exact ⟨False.elim, fun w => ⟨(ht.2 w).1, (hs.2 w).2⟩⟩

theorem runHead_keeps (h : Keeps False r s) : KeepsNext False r (runHead s) := by
  unfold runHead
  split
  · exact h.next
  · exact exec_keepsForm _ (by exact h)

theorem queueTurn_keeps (e : QEntry) (h : Keeps False r s) : KeepsNext False r (queueTurn e s) := by
  have hm : Keeps False r (if s.cur.moved = 0 then s.moveOne else s) := .ite h.moveOne h
  exact .ite (Res.Keep.retire (h.precise _ _ _)) (.ite (.ite (runHead_keeps hm.beginHead) hm.next) (runHead_keeps h))

/-! ### The turns -/

theorem issueOne_keeps (i : Instr) (h : Keeps False r s) : KeepsNext False r (issueOne i s) :=
  .ite (queueTurn_keeps _ (by exact h)) (exec_keepsForm i h)

theorem Keeps.fetchStop (h : Keeps False r s) {x : Res} (hx : fetch s = .stop x) : x.Keep False r := by
  unfold fetch at hx
  simp only at hx
  split at hx
  · cases hx
    exact h.jumpTo 0
  · split at hx
    · cases hx
      exact h.noHead.precise _ _ _
    · split at hx
      · split at hx
        · cases hx
          exact h.noHead.precise _ _ _
        · cases hx
          exact h.noHead.trapped _
      · cases hx
        exact h
      · split at hx
        · cases hx
          exact h.noHead.trapped _
        · split at hx
          · cases hx
            exact h.noHead.precise _ _ _
          · split at hx
            · cases hx
              exact (h.atHead _).trapped _
            · split at hx
              · cases hx
                exact (h.atHead _).precise _ _ _
              · cases hx

theorem fetchTurn_keeps (h : Keeps False r s) : KeepsNext False r (fetchTurn s) := by
  unfold fetchTurn
  split
  · exact issueOne_keeps _ (h.issued _ _)
  · exact Res.Keep.retire (h.fetchStop (by assumption))

theorem turn_keeps (h : Keeps False r s) : KeepsNext False r (turn s) := by
  refine .ite ?_ h.next
  split
  · exact .ite (fetchTurn_keeps h) (queueTurn_keeps _ h)
  · exact fetchTurn_keeps h

theorem laterTurn_keeps (h : Keeps False r s) : KeepsNext False r (laterTurn s) := by
  unfold laterTurn
  split
  · rename_i u hu
    exact Keeps.next (turn_keeps (by exact h) u hu)
  · exact turn_keeps (by exact h)

theorem overtakes_keeps (h : Keeps False r s) (ht : s.overtakes = some t) : Keeps False r t := by
  unfold State.overtakes at ht
  simp only at ht
  split at ht
  · split at ht
    · cases ht
      rename_i u hu hq
      have hk : Keeps False r u := runHead_keeps (s := s.bringForward s.cur.moved) h u hu
      exact hk
    · cases ht
  · cases ht

theorem Keeps.getD (h : Keeps False r s) {o : Option State} (ho : ∀ t, o = some t → Keeps False r t) : Keeps False r (o.getD s) := by
  cases o with
  | none => exact h
  | some t => exact ho t rfl

theorem vectorTurn_keeps (h : Keeps False r s) : KeepsNext False r (vectorTurn s) := by
  refine .ite h.next ?_
  split
  · exact h.next
  · exact .ite (.ite h.moveOne.next h.next) (.ite (queueTurn_keeps _ h) (.ite (h.getD fun _ ht => overtakes_keeps h ht).next h.next))

theorem aheadTurn_keeps (i : Instr) (h : Keeps False r s) (ht : Keeps False r t) : KeepsNext False r (aheadTurn i s t) := by
  unfold aheadTurn
  split
  · rename_i u hu
    exact .ite (Keeps.next (exec_keepsForm i (by exact ht) u hu)) h.next
  · exact exec_keepsForm i (by exact ht)

theorem issueTurn_keeps (h : Keeps False r s) : KeepsNext False r (issueTurn s) := by
  refine .ite h.next (.ite (turn_keeps h) ?_)
  split
  · exact .ite (Res.Keep.retire (h.fetchStop (by assumption))) h.next
  · rename_i head next _
    have ht := h.issued head next
    exact .ite (.ite (exec_keepsForm _ ht) (.ite h.next (aheadTurn_keeps _ h ht))) (.ite h.next (Keeps.next ht))

/-! ### The step -/

theorem step_keeps (s : State) : KeepsNext False s (step s) := by
  have hs {rest : List Turn} : Keeps False s { s.ticked with agenda := rest } := (Keeps.refl False s).ticked
  unfold step
  split
  · exact .ite (exec_keepsForm _ hs) hs.next
  · exact turn_keeps (hs.focus _)
  · exact issueTurn_keeps (hs.focus _)
  · exact laterTurn_keeps (hs.focus _)
  · exact vectorTurn_keeps (hs.focus _)
  · exact (hs.runAct _).next
  · exact turn_keeps (Keeps.refl False s).ticked

/-- Settles O59: every operation that a step performs keeps the accumulator tables in form. -/
theorem stepKeepsTileForm : Obligations.StepKeepsTileForm := fun s t ht => (step_keeps s t ht).2

/-! ### g0 -/

theorem sameG_of_keeps {G : Prop} (h : Keeps G s t) (hG : G) : sameG s t := fun d => by
  unfold Hart.greg
  rw [h.1 hG]

/-- Settles O3: an instruction that names g0 keeps every general register, and a write to g0 is none. -/
theorem zeroRegister : Obligations.ZeroRegister := by
  refine ⟨fun _ => rfl, fun _ _ => rfl, fun s r v hr => ?_, fun i s t hi ht => sameG_of_keeps (exec_keeps i s t ht) hi, fun p s hd => ?_⟩
  · exact Hart.greg_setG_self _ _ _ hr
  · obtain ⟨t, ht, hpc⟩ : ∃ t, exec (.add p) s = .next t ∧ t.cur.pc = s.cur.npc := by
      obtain ⟨v, hv⟩ : ∃ v, SetsG (.add p) s p.d v := ⟨_, rfl⟩
      exact ⟨_, hv, by simp [State.setG]⟩
    exact ⟨t, ht, sameG_of_keeps (exec_keeps (.add p) s t ht) (congrArg some hd), hpc⟩

end Sys2Proof.Machine
end

section
/-! PROOFS. Scalar floating point and FCVT (R112, R113, R198 to R200): what the shared float operations give for special operands, and what
the scalar float instructions and the conversions write. -/

namespace Sys2Proof.Machine

/-! ### Special operands of the shared float operations (R112, R113) -/

@[simp] theorem FV.isNan_nan (q : Bool) : (FV.nan q).isNan = true := rfl
@[simp] theorem FV.isNan_inf (n : Bool) : (FV.inf n).isNan = false := rfl
@[simp] theorem FV.isNan_fin (n : Bool) (m : Nat) (e : Int) : (FV.fin n m e).isNan = false := rfl

theorem FV.isNan_iff {x : FV} : x.isNan = true ↔ ∃ q, x = .nan q := by cases x <;> simp

/-- A NaN operand gives the canonical NaN, with NV when one was signalling. -/
theorem nanOperand (t : FT) (rm : Nat) {x y : FV} (h : x.isNan = true ∨ y.isNan = true) :
    addFV t rm x y = (t.nan, x.nv ||| y.nv) ∧ mulFV t rm x y = (t.nan, x.nv ||| y.nv) ∧ divFV t rm x y = (t.nan, x.nv ||| y.nv) := by
  rcases h with h | h <;> obtain ⟨q, rfl⟩ := FV.isNan_iff.mp h
  · exact ⟨rfl, rfl, rfl⟩
  · cases x <;> exact ⟨rfl, rfl, rfl⟩

theorem fmaFV_nanOperand (t : FT) (rm : Nat) {x y z : FV} (h : x.isNan = true ∨ y.isNan = true ∨ z.isNan = true) :
    fmaFV t rm x y z = (t.nan, x.nv ||| y.nv ||| z.nv ||| (if zeroTimesInf x y then fNV else 0)) := by
  rcases h with h | h | h <;> simp [fmaFV, h]

/-- On operands that are no NaN the product is formed exactly and the sum is rounded once, but for 0 × ∞. -/
theorem fmaFV_of_not_nan (t : FT) (rm : Nat) {x y z : FV} (hx : x.isNan = false) (hy : y.isNan = false) (hz : z.isNan = false) :
    fmaFV t rm x y z = if zeroTimesInf x y then (t.nan, fNV) else addFV t rm (x.mul y) z := by
  simp [fmaFV, hx, hy, hz]

theorem zeroTimesInf_fin (a b : Bool) (m n : Nat) (e f : Int) : zeroTimesInf (.fin a m e) (.fin b n f) = false := by
  simp [zeroTimesInf, FV.isInf]

theorem mulFV_fin (t : FT) (rm : Nat) (a b : Bool) (m n : Nat) (e f : Int) :
    mulFV t rm (.fin a m e) (.fin b n f) = roundVal t rm (a != b) (m * n) (e + f) := by
  simp [mulFV, zeroTimesInf_fin, FV.mul, roundFV]

theorem fmaFV_fin (t : FT) (rm : Nat) (a b : Bool) (m n : Nat) (e f : Int) {z : FV} (hz : z.isNan = false) :
    fmaFV t rm (.fin a m e) (.fin b n f) z = addFV t rm (.fin (a != b) (m * n) (e + f)) z := by
  rw [fmaFV_of_not_nan t rm rfl rfl hz, zeroTimesInf_fin]
  rfl

/-- A finite number that is not 0 times an infinity is an infinity; over 0 it sets DZ. -/
theorem nonzero_rows (t : FT) (rm : Nat) (a b : Bool) {m : Nat} (e f : Int) (hm : 0 < m) :
    mulFV t rm (.fin a m e) (.inf b) = (t.inf (a != b), 0) ∧ divFV t rm (.fin a m e) (.fin b 0 f) = (t.inf (a != b), fDZ) := by
  have hne : m ≠ 0 := by omega
  simp [mulFV, zeroTimesInf, FV.isZero, FV.isInf, FV.mul, roundFV, divFV, hne]

theorem sqrtFV_neg (t : FT) (rm : Nat) {m : Nat} (e : Int) (hm : 0 < m) : sqrtFV t rm (.fin true m e) = (t.nan, fNV) := by
  have hne : m ≠ 0 := by omega
  simp [sqrtFV, hne]

theorem sqrtFV_nan (t : FT) (rm : Nat) (q : Bool) : sqrtFV t rm (.nan q) = (t.nan, (FV.nan q).nv) := by cases q <;> rfl

/-! ### Comparisons and minima -/

/-- A NaN is less than nothing. -/
theorem ltFV_eq_false_of_isNan {x y : FV} (h : (x.isNan || y.isNan) = true) : ltFV x y = false := by
  rcases (Bool.or_eq_true _ _).mp h with h | h <;> obtain ⟨q, rfl⟩ := FV.isNan_iff.mp h
  · rfl
  · cases x <;> rfl

theorem ltFV_asymm {x y : FV} (h : ltFV x y = true) : ltFV y x = false := by
  cases x with
  | nan => simp [ltFV] at h
  | inf a => cases y <;> simp_all [ltFV]
  | fin a m e =>
    cases y with
    | nan => rfl
    | inf b => simpa [ltFV] using h
    | fin b n f =>
      have hq : (if f < e then f else e) = if e < f then e else f := by split <;> split <;> omega
      simp only [ltFV, hq, decide_eq_true_eq, decide_eq_false_iff_not] at h ⊢
      omega

/-- Zeros of either sign are equal. -/
theorem ltFV_eq_false_of_isZero {x y : FV} (h : (x.isZero && y.isZero) = true) : ltFV x y = false := by
  cases x <;> cases y <;> simp_all [FV.isZero, ltFV, atExp]

section
variable (t : FT) (mx : Bool) (a b : Nat)

theorem minMax_flags : (minMax t mx a b).2 = (unpack t a).nv ||| (unpack t b).nv := by
  cases hx : (unpack t a).isNan <;> cases hy : (unpack t b).isNan <;> simp [minMax, hx, hy, apply_ite Prod.snd]

/-- A single NaN gives the other operand, two give the canonical NaN. -/
theorem minMax_of_nan (h : ((unpack t a).isNan || (unpack t b).isNan) = true) :
    (minMax t mx a b).1 = if (unpack t a).isNan then (if (unpack t b).isNan then t.nan else b) else a := by
  cases hx : (unpack t a).isNan <;> cases hy : (unpack t b).isNan <;> simp [minMax, hx, hy] at h ⊢

/-- Of operands that are no NaN, the result is a zero of the chosen sign for two zeros, else the lesser or the greater. -/
theorem minMax_of_not_nan (hx : (unpack t a).isNan = false) (hy : (unpack t b).isNan = false) :
    (minMax t mx a b).1 = if (unpack t a).isZero && (unpack t b).isZero
      then t.zero (if mx then (unpack t a).neg && (unpack t b).neg else (unpack t a).neg || (unpack t b).neg)
      else if (if mx then ltFV (unpack t a) (unpack t b) else ltFV (unpack t b) (unpack t a)) then b else a := by
  simp only [minMax, hx, hy, apply_ite Prod.fst]

end

/-- The rows of R112 for a minimum or a maximum of two patterns. -/
theorem minMax_rows (t : FT) (mx : Bool) (a b : Nat) : let x := unpack t a
    let y := unpack t b
    (minMax t mx a b).2 = x.nv ||| y.nv ∧
    (x.isNan = true → y.isNan = true → (minMax t mx a b).1 = t.nan) ∧ (x.isNan = true → y.isNan = false → (minMax t mx a b).1 = b) ∧
    (x.isNan = false → y.isNan = true → (minMax t mx a b).1 = a) ∧
    (x.isNan = false → y.isNan = false →
      (x.isZero = true → y.isZero = true → (minMax t mx a b).1 = t.zero (if mx then x.neg && y.neg else x.neg || y.neg)) ∧
      (ltFV x y = true → (minMax t mx a b).1 = if mx then b else a) ∧ (ltFV y x = true → (minMax t mx a b).1 = if mx then a else b)) := by
  intro x y
  refine ⟨minMax_flags t mx a b, fun hx hy => ?_, fun hx hy => ?_, fun hx hy => ?_, fun hx hy => ?_⟩
  iterate 3 rw [minMax_of_nan t mx a b (by rw [hx, hy]; rfl), hx, hy]; rfl
  rw [minMax_of_not_nan t mx a b hx hy]
  refine ⟨fun zx zy => by rw [if_pos (by rw [zx, zy]; rfl)], fun hlt => ?_, fun hlt => ?_⟩
  · have hz : ¬ (x.isZero && y.isZero) = true := fun hz => by simp [ltFV_eq_false_of_isZero hz] at hlt
    rw [if_neg hz, hlt, ltFV_asymm hlt]
    cases mx <;> rfl
  · have hz : ¬ (x.isZero && y.isZero) = true := fun hz => by
      simp [ltFV_eq_false_of_isZero ((Bool.and_comm _ _).trans hz)] at hlt
    rw [if_neg hz, hlt, ltFV_asymm hlt]
    cases mx <;> rfl

theorem specialFloatRows : SpecialFloatRows := by
  refine ⟨fun t rm x y h => nanOperand t rm h, fun t rm x y z h => fmaFV_nanOperand t rm h, fun t rm a b m n e f => ?_, minMax_rows⟩
  refine ⟨rfl, rfl, rfl, rfl, rfl, rfl, rfl, nonzero_rows t rm a b e f, mulFV_fin t rm a b m n e f, rfl, rfl, rfl, rfl, sqrtFV_neg t rm e,
    rfl, ?_, sqrtFV_nan t rm, fun z hz => ⟨fmaFV_of_not_nan t rm rfl rfl hz, fmaFV_of_not_nan t rm rfl rfl hz, fmaFV_fin t rm a b m n e f hz⟩⟩
  cases a <;> rfl

/-! ### The scalar float instructions (R198, R199) -/

theorem fpType_eq (sf : BitVec 4) : fpType sf = if sf.getLsbD 0 then .fp64 else .fp32 := by
  rw [fpType, bit_toNat]

theorem State.fop_eq (s : State) (sf : BitVec 4) (a : S10) (lit : Option (BitVec 32)) :
    unpack (fpType sf) (s.srcF (fpType sf) a lit) = s.fop sf a lit := by rw [State.fop, fpType_eq]

theorem setsF_float2 {i : Instr} {p : R2} {s : State} (f : FT → FV → FV → Nat × Flags) (h : exec i s = retire (float2 p f s)) :
    SetsF i s p.d (f (if p.sf.getLsbD 0 then .fp64 else .fp32) (s.fop p.sf p.a p.lit) (s.fop p.sf p.b p.lit)) := by
  rw [← fpType_eq, ← State.fop_eq, ← State.fop_eq]
  exact h

theorem setsF_floatMinMax {i : Instr} {p : R2} {mx : Bool} {s : State} (h : exec i s = retire (floatMinMax mx p s)) :
    SetsF i s p.d (minMax (if p.sf.getLsbD 0 then .fp64 else .fp32) mx (s.srcF (if p.sf.getLsbD 0 then .fp64 else .fp32) p.a p.lit)
      (s.srcF (if p.sf.getLsbD 0 then .fp64 else .fp32) p.b p.lit)) := by
  rw [← fpType_eq]
  exact h

/-- The flags of two operands are NV or none. -/
theorem FV.nv_or_eq (x y : FV) : x.nv ||| y.nv = if x.nv ||| y.nv = 0 then (0 : Flags) else fNV := by
  have one : ∀ v : FV, v.nv = 0 ∨ v.nv = fNV := fun v => by
    cases v with
    | nan q => cases q <;> simp [FV.nv]
    | _ => exact .inl rfl
  rcases one x with hx | hx <;> rcases one y with hy | hy <;> rw [hx, hy] <;> decide

/-- FCMP's condition and flags, by the code of SF[2:1] (R199). -/
theorem fcmp_cmpFloat (t : FT) (sf : BitVec 4) (a b : Nat) : let r := cmpFloat t (fcmpCode (bits sf.toNat 1 2)) a b
    let x := unpack t a
    let y := unpack t b
    let nan := x.isNan || y.isNan
    let sig := if x.nv ||| y.nv = 0 then (0 : Flags) else fNV
    let any := if nan then fNV else (0 : Flags)
    (sf.toNat / 2 = 0 → r = (!nan && !ltFV x y && !ltFV y x, sig)) ∧ (sf.toNat / 2 = 1 → r = (!nan && ltFV x y, any)) ∧
    (sf.toNat / 2 = 2 → r = (!nan && !ltFV y x, any)) ∧ (sf.toNat / 2 = 3 → r = (nan, sig)) := by
  intro r x y nan sig any
  have hsig : x.nv ||| y.nv = sig := x.nv_or_eq y
  have hlt : (!nan && ltFV x y) = ltFV x y := by
    cases hn : nan
    · rfl
    · exact (ltFV_eq_false_of_isNan hn).symm
  have heq : (!nan && !ltFV x y && !ltFV y x) = eqFV x y := by simp [nan, eqFV]
  refine ⟨fun h => ?_, fun h => ?_, fun h => ?_, fun h => ?_⟩ <;> simp only [r, bits, pow_one, h]
  · rw [heq, ← hsig]; rfl
  · rw [hlt]; rfl
  · rfl
  · rw [← hsig]; rfl

theorem setsF_fcmp (p : R2) (s : State) :
    let r := cmpFloat (fpType p.sf) (fcmpCode (bits p.sf.toNat 1 2)) (s.srcF (fpType p.sf) p.a p.lit) (s.srcF (fpType p.sf) p.b p.lit)
    SetsF (.fcmp p) s p.d (if r.1 then 1 else 0, r.2) := rfl

theorem scalarFloatResults : ScalarFloatResults := by
  refine ⟨fun p s => ⟨setsF_float2 (fun t => addFV t 0) rfl, setsF_float2 (fun t a b => addFV t 0 a b.flip) rfl,
    setsF_float2 (fun t => mulFV t 0) rfl, setsF_float2 (fun t => divFV t 0) rfl, setsF_floatMinMax rfl, setsF_floatMinMax rfl, _,
    setsF_fcmp p s, ?_⟩, fun p s => ?_, fun p s => ?_⟩
  · rw [← State.fop_eq, ← State.fop_eq]
    exact fcmp_cmpFloat ..
  · rw [← fpType_eq, ← State.fop_eq]
    rfl
  · rw [← fpType_eq, ← State.fop_eq, ← State.fop_eq, ← State.fop_eq]
    rfl

/-! ### FCVT (R200) -/

/-- An integer's one rounding to a float (R200). -/
theorem ofInt_eq_roundVal (t : FT) (rm : Nat) (v : Int) : ofInt t rm v = roundVal t rm (decide (v < 0)) v.natAbs 0 := by
  by_cases hv : v = 0
  · subst hv; rfl
  · simp [ofInt, roundVal, hv]

theorem signed_eq_toInt (w n : Nat) : signed w n = (BitVec.ofNat w n).toInt := by
  rw [← signed_toNat, BitVec.toNat_ofNat, signed, signed, Nat.mod_mod]

/-- Float to float: a NaN, and a value that is no NaN (R200). -/
theorem cvtFF_nan (f t : FT) (rm n : Nat) {q : Bool} (h : unpack f n = .nan q) :
    cvtFF f t rm n = if q then (t.nan, fNV) else (if f = t then n else t.nan, 0) := by
  unfold cvtFF
  rw [h]
  cases q
  · simp only [Bool.false_eq_true, if_false]; split <;> rfl
  · simp [roundFV]

theorem cvtFF_of_not_nan (f t : FT) (rm n : Nat) (h : (unpack f n).isNan = false) :
    cvtFF f t rm n = if f = t then (n, 0) else roundFV t rm (unpack f n) := by
  unfold cvtFF
  cases hv : unpack f n <;> simp_all

/-- The least value of an integer type (R97). -/
def intLo (w : Nat) (sg : Bool) : Int := if sg then -2 ^ (w - 1) else 0

/-- The greatest value of an integer type (R97). -/
def intHi (w : Nat) (sg : Bool) : Int := if sg then 2 ^ (w - 1) - 1 else 2 ^ w - 1

theorem intLo_eq (w : Nat) (sg : Bool) : (if sg then -((2 ^ (w - 1) : Nat) : Int) else 0) = intLo w sg := by
  simp only [intLo, Nat.cast_pow, Nat.cast_ofNat]

theorem intHi_eq (w : Nat) (sg : Bool) : ((if sg then 2 ^ (w - 1) - 1 else 2 ^ w - 1 : Nat) : Int) = intHi w sg := by
  cases sg <;> simp [intHi, Nat.cast_pred (Nat.two_pow_pos _)]

theorem toInt_inf (w : Nat) (sg : Bool) (rm : Nat) (neg : Bool) :
    toInt w sg rm (.inf neg) = (if neg then intLo w sg else intHi w sg, fNV) := by
  simp only [toInt, intLo_eq, intHi_eq]

theorem toInt_fin (w : Nat) (sg : Bool) (rm : Nat) (neg : Bool) (m : Nat) (e : Int) : toInt w sg rm (.fin neg m e) =
    let k := roundInt rm neg m e
    if k.1 < intLo w sg then (intLo w sg, fNV) else if intHi w sg < k.1 then (intHi w sg, fNV) else (k.1, if k.2 then fNX else 0) := by
  simp only [toInt, intLo_eq, intHi_eq]

theorem intLo_le_intHi (w : Nat) (sg : Bool) : intLo w sg ≤ intHi w sg := by
  have h1 : (0 : Int) < 2 ^ (w - 1) := by positivity
  have h2 : (0 : Int) < 2 ^ w := by positivity
  cases sg <;> simp only [intLo, intHi, Bool.false_eq_true, if_false, if_true] <;> omega

/-- The type codes of the float types (R200). -/
def FloatCode (c : Nat) (t : FT) : Prop := (c = 0 ∧ t = .fp32) ∨ (c = 1 ∧ t = .fp64) ∨ (c = 2 ∧ t = .bf16)

/-- The type codes of the integer types, with their widths and signedness (R200). -/
def IntCode (c w : Nat) (sg : Bool) : Prop :=
  (c = 3 ∧ w = 32 ∧ sg = true) ∨ (c = 4 ∧ w = 32 ∧ sg = false) ∨ (c = 5 ∧ w = 64 ∧ sg = true) ∨ (c = 6 ∧ w = 64 ∧ sg = false)

theorem FloatCode.cvtFT_eq {c : Nat} {t : FT} (h : FloatCode c t) : cvtFT c = some t := by
  rcases h with ⟨rfl, rfl⟩ | ⟨rfl, rfl⟩ | ⟨rfl, rfl⟩ <;> rfl

theorem IntCode.cvtFT_eq {c w : Nat} {sg : Bool} (h : IntCode c w sg) : cvtFT c = none ∧ cvtInt c = (w, sg) := by
  rcases h with ⟨rfl, rfl, rfl⟩ | ⟨rfl, rfl, rfl⟩ | ⟨rfl, rfl, rfl⟩ | ⟨rfl, rfl, rfl⟩ <;> exact ⟨rfl, rfl⟩

theorem word_eq_ofInt (v : Int) : word v = BitVec.ofInt 64 v := by
  rw [word, wrap_eq_toNat, BitVec.ofNat_toNat, BitVec.setWidth_eq]

/-- FCVT completes with these register bits and flags. -/
def Converts (p : R3) (s : State) (v : Word) (fl : Flags) : Prop := exec (.fcvt p) s = .next ((s.raise fl).setG (gd p.d) v).completed

section
variable {p : R3} {s : State} {f t : FT} {w : Nat} {sg : Bool}

theorem converts_of_result {v : Word} {fl : Flags} (h : fcvtResult s p = (v, fl)) : Converts p s v fl := by
  change Host.Outcome.next ((s.raise (fcvtResult s p).2).setG (gd p.d) (fcvtResult s p).1).completed = _
  rw [h]

theorem converts_float (hf : FloatCode p.cvF f) (ht : FloatCode p.cvT t) {r : Nat × Flags}
    (hr : cvtFF f t p.rm.toNat (s.srcF f p.a) = r) : Converts p s (BitVec.ofNat 64 r.1) r.2 :=
  converts_of_result (by simp only [fcvtResult, hf.cvtFT_eq, ht.cvtFT_eq, hr])

theorem converts_ofInt (hf : IntCode p.cvF w sg) (ht : FloatCode p.cvT t) {v : Int}
    (hv : (if sg then (BitVec.ofNat w (s.src p.a).toNat).toInt else (((s.src p.a).toNat % 2 ^ w : Nat) : Int)) = v) :
    Converts p s (BitVec.ofNat 64 (roundVal t p.rm.toNat (decide (v < 0)) v.natAbs 0).1)
      (roundVal t p.rm.toNat (decide (v < 0)) v.natAbs 0).2 := by
  obtain ⟨hnone, hint⟩ := hf.cvtFT_eq
  exact converts_of_result (by simp only [fcvtResult, hnone, ht.cvtFT_eq, hint, signed_eq_toInt, hv, ofInt_eq_roundVal])

theorem converts_toInt (hf : FloatCode p.cvF f) (ht : IntCode p.cvT w sg) {r : Int × Flags}
    (hr : toInt w sg p.rm.toNat (unpack f (s.srcF f p.a)) = r) : Converts p s (BitVec.ofInt 64 r.1) r.2 := by
  obtain ⟨hnone, hint⟩ := ht.cvtFT_eq
  exact converts_of_result (by simp only [fcvtResult, hnone, hf.cvtFT_eq, hint, hr, word_eq_ofInt])

/-- An integer, by its type code, converted to a float (R200). -/
theorem converts_integers (ht : FloatCode p.cvT t) : let x := (s.src p.a).toNat
    let ofInteger := fun (v : Int) => Converts p s (BitVec.ofNat 64 (roundVal t p.rm.toNat (decide (v < 0)) v.natAbs 0).1)
      (roundVal t p.rm.toNat (decide (v < 0)) v.natAbs 0).2
    (p.cvF = 3 → ofInteger (BitVec.ofNat 32 x).toInt) ∧ (p.cvF = 4 → ofInteger ((x % 2 ^ 32 : Nat) : Int)) ∧
    (p.cvF = 5 → ofInteger (s.src p.a).toInt) ∧ (p.cvF = 6 → ofInteger (x : Int)) := by
  intro x ofInteger
  refine ⟨fun h => converts_ofInt (.inl ⟨h, rfl, rfl⟩) ht rfl, fun h => converts_ofInt (.inr (.inl ⟨h, rfl, rfl⟩)) ht rfl,
    fun h => converts_ofInt (.inr (.inr (.inl ⟨h, rfl, rfl⟩))) ht ?_, fun h => converts_ofInt (.inr (.inr (.inr ⟨h, rfl, rfl⟩))) ht ?_⟩
  · rw [BitVec.ofNat_toNat, BitVec.setWidth_eq]; rfl
  · rw [Nat.mod_eq_of_lt (s.src p.a).isLt]; rfl

/-- A float converted to a float type (R200). -/
theorem converts_floats (hf : FloatCode p.cvF f) (ht : FloatCode p.cvT t) : let n := s.srcF f p.a
    let gives := fun (r : Nat × Flags) => Converts p s (BitVec.ofNat 64 r.1) r.2
    (unpack f n = .nan true → gives (t.nan, fNV)) ∧ (unpack f n = .nan false → gives (if f = t then n else t.nan, 0)) ∧
      ((unpack f n).isNan = false → gives (if f = t then (n, 0) else roundFV t p.rm.toNat (unpack f n))) :=
  ⟨fun h => converts_float hf ht (cvtFF_nan f t _ _ h), fun h => converts_float hf ht (cvtFF_nan f t _ _ h),
    fun h => converts_float hf ht (cvtFF_of_not_nan f t _ _ h)⟩

/-- A float converted to an integer type: out of range its bound with NV, else rounded, NX when that is inexact (R200). -/
theorem converts_toInts (hf : FloatCode p.cvF f) (ht : IntCode p.cvT w sg) : let x := unpack f (s.srcF f p.a)
    let lo := intLo w sg
    let hi := intHi w sg
    (x.isNan = true → Converts p s 0 fNV) ∧ (∀ neg, x = .inf neg → Converts p s (BitVec.ofInt 64 (if neg then lo else hi)) fNV) ∧
    ∀ (neg : Bool) (m : Nat) (e : Int), x = .fin neg m e → let k := roundInt p.rm.toNat neg m e
      (k.1 < lo → Converts p s (BitVec.ofInt 64 lo) fNV) ∧ (hi < k.1 → Converts p s (BitVec.ofInt 64 hi) fNV) ∧
      (lo ≤ k.1 → k.1 ≤ hi → Converts p s (BitVec.ofInt 64 k.1) (if k.2 then fNX else 0)) := by
  intro x lo hi
  refine ⟨fun h => ?_, fun neg h => converts_toInt hf ht (r := (_, _)) ((congrArg _ h).trans (toInt_inf ..)), fun neg m e h => ?_⟩
  · obtain ⟨q, hq⟩ := FV.isNan_iff.mp h
    exact converts_toInt hf ht (r := (0, fNV)) (congrArg _ hq)
  · intro k
    have hr : toInt w sg p.rm.toNat x = _ := (congrArg _ h).trans (toInt_fin ..)
    have hb := intLo_le_intHi w sg
    refine ⟨fun hlo => ?_, fun hhi => ?_, fun hlo hhi => ?_⟩
    · exact converts_toInt hf ht (r := (_, _)) (hr.trans (if_pos hlo))
    · exact converts_toInt hf ht (r := (_, _)) (hr.trans ((if_neg (Int.not_lt.mpr (hb.trans hhi.le))).trans (if_pos hhi)))
    · exact converts_toInt hf ht (r := (_, _)) (hr.trans ((if_neg (Int.not_lt.mpr hlo)).trans (if_neg (Int.not_lt.mpr hhi))))

end

/-- A well-formed FCVT names types, not two integer types (R200). -/
theorem fcvt_types (p : R3) (h : (Instr.fcvt p).wellFormed = true) : p.cvF ≤ 6 ∧ p.cvT ≤ 6 ∧ ¬ (3 ≤ p.cvF ∧ 3 ≤ p.cvT) := by
  obtain ⟨hsel, -, -⟩ := Laws.FormatSelects.rules_of h
  simp only [Instr.rules, Bool.and_eq_true, Bool.not_eq_true', Bool.and_eq_false_iff, decide_eq_true_eq, decide_eq_false_iff_not] at hsel
  obtain ⟨⟨⟨-, hf⟩, ht⟩, hint⟩ := hsel
  exact ⟨hf, ht, by omega⟩

theorem conversionResults : ConversionResults := by
  refine ⟨fun p s => ⟨_, _, converts_of_result rfl⟩, fcvt_types, fun p s t ht => ?_, fun p s f w sg hf ht => converts_toInts hf ht,
    by decide, by decide, by decide⟩
  obtain ⟨h3, h4, h5, h6⟩ := converts_integers (s := s) ht
  exact ⟨h3, h4, h5, h6, fun f hf => converts_floats hf ht⟩

/-- Settles O4: the special rows, the scalar instructions and the conversions, each by its own lemma. -/
theorem floatAndConversionResults : Obligations.FloatAndConversionResults := ⟨specialFloatRows, scalarFloatResults, conversionResults⟩

end Sys2Proof.Machine
end

section
/-! PROOFS. FDOT, FRED and FATTN (R116, R271, R272, R304, R305): read requests at lines without a reader count change no read, so every row
that such a form fetches reads as before it; then what each form writes. -/

namespace Sys2Proof.Machine

/-! ### Read requests that use up no count (R140, R141) -/

/-- The far point reads in `t` as in `s`, of which `t` differs in the memory-side caches and the far banks alone; no line has a reader count. -/
structure ReadsAs (s t : State) : Prop where
  same : ∃ m b, t = { s with msc := m, banks := b }
  byte : ∀ a, farByte t a = farByte s a
  bad : ∀ w, farBad t w = farBad s w
  none : t.noReaders

namespace ReadsAs
variable {s t u : State}

theorem refl (h : s.noReaders) : ReadsAs s s := ⟨⟨s.msc, s.banks, rfl⟩, fun _ => rfl, fun _ => rfl, h⟩

theorem trans (h : ReadsAs s t) (k : ReadsAs t u) : ReadsAs s u := by
  obtain ⟨m, b, rfl⟩ := h.same
  obtain ⟨n, c, rfl⟩ := k.same
  exact ⟨⟨n, c, rfl⟩, fun a => (k.byte a).trans (h.byte a), fun w => (k.bad w).trans (h.bad w), k.none⟩

theorem foldl {β : Type} (f : State → β → State) : ∀ (l : List β), (∀ b ∈ l, ∀ t, t.noReaders → ReadsAs t (f t b)) →
    ∀ s, s.noReaders → ReadsAs s (l.foldl f s)
  | [], _, _, h => refl h
  | b :: l, hf, s, h =>
    have hb := hf b List.mem_cons_self s h
    hb.trans (foldl f l (fun c hc => hf c (List.mem_cons_of_mem _ hc)) _ hb.none)

end ReadsAs

/-- A line of no reader count has none at the far point, listed or not (R141). -/
theorem farLine_count {s : State} (h : s.noReaders) (line : Nat) : (farLine s line).count = 0 := by
  unfold farLine
  cases hf : Tbl.find line s.msc with
  | none => rfl
  | some l => exact h _ (Tbl.find_mem hf)

theorem upto_eq_range' (n : Nat) : ∀ a, upto a n = List.range' a n := by
  induction n with
  | zero => exact fun _ => rfl
  | succ n ih => exact fun a => by rw [upto, ih, List.range'_succ]

/-- The far point's byte of a line as `farLine` gives it (R150). -/
theorem farLine_byte (s : State) (a : Nat) : (farLine s (a / 128)).data.getD (a % 128) 0 = farByte s a := by
  unfold farLine farByte
  cases Tbl.find (a / 128) s.msc with
  | some l => rfl
  | none =>
    have hi : a % 128 < 128 := Nat.mod_lt _ (by decide)
    simp [upto_eq_range', hi, Nat.div_add_mod]

theorem farLine_bad (s : State) (w : Nat) : (farLine s (w / 16)).bad.contains (w % 16) = farBad s w := by
  unfold farLine farBad
  cases Tbl.find (w / 16) s.msc with
  | some l => rfl
  | none =>
    have hi : w % 16 < 16 := Nat.mod_lt _ (by decide)
    simp [dramBad, mem_upto, hi, Nat.div_add_mod]

/-- A read request at the memory-side cache takes the line as the far point has it (R140, R141). -/
theorem readsAs_mscRead {s : State} (h : s.noReaders) (line : Nat) : ReadsAs s (mscRead s line) := by
  have hc := farLine_count h line
  unfold mscRead
  split
  · simp only [hc, true_or, if_true]
    refine ⟨⟨_, s.banks, rfl⟩, fun a => ?_, fun w => ?_, fun c hm => ?_⟩
    · by_cases ha : a / 128 = line
      · subst ha
        rw [← farLine_byte s a]
        simp only [farByte, Tbl.find_put_self]
      · simp only [farByte, Tbl.find_put_other ha, dramByte]
    · by_cases hw : w / 16 = line
      · subst hw
        rw [← farLine_bad s w]
        simp only [farBad, Tbl.find_put_self]
      · simp only [farBad, Tbl.find_put_other hw]
    · rcases Tbl.mem_put hm with rfl | hm
      · exact hc
      · exact h c hm
  · exact .refl h

theorem reqKey_mod {page : Nat} (h : page < 4) (a : Nat) : reqKey page a % 4 = page := by
  unfold reqKey; omega

/-- A read request past L2 changes no read (R141). -/
theorem readsAs_nearRead {s : State} (h : s.noReaders) (replay : Bool) (line : Nat) : ReadsAs s (nearRead s replay true line) := by
  cases replay
  · exact readsAs_mscRead h line
  · exact .refl h

/-- The reads of a far execution change no read (R141). -/
theorem readsAs_countFarReads {s : State} (h : s.noReaders) (reqs : List Nat) : ReadsAs s (countFarReads s reqs) := by
  refine ReadsAs.foldl _ _ (fun k hk t ht => ?_) s h
  have uncached : k % 4 ≠ 0 := by
    rcases List.mem_append.mp hk with hk | hk
    · obtain ⟨r, hr, rfl⟩ := List.mem_map.mp (List.mem_dedup.mp hk)
      obtain ⟨q, -, rfl⟩ := List.mem_map.mp (List.mem_filter.mp hr).1
      rw [reqKey_mod (Nat.mod_lt _ (by decide)), reqKey_mod (by decide)]
      decide
    · obtain ⟨r, -, rfl⟩ := List.mem_map.mp hk
      rw [reqKey_mod (by decide)]
      decide
  simp only [uncached, ne_eq, not_false_eq_true, decide_true]
  exact readsAs_nearRead ht _ _

/-! ### What a far execution reads -/

/-- Poison is looked for word by word (R455). -/
theorem poisonedAt_eq_find (s : State) (far : Bool) (a n : Nat) :
    poisonedAt s far a n = (upto (a / 8) ((a + n + 7) / 8 - a / 8)).find? (fun w => if far then farBad s w else nearBad s w) := by
  unfold poisonedAt
  split
  · rename_i hclean
    simp only [Bool.and_eq_true, List.isEmpty_iff, List.all_eq_true] at hclean
    obtain ⟨⟨hmem, hnear⟩, hmsc⟩ := hclean
    have hfar : ∀ w, farBad s w = false := fun w => by
      unfold farBad
      cases hf : Tbl.find (w / 16) s.msc with
      | none => simp [hmem]
      | some l =>
        have hl : l.bad = [] := hmsc _ (Tbl.find_mem hf)
        simp [hl]
    have hbad : ∀ w, (if far then farBad s w else nearBad s w) = false := fun w => by
      simp [hfar, nearBad, hnear]
    exact (List.find?_eq_none.mpr fun w _ => by simp [hbad w]).symm
  · rfl

namespace ReadsAs
variable {s t : State} (h : ReadsAs s t)
include h

theorem nearByte_eq (a : Nat) : nearByte t a = nearByte s a := by
  have hb := h.byte a
  obtain ⟨m, b, rfl⟩ := h.same
  simp only [nearByte, hb]

theorem sameMemory : sameMemory s t := fun a => by
  refine ⟨h.nearByte_eq a, h.byte a, ?_⟩
  obtain ⟨m, b, rfl⟩ := h.same
  rfl

theorem readBytes_eq (far : Bool) (a n : Nat) : readBytes t far a n = readBytes s far a n := by
  simp only [readBytes, h.byte, h.nearByte_eq]

theorem poisonedAt_eq (far : Bool) (a n : Nat) : poisonedAt t far a n = poisonedAt s far a n := by
  have hbad := h.bad
  obtain ⟨m, b, rfl⟩ := h.same
  simp only [poisonedAt_eq_find, nearBad, hbad]

theorem readPhys_eq (p : Phys) (n : Nat) (far : Bool) : t.readPhys p n far = s.readPhys p n far := by
  simp only [State.readPhys, h.poisonedAt_eq, h.readBytes_eq]

theorem resolve_eq (ranks : List Nat) (m pa : Nat) : t.resolve ranks m pa = s.resolve ranks m pa := by
  obtain ⟨m, b, rfl⟩ := h.same
  rfl

theorem holderAt_eq (m : Nat) (x : Spot) (posted : Bool) (k : Holder) : t.holderAt m x posted k = s.holderAt m x posted k := by
  obtain ⟨m, b, rfl⟩ := h.same
  rfl

theorem walk_eq (v : View) (va : Nat) (w : Want) (n : Nat) : ∀ ppn, walk t v va w n ppn = walk s v va w n ppn := by
  induction n with
  | zero => exact fun _ => rfl
  | succ n ih => exact fun ppn => by simp only [walk, h.resolve_eq, h.holderAt_eq, h.poisonedAt_eq, h.readBytes_eq, ih]

theorem leafFor_eq (v : View) (va : Nat) (w : Want) : t.leafFor v va w = s.leafFor v va w := by
  have hw := h.walk_eq v va w
  have hheld : t.heldLeaf v va = s.heldLeaf v va ∧ t.walkStart v va = s.walkStart v va := by
    obtain ⟨m, b, rfl⟩ := h.same
    exact ⟨rfl, rfl⟩
  simp only [State.leafFor, hheld, hw]

theorem translateAs_eq (v : View) (va : Nat) (w : Want) : t.translateAs v va w = s.translateAs v va w := by
  have hmod : t.mod? v.m = s.mod? v.m := by
    obtain ⟨m, b, rfl⟩ := h.same
    rfl
  simp only [State.translateAs, h.leafFor_eq, hmod, h.resolve_eq, h.holderAt_eq]

theorem viewAt_eq (home : Option Nat) : t.viewAt home = s.viewAt home := by
  obtain ⟨m, b, rfl⟩ := h.same
  rfl

theorem transRunsD_eq (v : View) (w : Want) (sub : Nat) (rs : List (Nat × Nat)) : t.transRunsD v w sub rs = s.transRunsD v w sub rs := by
  induction rs with
  | nil => rfl
  | cons r rs ih => simp only [State.transRunsD, h.translateAs_eq, ih]

theorem readRuns_eq (far : Bool) (ps : List (Phys × Nat)) : t.readRuns far ps = s.readRuns far ps := by
  induction ps with
  | nil => rfl
  | cons p ps ih => simp only [State.readRuns, h.readPhys_eq, ih]

theorem readAt_eq (home : Nat) (sub : Option Nat) (base : Nat) (offs : List Nat) :
    ∀ last, t.readAt (some home) sub base last offs = s.readAt (some home) sub base last offs := by
  induction offs with
  | nil => exact fun _ => rfl
  | cons o offs ih => exact fun last => by simp only [State.readAt, h.translateAs_eq, h.viewAt_eq, h.readPhys_eq, ih, Option.isSome_some, if_true]

theorem fetchBytes_eq (home sub va n : Nat) : t.fetchBytes (some home) sub va n = s.fetchBytes (some home) sub va n := by
  simp only [State.fetchBytes, State.transRangeD, h.transRunsD_eq, h.viewAt_eq, h.readRuns_eq, Option.isSome_some, if_true]

theorem kbRow_eq (home sub : Nat) (ty : FT) (n p base f : Nat) :
    ∀ e0 cnt, t.kbRow (some home) sub ty n p base f e0 cnt = s.kbRow (some home) sub ty n p base f e0 cnt := by
  induction f with
  | zero => exact fun _ _ => rfl
  | succ f ih => exact fun e0 cnt => by simp only [State.kbRow, State.kbChunkBytes, h.readAt_eq, ih]

/-- A base die fetches the same row. -/
theorem row_eq (home sub : Nat) (ty : FT) (fmt planes base e0 cnt : Nat) :
    t.row (some home) sub ty fmt planes base e0 cnt = s.row (some home) sub ty fmt planes base e0 cnt := by
  simp only [State.row, State.plainRow, State.plainBits, h.fetchBytes_eq, h.kbRow_eq]

end ReadsAs

/-! ### Far registers written among reads -/

namespace ReadsAs
variable {s t : State} (h : ReadsAs s t)
include h

theorem cur_eq : t.cur = s.cur := by
  obtain ⟨m, b, rfl⟩ := h.same
  rfl

theorem poison_eq : t.poison = s.poison := by
  obtain ⟨m, b, rfl⟩ := h.same
  rfl

theorem writeFar (home r w : Nat) (els : List (Nat × Nat)) : ReadsAs s (t.writeFar home r w els) := by
  obtain ⟨b, hb⟩ := State.writeFar_frame home r w els t
  rw [hb]
  exact h.trans ⟨⟨t.msc, b, rfl⟩, fun _ => rfl, fun _ => rfl, h.none⟩

theorem countFarReads (reqs : List Nat) : ReadsAs s (countFarReads t reqs) := h.trans (readsAs_countFarReads h.none reqs)

end ReadsAs

/-- The far banks that a write leaves are a matter of the far banks before it and of the hart. -/
theorem State.writeFar_banks_congr (home r w : Nat) (els : List (Nat × Nat)) : ∀ {s t : State}, t.banks = s.banks → t.cur = s.cur →
    (t.writeFar home r w els).banks = (s.writeFar home r w els).banks := by
  induction els with
  | nil => exact fun hb _ => hb
  | cons e els ih =>
    intro s t hb hc
    refine ih (s := s.setFarElem home r w e.1 e.2) (t := t.setFarElem home r w e.1 e.2) ?_ hc
    simp only [State.setFarElem, State.setFar, State.far, hb, hc]

/-- The first of several writes and then the others. -/
theorem State.writeFar_cons_banks {s t : State} (home r w : Nat) (e : Nat × Nat) (els : List (Nat × Nat))
    (hb : t.banks = s.banks) (hc : t.cur = s.cur) :
    ((t.writeFar home r w [e]).writeFar home r w els).banks = (s.writeFar home r w (e :: els)).banks :=
  State.writeFar_banks_congr home r w (e :: els) hb hc

theorem State.farElem_congr {s t : State} (hb : t.banks = s.banks) (hm : t.cur.mod = s.cur.mod) (hseat : t.cur.seat = s.cur.seat)
    (home r w i : Nat) : t.farElem home r w i = s.farElem home r w i := by
  simp only [State.farElem, State.far, Hart.devSlot, hb, hm, hseat]

/-- A far form that only reads, and writes far registers and flags, completes with those (R28, R267). -/
theorem farForm_completes {i : Instr} {op : FarOp} {s t : State} {home : Nat} {fl : Flags} (he : exec i s = runFar i op s)
    (hr : s.farReady home) (hc : noCond (op.conds s)) (hsel : op.select s = .ok home) (hnear : op.near = none)
    (hrun : op.run s home = ⟨t, fl, [], none⟩) (h : ReadsAs s t) :
    ∃ u, exec i s = .next u ∧ u.banks = t.banks ∧ u.cur.mod = s.cur.mod ∧ u.cur.seat = s.cur.seat ∧
      u.cur.aflags = s.cur.aflags ||| fl ∧ farFrame s u ∧ sameMemory s u := by
  have hex := he.trans (runFar_completes hr hc hsel hrun rfl)
  rw [State.farDone, hnear] at hex
  simp only at hex
  have hmem := h.sameMemory
  obtain ⟨m, b, rfl⟩ := h.same
  refine ⟨_, hex, ?_, ?_, ?_, ?_, ⟨sameG_of_eq ?_, ?_, ?_, ?_, ?_, ?_, ?_, ?_, finishes_completedV ?_ rfl rfl rfl⟩,
    fun a => by simpa [State.byteAt, nearByte, farByte, dramByte, State.noRequest] using hmem a⟩ <;>
    simp [State.noRequest, sameVec, sameSpecial]

/-- What a form wrote is known from the far banks that it left. -/
theorem wroteFar_of_banks {s t : State} (hs : Tbl.rising s.banks = true) {home d w : Nat} {els : List Nat} (hn : els.Nodup) {f : Nat → Nat}
    (hb : t.banks = (s.writeFar home d w (els.map (fun i => (i, f i)))).banks) (hm : t.cur.mod = s.cur.mod) (hseat : t.cur.seat = s.cur.seat) :
    wroteFar s t home d w (· ∈ els) f := by
  obtain ⟨b, hw⟩ := State.writeFar_frame home d w (els.map (fun i => (i, f i))) s
  exact wroteFar_congr hb (by rw [hw, hm]) (by rw [hw, hseat]) (wroteFar_writeFar hs home d w hn f)

/-! ### Flags of several elements -/

theorem flags_ext {f g : Flags} (h : ∀ k, f.getLsbD k = true ↔ g.getLsbD k = true) : f = g :=
  BitVec.eq_of_getLsbD_eq fun k _ => Bool.eq_iff_iff.mpr (h k)

@[simp] theorem orFlags_nil : orFlags [] = 0 := rfl
theorem flags_or_zero (f : Flags) : f ||| 0 = f := BitVec.or_zero
theorem flags_zero_or (f : Flags) : 0 ||| f = f := BitVec.zero_or

theorem orFlags_cons (x : Flags) (xs : List Flags) : orFlags (x :: xs) = x ||| orFlags xs := by
  refine flags_ext fun k => ?_
  simp [getLsbD_orFlags]

theorem orFlags_append (xs ys : List Flags) : orFlags (xs ++ ys) = orFlags xs ||| orFlags ys := by
  refine flags_ext fun k => ?_
  simp [getLsbD_orFlags, or_and_right, exists_or]

/-- The flags of elements that raise two things each. -/
theorem orFlags_map_or {α : Type} (xs : List α) (f g : α → Flags) :
    orFlags (xs.map (fun x => f x ||| g x)) = orFlags (xs.map f) ||| orFlags (xs.map g) := by
  refine flags_ext fun k => ?_
  simp [getLsbD_orFlags, and_or_left, exists_or]

/-- A flag is raised by some element of a list of elements. -/
theorem raisedBy_of_orFlags {s t : State} {els : List Nat} {f : Nat → Flags} (h : t.cur.aflags = s.cur.aflags ||| orFlags (els.map f)) :
    raisedBy s t (· ∈ els) f := fun k => by
  rw [h, BitVec.getLsbD_or, Bool.or_eq_true, getLsbD_orFlags]
  simp

theorem State.anyPoison_of_clean {s : State} (h : s.clean = true) (ws : List SramWord) : s.anyPoison ws = false := by
  have hp : s.poison.isEmpty = true := h
  simp [State.anyPoison, hp]

/-- An operand none of whose checked addresses fails the home check passes it (R443). -/
theorem State.homeFaults_none {s : State} {home : Nat} {w : Want} {vas : List Nat} (h : ∀ a ∈ vas, s.homeFault (s.farView home) home a w = none) :
    s.homeFaults home w vas = none := by
  have hnil : vas.filterMap (fun va => s.homeFault (s.farView home) home va w) = [] := List.filterMap_eq_nil_iff.mpr h
  simp [State.homeFaults, State.homeFaultsAs, hnil]

/-! ### FDOT (R271) -/

/-- A row of FDOT: the accumulation from `e` and its flags. -/
def dotOf (p : M) (q : List FV) (row : Row) (e : Nat) : Nat × Flags := farSteps (if p.sf.getLsbD 3 then e else 0) (row.vals.zip q)

section
variable {p : M} {home : Nat} {q : List FV} {s : State} {rows : Nat → Row}

/-- FDOT takes its rows one after another; each writes its own element. -/
theorem dotLoop_eq (hclean : s.clean = true) :
    ∀ (els : List Nat), els.Nodup →
    (∀ r ∈ els, s.row (some home) 3 .bf16 p.fmt.toNat p.planes.toNat (s.dotRow p r).1 (s.dotRow p r).2 (dotLen p) = .ok (rows r)) →
    ∀ (u : State) (f : Flags) (e : Nat → Nat), ReadsAs s u → Tbl.rising u.banks = true →
      (∀ r ∈ els, u.farElem home (p.d.toNat % 16) 32 r = e r) →
    ∃ t, dotLoop p home q els u f = ⟨t, f ||| orFlags (els.map (fun r => (rows r).flags ||| (dotOf p q (rows r) (e r)).2)), [], none⟩ ∧
      ReadsAs s t ∧ t.banks = (u.writeFar home (p.d.toNat % 16) 32 (els.map (fun r => (r, (dotOf p q (rows r) (e r)).1)))).banks := by
  intro els
  induction els with
  | nil => exact fun _ _ u f _ h _ _ => ⟨u, by simp [dotLoop, orFlags], h, rfl⟩
  | cons r els ih =>
    intro hn hrows u f e h hrise he
    obtain ⟨hr, hn⟩ := List.nodup_cons.mp hn
    have hu : u.clean = true := by rw [State.clean, h.poison_eq]; exact hclean
    have hrow := (h.row_eq home 3 .bf16 p.fmt.toNat p.planes.toNat (s.dotRow p r).1 (s.dotRow p r).2 (dotLen p)).trans
      (hrows r List.mem_cons_self)
    have hdot : u.dotRow p r = s.dotRow p r := by
      obtain ⟨m, b, rfl⟩ := h.same
      rfl
    have hc := h.countFarReads (rows r).locs
    have hcb : (countFarReads u (rows r).locs).banks = u.banks := (memStep_countFarReads u _).banks
    have hcc : (countFarReads u (rows r).locs).cur = u.cur := (memStep_countFarReads u _).cur
    have hclean' : (countFarReads u (rows r).locs).clean = true := by rw [State.clean, hc.poison_eq]; exact hclean
    let v := (countFarReads u (rows r).locs).writeFar home (p.d.toNat % 16) 32 [(r, (dotOf p q (rows r) (e r)).1)]
    have hv : ReadsAs s v := hc.writeFar ..
    have hvrise : Tbl.rising v.banks = true := State.rising_setFarElem (by rw [hcb]; exact hrise) ..
    have hvelem : ∀ k ∈ els, v.farElem home (p.d.toNat % 16) 32 k = e k := fun k hk => by
      have hkr : k ≠ r := fun x => hr (x ▸ hk)
      have hset := State.farElem_setFarElem_other (s := countFarReads u (rows r).locs) (by rw [hcb]; exact hrise) home (p.d.toNat % 16) 32
        (dotOf p q (rows r) (e r)).1 hkr
      exact hset.trans ((State.farElem_congr hcb (by rw [hcc]) (by rw [hcc]) ..).trans (he k (List.mem_cons_of_mem _ hk)))
    obtain ⟨t, ht, hread, hbanks⟩ := ih hn (fun k hk => hrows k (List.mem_cons_of_mem _ hk)) v
      (f ||| (rows r).flags ||| (dotOf p q (rows r) (e r)).2) e hv hvrise hvelem
    refine ⟨t, ?_, hread, ?_⟩
    · rw [dotLoop, hdot, hrow]
      simp only [State.anyPoison_of_clean hu, State.putFar_of_clean hclean', bit_toNat, he r List.mem_cons_self, Bool.false_eq_true, if_false]
      rw [List.map_cons, orFlags_cons, ← BitVec.or_assoc, ← BitVec.or_assoc]
      exact ht
    · rw [hbanks, List.map_cons]
      exact State.writeFar_cons_banks _ _ _ _ _ hcb hcc

/-- FDOT writes each element its row's dot product with the query (R271). -/
theorem fdot_writes (hr : s.farReady home) (hn : s.noReaders) (hc : noCond ((farDot p).conds s)) (hsel : (farDot p).select s = .ok home)
    (hhome : ∀ r, r < s.cur.cfg.vl.toNat → s.homeFault (s.farView home) home (s.dotSpan p r).1 .load = none ∧
      s.homeFault (s.farView home) home (s.dotSpan p r).2 .load = none)
    (hrows : ∀ r, s.farPerforms r →
      s.row (some home) 3 .bf16 p.fmt.toNat p.planes.toNat (s.dotRow p r).1 (s.dotRow p r).2 (dotLen p) = .ok (rows r)) :
    let query := (List.range (dotLen p)).map (fun k => unpack .bf16 (s.farElem home p.rdr.toNat 16 k))
    let a := fun r => dotOf p query (rows r) (s.farElem home (p.d.toNat % 16) 32 r)
    ∃ t, exec (.fdot p) s = .next t ∧ wroteFar s t home (p.d.toNat % 16) 32 s.farPerforms (fun r => (a r).1) ∧
      raisedBy s t s.farPerforms (fun r => (rows r).flags ||| (a r).2) ∧ farFrame s t ∧ sameMemory s t := by
  intro query a
  have hwhole : s.dotWhole p home = none := by
    rw [State.dotWhole, State.homeFaults_none fun x hx => ?_, Option.map_none]
    obtain ⟨r, hr, hx⟩ := List.mem_flatMap.mp hx
    obtain ⟨hlo, hhi⟩ := hhome r (by have := (mem_upto _).mp hr; omega)
    rcases List.mem_cons.mp hx with rfl | hx
    · exact hlo
    · rwa [List.mem_singleton.mp hx]
  obtain ⟨u, hloop, hread, hbanks⟩ := dotLoop_eq (q := query) (rows := rows) hr.clean s.farEls s.nodup_farEls
    (fun r h => hrows r (State.mem_farEls.mp h)) s 0 _ (.refl hn) hr.rising (fun r _ => rfl)
  have hrun : (farDot p).run s home = ⟨u, orFlags (s.farEls.map (fun r => (rows r).flags ||| (a r).2)), [], none⟩ := by
    simp only [farDot, hwhole, upto_zero_eq_range]
    rw [hloop]
    simp [FarOut.keeping, a]
  obtain ⟨t, hex, htb, htm, hts, hfl, hframe, hmem⟩ := farForm_completes (i := .fdot p) rfl hr hc hsel rfl hrun hread
  rw [← State.mem_farEls_eq]
  exact ⟨t, hex, wroteFar_of_banks hr.rising s.nodup_farEls (htb.trans hbanks) htm hts, raisedBy_of_orFlags hfl, hframe, hmem⟩

end

/-! ### FRED (R272) -/

/-- Accumulator `j` of FRED from `a` once the elements from `e` to below `n` are taken: those with k mod 16 = j, ascending. -/
def redAcc (op : Nat) (x : Nat → FV) (a : Nat → Nat) (e j n : Nat) : Nat :=
  ((List.range n).filter (fun k => decide (e ≤ k) && decide (k % 16 = j))).foldl (fun a k => (redOne op a (x k) (bits32 (x k))).1) (a j)

/-- What element `k` of FRED does to its accumulator. -/
def redStepAt (op : Nat) (x : Nat → FV) (a : Nat → Nat) (e k : Nat) : Nat × Flags := redOne op (redAcc op x a e (k % 16) k) (x k) (bits32 (x k))

section
variable {op : Nat} {x : Nat → FV} {a : Nat → Nat} {e : Nat}

theorem redAcc_of_le {n : Nat} (h : n ≤ e) (j : Nat) : redAcc op x a e j n = a j := by
  have hnil : (List.range n).filter (fun k => decide (e ≤ k) && decide (k % 16 = j)) = [] :=
    List.filter_eq_nil_iff.mpr fun k hk => by
      have := List.mem_range.mp hk
      simp only [Bool.and_eq_true, decide_eq_true_eq]
      omega
  rw [redAcc, hnil, List.foldl_nil]

theorem redAcc_max (j n : Nat) : redAcc op x a e j (max e n) = redAcc op x a e j n := by
  rcases le_total e n with h | h
  · rw [max_eq_right h]
  · rw [max_eq_left h, redAcc_of_le le_rfl, redAcc_of_le h]

theorem redAcc_succ {k : Nat} (h : e ≤ k) (j : Nat) :
    redAcc op x a e j (k + 1) = if k % 16 = j then (redStepAt op x a e k).1 else redAcc op x a e j k := by
  rw [redAcc, List.range_succ, List.filter_append, List.foldl_append]
  by_cases hj : k % 16 = j
  · subst hj
    simp [h, redStepAt, redAcc]
  · simp [hj, redAcc]

/-- The 16 accumulators before element `k`. -/
def redAccs (op : Nat) (x : Nat → FV) (a : Nat → Nat) (e k : Nat) : List Nat := (upto 0 16).map (fun j => redAcc op x a e j k)

theorem redAccs_getD (k : Nat) {j : Nat} (hj : j < 16) : (redAccs op x a e k).getD j 0 = redAcc op x a e j k := by
  simp [redAccs, upto_eq_range', hj]

theorem redAccs_set {k : Nat} (h : e ≤ k) : (redAccs op x a e k).set (k % 16) (redStepAt op x a e k).1 = redAccs op x a e (k + 1) := by
  refine List.ext_getElem (by simp [redAccs]) fun j hj _ => ?_
  simp only [redAccs, List.getElem_set, List.getElem_map, upto_eq_range', List.getElem_range', redAcc_succ h]
  simp

/-- FRED's elements one after another (R272). -/
theorem redInto_upto (n : Nat) : ∀ (k : Nat) (f : Flags), e ≤ k → redInto op ((upto k n).map x) k (redAccs op x a e k) f =
    (redAccs op x a e (k + n), f ||| orFlags ((upto k n).map (fun k => (redStepAt op x a e k).2))) := by
  induction n with
  | zero => intro k f _; simp [upto, redInto, orFlags]
  | succ n ih =>
    intro k f h
    have hstep : redOne op ((redAccs op x a e k).getD (k % 16) 0) (x k) (bits32 (x k)) = redStepAt op x a e k := by
      rw [redAccs_getD k (Nat.mod_lt _ (by decide)), redStepAt]
    simp only [upto, List.map_cons, redInto, hstep, redAccs_set h, ih (k + 1) _ (by omega), orFlags_cons, BitVec.or_assoc]
    rw [Nat.add_right_comm]
    rfl

end

theorem floatWidth_pos (p : M) : 0 < floatWidth p := by
  have hpos : ∀ t : FT, 0 < t.width / 8 := fun t => by cases t <;> decide
  exact hpos _

/-- A piece of FRED is not empty and ends within the operand (R438). -/
theorem redPiece_bounds (s : State) (p : M) (k : Nat) {left : Nat} (h : 0 < left) : 0 < s.redPiece p k left ∧ s.redPiece p k left ≤ left := by
  have pieces : ∀ a c : Nat, 0 < c → 0 < (2 ^ 21 - a % 2 ^ 21 + c - 1) / c := fun a c hc => by
    have ha : a % 2 ^ 21 < 2 ^ 21 := Nat.mod_lt _ (by decide)
    exact Nat.div_pos (by omega) hc
  unfold State.redPiece
  split
  · have hc := pieces (s.memBase p + k / 512 * kbChunk (kbBits p.fmt.toNat)) (kbChunk (kbBits p.fmt.toNat)) (by unfold kbChunk; omega)
    simp only
    omega
  · have hw := pieces (s.memBase p + k * floatWidth p) (floatWidth p) (floatWidth_pos p)
    simp only
    omega

theorem upto_append (m n : Nat) : ∀ a, upto a m ++ upto (a + m) n = upto a (m + n) := by
  intro a
  simp only [upto_eq_range', ← List.range'_append, Nat.one_mul]

section
variable {p : M} {home N e : Nat} {s : State} {x : Nat → FV} {g : Nat → Flags} {at_ : Nat → Nat → List Nat} {a : Nat → Nat}

/-- The operand of FRED can be read: element k is x k, raising g k (R272). -/
def RedReads (p : M) (s : State) (home N : Nat) (x : Nat → FV) (g : Nat → Flags) (at_ : Nat → Nat → List Nat) : Prop :=
  (∀ k n, k + n ≤ N → s.row (some home) 3 .fp32 p.fmt.toNat p.planes.toNat (s.memBase p) k n =
    .ok ⟨(List.range n).map (fun j => x (k + j)), orFlags ((List.range n).map (fun j => g (k + j))), at_ k n⟩) ∧
  ∀ k n, 0 < n → k + n ≤ N → let sp := rowSpan p.fmt.toNat p.planes.toNat (s.memBase p) k n
    ∃ ps, s.transRangeD (s.farView home) (sp.1 % 2 ^ 64) (sp.2 + 1 - sp.1) .load 3 = .ok ps

theorem range_map_shift {α : Type} (f : Nat → α) (k n : Nat) : (List.range n).map (fun j => f (k + j)) = (upto k n).map f := by
  rw [upto_eq_range', List.range'_eq_map_range, List.map_map]
  rfl

/-- A piece of the operand reads as before the instruction. -/
theorem redRead_eq (hx : RedReads p s home N x g at_) {u : State} (h : ReadsAs s u) {k n : Nat} (hn : 0 < n) (hk : k + n ≤ N) :
    u.redRead p home k n = (⟨(upto k n).map x, orFlags ((upto k n).map g), at_ k n⟩, none) := by
  obtain ⟨hrow, htrans⟩ := hx
  obtain ⟨ps, hps⟩ := htrans k n hn hk
  have hbase : u.memBase p = s.memBase p ∧ u.farView home = s.farView home := by
    obtain ⟨m, b, rfl⟩ := h.same
    exact ⟨rfl, rfl⟩
  simp only [State.redRead, hbase, State.transRangeD, h.transRunsD_eq, h.row_eq]
  simp only [State.transRangeD] at hps
  rw [hps, hrow k n hk]
  simp only [range_map_shift]

/-- FRED takes its operand piece by piece, then writes its accumulators (R272, R438). -/
theorem redLoop_eq (hclean : s.clean = true) (hx : RedReads p s home N x g at_) (fuel : Nat) :
    ∀ (k : Nat) (u : State) (f : Flags), ReadsAs s u → u.banks = s.banks → e ≤ k → N - k < fuel →
    ∃ t, redLoop p home N fuel k u (redAccs (p.sf.toNat % 4) x a e k) f =
        ⟨t, f ||| orFlags ((upto k (N - k)).map (fun k => g k ||| (redStepAt (p.sf.toNat % 4) x a e k).2)), [], none⟩ ∧ ReadsAs s t ∧
      t.banks = (s.writeFar home (p.d.toNat % 16) 32 ((upto 0 16).map (fun j => (j, redAcc (p.sf.toNat % 4) x a e j (max k N))))).banks := by
  induction fuel with
  | zero => intro k u f _ _ _ hf; omega
  | succ fuel ih =>
    intro k u f h hb hk hf
    have hu : u.clean = true := by rw [State.clean, h.poison_eq]; exact hclean
    unfold redLoop
    by_cases hN : N ≤ k
    · have hput : (redAccs (p.sf.toNat % 4) x a e k).zipIdx.map (fun y => (y.2, y.1)) =
          (upto 0 16).map (fun j => (j, redAcc (p.sf.toNat % 4) x a e j (max k N))) := by
        rw [max_eq_left hN]
        refine List.ext_getElem (by simp [redAccs]) fun j _ _ => ?_
        simp [redAccs, upto_eq_range']
      refine ⟨u.writeFar home (p.d.toNat % 16) 32 ((upto 0 16).map (fun j => (j, redAcc (p.sf.toNat % 4) x a e j (max k N)))), ?_,
        h.writeFar .., State.writeFar_banks_congr _ _ _ _ hb h.cur_eq⟩
      have hnil : upto k (N - k) = [] := by rw [Nat.sub_eq_zero_of_le hN, upto]
      simp only [if_pos hN, State.putFar_of_clean hu, hput, hnil, List.map_nil, orFlags_nil, flags_or_zero]
    · obtain ⟨hpos, hle⟩ := redPiece_bounds u p k (left := N - k) (by omega)
      obtain ⟨n, hn⟩ : ∃ n, u.redPiece p k (N - k) = n := ⟨_, rfl⟩
      rw [hn] at hpos hle
      have hread := redRead_eq hx h hpos (by omega : k + n ≤ N)
      have hc := h.countFarReads (at_ k n)
      obtain ⟨t, ht, htr, htb⟩ := ih (k + n) (countFarReads u (at_ k n)) 
        (f ||| orFlags ((upto k n).map g) ||| orFlags ((upto k n).map (fun k => (redStepAt (p.sf.toNat % 4) x a e k).2))) hc
        ((memStep_countFarReads u _).banks.trans hb) (by omega) (by omega)
      refine ⟨t, ?_, htr, ?_⟩
      · simp only [if_neg hN, hn, hread, redInto_upto n k 0 hk, List.length_map, length_upto, flags_zero_or]
        rw [ht, show N - k = n + (N - (k + n)) by omega, ← upto_append, List.map_append, orFlags_append, orFlags_map_or (upto k n),
          BitVec.or_assoc, BitVec.or_assoc, BitVec.or_assoc]
      · rw [htb, max_eq_right (by omega : k + n ≤ N), max_eq_right (by omega : k ≤ N)]

/-- FRED takes element k into accumulator k mod 16 (R272). -/
theorem fred_writes (hr : s.farReady home) (hn : s.noReaders) (hc : noCond ((farRed p).conds s)) (hsel : (farRed p).select s = .ok home)
    (hhome : let sp := rowSpan p.fmt.toNat p.planes.toNat (s.memBase p) 0 (s.redN p)
      ∀ a ∈ pagesOf sp.1 sp.2, s.homeFault (s.farView home) home a .load = none)
    (hx : RedReads p s home (s.redN p) x g at_) :
    let acc := redAcc (p.sf.toNat % 4) x (s.farElem home (p.d.toNat % 16) 32) s.cur.unf.estart
    ∃ t, exec (.fred p) s = .next t ∧ wroteFar s t home (p.d.toNat % 16) 32 (fun j => j < 16) (fun j => acc j (s.redN p)) ∧
      raisedBy s t (fun k => s.cur.unf.estart ≤ k ∧ k < s.redN p)
        (fun k => g k ||| (redOne (p.sf.toNat % 4) (acc (k % 16) k) (x k) (bits32 (x k))).2) ∧ farFrame s t ∧ sameMemory s t := by
  intro acc
  have hwhole : s.redWhole p home = none := by
    simp only [State.redWhole, State.homeFaults_none hhome, Option.map_none]
  have hfirst : (upto 0 16).map (s.farElem home (p.d.toNat % 16) 32) =
      redAccs (p.sf.toNat % 4) x (s.farElem home (p.d.toNat % 16) 32) s.cur.unf.estart s.cur.unf.estart := by
    simp only [redAccs, redAcc_of_le le_rfl]
  obtain ⟨u, hloop, hread, hbanks⟩ := redLoop_eq hr.clean hx (s.redN p + 1) s.cur.unf.estart s 0 (.refl hn) rfl le_rfl (by omega)
  have hrun : (farRed p).run s home = ⟨u, orFlags ((upto s.cur.unf.estart (s.redN p - s.cur.unf.estart)).map (fun k => g k |||
      (redStepAt (p.sf.toNat % 4) x (s.farElem home (p.d.toNat % 16) 32) s.cur.unf.estart k).2)), [], none⟩ := by
    simp only [farRed, hwhole, State.anyPoison_of_clean hr.clean, hfirst, Bool.false_eq_true, if_false]
    rw [hloop, flags_zero_or, FarOut.keeping]
  obtain ⟨t, hex, htb, htm, hts, hfl, hframe, hmem⟩ := farForm_completes (i := .fred p) rfl hr hc hsel rfl hrun hread
  simp only [redAcc_max] at hbanks
  have hw := wroteFar_of_banks hr.rising (nodup_upto 16 0) (htb.trans hbanks) htm hts
  have hf := raisedBy_of_orFlags hfl
  have hin : (· ∈ upto 0 16) = fun j => j < 16 := funext fun j => propext (by rw [mem_upto]; omega)
  have hels : (· ∈ upto s.cur.unf.estart (s.redN p - s.cur.unf.estart)) = fun k => s.cur.unf.estart ≤ k ∧ k < s.redN p :=
    funext fun k => propext (by rw [mem_upto]; omega)
  rw [hin] at hw
  rw [hels] at hf
  exact ⟨t, hex, hw, hf, hframe, hmem⟩

end

/-! ### FATTN (R304, R305) -/

section
variable {s : State} (hs : Tbl.rising s.banks = true)
include hs

theorem State.rising_writeFar (home r w : Nat) (els : List (Nat × Nat)) : Tbl.rising (s.writeFar home r w els).banks = true := by
  induction els generalizing s with
  | nil => exact hs
  | cons e els ih => exact ih (State.rising_setFarElem hs ..)

/-- An element in another far register than those written stays. -/
theorem State.farElem_writeFar_disjoint (home : Nat) {r w r' w' i : Nat} (els : List (Nat × Nat))
    (h : ∀ e ∈ els, r' + i / fe w' ≠ r + e.1 / fe w) :
    (s.writeFar home r w els).farElem home r' w' i = s.farElem home r' w' i := by
  have hbank := State.banks_writeFar_outside home r w els (k := bankKey home s.cur.mod s.cur.devSlot (r' + i / fe w')) hs
    fun e he => mt bankKey_inj.mp (h e he)
  obtain ⟨b, hb⟩ := State.writeFar_frame home r w els s
  rw [hb] at hbank ⊢
  simp only [State.farElem, State.far, hbank]

end

theorem fe_32 : fe 32 = 16 := rfl

/-- The far registers that FATTN's update writes: O, then m and l, then SC under SF[3] (R304, R306). -/
def State.attnPut (s : State) (home : Nat) (p : M) (u : AttnState) : State :=
  let d := p.d.toNat % 16
  let q := p.sf.toNat % 4 + 1
  let t := (s.writeFar home d 32 (u.o.zipIdx.map (fun x => (x.2, x.1)))).writeFar home (d + 2 * q) 32 [(0, u.m), (1, u.l)]
  if p.sf.getLsbD 3 then t.writeFar home (d + 2 * q + 1) 32 ((upto 0 16).map (fun i => (i, u.sc.getD i 0))) else t

section
variable {s : State} (hs : Tbl.rising s.banks = true) (home : Nat) (p : M) (u : AttnState)
include hs

/-- SC's registers are none of the others. -/
theorem State.farElem_attnPut_below {r i : Nat} (h : r + i / 16 ≤ p.d.toNat % 16 + 2 * (p.sf.toNat % 4 + 1)) :
    (s.attnPut home p u).farElem home r 32 i = ((s.writeFar home (p.d.toNat % 16) 32 (u.o.zipIdx.map (fun x => (x.2, x.1)))).writeFar home
      (p.d.toNat % 16 + 2 * (p.sf.toNat % 4 + 1)) 32 [(0, u.m), (1, u.l)]).farElem home r 32 i := by
  unfold State.attnPut
  simp only
  split
  · exact State.farElem_writeFar_disjoint (State.rising_writeFar (State.rising_writeFar hs ..) ..) home _ fun e _ => by rw [fe_32]; omega
  · rfl

theorem State.farElem_attnPut_state : let r := p.d.toNat % 16 + 2 * (p.sf.toNat % 4 + 1)
    (s.attnPut home p u).farElem home r 32 0 = u.m % 2 ^ 32 ∧ (s.attnPut home p u).farElem home r 32 1 = u.l % 2 ^ 32 := by
  intro r
  rw [State.farElem_attnPut_below hs home p u (by omega), State.farElem_attnPut_below hs home p u (by omega)]
  exact ⟨State.farElem_writeFar_inside home r 32 _ (State.rising_writeFar hs ..) (by simp) (by simp),
    State.farElem_writeFar_inside home r 32 _ (State.rising_writeFar hs ..) (by simp) (by simp)⟩

theorem State.farElem_attnPut_o {c : Nat} (hc : c < attnDim p) (ho : u.o.length = attnDim p) :
    (s.attnPut home p u).farElem home (p.d.toNat % 16) 32 c = u.o.getD c 0 % 2 ^ 32 := by
  unfold attnDim at hc ho
  rw [State.farElem_attnPut_below hs home p u (by omega), State.farElem_writeFar_disjoint (State.rising_writeFar hs ..) home _ fun e _ => by
    rw [fe_32]; omega]
  refine State.farElem_writeFar_inside home _ 32 _ hs ?_ (List.mem_map.mpr ⟨(u.o.getD c 0, c), ?_, rfl⟩)
  · simpa [Function.comp_def, List.zipIdx_map_snd] using List.nodup_range'
  · rw [List.mk_mem_zipIdx_iff_getElem?]
    simp [ho, hc]

theorem State.farElem_attnPut_sc (h : p.sf.getLsbD 3 = true) {j : Nat} (hj : j < 16) :
    (s.attnPut home p u).farElem home (p.d.toNat % 16 + 2 * (p.sf.toNat % 4 + 1) + 1) 32 j = u.sc.getD j 0 % 2 ^ 32 := by
  simp only [State.attnPut, h, if_true]
  exact State.farElem_writeFar_inside home _ 32 _ (State.rising_writeFar (State.rising_writeFar hs ..) ..)
    (by simpa [Function.comp_def] using nodup_upto 16 0) (List.mem_map.mpr ⟨j, (mem_upto _).mpr ⟨Nat.zero_le _, by omega⟩, rfl⟩)

end

theorem ReadsAs.attnPut {s t : State} (h : ReadsAs s t) (home : Nat) (p : M) (u : AttnState) : ReadsAs s (t.attnPut home p u) := by
  unfold State.attnPut
  simp only
  split
  · exact ((h.writeFar ..).writeFar ..).writeFar ..
  · exact (h.writeFar ..).writeFar ..

theorem attnUpdate_length (m l : Nat) (o sc : List Nat) (vs : List (List FV)) : (attnUpdate m l o sc vs).o.length = o.length := by
  unfold attnUpdate
  split <;> simp

/-- Rows each of which can be read (R438). -/
theorem attnRows_ok {s : State} {home : Nat} {p : M} (js : List Nat) : ∀ {rs : List Row}, js.map (s.attnFetch home p) = rs.map .ok →
    s.attnRows home p js = .ok rs := by
  induction js with
  | nil => intro rs h; cases rs with
    | nil => rfl
    | cons r rs => simp at h
  | cons j js ih =>
    intro rs h
    cases rs with
    | nil => simp at h
    | cons r rs =>
      obtain ⟨hj, hjs⟩ := List.cons_eq_cons.mp h
      simp only [State.attnRows, hj, ih hjs]

theorem State.clean_writeFar (s : State) (home r w : Nat) (els : List (Nat × Nat)) : (s.writeFar home r w els).clean = s.clean := by
  obtain ⟨b, hb⟩ := State.writeFar_frame home r w els s
  rw [hb]
  rfl

theorem State.clean_countFarReads (s : State) (reqs : List Nat) : (countFarReads s reqs).clean = s.clean :=
  congrArg List.isEmpty (memStep_countFarReads s reqs).poison

/-- FATTN on unpoisoned registers, its keys and values fetched (R305). -/
theorem farAttn_run {p : M} {s : State} {home : Nat} (hclean : s.clean = true) {ks vs : List Row} (hk : ks.length = attnT p)
    (hrows : s.attnRows home p (upto 0 (attnT p) ++ upto 16 (attnT p)) = .ok (ks ++ vs)) :
    let d := p.d.toNat % 16
    let dim := attnDim p
    let q := p.sf.toNat % 4 + 1
    let query := (List.range dim).map (fun k => unpack .bf16 (s.farElem home (attnQ p) 16 k))
    let u := attnUpdate (s.farElem home (d + 2 * q) 32 0) (s.farElem home (d + 2 * q) 32 1) ((List.range dim).map (s.farElem home d 32))
      (ks.map (fun r => (farSteps 0 (r.vals.zip query)).1)) (vs.map (·.vals))
    (farAttn p).run s home = ⟨(countFarReads s ((ks ++ vs).flatMap (·.locs))).attnPut home p u,
      orFlags ((if u.used then ks ++ vs else ks).map (·.flags)) ||| orFlags (ks.map (fun r => (farSteps 0 (r.vals.zip query)).2)) |||
        u.flags, [], none⟩ := by
  simp only [farAttn, hrows, State.anyPoison_of_clean hclean, Bool.false_eq_true, if_false]
  simp only [List.take_left' hk, List.drop_left' hk, upto_zero_eq_range, List.map_map, Function.comp_def, State.attnPut, bit_toNat,
    State.putFar_of_clean, State.clean_writeFar, State.clean_countFarReads, hclean]

/-- The flags of FATTN: those of the keys and scores, of the update and, where it widened them, of the values (R305). -/
theorem attn_flags {α : Type} (ts : List α) (k v c : α → Flags) (f : Flags) (used : Bool) :
    orFlags (if used then ts.map k ++ ts.map v else ts.map k) ||| orFlags (ts.map c) ||| f =
      orFlags (ts.map (fun j => k j ||| c j)) ||| f ||| (if used then orFlags (ts.map v) else 0) := by
  cases used
  · simp only [Bool.false_eq_true, if_false, orFlags_map_or, flags_or_zero]
  · simp only [if_true, orFlags_append, orFlags_map_or]
    ac_rfl

/-- FATTN makes one page's update of m, l, O and, under SF[3], SC (R305). -/
theorem fattn_writes {p : M} {s : State} {home : Nat} (hr : s.farReady home) (hn : s.noReaders) (keys values : Nat → Row)
    (hc : noCond ((farAttn p).conds s)) (hsel : (farAttn p).select s = .ok home)
    (hrows : ∀ j, j < attnT p → s.attnFetch home p j = .ok (keys j) ∧ s.attnFetch home p (16 + j) = .ok (values j)) :
    let d := p.d.toNat % 16
    let dim := attnDim p
    let q := p.sf.toNat % 4 + 1
    let query := (List.range dim).map (fun k => unpack .bf16 (s.farElem home (attnQ p) 16 k))
    let ts := List.range (attnT p)
    let u := attnUpdate (s.farElem home (d + 2 * q) 32 0) (s.farElem home (d + 2 * q) 32 1) ((List.range dim).map (s.farElem home d 32))
      (ts.map (fun j => (farSteps 0 ((keys j).vals.zip query)).1)) (ts.map (fun j => (values j).vals))
    ∃ t, exec (.fattn p) s = .next t ∧ t.farElem home (d + 2 * q) 32 0 = u.m % 2 ^ 32 ∧ t.farElem home (d + 2 * q) 32 1 = u.l % 2 ^ 32 ∧
      (∀ c, c < dim → t.farElem home d 32 c = u.o.getD c 0 % 2 ^ 32) ∧
      (p.sf.getLsbD 3 = true → ∀ j, j < 16 → t.farElem home (d + 2 * q + 1) 32 j = u.sc.getD j 0 % 2 ^ 32) ∧
      t.cur.aflags = s.cur.aflags ||| orFlags (ts.map (fun j => (keys j).flags ||| (farSteps 0 ((keys j).vals.zip query)).2)) ||| u.flags |||
        (if u.used then orFlags (ts.map (fun j => (values j).flags)) else 0) ∧ farFrame s t ∧ sameMemory s t := by
  intro d dim q query ts u
  have hfetch : s.attnRows home p (upto 0 (attnT p) ++ upto 16 (attnT p)) = .ok (ts.map keys ++ ts.map values) := by
    refine attnRows_ok _ ?_
    rw [List.map_append, List.map_append, upto_zero_eq_range, ← range_map_shift (fun j => s.attnFetch home p j) 16 (attnT p),
      List.map_map, List.map_map]
    exact congrArg₂ _ (List.map_congr_left fun j hj => (hrows j (List.mem_range.mp hj)).1)
      (List.map_congr_left fun j hj => (hrows j (List.mem_range.mp hj)).2)
  obtain ⟨locs, hlocs⟩ : ∃ locs, (ts.map keys ++ ts.map values).flatMap (·.locs) = locs := ⟨_, rfl⟩
  have hread := (ReadsAs.refl hn).countFarReads locs
  have hrun := farAttn_run hr.clean (by simp [ts]) hfetch
  simp only [hlocs, List.map_map, Function.comp_def, apply_ite (List.map _), List.map_append, attn_flags] at hrun
  obtain ⟨t, hex, htb, htm, hts, hfl, hframe, hmem⟩ := farForm_completes (i := .fattn p) rfl hr hc hsel rfl hrun (hread.attnPut home p u)
  have helem := State.farElem_congr htb (htm.trans (by rw [(hread.attnPut home p u).cur_eq]))
    (hts.trans (by rw [(hread.attnPut home p u).cur_eq])) home
  have hrise : Tbl.rising (countFarReads s locs).banks = true := by rw [(memStep_countFarReads s locs).banks]; exact hr.rising
  obtain ⟨hm, hl⟩ := State.farElem_attnPut_state hrise home p u
  refine ⟨t, hex, (helem ..).trans hm, (helem ..).trans hl, fun c hc => (helem ..).trans (State.farElem_attnPut_o hrise home p u hc ?_),
    fun h j hj => (helem ..).trans (State.farElem_attnPut_sc hrise home p u h hj), ?_, hframe, hmem⟩
  · simp [u, attnUpdate_length, dim]
  · rw [hfl, ← BitVec.or_assoc, ← BitVec.or_assoc]

/-- Settles O41: each of the three forms reads as before its first element throughout, and writes what its fold over its rows gives. -/
theorem farUnitResults : Obligations.FarUnitResults := fun _ _ _ hr hn =>
  ⟨fun _ hc hsel hhome hrows => fdot_writes hr hn hc hsel hhome hrows,
    fun _ _ _ hc hsel hhome hrow htrans => fred_writes hr hn hc hsel hhome ⟨hrow, htrans⟩,
    fun keys values hc hsel hrows => fattn_writes hr hn keys values hc hsel hrows⟩

end Sys2Proof.Machine
end

section
/-! PROOFS. MGRP (R295) and a memory-side cache line whose list of poisoned words names a word past its line: no step makes one (R455), and
nothing in the statement rules one out. MGRP reads its descriptor before its operands, that read fills L2 from the line, and the fill poisons
another line, which holds A. -/

namespace Sys2Proof.Machine

/-- A hart with two fresh tiles and the address of its descriptor in g1. -/
def spoiledHart : Hart :=
  { Hart.reset with
    id := ⟨1, 0, 0, 0, 0⟩, seat := ⟨0, 0, [0], 0⟩, npc := 0x2004, g := (Vector.replicate 32 0).set 1 0x4000
    accs := [Acc.fresh, Acc.fresh], trap := { TrapRegs.reset with tvec := 0x3000 } }

/-- A descriptor (R291): bf16, N = K = 1, one group, A at 0x4400, W at 0x4500, the group table at 0x4200. -/
def groupedOne : List Nat := [0x4400, 64, 0x4500, 0, 64, 0x4200, 1 + 2 ^ 22 + 2 ^ 43 + 2 ^ 56 + 2 ^ 60]

/-- A machine in which that descriptor, a table of one row, A = [1.5] and W = [2] lie in memory. -/
def groupedState : State :=
  storeNear (storeNear (storeNear (storeNear (placeLine { State.reset with cur := spoiledHart } []) 0x4000 (groupedOne.flatMap (leBytes 8)))
    0x4200 [1]) 0x4400 [0xC0, 0x3F]) 0x4500 [0, 0x40]

/-- The same with line 128, the descriptor's, out of L2 and with word 128 on its list of poisoned words: word 0 of line 136, which holds A. -/
def spoiledState : State :=
  { groupedState with l2 := [136], msc := Tbl.put 128 { (farLine groupedState 128) with bad := [128] } groupedState.msc }

/-- MGRP of the descriptor at g1 and tile word 0 into tile 1. -/
def groupedInstr : M := ⟨0, 1, ⟨1, 1⟩, ⟨0, 0⟩, 0, 0, ⟨0, 0⟩, 0, 0⟩

/-- The values 1.5 and 2 of A and W. -/
def valueOnePointFive : FV := unpack .bf16 0x3FC0
def valueTwo : FV := unpack .bf16 0x4000

/-- The operands of a 1 × 1 × 1 multiply in formats other than KB can be fetched when its two one-element rows can. -/
theorem State.mulOperands_one {s : State} {x : Mul} {a b : FV} (hshape : x.m = 1 ∧ x.n = 1 ∧ x.k = 1 ∧ x.trans = false)
    (hplain : kbBits x.aFmt = 0 ∧ kbBits x.bFmt = 0)
    (hin : s.inD .load [rowSpan x.aFmt x.aPl (x.aRow 0) 0 1, rowSpan x.bFmt x.bPl (x.bRow 0) 0 1] = none)
    (ha : s.fetches x.aFmt x.aPl (x.aRow 0) 0 1 (fun _ => a)) (hb : s.fetches x.bFmt x.bPl (x.bRow 0) 0 1 (fun _ => b)) :
    s.mulOperands x (fun _ _ => a) (fun _ _ => b) := by
  obtain ⟨hm, hn, hk, ht⟩ := hshape
  simp only [State.mulOperands, hm, hn, hk, ht, hplain, ne_eq, not_true_eq_false, false_implies, true_and, Nat.lt_one_iff, Bool.false_eq_true,
    if_false]
  refine ⟨hin, fun r c hr hc => ?_, fun n c hn hc => ?_⟩
  · obtain rfl : c = 0 := by omega
    subst hr
    exact ha
  · obtain rfl : c = 0 := by omega
    subst hn
    exact hb

/-- A row of one element can be fetched when it reads as that one value. -/
theorem State.fetches_one {s : State} {fmt planes base : Nat} {v : FV}
    (h : (s.row none 2 .bf16 fmt planes base 0 1).toOption.map (·.vals) = some [v]) : s.fetches fmt planes base 0 1 (fun _ => v) := by
  unfold State.fetches
  cases hr : s.row none 2 .bf16 fmt planes base 0 1 with
  | error e => rw [hr] at h; cases h
  | ok r =>
    rw [hr] at h
    exact ⟨r.flags, r.locs, by rw [List.range_one, List.map_singleton, ← Option.some.inj h]⟩

/-- The machine with the spoiled list meets what is asked of it before a matrix instruction. -/
theorem spoiledState_matReady : spoiledState.matReady := by
  have hrun : spoiledState.executes = true ∧ spoiledState.clean = true ∧ spoiledState.cur.unf = Unfinished.none := by decide +kernel
  have haccs : spoiledState.cur.accs = List.replicate 2 Acc.fresh := by decide +kernel
  have hcount : ∀ c ∈ spoiledState.msc, c.2.count = 0 := by decide +kernel
  obtain ⟨hex, hclean, hunf⟩ := hrun
  refine ⟨hex, hclean, hunf, fun a ha => ?_, hcount⟩
  rw [haccs] at ha
  obtain rfl := List.eq_of_mem_replicate ha
  unfold Acc.ok
  decide

/-- The descriptor and the group table can be fetched. -/
theorem spoiledState_descriptor : spoiledState.descBytes (spoiledState.memBase groupedInstr) 56 = .ok (groupedOne.flatMap (leBytes 8), [65536]) ∧
    spoiledState.descBytes (⟨wordsOf 8 7 (groupedOne.flatMap (leBytes 8))⟩ : Grouped).table 4 = .ok ([1, 0, 0, 0], [67584]) := by decide +kernel

/-- Before the descriptor is read, both one-element rows can be fetched. -/
theorem spoiledState_operands : spoiledState.mulOperands ((⟨groupedOne⟩ : Grouped).mul 1 0 0 0 1 true) (fun _ _ => valueOnePointFive) (fun _ _ => valueTwo) :=
  State.mulOperands_one (by decide +kernel) (by decide +kernel) (by decide +kernel) (State.fetches_one (by decide +kernel))
    (State.fetches_one (by decide +kernel))

/-- MGRP traps on the poison that its read of the descriptor brings to A. -/
theorem mgrp_traps_on_spoiled : (match exec (.mgrpO groupedInstr) spoiledState with
    | .next t => t.cur.trap.cause
    | _ => spoiledState.cur.trap.cause) = ⟨0x07, 0x05⟩ := by decide +kernel

/-- Refutes O42, by its clause on MGRP: with a word past its line on the list of poisoned words of the descriptor's line, the fill that the
descriptor's read makes poisons A, and the instruction traps although every operand could be fetched before it. -/
theorem not_matrixMultiplyResults : ¬ Obligations.MatrixMultiplyResults := by
  rintro ⟨-, hgrp, -⟩
  obtain ⟨hdesc, htable⟩ := spoiledState_descriptor
  have htile : spoiledState.tilesOk [groupedInstr.d.toNat % 8] = true ∧ spoiledState.memBase groupedInstr % 64 = 0 := by decide +kernel
  have hmul := (hgrp groupedInstr spoiledState (fun _ _ => valueOnePointFive) (fun _ _ => valueTwo) _ _ _ _ spoiledState_matReady htile.1 htile.2 hdesc
    (by decide +kernel) (by decide +kernel) (by decide +kernel) (by decide +kernel) htable (by decide +kernel) (by decide +kernel)
    (by decide +kernel)).1
  obtain ⟨t, hex, -, -, -, -, -, -, hframe⟩ := hmul spoiledState_operands
  obtain ⟨-, -, -, -, -, -, htrap, -⟩ := hframe
  have hcause := mgrp_traps_on_spoiled
  simp only [hex, htrap] at hcause
  exact absurd hcause (by decide +kernel)

end Sys2Proof.Machine
end

section
/-! PROOFS. The end of a DRAM back-off (R145) where a stack's table of back-offs lists a bank twice. Every table of the model lists rising keys;
the statement on the memory system's events does not ask it of the tables of a stack. -/

namespace Sys2Proof.Machine

/-- A stack whose table of back-offs lists bank 0 twice, each time with row 7. -/
def doubledStack : Stack := { Stack.reset with backoff := [(0, 7), (0, 7)] }

/-- The module of reset with that stack as its stack 0. -/
def doubledModule : Module := { Module.reset with hbm := [(0, doubledStack)] }

/-- The machine of reset with that module. -/
def doubledState : State := { State.reset with mods := [(0, doubledModule)] }

/-- The end of bank 0's back-off removes the first of the two entries, and the bank still backs off. -/
theorem activationBackoffEnd_keeps_doubled : (match exec (.activationBackoffEnd 0 0 0) doubledState with
    | .next t => (t.mod? 0).map (fun x => Tbl.find 0 (x.stack 0).backoff)
    | _ => none) = some (some 7) := by decide +kernel

/-- Refutes O51, by its clause on the end of a back-off: with bank 0 listed twice in the stack's table of back-offs, the event that ends its
back-off leaves it listed. With rising keys, which every table of the model has, the entry would be gone. -/
theorem not_memoryEventsTakeEffect : ¬ Obligations.MemoryEventsTakeEffect := by
  rintro ⟨-, -, events⟩
  obtain ⟨-, -, -, -, perStack, -⟩ := events doubledState 0 doubledModule rfl rfl
  obtain ⟨-, -, -, backoffEnd, -⟩ := perStack 0 0 (by decide) (by decide)
  obtain ⟨t, x, hex, hmod, hgone, -⟩ := backoffEnd 7 rfl
  have hstays := activationBackoffEnd_keeps_doubled
  simp only [hex, hmod, Option.map_some, hgone, Option.some.injEq, reduceCtorEq] at hstays

end Sys2Proof.Machine
end

section
/-! PROOFS. What memory reads at the near point after a write (R140, R148 to R151): the bytes written where they lie, and every other byte as
before. -/

namespace Sys2Proof.Machine

/-! ### Bytes laid over memory -/

/-- A reading of memory with bytes laid over it from a location on. -/
def overlay (a : Nat) (bs : List Byte) (old : Nat → Byte) (x : Nat) : Byte := if a ≤ x ∧ x < a + bs.length then bs.getD (x - a) 0 else old x

theorem overlay_outside {a x : Nat} {bs : List Byte} (h : x < a ∨ a + bs.length ≤ x) (old : Nat → Byte) : overlay a bs old x = old x :=
  if_neg (by omega)

theorem overlay_nil (a : Nat) (old : Nat → Byte) : overlay a [] old = old :=
  funext fun x => overlay_outside (by rw [List.length_nil]; omega) old

theorem overlay_inside {k : Nat} {bs : List Byte} (h : k < bs.length) (a : Nat) (old : Nat → Byte) : overlay a bs old (a + k) = bs[k] := by
  rw [overlay, if_pos (by omega), Nat.add_sub_cancel_left, List.getD_eq_getElem _ _ h]

theorem overlay_cons (a : Nat) (b : Byte) (bs : List Byte) (old : Nat → Byte) (x : Nat) :
    overlay a (b :: bs) old x = overlay (a + 1) bs (fun y => if y = a then b else old y) x := by
  rcases Nat.lt_trichotomy x a with hx | rfl | hx
  · rw [overlay_outside (.inl hx), overlay_outside (.inl (by omega)), if_neg (by omega)]
  · rw [overlay_outside (a := x + 1) (.inl (by omega)), if_pos rfl]
    simp [overlay]
  · obtain ⟨k, rfl⟩ := Nat.exists_eq_add_of_le (show a + 1 ≤ x from hx)
    simp [overlay, show a + 1 + k - a = k + 1 by omega, show a ≤ a + 1 + k by omega, show a + 1 + k ≠ a by omega,
      show a + 1 + k < a + (bs.length + 1) ↔ k < bs.length by omega]

/-- Bytes laid down in two parts, the first `n` and then the others. -/
theorem overlay_split (a n : Nat) (bs : List Byte) (old : Nat → Byte) :
    overlay (a + n) (bs.drop n) (overlay a (bs.take n) old) = overlay a bs old := by
  funext x
  simp only [overlay, List.length_drop, List.length_take, List.getD_eq_getElem?_getD, List.getElem?_drop, List.getElem?_take]
  split
  · rw [if_pos (by omega), show n + (x - (a + n)) = x - a by omega]
  · split
    · rw [if_pos (by omega), if_pos (by omega)]
    · rw [if_neg (by omega)]

/-! ### Tables -/

/-- A table of some keys alone reads there as before. -/
theorem Tbl.find_filter {α : Type} (p : Nat → Bool) {t : Tbl α} (h : Tbl.rising t = true) (k : Nat) :
    Tbl.find k (t.filter (fun c => p c.1)) = if p k then Tbl.find k t else none := by
  induction t with
  | nil => simp [Tbl.find]
  | cons c t ih =>
    obtain ⟨hr, hlt⟩ := Tbl.rising_cons.mp h
    obtain ⟨j, v⟩ := c
    rw [List.filter_cons]
    by_cases hk : k = j
    · subst hk
      have hout : Tbl.find k (t.filter fun c => p c.1) = none := Tbl.find_lt fun e he => hlt e (List.mem_filter.mp he).1
      cases hp : p k <;> simp [Tbl.find, hout]
    · by_cases hl : k < j
      · have hout : Tbl.find k (t.filter fun c => p c.1) = none :=
          Tbl.find_lt fun e he => Nat.lt_trans hl (hlt e (List.mem_filter.mp he).1)
        cases hp : p j <;> simp [Tbl.find, hk, hl, hout]
      · cases hp : p j <;> simp [Tbl.find, hk, hl, ih hr]

theorem getD_map_upto (f : Nat → Byte) {i n : Nat} (h : i < n) : ((upto 0 n).map f).getD i 0 = f i := by
  simp [upto_eq_range', h]

/-- Memory after a run of bytes is stored (R150). -/
theorem getD_putDram (bs : List Byte) : ∀ (a : Nat) {m : Memory}, Memory.wf m = true → ∀ x,
    Tbl.getD (putDram m a bs) x 0 = overlay a bs (fun y => Tbl.getD m y 0) x := by
  induction bs with
  | nil => exact fun a m _ x => by rw [overlay_nil]; rfl
  | cons b bs ih =>
    intro a m hm x
    have hr := ((Memory.wf_iff m).mp hm).1
    have hstore : (fun y => Tbl.getD (Tbl.store 0 a b m) y 0) = fun y => if y = a then b else Tbl.getD m y 0 := by
      funext y
      split
      · rename_i hy
        exact hy ▸ Tbl.getD_store_self 0 a b hr
      · exact Tbl.getD_store_other 0 b hr ‹_›
    rw [putDram, ih (a + 1) (Memory.wf_store a b hm), hstore, overlay_cons]

/-! ### The far point -/

section
variable {s : State} (h : s.memOk)
include h

/-- What the far point reads when a line of 128 bytes has been written to it (R140, R150). -/
theorem farByte_putFarLine {line : Nat} {l : MscLine} (hl : l.data.length = 128) (x : Nat) :
    farByte (putFarLine s line l) x = if x / 128 = line then l.data.getD (x % 128) 0 else farByte s x := by
  obtain ⟨hdram, -, -, hlines⟩ := h
  unfold putFarLine
  split
  · by_cases hx : x / 128 = line
    · subst hx
      simp [farByte, Tbl.find_put_self]
    · simp [farByte, Tbl.find_put_other hx, hx, dramByte]
  · rename_i hhbm
    have hbyte : dramByte (putMemLine s line l) x = overlay (128 * line) l.data (dramByte s) x := getD_putDram l.data _ hdram x
    have hfar : farByte (putMemLine s line l) x = (match Tbl.find (x / 128) s.msc with
      | some k => k.data.getD (x % 128) 0
      | none => dramByte (putMemLine s line l) x) := rfl
    rw [hfar, hbyte]
    by_cases hx : x / 128 = line
    · have hnone : Tbl.find (x / 128) s.msc = none := by
        cases hf : Tbl.find (x / 128) s.msc with
        | none => rfl
        | some k => exact absurd (hlines _ (Tbl.find_mem hf)).2 (hx ▸ hhbm)
      rw [hnone, if_pos hx, overlay, if_pos (by omega), show x - 128 * line = x % 128 by omega]
    · rw [if_neg hx, overlay_outside (by omega)]
      rfl

omit h in
theorem near_putFarLine (line : Nat) (l : MscLine) : (putFarLine s line l).near = s.near := by
  unfold putFarLine
  split <;> rfl

/-- A write within one line of which no near copy is newer (R141, R151). -/
theorem nearByte_mscWrite {a : Nat} {bs : List Byte} (hclean : ∀ x, x / 128 = a / 128 → Tbl.find x s.near = none)
    (hfit : a % 128 + bs.length ≤ 128) (readers x : Nat) : nearByte (mscWrite s a bs readers) x = overlay a bs (nearByte s) x := by
  simp only [nearByte, mscWrite, near_putFarLine, overlay]
  rw [farByte_putFarLine h (by simp [mergeLine])]
  by_cases hx : x / 128 = a / 128
  · rw [if_pos hx, hclean x hx, mergeLine, getD_map_upto _ (Nat.mod_lt _ (by decide)), ← hx, farLine_byte]
    split <;> rename_i hin
    · rw [if_pos (by omega), show x % 128 - a % 128 = x - a by omega]
      rfl
    · rw [if_neg (by omega)]
  · rw [if_neg hx, if_neg (by omega)]

/-! ### L1 and L2 -/

/-- A write-back changes no read at the near point (R151). -/
theorem nearByte_pushLine (line x : Nat) : nearByte (pushLine s line) x = nearByte s x := by
  obtain ⟨-, hrise, -⟩ := id h
  unfold pushLine
  split
  · simp only [nearByte, near_putFarLine]
    rw [Tbl.find_filter (fun k => !(k / 128 == line)) hrise]
    change Option.getD _ (farByte (putFarLine s line _) x) = _
    rw [farByte_putFarLine h (by simp)]
    by_cases hx : x / 128 = line
    · subst hx
      rw [if_pos rfl, getD_map_upto _ (Nat.mod_lt _ (by decide)), farLine_byte, Nat.div_add_mod]
      simp
    · simp [hx]
  · rfl

omit h in
/-- A line that has been written back has no newer copy (R151). -/
theorem near_pushLine {line x : Nat} (hx : x / 128 = line) : Tbl.find x (pushLine s line).near = none := by
  unfold pushLine
  split
  · exact Tbl.find_filter_none (fun v => by simp [hx]) _
  · rename_i hclean
    cases hf : Tbl.find x s.near with
    | none => rfl
    | some v => exact absurd (List.any_eq_true.mpr ⟨_, Tbl.find_mem hf, by simp [hx]⟩) hclean

omit h in
theorem farByte_setOnChip (line : Nat) (b : Bool) (x : Nat) : farByte (setOnChip s line b) x = farByte s x := by
  unfold setOnChip
  split
  · rename_i l hf
    by_cases hx : x / 128 = line
    · subst hx
      simp [farByte, Tbl.find_put_self, hf]
    · simp [farByte, Tbl.find_put_other hx, dramByte]
  · rfl

omit h in
theorem near_setOnChip (line : Nat) (b : Bool) : (setOnChip s line b).near = s.near := by
  unfold setOnChip
  split <;> rfl

omit h in
theorem near_dropCopies (line : Nat) : (dropCopies s line).near = s.near.filter (fun c => !(c.1 / 128 == line)) := by
  simp only [dropCopies, near_setOnChip]

/-- A recall changes no read at the near point and leaves no newer copy of its line (R151). -/
theorem nearByte_recallLine (line x : Nat) : nearByte (recallLine s line) x = nearByte s x := by
  obtain ⟨-, hrise, -⟩ := (memStep_pushLine s line).2 h
  have hfar : farByte (recallLine s line) x = farByte (pushLine s line) x := farByte_setOnChip line false x
  rw [← nearByte_pushLine h line x]
  simp only [nearByte, hfar]
  rw [recallLine, near_dropCopies, Tbl.find_filter (fun k => !(k / 128 == line)) hrise]
  by_cases hx : x / 128 = line
  · rw [near_pushLine hx]
    simp
  · simp [hx]

omit h in
theorem near_recallLine {line x : Nat} (hx : x / 128 = line) : Tbl.find x (recallLine s line).near = none := by
  rw [recallLine, near_dropCopies]
  exact Tbl.find_filter_none (fun v => by simp [hx]) _

omit h in
/-- A fill of L2 changes no read at the near point (R138). -/
theorem nearByte_fillCopy (line x : Nat) : nearByte (fillCopy s line) x = nearByte s x := by
  unfold fillCopy
  split
  · rfl
  · split
    · by_cases hx : x / 128 = line
      · subst hx
        have hline := farLine_byte s x
        simp only [nearByte, ← hline]
        simp only [farByte, Tbl.find_put_self]
      · simp only [nearByte, farByte, Tbl.find_put_other hx, dramByte]
    · rfl

end

/-! ### Writes -/

theorem memOk_farStoreLine {s : State} (h : s.memOk) (a : Nat) (bs : List Byte) (readers : Nat) : (farStoreLine s a bs readers).memOk :=
  (memStep_mscWrite _ a bs readers).2 ((memStep_recallLine s _).2 h)

/-- A write at the far point within one line (R151). -/
theorem nearByte_farStoreLine {s : State} (h : s.memOk) {a : Nat} {bs : List Byte} (hfit : a % 128 + bs.length ≤ 128) (readers : Nat) :
    nearByte (farStoreLine s a bs readers) = overlay a bs (nearByte s) := by
  funext x
  rw [farStoreLine, nearByte_mscWrite ((memStep_recallLine s _).2 h) (fun y hy => near_recallLine hy) hfit]
  simp only [overlay, nearByte_recallLine h]

/-- The lines of a run of bytes, written one after another, hold the run. -/
theorem nearByte_byLines (readers f : Nat) : ∀ {s : State} (a : Nat) (bs : List Byte), s.memOk → a % 128 + bs.length ≤ 128 * f →
    nearByte ((byLines f a bs).foldl (fun t c => farStoreLine t c.1 c.2 readers) s) = overlay a bs (nearByte s) := by
  induction f with
  | zero =>
    intro s a bs _ hf
    obtain rfl : bs = [] := List.length_eq_zero_iff.mp (by omega)
    exact (overlay_nil a _).symm
  | succ f ih =>
    intro s a bs h hf
    rw [byLines]
    split
    · rename_i he
      obtain rfl : bs = [] := List.isEmpty_iff.mp he
      exact (overlay_nil a _).symm
    · have hfit : a % 128 + (bs.take (128 - a % 128)).length ≤ 128 := by rw [List.length_take]; omega
      have hrest : (a + (128 - a % 128)) % 128 + (bs.drop (128 - a % 128)).length ≤ 128 * f := by rw [List.length_drop]; omega
      rw [List.foldl_cons, ih _ _ (memOk_farStoreLine h a _ readers) hrest, nearByte_farStoreLine h hfit, overlay_split]

/-- A write at the far point is seen at the near point (R151). -/
theorem nearByte_storeFar {s : State} (h : s.memOk) (a : Nat) (bs : List Byte) (readers : Nat) :
    nearByte (storeFar s a bs readers) = overlay a bs (nearByte s) :=
  nearByte_byLines readers _ a bs (memOk_broken h a bs.length) (by omega)

/-- A write at the near point (R149). -/
theorem nearByte_storeNear (s : State) (a : Nat) (bs : List Byte) : nearByte (storeNear s a bs) = overlay a bs (nearByte s) := by
  have hfill : ∀ (lines : List Nat) (t : State) x, nearByte (lines.foldl fillCopy t) x = nearByte t x := by
    intro lines
    induction lines with
    | nil => exact fun _ _ => rfl
    | cons l lines ih => exact fun t x => (ih _ x).trans (nearByte_fillCopy l x)
  funext x
  have hold := hfill (upto (a / 128) ((a + bs.length + 127) / 128 - a / 128)) (breakResvs s a bs.length) x
  change _ = nearByte s x at hold
  by_cases hx : a ≤ x ∧ x < a + bs.length
  · obtain ⟨k, rfl⟩ := Nat.exists_eq_add_of_le hx.1
    have hk : k < bs.length := by omega
    rw [overlay_inside hk]
    simp only [nearByte, storeNear, putNear_inside bs a _ hk, Option.getD_some]
  · have hout : x < a ∨ a + bs.length ≤ x := by omega
    rw [overlay_outside hout, ← hold]
    simp only [nearByte, storeNear, putNear_outside bs a _ hout]
    rfl

/-- A write that performs now lays its bytes over what the near point reads (R148, R151). -/
theorem byteAt_putPhys {s : State} (h : s.memOk) (p : Phys) (bs : List Byte) (readers : Nat) :
    (s.putPhys p bs readers).byteAt = overlay p.spot.loc bs s.byteAt := by
  unfold State.putPhys
  split
  · exact nearByte_storeFar h _ bs _
  · exact nearByte_storeNear s _ bs

end Sys2Proof.Machine
end

section
/-! PROOFS. Near vector stores (R253 to R263): the writes that a store whose elements can all be stored makes. -/

namespace Sys2Proof.Machine

/-! ### The elements of a store -/

/-- The elements that an instruction has still to perform are those it performs (R222, R402). -/
theorem State.mem_pending {s : State} {m : Mk} {i : Nat} : i ∈ s.pending m ↔ s.performs m i := by
  simp only [State.pending, State.actives, List.mem_filter, mem_upto, decide_eq_true_eq, State.performs]
  constructor
  · rintro ⟨⟨-, hact⟩, hun⟩
    exact ⟨hact, hun⟩
  · rintro ⟨hact, hun⟩
    have hlt : i < s.cur.cfg.vl.toNat := by simp_all [State.activeAt]
    exact ⟨⟨⟨Nat.zero_le i, by omega⟩, hact⟩, hun⟩

/-- A store each of whose elements can be stored makes all their writes and raises all their flags (R259). -/
theorem storeLoop_ok {make : Nat → Except Stop (List Put × Flags)} {put : Nat → List Put × Flags} {els : List Nat}
    (h : ∀ i ∈ els, make i = .ok (put i)) :
    storeLoop make els = ((els.flatMap (fun i => (put i).1), orFlags (els.map (fun i => (put i).2))), none) := by
  induction els with
  | nil => rfl
  | cons i els ih =>
    rw [storeLoop, h i List.mem_cons_self]
    simp only [ih fun j hj => h j (List.mem_cons_of_mem i hj), List.flatMap_cons, List.map_cons, orFlags_cons]

/-- What such a store leaves (R153, R259). -/
theorem retireV_storeElems {s : State} {readers : Nat} {els : List Nat} {make : Nat → Except Stop (List Put × Flags)}
    {put : Nat → List Put × Flags} (h : ∀ k ∈ els, make k = .ok (put k)) {i : Instr} {was : Unfinished} :
    retireV i was (s.storeElems readers els make) =
      .next (s.stored (orFlags (els.map (fun k => (put k).2))) readers (els.flatMap (fun k => (put k).1))) := by
  rw [State.storeElems]
  simp only [storeLoop_ok h, retireV_ok]
  rfl

/-! ### The forms -/

section
variable {p : M} {s : State} {put : Nat → List Put × Flags} (hr : s.vecReady)
include hr

/-- A store with one address per element whose performed elements can be stored completes with their writes (R254, R255). -/
theorem storeAt_completes {i : Instr} {words : Nat → List SramWord} {addr : Nat → Nat} {body : State → Res} (he : exec i s = runV i none body s)
    (hbody : body s = storeAt s p words addr)
    (h : ∀ k, s.performs p.msk k → s.storeElem p.fmt.toNat s.cur.cfg.etype.toNat (addr k) (s.cur.elem (vd p.d) k) = .ok (put k)) :
    exec i s = .next (s.stored (orFlags ((s.pending p.msk).map (fun k => (put k).2))) p.rdr.toNat
      ((s.pending p.msk).flatMap (fun k => (put k).1))) := by
  obtain ⟨hex, hclean, -⟩ := hr
  rw [he, runV_of_executes hex, hbody, storeAt]
  refine retireV_storeElems fun k hk => ?_
  simp only [State.anyPoison_of_clean hclean, h k (State.mem_pending.mp hk), Bool.false_eq_true, if_false]

/-- VST of a format that is not KB (R254). -/
theorem vst_completes (hc : noCond (s.memConds p false [p.d.toNat] [])) (hkb : p.kb = false)
    (h : ∀ k, s.performs p.msk k → s.storeElem p.fmt.toNat s.cur.cfg.etype.toNat (s.unitAddr p k) (s.cur.elem (vd p.d) k) = .ok (put k)) :
    exec (.vst p) s = .next (s.stored (orFlags ((s.pending p.msk).map (fun k => (put k).2))) p.rdr.toNat
      ((s.pending p.msk).flatMap (fun k => (put k).1))) := by
  have hbase : noCond (s.kbConds p) := by simp [State.kbConds, noCond, hkb]
  exact storeAt_completes hr rfl ((checkedAt_of_noCond (noCond_append hc hbase)).trans (if_neg (by simp [hkb]))) h

/-- VST of a KB format, which writes the blocks of each chunk that holds a performed element (R104, R256). -/
theorem vst_kb_completes (hc : noCond (s.memConds p false [p.d.toNat] [])) (hkb : p.kb = true) (hbase : noCond (s.kbConds p)) {firsts : List Nat}
    (hfirsts : firsts = ((s.pending p.msk).map (fun i => ((s.src p.x).toNat + i) / 512)).dedup.filterMap (fun c =>
      (s.pending p.msk).find? (fun i => ((s.src p.x).toNat + i) / 512 == c)))
    (h : ∀ i ∈ firsts, s.kbMake none none s.ft (s.memBase p) (s.src p.x).toNat (kbBits p.fmt.toNat) (s.actives p.msk) (s.cur.elem (vd p.d))
      (((s.src p.x).toNat + i) / 512) = .ok (put i)) :
    exec (.vst p) s = .next (s.stored (orFlags (firsts.map (fun i => (put i).2))) p.rdr.toNat (firsts.flatMap (fun i => (put i).1))) := by
  obtain ⟨hex, hclean, -⟩ := hr
  subst hfirsts
  have he : exec (.vst p) s = execVst p s := rfl
  rw [he, execVst, runV_of_executes hex, checkedAt_of_noCond (noCond_append hc hbase), if_pos hkb]
  refine retireV_storeElems fun i hi => ?_
  simp [State.anyPoison_of_clean hclean, h i hi]

/-- VSTT, whose elements outside the tensor write nothing (R261, R262). -/
theorem vstt_completes (hc : noCond (s.tensorConds p false)) (hd : s.tensorD p .store = none)
    (h : ∀ i, s.performs p.msk i → (decompose (s.dims p) i).1 = 0 ∧ (match s.tensorAddr p i with
      | none => put i = ([], 0)
      | some va => s.storeElem p.fmt.toNat s.cur.cfg.etype.toNat va (s.cur.elem (vd p.d) i) = .ok (put i))) :
    exec (.vstt p) s = .next (s.stored (orFlags ((s.pending p.msk).map (fun k => (put k).2))) p.rdr.toNat
      ((s.pending p.msk).flatMap (fun k => (put k).1))) := by
  obtain ⟨hex, hclean, -⟩ := hr
  have he : exec (.vstt p) s = execVstt p s := rfl
  rw [he, execVstt, runV_of_executes hex, checked_of_noCond hc]
  simp only [hd]
  refine retireV_storeElems fun i hi => ?_
  obtain ⟨hbox, hput⟩ := h i (State.mem_pending.mp hi)
  rw [State.anyPoison_of_clean hclean, if_neg Bool.false_ne_true, if_neg (not_not_intro hbox)]
  cases ha : s.tensorAddr p i with
  | none => simp only [ha] at hput; rw [hput]
  | some va => simp only [ha] at hput; simp only [hput, State.anyPoison_of_clean hclean, Bool.false_eq_true, if_false]

end

/-- The vector stores make the writes of the elements that they perform (R254 to R256, R259, R261). -/
theorem vectorStoreResults : VectorStoreResults := by
  intro p s put hr
  refine ⟨fun hc => ⟨fun hkb h => vst_completes hr hc hkb h, fun h => storeAt_completes hr rfl (checked_of_noCond hc) h,
    fun hkb hbase firsts hfirsts h => vst_kb_completes hr hc hkb hbase hfirsts h⟩, fun hc h => storeAt_completes hr rfl (checked_of_noCond hc) h,
    fun hc hd h => vstt_completes hr hc hd h⟩

end Sys2Proof.Machine
end

section
/-! PROOFS. The frame of the near vector stores (R127, R153, R259): the writes that a store makes lie in the bytes that its elements write, and
performed in the hart's own module they leave every other byte, the hart's registers and the rest of the machine as they were. -/

namespace Sys2Proof.Machine

/-! ### The bytes of a write -/

/-- A location is among the bytes that a write takes. -/
def Put.covers (q : Put) (x : Nat) : Prop := q.phys.spot.loc ≤ x ∧ x < q.phys.spot.loc + q.bytes.length

/-- A write goes to module `m`, and to bytes that some of `ps` write. -/
def Put.within (q : Put) (m : Nat) (ps : List Put) : Prop := q.phys.spot.m = m ∧ ∀ x, q.covers x → ∃ p ∈ ps, p.covers x

theorem Spot.loc_add (m pa i : Nat) : Spot.loc ⟨m, pa + i, k⟩ = Spot.loc ⟨m, pa, k⟩ + i := (Nat.add_assoc ..).symm

/-- A part of a write takes bytes of that write. -/
theorem Put.covers_of_part {p : Put} {i n x : Nat} (h : (p.part i n).covers x) : p.covers x := by
  obtain ⟨hlo, hhi⟩ := h
  have hloc : (p.part i n).phys.spot.loc = p.phys.spot.loc + i := Spot.loc_add ..
  have hlen : (p.part i n).bytes.length = min n (p.bytes.length - i) := by simp [Put.part]
  rw [hloc] at hlo hhi
  rw [hlen] at hhi
  exact ⟨by omega, by omega⟩

/-- What a store writes once of its elements' writes: one of them, or a part of one (R127, R153). -/
theorem mem_lastPuts {q : Put} {ps : List Put} (h : q ∈ lastPuts ps) : ∃ p ∈ ps, q = p ∨ ∃ i n, q = p.part i n := by
  induction ps with
  | nil => cases h
  | cons p ps ih =>
    rcases List.mem_append.mp h with h | h
    · refine ⟨p, List.mem_cons_self, ?_⟩
      split at h
      · exact .inl (List.mem_singleton.mp h)
      · obtain ⟨r, -, rfl⟩ := List.mem_map.mp h
        exact .inr ⟨r.1, r.2, rfl⟩
    · obtain ⟨p', hp, hq⟩ := ih h
      exact ⟨p', List.mem_cons_of_mem _ hp, hq⟩

theorem lastPuts_within {q : Put} {m : Nat} {ps : List Put} (hm : ∀ p ∈ ps, p.phys.spot.m = m) (h : q ∈ lastPuts ps) : q.within m ps := by
  obtain ⟨p, hp, rfl | ⟨i, n, rfl⟩⟩ := mem_lastPuts h
  · exact ⟨hm q hp, fun x hx => ⟨q, hp, hx⟩⟩
  · exact ⟨hm p hp, fun x hx => ⟨p, hp, Put.covers_of_part hx⟩⟩

/-- The last write keeps all its bytes, and comes last (R153). -/
theorem lastPuts_concat (before : List Put) (q : Put) : ∃ qs, lastPuts (before ++ [q]) = qs ++ [q] := by
  induction before with
  | nil => exact ⟨[], rfl⟩
  | cons p before ih =>
    obtain ⟨qs, hqs⟩ := ih
    rw [List.cons_append, lastPuts, hqs, ← List.append_assoc]
    exact ⟨_, rfl⟩

/-! ### Lines that a store writes whole (R141, R259) -/

/-- The keys of a table do not repeat. -/
theorem Tbl.nodup_of_rising {α : Type} {t : Tbl α} (h : Tbl.rising t = true) : (t.map (·.1)).Nodup := by
  induction t with
  | nil => exact List.nodup_nil
  | cons c t ih =>
    obtain ⟨hr, hlt⟩ := Tbl.rising_cons.mp h
    refine List.nodup_cons.mpr ⟨fun hc => ?_, ih hr⟩
    obtain ⟨e, he, hec⟩ := List.mem_map.mp hc
    exact absurd hec (hlt e he).ne'

/-- A table that lists 128 bytes of a line lists, from the first of them on, 128 bytes one after another. -/
theorem Tbl.mem_of_full_line {α : Type} {t : Tbl α} (hr : Tbl.rising t = true) {l : Nat} {c : Nat × α} {rest : Tbl α}
    (hline : t.filter (fun e => e.1 / 128 == l) = c :: rest) (hlen : (c :: rest).length = 128) {x : Nat} (hx : c.1 ≤ x ∧ x < c.1 + 128) :
    ∃ e ∈ t, e.1 = x := by
  have hrise : Tbl.rising (c :: rest) = true := hline ▸ Tbl.rising_filter _ hr
  have hmem : ∀ e ∈ c :: rest, e ∈ t ∧ e.1 / 128 = l := fun e he => by simpa [← hline] using he
  have hsub : ((c :: rest).map (·.1)).toFinset ⊆ Finset.Ico (128 * l) (128 * l + 128) := fun k hk => by
    obtain ⟨e, he, rfl⟩ := List.mem_map.mp (List.mem_toFinset.mp hk)
    have := (hmem e he).2
    exact Finset.mem_Ico.mpr (by omega)
  have hall := Finset.eq_of_subset_of_card_le hsub (by
    rw [List.toFinset_card_of_nodup (Tbl.nodup_of_rising hrise), List.length_map, hlen, Nat.card_Ico]
    omega)
  have key : ∀ k, 128 * l ≤ k → k < 128 * l + 128 → ∃ e ∈ c :: rest, e.1 = k := fun k hlo hhi =>
    List.mem_map.mp (List.mem_toFinset.mp (hall ▸ Finset.mem_Ico.mpr ⟨hlo, hhi⟩))
  have hfirst : c.1 = 128 * l := by
    have hc := (hmem c List.mem_cons_self).2
    obtain ⟨e, he, hel⟩ := key (128 * l) (by omega) (by omega)
    rcases List.mem_cons.mp he with rfl | he
    · exact hel
    · have := (Tbl.rising_cons.mp hrise).2 e he
      omega
  obtain ⟨e, he, hex⟩ := key x (by omega) (by omega)
  exact ⟨e, (hmem e he).1, hex⟩

/-- A table of bytes to be written lists each at its location, in module `m` and in bytes of `P`. -/
def bytesIn (m : Nat) (P : Nat → Prop) (t : Tbl (Word × Phys × Byte)) : Prop :=
  Tbl.rising t = true ∧ ∀ c ∈ t, c.2.2.1.spot.loc = c.1 ∧ c.2.2.1.spot.m = m ∧ P c.1

theorem bytesIn.put {m k : Nat} {P : Nat → Prop} {t : Tbl (Word × Phys × Byte)} {v : Word × Phys × Byte} (h : bytesIn m P t)
    (hv : v.2.1.spot.loc = k ∧ v.2.1.spot.m = m ∧ P k) : bytesIn m P (Tbl.put k v t) := by
  obtain ⟨hr, hc⟩ := h
  refine ⟨Tbl.rising_put k v hr, fun c hm => ?_⟩
  rcases Tbl.mem_put hm with rfl | hm
  · exact hv
  · exact hc c hm

/-- The bytes of a store's writes, by location (R153). -/
theorem bytesIn_putBytes {m : Nat} {P : Nat → Prop} {ps : List Put} : ∀ {t : Tbl (Word × Phys × Byte)}, bytesIn m P t →
    (∀ p ∈ ps, p.phys.spot.m = m ∧ ∀ x, p.covers x → P x) → bytesIn m P (putBytes ps t) := by
  induction ps with
  | nil => exact fun h _ => h
  | cons p ps ih =>
    intro t h hp
    obtain ⟨hm, hcov⟩ := hp p List.mem_cons_self
    refine ih (List.foldlRecOn _ _ h fun u hu b hb => hu.put ⟨Spot.loc_add .., hm, hcov _ ?_⟩) fun q hq => hp q (List.mem_cons_of_mem p hq)
    have hlt := List.snd_lt_of_mem_zipIdx hb
    exact ⟨by omega, by omega⟩

theorem linePuts_within {q : Put} {m : Nat} {ps : List Put} (hm : ∀ p ∈ ps, p.phys.spot.m = m) (h : q ∈ linePuts ps) : q.within m ps := by
  have ht : bytesIn m (fun x => ∃ p ∈ ps, p.covers x) (putBytes ps []) :=
    bytesIn_putBytes ⟨rfl, fun c hc => by cases hc⟩ fun p hp => ⟨hm p hp, fun x hx => ⟨p, hp, hx⟩⟩
  obtain ⟨hr, hin⟩ := ht
  rcases List.mem_append.mp h with h | h
  · obtain ⟨l, hl, hq⟩ := List.mem_flatMap.mp h
    have hlen : ((putBytes ps []).filter (fun c => c.1 / 128 == l)).length = 128 := by simpa using (List.mem_filter.mp hl).2
    split at hq
    · rename_i c rest hline
      obtain rfl := List.mem_singleton.mp hq
      rw [hline] at hlen
      obtain ⟨hloc, hmod, -⟩ := hin c (List.mem_filter.mp (hline ▸ List.mem_cons_self)).1
      refine ⟨hmod, fun x hx => ?_⟩
      obtain ⟨hlo, hhi⟩ := hx
      rw [List.length_map, hlen] at hhi
      obtain ⟨e, he, rfl⟩ := Tbl.mem_of_full_line hr hline hlen (hloc ▸ ⟨hlo, hhi⟩ : c.1 ≤ x ∧ x < c.1 + 128)
      exact (hin e he).2.2
    · cases hq
  · exact lastPuts_within hm (List.mem_filter.mp h).1

/-- The writes that a store makes of its elements' writes, in order (R127, R141). -/
def putsMade (readers : Nat) (ps : List Put) : List Put :=
  (if readers = 0 then lastPuts (ps.filter (fun p => !p.phys.dclass)) else linePuts (ps.filter (fun p => !p.phys.dclass))) ++
    ps.filter (fun p => p.phys.dclass)

theorem State.putAll_eq (s : State) (readers : Nat) (ps : List Put) :
    s.putAll readers ps = (putsMade readers ps).foldl (fun t p => t.writePhys true p.va p.phys p.bytes readers) s := rfl

theorem Put.within.mono {q : Put} {m : Nat} {ps qs : List Put} (h : q.within m ps) (hsub : ∀ p ∈ ps, p ∈ qs) : q.within m qs := by
  obtain ⟨hm, hcov⟩ := h
  refine ⟨hm, fun x hx => ?_⟩
  obtain ⟨p, hp, hpx⟩ := hcov x hx
  exact ⟨p, hsub p hp, hpx⟩

theorem putsMade_within {q : Put} {m readers : Nat} {ps : List Put} (hm : ∀ p ∈ ps, p.phys.spot.m = m) (h : q ∈ putsMade readers ps) :
    q.within m ps := by
  have hfree : ∀ p ∈ ps.filter (fun p => !p.phys.dclass), p ∈ ps := fun p hp => (List.mem_filter.mp hp).1
  rcases List.mem_append.mp h with h | h
  · split at h
    · exact (lastPuts_within (fun p hp => hm p (hfree p hp)) h).mono hfree
    · exact (linePuts_within (fun p hp => hm p (hfree p hp)) h).mono hfree
  · have hq := (List.mem_filter.mp h).1
    exact ⟨hm q hq, fun x hx => ⟨q, hq, hx⟩⟩

/-- Of writes to pages of one kind the last comes last (R127, R153). -/
theorem putsMade_concat {before : List Put} {q : Put} (h : ∀ p ∈ before, p.phys.dclass = q.phys.dclass) :
    ∃ qs, putsMade 0 (before ++ [q]) = qs ++ [q] := by
  cases hd : q.phys.dclass with
  | false =>
    have hfree : (before ++ [q]).filter (fun p => !p.phys.dclass) = before ++ [q] :=
      List.filter_eq_self.mpr (by simpa [or_imp, forall_and, hd] using h)
    have hnone : (before ++ [q]).filter (fun p => p.phys.dclass) = [] :=
      List.filter_eq_nil_iff.mpr (by simpa [or_imp, forall_and, hd] using h)
    rw [putsMade, hfree, hnone, List.append_nil, if_pos rfl]
    exact lastPuts_concat before q
  | true =>
    have hall : (before ++ [q]).filter (fun p => p.phys.dclass) = before ++ [q] :=
      List.filter_eq_self.mpr (by simpa [or_imp, forall_and, hd] using h)
    rw [putsMade, hall, ← List.append_assoc]
    exact ⟨_, rfl⟩

/-! ### Writes in the hart's own module -/

/-- Writes have performed: memory is in its form, and the acting hart but for its reservation, the tiles and the launches are as before. -/
structure Wrote (s t : State) : Prop where
  form : t.memOk
  hart : KeepsHart s t
  tiles : t.tiles = s.tiles
  launches : t.launches = s.launches

theorem Wrote.trans {s t u : State} (h : Wrote s t) (k : Wrote t u) : Wrote s u :=
  ⟨k.form, h.hart.trans k.hart, k.tiles.trans h.tiles, k.launches.trans h.launches⟩

theorem Wrote.mod {s t : State} (h : Wrote s t) : t.cur.mod = s.cur.mod := by
  obtain ⟨r, hr⟩ := h.hart
  rw [hr]

theorem Wrote.later {s t : State} (h : Wrote s t) : t.cur.later = s.cur.later := by
  obtain ⟨r, hr⟩ := h.hart
  rw [hr]

theorem wrote_putPhys {s : State} (h : s.memOk) (p : Phys) (bs : List Byte) (readers : Nat) : Wrote s (s.putPhys p bs readers) := by
  refine ⟨memOk_putPhys h p bs readers, ?_, ?_, ?_⟩ <;> unfold State.putPhys <;> split
  · exact keepsHart_storeFar ..
  · exact keepsHart_storeNear ..
  · exact (memStep_storeFar ..).tiles
  · exact (memStep_storeNear ..).tiles
  · exact (memStep_storeFar ..).launches
  · exact (memStep_storeNear ..).launches

/-- A vector write to the hart's own module performs now unless the hart's stores are posted in this turn (R152, R166). -/
theorem State.writePhys_own {s : State} {p : Phys} (hm : p.spot.m = s.cur.mod) (hl : s.cur.later = false) (va : Word) (bs : List Byte)
    (readers : Nat) : s.writePhys true va p bs readers = s.putPhys p bs readers := by
  simp [State.writePhys, hm, hl]

section
variable {s : State} (h : s.memOk) (hl : s.cur.later = false)
include h hl

/-- Writes to the hart's own module, one after another, leave every byte that none of them takes. -/
theorem byteAt_writes (readers : Nat) {qs : List Put} (hq : ∀ q ∈ qs, q.phys.spot.m = s.cur.mod) :
    let t := qs.foldl (fun t p => t.writePhys true p.va p.phys p.bytes readers) s
    Wrote s t ∧ ∀ x, (∀ q ∈ qs, ¬ q.covers x) → t.byteAt x = s.byteAt x := by
  induction qs generalizing s with
  | nil => exact ⟨⟨h, .of_cur rfl, rfl, rfl⟩, fun _ _ => rfl⟩
  | cons q qs ih =>
    have hm := hq q List.mem_cons_self
    have hput := wrote_putPhys h q.phys q.bytes readers
    obtain ⟨hw, hbyte⟩ := ih hput.form (hput.later.trans hl) fun p hp => (hq p (List.mem_cons_of_mem q hp)).trans hput.mod.symm
    simp only [List.foldl_cons, State.writePhys_own hm hl]
    refine ⟨hput.trans hw, fun x hx => ?_⟩
    have hout : x < q.phys.spot.loc ∨ q.phys.spot.loc + q.bytes.length ≤ x := by
      have := hx q List.mem_cons_self
      simp only [Put.covers] at this
      omega
    rw [hbyte x fun p hp => hx p (List.mem_cons_of_mem q hp), byteAt_putPhys h, overlay_outside hout]

variable {ps : List Put} (hm : ∀ q ∈ ps, q.phys.spot.m = s.cur.mod)
include hm

/-- A store leaves every byte that none of its elements writes (R127, R259). -/
theorem byteAt_putAll_outside (readers : Nat) :
    Wrote s (s.putAll readers ps) ∧ ∀ x, (∀ q ∈ ps, ¬ q.covers x) → (s.putAll readers ps).byteAt x = s.byteAt x := by
  obtain ⟨hw, hbyte⟩ := byteAt_writes h hl readers fun q hq => (putsMade_within hm hq).1
  refine ⟨hw, fun x hx => hbyte x fun q hq hc => ?_⟩
  obtain ⟨p, hp, hpx⟩ := (putsMade_within hm hq).2 x hc
  exact hx p hp hpx

/-- The bytes of the last element read as it wrote them (R153). -/
theorem byteAt_putAll_last {before : List Put} {q : Put} (hps : ps = before ++ [q]) (hkind : ∀ p ∈ before, p.phys.dclass = q.phys.dclass)
    {k : Nat} (hk : k < q.bytes.length) : (s.putAll 0 ps).byteAt (q.phys.spot.loc + k) = q.bytes[k] := by
  obtain ⟨qs, hqs⟩ := putsMade_concat hkind
  have hall : ∀ p ∈ qs ++ [q], p.phys.spot.m = s.cur.mod := fun p hp => by
    rw [← hqs, ← hps] at hp
    exact (putsMade_within hm hp).1
  obtain ⟨hw, -⟩ := byteAt_writes h hl 0 fun p hp => hall p (List.mem_append_left _ hp)
  have hq : q.phys.spot.m = _ := (hall q (by simp)).trans hw.mod.symm
  rw [State.putAll_eq, hps, hqs, List.foldl_append, List.foldl_cons, List.foldl_nil, State.writePhys_own hq (hw.later.trans hl),
    byteAt_putPhys hw.form, overlay_inside hk]

end

/-- The frame of the vector stores (R127, R153, R259). -/
theorem vectorStoreFrame : VectorStoreFrame := by
  intro s readers ps h hl hm
  obtain ⟨hw, hbyte⟩ := byteAt_putAll_outside h hl hm readers
  refine ⟨fun x hx => hbyte x fun q hq hc => ?_, fun hr before q hps hkind k hk => ?_, ?_⟩
  · have := hx q hq
    simp only [Put.covers] at hc
    omega
  · subst hr
    exact byteAt_putAll_last h hl hm hps hkind hk
  · obtain ⟨r, hcur⟩ := hw.hart
    refine ⟨sameG_of_eq ?_, ⟨?_, ?_⟩, ?_, ?_, ?_, ?_, ?_, hw.tiles, hw.launches⟩ <;> simp only [sameFlags, hcur]

/-- Settles O36, by what each store makes of its elements and what those writes leave. -/
theorem vectorStoreEffects : Obligations.VectorStoreEffects := ⟨vectorStoreResults, vectorStoreFrame⟩

end Sys2Proof.Machine
end

section
/-! PROOFS. Far loads, stores and atomics in a stack of the hart's own module (R122, R254 to R257, R263, R266). -/

namespace Sys2Proof.Machine

/-! ### Elements that are reached -/

/-- A load each of whose elements can be loaded gets them all (R258). -/
theorem loadLoop_ok {get : Nat → Except Stop Got} {g : Nat → Got} {els : List Nat} (h : ∀ i ∈ els, get i = .ok (g i)) :
    loadLoop get els = (els.map (fun i => (i, g i)), none) := by
  induction els with
  | nil => rfl
  | cons i els ih =>
    rw [loadLoop, h i List.mem_cons_self]
    simp only [ih fun j hj => h j (List.mem_cons_of_mem i hj), List.map_cons]

/-- In a list of elements with a value each, an element is found with its own. -/
theorem find?_map_pair {α : Type} (f : Nat → α) {els : List Nat} {i : Nat} (h : i ∈ els) :
    (els.map (fun k => (k, f k))).find? (fun x => x.1 == i) = some (i, f i) := by
  induction els with
  | nil => cases h
  | cons k els ih =>
    rw [List.map_cons, List.find?_cons]
    by_cases hk : k = i
    · simp [hk]
    · simp only [hk, beq_eq_false_iff_ne.mpr, ne_eq, not_false_eq_true]
      exact ih ((List.mem_cons.mp h).resolve_left (Ne.symm hk))

/-- An element that translates for a far form is aligned (R257). -/
theorem State.aligned_of_farPhys {s : State} {home va w : Nat} {k : Want} {q : Phys} (h : s.farPhys home va w k = .ok q) : va % w = 0 := by
  unfold State.farPhys at h
  split at h
  · cases h
  · exact not_not.mp ‹_›

theorem State.farAll_ok {s : State} {home w : Nat} {k : Want} {addr : Nat → Nat} {ph : Nat → Phys} {els : List Nat}
    (h : ∀ i ∈ els, s.farPhys home (addr i) w k = .ok (ph i)) : s.farAll home addr w k els = .ok (els.map (fun i => (i, ph i))) := by
  induction els with
  | nil => rfl
  | cons i els ih =>
    rw [State.farAll, h i List.mem_cons_self]
    simp only [ih fun j hj => h j (List.mem_cons_of_mem i hj), List.map_cons]

/-- A far form all of whose elements are reached performs them all (R122, R438, R443). -/
theorem State.farElems_of_reach {s : State} {home w : Nat} {k : Want} {addr : Nat → Nat} {ph : Nat → Phys} (h : s.farReach home w k addr ph)
    {perform : List (Nat × Phys) → FarOut} {o : FarOut} (ho : perform (s.farEls.map (fun i => (i, ph i))) = o) (hstop : o.stop = none) :
    s.farElems home w k addr perform = o := by
  have hreach : ∀ i ∈ s.farEls, s.farPhys home (addr i) w k = .ok (ph i) ∧ s.homeFault (s.farView home) home (addr i) k = none ∧
      s.homeFault (s.farView home) home (addr i + w - 1) k = none := fun i hi => h i (State.mem_farEls.mp hi)
  have hwhole : s.farWhole home w k addr = none := by
    rw [State.farWhole, State.homeFaults_none fun a ha => ?_]
    · rfl
    obtain ⟨i, hi, hia⟩ := List.mem_flatMap.mp ha
    obtain ⟨-, hlo, hhi⟩ := hreach i hi
    rcases List.mem_pair.mp hia with rfl | rfl
    · exact hlo
    · exact hhi
  have hgood : s.farGood w addr = (s.farEls, none) := by
    have hfind : s.farEls.find? (fun i => decide (addr i % w ≠ 0)) = none :=
      List.find?_eq_none.mpr fun i hi => by simp [State.aligned_of_farPhys (hreach i hi).1]
    rw [State.farGood, hfind]
  rw [State.farElems, hwhole]
  simp only [hgood, State.farAll_ok fun i hi => (hreach i hi).1, ho, hstop, Option.none_or, FarOut.keeping]
  rw [← hstop]

/-! ### How a far memory form ends -/

/-- The request's state goes with the entry that completes (R267). -/
theorem State.noRequest_completedV (s : State) : s.noRequest.completedV = s.completedV := by
  cases ha : s.cur.active <;> simp [State.noRequest, State.completedV, State.finishV, Hart.passes, ha]

/-- A far form that changes memory, raises flags and writes no register completes with that (R28, R267). -/
theorem farForm_gives {i : Instr} {op : FarOp} {s t : State} {home : Nat} {fl : Flags} (he : exec i s = runFar i op s) (hr : s.farReady home)
    (hc : noCond (op.conds s)) (hsel : op.select s = .ok home) (hnear : op.near = none) (hrun : op.run s home = ⟨t, fl, [], none⟩) :
    exec i s = .next (t.raise fl).completedV := by
  rw [he, runFar_completes hr hc hsel hrun rfl, State.farDone, hnear, State.noRequest_completedV]

/-- A far form that reads memory in the state `u` left by its read requests, and writes these far elements, completes with them (R266, R267). -/
theorem farForm_writes {i : Instr} {op : FarOp} {s u : State} {home d w : Nat} {fl : Flags} {f : Nat → Nat} (he : exec i s = runFar i op s)
    (hr : s.farReady home) (hc : noCond (op.conds s)) (hsel : op.select s = .ok home) (hnear : op.near = none)
    (hrun : op.run s home = ⟨u.putFar home d w (s.farEls.map (fun k => (k, f k))), fl, [], none⟩) (hu : MemStep s u) :
    ∃ t, exec i s = .next t ∧ wroteFar s t home d w s.farPerforms f ∧ t.cur.aflags = s.cur.aflags ||| fl ∧ farFrame s t ∧
      (sameMemory s u → sameMemory s t) := by
  have hclean : u.clean = true := by rw [State.clean, hu.poison]; exact hr.clean
  have hbanks := State.writeFar_banks_congr home d w (s.farEls.map (fun k => (k, f k))) hu.banks hu.cur
  obtain ⟨b, hb⟩ := State.writeFar_frame home d w (s.farEls.map (fun k => (k, f k))) u
  rw [State.putFar_of_clean hclean, hb] at hrun
  rw [hb] at hbanks
  refine ⟨_, farForm_gives he hr hc hsel hnear hrun, ?_, ?_, ?_, fun hmem a => ?_⟩
  · rw [← State.mem_farEls_eq]
    refine wroteFar_of_banks hr.rising s.nodup_farEls ?_ ?_ ?_
    · simpa using hbanks
    · simp [hu.cur]
    · simp [hu.cur]
  · simp [hu.cur]
  · refine ⟨sameG_of_eq ?_, ⟨?_, ?_⟩, ?_, ?_, ?_, ?_, ?_, ?_, finishes_completedV ?_ ?_ ?_ ?_⟩ <;>
      simp [sameSpecial, hu.cur, hu.harts, hu.launches, hu.mods, hu.tiles, hu.fabric]
  · simpa [State.byteAt, nearByte, farByte, dramByte] using hmem a


/-! ### Loads with one address per element -/

section
variable {p : M} {s : State} {home : Nat} {ph : Nat → Phys} {addr : Nat → Nat} (hr : s.farReady home)
include hr

/-- What a far load gets of elements that meet no poison (R254, R266). -/
theorem State.farLoads_ok (words : Nat → List SramWord) (hp : ∀ k, s.farPerforms k → poisonedAt s true (ph k).spot.loc (s.memWidth p) = none) :
    s.farLoads home p words (s.farEls.map (fun i => (i, ph i))) =
      ⟨(countFarReads s (s.farEls.map (fun k => (ph k).req))).putFar home (p.d.toNat % 16) s.cur.cfg.sew (s.farEls.map (fun k => (k,
        widen p.fmt.toNat s.cur.cfg.etype.toNat (leNat (readBytes s true (ph k).spot.loc (s.memWidth p)))))), 0, [], none⟩ := by
  have hels : (s.farEls.map (fun i => (i, ph i))).map (·.1) = s.farEls := by simp [Function.comp_def]
  simp only [State.farLoads, hels]
  rw [loadLoop_ok (g := fun i =>
    (widen p.fmt.toNat s.cur.cfg.etype.toNat (leNat (readBytes s true (ph i).spot.loc (s.memWidth p))), 0, [(ph i).req]))]
  · simp only [List.map_map, List.flatMap_map, Function.comp_def, List.map_const', orFlags_replicate_zero, ← List.map_eq_flatMap]
  · intro i hi
    simp only [find?_map_pair ph hi, State.anyPoison_of_clean hr.clean, State.readPhys, Bool.true_or, hp i (State.mem_farEls.mp hi),
      Bool.false_eq_true, if_false]

/-- A far load with one address per element completes (R254, R255, R257, R266). -/
theorem loadsFar {i : Instr} {op : FarOp} {words : Nat → List SramWord} (he : exec i s = runFar i op s) (hc : noCond (op.conds s))
    (hsel : op.select s = .ok home) (hnear : op.near = none)
    (hrun : op.run s home = s.farElems home (s.memWidth p) .load addr (s.farLoads home p words)) : LoadsFar i p s home addr := by
  intro ph hreach hpoison
  rw [State.farElems_of_reach hreach (State.farLoads_ok hr words hpoison) rfl] at hrun
  obtain ⟨t, hex, hw, hfl, hframe, hmem⟩ := farForm_writes he hr hc hsel hnear hrun (memStep_countFarReads s _)
  exact ⟨t, hex, hw, hfl.trans (flags_or_zero _), hframe, fun hnone => hmem (readsAs_countFarReads hnone _).sameMemory⟩

/-! ### Stores with one address per element -/

/-- What a far store makes of elements that are reached (R254, R259, R266). -/
theorem State.farStores_ok (words : Nat → List SramWord) :
    let v := fun k => narrow p.fmt.toNat s.cur.cfg.etype.toNat 0 (s.farElem home (p.d.toNat % 16) s.cur.cfg.sew k)
    s.farStores home p words (s.farEls.map (fun i => (i, ph i))) =
      ⟨s.putAllFar p.rdr.toNat (s.farEls.map (fun k => ⟨0, ph k, leBytes (s.memWidth p) (v k).1⟩)), orFlags (s.farEls.map (fun k => (v k).2)),
        [], none⟩ := by
  intro v
  have hels : (s.farEls.map (fun i => (i, ph i))).map (·.1) = s.farEls := by simp [Function.comp_def]
  simp only [State.farStores, hels]
  rw [storeLoop_ok (put := fun i => ([⟨0, ph i, leBytes (s.memWidth p) (v i).1⟩], (v i).2))]
  · simp only [← List.map_eq_flatMap]
  · intro i hi
    simp only [find?_map_pair ph hi, State.anyPoison_of_clean hr.clean, Bool.false_eq_true, if_false, v]

/-- A far store with one address per element completes with its writes (R254, R255, R257, R266). -/
theorem storesFar {i : Instr} {op : FarOp} {words : Nat → List SramWord} (he : exec i s = runFar i op s) (hc : noCond (op.conds s))
    (hsel : op.select s = .ok home) (hnear : op.near = none)
    (hrun : op.run s home = s.farElems home (s.memWidth p) .store addr (s.farStores home p words)) : StoresFar i p s home addr := by
  intro ph hreach v
  rw [State.farElems_of_reach hreach (State.farStores_ok hr words) rfl] at hrun
  exact farForm_gives he hr hc hsel hnear hrun

end

/-! ### KB operands -/

section
variable {p : M} {s : State} {home : Nat}

/-- A far KB operand whose pages are homed in the stack passes the check of its home range (R443). -/
theorem State.farKb_of_home {store : Bool} {body : FarOut} (h : s.cur.cfg.vl = 0 ∨ ∀ a ∈ pagesOf (s.unitSpan p store).1 (s.unitSpan p store).2,
    s.homeFault (s.farView home) home a (if store then .store else .load) = none) : s.farKb home p store body = body := by
  rw [State.farKb, State.homeFaults_none fun a ha => ?_]
  split at ha
  · cases ha
  · rename_i hvl
    exact h.resolve_left hvl a ha

/-- What a far KB load gets when it gets every element (R254, R256, R266). -/
theorem State.farKbLoad_ok {get : Nat → Got} (h : ∀ i ∈ s.farEls, s.kbGet (some home) (some 3) s.ft (s.memBase p) (s.src p.x).toNat
    (kbBits p.fmt.toNat) (planeCount (kbBits p.fmt.toNat) p.planes.toNat) s.farEls i = .ok (get i)) :
    s.farKbLoad home p = ⟨(countFarReads s (s.farEls.flatMap (fun i => (get i).2.2))).putFar home (p.d.toNat % 16) s.cur.cfg.sew
      (s.farEls.map (fun i => (i, (get i).1))), orFlags (s.farEls.map (fun i => (get i).2.1)), [], none⟩ := by
  simp only [State.farKbLoad]
  rw [List.findSome?_eq_none_iff.mpr fun i hi => by rw [h i hi], loadLoop_ok h]
  simp only [FarOut.keeping, List.flatMap_map, List.map_map, Function.comp_def]

variable (hr : s.farReady home)
include hr

/-- A far KB load that gets every element completes with them and their flags (R256, R266). -/
theorem fVld_kb (hc : noCond (s.farMemConds p true false)) (hsel : (farVld p).select s = .ok home) (hkb : p.kb = true) {get : Nat → Got}
    (hhome : s.cur.cfg.vl = 0 ∨ ∀ a ∈ pagesOf (s.unitSpan p false).1 (s.unitSpan p false).2, s.homeFault (s.farView home) home a .load = none)
    (h : ∀ i, s.farPerforms i → s.kbGet (some home) (some 3) s.ft (s.memBase p) (s.src p.x).toNat (kbBits p.fmt.toNat)
      (planeCount (kbBits p.fmt.toNat) p.planes.toNat) s.farEls i = .ok (get i)) :
    ∃ t, exec (.fVld p) s = .next t ∧ wroteFar s t home (p.d.toNat % 16) s.cur.cfg.sew s.farPerforms (fun i => (get i).1) ∧
      raisedBy s t s.farPerforms (fun i => (get i).2.1) ∧ farFrame s t := by
  have hrun : (farVld p).run s home = s.farKbLoad home p := (if_pos hkb).trans (State.farKb_of_home hhome)
  rw [State.farKbLoad_ok fun i hi => h i (State.mem_farEls.mp hi)] at hrun
  obtain ⟨t, hex, hw, hfl, hframe, -⟩ := farForm_writes (i := .fVld p) rfl hr hc hsel rfl hrun (memStep_countFarReads s _)
  have hraised := raisedBy_of_orFlags hfl
  rw [State.mem_farEls_eq] at hraised
  exact ⟨t, hex, hw, hraised, hframe⟩

/-- What a far KB store makes when it makes every chunk (R104, R256, R266). -/
theorem State.farKbStore_ok {put : Nat → List Put × Flags} {firsts : List Nat}
    (hfirsts : firsts = ((s.farEls.map (fun i => ((s.src p.x).toNat + i) / 512)).dedup.filterMap (fun c =>
      s.farEls.find? (fun i => ((s.src p.x).toNat + i) / 512 == c))))
    (h : ∀ i ∈ firsts, s.kbMake (some home) (some 3) s.ft (s.memBase p) (s.src p.x).toNat (kbBits p.fmt.toNat) (upto 0 s.cur.cfg.vl.toNat)
      (s.farElem home (p.d.toNat % 16) s.cur.cfg.sew) (((s.src p.x).toNat + i) / 512) = .ok (put i)) :
    s.farKbStore home p = ⟨s.putAllFar p.rdr.toNat (firsts.flatMap (fun i => (put i).1)), orFlags (firsts.map (fun i => (put i).2)), [], none⟩ := by
  simp only [State.farKbStore, ← hfirsts]
  rw [List.findSome?_eq_none_iff.mpr fun i hi => by rw [h i hi], storeLoop_ok (put := put)]
  · rfl
  · intro i hi
    simp only [State.anyPoison_of_clean hr.clean, h i hi, Bool.false_eq_true, if_false]

/-- A far KB store that makes every chunk completes with their writes and flags (R104, R256, R266). -/
theorem fVst_kb (hc : noCond (s.farMemConds p false false)) (hsel : (farVst p).select s = .ok home) (hkb : p.kb = true)
    {put : Nat → List Put × Flags} {firsts : List Nat}
    (hhome : s.cur.cfg.vl = 0 ∨ ∀ a ∈ pagesOf (s.unitSpan p true).1 (s.unitSpan p true).2, s.homeFault (s.farView home) home a .store = none)
    (hfirsts : firsts = ((s.farEls.map (fun i => ((s.src p.x).toNat + i) / 512)).dedup.filterMap (fun c =>
      s.farEls.find? (fun i => ((s.src p.x).toNat + i) / 512 == c))))
    (h : ∀ i ∈ firsts, s.kbMake (some home) (some 3) s.ft (s.memBase p) (s.src p.x).toNat (kbBits p.fmt.toNat) (upto 0 s.cur.cfg.vl.toNat)
      (s.farElem home (p.d.toNat % 16) s.cur.cfg.sew) (((s.src p.x).toNat + i) / 512) = .ok (put i)) :
    exec (.fVst p) s = .next ((s.putAllFar p.rdr.toNat (firsts.flatMap (fun i => (put i).1))).raise
      (orFlags (firsts.map (fun i => (put i).2)))).completedV := by
  have hrun : (farVst p).run s home = s.farKbStore home p := (if_pos hkb).trans (State.farKb_of_home hhome)
  rw [State.farKbStore_ok hr hfirsts h] at hrun
  exact farForm_gives rfl hr hc hsel rfl hrun

end

/-! ### What an atomic writes -/

/-- An atomic other than CAS writes what its operation gives on the patterns (R210, R263). -/
theorem wrap_amoNew {w op : Nat} (hop : op ≠ 2) (x y : BitVec w) :
    wrap w ((amoNew op w x.toInt y.toInt 0).getD 0) = ((amoWrites op x y 0).getD 0).toNat := by
  have hwrap : ∀ z : BitVec w, wrap w z.toInt = z.toNat := fun z => by rw [wrap_eq_toNat, BitVec.ofInt_toInt]
  have hnat : ∀ n : Nat, n < 2 ^ w → wrap w (n : Int) = n := fun n hn => by
    rw [wrap_eq_toNat, BitVec.ofInt_natCast, BitVec.toNat_ofNat, Nat.mod_eq_of_lt hn]
  have hsigned : ∀ z : BitVec w, signed w (wrap w z.toInt) = z.toInt := fun z => by rw [hwrap, signed_toNat]
  unfold amoNew
  split
  · simp [amoWrites, wrap_eq_toNat, BitVec.ofInt_add]
  · simp [amoWrites, hwrap]
  · exact absurd rfl hop
  · simp only [amoWrites, hsigned, Option.getD_some, ← BitVec.sle_iff_toInt_le]
    split <;> simp [*]
  · simp only [amoWrites, hsigned, Option.getD_some, ← BitVec.sle_iff_toInt_le]
    split <;> simp [*]
  · simp [amoWrites, hwrap, hnat _ (BitVec.toNat_and x y ▸ (x &&& y).isLt)]
  · simp [amoWrites, hwrap, hnat _ (BitVec.toNat_or x y ▸ (x ||| y).isLt)]
  · rename_i h0 h1 h2 h3 h4 h5 h6
    simp only [amoWrites, if_neg h0, if_neg h1, if_neg h2, if_neg h3, if_neg h4, if_neg h5, if_neg h6, hwrap, Option.getD_some,
      hnat _ (BitVec.toNat_xor x y ▸ (x ^^^ y).isLt), BitVec.toNat_xor]

/-! ### Memory with no poisoned word stays so (R455) -/

/-- The same words are poisoned: none. -/
theorem State.noBad_congr {s t : State} (h : s.noBad) (hm : t.badMem = s.badMem) (hn : t.badNear = s.badNear) (hc : t.msc = s.msc) : t.noBad := by
  unfold State.noBad
  rw [hm, hn, hc]
  exact h

/-- A line of memory with no poisoned word has none. -/
theorem State.farLine_bad_eq_nil {s : State} (h : s.noBad) (line : Nat) : (farLine s line).bad = [] := by
  obtain ⟨hmem, -, hmsc⟩ := h
  unfold farLine
  cases hf : Tbl.find line s.msc with
  | none => simp [dramBad, hmem]
  | some l => exact hmsc _ (Tbl.find_mem hf)

theorem State.noBad_putLine {s : State} (h : s.noBad) {line : Nat} {l : MscLine} (hl : l.bad = []) :
    State.noBad { s with msc := Tbl.put line l s.msc } := by
  obtain ⟨hmem, hnear, hmsc⟩ := h
  refine ⟨hmem, hnear, fun c hc => ?_⟩
  rcases Tbl.mem_put hc with rfl | hc
  · exact hl
  · exact hmsc c hc

theorem State.noBad_putFarLine {s : State} (h : s.noBad) {line : Nat} {l : MscLine} (hl : l.bad = []) : (putFarLine s line l).noBad := by
  unfold putFarLine
  split
  · exact State.noBad_putLine h hl
  · obtain ⟨hmem, hnear, hmsc⟩ := h
    exact ⟨by simp [putMemLine, hmem, hl], hnear, hmsc⟩

theorem State.noBad_mscWrite {s : State} (h : s.noBad) (a : Nat) (bs : List Byte) (n : Nat) : (mscWrite s a bs n).noBad :=
  State.noBad_putFarLine h (by simp [coverBad, State.farLine_bad_eq_nil h])

theorem State.noBad_pushLine {s : State} (h : s.noBad) (line : Nat) : (pushLine s line).noBad := by
  have hl := State.farLine_bad_eq_nil h line
  have hnear := h.2.1
  unfold pushLine
  split
  · exact State.noBad_congr (State.noBad_putFarLine (line := line) h (by simp [hl, hnear])) rfl rfl rfl
  · exact h

theorem State.noBad_dropCopies {s : State} (h : s.noBad) (line : Nat) : (dropCopies s line).noBad := by
  have hset : (setOnChip s line false).noBad := by
    unfold setOnChip
    split
    · rename_i l hf
      exact State.noBad_putLine h (h.2.2 _ (Tbl.find_mem hf))
    · exact h
  obtain ⟨hmem, hnear, hmsc⟩ := hset
  exact ⟨hmem, by simp [dropCopies, hnear], hmsc⟩

theorem State.noBad_recallLine {s : State} (h : s.noBad) (line : Nat) : (recallLine s line).noBad :=
  State.noBad_dropCopies (State.noBad_pushLine h line) line

theorem State.noBad_storeFar {s : State} (h : s.noBad) (a : Nat) (bs : List Byte) (n : Nat) : (storeFar s a bs n).noBad := by
  have hlines : ∀ (cs : List (Nat × List Byte)) (t : State), t.noBad → (cs.foldl (fun t c => farStoreLine t c.1 c.2 n) t).noBad := by
    intro cs
    induction cs with
    | nil => exact fun _ ht => ht
    | cons c cs ih => exact fun t ht => ih _ (State.noBad_mscWrite (State.noBad_recallLine ht _) _ _ _)
  exact hlines _ _ (State.noBad_congr h rfl rfl rfl)

/-- A read of memory with no poisoned word gets its bytes (R456). -/
theorem State.readPhys_of_noBad {s : State} (h : s.noBad) (q : Phys) (n : Nat) (far : Bool) :
    s.readPhys q n far = .ok (readBytes s (far || q.uncached) q.spot.loc n) := by
  obtain ⟨hmem, hnear, hmsc⟩ := h
  have hall : s.msc.all (fun c => c.2.bad.isEmpty) = true := List.all_eq_true.mpr fun c hc => by simp [hmsc c hc]
  simp [State.readPhys, poisonedAt, hmem, hnear, hall]

/-! ### VAMO at the far point -/

section
variable {p : M} {home : Nat} {orig : State} (hop : p.sf.toNat % 8 ≠ 2)

/-- A recall and a write at the far point poison no register. -/
theorem State.storeFar_recallLine_clean {s : State} (h : s.clean = true) (line a : Nat) (bs : List Byte) :
    (storeFar (recallLine s line) a bs 0).clean = true := by
  have hp : (storeFar (recallLine s line) a bs 0).poison = s.poison := (memStep_storeFar _ a bs 0).poison.trans (memStep_recallLine s line).poison
  rw [State.clean, hp]
  exact h

theorem farAmoStep_clean {s : State} (h : s.clean = true) (x : Nat × Phys) : (farAmoStep p home orig s x).clean = true := by
  have hstore := State.storeFar_recallLine_clean h (x.2.spot.loc / 128)
  unfold farAmoStep
  dsimp only
  split
  · exact hstore _ _
  · obtain ⟨b, hb⟩ := State.writeFar_frame home (p.d.toNat % 16) s.cur.cfg.sew _ (storeFar _ _ _ 0)
    rw [hb]
    exact hstore _ _

theorem farAmoStep_noBad {s : State} (h : s.noBad) (x : Nat × Phys) : (farAmoStep p home orig s x).noBad := by
  unfold farAmoStep
  dsimp only
  have hstore := fun a bs => State.noBad_storeFar (State.noBad_recallLine h (x.2.spot.loc / 128)) a bs 0
  split
  · exact hstore _ _
  · obtain ⟨b, hb⟩ := State.writeFar_frame home (p.d.toNat % 16) s.cur.cfg.sew _ (storeFar _ _ _ 0)
    rw [hb]
    exact State.noBad_congr (hstore _ _) rfl rfl rfl

include hop

/-- A far VAMO that meets no poison performs its elements one step each (R151, R263, R266). -/
theorem farAmoLoop_eq_foldl (els : List (Nat × Phys)) : ∀ {s : State}, s.clean = true → s.noBad →
    farAmoLoop p home orig els s = ⟨els.foldl (farAmoStep p home orig) s, 0, [], none⟩ := by
  induction els with
  | nil => exact fun _ _ => rfl
  | cons x els ih =>
    intro s hc hb
    rw [List.foldl_cons, ← ih (farAmoStep_clean hc x) (farAmoStep_noBad hb x), farAmoLoop]
    simp only [State.anyPoison_of_clean hc, State.readPhys_of_noBad (State.noBad_recallLine hb _), Bool.false_eq_true, if_false, Bool.true_or]
    simp only [signed_eq_toInt, wrap_amoNew hop, bit_toNat]
    rw [State.putFar_of_clean]
    · rfl
    · exact State.storeFar_recallLine_clean hc _ _ _

end

/-- A far VAMO all of whose elements are reached completes with one step for each (R160, R254, R263, R266). -/
theorem fVamo_steps {p : M} {s : State} {home : Nat} (hr : s.farReady home) (hc : noCond ((farVamo p).conds s))
    (hsel : (farVamo p).select s = .ok home) (hop : p.sf.toNat % 8 ≠ 2) (hb : s.noBad) {ph : Nat → Phys}
    (hreach : s.farReach home (s.cur.cfg.sew / 8) .amo (s.farAmoAddr p home) ph) :
    exec (.fVamo p) s = .next ((s.farEls.map (fun i => (i, ph i))).foldl (farAmoStep p home s) s).completedV := by
  have hrun : (farVamo p).run s home = _ := State.farElems_of_reach hreach (farAmoLoop_eq_foldl hop _ hr.clean hb) rfl
  rw [farForm_gives rfl hr hc hsel rfl hrun, State.raise, flags_or_zero]

/-- Settles O40: a far form whose elements are all reached performs them all, and what it performs is the near form's at the far point. -/
theorem farMemoryResults : Obligations.FarMemoryResults := by
  intro p s home hr
  refine ⟨fun hc => ⟨fun hsel hkb => ?_, fun hsel => ?_, fun hsel hkb get hhome h => ?_⟩, fun hc hsel => ?_,
    fun hc => ⟨fun hsel hkb => ?_, fun hsel => ?_, fun hsel hkb put hhome => ?_⟩, fun hc hsel => ?_,
    fun hc hsel hop hb ph hreach => ?_⟩
  · exact loadsFar hr rfl hc hsel rfl (if_neg (by simp [hkb]))
  · exact loadsFar hr rfl hc hsel rfl rfl
  · exact fVld_kb hr hc hsel hkb hhome h
  · exact loadsFar hr rfl hc hsel rfl rfl
  · exact storesFar hr rfl hc hsel rfl (if_neg (by simp [hkb]))
  · exact storesFar hr rfl hc hsel rfl rfl
  · exact fVst_kb hr hc hsel hkb hhome rfl
  · exact storesFar hr rfl hc hsel rfl rfl
  · exact fVamo_steps hr hc hsel hop hb hreach

end Sys2Proof.Machine
end

section
/-! PROOFS. The form of memory and of the far banks: what the operations on the state keep of it (R74, R140, R148). -/

namespace Sys2Proof.Machine

/-! ### The form -/

/-- Memory is in its canonical form, and the far banks list rising keys. -/
def MemForm (s : State) : Prop := s.memOk ∧ Tbl.rising s.banks = true

variable {s t : State}

/-- The form depends on four fields alone. -/
theorem MemForm.same (h : MemForm s) (hd : t.dram = s.dram) (hn : t.near = s.near) (hm : t.msc = s.msc) (hb : t.banks = s.banks) :
    MemForm t := ⟨State.memOk_congr h.1 hd hn hm, by rw [hb]; exact h.2⟩

theorem MemForm.mem (h : MemForm s) (m : MemStep s t) : MemForm t := ⟨m.2 h.1, by rw [m.banks]; exact h.2⟩

/-- The acting hart replaced. -/
theorem MemForm.cur (h : MemForm s) (x : Hart) : MemForm { s with cur := x } := h

theorem MemForm.ite {a b : State} {c : Prop} [Decidable c] (ha : MemForm a) (hb : MemForm b) : MemForm (if c then a else b) := by
  split
  · exact ha
  · exact hb

theorem MemForm.foldl {β : Type} {f : State → β → State} (hf : ∀ (s : State) b, MemForm s → MemForm (f s b)) (l : List β) :
    ∀ {s : State}, MemForm s → MemForm (l.foldl f s) := by
  induction l with
  | nil => exact id
  | cons b l ih => exact fun h => ih (hf _ b h)

/-! ### Operations that leave memory -/

theorem MemForm.onHart (h : MemForm s) (i : HartId) (f : Hart → Hart) : MemForm (s.onHart i f) := h
theorem MemForm.onHarts (h : MemForm s) (p : Hart → Bool) (f : Hart → Hart) : MemForm (s.onHarts p f) := h
theorem MemForm.onMod (h : MemForm s) (m : Nat) (f : Module → Module) : MemForm (s.onMod m f) := h.same (by simp) (by simp) (by simp) (by simp)
theorem MemForm.onLaunch (h : MemForm s) (l : Nat) (f : Launch → Launch) : MemForm (s.onLaunch l f) :=
  h.same (by simp) (by simp) (by simp) (by simp)
theorem MemForm.onShare (h : MemForm s) (l k : Nat) (f : Share → Share) : MemForm (s.onShare l k f) := h.onLaunch l _
theorem MemForm.heard (h : MemForm s) (m k : Nat) : MemForm (s.heard m k) := h.onMod m _
theorem MemForm.coverSr (h : MemForm s) (ns : List Nat) : MemForm (s.coverSr ns) := h.same (by simp) (by simp) (by simp) (by simp)
theorem MemForm.dropMsg (h : MemForm s) (n : Nat) : MemForm (s.dropMsg n) := h.same (by simp) (by simp) (by simp) (by simp)
theorem MemForm.countPage (h : MemForm s) (src a : Nat) : MemForm (countPage s src a) := .ite h (h.onMod _ _)
theorem MemForm.focus (h : MemForm s) (i : HartId) : MemForm (s.focus i) := by
  unfold State.focus
  split
  · exact h
  · split
    · exact h
    · exact h
theorem MemForm.addHart (h : MemForm s) (x : Hart) : MemForm (s.addHart x) := .ite h h

/-! ### Parts of memory and of the far banks dropped -/

theorem MemForm.dropDram (h : MemForm s) (p : Host.Cell → Bool) : MemForm { s with dram := s.dram.filter p } :=
  ⟨⟨Memory.wf_filter p h.1.1, h.1.2⟩, h.2⟩

theorem MemForm.dropNear (h : MemForm s) (p : Nat × Byte → Bool) : MemForm { s with near := s.near.filter p } :=
  ⟨⟨h.1.1, Tbl.rising_filter p h.1.2.1, h.1.2.2⟩, h.2⟩

theorem MemForm.dropMsc (h : MemForm s) (p : Nat × MscLine → Bool) : MemForm { s with msc := s.msc.filter p } := by
  obtain ⟨⟨hdram, hnear, hrise, hlines⟩, hbanks⟩ := h
  exact ⟨⟨hdram, hnear, Tbl.rising_filter p hrise, fun c hc => hlines c (List.mem_filter.mp hc).1⟩, hbanks⟩

theorem MemForm.dropBanks (h : MemForm s) (p : Nat × Nat → Bool) : MemForm { s with banks := s.banks.filter p } :=
  ⟨h.1, Tbl.rising_filter p h.2⟩

/-! ### Caches and translation -/

theorem MemForm.countReads (h : MemForm s) (reqs : List Nat) : MemForm (countReads s reqs) := h.mem (memStep_countReads s reqs)
theorem MemForm.countFarReads (h : MemForm s) (reqs : List Nat) : MemForm (countFarReads s reqs) := h.mem (memStep_countFarReads s reqs)
theorem MemForm.readL1 (h : MemForm s) (m c a : Nat) : MemForm (s.readL1 m c a) := h.mem (memStep_readL1 s m c a)
theorem MemForm.scalarReadDone (h : MemForm s) (p : Phys) : MemForm (s.scalarReadDone p) := h.mem (memStep_scalarReadDone s p)
theorem MemForm.writeBack (h : MemForm s) (mine : Nat → Bool) : MemForm (writeBack s mine) := h.mem (memStep_writeBack s mine)
theorem MemForm.fillCopy (h : MemForm s) (line : Nat) : MemForm (fillCopy s line) := h.mem (memStep_fillCopy s line)
theorem MemForm.spoil (h : MemForm s) (far : Bool) (w : Nat) : MemForm (s.spoil far w) := h.mem (memStep_spoil s far w)

theorem MemForm.ticked (h : MemForm s) : MemForm s.ticked := by
  obtain ⟨u, hu, ht⟩ := s.ticked_eq
  have hk : MemForm u := MemForm.mem (s := { s with tick := s.tick + 1 }) h hu
  rw [ht]
  exact hk

theorem MemForm.walkRead (h : MemForm s) (v : View) (x : Spot) : MemForm (s.walkRead v x) := by
  unfold State.walkRead
  split
  · exact h.mem (memStep_fillFar _ _)
  · exact .ite (h.fillCopy _) h

theorem MemForm.fillTlb (h : MemForm s) (v : View) (va : Nat) : MemForm (s.fillTlb v va) := by
  have hput : ∀ (u : State) (e : TlbEntry), MemForm u → MemForm (u.putTlb e) := fun _ _ hu => hu
  have hpath := h.foldl (fun _ c hu => hu.walkRead v c.1) (walkPath s v va 5 (bits v.atp.toNat 0 40))
  unfold State.fillTlb
  split
  · exact h
  · simp only
    split
    · exact hpath
    · split
      · exact hpath
      · refine .foldl (fun u c hu => ?_) _ (hpath.foldl (fun u q hu => hput u _ hu) _)
        exact hu.foldl (fun u q hu => hput u _ hu) _

/-! ### Stores -/

theorem MemForm.storeFar (h : MemForm s) (a : Nat) (bs : List Byte) (n : Nat) : MemForm (storeFar s a bs n) :=
  MemForm.mem (s := breakResvs s a bs.length) h (memStep_storeFar s a bs n)

theorem MemForm.storeNear (h : MemForm s) (a : Nat) (bs : List Byte) : MemForm (storeNear s a bs) :=
  MemForm.mem (s := breakResvs s a bs.length) h (memStep_storeNear s a bs)

theorem MemForm.writeL1 {m c a : Nat} {put : State → State} (h : MemForm (put s)) : MemForm (s.writeL1 m c a put) := .ite h h

theorem MemForm.putFor {i : HartId} {near : Bool} {a : Nat} {put : State → State} (h : MemForm (put s)) : MemForm (s.putFor i near a put) := by
  unfold State.putFor
  split
  · exact h.writeL1
  · exact h

theorem MemForm.performStore (h : MemForm s) (src : Nat) (m : Msg) : MemForm (performStore s src m) := by
  cases m with
  | store i va vec far inOrder readers a bs =>
    have hput {near : Bool} : MemForm (s.putFor i near a fun u => if far then Machine.storeFar u a bs readers else Machine.storeNear u a bs) :=
      .putFor (.ite (h.storeFar a bs readers) (h.storeNear a bs))
    exact .ite (hput.countPage _ _) ((hput.countPage _ _).heard _ _)
  | _ => exact h

theorem MemForm.drain (h : MemForm s) (mine : Msg → Bool) : MemForm (s.drain mine) :=
  MemForm.foldl (s := { s with fabric := _ }) (fun _ x hu => hu.performStore _ x) _ h

theorem MemForm.settle (h : MemForm s) : MemForm s.settle := .ite (h.drain _) h
theorem MemForm.settleOn (h : MemForm s) (vec : Bool) : MemForm (s.settleOn vec) := .ite (h.drain _) h
theorem MemForm.settleFor (h : MemForm s) (vec : Bool) (p : Phys) : MemForm (s.settleFor vec p) := .ite (h.settleOn vec) h.settle
theorem MemForm.settleRuns (h : MemForm s) (vec : Bool) (ps : List (Phys × Nat)) : MemForm (s.settleRuns vec ps) :=
  h.foldl (fun _ q hu => hu.settleFor vec q.1) ps
theorem MemForm.acknowledged (h : MemForm s) : MemForm s.acknowledged := h.settle

theorem MemForm.putPhys (h : MemForm s) (p : Phys) (bs : List Byte) (n : Nat) : MemForm (s.putPhys p bs n) := .ite (h.storeFar _ _ _) (h.storeNear _ _)

theorem MemForm.putScalar (h : MemForm s) (p : Phys) (bs : List Byte) : MemForm (s.putScalar p bs) :=
  .ite (.writeL1 (h.putPhys p bs 0)) (h.putPhys p bs 0)

theorem MemForm.writePhys (h : MemForm s) (vec : Bool) (va : Word) (p : Phys) (bs : List Byte) (n : Nat) : MemForm (s.writePhys vec va p bs n) :=
  .ite h (.ite h (.ite (h.putPhys p bs n) (h.putScalar p bs)))

theorem MemForm.writeRuns (vec : Bool) (ps : List (Phys × Nat)) :
    ∀ {s : State} (va : Nat) (bs : List Byte), MemForm s → MemForm (s.writeRuns vec va ps bs) := by
  induction ps with
  | nil => exact fun _ _ h => h
  | cons q ps ih => exact fun _ _ h => ih _ _ (h.writePhys vec _ _ _ _)

theorem MemForm.spoilRuns (h : MemForm s) (ps : List (Phys × Nat)) (offs : List Nat) : MemForm (s.spoilRuns ps offs) :=
  h.foldl (fun _ _ hu => hu.settle.spoil _ _) offs

/-! ### Error records, the end of a launch and traps -/

theorem MemForm.raiseMsix (h : MemForm s) (m v : Nat) : MemForm (raiseMsix s m v) := h.onMod m _

theorem MemForm.putErr (h : MemForm s) (m q : Nat) (e : ErrRec) : MemForm (putErr s m q e) := by
  unfold Machine.putErr
  split
  · exact h
  · exact .ite ((h.onMod _ _).raiseMsix _ _) (.ite ((h.onMod _ _).raiseMsix _ _) (h.onMod _ _))

theorem MemForm.writeErr (h : MemForm s) (m q : Nat) (e : ErrRec) : MemForm (writeErr s m q e) := by
  unfold Machine.writeErr
  split
  · exact h
  · exact .ite (.ite (h.onMod _ _) (h.putErr _ _ _)) (.ite (h.onMod _ _) (h.putErr _ _ _))

theorem MemForm.reportRec (h : MemForm s) (l m : Nat) (e : ErrRec) : MemForm (reportRec s l m e) := by
  unfold Machine.reportRec
  split
  · exact h
  · exact .ite (h.writeErr _ _ _) (.ite (h.writeErr _ _ _) h)

theorem MemForm.reportErr (h : MemForm s) (x : Hart) : MemForm (reportErr s x) := by
  unfold Machine.reportErr
  split
  · exact h
  · exact h.reportRec _ _ _

theorem MemForm.firmwareRoute (h : MemForm s) (t : Trap) : MemForm (firmwareRoute s t) := ((h.coverSr _).cur _).reportErr _

theorem MemForm.endRanks (h : MemForm s) (l : Nat) (x : Launch) (out : Nat → Bool) : MemForm (s.endRanks l x out) := h.onLaunch l _

theorem MemForm.abortLaunch (h : MemForm s) (m l status detail rank : Nat) : MemForm (abortLaunch s m l status detail rank) := by
  unfold Machine.abortLaunch
  split
  · exact h
  · exact .ite h ((h.onLaunch l _).endRanks _ _ _)

theorem MemForm.takeTrap (h : MemForm s) (t : Trap) : MemForm (takeTrap s t) :=
  .ite ((h.firmwareRoute _).abortLaunch _ _ _ _ _) (.ite ((h.coverSr _).cur _)
    (.ite ((h.firmwareRoute t).abortLaunch _ _ _ _ _) (h.firmwareRoute t)))

theorem MemForm.noteEnd (h : MemForm s) : MemForm s.noteEnd := .ite (h.onLaunch _ _) h

theorem MemForm.endHart (h : MemForm s) : MemForm (endHart s) := MemForm.noteEnd (s := { s.settle with cur := s.settle.cur.finish }) h.settle

/-! ### Registers of the acting hart -/

theorem MemForm.setG (h : MemForm s) (d : Fin 32) (v : Word) : MemForm (s.setG d v) := h
theorem MemForm.raise (h : MemForm s) (f : Flags) : MemForm (s.raise f) := h
theorem MemForm.draw (h : MemForm s) : MemForm s.draw := h
theorem MemForm.setAcc (h : MemForm s) (c : Nat) (a : Acc) : MemForm (s.setAcc c a) := h

theorem MemForm.writeVec (h : MemForm s) (d : Fin 64) (els : List (Nat × Nat)) : MemForm (s.writeVec d els) := by
  obtain ⟨p, hp⟩ := s.writeVec_frame d els
  rw [hp]
  exact h

/-! ### Far registers -/

theorem MemForm.setFar (h : MemForm s) (home r v : Nat) : MemForm (s.setFar home r v) := ⟨h.1, Tbl.rising_store _ _ _ h.2⟩
theorem MemForm.setFarElem (h : MemForm s) (home r w i v : Nat) : MemForm (s.setFarElem home r w i v) := h.setFar _ _ _

/-- A save takes the hart's far banks out of its slot (R57). -/
theorem MemForm.stow (h : MemForm s) : MemForm s.stow := h.dropBanks _

/-- A resume copies the hart's far banks into its slot (R369). -/
theorem MemForm.unstow (h : MemForm s) : MemForm s.unstow := by
  have hfold (l : List (Nat × Nat)) (k : Nat × Nat → Nat) : ∀ {b : Tbl Nat}, Tbl.rising b = true →
      Tbl.rising (l.foldl (fun b c => Tbl.store 0 (k c) c.2 b) b) = true := by
    induction l with
    | nil => exact id
    | cons c l ih => exact fun hb => ih (Tbl.rising_store _ _ _ hb)
  exact ⟨h.1, hfold _ _ (Tbl.rising_filter _ h.2)⟩

end Sys2Proof.Machine
end

section
/-! PROOFS. The form of memory in the results of instructions: the scalar stream's accesses and the near vector instructions. -/

namespace Sys2Proof.Machine

variable {s t : State}

/-! ### Results and outcomes -/

/-- Whatever a body gives, its state is in form. -/
def Res.Form : Res → Prop
  | .ok s | .trap _ s | .wait _ s | .held _ _ s | .stall s => MemForm s

/-- A next state, if there is one, is in form. -/
def FormNext (o : Host.Outcome State Fault Refusal) : Prop := ∀ t, o = .next t → MemForm t

theorem MemForm.next (h : MemForm t) : FormNext (.next t) := fun _ e => by cases e; exact h

theorem MemForm.ok (h : MemForm s) : (Res.ok s).Form := h
theorem MemForm.trapped (h : MemForm s) (x : Trap) : (Res.trap x s).Form := h
theorem MemForm.precise (h : MemForm s) (c k : Nat) (v : Word) : (precise c k v s).Form := h
theorem MemForm.imprecise (h : MemForm s) (c k va : Nat) : (imprecise c k va s).Form := h

theorem Res.Form.ite {a b : Res} {c : Prop} [Decidable c] (ha : a.Form) (hb : b.Form) : (if c then a else b).Form := by
  split
  · exact ha
  · exact hb

theorem MemForm.stop (h : MemForm s) (e : Stop) (imp : Bool) : (e.res imp s).Form := by
  cases e with
  | trap c v => exact h
  | hold w va => exact h

theorem MemForm.afterStores (h : MemForm s) {body : State → Res} (hb : (body s.settle).Form) : (s.afterStores body).Form := by
  unfold State.afterStores
  split
  · exact h
  · exact hb

theorem MemForm.afterQueue (h : MemForm s) {x : Res} (hx : x.Form) : (afterQueue s x).Form := by
  unfold Machine.afterQueue
  split
  · exact hx
  · exact h

theorem Res.Form.onStop {x : Res} (hx : x.Form) {f : State → State} (hf : ∀ s, MemForm s → MemForm (f s)) : (x.onStop f).Form := by
  cases x with
  | trap t s => exact hf s hx
  | held w va s => exact hf s hx
  | ok s => exact hx
  | wait on s => exact hx
  | stall s => exact hx

theorem MemForm.checkedAt (h : MemForm s) {va : Nat} {conds : List (Bool × Nat × Nat)} {body : State → Res} (hb : (body s).Form) :
    (checkedAt va conds body s).Form := by
  unfold Machine.checkedAt
  split
  · exact h
  · exact hb

theorem MemForm.checked (h : MemForm s) {conds : List (Bool × Nat × Nat)} {body : State → Res} (hb : (body s).Form) :
    (checked conds body s).Form := h.checkedAt hb

theorem MemForm.setD (h : MemForm s) (d : BitVec 6) (v : Word) : (s.setD d v).Form := h

theorem MemForm.jumpTo (h : MemForm s) (target : Word) : (jumpTo s target).Form := by
  unfold Machine.jumpTo
  refine .ite (h.afterQueue ?_) (.ite h h)
  split
  · exact h
  · exact h.afterStores h.settle.endHart

theorem MemForm.waits (h : MemForm s) (on : Word) : MemForm (s.waits on) := h

theorem MemForm.enqueue (h : MemForm s) (i : Instr) (trapped : Bool) : MemForm (s.enqueue i trapped) := by
  unfold State.enqueue
  split
  · exact h
  · exact h

theorem MemForm.noteMatrix (h : MemForm s) (i : Instr) : MemForm (s.noteMatrix i) := by
  unfold State.noteMatrix
  split
  · exact h
  · exact h

theorem MemForm.finishV (h : MemForm s) : MemForm s.finishV := by
  unfold State.finishV
  split
  · exact h
  · exact h

theorem Res.Form.retire {x : Res} (hx : x.Form) : FormNext (retire x) := by
  cases x with
  | ok s => exact MemForm.next hx
  | trap t s => exact MemForm.next (MemForm.takeTrap (by exact hx) t)
  | wait on s => exact MemForm.next hx
  | held w va s => exact MemForm.next hx
  | stall s => exact MemForm.next hx

theorem Res.Form.retireV {x : Res} (hx : x.Form) (i : Instr) (was : Unfinished) : FormNext (retireV i was x) := by
  cases x with
  | ok s => exact MemForm.next (MemForm.finishV hx)
  | trap t s =>
    unfold Machine.retireV
    simp only
    split
    · have hq : MemForm ((s.noteMatrix i).enqueue i true) := MemForm.enqueue (MemForm.noteMatrix hx i) i true
      exact MemForm.next (MemForm.takeTrap (by exact hq) t)
    · exact MemForm.next (MemForm.takeTrap (by exact hx) t)
  | wait on s => exact ((MemForm.enqueue hx i false).waits on).next
  | held w va s =>
    exact MemForm.next ((MemForm.enqueue hx i false).cur _)
  | stall s => exact MemForm.next (MemForm.enqueue hx i false)

theorem MemForm.runV (h : MemForm s) {i : Instr} {n : Option Nat} {body : State → Res} (hb : (body s).Form) :
    FormNext (runV i n body s) := by
  unfold Machine.runV
  split
  · split
    · exact (h.precise _ _ _).retire
    · exact hb.retireV i _
  · rw [← apply_ite (retireV i s.cur.unf)]
    exact Res.Form.retireV (.ite h.ok hb) i _

/-- A vector-queue instruction under conditions. -/
theorem MemForm.runChecked (h : MemForm s) {i : Instr} {n : Option Nat} {conds : State → List (Bool × Nat × Nat)} {body : State → Res}
    (hb : (body s).Form) : FormNext (Machine.runV i n (fun s => Machine.checked (conds s) body s) s) := h.runV (h.checked hb)

/-! ### Scalar accesses -/

theorem MemForm.scalarAccess (h : MemForm s) {va n : Nat} {w : Want} {body : Phys → State → Res}
    (hb : ∀ q t, MemForm t → (body q t).Form) : (scalarAccess s va n w body).Form := by
  unfold Machine.scalarAccess
  split
  · exact h
  · split
    · exact h.stop _ _
    · exact hb _ _ (h.settleFor _ _)

theorem MemForm.scalarRead (h : MemForm s) {p : Phys} {n : Nat} {body : Nat → Res} (hb : ∀ v, (body v).Form) :
    (scalarRead s p n body).Form := by
  unfold Machine.scalarRead
  split
  · exact h.stop _ _
  · exact hb _

theorem execLd_form (p : L) (h : MemForm s) : FormNext (execLd p s) :=
  Res.Form.retire (h.scalarAccess fun _ _ ht => ht.scalarRead fun _ => (ht.scalarReadDone _).setD _ _)

theorem execSt_form (p : S) (h : MemForm s) : FormNext (execSt p s) :=
  Res.Form.retire (h.scalarAccess fun _ _ ht => ht.writePhys _ _ _ _ _)

theorem execPref_form (p : S) (h : MemForm s) : FormNext (execPref p s) := by
  refine Res.Form.retire (x := .ok _) (?_ : MemForm _)
  unfold State.prefetch
  split
  · exact h
  · rename_i q _
    have hl1 {l2only : Bool} : MemForm (if l2only then fillCopy s (q.spot.loc / 128)
        else (fillCopy s (q.spot.loc / 128)).readL1 s.cur.mod s.cur.seat.core q.spot.loc) := .ite (h.fillCopy _) ((h.fillCopy _).readL1 _ _ _)
    exact .ite h (.ite (hl1.mem (memStep_dropL1 _ _)) hl1)

theorem execAmo_form (p : R3) (h : MemForm s) : FormNext (execAmo p s) := by
  refine Res.Form.retire (h.scalarAccess fun q t ht => ht.scalarRead fun v => MemForm.setD ?_ _ _)
  split
  · exact ht.putScalar _ _
  · split
    · exact (ht.fillCopy _).readL1 _ _ _
    · exact ht

theorem execLr_form (p : R1) (h : MemForm s) : FormNext (execLr p s) :=
  Res.Form.retire (h.scalarAccess fun _ _ ht => ht.scalarRead fun _ => MemForm.setD (by exact ht.scalarReadDone _) _ _)

theorem execSc_form (p : R2) (h : MemForm s) : FormNext (execSc p s) := by
  have hfail (t : State) (ht : MemForm t) : Res.Form (({ t with cur := { t.cur with resv := none } } : State).setD p.d 1) :=
    MemForm.setD (by exact ht) _ _
  refine Res.Form.retire ?_
  split
  · exact .ite (h.precise _ _ _) (hfail s h)
  · refine h.scalarAccess fun q t ht => ?_
    split
    · exact ht
    · split
      · exact MemForm.setD (by exact ht.putScalar _ _) _ _
      · exact hfail t ht

/-! ### Masks, elements and whole registers -/

theorem MemForm.writeQ (h : MemForm s) (q : Fin 8) (els : List (Nat × Bool)) : MemForm (s.writeQ q els) := h

theorem MemForm.stopAt (h : MemForm s) (k : Nat) : MemForm (s.stopAt k) := h

theorem Res.Form.stepElems {els : List Nat} {words : Nat → List SramWord} {perform : List Nat → State}
    (hp : ∀ l, MemForm (perform l)) : (s.stepElems els words perform).Form := by
  unfold State.stepElems
  split
  · exact hp _
  · exact (hp _).stopAt _

theorem MemForm.readAll (h : MemForm s) {els : List Nat} {words : Nat → List SramWord} {body : State → Res} (hb : (body s).Form) :
    (s.readAll els words body).Form := by
  unfold State.readAll
  split
  · exact hb
  · exact h

theorem MemForm.elementwise (h : MemForm s) (m : Mk) (regs : List Nat) (d : BitVec 6) (f : Nat → Nat × Flags) :
    (s.elementwise m regs d f).Form := .stepElems fun _ => (h.raise _).writeVec _ _

theorem MemForm.setFirst (h : MemForm s) (d : BitVec 6) (x : Nat × Flags) : (s.setFirst d x).Form := .ite h ((h.raise _).writeVec _ _)

theorem execVcmp_form (p : R2) (h : MemForm s) : FormNext (execVcmp p s) :=
  h.runChecked (.stepElems fun _ => (h.raise _).writeQ _ _)

theorem maskOp_form (i : Instr) (p : Q) (two : Bool) (f : Bool → Bool → Bool) (h : MemForm s) : FormNext (maskOp i p two f s) :=
  h.runChecked (.stepElems fun _ => h.writeQ _ _)

theorem maskCount_form (i : Instr) (p : Q) (f : List Nat → Word) (h : MemForm s) :
    FormNext (maskCount i p f s) := h.runChecked (h.readAll (h.setD _ _))

theorem execQnot_form (p : Q) (h : MemForm s) : FormNext (execQnot p s) := maskOp_form _ _ _ _ h
theorem execQpop_form (p : Q) (h : MemForm s) : FormNext (execQpop p s) := maskCount_form _ _ _ h
theorem execQfirst_form (p : Q) (h : MemForm s) : FormNext (execQfirst p s) := maskCount_form _ _ _ h

theorem execVsel_form (p : R2) (h : MemForm s) : FormNext (execVsel p s) := h.runChecked (.stepElems fun _ => h.writeVec _ _)
theorem execViota_form (p : R2) (h : MemForm s) : FormNext (execViota p s) := h.runChecked (h.elementwise _ _ _ _)
theorem execVredo_form (p : R2) (h : MemForm s) : FormNext (execVredo p s) := h.runChecked (h.readAll (h.setFirst _ _))

theorem execVred_form (p : R2) (h : MemForm s) : FormNext (execVred p s) := by
  refine h.runChecked (h.readAll ?_)
  simp only
  split
  · exact h.draw.setFirst _ _
  · exact h.setFirst _ _

theorem execVscan_form (p : R2) (h : MemForm s) : FormNext (execVscan p s) :=
  h.runChecked (h.readAll ((h.raise _).writeVec _ _ : MemForm _))

theorem permute_form (i : Instr) (p : R2) (regs : List Nat) (k : State → Nat → Option Nat) (h : MemForm s) :
    FormNext (permute i p regs k s) := h.runChecked (.stepElems fun _ => h.writeVec _ _)

theorem execVcompress_form (p : R2) (h : MemForm s) : FormNext (execVcompress p s) :=
  h.runChecked (.stepElems fun _ => h.writeVec _ _)

theorem execVexpand_form (p : R2) (h : MemForm s) : FormNext (execVexpand p s) :=
  h.runChecked (.stepElems fun _ => h.writeVec _ _)

theorem execVbcast_form (p : R2) (h : MemForm s) : FormNext (execVbcast p s) := by
  unfold execVbcast
  split
  · exact permute_form _ _ _ _ h
  · exact h.runChecked (h.elementwise _ _ _ _)

theorem execVext_form (p : R2) (h : MemForm s) : FormNext (execVext p s) := by
  refine h.runChecked ?_
  simp only
  split
  · exact h.readAll (h.setD _ _)
  · exact h.setD _ _

theorem execVins_form (p : R2) (h : MemForm s) : FormNext (execVins p s) := by
  refine h.runChecked ?_
  simp only
  split
  · exact h.writeVec _ _
  · exact h

theorem execVdupm_form (p : R2) (h : MemForm s) : FormNext (execVdupm p s) :=
  h.runChecked (h.readAll (h.writeVec _ _ : MemForm _))

theorem addCounts_form {base : Nat} {cs : List (Nat × Nat)} (h : MemForm s) (ht : addCounts s base cs = .ok t) : MemForm t := by
  unfold addCounts at ht
  simp only at ht
  split at ht
  · cases ht
  · split at ht
    · cases ht
    · cases ht
      exact (h.settleRuns _ _).foldl (fun _ _ hu => hu.putPhys _ _ _) _

theorem execVsortk_form (p : R3) (h : MemForm s) : FormNext (execVsortk p s) := by
  refine h.runV (h.checkedAt (h.readAll ?_))
  simp only
  split
  · exact h.stop _ _
  · exact (addCounts_form h (by assumption)).writeVec _ _

theorem execVtopk_form (p : R3) (h : MemForm s) : FormNext (execVtopk p s) :=
  h.runV (h.checked (h.readAll (h.writeVec _ _ : MemForm _)))

/-! ### Vector loads and stores -/

theorem MemForm.keepSpans (h : MemForm s) (spans : List (Nat × Nat)) : MemForm (s.keepSpans spans) := by
  unfold State.keepSpans
  split
  · exact h
  · exact h

theorem MemForm.keepImages (h : MemForm s) (vas : List Nat) : MemForm (s.keepImages vas) := h.keepSpans _

theorem MemForm.loadElems (h : MemForm s) (d : BitVec 6) (els : List Nat) (addr : Nat → List Nat) (get : Nat → Except Stop Got) :
    (s.loadElems d els addr get).Form := by
  have hw {fl ws} : MemForm (((Machine.countReads s ((loadLoop get els).1.flatMap (fun x => x.2.2.2))).raise fl).writeVec (vd d) ws) :=
    ((h.countReads _).raise _).writeVec _ _
  unfold State.loadElems
  simp only
  split
  · exact hw
  · exact ((hw.keepImages _).stopAt _).stop _ _

theorem MemForm.putAll (h : MemForm s) (n : Nat) (ps : List Put) : MemForm (s.putAll n ps) :=
  h.foldl (fun _ _ hu => hu.writePhys _ _ _ _ _) _

theorem MemForm.storeElems (h : MemForm s) (n : Nat) (els : List Nat) (make : Nat → Except Stop (List Put × Flags)) :
    (s.storeElems n els make).Form := by
  have hw {fl qs ps} : MemForm (((s.raise fl).settleRuns true qs).putAll n ps) := ((h.raise _).settleRuns _ _).putAll _ _
  unfold State.storeElems
  simp only
  split
  · exact hw
  · exact ((hw.keepImages _).stopAt _).stop _ _

theorem loadAt_form (p : M) (words : Nat → List SramWord) (addr : Nat → Nat) (h : MemForm s) : (loadAt s p words addr).Form :=
  h.loadElems _ _ _ _

theorem storeAt_form (p : M) (words : Nat → List SramWord) (addr : Nat → Nat) (h : MemForm s) : (storeAt s p words addr).Form :=
  h.storeElems _ _ _

theorem execVld_form (p : M) (h : MemForm s) : FormNext (execVld p s) := by
  refine h.runV (h.checkedAt ?_)
  split
  · exact h.loadElems _ _ _ _
  · exact loadAt_form _ _ _ h

theorem execVst_form (p : M) (h : MemForm s) : FormNext (execVst p s) := by
  refine h.runV (h.checkedAt ?_)
  split
  · exact h.storeElems _ _ _
  · exact storeAt_form _ _ _ h

theorem execVlds_form (p : M) (h : MemForm s) : FormNext (execVlds p s) := h.runChecked (loadAt_form _ _ _ h)
theorem execVsts_form (p : M) (h : MemForm s) : FormNext (execVsts p s) := h.runChecked (storeAt_form _ _ _ h)
theorem execVldx_form (p : M) (h : MemForm s) : FormNext (execVldx p s) := h.runChecked (loadAt_form _ _ _ h)
theorem execVstx_form (p : M) (h : MemForm s) : FormNext (execVstx p s) := h.runChecked (storeAt_form _ _ _ h)

theorem execVldt_form (p : M) (h : MemForm s) : FormNext (execVldt p s) := by
  refine h.runChecked ?_
  split
  · exact h
  · exact h.loadElems _ _ _ _

theorem execVstt_form (p : M) (h : MemForm s) : FormNext (execVstt p s) := by
  refine h.runChecked ?_
  split
  · exact h
  · exact h.storeElems _ _ _

theorem amoLoop_form (p : M) (orig : State) (els : List (Nat × Phys)) : ∀ {s : State}, MemForm s → (amoLoop p orig els s).Form := by
  induction els with
  | nil => exact fun h => h
  | cons e els ih =>
    intro s h
    unfold amoLoop
    simp only
    split
    · exact (h.stopAt _).stop _ _
    · split
      · exact h.stopAt _
      · refine ih ?_
        split
        · exact (h.settleFor _ _).putPhys _ _ _
        · exact ((h.settleFor _ _).putPhys _ _ _).writeVec _ _

theorem execVamo_form (p : M) (h : MemForm s) : FormNext (execVamo p s) := by
  refine h.runV (h.checked ?_)
  split
  · exact h.stop _ _
  · exact (amoLoop_form p s _ h).onStop fun _ hu => hu.keepImages _

theorem execVpref_form (p : M) (h : MemForm s) : FormNext (execVpref p s) := by
  refine h.runV (MemForm.foldl (fun u va hu => ?_) _ h : MemForm _)
  unfold State.prefNear
  split
  · split
    · exact hu
    · exact hu.fillCopy _
  · exact hu

/-! ### Vector arithmetic -/

theorem float2V_form (i : Instr) (p : R2) (f : FT → Nat → Nat → Nat → Nat × Flags) (h : MemForm s) : FormNext (float2V i p f s) :=
  h.runChecked (h.elementwise _ _ _ _)

theorem float1V_form (i : Instr) (p : R2) (f : FT → Nat → Nat → Nat × Flags) (h : MemForm s) : FormNext (float1V i p f s) :=
  h.runChecked (h.elementwise _ _ _ _)

theorem float3V_form (i : Instr) (p : R3) (f : FT → Nat → Nat → Nat → Nat → Nat × Flags) (h : MemForm s) :
    FormNext (float3V i p f s) := h.runChecked (h.elementwise _ _ _ _)

theorem int2V_form (i : Instr) (p : R2) (f : Nat → Nat → Nat → Nat → Nat) (h : MemForm s) : FormNext (int2V i p f s) :=
  h.runChecked (h.elementwise _ _ _ _)

theorem execVclass_form (p : R2) (h : MemForm s) : FormNext (execVclass p s) := h.runChecked (h.elementwise _ _ _ _)

theorem MemForm.coverVec (h : MemForm s) (r w : Nat) (els : List Nat) : MemForm (s.coverVec r w els) := .ite h h

theorem MemForm.writeGroupV (h : MemForm s) (d : Fin 64) (rho : Nat) (els : List (Nat × Nat)) : MemForm (s.writeGroupV d rho els) :=
  MemForm.cur (h.foldl (fun _ _ hu => hu.coverVec _ _ _) _) _

theorem execVcvt_form (p : R3) (h : MemForm s) : FormNext (execVcvt p s) :=
  h.runChecked (.stepElems fun _ => (h.raise _).writeGroupV _ _ _)

end Sys2Proof.Machine
end

section
/-! PROOFS. The form of memory and of the far banks in the far vector forms (R74, R265, R266). -/

namespace Sys2Proof.Machine

variable {s t : State}

/-! ### Far registers and far memory -/

/-- What a far form does in its stack keeps memory and the far banks in form. -/
def FarOp.Form (op : FarOp) : Prop := ∀ (s : State) (home : Nat), MemForm s → MemForm (op.run s home).s

theorem MemForm.writeFar (home d w : Nat) (els : List (Nat × Nat)) : ∀ {s : State}, MemForm s → MemForm (s.writeFar home d w els) := by
  induction els with
  | nil => exact fun h => h
  | cons e els ih => exact fun h => ih (h.setFarElem _ _ _ _ _)

theorem MemForm.putFar (h : MemForm s) (home d w : Nat) (els : List (Nat × Nat)) : MemForm (s.putFar home d w els) := by
  unfold State.putFar
  exact MemForm.writeFar _ _ _ _ (.ite h (by exact h))

theorem MemForm.putAllFar (h : MemForm s) (n : Nat) (ps : List Put) : MemForm (s.putAllFar n ps) :=
  h.foldl (fun _ _ hu => hu.storeFar _ _ _) _

theorem MemForm.farDone (h : MemForm s) (op : FarOp) (f : Flags) (data : List (Nat × Nat)) : MemForm (s.farDone op f data) := by
  unfold State.farDone
  split
  · exact (h.raise f).writeVec _ _
  · exact h.raise f

theorem MemForm.farFinish (h : MemForm s) (op : FarOp) (f : Flags) (data : List (Nat × Nat)) (stop : Option (Nat × Stop)) :
    (s.farFinish op f data stop).Form := by
  have hd : MemForm (s.farDone op f data).noRequest := (h.farDone op f data).cur _
  unfold State.farFinish
  simp only
  split
  · exact hd
  · exact (hd.stopAt _).stop _ _

/-! ### Running a far form -/

theorem farBody_form {op : FarOp} (hop : op.Form) (h : MemForm s) : (farBody op s).Form := by
  unfold farBody
  split
  · exact h
  · exact h.farFinish _ _ _ _
  · refine h.checkedAt ?_
    split
    · exact h.stop _ _
    · rename_i home _
      split
      · exact .ite h.ok ((hop _ home h).farFinish _ _ _ _)
      · split
        · exact h
        · exact h

/-! ### The forms -/

theorem FarOut.form_ite {a b : FarOut} {c : Prop} [Decidable c] (ha : MemForm a.s) (hb : MemForm b.s) : MemForm (if c then a else b).s := by
  rw [apply_ite FarOut.s]
  exact .ite ha hb

theorem FarOut.form_keeping {o : FarOut} (h : MemForm o.s) (spans : Nat → List (Nat × Nat)) : MemForm (o.keeping spans).s := by
  unfold FarOut.keeping
  split
  · exact form_ite h (h.keepSpans _)
  · exact h

theorem MemForm.farMap (h : MemForm s) (home : Nat) (words : Nat → List SramWord) (d wd : Nat) (f : Nat → Nat × Flags) :
    MemForm (s.farMap home words d wd f).s := h.putFar _ _ _ _

theorem farMapOp_form (p : R3) (xs : List S10) (ty : State → Bool) (f : State → Nat → Nat → Nat × Flags) : (farMapOp p xs ty f).Form :=
  fun _ _ h => h.farMap _ _ _ _ _

theorem farCvt_form (p : R3) : (farCvt p).Form := fun _ _ h => h.farMap _ _ _ _ _
theorem farVbcast_form (p : R3) : (farVbcast p).Form := fun _ _ h => h.farMap _ _ _ _ _
theorem farExpr_form (p : R3) : (farExpr p).Form := fun _ _ h => h.farMap _ _ _ _ _
theorem farGet_form (p : R3) : (farGet p).Form := fun _ _ h => h
theorem farPut_form (p : R3) : (farPut p).Form := fun _ _ h => h.putFar _ _ _ _

theorem farReduce_form (p : R3) (f : State → Nat → List Nat → Nat × Flags) : (farReduce p f).Form := fun _ _ h => by
  unfold farReduce
  simp only
  split
  · exact h
  · split
    · exact h
    · exact h.draw.putFar _ _ _ _

theorem MemForm.farElems (h : MemForm s) {home w : Nat} {k : Want} {addr : Nat → Nat} {perform : List (Nat × Phys) → FarOut}
    (hp : ∀ els, MemForm (perform els).s) : MemForm (s.farElems home w k addr perform).s := by
  unfold State.farElems
  split
  · exact h
  · split
    · exact h
    · exact FarOut.form_keeping (by exact hp _) _

theorem MemForm.farLoads (h : MemForm s) (home : Nat) (p : M) (words : Nat → List SramWord) (els : List (Nat × Phys)) :
    MemForm (s.farLoads home p words els).s := (h.countFarReads _).putFar _ _ _ _

theorem MemForm.farStores (h : MemForm s) (home : Nat) (p : M) (words : Nat → List SramWord) (els : List (Nat × Phys)) :
    MemForm (s.farStores home p words els).s := h.putAllFar _ _

theorem MemForm.farKb (h : MemForm s) {home : Nat} {p : M} {store : Bool} {body : FarOut} (hb : MemForm body.s) :
    MemForm (s.farKb home p store body).s := by
  unfold State.farKb
  simp only
  split
  · exact h
  · exact hb

theorem MemForm.farKbLoad (h : MemForm s) (home : Nat) (p : M) : MemForm (s.farKbLoad home p).s := by
  unfold State.farKbLoad
  simp only
  split
  · exact h
  · exact FarOut.form_keeping (by exact (h.countFarReads _).putFar _ _ _ _) _

theorem MemForm.farKbStore (h : MemForm s) (home : Nat) (p : M) : MemForm (s.farKbStore home p).s := by
  unfold State.farKbStore
  simp only
  split
  · exact h
  · exact FarOut.form_keeping (by exact h.putAllFar _ _) _

theorem farVld_form (p : M) : (farVld p).Form := fun _ _ h => by
  unfold farVld
  simp only
  split
  · exact h.farKb (h.farKbLoad _ p)
  · exact h.farElems fun _ => h.farLoads _ _ _ _

theorem farVst_form (p : M) : (farVst p).Form := fun _ _ h => by
  unfold farVst
  simp only
  split
  · exact h.farKb (h.farKbStore _ p)
  · exact h.farElems fun _ => h.farStores _ _ _ _

theorem farVlds_form (p : M) : (farVlds p).Form := fun _ _ h => h.farElems fun _ => h.farLoads _ _ _ _
theorem farVsts_form (p : M) : (farVsts p).Form := fun _ _ h => h.farElems fun _ => h.farStores _ _ _ _
theorem farVldx_form (p : M) : (farVldx p).Form := fun _ _ h => h.farElems fun _ => h.farLoads _ _ _ _
theorem farVstx_form (p : M) : (farVstx p).Form := fun _ _ h => h.farElems fun _ => h.farStores _ _ _ _

theorem farAmoLoop_form (p : M) (home : Nat) (orig : State) (els : List (Nat × Phys)) :
    ∀ {s : State}, MemForm s → MemForm (farAmoLoop p home orig els s).s := by
  induction els with
  | nil => exact fun h => h
  | cons e els ih =>
    intro s h
    have hrecall : MemForm (recallLine s (e.2.spot.loc / 128)) := h.mem (memStep_recallLine _ _)
    unfold farAmoLoop
    simp only
    refine FarOut.form_ite h ?_
    split
    · exact hrecall
    · exact ih (.ite (hrecall.storeFar _ _ _) ((hrecall.storeFar _ _ _).putFar _ _ _ _))

theorem farVamo_form (p : M) : (farVamo p).Form := fun _ home h => h.farElems fun els => farAmoLoop_form p home _ els h

theorem dotLoop_form (p : M) (home : Nat) (q : List FV) (rows : List Nat) :
    ∀ {s : State} {f : Flags}, MemForm s → MemForm (dotLoop p home q rows s f).s := by
  induction rows with
  | nil => exact fun h => h
  | cons k rows ih =>
    intro s f h
    unfold dotLoop
    simp only
    split
    · exact h
    · exact FarOut.form_ite h (ih ((h.countFarReads _).putFar _ _ _ _))

theorem farDot_form (p : M) : (farDot p).Form := fun _ home h => by
  unfold farDot
  simp only
  split
  · exact h
  · exact FarOut.form_keeping (dotLoop_form p home _ _ h) _

theorem redLoop_form (p : M) (home n fuel : Nat) :
    ∀ {k : Nat} {s : State} {acc : List Nat} {f : Flags}, MemForm s → MemForm (redLoop p home n fuel k s acc f).s := by
  induction fuel with
  | zero => exact fun h => h
  | succ fuel ih =>
    intro k s acc f h
    unfold redLoop
    simp only
    split
    · exact h.putFar _ _ _ _
    · split
      · exact (h.countFarReads _).putFar _ _ _ _
      · exact ih (h.countFarReads _)

theorem farRed_form (p : M) : (farRed p).Form := fun _ home h => by
  unfold farRed
  simp only
  split
  · exact h
  · split
    · exact h
    · exact FarOut.form_keeping (redLoop_form p home _ _ h) _

theorem farAttn_form (p : M) : (farAttn p).Form := fun _ home h => by
  unfold farAttn
  simp only
  split
  · exact h
  · split
    · exact h
    · have hout {l2 l3 : Nat} {reqs : List Nat} {e2 e3 : List (Nat × Nat)} :
          MemForm (((countFarReads _ reqs).putFar home l2 32 e2).putFar home l3 32 e3) := ((h.countFarReads _).putFar _ _ _ _).putFar _ _ _ _
      exact .ite (hout.putFar _ _ _ _) hout

/-- Every far form keeps memory and the far banks in form. -/
theorem farOf_form {i : Instr} {op : FarOp} (h : farOf i = some op) : op.Form := by
  unfold farOf at h
  split at h <;> cases h
  exacts [farMapOp_form _ _ _ _, farMapOp_form _ _ _ _, farMapOp_form _ _ _ _, farMapOp_form _ _ _ _, farMapOp_form _ _ _ _,
    farMapOp_form _ _ _ _, farMapOp_form _ _ _ _, farMapOp_form _ _ _ _, farMapOp_form _ _ _ _, farMapOp_form _ _ _ _,
    farMapOp_form _ _ _ _, farMapOp_form _ _ _ _, farMapOp_form _ _ _ _, farMapOp_form _ _ _ _, farMapOp_form _ _ _ _,
    farMapOp_form _ _ _ _, farMapOp_form _ _ _ _, farMapOp_form _ _ _ _, farMapOp_form _ _ _ _, farMapOp_form _ _ _ _,
    farMapOp_form _ _ _ _, farMapOp_form _ _ _ _, farCvt_form _, farReduce_form _ _, farReduce_form _ _, farVbcast_form _, farVld_form _,
    farVst_form _, farVlds_form _, farVsts_form _, farVldx_form _, farVstx_form _, farVamo_form _, farExpr_form _, farDot_form _,
    farRed_form _, farGet_form _, farPut_form _, farAttn_form _]

theorem runFar_form {i : Instr} {op : FarOp} (h : MemForm s) (hi : farOf i = some op) : FormNext (runFar i op s) :=
  h.runV (farBody_form (farOf_form hi) h)

theorem execFVpref_form (p : M) (h : MemForm s) : FormNext (execFVpref p s) := by
  refine h.runV (?_ : MemForm _)
  split
  · refine MemForm.foldl (fun u va hu => ?_) _ h
    unfold State.prefFar
    split
    · exact .ite hu (hu.mem (memStep_fillFar _ _))
    · exact hu
  · exact h

end Sys2Proof.Machine
end

section
/-! PROOFS. The form of memory in control, system and configuration instructions. -/

namespace Sys2Proof.Machine

variable {s t : State}

/-! ### Faults at the fetch, the first issue and the end -/

theorem MemForm.noHead (h : MemForm s) : MemForm s.noHead := h
theorem MemForm.atHead (h : MemForm s) (x : Half) : MemForm (s.atHead x) := h

theorem MemForm.markFirst (h : MemForm s) : MemForm s.markFirst := by
  unfold State.markFirst
  split
  · exact h
  · exact .ite h (h.onShare _ _ _)

theorem MemForm.handlerOnly (h : MemForm s) {x : Res} (hx : x.Form) : (handlerOnly s x).Form := .ite hx (h.precise _ _ _)

theorem execEret_form (p : Head) (h : MemForm s) : FormNext (execEret p s) := by
  have hleft : MemForm { s with cur := s.cur.leaveHandler s.tick } := h
  refine Res.Form.retire (h.handlerOnly ?_)
  simp only
  refine .ite (h.precise _ _ _) (.ite (.ite ?_ hleft.ok) (.ite hleft.ok (h.precise _ _ _)))
  have hjump := hleft.jumpTo 0
  split
  · rename_i hu
    rw [hu] at hjump
    exact hjump
  · exact h
  · exact hjump

/-! ### State registers -/

theorem execSrr_form (p : L) (h : MemForm s) : FormNext (execSrr p s) := by
  refine Res.Form.retire ?_
  split
  · exact h
  · exact .ite (h.precise _ _ _) (h.setD _ _)

theorem MemForm.claim (h : MemForm s) (v : Word) : MemForm (s.claim v) := by
  unfold State.claim
  simp only
  split
  · exact h
  · exact h

/-- State registers written. -/
theorem MemForm.written (h : MemForm s) (ns : List Nat) (x : Hart) : MemForm { s.coverSr ns with cur := x } :=
  h.coverSr ns

theorem execSrw_form (p : L) (h : MemForm s) : FormNext (execSrw p s) := by
  have hclaim : MemForm ((s.claim (s.src p.a)).coverSr [p.imm.toNat % 4096]) := (h.claim _).coverSr _
  refine Res.Form.retire ?_
  split
  · exact h
  · simp only
    refine .ite (.ite hclaim.ok (h.afterQueue hclaim.ok)) (.ite (by exact h) (.ite h.ok (.ite ?_ (.ite ?_ h.ok))))
    · refine .ite (h.precise _ _ _) (.ite h (h.afterQueue (h.afterStores ?_)))
      exact h.settle.written _ _
    · exact h.written _ _

/-! ### Waiting, ordering and saving -/

theorem execPause_form (p : R1) (h : MemForm s) : FormNext (execPause p s) :=
  Res.Form.retire (.ite h.ok (by exact h))

theorem execWfev_form (p : Head) (h : MemForm s) : FormNext (execWfev p s) :=
  Res.Form.retire (.ite (by exact h) (by exact h))

theorem MemForm.coverYield (h : MemForm s) (n : Nat) : MemForm (s.coverYield n) := .ite h (by exact h)

theorem MemForm.yield (h : MemForm s) (n : Nat) : MemForm (s.yield n) := (h.coverYield n).stow.cur _

theorem execYield_form (p : R1) (h : MemForm s) : FormNext (execYield p s) := by
  refine Res.Form.retire (.ite (h.precise _ _ _) (h.afterQueue ?_))
  split
  · exact h
  · exact h.afterStores (h.settle.yield _)

theorem execFenceSv_form (p : R1) (h : MemForm s) : FormNext (execFenceSv p s) := by
  have ht (a b c d : Bool) : MemForm (if c || d then (if a || b then s.settleOn false else s).settleOn true
      else if a || b then s.settleOn false else s) :=
    .ite (MemForm.settleOn (.ite (h.settleOn _) h) _) (.ite (h.settleOn _) h)
  have hx (o : Option Msg) (x : State) (hx : MemForm x) : Res.Form (match o with
      | some (.store i va v f o rd a bs) => .held ((s.storeHolder s.cur.mod (.store i va v f o rd a bs)).getD .frame) va s
      | _ => .ok x) := by
    split
    · exact h
    · exact hx
  exact Res.Form.retire (.ite (h.afterQueue (hx _ _ (ht _ _ _ _))) (hx _ _ (ht _ _ _ _)))

theorem MemForm.fenceStack (h : MemForm s) (va : Nat) : (fenceStack s va).Form := by
  refine h.afterStores ?_
  split
  · exact h
  · exact h.settle.writeBack _
  · split
    · exact h.settle.writeBack _
    · exact h.settle.writeBack _

theorem execFenceStk_form (p : R1) (h : MemForm s) : FormNext (execFenceStk p s) := Res.Form.retire (h.afterQueue (h.fenceStack _))

theorem scopeOrder_form (p : R1) (h : MemForm s) : (scopeOrder p s).Form := by
  unfold scopeOrder
  split
  · exact h.afterStores (h.settle.writeBack _)
  · exact h.fenceStack _
  · exact h.afterStores (h.settle.writeBack _)
  · split
    · exact h
    · exact h.afterStores (h.acknowledged.writeBack _)
  · exact h.afterStores h.settle

theorem execRel_form (p : R1) (h : MemForm s) : FormNext (execRel p s) := Res.Form.retire (h.afterQueue (scopeOrder_form p h))

theorem execAcq_form (p : R1) (h : MemForm s) : FormNext (execAcq p s) :=
  Res.Form.retire (h.afterQueue (.ite h.ok (scopeOrder_form p h)))

/-! ### Opaque frames -/

theorem MemForm.frameAccess (h : MemForm s) {va n : Nat} {w : Want} {body : List (Phys × Nat) → Res} (hb : ∀ ps, (body ps).Form) :
    (frameAccess s va n w body).Form := by
  refine .ite (h.precise _ _ _) ?_
  split
  · exact h.stop _ _
  · exact .ite (h.precise _ _ _) (hb _)

theorem execVsave_form (p : R1) (h : MemForm s) : FormNext (execVsave p s) := by
  refine Res.Form.retire (h.handlerOnly (h.frameAccess fun ps => (?_ : MemForm _)))
  exact (MemForm.writeRuns true ps _ _ (h.draw.settleRuns true ps)).spoilRuns ps _

theorem MemForm.behindQueue (h : MemForm s) {x : Res} (hx : x.Form) (c : Prop) [Decidable c] :
    ((if c then id else Machine.afterQueue s) x).Form := by
  split
  · exact hx
  · exact h.afterQueue hx

theorem execVrstr_form (p : R1) (h : MemForm s) : FormNext (execVrstr p s) := by
  refine Res.Form.retire (h.handlerOnly (h.behindQueue (h.frameAccess fun ps => ?_) _))
  split
  · exact h.stop _ _
  · refine .ite (h.precise _ _ _) (h.frameAccess fun qs => ?_)
    simp only
    split
    · exact h.stop _ _
    · refine .ite (h.precise _ _ _) ?_
      split
      · exact h
      · exact h.settleRuns true qs

/-! ### The freeze -/

theorem MemForm.freezeModule (h : MemForm s) (m : Nat) (source : BitVec 3) : MemForm (freezeModule s m source) := h.onMod _ _

theorem execFrz_form (p : Head) (h : MemForm s) : FormNext (execFrz p s) := by
  unfold execFrz
  split
  · exact (h.freezeModule _ _).next
  · exact (h.precise _ _ _).retire

/-! ### The vector configuration -/

theorem MemForm.cleanVec (h : MemForm s) : MemForm s.cleanVec := h

theorem execVcfg_form (p : R1) (h : MemForm s) : FormNext (execVcfg p s) := by
  refine h.runV ?_
  split
  · exact h
  · rename_i c _
    have hclean : MemForm (if c = s.cur.cfg.nregc.toNat then s else s.cleanVec) := .ite h h.cleanVec
    exact MemForm.setD ((hclean.draw.coverSr _).cur _) _ _

theorem MemForm.regrant (h : MemForm s) (lanes : List Nat) : MemForm (s.regrant lanes) := h.same rfl rfl rfl rfl

theorem MemForm.rebalance (h : MemForm s) : MemForm s.rebalance := by
  unfold State.rebalance
  split
  · exact .ite h (.ite (h.regrant _) (.ite (h.regrant _) h))
  · exact h

theorem MemForm.setVl (h : MemForm s) (d : BitVec 6) (n : Nat) (cover : List Nat) : (s.setVl d n cover).Form :=
  (h.written _ _).setD _ _

theorem vsetlBody_form (p : R1) (h : MemForm s) : (vsetlBody p s).Form := by
  refine .ite (by exact h) (.ite (h.setVl _ _ _) ?_)
  have hb := h.rebalance
  refine .ite (.ite ?_ (.ite (hb.setVl _ _ _) (by exact hb))) (hb.setVl _ _ _)
  exact MemForm.setVl (by exact hb) _ _ _

theorem execVsetl_form (p : R1) (h : MemForm s) : FormNext (execVsetl p s) :=
  h.runV (h.checked (vsetlBody_form p (.ite (by exact h) h)))

theorem execVqlen_form (p : R1) (h : MemForm s) : FormNext (execVqlen p s) := h.runChecked (h.setD _ _)

theorem MemForm.bind (h : MemForm s) (b : Stream) : (s.bind b).Form :=
  h.written _ _

theorem execVbind_form (p : R2) (h : MemForm s) : FormNext (execVbind p s) := h.runV (h.checked (.ite (h.bind _) (h.bind _)))
theorem execVbindOff_form (p : R2) (h : MemForm s) : FormNext (execVbindOff p s) := h.runChecked (h.bind _)

/-! ### VSPILL and VFILL -/

theorem execVspill_form (p : L) (h : MemForm s) : FormNext (execVspill p s) := by
  refine h.runV (h.checkedAt ?_)
  split
  · exact h.stop _ _
  · exact (MemForm.writeRuns true _ _ _ (h.settleRuns true _)).spoilRuns _ _

theorem execVfill_form (p : L) (h : MemForm s) : FormNext (execVfill p s) := by
  refine h.runV (h.checkedAt ?_)
  split
  · exact h.stop _ _
  · split
    · exact h.stop _ _
    · refine .ite (h.imprecise _ _ _) ?_
      split
      · exact h.stop _ _
      · split
        · exact h.stop _ _
        · exact ((h.settleRuns true _).coverSr _).countReads _

end Sys2Proof.Machine
end

section
/-! PROOFS. The form of memory in tile exchange and the task table. -/

namespace Sys2Proof.Machine

variable {s t : State}

/-! ### Tiles -/

theorem MemForm.bump (h : MemForm s) (l k : Nat) : MemForm (s.bump l k) := h.onShare l k _

theorem MemForm.fillTile (h : MemForm s) (x : TileRef) (data : Option Nat) (seq : Nat) : MemForm (s.fillTile x data seq) :=
  (MemForm.bump (by exact .ite h (by exact h)) _ _).onHarts _ _

theorem MemForm.emptyTile (h : MemForm s) (x : TileRef) : MemForm (s.emptyTile x) := MemForm.bump (by exact h) _ _

theorem serve_form {x : TileRef} (h : MemForm s) (ht : s.serve x = some t) : MemForm t := by
  unfold State.serve at ht
  split at ht
  · cases ht
  · split at ht
    · cases ht
    · cases ht
      have hgot := h.onHart (s := s) (by assumption : Hart).id (fun y => { y with got := some (s.tile x).data })
      exact .ite (hgot.emptyTile x) hgot

theorem MemForm.nodeDelivered (h : MemForm s) (m : Nat) (x : Send) : MemForm (s.nodeDelivered m x) := by
  unfold State.nodeDelivered
  split
  · exact h
  · exact h.onMod _ _

theorem MemForm.deliver (h : MemForm s) (m core k : Nat) (x : Send) : MemForm (s.deliver m core k x) :=
  ((h.onMod m _).fillTile _ _ _).nodeDelivered m x

theorem MemForm.granted (h : MemForm s) (m : Nat) (x : Send) : MemForm (s.granted m x) := by
  unfold State.granted
  split
  · exact h
  · exact .ite (h.onHart _ _) (by exact h)

theorem takeEntry_form {m core : Nat} (h : MemForm s) (ht : s.takeEntry m core = some t) : MemForm t := by
  unfold State.takeEntry at ht
  split at ht
  · cases ht
  · split at ht
    · cases ht
    · split at ht
      · cases ht
      · cases ht
        exact (h.onMod m _).granted m _

theorem coreStep_form {m core : Nat} (h : MemForm s) (ht : s.coreStep m core = some t) : MemForm t := by
  unfold State.coreStep at ht
  split at ht
  · rename_i hserve
    cases ht
    obtain ⟨x, _, hx⟩ := List.exists_of_findSome?_eq_some hserve
    split at hx
    · exact serve_form h hx
    · cases hx
  · split at ht
    · cases ht
    · split at ht
      · split at ht
        · cases ht
          exact h.deliver m core _ _
        · cases ht
      · exact takeEntry_form h ht

theorem MemForm.pumpFor (f m core : Nat) : ∀ {s : State}, MemForm s → MemForm (s.pumpFor f m core) := by
  induction f with
  | zero => exact fun h => h
  | succ f ih =>
    intro s h
    unfold State.pumpFor
    split
    · exact ih (coreStep_form h (by assumption))
    · exact h

theorem MemForm.pump (h : MemForm s) (m core : Nat) : MemForm (s.pump m core) := MemForm.pumpFor _ m core h

theorem MemForm.pumpAt (h : MemForm s) (x : TileRef) : MemForm (s.pumpAt x) := by
  unfold State.pumpAt
  split
  · exact h.pump _ _
  · exact h

/-! ### Sends -/

theorem MemForm.unsent (h : MemForm s) : MemForm s.unsent := h

theorem MemForm.unheld (h : MemForm s) (mark : Bool) (v : Word) : (Res.unheld mark v s).Form := .ite (by exact h) (by exact h)

theorem MemForm.ask (h : MemForm s) (v : Word) (m : Nat) (x : Send) : (s.ask v m x).Form := by
  have hasked : MemForm { s with cur := { s.cur with send := .asked } } := h
  have hpump {f : Module → Module} {y : TileRef} : MemForm (({ s with cur := { s.cur with send := .asked } } : State).onMod m f |>.pumpAt y) :=
    (hasked.onMod m f).pumpAt y
  exact .ite (.ite hpump.ok (hpump.unheld _ _)) (MemForm.unheld (by exact h) _ _)

theorem MemForm.sending (h : MemForm s) (mark : Bool) (v : Word) (m : Option Nat) {first : State → Res} (hf : (first s).Form) :
    (s.sending mark v m first).Form := by
  unfold State.sending
  split
  · exact h
  · exact h.unsent
  · exact .ite (by exact h.unsent) (h.unheld _ _)
  · exact hf

theorem MemForm.queuePut (h : MemForm s) (q : Nat) (v : Word) (data : Nat) : (s.queuePut q v data).Form := by
  unfold State.queuePut
  split
  · exact h
  · simp only
    split
    · exact h
    · exact h.fillTile _ _ _

theorem MemForm.sendRelease (h : MemForm s) {m : Nat} {v : Word} {body : State → Res} (hb : ∀ t, MemForm t → (body t).Form) :
    (s.sendRelease m v body).Form := by
  refine .ite (h.afterStores (hb _ h.settle)) ?_
  split
  · exact h
  · exact .ite (by exact h) (h.afterStores (hb _ (h.acknowledged.writeBack _)))

theorem tsendBody_form (p : R2) (h : MemForm s) : (tsendBody p s).Form := by
  refine h.sending _ _ _ (h.checkedAt ?_)
  split
  · exact h.queuePut _ _ _
  · refine h.sendRelease fun t ht => ?_
    split
    · exact ht.stop _ _
    · exact (ht.countReads _).queuePut _ _ _
  · refine h.sendRelease fun t ht => ?_
    split
    · exact ht.stop _ _
    · exact (ht.countReads _).ask _ _ _
  · exact h

theorem execTsend_form (p : R2) (h : MemForm s) : FormNext (execTsend p s) := h.runV (tsendBody_form p h)

theorem execTmark_form (p : R1) (h : MemForm s) : FormNext (execTmark p s) := by
  refine h.runV (h.sending _ _ _ (h.checked ?_))
  split
  · exact h.afterStores (h.settle.ask _ _ _)
  · exact h

/-! ### Gets -/

theorem MemForm.acquired (h : MemForm s) : MemForm s.acquired := .ite h (h.settle.writeBack _)

theorem MemForm.getBody (h : MemForm s) {k : Get} {v : Word} {body : Nat → State → Res} (hb : ∀ d t, MemForm t → (body d t).Form) :
    (s.getBody k v body).Form := by
  unfold State.getBody
  split
  · exact hb _ _ (MemForm.acquired (by exact h))
  · split
    · exact h
    · exact .ite (by exact h) (hb _ _ (MemForm.acquired (.ite ((h.emptyTile _).pumpAt _) h)))

theorem getVec_form (k : Get) (p : R2) (h : MemForm s) : (getVec k p s).Form :=
  h.checked (h.getBody fun _ _ ht => ht.writeVec _ _)

theorem getMem_form (k : Get) (p : R2) (h : MemForm s) : (getMem k p s).Form := by
  unfold getMem
  refine h.checkedAt ?_
  split
  · exact h.stop _ _
  · exact h.getBody fun _ _ ht => MemForm.writeRuns true _ _ _ (ht.settleRuns true _)

theorem execTwait_form (p : R1) (h : MemForm s) : FormNext (execTwait p s) := h.runV (h.checked (h.getBody fun _ _ ht => ht))

theorem execTdrop_form (p : R1) (h : MemForm s) : FormNext (execTdrop p s) := by
  refine h.runV (h.checked ?_)
  split
  · exact MemForm.ite ((h.emptyTile _).pumpAt _) h
  · exact h

/-! ### Messages to and from tiles -/

theorem MemForm.countStale (h : MemForm s) (m : Nat) (tile : Bool) : MemForm (countStale s m tile) := h.onMod m _

theorem execHoldEntryRequest_form (n : Nat) (h : MemForm s) : FormNext (execHoldEntryRequest n s) := by
  unfold execHoldEntryRequest
  split
  · split
    · exact (h.dropMsg n).next
    · split
      · exact h.next
      · split
        · exact (((h.dropMsg n).onMod _ _).pumpAt _).next
        · refine MemForm.next ?_
          have hstale := (h.dropMsg n).countStale (by assumption) true
          split
          · exact hstale
          · exact hstale
  · exact h.next

theorem execEntryGrant_form (n : Nat) (h : MemForm s) : FormNext (execEntryGrant n s) := by
  unfold execEntryGrant
  split
  · exact ((h.dropMsg n).onHart _ _).next
  · exact h.next

theorem execStaleRefusal_form (n : Nat) (h : MemForm s) : FormNext (execStaleRefusal n s) := by
  unfold execStaleRefusal
  split
  · split
    · exact (h.dropMsg n).next
    · split
      · exact (h.dropMsg n).next
      · exact ((h.dropMsg n).onHart _ _).next
  · exact h.next

/-! ### Nodes -/

theorem MemForm.onNode (h : MemForm s) (m i : Nat) (f : Node → Node) : MemForm (s.onNode m i f) := h.onMod m _

theorem MemForm.finishNode (h : MemForm s) (m i : Nat) (n : Node) : MemForm (s.finishNode m i n) :=
  ((h.onNode m i _).foldl (fun _ _ hu => hu.onNode _ _ _) n.succs).onHart _ _

theorem MemForm.createNode (h : MemForm s) (d : BitVec 6) (k : NodeKind) : (s.createNode d k).Form := by
  unfold State.createNode
  split
  · exact h.setD _ _
  · exact (h.onMod _ _).setD _ _

theorem execNodeCopy_form (p : R3) (h : MemForm s) : FormNext (execNodeCopy p s) :=
  h.runV (h.checked (h.readAll (h.createNode _ _)))

theorem execNodeCall_form (p : R3) (h : MemForm s) : FormNext (execNodeCall p s) :=
  h.runV (h.checked (h.createNode _ _))

theorem execNodeEdge_form (p : R2) (h : MemForm s) : FormNext (execNodeEdge p s) := by
  refine h.runV ?_
  unfold nodeEdgeBody
  simp only
  split
  · exact h
  · exact .ite (h.imprecise _ _ _) (h.setD _ _)
  · exact .ite (h.imprecise _ _ _) (((h.onNode _ _ _).onNode _ _ _).setD _ _)

theorem execNodeArm_form (p : R1) (h : MemForm s) : FormNext (execNodeArm p s) := by
  refine h.runV ?_
  unfold nodeArmBody
  split
  · exact h
  · exact h.afterStores (h.settle.onNode _ _ _)

theorem execNodeArmDone_form (p : R1) (h : MemForm s) : FormNext (execNodeArmDone p s) := by
  refine h.runV ?_
  unfold nodeArmDoneBody
  split
  · exact h
  · split
    · exact h
    · exact .ite (h.afterStores ((h.settle.writeBack _).finishNode _ _ _)) (h.imprecise _ _ _)

theorem execNodeWait_form (p : R1) (h : MemForm s) : FormNext (execNodeWait p s) :=
  h.runV (.ite (by exact h) (h.afterStores (h.settle.writeBack _)))

/-! ### Copy engines -/

theorem MemForm.engPut (h : MemForm s) (n : Nat) (p : Put) : MemForm (s.engPut n p) := .ite (h.storeFar _ _ _) (h.storeNear _ _)

theorem MemForm.engCount (h : MemForm s) (replay : Bool) (rs : List (Nat × Phys × Nat)) : MemForm (s.engCount replay rs) :=
  .ite h (h.foldl (fun _ _ hu => hu.mem (memStep_mscRead _ _)) _)

/-- A block that is copied, and one that stops. -/
theorem copyBlock_form {ranks : List Nat} {m : Nat} {n : Node} {j : CopyJob} {k : Nat} (h : MemForm s) :
    (∀ x, s.copyBlock ranks m n j k = .ok x → MemForm x.1) ∧ ∀ e, s.copyBlock ranks m n j k = .error e → MemForm e.2 := by
  unfold State.copyBlock
  split
  · exact ⟨fun _ e => (by cases e), fun _ e => by cases e; exact h⟩
  · split
    · exact ⟨fun _ e => (by cases e), fun _ e => by cases e; exact h⟩
    · have hcount {rs} := h.engCount n.replay rs
      simp only
      split
      · exact ⟨fun _ e => (by cases e; exact hcount), fun _ e => by cases e⟩
      · split
        · exact ⟨fun _ e => (by cases e), fun _ e => by cases e; exact hcount⟩
        · exact ⟨fun _ e => (by cases e; exact hcount.foldl (fun _ _ hu => hu.engPut _ _) _), fun _ e => by cases e⟩

theorem MemForm.faultNode (h : MemForm s) (m i : Nat) (n : Node) (c : Cause) (v : Word) : MemForm (s.faultNode m i n c v) :=
  (h.onNode m i _).draw.reportRec _ _ _

theorem MemForm.moveBlocks (m i : Nat) (j : CopyJob) (f : Nat) : ∀ {s : State}, MemForm s → MemForm (s.moveBlocks m i j f) := by
  induction f with
  | zero => exact fun h => h
  | succ f ih =>
    intro s h
    unfold State.moveBlocks
    split
    · exact h
    · refine .ite h ?_
      split
      · exact ((copyBlock_form h).2 _ (by assumption)).faultNode _ _ _ _ _
      · exact h
      · exact ih (((copyBlock_form h).1 _ (by assumption)).onNode _ _ _)

theorem execCopyNodeStart_form (m i : Nat) (h : MemForm s) : FormNext (execCopyNodeStart m i s) := by
  unfold execCopyNodeStart
  split
  · exact h.next
  · split
    · exact h.next
    · split_ifs
      · exact h.next
      · exact (MemForm.moveBlocks m i _ 1 h).next
      · exact (h.onNode m i _).next
      · exact h.next

theorem execCopyNodeFinish_form (m i : Nat) (h : MemForm s) : FormNext (execCopyNodeFinish m i s) := by
  unfold execCopyNodeFinish
  split
  · exact h.next
  · rename_i n _
    split
    · exact h.next
    · rename_i j _
      have hmoved : MemForm (s.moveBlocks m i j (j.blocks - n.block)) := MemForm.moveBlocks m i j _ h
      simp only
      split
      · exact h.next
      · split
        · exact hmoved.next
        · split
          · exact hmoved.next
          · split
            · exact (hmoved.finishNode _ _ _).next
            · split
              · exact (hmoved.finishNode _ _ _).next
              · exact hmoved.next
              · split
                · have hasked {f g x} : MemForm (((s.moveBlocks m i j (j.blocks - n.block)).onNode m i f).onMod m g |>.pumpAt x) :=
                    ((hmoved.onNode m i f).onMod m g).pumpAt x
                  split
                  · exact (MemForm.ite (hasked.finishNode _ _ _) hasked).next
                  · exact hasked.next
                · exact hmoved.next

theorem execCallNodeDelivery_form (m i : Nat) (h : MemForm s) : FormNext (execCallNodeDelivery m i s) := by
  unfold execCallNodeDelivery
  split
  · exact h.next
  · split
    · exact h.next
    · split
      · exact h.next
      · split
        · exact (((h.onNode m i _).onMod m _).pumpAt _).next
        · exact h.next

/-! ### Publication, cells and barriers -/

theorem execPublish_form (p : R1) (h : MemForm s) : FormNext (execPublish p s) := by
  refine h.runV ?_
  unfold publishBody
  simp only
  split
  · exact h
  · exact .ite (.ite h h.ok) (.ite (by exact h) (.ite (by exact h) (by exact h)))

theorem MemForm.publishCell (h : MemForm s) (l k n v : Nat) (close : Bool) : MemForm (s.publishCell l k n v close) :=
  .ite ((h.onShare l k _).bump l k) (((h.onShare l k _).bump l k).onHarts _ _)

theorem execHwpub_form (p : R2) (h : MemForm s) : FormNext (execHwpub p s) :=
  h.runV (h.checked (h.afterStores (h.settle.publishCell _ _ _ _ _)))

theorem MemForm.arrive (h : MemForm s) (key : Nat) : MemForm (s.arrive key) := .ite h (MemForm.cur (h.bump _ _) _)

theorem execBar_form (p : R1) (h : MemForm s) : FormNext (execBar p s) := by
  refine h.runV ?_
  unfold barBody
  simp only
  exact h.checked (h.afterStores (.ite (h.settle.arrive _).ok (h.settle.arrive _)))

theorem MemForm.tellArrival (h : MemForm s) (ranks : List Nat) : MemForm (s.tellArrival ranks) := .ite h (by exact h.arrive domKey)

theorem MemForm.unarrive (h : MemForm s) : MemForm s.unarrive := h

theorem barDomBody_form (h : MemForm s) : (barDomBody s).Form := by
  refine .ite (by exact h.unarrive) ?_
  split
  · exact h.unarrive
  · have htold : MemForm ((if s.cur.atBar then s else writeBack s.acknowledged locHbm).tellArrival (s.ranksOf s.cur)) :=
      MemForm.tellArrival (.ite h (h.acknowledged.writeBack _)) _
    exact .ite (by exact h.unarrive) (h.afterStores (.ite (by exact htold) (by exact htold)))

theorem execBarDom_form (p : R1) (h : MemForm s) : FormNext (execBarDom p s) := h.runV (barDomBody_form h)

theorem execBarDomMessage_form (n : Nat) (h : MemForm s) : FormNext (execBarDomMessage n s) := by
  unfold execBarDomMessage
  split
  · split
    · exact h.next
    · split
      · exact MemForm.next ((h.dropMsg n).countStale _ false)
      · exact (((h.dropMsg n).onShare _ _ _).bump _ _).next
  · exact h.next

end Sys2Proof.Machine
end

section
/-! PROOFS. The form of memory in the key-value cache (R338 to R352). -/

namespace Sys2Proof.Machine

variable {s t : State}

/-! ### Computations on the cache -/

/-- A computation on the cache that completes keeps memory in form. -/
def KvForm {α : Type} (f : Kv α) : Prop := ∀ s a t, MemForm s → f s = .ok (a, t) → MemForm t

variable {α β : Type}

theorem KvForm.pure (a : α) : KvForm (pure a) := fun _ _ _ h e => by cases e; exact h

theorem KvForm.get : KvForm (get : Kv State) := fun _ _ _ h e => by cases e; exact h

theorem KvForm.error (e : Stop) : KvForm (α := α) (fun _ => Except.error e) := fun _ _ _ _ e => by cases e

theorem KvForm.bind {f : Kv α} {g : α → Kv β} (hf : KvForm f) (hg : ∀ a, KvForm (g a)) : KvForm (f >>= g) := fun s b u h e => by
  change (f s >>= fun x => g x.1 x.2) = .ok (b, u) at e
  cases hfs : f s with
  | error w =>
    rw [hfs] at e
    cases e
  | ok x =>
    rw [hfs] at e
    exact hg _ _ _ _ (hf s _ _ h hfs) e

theorem KvForm.ite {f g : Kv α} {c : Prop} [Decidable c] (hf : KvForm f) (hg : KvForm g) : KvForm (if c then f else g) := by
  split
  · exact hf
  · exact hg

theorem KvForm.forM {f : α → Kv PUnit} (hf : ∀ a, KvForm (f a)) (l : List α) : KvForm (l.forM f) := by
  induction l with
  | nil => exact .pure _
  | cons a l ih => exact .bind (hf a) fun _ => ih

theorem kvFail_form (sub va : Nat) : KvForm (kvFail sub va : Kv α) := .error _

theorem kvCheck_form (b : Bool) (sub va : Nat) : KvForm (kvCheck b sub va) := fun s _ _ h e => by
  unfold kvCheck at e
  split at e
  · cases e
  · cases e; exact h

theorem kvRead_form (cx : KvCx) (m va n : Nat) : KvForm (kvRead cx m va n) := fun s _ _ h e => by
  unfold kvRead at e
  split at e
  · cases e
  · split at e
    · cases e
    · cases e; exact h

theorem kvReadVec_form (cx : KvCx) (m va n : Nat) : KvForm (kvReadVec cx m va n) := fun s _ _ h e => by
  unfold kvReadVec at e
  split at e
  · cases e
  · split at e
    · cases e
    · cases e; exact (h.settleRuns _ _).countReads _

theorem MemForm.putRuns (ps : List (Phys × Nat)) : ∀ {s : State} (bs : List Byte), MemForm s → MemForm (putRuns s ps bs) := by
  induction ps with
  | nil => exact fun _ h => h
  | cons q ps ih => exact fun _ h => ih _ (h.putPhys _ _ _)

theorem kvWrite_form (cx : KvCx) (m va n v : Nat) : KvForm (kvWrite cx m va n v) := fun s _ _ h e => by
  unfold kvWrite at e
  split at e
  · cases e
  · cases e; exact .putRuns _ _ h

/-- The bytes of a row go to their far point piece by piece. -/
theorem engPutRuns_form (qs : List (Phys × Nat)) : ∀ {s : State} (bs : List Byte), MemForm s →
    MemForm (qs.foldl (fun (c : State × List Byte) q => (c.1.engPut 0 ⟨0, q.1, c.2.take q.2⟩, c.2.drop q.2)) (s, bs)).1 := by
  induction qs with
  | nil => exact fun _ h => h
  | cons q qs ih => exact fun _ h => ih _ (h.engPut _ _)

theorem kvCopy_form (cx : KvCx) (src dst n : Nat) : KvForm (kvCopy cx src dst n) := fun s _ _ h e => by
  unfold kvCopy at e
  simp only at e
  split at e
  · cases e
  · split at e
    · cases e
    · split at e
      · cases e
      · cases e; exact engPutRuns_form _ _ ((h.settleRuns _ _).countReads _)

/-! ### Roots, free stacks and entries -/

theorem kvRootRead_form (cx : KvCx) (m : Nat) : KvForm (kvRootRead cx m) :=
  .bind (kvRead_form _ _ _ _) fun _ => .bind (kvCheck_form _ _ _) fun _ => .bind (kvCheck_form _ _ _) fun _ => .pure _

theorem kvRootCheck_form (cx : KvCx) (x : KvRoot × Nat) : KvForm (kvRootCheck cx x) := kvCheck_form _ _ _

theorem kvRootAt_form (cx : KvCx) (m : Nat) : KvForm (kvRootAt cx m) :=
  .bind (kvRootRead_form _ _) fun _ => .bind (kvRootCheck_form _ _) fun _ => .pure _

theorem kvRoot_form (cx : KvCx) (rank va : Nat) : KvForm (kvRoot cx rank va) := by
  unfold kvRoot
  split
  · exact kvFail_form _ _
  · rename_i m _
    have hrest : KvForm (do
        let mine ← kvRootAt cx cx.m
        if m = cx.m then return mine
        let x ← kvRootAt cx m
        kvCheck (x.geo != mine.geo) 2 cx.root
        return x : Kv KvRoot) :=
      .bind (kvRootAt_form _ _) fun _ => .ite (.pure _) (.bind (kvRootAt_form _ _) fun _ => .bind (kvCheck_form _ _ _) fun _ => .pure _)
    exact .bind .get fun _ => .ite (.bind (.error _) fun _ => hrest) hrest

theorem kvPop_form (cx : KvCx) (m va : Nat) : KvForm (kvPop cx m va) :=
  .bind (kvRead_form _ _ _ _) fun _ => .bind (kvCheck_form _ _ _) fun _ => .bind (kvRead_form _ _ _ _) fun _ =>
    .bind (kvWrite_form _ _ _ _ _) fun _ => .pure _

theorem kvPush_form (cx : KvCx) (m va v : Nat) : KvForm (kvPush cx m va v) :=
  .bind (kvRead_form _ _ _ _) fun _ => .bind (kvCheck_form _ _ _) fun _ => .bind (kvWrite_form _ _ _ _ _) fun _ => kvWrite_form _ _ _ _ _

theorem kvEntry_form (cx : KvCx) (w va : Nat) : KvForm (kvEntry cx w va) :=
  .bind (kvCheck_form _ _ _) fun _ => .bind (kvRoot_form _ _ _) fun _ => .bind (kvCheck_form _ _ _) fun _ => .bind (kvRead_form _ _ _ _) fun _ =>
    .bind (kvCheck_form _ _ _) fun _ => .bind (kvCheck_form _ _ _) fun _ => .bind (kvCheck_form _ _ _) fun _ => .pure _

theorem kvSetRef_form (cx : KvCx) (x : KvEntry) (n : Nat) : KvForm (kvSetRef cx x n) :=
  .bind (kvCheck_form _ _ _) fun _ => kvWrite_form _ _ _ _ _

theorem kvShare_form (cx : KvCx) (w va : Nat) : KvForm (kvShare cx w va) := .bind (kvEntry_form _ _ _) fun _ => kvSetRef_form _ _ _

theorem kvDrop_form (cx : KvCx) (w va : Nat) : KvForm (kvDrop cx w va) :=
  .bind (kvEntry_form _ _ _) fun _ => .ite (.bind (kvSetRef_form _ _ _) fun _ => .pure _)
    (.bind (kvWrite_form _ _ _ _ _) fun _ => .bind (kvPush_form _ _ _ _) fun _ => .bind (kvPush_form _ _ _ _) fun _ => .pure _)

theorem kvAlloc_form (cx : KvCx) (base rank tier cls va : Nat) : KvForm (kvAlloc cx base rank tier cls va) :=
  .bind (kvRoot_form _ _ _) fun _ => .bind (kvPop_form _ _ _) fun _ => .bind (kvPop_form _ _ _) fun _ => .bind (kvCheck_form _ _ _) fun _ =>
    .bind (kvCheck_form _ _ _) fun _ => .bind (kvWrite_form _ _ _ _ _) fun _ => .pure _

/-! ### Sequences -/

theorem kvRow_form (cx : KvCx) (dim cls src dst k q : Nat) : KvForm (kvRow cx dim cls src dst k q) := .forM (fun _ => kvCopy_form _ _ _ _) _

theorem kvToken_form (cx : KvCx) (dim cls src dst k q : Nat) : KvForm (kvToken cx dim cls src dst k q) :=
  .bind (kvRow_form _ _ _ _ _ _ _) fun _ => kvRow_form _ _ _ _ _ _ _

theorem kvSeq_form (cx : KvCx) (va : Nat) : KvForm (kvSeq cx va) :=
  .bind (kvRead_form _ _ _ _) fun _ => .bind (kvCheck_form _ _ _) fun _ => .bind (kvCheck_form _ _ _) fun _ => .bind (kvRootRead_form _ _) fun _ =>
    .bind (kvCheck_form _ _ _) fun _ => .bind (kvRootCheck_form _ _) fun _ => .pure _

theorem kvLocal_form (cx : KvCx) (d : KvSeq) (b : Nat) : KvForm (kvLocal cx d b) := kvRead_form _ _ _ _
theorem kvSetLocal_form (cx : KvCx) (d : KvSeq) (b w : Nat) : KvForm (kvSetLocal cx d b w) := kvWrite_form _ _ _ _ _
theorem kvSetLen_form (cx : KvCx) (d : KvSeq) (n : Nat) : KvForm (kvSetLen cx d n) := kvWrite_form _ _ _ _ _

theorem kvTranslate_form (cx : KvCx) (e : Bool) (a b : Nat) : KvForm (kvTranslate cx e a b) :=
  .bind (kvSeq_form _ _) fun _ => .bind (kvCheck_form _ _ _) fun _ => .bind (kvLocal_form _ _ _) fun _ => .ite (.pure _)
    (.bind (kvEntry_form _ _ _) fun _ => .bind (kvRootAt_form _ _) fun _ => .pure _)

theorem kvReleaseAll_form (cx : KvCx) (d : KvSeq) (l : List Nat) : KvForm (kvReleaseAll cx d l) := by
  induction l with
  | nil => exact .pure _
  | cons b l ih =>
    exact .bind (kvLocal_form _ _ _) fun _ => .bind (kvDrop_form _ _ _) fun _ => .bind (kvSetLocal_form _ _ _ _) fun _ => .bind ih fun _ => .pure _

theorem kvRelease_form (cx : KvCx) (a b : Nat) : KvForm (kvRelease cx a b) :=
  .bind (kvSeq_form _ _) fun _ => .bind (kvReleaseAll_form _ _ _) fun _ => .bind (kvSetLen_form _ _ _) fun _ => .pure _

theorem kvClear_form (cx : KvCx) (d : KvSeq) (p n : Nat) : KvForm (kvClear cx d p n) := .ite (.pure _) (.forM (fun _ => kvWrite_form _ _ _ _ _) _)

theorem kvAppend_form (cx : KvCx) (shared : Bool) (a b : Nat) : KvForm (kvAppend cx shared a b) := by
  refine .bind (kvSeq_form _ _) fun d => .bind (kvCheck_form _ _ _) fun _ => .bind (kvRootAt_form _ _) fun x => .bind ?_ fun _ =>
    .bind (kvClear_form _ _ _ _) fun _ => .bind (kvSetLen_form _ _ _) fun _ => .pure _
  have hfresh := KvForm.bind (kvAlloc_form cx x.base d.arank d.atier d.acls a) fun p =>
    KvForm.bind (kvSetLocal_form cx d (d.len / 16) p.1) fun _ => .pure p.2
  exact .ite hfresh (.bind (kvLocal_form _ _ _) fun _ => .bind (kvEntry_form _ _ _) fun _ => .ite (.bind (kvAlloc_form _ _ _ _ _ _) fun _ =>
    .bind (.forM (fun _ => kvToken_form _ _ _ _ _ _ _) _) fun _ => .bind (kvDrop_form _ _ _) fun _ => .bind (kvSetLocal_form _ _ _ _) fun _ =>
      .pure _) (.pure _))

theorem kvInstall_form (cx : KvCx) (own : Bool) (a b c : Nat) : KvForm (kvInstall cx own a b c) := by
  refine .bind (kvSeq_form _ _) fun d => .bind (kvCheck_form _ _ _) fun _ => .bind (kvEntry_form _ _ _) fun x => .ite ?_ ?_
  · refine .bind (kvLocal_form _ _ _) fun old => .bind (kvEntry_form _ _ _) fun y => ?_
    have hset : KvForm (do kvSetLocal cx d b c; return old : Kv Nat) := .bind (kvSetLocal_form _ _ _ _) fun _ => .pure _
    have hdrop : KvForm (do let _ ← kvDrop cx old a; kvSetLocal cx d b c; return old : Kv Nat) := .bind (kvDrop_form _ _ _) fun _ => hset
    exact .ite (.ite hdrop hset) (.ite (.bind (kvSetRef_form _ _ _) fun _ => hdrop) hdrop)
  · have hset : KvForm (do kvSetLocal cx d b c; kvSetLen cx d (d.len + 16); return 0 : Kv Nat) :=
      .bind (kvSetLocal_form _ _ _ _) fun _ => .bind (kvSetLen_form _ _ _) fun _ => .pure _
    exact .ite (.bind (kvSetRef_form _ _ _) fun _ => hset) hset

theorem kvFork_form (cx : KvCx) (a b n : Nat) : KvForm (kvFork cx a b n) :=
  .bind (kvSeq_form _ _) fun _ => .bind (kvSeq_form _ _) fun _ => .bind (kvCheck_form _ _ _) fun _ => .bind (kvCheck_form _ _ _) fun _ =>
    .bind (.forM (fun _ => .bind (kvLocal_form _ _ _) fun _ => .bind (kvShare_form _ _ _) fun _ => kvSetLocal_form _ _ _ _) _) fun _ =>
      .bind (kvSetLen_form _ _ _) fun _ => .pure _

theorem kvOldPages_form (cx : KvCx) (d : KvSeq) (base : Nat) (l : List Nat) : KvForm (kvOldPages cx d base l) := by
  induction l with
  | nil => exact .pure _
  | cons b l ih =>
    exact .bind (kvLocal_form _ _ _) fun _ => .bind (kvEntry_form _ _ _) fun _ => .bind (kvCheck_form _ _ _) fun _ => .bind ih fun _ => .pure _

theorem kvNewPages_form (cx : KvCx) (d : KvSeq) (base n : Nat) : KvForm (kvNewPages cx d base n) := by
  induction n with
  | zero => exact .pure _
  | succ n ih => exact .bind (kvAlloc_form _ _ _ _ _ _) fun _ => .bind ih fun _ => .pure _

theorem kvKeep_form (cx : KvCx) (a : Nat) (keep : List Nat) : KvForm (kvKeep cx a keep) := by
  refine .ite (kvRelease_form _ _ _) (.bind (kvSeq_form _ _) fun d => .bind (kvRootAt_form _ _) fun x => .bind (kvCheck_form _ _ _) fun _ =>
    .bind (kvOldPages_form _ _ _ _) fun _ => .bind (kvNewPages_form _ _ _ _) fun _ => .bind (.forM (fun _ => ?_) _) fun _ =>
    .bind (kvReleaseAll_form _ _ _) fun _ => .bind (.forM (fun _ => kvSetLocal_form _ _ _ _) _) fun _ => .bind (kvSetLen_form _ _ _) fun _ => .pure _)
  exact .bind (kvToken_form _ _ _ _ _ _ _) fun _ => .ite (.bind (kvRead_form _ _ _ _) fun _ => kvWrite_form _ _ _ _ _) (.pure _)

theorem kvScores_form (cx : KvCx) (a : Nat) : KvForm (kvScores cx a) :=
  .bind (kvSeq_form _ _) fun _ => .bind (kvCheck_form _ _ _) fun _ => .pure _

theorem kvTop_form (cx : KvCx) (a k lo hi : Nat) : KvForm (kvTop cx a k lo hi) :=
  .bind (kvScores_form _ _) fun _ => .ite (.pure _) (.bind (kvReadVec_form _ _ _ _) fun _ => .pure _)

theorem kvIndex_form (cx : KvCx) (ids link key : Nat) (ins : Option Nat) : KvForm (kvIndex cx ids link key ins) := by
  refine .bind (kvRootAt_form _ _) fun _ => .bind (kvCheck_form _ _ _) fun _ => .bind (kvRoot_form _ _ _) fun _ => .bind (kvRead_form _ _ _ _) fun _ => ?_
  split
  · exact .bind (kvShare_form _ _ _) fun _ => .pure _
  · split
    · exact .pure _
    · refine .bind (kvShare_form _ _ _) fun _ => ?_
      split
      · exact kvFail_form _ _
      · exact .bind (kvWrite_form _ _ _ _ _) fun _ => .pure _

/-! ### Key-value instructions -/

/-- What a key-value operation leaves, whether it is done or goes on. -/
def KvOut.Form : KvOut → Prop
  | .again s => MemForm s
  | .done o => MemForm o.s

/-- A key-value operation keeps memory in form. -/
def KvOp.Form (op : KvOp) : Prop := ∀ s : State, MemForm s → (op.run s).Form

theorem MemForm.kvRun (h : MemForm s) {f : Kv Nat} (hf : KvForm f) : (kvRun s f).Form := by
  unfold Machine.kvRun
  split
  · exact hf _ _ _ h (by assumption)
  · exact h

theorem MemForm.kvOn (h : MemForm s) {vas : List Nat} {f : State → KvOut} (hf : (f s).Form) : (kvOn s vas f).Form := by
  unfold Machine.kvOn
  split
  · exact h
  · exact hf

theorem KvOp.Form.of_run {op : KvOp} {vas : State → List Nat} {f : State → Kv Nat}
    (hrun : op.run = fun s => Machine.kvOn s (vas s) fun s => Machine.kvRun s (f s)) (hf : ∀ s, KvForm (f s)) : op.Form := fun s h => by
  rw [hrun]
  exact MemForm.kvOn h (f := fun s => Machine.kvRun s (f s)) (h.kvRun (hf s))

theorem opKvxl_form (e : Bool) (p : R3) : (opKvxl e p).Form := .of_run rfl fun _ => kvTranslate_form _ _ _ _
theorem opKvrel_form (p : R3) : (opKvrel p).Form := .of_run rfl fun _ => kvRelease_form _ _ _
theorem opKvmap_form (p : R3) : (opKvmap p).Form := .of_run rfl fun _ => kvInstall_form _ _ _ _ _
theorem opKvfork_form (p : R3) : (opKvfork p).Form := .of_run rfl fun _ => kvFork_form _ _ _ _
theorem opKvkeep_form (p : R3) : (opKvkeep p).Form := .of_run rfl fun _ => kvKeep_form _ _ _

theorem opKvapp_form (p : R3) : (opKvapp p).Form := fun s h => by
  unfold opKvapp
  simp only
  refine h.kvOn ?_
  split
  · exact h.kvRun (kvAppend_form _ _ _ _)
  · split
    · exact h
    · exact h.kvRun (kvAppend_form _ _ _ _)
    · exact h

theorem scoreLoop_form (v : Fin 64) (orig : State) (els : List (Nat × Phys)) :
    ∀ {s : State} {f : Flags}, MemForm s → MemForm (scoreLoop v orig els s f).s := by
  induction els with
  | nil => exact fun h => h
  | cons e els ih =>
    intro s f h
    unfold scoreLoop
    split
    · exact h
    · split
      · exact h
      · exact ih ((h.settleFor _ _).putPhys _ _ _)

theorem opKvscore_form (p : R3) : (opKvscore p).Form := fun s h => by
  unfold opKvscore
  simp only
  refine h.kvOn ?_
  split
  · exact h
  · split
    · exact h
    · exact scoreLoop_form _ _ _ h

theorem opKvtopk_form (p : R3) : (opKvtopk p).Form := fun s h => by
  unfold opKvtopk
  simp only
  refine h.kvOn ?_
  split
  · exact h
  · exact kvTop_form _ _ _ _ _ _ _ _ h (by assumption)

theorem opKvpidx_form (ins : Bool) (p : R3) : (opKvpidx ins p).Form := fun s h => by
  unfold opKvpidx
  simp only
  split
  · exact h
  · exact h.kvRun (kvIndex_form _ _ _ _ _)

/-- Every key-value operation keeps memory in form. -/
theorem kvOf_form {i : Instr} {op : KvOp} (h : kvOf i = some op) : op.Form := by
  unfold kvOf at h
  split at h <;> cases h
  exacts [opKvmap_form _, opKvapp_form _, opKvxl_form _ _, opKvxl_form _ _, opKvfork_form _, opKvrel_form _, opKvscore_form _, opKvtopk_form _,
    opKvkeep_form _, opKvpidx_form _ _, opKvpidx_form _ _]

theorem MemForm.noRequest (h : MemForm s) : MemForm s.noRequest := h

theorem kvFinish_form {d : BitVec 6} {vec : Bool} (h : MemForm s) (f : Flags) (data : List (Nat × Nat))
    (stop : Option (Nat × Stop)) : (kvFinish d vec s f data stop).Form := by
  have hg : MemForm { (s.raise f).noRequest with cur := { (s.raise f).noRequest.cur with got := none } } := (h.raise f).noRequest
  unfold kvFinish
  simp only
  split
  · exact (hg.stopAt _).stop _ _
  · split
    · exact hg.writeVec _ _
    · split
      · exact hg
      · exact hg

theorem kvBody_form {op : KvOp} (hop : op.Form) {d : BitVec 6} {vec : Bool} (h : MemForm s) :
    (kvBody op d vec s).Form := by
  unfold kvBody
  split
  · exact h
  · exact kvFinish_form h _ _ _
  · refine h.checked ?_
    split
    · exact kvFinish_form h _ _ _
    · have hrun := hop s h
      split
      · split
        · rename_i heq
          rw [heq] at hrun
          exact hrun
        · rename_i heq
          rw [heq] at hrun
          exact kvFinish_form hrun _ _ _
      · split
        · exact h
        · exact h

theorem runKv_form {i : Instr} {op : KvOp} {d : BitVec 6} {vec : Bool} (h : MemForm s) (hi : kvOf i = some op)
    : FormNext (runV i none (kvBody op d vec) s) := h.runV (kvBody_form (kvOf_form hi) h)

/-! ### Ouvenaern's work on the cache -/

theorem kvCompact_form (cx : KvCx) (x : KvRoot) (rank tier cls f : Nat) :
    ∀ (live : List (Nat × Nat)) (free : List Nat), KvForm (kvCompact cx x rank tier cls f live free) := by
  induction f with
  | zero => exact fun _ _ => .pure _
  | succ f ih =>
    exact fun _ _ => .ite (.pure _) (.bind (kvRead_form _ _ _ _) fun _ => .bind (kvWrite_form _ _ _ _ _) fun _ =>
      .bind (kvCopy_form _ _ _ _) fun _ => .bind (kvWrite_form _ _ _ _ _) fun _ => ih _ _)

theorem kvAutumn_form (cx : KvCx) (rank tier cls : Nat) : KvForm (kvAutumn cx rank tier cls) := by
  have hstack (m va : Nat) : KvForm (kvStackSlots cx m va) :=
    .bind (kvRead_form _ _ _ _) fun _ => .bind (kvRead_form _ _ _ _) fun _ => .pure _
  have hslab (x : KvRoot) : KvForm (kvSlab cx x tier cls) := .bind (kvRead_form _ _ _ _) fun _ => .pure _
  exact .bind (kvRootAt_form _ _) fun _ => .bind (hstack _ _) fun _ => .bind (hslab _) fun _ => .bind (kvCompact_form _ _ _ _ _ _ _ _) fun _ =>
    .bind (kvWrite_form _ _ _ _ _) fun _ => kvWrite_form _ _ _ _ _

theorem kvRemove_form (cx : KvCx) (bucket slot : Nat) : KvForm (kvRemove cx bucket slot) :=
  .bind (kvRootAt_form _ _) fun _ => .bind (kvRead_form _ _ _ _) fun _ => .ite (.bind (kvDrop_form _ _ _) fun _ => kvWrite_form _ _ _ _ _) (.pure _)

theorem MemForm.kvQuiet (h : MemForm s) {f : Kv Unit} (hf : KvForm f) : MemForm (kvQuiet s f) := by
  unfold Machine.kvQuiet
  split
  · exact hf _ _ _ h (by assumption)
  · exact h

theorem execAutumnRun_form (m root tier cls : Nat) (atp : Word) (h : MemForm s) : FormNext (execAutumnRun m root tier cls atp s) := by
  unfold execAutumnRun
  split
  · exact h.next
  · exact (h.kvQuiet (kvAutumn_form _ _ _ _)).next

theorem execIndexEntryRemoval_form (m root bucket slot : Nat) (atp : Word) (h : MemForm s) :
    FormNext (execIndexEntryRemoval m root bucket slot atp s) := by
  unfold execIndexEntryRemoval
  split
  · exact h.next
  · exact (h.kvQuiet (kvRemove_form _ _ _)).next

end Sys2Proof.Machine
end

section
/-! PROOFS. The form of memory in messages, links and the events of memory. -/

namespace Sys2Proof.Machine

variable {s t : State}

/-! ### Other harts take the current place -/

theorem MemForm.asHart (h : MemForm s) (i : HartId) {f : State → State} (hf : ∀ s, MemForm s → MemForm (f s)) :
    MemForm (s.asHart i f) := by
  unfold State.asHart
  split
  · exact hf s h
  · exact .ite (hf _ (h.focus i)) ((hf _ (h.focus i)).focus _)

theorem FormNext.ite {a b : Host.Outcome State Fault Refusal} {c : Prop} [Decidable c] (ha : FormNext a) (hb : FormNext b) :
    FormNext (if c then a else b) := by
  split
  · exact ha
  · exact hb

theorem execPauseExpiry_form (i : HartId) (h : MemForm s) : FormNext (execPauseExpiry i s) := by
  have hf : MemForm (s.focus i) := h.focus i
  unfold execPauseExpiry
  refine .ite ?_ h.next
  split
  · exact execPause_form _ (by exact hf)
  · exact h.next

/-! ### Requests to stacks and to the cache -/

theorem MemForm.holdStop (h : MemForm s) (e : Stop) : MemForm (s.holdStop e) := by
  cases e with
  | trap c v => exact h
  | hold w va => exact h

theorem MemForm.farArrive (h : MemForm s) (n home : Nat) : MemForm (s.farArrive n home) := by
  unfold State.farArrive
  split
  · exact h.dropMsg n
  · split
    · exact h.dropMsg n
    · rename_i e _ _ op hop
      have hact : MemForm { s.dropMsg n with cur := { s.cur with active := some e } } := h.same (by simp) (by simp) (by simp) (by simp)
      have hrun := farOf_form hop _ home hact
      simp only
      split
      · exact hrun.same rfl rfl rfl rfl
      · split
        · exact hrun.same rfl rfl rfl rfl
        · exact h.holdStop _

theorem MemForm.kvArrive (h : MemForm s) (n : Nat) : MemForm (s.kvArrive n) := by
  unfold State.kvArrive
  split
  · exact h.dropMsg n
  · split
    · exact h.dropMsg n
    · rename_i e _ _ op hop
      have hact : MemForm { s.dropMsg n with cur := { s.cur with active := some e } } := h.same (by simp) (by simp) (by simp) (by simp)
      have hrun := kvOf_form hop _ hact
      split
      · rename_i heq
        rw [heq] at hrun
        exact MemForm.same hrun rfl rfl rfl rfl
      · rename_i heq
        rw [heq] at hrun
        simp only
        split
        · exact MemForm.same hrun rfl rfl rfl rfl
        · split
          · exact MemForm.same hrun rfl rfl rfl rfl
          · exact h.holdStop _

theorem MemForm.settleRequest (h : MemForm s) : MemForm s.settleRequest := by
  obtain ⟨fs, q, hq⟩ := settleRequest_frame s
  rw [hq]
  exact h.same rfl rfl rfl rfl

theorem execFarRequestArrival_form (n : Nat) (h : MemForm s) : FormNext (execFarRequestArrival n s) := by
  unfold execFarRequestArrival
  split
  · refine .ite h.next (.ite (MemForm.next (by exact (h.dropMsg n).countStale _ _)) ?_)
    split
    · exact (h.dropMsg n).next
    · exact .ite (h.dropMsg n).next (.ite h.next (h.asHart _ fun _ hu => hu.farArrive n _).next)
  · exact h.next

theorem execFarCompletion_form (n : Nat) (h : MemForm s) : FormNext (execFarCompletion n s) := by
  unfold execFarCompletion
  split
  · exact ((h.dropMsg n).onHart _ _).next
  · exact h.next

theorem execKvRemoteRequest_form (n : Nat) (h : MemForm s) : FormNext (execKvRemoteRequest n s) := by
  unfold execKvRemoteRequest
  split
  · split
    · exact (h.dropMsg n).next
    · exact .ite (h.dropMsg n).next (.ite h.next (h.asHart _ fun _ hu => hu.kvArrive n).next)
  · exact h.next

/-! ### Stores, memory and links -/

theorem MemForm.arriveStore (h : MemForm s) (n : Nat) : MemForm (arriveStore s n) := by
  unfold Machine.arriveStore
  split
  · exact .ite h (.ite (h.onMod _ _) ((h.dropMsg n).performStore _ _))
  · exact h

theorem execRemoteStoreAck_form (n : Nat) (h : MemForm s) : FormNext (execRemoteStoreAck n s) := by
  unfold execRemoteStoreAck
  split
  · exact ((h.dropMsg n).onHart _ _).next
  · exact h.next

theorem execMscReadRequest_form (a : Nat) (h : MemForm s) : FormNext (execMscReadRequest a s) :=
  .ite h.next (h.mem (memStep_mscRead _ _)).next

theorem execMscWrite_form (a : Nat) (bs : List Byte) (n : BitVec 4) (h : MemForm s) : FormNext (execMscWrite a bs n s) :=
  .ite h.next (h.storeFar _ _ _).next

theorem execHostMemoryAccess_form (m pa n : Nat) (w : Option (List Byte)) (h : MemForm s) : FormNext (execHostMemoryAccess m pa n w s) := by
  unfold execHostMemoryAccess
  split
  · exact h.next
  · refine .ite h.next ?_
    split
    · exact .ite (h.storeFar _ _ _).next h.next
    · exact .ite h.next (.ite (h.onMod m _).next (MemForm.next (.ite ((h.onMod m _).foldl (fun _ _ hu => hu.mem (memStep_mscRead _ _)) _) (h.onMod m _))))

theorem MemForm.onStack (h : MemForm s) (m k : Nat) (f : Stack → Stack) : MemForm (s.onStack m k f) := h.onMod m _

theorem MemForm.spoilDram (h : MemForm s) (m pa : Nat) : MemForm (s.spoilDram m pa) := .ite h (by exact h)

theorem execRefreshCommand_form (m k bank : Nat) (f : Finding) (h : MemForm s) : FormNext (execRefreshCommand m k bank f s) := by
  refine .ite h.next ?_
  split
  · exact h.next
  · exact (h.onStack m k _).next
  · exact .ite ((h.spoilDram m _).onStack m k _).next h.next

theorem execRowActivationAlert_form (m k bank : Nat) (h : MemForm s) : FormNext (execRowActivationAlert m k bank s) := by
  unfold execRowActivationAlert
  split
  · exact h.next
  · refine .ite h.next ?_
    split
    · exact h.next
    · exact (h.onStack m k _).next

theorem execActivationBackoffEnd_form (m k bank : Nat) (h : MemForm s) : FormNext (execActivationBackoffEnd m k bank s) :=
  .ite h.next (h.onStack m k _).next
theorem execDroopVbaseLow_form (m k : Nat) (h : MemForm s) : FormNext (execDroopVbaseLow m k s) := .ite h.next (h.onStack m k _).next
theorem execDroopStopEnd_form (m k : Nat) (h : MemForm s) : FormNext (execDroopStopEnd m k s) := .ite h.next (h.onStack m k _).next
theorem execBankCountCopy_form (m k : Nat) (h : MemForm s) : FormNext (execBankCountCopy m k s) := .ite h.next (h.onStack m k _).next
theorem execStackCountClr_form (m k : Nat) (h : MemForm s) : FormNext (execStackCountClr m k s) := .ite h.next (h.onStack m k _).next

theorem execTlbInvalidate_form (m : Nat) (asid : Option Nat) (va len : Nat) (h : MemForm s) : FormNext (execTlbInvalidate m asid va len s) :=
  .ite h.next (MemForm.onMod (s := s.dropTlb m asid va len) h m _).next

theorem execPublishableSetup_form (m asid va len i0 i1 : Nat) (dom : Bool) (h : MemForm s) :
    FormNext (execPublishableSetup m asid va len i0 i1 dom s) := .ite h.next (MemForm.next (by exact h))

theorem execPublishabilityWithdrawal_form (m i : Nat) (h : MemForm s) : FormNext (execPublishabilityWithdrawal m i s) := by
  unfold execPublishabilityWithdrawal
  split
  · exact h.next
  · exact .ite h.next (MemForm.next (MemForm.foldl (fun _ _ hu => hu.foldl (fun _ _ hv => hv.faultNode _ _ _ _ _) _) _ (by exact h)))

/-! ### Extents of the second tier -/

theorem execCxlExtentAccept_form (m base len off : Nat) (h : MemForm s) : FormNext (execCxlExtentAccept m base len off s) := by
  unfold execCxlExtentAccept
  split
  · exact h.next
  · exact .ite h.next (h.onMod m _).next

theorem MemForm.dropCached (h : MemForm s) (m : Nat) (e : Extent) : MemForm (s.dropCached m e) := h.dropNear _
theorem MemForm.dropWindow (h : MemForm s) (m : Nat) (e : Extent) : MemForm (s.dropWindow m e) := (h.dropCached m e).dropDram _
theorem MemForm.reportExtent (h : MemForm s) (m : Nat) (e : Extent) (forced : Bool) (lost : Nat) : MemForm (s.reportExtent m e forced lost) :=
  (h.dropWindow m e).onMod m _
theorem MemForm.onExtent (h : MemForm s) (m off : Nat) (f : Extent → Extent) : MemForm (s.onExtent m off f) := h.onMod m _

theorem MemForm.forceExtent (h : MemForm s) (m : Nat) (e : Extent) : MemForm (s.forceExtent m e) := by
  unfold State.forceExtent
  simp only
  split
  · exact h
  · exact .ite (h.reportExtent m e _ _) ((h.dropCached m e).onExtent m _ _)

theorem execCxlExtentRelease_form (m off : Nat) (h : MemForm s) : FormNext (execCxlExtentRelease m off s) := by
  unfold execCxlExtentRelease
  split
  · exact h.next
  · split
    · exact h.next
    · exact .ite h.next (.ite (h.forceExtent m _).next (.ite (h.onExtent m off _).next (.ite h.next (.ite (h.forceExtent m _).next
        (h.reportExtent m _ _ _).next))))

theorem execForcedExtentWithdrawal_form (m off : Nat) (h : MemForm s) : FormNext (execForcedExtentWithdrawal m off s) := by
  unfold execForcedExtentWithdrawal
  split
  · exact h.next
  · exact .ite (h.forceExtent m _).next h.next

theorem execXrelValidClear_form (m : Nat) (h : MemForm s) : FormNext (execXrelValidClear m s) := .ite h.next (h.onMod m _).next

theorem execHostLinkDown_form (m : Nat) (h : MemForm s) : FormNext (execHostLinkDown m s) := by
  unfold execHostLinkDown
  split
  · exact h.next
  · exact .ite h.next ((h.onMod m _).foldl (fun _ _ hu => hu.forceExtent m _) _).next

theorem execHostLinkUp_form (m : Nat) (h : MemForm s) : FormNext (execHostLinkUp m s) := (h.onMod m _).next

end Sys2Proof.Machine
end

section
/-! PROOFS. The form of memory in launches and in moving pages. -/

namespace Sys2Proof.Machine

variable {s t : State}

/-! ### Queues -/

theorem MemForm.onQueue (h : MemForm s) (m q : Nat) (f : Queue → Queue) : MemForm (s.onQueue m q f) := h.onMod m _

theorem MemForm.queueMsix (h : MemForm s) (m q : Nat) : MemForm (queueMsix s m q) := by
  unfold Machine.queueMsix
  split
  · exact h
  · exact .ite (h.raiseMsix _ _) h

theorem MemForm.queueErr (h : MemForm s) (m q code : Nat) (w : BitVec 32) : MemForm (queueErr s m q code w) :=
  (h.onMod m _).queueMsix m q

theorem execHostQtailWrite_form (m q : Nat) (tail : BitVec 32) (h : MemForm s) : FormNext (execHostQtailWrite m q tail s) := by
  unfold execHostQtailWrite
  split
  · exact h.next
  · exact .ite h.next (.ite (h.queueErr _ _ _ _).next (h.onQueue _ _ _).next)

theorem execQcfgEnable_form (m q : Nat) (v : Word) (h : MemForm s) : FormNext (execQcfgEnable m q v s) := by
  unfold execQcfgEnable
  split
  · exact h.next
  · exact .ite h.next (.ite (h.onQueue m q _).next (.ite ((h.onQueue m q _).queueErr m q _ _).next (.ite ((h.onQueue m q _).queueErr m q _ _).next
      ((h.onQueue m q _).onQueue m q _).next)))

theorem execQcfgDisable_form (m q : Nat) (v : Word) (h : MemForm s) : FormNext (execQcfgDisable m q v s) :=
  .ite h.next (h.onQueue m q _).next

/-! ### Arming, starting and dropping a share -/

theorem MemForm.armHart (h : MemForm s) (l k m : Nat) (p : Packet) (bank : Tbl Word) (want : List Nat) (c : (Nat × Nat) × Nat) (i : Nat) :
    MemForm (s.armHart l k m p bank want c i) :=
  (h.addHart _).asHart _ fun _ hu => hu.unstow

theorem MemForm.fuseCluster (h : MemForm s) (m : Nat) (fused : Bool) (n : Nat) : MemForm (s.fuseCluster m fused n) := by
  unfold State.fuseCluster
  split
  · exact h
  · exact .ite h (MemForm.onMod (by exact h) m _)

theorem MemForm.readyCores (h : MemForm s) (m : Nat) (p : Packet) (cores : List Nat) : MemForm (s.readyCores m p cores) :=
  h.foldl (fun _ _ hu => hu.fuseCluster m _ _) _

theorem MemForm.armShare (h : MemForm s) (l k m : Nat) (p : Packet) (bank : Tbl Word) (want : List Nat) (cores : List ((Nat × Nat) × Nat)) :
    MemForm (s.armShare l k m p bank want cores) :=
  ((h.onLaunch l _).readyCores m p _).foldl (fun _ _ hu => hu.foldl (fun _ _ hv => hv.armHart l k m p bank want _ _) _) cores

theorem MemForm.startShare (h : MemForm s) (l k : Nat) : MemForm (s.startShare l k) := (h.onShare l k _).onHarts _ _

theorem MemForm.dropHarts (h : MemForm s) (p : Hart → Bool) : MemForm (s.dropHarts p) := h

theorem MemForm.dropShare (h : MemForm s) (l k : Nat) : MemForm (s.dropShare l k) := by
  have hd := (h.onShare l k (fun x => { x with state := .gone })).dropHarts (fun x => x.id.launch == l && x.id.rank == k)
  unfold State.dropShare
  simp only
  split
  · exact hd.onMod _ _
  · exact hd

/-! ### The end of a launch -/

theorem writeRecord_form {m q : Nat} {p : Packet} {status first last : Word} {taken : BitVec 32} (h : MemForm s)
    (ht : s.writeRecord m q p status first last taken = some t) : MemForm t := by
  unfold State.writeRecord at ht
  split at ht
  · cases ht
  · cases ht
    exact (h.queueErr m q _ _).queueMsix m q
  · cases ht
    exact ((h.storeFar _ _ _).storeFar _ _ _).queueMsix m q

theorem MemForm.forgetLaunch (h : MemForm s) (l : Nat) : MemForm (s.forgetLaunch l) := by
  unfold State.forgetLaunch
  split
  · exact h
  · exact MemForm.onLaunch (by exact h) l _

theorem MemForm.writeBackModule (h : MemForm s) (m : Nat) : MemForm (writeBackModule s m) := h.writeBack _

theorem MemForm.closeLaunch (h : MemForm s) (l : Nat) (x : Launch) (status : Word) : MemForm (s.closeLaunch l x status) := by
  unfold State.closeLaunch
  split
  · exact h.forgetLaunch l
  · simp only
    split
    · exact h
    · rename_i hrec
      exact (writeRecord_form (h.foldl (fun _ _ hu => hu.writeBackModule _) _) hrec).forgetLaunch l

theorem MemForm.noteReport (h : MemForm s) (l k : Nat) : MemForm (s.noteReport l k) := (h.onShare l k _).onLaunch l _

theorem MemForm.reportEnd (h : MemForm s) (l k m : Nat) (x : Launch) : MemForm (s.reportEnd l k m x) := by
  have hw {f} := (h.writeBackModule m).onShare l k f
  exact .ite (hw.noteReport l 0) (.ite (hw.noteReport l k) (by exact hw))

theorem MemForm.confirmRanks (h : MemForm s) (l : Nat) (x : Launch) : MemForm (s.confirmRanks l x) :=
  .ite h ((h.endRanks l x _).onLaunch l _)

theorem execLaunchCompletion_form (l rk : Nat) (h : MemForm s) : FormNext (execLaunchCompletion l rk s) := by
  unfold execLaunchCompletion
  split
  · exact h.next
  · rename_i x _
    refine .ite h.next (.ite (.ite h.next ?_) ?_)
    · have hc := h.confirmRanks l x
      simp only
      split
      · exact hc.next
      · exact .ite (hc.closeLaunch l _ _).next hc.next
    · split
      · rename_i m y _ _
        refine .ite h.next ?_
        have he : MemForm (if y.endSent then s else s.reportEnd l rk m x) := .ite h (h.reportEnd l rk m x)
        simp only
        split
        · exact he.next
        · exact .ite (he.closeLaunch l _ _).next he.next
      · exact h.next

theorem execRankEndReport_form (n : Nat) (h : MemForm s) : FormNext (execRankEndReport n s) := by
  unfold execRankEndReport
  split
  · split
    · exact (h.dropMsg n).next
    · exact .ite ((h.dropMsg n).noteReport _ _).next h.next
  · exact h.next

/-! ### Placement -/

theorem MemForm.takeHead (h : MemForm s) (m q : Nat) : MemForm (s.takeHead m q) := h.onMod m _

theorem refuse_form {m q : Nat} {y : Queue} {p : Packet} {w : Nat} (h : MemForm s) (ht : s.refuse m q y p w = some t) : MemForm t :=
  writeRecord_form (((h.takeHead m q).queueErr m q _ _).writeBackModule m) ht

theorem MemForm.refuseRank (h : MemForm s) (l k d f : Nat) : MemForm (s.refuseRank l k d f) := h.dropShare l k

theorem armRank_form {l k m : Nat} {p : Packet} {want : List Nat} (h : MemForm s) (ht : s.armRank l k m p want = some t) :
    MemForm t := by
  unfold State.armRank at ht
  split at ht
  · cases ht
  · split at ht
    · cases ht
      exact h.refuseRank _ _ _ _
    · split at ht
      · cases ht
        exact h.refuseRank _ _ _ _
      · cases ht
        exact h.refuseRank _ _ _ _
      · cases ht
      · split at ht
        · cases ht
        · cases ht
          exact (h.armShare l k m p _ want _).onMod m _

theorem placeHead_form {m q : Nat} {y : Queue} {p : Packet} {want : List Nat} (h : MemForm s) (ht : s.placeHead m q y p want = some t) :
    MemForm t := by
  have hl : MemForm { s with serial := s.serial + 1, launches := Tbl.put s.serial (newLaunch m q y p s.tick) s.launches } := h
  unfold State.placeHead at ht
  simp only at ht
  split at ht
  · split at ht
    · cases ht
      exact ((hl.armShare _ _ _ _ _ _ _).startShare _ _).takeHead m q
    · cases ht
  · split at ht
    · obtain ⟨v, hv, rfl⟩ := Option.map_eq_some_iff.mp ht
      exact (armRank_form (by exact hl) hv).takeHead m q
    · cases ht
      exact MemForm.takeHead (by exact hl) m q

theorem tryHead_form {m q : Nat} {want : List Nat} (h : MemForm s) (ht : s.tryHead m q want = some t) : MemForm t := by
  unfold State.tryHead at ht
  split at ht
  · cases ht
  · simp only at ht
    split at ht
    · cases ht
    · split at ht
      · exact refuse_form h ht
      · split at ht
        · cases ht
        · exact placeHead_form h ht

theorem execHeadAgeExpiry_form (m q : Nat) (h : MemForm s) : FormNext (execHeadAgeExpiry m q s) := by
  unfold execHeadAgeExpiry
  split
  · exact h.next
  · exact .ite (h.onQueue m q _).next h.next

/-! ### Arrival, release and disarm -/

theorem MemForm.abandon (h : MemForm s) (l d f : Nat) : MemForm (s.abandon l d f) := by
  unfold State.abandon
  split
  · exact h
  · exact .ite h (.ite (h.abortLaunch _ _ _ _ _) (by exact (h.onLaunch l _).dropShare l 0))

theorem MemForm.releaseAll (h : MemForm s) (l : Nat) : MemForm (s.releaseAll l) := by
  unfold State.releaseAll
  split
  · exact h
  · exact .ite (by exact h.onLaunch l _) h

theorem execMarchArrival_form (n : Nat) (h : MemForm s) : FormNext (execMarchArrival n s) := by
  unfold execMarchArrival
  split
  · split
    · exact (h.dropMsg n).next
    · exact .ite h.next (.ite ((h.dropMsg n).countStale _ _).next (((h.dropMsg n).onLaunch _ _).releaseAll _).next)
  · exact h.next

theorem execMarchRelease_form (n : Nat) (h : MemForm s) : FormNext (execMarchRelease n s) := by
  unfold execMarchRelease
  split
  · split
    · exact (h.dropMsg n).next
    · exact .ite h.next (.ite ((h.dropMsg n).countStale _ _).next (.ite ((h.dropMsg n).startShare _ _).next (h.dropMsg n).next))
  · exact h.next

theorem execMarchDisarm_form (n : Nat) (h : MemForm s) : FormNext (execMarchDisarm n s) := by
  have hd := h.dropMsg n
  unfold execMarchDisarm
  split
  · split
    · exact hd.next
    · exact .ite h.next (.ite (.ite (hd.countStale _ _).next (hd.abandon _ _ _).next) (.ite (hd.dropShare _ _).next
        ((hd.dropShare _ _).countStale _ _).next))
  · exact h.next

theorem execMarchTimeout_form (l rk : Nat) (h : MemForm s) : FormNext (execMarchTimeout l rk s) := by
  unfold execMarchTimeout
  split
  · exact h.next
  · split
    · exact h.next
    · split
      · exact h.next
      · refine .ite h.next (.ite ?_ ?_)
        · split
          · exact .ite (h.abandon _ _ _).next h.next
          · exact h.next
        · split
          · exact h.next
          · exact .ite h.next (.ite (MemForm.writeErr (MemForm.dropShare (by exact h) _ _) _ _ _).next (.ite (MemForm.heard (by exact h) _ _).next
              (.ite h.next (MemForm.next (by exact h)))))

/-! ### Lost ranks and ports -/

theorem MemForm.failRequest (h : MemForm s) (i : HartId) : MemForm (s.failRequest i) := h

theorem MemForm.lose (h : MemForm s) (m : Nat) (x : Msg) : MemForm (s.lose m x) := by
  unfold State.lose
  split
  · exact h.failRequest _
  · exact h.failRequest _
  · exact h.reportRec _ _ _
  · exact .ite (by exact h) h
  · exact h

theorem execRankLost_form (m lost : Nat) (h : MemForm s) : FormNext (execRankLost m lost s) := by
  unfold execRankLost
  split
  · exact h.next
  · refine .ite h.next (MemForm.next (.foldl (fun u c hu => ?_) _ (.foldl (fun u y hu => hu.lose m y) _ (by exact h.onMod m _))))
    exact .ite (hu.abandon _ _ _) hu

theorem MemForm.onPort (h : MemForm s) (m p : Nat) (f : Port → Port) : MemForm (s.onPort m p f) := .ite (h.onMod m _) h

theorem execConstBankReload_form (l rk ka kb : Nat) (image : Word) (h : MemForm s) :
    FormNext (execConstBankReload l rk ka kb image s) := by
  unfold execConstBankReload
  split
  · refine .ite h.next ?_
    split
    · exact h.next
    · exact (h.onShare _ _ _).next
  · exact h.next

/-! ### Moving pages -/

theorem MemForm.flushRange (h : MemForm s) (a n : Nat) : MemForm (s.flushRange a n) :=
  (h.foldl (fun _ _ hu => hu.mem (memStep_recallLine _ _)) _).foldl (fun _ _ hu => hu.mem (memStep_evictMsc _ _)) _

theorem MemForm.putEntries (h : MemForm s) (a : Nat) (es : List Nat) : MemForm (s.putEntries a es) := h.storeFar _ _ _

theorem MemForm.rewriteLeaf (h : MemForm s) (ranks : List Nat) (m src dst n : Nat) (x : Nat × Nat) :
    MemForm (s.rewriteLeaf ranks m src dst n x) := by
  unfold State.rewriteLeaf
  split
  · exact h
  · exact .ite (h.putEntries _ _) h

theorem MemForm.rewriteLeaves (h : MemForm s) (src dst n : Nat) : MemForm (s.rewriteLeaves src dst n) :=
  h.foldl (fun _ _ hu => hu.rewriteLeaf _ _ _ _ _ _) _

theorem splitLeaf_form {ranks : List Nat} {x : Nat × Nat} (h : MemForm s) (ht : s.splitLeaf ranks x = some t) : MemForm t := by
  unfold State.splitLeaf at ht
  split at ht
  · cases ht
  · cases ht
    exact ((h.onMod _ _).putEntries _ _).putEntries _ _

theorem splitLeaves_form (src n f : Nat) : ∀ {s t : State}, MemForm s → splitLeaves src n f s = some t → MemForm t := by
  induction f with
  | zero => exact fun _ ht => by cases ht
  | succ f ih =>
    intro s t h ht
    unfold splitLeaves at ht
    split at ht
    · cases ht
      exact h
    · obtain ⟨u, hu, hut⟩ := Option.bind_eq_some_iff.mp ht
      exact ih (splitLeaf_form h hu) hut

/-- A page copied in memory (R446). -/
theorem MemForm.copyRange (h : MemForm s) (src dst n : Nat) (b : List Nat) :
    MemForm { s with dram := Memory.copyRange s.dram src dst n, badMem := b } := ⟨⟨Memory.wf_copyRange src dst n h.1.1, h.1.2⟩, h.2⟩

theorem MemForm.withFabric (h : MemForm s) (f : List Msg) : MemForm { s with fabric := f } := h

theorem finishMove_form {src dst n : Nat} (h : MemForm s) (ht : s.finishMove src dst n = some t) : MemForm t := by
  unfold State.finishMove at ht
  obtain ⟨u, hu, hut⟩ := Option.map_eq_some_iff.mp ht
  rw [← hut]
  exact (((((splitLeaves_form _ _ _ h hu).flushRange src n).flushRange dst n).copyRange _ _ _ _).rewriteLeaves src dst n).withFabric _ |>.onMod _ _

theorem MemForm.startMove (h : MemForm s) (src dst n : Nat) : MemForm (s.startMove src dst n) := .ite h (h.onMod _ _)
theorem MemForm.migstat (h : MemForm s) (m : Nat) (pin : Bool) : MemForm (s.migstat m pin) := h.onMod m _

theorem execMigrationTrigger_form (m page src frame : Nat) (h : MemForm s) : FormNext (execMigrationTrigger m page src frame s) := by
  unfold execMigrationTrigger
  split
  · exact h.next
  · split
    · exact h.next
    · refine .ite h.next (.ite ?_ (.ite h.next (.ite (((h.onMod m _).migstat _ _).migstat _ _).next (h.startMove _ _ _).next)))
      split
      · exact h.next
      · rename_i hmove
        split at hmove
        · exact ((((finishMove_form h hmove).onMod _ _).onMod _ _).migstat _ _ |>.migstat _ _).next
        · cases hmove

theorem execPageTierMigrate_form (m src dst size : Nat) (h : MemForm s) : FormNext (execPageTierMigrate m src dst size s) := by
  unfold execPageTierMigrate
  split
  · exact h.next
  · split
    · refine .ite h.next ?_
      split
      · refine .ite (MemForm.next ?_) h.next
        cases hmove : s.finishMove (loc m src) (by assumption : Nat × Nat).1 size with
        | none => exact h
        | some t => exact finishMove_form h hmove
      · exact (h.startMove _ _ _).next
    · exact h.next

theorem MemForm.trapHead (h : MemForm s) : MemForm s.trapHead := by
  unfold State.trapHead
  split
  · exact h
  · exact MemForm.noteMatrix (by exact h) _

theorem execMigrationHoldTimeout_form (i : HartId) (h : MemForm s) : FormNext (execMigrationHoldTimeout i s) := by
  unfold execMigrationHoldTimeout
  split
  · exact h.next
  · split
    · exact h.next
    · refine .ite h.next ?_
      split
      · refine (h.asHart _ fun u hu => MemForm.takeTrap (.ite (MemForm.trapHead ?_) ?_) _).next
        · exact hu.settleRequest.cur _
        · exact hu.settleRequest.cur _
      · split
        · exact h.next
        · exact (MemForm.asHart (s := s.holdAgain i) h _ fun _ hu => hu.settleRequest.takeTrap _).next

theorem execMigratableMarkClear_form (m page : Nat) (h : MemForm s) : FormNext (execMigratableMarkClear m page s) :=
  .ite h.next (h.onMod m _).next

end Sys2Proof.Machine
end

section
/-! PROOFS. The form of memory in recovery, the host's events, power and the acts of the machine. -/

namespace Sys2Proof.Machine

variable {s t : State}

/-! ### Notices, saves and resumption -/

theorem execNoticePost_form (i : HartId) (d : BitVec 32) (h : MemForm s) : FormNext (execNoticePost i d s) := by
  unfold execNoticePost
  split
  · exact h.next
  · exact .ite (h.onHart i _).next h.next

theorem MemForm.forceSave (h : MemForm s) (i : HartId) : MemForm (s.forceSave i) :=
  h.asHart i fun _ hu => hu.settleRequest.stow.cur _

theorem execForcedPreemption_form (i : HartId) (h : MemForm s) : FormNext (execForcedPreemption i s) := by
  unfold execForcedPreemption
  split
  · exact h.next
  · exact .ite (h.forceSave i).next h.next

theorem MemForm.saveShare (h : MemForm s) (l k m : Nat) : MemForm (s.saveShare l k m) := by
  unfold State.saveShare
  split
  · exact h
  · exact ((h.onMod m _).onShare l k _).foldl (fun _ _ hu => hu.pump m _) _

theorem execLaunchSuspend_form (l rk : Nat) (d : BitVec 32) (h : MemForm s) : FormNext (execLaunchSuspend l rk d s) := by
  unfold execLaunchSuspend
  split
  · have hn {p d} := (h.onShare l rk (fun z => { z with state := .suspending })).onHarts p (fun x => x.notify d s.tick)
    exact .ite h.next (.ite (MemForm.next (.ite (hn.saveShare l rk _) hn)) (.ite (h.saveShare l rk _).next h.next))
  · exact h.next

theorem MemForm.seatHart (h : MemForm s) (i : HartId) (core slot : Nat) (lanes : List Nat) : MemForm (s.seatHart i core slot lanes) :=
  (h.asHart i fun _ hu => hu.cur _).asHart i fun _ hu => hu.unstow

theorem MemForm.seatHarts (m core : Nat) (p : Packet) (want : List Nat) (hs : List Hart) :
    ∀ {s : State}, MemForm s → MemForm (s.seatHarts m core p want hs) := by
  induction hs with
  | nil => exact fun h => h
  | cons x hs ih => exact fun h => ih (h.seatHart _ _ _ _)

theorem MemForm.resumeShare (h : MemForm s) (l k m : Nat) (x : Launch) (y : Share) (cores want : List Nat) :
    MemForm (s.resumeShare l k m x y cores want) := by
  have hseat {cs : List ((Nat × Nat) × Nat)} {hs : List (Nat × List Hart)} {f : Share → Share} :=
    ((((h.readyCores m x.pkt (cs.map (·.2))).foldl (fun _ c hu => MemForm.seatHarts m c.1 x.pkt want c.2 hu) hs).onShare l k f).foldl
      (fun _ c hu => hu.onMod m (fun z => z.restoreHeld c y.held)) cs)
  unfold State.resumeShare
  simp only
  split
  · exact MemForm.abandon (.foldl (fun _ _ hu => hu.pump m _) _ (.ite (hseat.startShare l k) (by exact hseat))) _ _ _
  · exact .foldl (fun _ _ hu => hu.pump m _) _ (.ite (hseat.startShare l k) (by exact hseat))

theorem execLaunchResume_form (l rk : Nat) (cores want : List Nat) (h : MemForm s) : FormNext (execLaunchResume l rk cores want s) := by
  unfold execLaunchResume
  split
  · exact .ite (h.resumeShare _ _ _ _ _ _ _).next h.next
  · exact h.next

theorem execHartResume_form (i : HartId) (lanes : Nat) (h : MemForm s) : FormNext (execHartResume i lanes s) := by
  unfold execHartResume
  split
  · exact .ite ((h.seatHart i _ _ _).onHart i _).next h.next
  · exact h.next

/-! ### Placement by priority -/

theorem placeAt_form {m prio : Nat} {want : List Nat} (h : MemForm s) (ht : s.placeAt m prio want = some t) : MemForm t := by
  unfold State.placeAt at ht
  split at ht
  · cases ht
  · split at ht
    · rename_i hsaved
      cases ht
      split at hsaved
      · cases hsaved
      · obtain ⟨c, _, hc⟩ := List.exists_of_findSome?_eq_some hsaved
        obtain ⟨cs, _, rfl⟩ := Option.map_eq_some_iff.mp hc
        exact h.resumeShare _ _ _ _ _ _ _
    · split at ht
      · rename_i hmarch
        cases ht
        obtain ⟨c, _, hc⟩ := List.exists_of_findSome?_eq_some hmarch
        exact armRank_form (h.onMod m _) hc
      · obtain ⟨q, _, hq⟩ := List.exists_of_findSome?_eq_some ht
        split at hq
        · cases hq
        · exact tryHead_form h hq

/-- The first level at which something is placed. -/
theorem placeFirst_form (h : MemForm s) (m : Nat) (want l : List Nat) : MemForm ((l.findSome? (fun p => s.placeAt m p want)).getD s) := by
  cases hp : l.findSome? (fun p => s.placeAt m p want) with
  | none => exact h
  | some u =>
    obtain ⟨p, _, hu⟩ := List.exists_of_findSome?_eq_some hp
    exact placeAt_form h hu

theorem execSchedulerPlace_form (m : Nat) (want : List Nat) (h : MemForm s) : FormNext (execSchedulerPlace m want s) :=
  .ite h.next (placeFirst_form h m want _).next

theorem execMarchPacketReceive_form (n : Nat) (want : List Nat) (h : MemForm s) : FormNext (execMarchPacketReceive n want s) := by
  unfold execMarchPacketReceive
  split
  · split
    · exact (h.dropMsg n).next
    · split
      · exact (h.dropMsg n).next
      · exact .ite h.next (placeFirst_form ((h.dropMsg n).onMod _ _) _ want _).next
  · exact h.next

/-! ### Watchdog and deadlock -/

theorem execWatchdogFire_form (i : HartId) (h : MemForm s) : FormNext (execWatchdogFire i s) := by
  unfold execWatchdogFire
  split
  · exact h.next
  · split
    · exact h.next
    · exact .ite (h.asHart _ fun u hu => MemForm.takeTrap (MemForm.trapHead (hu.settleRequest.cur _)) _).next h.next

theorem MemForm.deadlock (h : MemForm s) (m l : Nat) (x : Launch) : MemForm (s.deadlock m l x) := by
  unfold State.deadlock
  simp only
  split
  · exact h
  · exact (((h.foldl (fun _ k hu => hu.forceSave k.id) _).foldl (fun _ _ hu => hu.saveShare l _ _) _).onLaunch l _).reportRec l m _

theorem MemForm.checkLaunch (h : MemForm s) (m l : Nat) : MemForm (s.checkLaunch m l) := by
  unfold State.checkLaunch
  split
  · exact h
  · exact .ite h (.ite (h.deadlock m l _) (h.onShare l 0 _))

theorem execDeadlockCheck_form (m : Nat) (h : MemForm s) : FormNext (execDeadlockCheck m s) := by
  unfold execDeadlockCheck
  split
  · exact h.next
  · exact .ite ((h.onMod m _).foldl (fun _ _ hu => hu.checkLaunch m _) _).next h.next

/-! ### Acts of firmware -/

theorem MemForm.resumeHart (h : MemForm s) (i : HartId) : MemForm (s.resumeHart i) := by
  unfold State.resumeHart
  split
  · exact h
  · exact .ite h (.ite ((h.asHart i fun _ hu => hu.settleRequest.stow).onHart i _) (h.onHart i _))

theorem MemForm.applyResume (h : MemForm s) (i : HartId) (node : Option NodeRef) : MemForm (s.applyResume i node) := by
  unfold State.applyResume
  split
  · exact h.onNode _ _ _
  · exact .ite (h.onLaunch _ _) (h.resumeHart i)

theorem execErrrecActResume_form (m q : Nat) (h : MemForm s) : FormNext (execErrrecActResume m q s) := by
  unfold execErrrecActResume
  split
  · exact h.next
  · refine .ite h.next ?_
    split
    · exact h.next
    · split
      · exact h.next
      · exact .ite (h.applyResume _ _).next (MemForm.next (by exact h))

theorem MemForm.actAbort (h : MemForm s) (m : Nat) (e : ErrRec) : MemForm (s.actAbort m e) := by
  unfold State.actAbort
  split
  · exact h
  · exact h.abortLaunch _ _ _ _ _

theorem execErrrecActAbort_form (m q : Nat) (h : MemForm s) : FormNext (execErrrecActAbort m q s) := by
  unfold execErrrecActAbort
  split
  · exact h.next
  · exact .ite (h.actAbort m _).next h.next

theorem execDomainActAbort_form (m : Nat) (h : MemForm s) : FormNext (execDomainActAbort m s) := by
  unfold execDomainActAbort
  split
  · exact h.next
  · exact .ite (h.actAbort m _).next h.next

theorem execActForward_form (n : Nat) (h : MemForm s) : FormNext (execActForward n s) := by
  unfold execActForward
  split
  · split
    · exact (h.dropMsg n).next
    · exact .ite h.next (.ite ((h.dropMsg n).applyResume _ _).next ((h.dropMsg n).abortLaunch _ _ _ _ _).next)
  · exact h.next

theorem execErrorRecordForward_form (n : Nat) (h : MemForm s) : FormNext (execErrorRecordForward n s) := by
  unfold execErrorRecordForward
  split
  · split
    · exact (h.dropMsg n).next
    · exact .ite ((h.dropMsg n).writeErr _ _ _).next h.next
  · exact h.next

theorem MemForm.writeNext (h : MemForm s) (m q : Nat) : MemForm (s.writeNext m q) := by
  unfold State.writeNext
  split
  · exact h
  · split
    · exact h
    · exact (h.onMod m _).putErr _ _ _

theorem execErrrecValidClear_form (m q : Nat) (h : MemForm s) : FormNext (execErrrecValidClear m q s) :=
  .ite h.next ((h.onMod m _).writeNext m q).next

theorem execRegisterWrite_form (m off : Nat) (v : Word) (h : MemForm s) : FormNext (execRegisterWrite m off v s) :=
  .ite (h.onMod m _).next h.next

theorem execErrcntClr_form (m : Nat) (h : MemForm s) : FormNext (execErrcntClr m s) := .ite (h.onMod m _).next h.next

/-! ### Storage errors, the TAP, boot and power -/

theorem refill_form {m : Nat} {w : SramWord} (h : MemForm s) (ht : s.refill m w = some t) : MemForm t := by
  unfold State.refill at ht
  split at ht
  · cases ht
    exact h
  · split at ht
    · cases ht
    · cases ht
      exact h
  · split at ht
    · cases ht
    · cases ht
      exact h
  · cases ht

theorem MemForm.poisonWord (h : MemForm s) (w : SramWord) : MemForm (s.poisonWord w) := by
  unfold State.poisonWord
  split
  · exact h.spoil _ _
  · exact .ite h (h.spoil _ _)
  · exact h.spoil _ _
  · exact h

theorem execPatrolSweep_form (m : Nat) (w : SramWord) (f : Finding) (h : MemForm s) : FormNext (execPatrolSweep m w f s) := by
  unfold execPatrolSweep
  split
  · exact h.next
  · refine .ite h.next ?_
    split
    · exact h.next
    · exact (h.onMod m _).next
    · refine .ite h.next ?_
      split
      · exact ((refill_form h (by assumption)).onMod m _).next
      · exact ((h.poisonWord w).onMod m _).next

theorem MemForm.tapOut (h : MemForm s) (m : Nat) (v : Word) : MemForm (s.tapOut m v) := .ite (h.onMod m _) h

theorem execTapSolstat_form (m : Nat) (h : MemForm s) : FormNext (execTapSolstat m s) := by
  unfold execTapSolstat
  split
  · exact h.next
  · exact (h.tapOut m _).next

theorem execTapSolsel_form (m : Nat) (v : Word) (h : MemForm s) : FormNext (execTapSolsel m v s) := .ite (h.onMod m _).next h.next

theorem execTapSoldata_form (m : Nat) (h : MemForm s) : FormNext (execTapSoldata m s) := by
  unfold execTapSoldata
  split
  · exact h.next
  · exact .ite ((h.tapOut m _).draw.onMod m _).next h.next

theorem execTapSolfrz_form (m : Nat) (h : MemForm s) : FormNext (execTapSolfrz m s) := .ite (h.freezeModule m _).next h.next
theorem execMboebFreeze_form (m : Nat) (h : MemForm s) : FormNext (execMboebFreeze m s) := .ite (h.freezeModule m _).next h.next
theorem execSolsticeUnlock_form (m : Nat) (req : List Byte) (h : MemForm s) : FormNext (execSolsticeUnlock m req s) :=
  .ite (h.onMod m _).next h.next
theorem execVcoreRemoval_form (m : Nat) (h : MemForm s) : FormNext (execVcoreRemoval m s) := (h.onMod m _).next

theorem execSpdmRequest_form (m : Nat) (req : List Byte) (h : MemForm s) : FormNext (execSpdmRequest m req s) := by
  unfold execSpdmRequest
  split
  · exact h.next
  · exact .ite (h.onMod m _).next h.next

theorem MemForm.discardModule (h : MemForm s) (m : Nat) : MemForm (s.discardModule m) := h.dropBanks _

theorem MemForm.clearChip (h : MemForm s) (m : Nat) : MemForm (s.clearChip m) := h.dropNear _

theorem MemForm.warmResetModule (h : MemForm s) (m : Nat) : MemForm (warmResetModule s m) := by
  unfold Machine.warmResetModule
  split
  · exact h
  · exact .ite h ((((h.mem (memStep_drainMsc s m)).discardModule m).clearChip m).onMod m _)

theorem execPowerOnBoot_form (m : Nat) (image signature : List Byte) (key version : Nat) (h : MemForm s) :
    FormNext (execPowerOnBoot m image signature key version s) := by
  unfold execPowerOnBoot
  simp only
  split
  · exact MemForm.next (by exact h)
  · exact .ite (h.onMod m _).next h.next

theorem MemForm.gateCluster (h : MemForm s) (m n : Nat) : MemForm (s.gateCluster m n) := .ite h (MemForm.onMod (by exact h) m _)

theorem execD3hotEntry_form (m : Nat) (h : MemForm s) : FormNext (execD3hotEntry m s) :=
  .ite (((h.writeBackModule m).foldl (fun _ _ hu => hu.gateCluster m _) _).onMod m _).next h.next

theorem execPowerRemoval_form (m : Nat) (h : MemForm s) : FormNext (execPowerRemoval m s) := by
  unfold execPowerRemoval
  split
  · exact h.next
  · exact (MemForm.onMod (by exact (((h.discardModule m).clearChip m).dropDram _).dropMsc _) m _).next

theorem execThermalStepDown_form (m n : Nat) (h : MemForm s) : FormNext (execThermalStepDown m n s) := .ite (h.onMod m _).next h.next
theorem execThermalTrip_form (m n : Nat) (h : MemForm s) : FormNext (execThermalTrip m n s) := .ite (h.freezeModule m _).next h.next

theorem execPowerCapWindow_form (m : Nat) (k : Fin 4) (h : MemForm s) : FormNext (execPowerCapWindow m k s) := by
  unfold execPowerCapWindow
  split
  · exact h.next
  · exact .ite h.next (h.draw.onMod m _).next

/-! ### Acts of the machine -/

theorem MemForm.actOn (h : MemForm s) (m : Nat) {f : State → State} (hf : MemForm (f s)) : MemForm (s.actOn m f) := .ite hf h

theorem MemForm.walkFor (h : MemForm s) (i : HartId) (va : Nat) (far : Option Nat) : MemForm (s.walkFor i va far) := by
  unfold State.walkFor
  split
  · exact h
  · exact h.actOn _ (h.asHart i fun _ hu => hu.fillTlb _ _)

theorem MemForm.fetchFill (h : MemForm s) (va : Nat) : MemForm (s.fetchFill va) := by
  unfold State.fetchFill
  split
  · exact h
  · exact .ite h (h.fillCopy _)

theorem MemForm.fillFetch (h : MemForm s) (va : Nat) : MemForm (s.fillFetch va) := by
  unfold State.fillFetch
  split
  · exact h
  · split
    · exact h
    · exact h.fetchFill va

theorem MemForm.retryAbort (h : MemForm s) (i : HartId) : MemForm (s.retryAbort i) := by
  unfold State.retryAbort
  split
  · exact h
  · exact h.actOn _ (.ite (h.abortLaunch _ _ _ _ _) h)

theorem MemForm.stackAct (h : MemForm s) (m k : Nat) (f : Stack → Stack) : MemForm (s.stackAct m k f) := .ite (h.onStack m k f) h

theorem MemForm.runAct (h : MemForm s) (a : Act) : MemForm (runAct a s) := by
  cases a with
  | evictL1 core line => exact h.actOn _ (h.mem (memStep_evictL1 _ _ _))
  | evictL2 line => exact h.actOn _ (h.mem (memStep_recallLine _ _))
  | evictMsc line => exact h.actOn _ (h.mem (memStep_evictMsc _ _))
  | fillTlb i va far => exact h.walkFor i va far
  | dropTlb n => exact h
  | fillFetch i va =>
    unfold Machine.runAct
    simp only
    split
    · exact h.actOn _ (h.asHart i fun _ hu => hu.fillFetch va)
    · exact h
  | dropFetch n => exact h
  | gate m n => exact h.actOn m (h.gateCluster m n)
  | ungate m n => exact h.actOn m (h.onMod m _)
  | threshold m k v => exact h.actOn m (.ite (h.stackAct m k _) h)
  | settings m v => exact h.actOn m (.ite (h.onMod m _) h)
  | rowOpen m k bank row => exact h.actOn m (h.stackAct m k _)
  | startLimit m k => exact h.actOn m (h.stackAct m k _)
  | tier2Error m pa =>
    refine h.actOn m ?_
    split
    · split
      · exact .ite (h.spoilDram m pa) h
      · exact h
    · exact h
  | retryAbort i => exact h.retryAbort i
  | spareFrame m f => exact h.actOn m (h.onMod m _)
  | keepSpace m ranks root => exact h.actOn m (h.onMod m _)
  | pcieError m e => exact h.actOn m (h.onMod m _)

end Sys2Proof.Machine
end

section
/-! PROOFS. The form of memory in control transfer and in the matrix, attention and vocabulary instructions. -/

namespace Sys2Proof.Machine

variable {s t : State}

/-! ### Control transfer -/

theorem MemForm.jumpLink (h : MemForm s) (d : Fin 32) (v target : Word) : (s.jumpLink d v target).Form := by
  have hj := h.jumpTo target
  unfold State.jumpLink
  split
  · rename_i heq
    rw [heq] at hj
    exact MemForm.setG hj d v
  · exact hj

theorem execBCc_form (p : S) (h : MemForm s) : FormNext (execBCc p s) := Res.Form.retire (.ite (h.jumpTo _) h.ok)

theorem execLoop_form (p : S) (h : MemForm s) : FormNext (execLoop p s) :=
  Res.Form.retire (.ite (h.jumpLink _ _ _) (h.setG _ _).ok)

/-! ### Tiles -/

theorem MemForm.setUntagged (h : MemForm s) (c : Nat) (a : Acc) : MemForm (s.setUntagged c a) := h

theorem MemForm.stopRow (h : MemForm s) (rows k : Nat) : MemForm (s.stopRow rows k) := h

theorem MemForm.nanRow (h : MemForm s) (c k : Nat) : MemForm (s.nanRow c k) := h

theorem MemForm.cleanRows (h : MemForm s) (c : Nat) (rows : List Nat) : MemForm (s.cleanRows c rows) := .ite h (by exact h)

/-! ### Row by row -/

theorem rowLoop_form (cs : List Nat) {step : Nat → State → Except Stop State}
    (hstep : ∀ k s t, MemForm s → step k s = .ok t → MemForm t) (rows : List Nat) :
    ∀ {s : State}, MemForm s → (rowLoop cs step rows s).Form := by
  induction rows with
  | nil => exact fun h => h
  | cons k rows ih =>
    intro s h
    unfold rowLoop
    split
    · exact ((h.nanRow _ _).stopRow _ _).stop _ _
    · split
      · exact (h.stopRow _ _).stop _ _
      · exact ih (hstep _ _ _ h (by assumption))

/-- Rows each of which is always performed. -/
theorem rowLoop_form_ok (cs : List Nat) {f : Nat → State → State} (hf : ∀ k s, MemForm s → MemForm (f k s)) (rows : List Nat)
    (h : MemForm s) : (rowLoop cs (fun k s => .ok (f k s)) rows s).Form :=
  rowLoop_form cs (fun k s _ hs e => by cases e; exact hf k s hs) rows h

theorem MemForm.storeRows (h : MemForm s) (cs : List Nat) (n : Nat) (rows : List Nat) (make : Nat → Except Stop (List Put × Flags)) :
    (s.storeRows cs n rows make).Form := by
  have hw {fl qs ps} : MemForm (((s.raise fl).settleRuns true qs).putAll n ps) := ((h.raise _).settleRuns _ _).putAll _ _
  unfold State.storeRows
  simp only
  split
  · exact hw
  · split
    · exact ((hw.nanRow _ _).stopRow _ _).stop _ _
    · exact (hw.stopRow _ _).stop _ _

theorem Res.Form.keeping {x : Res} (hx : x.Form) (spans : List (Nat × Nat)) : (x.keeping spans).Form :=
  hx.onStop fun _ h => .ite h (h.keepSpans _)

theorem MemForm.noD (h : MemForm s) {w : Want} {spans : List (Nat × Nat)} {body : State → Res} (hb : (body s).Form) :
    (s.noD w spans body).Form := by
  unfold State.noD
  split
  · exact h
  · exact hb.keeping _

theorem MemForm.kbBasesOk (h : MemForm s) {fmt : Nat} {bases : List Nat} {body : State → Res} (hb : (body s).Form) :
    (kbBasesOk fmt bases s body).Form := by
  unfold Machine.kbBasesOk
  split
  · exact h
  · exact hb

/-! ### Multiplies -/

theorem MemForm.bandUpdate (x : Mul) (kn : Nat) (b : ChunkB) (rows : List (Nat × Row)) :
    ∀ {s : State}, MemForm s → MemForm (s.bandUpdate x kn b rows) := by
  induction rows with
  | nil => exact fun h => h
  | cons q rows ih => exact fun h => ih ((h.raise _).setAcc _ _)

theorem bandLoop_form (x : Mul) (b : Except Stop ChunkB) (k0 kn pos f : Nat) :
    ∀ {r0 : Nat} {fetched : Bool} {o : MulOut}, MemForm o.s → MemForm (bandLoop x b k0 kn pos f r0 fetched o).s := by
  induction f with
  | zero => exact fun h => h
  | succ f ih =>
    intro r0 fetched o h
    unfold bandLoop
    split
    · exact h
    · simp only
      split
      · exact h.nanRow _ _
      · split
        · exact h
        · split
          · exact .ite h (h.raise _)
          · exact ih (by exact MemForm.bandUpdate x kn _ _ (.ite h (h.raise _)))

theorem chunkLoop_form (x : Mul) (cs : List (Nat × Nat)) : ∀ {r0 : Nat} {o : MulOut}, MemForm o.s → MemForm (chunkLoop x cs r0 o).s := by
  induction cs with
  | nil => exact fun h => h
  | cons c cs ih =>
    intro r0 o h
    unfold chunkLoop
    simp only
    split
    · exact bandLoop_form x _ _ _ _ _ h
    · exact ih (bandLoop_form x _ _ _ _ _ h)

theorem MemForm.multiply (h : MemForm s) (x : Mul) : (s.multiply x).Form := by
  have hs : MemForm (if x.ordered || s.cur.unf.valid then s
      else { s.draw with cur := { s.cur with unf := { s.cur.unf with order := s.free } } }) := .ite h (by exact h)
  have ho {cs r0 l} := (chunkLoop_form x cs (r0 := r0) (o := ⟨_, [], none⟩) hs).countReads l
  unfold State.multiply
  simp only
  split
  · exact ho
  · exact (ho.stopRow _ _).stop _ _

theorem MemForm.mulRun (h : MemForm s) (x : Mul) : (s.mulRun x).Form :=
  .ite h.ok (h.kbBasesOk (h.kbBasesOk (h.noD (h.multiply x))))

theorem mmaBody_form (p : M) (ordered : Bool) (h : MemForm s) : (mmaBody p ordered s).Form := h.checked (h.mulRun _)

theorem mgrpBody_form (p : M) (ordered : Bool) (h : MemForm s) : (mgrpBody p ordered s).Form := by
  unfold mgrpBody
  refine h.checkedAt ?_
  split
  · exact h.stop _ _
  · exact h.checkedAt ((h.countReads _).checked ((h.countReads _).mulRun _))

theorem execEqclaim_form (p : R2) (h : MemForm s) : FormNext (execEqclaim p s) := by
  refine Res.Form.retire (.ite (h.precise _ _ _) ?_)
  split
  · exact h.stop _ _
  · simp only
    split
    · exact h.stop _ _
    · split
      · exact h.stop _ _
      · refine .ite (h.precise _ _ _) (.ite (h.precise _ _ _) ?_)
        split
        · exact h.stop _ _
        · exact MemForm.setD (((h.settleFor _ _).putPhys _ _ _).countReads _) _ _

/-! ### Tiles loaded, stored, moved and scaled -/

theorem execMzero_form (p : R1) (h : MemForm s) : FormNext (execMzero p s) :=
  h.runV (h.checked ((h.setAcc _ _).cleanRows _ _).ok)

theorem MemForm.loadRow (h : MemForm s) (c k : Nat) (bf : Bool) (vs : List Nat) : MemForm (s.loadRow c k bf vs) :=
  MemForm.cleanRows (h.setAcc c _) _ _

theorem execMld_form (p : M) (h : MemForm s) : FormNext (execMld p s) := by
  refine h.runV (h.checked (.ite h.ok (h.noD ?_)))
  generalize hx : rowLoop _ _ _ _ = x
  have hk : x.Form := by
    rw [← hx]
    refine rowLoop_form [] (fun k u t hu e => ?_) _ h
    split at e
    · cases e
    · cases e
      exact (hu.countReads _).loadRow _ _ _ _
  split
  · exact MemForm.foldl (fun _ _ hu => hu.loadRow _ _ _ _) _ (by exact hk)
  · exact hk

theorem execMst_form (p : M) (h : MemForm s) : FormNext (execMst p s) := h.runV (h.checked (.ite h.ok (h.noD (h.storeRows _ _ _ _))))

theorem mmovOut_form (p : R2) (st : Bool) (h : MemForm s) : (mmovOut p st s).Form := by
  refine h.checked ?_
  simp only
  split
  · exact h.writeVec _ _
  · exact .ite ((((h.writeVec _ _).nanRow _ _).stopRow _ _).stop _ _) ((((h.writeVec _ _).stopRow _ _).stopAt _).stop _ _)

theorem mmovIn_form (p : R2) (st : Bool) (h : MemForm s) : (mmovIn p st s).Form :=
  h.checked (h.readAll (h.setAcc _ _ : MemForm _))

theorem MemForm.scaleRow (h : MemForm s) (p : R2) (c k : Nat) : MemForm (scaleRow p c k s) := h

theorem execMscale_form (p : R2) (h : MemForm s) : FormNext (execMscale p s) :=
  h.runV (h.checked (h.readAll (rowLoop_form_ok _ (fun _ _ hs => hs.scaleRow p _ _) _ h)))

/-! ### Attention -/

theorem softUpdate_form {c k n : Nat} {scores : List Nat} {values : Except Stop (List Row)} {first : Bool} (h : MemForm s)
    (ht : softUpdate s c k n scores values first = .ok t) : MemForm t := by
  unfold softUpdate at ht
  simp only at ht
  split at ht
  · cases ht
    exact (h.raise _).setUntagged c _
  · cases ht
    exact h.setUntagged c _
  · split at ht
    · cases ht
    · cases ht
      exact MemForm.setUntagged (.ite ((h.raise _).countReads _) (h.raise _)) c _

theorem execMsoft_form (p : M) (h : MemForm s) : FormNext (execMsoft p s) :=
  h.runV (h.checked (.ite h.ok (h.kbBasesOk (h.noD (rowLoop_form _ (fun _ _ _ hs e => softUpdate_form hs e) _ h)))))

theorem execMmask_form (p : R2) (h : MemForm s) : FormNext (execMmask p s) :=
  h.runV (h.checked (rowLoop_form_ok _ (fun _ _ hs => hs.setUntagged _ _) _ h))

theorem MemForm.mergeRow (h : MemForm s) (d a n k : Nat) : MemForm (mergeRow s d a n k) := by
  unfold Machine.mergeRow
  simp only
  split
  · exact h
  · exact h

theorem execMmerge_form (p : R2) (h : MemForm s) : FormNext (execMmerge p s) :=
  h.runV (h.checked (.ite h.ok (rowLoop_form_ok _ (fun _ _ hs => hs.mergeRow _ _ _ _) _ h)))

theorem execMfin_form (p : M) (h : MemForm s) : FormNext (execMfin p s) := h.runV (h.checked (.ite h.ok (h.noD (h.storeRows _ _ _ _))))

/-! ### The vocabulary -/

theorem stripChecks_form (p : M) (grad : Bool) (tagOk : State → Proj → Bool) {body : Strip → State → Res}
    (hb : ∀ x t, MemForm t → (body x t).Form) (h : MemForm s) : (stripChecks p grad tagOk body s).Form := by
  unfold stripChecks
  refine h.checkedAt ?_
  split
  · exact h.stop _ _
  · refine h.checked (h.kbBasesOk (h.kbBasesOk (h.checkedAt (h.checkedAt (h.noD ?_)))))
    split
    · exact h.stop _ _
    · split
      · exact h.stop _ _
      · exact (hb _ _ (h.countReads _)).keeping _

theorem projRow_form {x : Strip} {c k : Nat} {init : Bool} (h : MemForm s) (ht : projRow x c init k s = .ok t) : MemForm t := by
  unfold projRow at ht
  simp only at ht
  split at ht
  · cases ht
    exact h.setAcc c _
  · split at ht
    · cases ht
    · cases ht
      exact ((h.countReads _).raise _).setAcc c _

theorem execVproj_form (p : M) (h : MemForm s) : FormNext (execVproj p s) :=
  h.runV (stripChecks_form p _ _ (fun _ _ ht => rowLoop_form _ (fun _ _ _ hs e => projRow_form hs e) _ ht) h)

theorem MemForm.vpmergeRow (h : MemForm s) (d a : Nat) (tag : BitVec 16) (k : Nat) : MemForm (vpmergeRow s d a tag k) := by
  unfold Machine.vpmergeRow
  simp only
  split
  · exact h
  · exact h

theorem execVpmerge_form (p : R2) (h : MemForm s) : FormNext (execVpmerge p s) :=
  h.runV (h.checked (rowLoop_form_ok _ (fun _ _ hs => hs.vpmergeRow _ _ _ _) _ h))

theorem execVpfin_form (p : M) (h : MemForm s) : FormNext (execVpfin p s) :=
  h.runV (h.checked (h.checkedAt (h.noD (h.checked (h.storeRows _ _ _ _)))))

theorem gradRow_form {x : Strip} {c k : Nat} (h : MemForm s) (ht : gradRow x c k s = .ok t) : MemForm t := by
  unfold gradRow at ht
  split at ht
  · cases ht
  · cases ht
    exact ((h.countReads _).raise _).setUntagged c _

theorem execVpgrad_form (p : M) (h : MemForm s) : FormNext (execVpgrad p s) :=
  h.runV (stripChecks_form p _ _ (fun _ _ ht => rowLoop_form _ (fun _ _ _ hs e => gradRow_form hs e) _ ht) h)

end Sys2Proof.Machine
end

section
/-! PROOFS. The form of memory in every instruction and event. -/

namespace Sys2Proof.Machine

/-! ### Every instruction and event

The cases of `exec`, family by family. -/

/-- The scalar stream's own instructions. -/
theorem scalar_form {i : Instr} (hi : (standsBehind i || runsAhead i) = true) (hk : MemForm s) : FormNext (exec i s) := by
  cases i with
  | nop p => exact Res.Form.retire hk.ok
  | add p | sub p | mul p | mulh p | mulhsu p | div p | divu p | rem p | remu p | and p | or p | xor p | andn p | sll p | srl p
  | sra p | rol p | ror p | slt p | sltu p | min p | max p | minu p | maxu p | clz p | ctz p | popc p | sext p | zext p | liReg p
  | liLit32 p | liHn p | lea p | leaDisp p | sel p | bfx p | bfi p | fclass p | mshape p => exact Res.Form.retire (hk.setD _ _)
  | fadd p | fsub p | fmul p | fdiv p | fsqrt p | fmadd p | fmin p | fmax p | fcmp p | fcvt p =>
    exact Res.Form.retire ((hk.raise _).setD _ _)
  | bCc p => exact execBCc_form p hk
  | jShort p | jLong p | ret p => exact Res.Form.retire (hk.jumpTo _)
  | jalShort p | jalLong p => exact Res.Form.retire (hk.jumpLink _ _ _)
  | jr p => exact Res.Form.retire (hk.jumpLink _ _ _)
  | loop p => exact execLoop_form p hk
  | ld p => exact execLd_form p hk
  | st p => exact execSt_form p hk
  | pref p => exact execPref_form p hk
  | amo p => exact execAmo_form p hk
  | lr p => exact execLr_form p hk
  | sc p => exact execSc_form p hk
  | trap p => exact Res.Form.retire (hk.trapped _)
  | eret p => exact execEret_form p hk
  | srr p => exact execSrr_form p hk
  | srw p => exact execSrw_form p hk
  | pause p => exact execPause_form p hk
  | yield p => exact execYield_form p hk
  | wfev p => exact execWfev_form p hk
  | fenceSv p => exact execFenceSv_form p hk
  | fenceStk p => exact execFenceStk_form p hk
  | rel p => exact execRel_form p hk
  | acq p => exact execAcq_form p hk
  | vsave p => exact execVsave_form p hk
  | vrstr p => exact execVrstr_form p hk
  | frz p => exact execFrz_form p hk
  | eqclaim p => exact execEqclaim_form p hk
  | _ => cases hi

/-- The matrix engine's instructions. -/
theorem matrix_form {i : Instr} (hi : isMatrix i = true) (hk : MemForm s) : FormNext (exec i s) := by
  cases i with
  | mmaO p | mmaF p => exact hk.runV (mmaBody_form _ _ hk)
  | mgrpO p | mgrpF p => exact hk.runV (mgrpBody_form _ _ hk)
  | mzero p => exact execMzero_form p hk
  | mld p => exact execMld_form p hk
  | mst p => exact execMst_form p hk
  | mmovBodyToVec p | mmovStToVec p => exact hk.runV (mmovOut_form _ _ hk)
  | mmovVecToBody p | mmovVecToSt p => exact hk.runV (mmovIn_form _ _ hk)
  | mscale p => exact execMscale_form p hk
  | msoft p => exact execMsoft_form p hk
  | mmask p => exact execMmask_form p hk
  | mmerge p => exact execMmerge_form p hk
  | mfin p => exact execMfin_form p hk
  | vproj p => exact execVproj_form p hk
  | vpmerge p => exact execVpmerge_form p hk
  | vpfin p => exact execVpfin_form p hk
  | vpgrad p => exact execVpgrad_form p hk
  | _ => cases hi

/-- The far instructions. -/
theorem far_form {i : Instr} (hi : (farOf i).isSome = true) (hk : MemForm s) : FormNext (exec i s) := by
  cases i with
  | fVadd p | fVsub p | fVmul p | fVfma p | fVfms p | fVnfma p | fVmin p | fVmax p | fVabs p | fVneg p | fVcvt p | fViadd p | fVisub p
  | fVimul p | fVimulh p | fVand p | fVor p | fVxor p | fVshl p | fVshr p | fVsra p | fVimin p | fVimax p | fVred p | fVredo p
  | fVbcast p | fVld p | fVst p | fVlds p | fVsts p | fVldx p | fVstx p | fVamo p | fexpr p | fdot p | fred p | fget p | fput p
  | fattn p => exact runFar_form hk rfl
  | _ => cases hi

/-- The vector queue's other instructions. -/
theorem vector_form {i : Instr} (hi : (standsBehind i || runsAhead i || isMatrix i || (farOf i).isSome || i.isEvent) = false) (hk : MemForm s) :
    FormNext (exec i s) := by
  cases i with
  | vcfg p => exact execVcfg_form p hk
  | vsetl p => exact execVsetl_form p hk
  | vqlen p => exact execVqlen_form p hk
  | vbind p => exact execVbind_form p hk
  | vbindOff p => exact execVbindOff_form p hk
  | vspill p => exact execVspill_form p hk
  | vfill p => exact execVfill_form p hk
  | vadd p | vsub p | vmul p | vdiv p | vmin p | vmax p => exact float2V_form _ _ _ hk
  | vfma p | vfms p | vnfma p => exact float3V_form _ _ _ hk
  | vsqrt p | vrsqrt p | vexp2 p | vlog2 p | vabs p | vneg p => exact float1V_form _ _ _ hk
  | vcvt p => exact execVcvt_form p hk
  | vclass p => exact execVclass_form p hk
  | viadd p | visub p | vimul p | vimulh p | vand p | vor p | vxor p | vshl p | vshr p | vsra p | vimin p | vimax p =>
    exact int2V_form _ _ _ hk
  | vcmp p => exact execVcmp_form p hk
  | qand p | qor p => exact maskOp_form _ _ _ _ hk
  | qnot p => exact execQnot_form p hk
  | qpop p => exact execQpop_form p hk
  | qfirst p => exact execQfirst_form p hk
  | vsel p => exact execVsel_form p hk
  | viota p => exact execViota_form p hk
  | vred p => exact execVred_form p hk
  | vredo p => exact execVredo_form p hk
  | vscan p => exact execVscan_form p hk
  | vperm p | vslide p => exact permute_form _ _ _ _ hk
  | vcompress p => exact execVcompress_form p hk
  | vexpand p => exact execVexpand_form p hk
  | vbcast p => exact execVbcast_form p hk
  | vext p => exact execVext_form p hk
  | vins p => exact execVins_form p hk
  | vdupm p => exact execVdupm_form p hk
  | vsortk p => exact execVsortk_form p hk
  | vtopk p => exact execVtopk_form p hk
  | vld p => exact execVld_form p hk
  | vst p => exact execVst_form p hk
  | vlds p => exact execVlds_form p hk
  | vsts p => exact execVsts_form p hk
  | vldx p => exact execVldx_form p hk
  | vstx p => exact execVstx_form p hk
  | vldt p => exact execVldt_form p hk
  | vstt p => exact execVstt_form p hk
  | vamo p => exact execVamo_form p hk
  | vpref p => exact execVpref_form p hk
  | fVpref p => exact execFVpref_form p hk
  | tsend p => exact execTsend_form p hk
  | ttake p | tlook p => exact hk.runV (getVec_form _ _ hk)
  | ttakeM p | tlookM p => exact hk.runV (getMem_form _ _ hk)
  | tdrop p => exact execTdrop_form p hk
  | twait p => exact execTwait_form p hk
  | tmark p => exact execTmark_form p hk
  | nodeCopy p => exact execNodeCopy_form p hk
  | nodeCall p => exact execNodeCall_form p hk
  | nodeEdge p => exact execNodeEdge_form p hk
  | nodeArm p => exact execNodeArm_form p hk
  | nodeArmDone p => exact execNodeArmDone_form p hk
  | nodeWait p => exact execNodeWait_form p hk
  | publish p => exact execPublish_form p hk
  | hwpub p => exact execHwpub_form p hk
  | bar p => exact execBar_form p hk
  | barDom p => exact execBarDom_form p hk
  | kvmap p | kvapp p | kvxl p | kvxlE p | kvfork p | kvrel p | kvkeep p | kvpidx p | kvpidxIns p =>
    exact runKv_form hk rfl
  | kvscore p | kvtopk p => exact runKv_form hk rfl
  | _ => cases hi

/-- The events of the device. -/
theorem event_form {i : Instr} (hi : i.isEvent = true) (hk : MemForm s) : FormNext (exec i s) := by
  cases i with
  | pauseExpiry h => exact execPauseExpiry_form h hk
  | farRequestArrival n => exact execFarRequestArrival_form n hk
  | farCompletion n => exact execFarCompletion_form n hk
  | holdEntryRequest n => exact execHoldEntryRequest_form n hk
  | copyNodeStart m ix => exact execCopyNodeStart_form m ix hk
  | copyNodeFinish m ix => exact execCopyNodeFinish_form m ix hk
  | callNodeDelivery m ix => exact execCallNodeDelivery_form m ix hk
  | barDomMessage n => exact execBarDomMessage_form n hk
  | kvRemoteRequest n => exact execKvRemoteRequest_form n hk
  | remoteRequestArrival n | memoryAccessPerform h => exact (hk.arriveStore _).next
  | remoteStoreAck n => exact execRemoteStoreAck_form n hk
  | staleRefusal n => exact execStaleRefusal_form n hk
  | mscReadRequest loc => exact execMscReadRequest_form loc hk
  | mscWrite loc bytes readers => exact execMscWrite_form loc bytes readers hk
  | hostMemoryAccess m pa n write => exact execHostMemoryAccess_form m pa n write hk
  | hostQtailWrite m q tail => exact execHostQtailWrite_form m q tail hk
  | qcfgEnable m q v => exact execQcfgEnable_form m q v hk
  | qcfgDisable m q v => exact execQcfgDisable_form m q v hk
  | registerWrite m off v => exact execRegisterWrite_form m off v hk
  | schedulerPlace m want => exact execSchedulerPlace_form m want hk
  | headAgeExpiry m q => exact execHeadAgeExpiry_form m q hk
  | marchPacketReceive n want => exact execMarchPacketReceive_form n want hk
  | marchArrival n => exact execMarchArrival_form n hk
  | marchRelease n => exact execMarchRelease_form n hk
  | marchDisarm n => exact execMarchDisarm_form n hk
  | marchTimeout l rk => exact execMarchTimeout_form l rk hk
  | rankEndReport n => exact execRankEndReport_form n hk
  | launchCompletion l rk => exact execLaunchCompletion_form l rk hk
  | noticePost h deadline => exact execNoticePost_form h deadline hk
  | forcedPreemption h => exact execForcedPreemption_form h hk
  | launchSuspend l rk deadline => exact execLaunchSuspend_form l rk deadline hk
  | launchResume l rk cores want => exact execLaunchResume_form l rk cores want hk
  | watchdogFire h => exact execWatchdogFire_form h hk
  | deadlockCheck m => exact execDeadlockCheck_form m hk
  | errrecActResume m q => exact execErrrecActResume_form m q hk
  | errrecActAbort m q => exact execErrrecActAbort_form m q hk
  | errrecValidClear m q => exact execErrrecValidClear_form m q hk
  | domainActAbort m => exact execDomainActAbort_form m hk
  | errorRecordForward n => exact execErrorRecordForward_form n hk
  | actForward n => exact execActForward_form n hk
  | errcntClr m => exact execErrcntClr_form m hk
  | stackCountClr m st => exact execStackCountClr_form m st hk
  | xrelValidClear m => exact execXrelValidClear_form m hk
  | tapIdcode m | tapBypass m b => exact (hk.tapOut _ _).next
  | tapSolstat m => exact execTapSolstat_form m hk
  | tapSolsel m v => exact execTapSolsel_form m v hk
  | tapSoldata m => exact execTapSoldata_form m hk
  | tapSolfrz m => exact execTapSolfrz_form m hk
  | tapSolrst m | warmReset m => exact (hk.warmResetModule _).next
  | solsticeUnlock m req => exact execSolsticeUnlock_form m req hk
  | spdmRequest m req => exact execSpdmRequest_form m req hk
  | mboebFreeze m => exact execMboebFreeze_form m hk
  | powerOnBoot m image signature key version => exact execPowerOnBoot_form m image signature key version hk
  | d3hotEntry m => exact execD3hotEntry_form m hk
  | d0Return m => exact (hk.onMod _ _).next
  | powerRemoval m => exact execPowerRemoval_form m hk
  | thermalStepDown m temp => exact execThermalStepDown_form m temp hk
  | thermalTrip m temp => exact execThermalTrip_form m temp hk
  | vcoreRemoval m => exact execVcoreRemoval_form m hk
  | powerCapWindow m point => exact execPowerCapWindow_form m point hk
  | refreshCommand m st bank found => exact execRefreshCommand_form m st bank found hk
  | rowActivationAlert m st bank => exact execRowActivationAlert_form m st bank hk
  | activationBackoffEnd m st bank => exact execActivationBackoffEnd_form m st bank hk
  | droopVbaseLow m st => exact execDroopVbaseLow_form m st hk
  | droopStopEnd m st => exact execDroopStopEnd_form m st hk
  | patrolSweep m w found => exact execPatrolSweep_form m w found hk
  | bankCountCopy m st => exact execBankCountCopy_form m st hk
  | migrationTrigger m page src frame => exact execMigrationTrigger_form m page src frame hk
  | migrationHoldTimeout h => exact execMigrationHoldTimeout_form h hk
  | pageTierMigrate m src dst size => exact execPageTierMigrate_form m src dst size hk
  | autumnRun m root tier cls atp => exact execAutumnRun_form m root tier cls atp hk
  | constBankReload l rk ka kb image => exact execConstBankReload_form l rk ka kb image hk
  | tlbInvalidate m asid va len => exact execTlbInvalidate_form m asid va len hk
  | publishableSetup m asid va len image0 image1 dom => exact execPublishableSetup_form m asid va len image0 image1 dom hk
  | frzEnable l => exact (hk.onLaunch _ _).next
  | cxlExtentAccept m base len off => exact execCxlExtentAccept_form m base len off hk
  | cxlExtentRelease m off => exact execCxlExtentRelease_form m off hk
  | ualinkLinkError m p | ualinkPortFailure m p => exact (hk.onPort _ _ _).draw.next
  | rankLost m lost => exact execRankLost_form m lost hk
  | hostLinkDown m => exact execHostLinkDown_form m hk
  | hartResume h lanes => exact execHartResume_form h lanes hk
  | entryGrant n => exact execEntryGrant_form n hk
  | linkTrained m p => exact (hk.onPort _ _ _).next
  | hostLinkUp m => exact execHostLinkUp_form m hk
  | publishabilityWithdrawal m ix => exact execPublishabilityWithdrawal_form m ix hk
  | indexEntryRemoval m root bucket slot atp => exact execIndexEntryRemoval_form m root bucket slot atp hk
  | migratableMarkClear m page => exact execMigratableMarkClear_form m page hk
  | forcedExtentWithdrawal m off => exact execForcedExtentWithdrawal_form m off hk
  | _ => cases hi

/-- Every instruction and event keeps memory and the far banks in form. -/
theorem exec_form (i : Instr) (h : MemForm s) : FormNext (exec i s) := by
  cases he : i.isEvent with
  | true => exact event_form he h
  | false =>
    cases hs : standsBehind i || runsAhead i with
    | true => exact scalar_form hs h
    | false =>
      cases hm : isMatrix i with
      | true => exact matrix_form hm h
      | false =>
        cases hf : (farOf i).isSome with
        | true => exact far_form hf h
        | false => exact vector_form (by simp [hs, hm, hf, he]) h

end Sys2Proof.Machine
end

section
/-! PROOFS. The form of memory in a turn and in a step (O58). -/

namespace Sys2Proof.Machine

variable {s t : State}

/-! ### The queues -/

theorem MemForm.issued (h : MemForm s) (head : Half) (next : Word) : MemForm (s.issued head next) :=
  (h.fetchFill s.cur.pc.toNat).markFirst

theorem MemForm.describe (h : MemForm s) (e : QEntry) : MemForm (s.describe e).1 := by
  have ht := MemForm.countReads (s := s.asEntry e) h ((s.asEntry e).descriptors e.instr).2
  exact ht.cur _

theorem MemForm.describeAt (h : MemForm s) (n : Nat) : MemForm (s.describeAt n) := by
  unfold State.describeAt
  split
  · exact h
  · exact (h.describe _).cur _

theorem MemForm.moveOne (h : MemForm s) : MemForm s.moveOne := h.describeAt _

theorem MemForm.beginHead (h : MemForm s) : MemForm s.beginHead := by
  unfold State.beginHead
  extract_lets t
  have ht : MemForm t := .ite (h.describeAt 0) h
  have hs : MemForm t.serveEngine := ht.onMod _ _
  exact hs

theorem runHead_form (h : MemForm s) : FormNext (runHead s) := by
  unfold runHead
  split
  · exact h.next
  · exact exec_form _ (by exact h)

theorem queueTurn_form (e : QEntry) (h : MemForm s) : FormNext (queueTurn e s) := by
  have hm : MemForm (if s.cur.moved = 0 then s.moveOne else s) := .ite h.moveOne h
  exact .ite (Res.Form.retire (h.precise _ _ _)) (.ite (.ite (runHead_form hm.beginHead) hm.next) (runHead_form h))

/-! ### The turns -/

theorem issueOne_form (i : Instr) (h : MemForm s) : FormNext (issueOne i s) :=
  .ite (queueTurn_form _ (by exact h)) (exec_form i h)

theorem MemForm.fetchStop (h : MemForm s) {x : Res} (hx : fetch s = .stop x) : x.Form := by
  unfold fetch at hx
  simp only at hx
  split at hx
  · cases hx
    exact h.jumpTo 0
  · split at hx
    · cases hx
      exact h.noHead.precise _ _ _
    · split at hx
      · split at hx
        · cases hx
          exact h.noHead.precise _ _ _
        · cases hx
          exact h.noHead.trapped _
      · cases hx
        exact h
      · split at hx
        · cases hx
          exact h.noHead.trapped _
        · split at hx
          · cases hx
            exact h.noHead.precise _ _ _
          · split at hx
            · cases hx
              exact (h.atHead _).trapped _
            · split at hx
              · cases hx
                exact (h.atHead _).precise _ _ _
              · cases hx

theorem fetchTurn_form (h : MemForm s) : FormNext (fetchTurn s) := by
  unfold fetchTurn
  split
  · exact issueOne_form _ (h.issued _ _)
  · exact Res.Form.retire (h.fetchStop (by assumption))

theorem turn_form (h : MemForm s) : FormNext (turn s) := by
  refine .ite ?_ h.next
  split
  · exact .ite (fetchTurn_form h) (queueTurn_form _ h)
  · exact fetchTurn_form h

theorem laterTurn_form (h : MemForm s) : FormNext (laterTurn s) := by
  unfold laterTurn
  split
  · rename_i u hu
    exact MemForm.next (turn_form (by exact h) u hu)
  · exact turn_form (by exact h)

theorem overtakes_form (h : MemForm s) (ht : s.overtakes = some t) : MemForm t := by
  unfold State.overtakes at ht
  simp only at ht
  split at ht
  · split at ht
    · cases ht
      rename_i u hu hq
      have hk : MemForm u := runHead_form (s := s.bringForward s.cur.moved) h u hu
      exact hk
    · cases ht
  · cases ht

theorem MemForm.getD (h : MemForm s) {o : Option State} (ho : ∀ t, o = some t → MemForm t) : MemForm (o.getD s) := by
  cases o with
  | none => exact h
  | some t => exact ho t rfl

theorem vectorTurn_form (h : MemForm s) : FormNext (vectorTurn s) := by
  refine .ite h.next ?_
  split
  · exact h.next
  · exact .ite (.ite h.moveOne.next h.next) (.ite (queueTurn_form _ h) (.ite (h.getD fun _ ht => overtakes_form h ht).next h.next))

theorem aheadTurn_form (i : Instr) (h : MemForm s) (ht : MemForm t) : FormNext (aheadTurn i s t) := by
  unfold aheadTurn
  split
  · rename_i u hu
    exact .ite (MemForm.next (exec_form i (by exact ht) u hu)) h.next
  · exact exec_form i (by exact ht)

theorem issueTurn_form (h : MemForm s) : FormNext (issueTurn s) := by
  refine .ite h.next (.ite (turn_form h) ?_)
  split
  · exact .ite (Res.Form.retire (h.fetchStop (by assumption))) h.next
  · rename_i head next _
    have ht := h.issued head next
    exact .ite (.ite (exec_form _ ht) (.ite h.next (aheadTurn_form _ h ht))) (.ite h.next (MemForm.next ht))

/-! ### The step -/

theorem step_form (h : MemForm s) : FormNext (step s) := by
  have hs {rest : List Turn} : MemForm { s.ticked with agenda := rest } := h.ticked
  unfold step
  split
  · exact .ite (exec_form _ hs) hs.next
  · exact turn_form (hs.focus _)
  · exact issueTurn_form (hs.focus _)
  · exact laterTurn_form (hs.focus _)
  · exact vectorTurn_form (hs.focus _)
  · exact (hs.runAct _).next
  · exact turn_form h.ticked

/-- Settles O58: every operation that a step performs keeps memory and the far banks in form. -/
theorem stepKeepsMemoryForm : Obligations.StepKeepsMemoryForm := fun _ t ht hm hb => step_form ⟨hm, hb⟩ t ht

end Sys2Proof.Machine
end

section
/-! PROOFS. What the far point reads after a write (R140, R148 to R151): one at the near point leaves it, one at the far point leaves no newer
copy of the bytes written. -/

namespace Sys2Proof.Machine

variable {s : State}

/-! ### A write at the near point -/

/-- A fill of L2 changes no read at the far point (R138). -/
theorem farByte_fillCopy (s : State) (line x : Nat) : farByte (fillCopy s line) x = farByte s x := by
  unfold fillCopy
  split
  · rfl
  · split
    · by_cases hx : x / 128 = line
      · subst hx
        rw [← farLine_byte s x]
        simp only [farByte, Tbl.find_put_self]
      · simp only [farByte, Tbl.find_put_other hx, dramByte]
    · rfl

theorem dram_fillCopy (s : State) (line : Nat) : (fillCopy s line).dram = s.dram := by
  unfold fillCopy
  split
  · rfl
  · split <;> rfl

theorem farByte_foldl_fillCopy (lines : List Nat) (x : Nat) : ∀ s : State, farByte (lines.foldl fillCopy s) x = farByte s x := by
  induction lines with
  | nil => exact fun _ => rfl
  | cons l lines ih => exact fun s => (ih _).trans (farByte_fillCopy s l x)

theorem dram_foldl_fillCopy (lines : List Nat) : ∀ s : State, (lines.foldl fillCopy s).dram = s.dram := by
  induction lines with
  | nil => exact fun _ => rfl
  | cons l lines ih => exact fun s => (ih _).trans (dram_fillCopy s l)

/-- A write at the near point leaves the far point as it was (R148, R149). -/
theorem farByte_storeNear (s : State) (a : Nat) (bs : List Byte) (x : Nat) : farByte (storeNear s a bs) x = farByte s x :=
  farByte_foldl_fillCopy _ x (breakResvs s a bs.length)

theorem dramByte_storeNear (s : State) (a : Nat) (bs : List Byte) (x : Nat) : dramByte (storeNear s a bs) x = dramByte s x :=
  congrArg (Tbl.getD · x 0) (dram_foldl_fillCopy _ (breakResvs s a bs.length))

/-! ### A write at the far point -/

/-- A write-back takes the newer copies of its line and no other (R151). -/
theorem near_pushLine_eq (s : State) (line : Nat) : (pushLine s line).near = s.near.filter (fun c => !(c.1 / 128 == line)) := by
  unfold pushLine
  split
  · simp only [near_putFarLine]
  · rename_i hclean
    simp only [dirtyNear, List.any_eq_true, not_exists, not_and] at hclean
    exact (List.filter_eq_self.mpr fun c hc => by simpa using hclean c hc).symm

/-- What a recall leaves of the newer copies: those of the other lines (R151). -/
theorem find_near_recallLine (h : s.memOk) (line x : Nat) :
    Tbl.find x (recallLine s line).near = if x / 128 = line then none else Tbl.find x s.near := by
  obtain ⟨-, hrise, -⟩ := h
  rw [recallLine, near_dropCopies, near_pushLine_eq, List.filter_filter]
  simp only [Bool.and_self]
  rw [Tbl.find_filter (fun k => !(k / 128 == line)) hrise]
  by_cases hx : x / 128 = line <;> simp [hx]

theorem find_near_farStoreLine (h : s.memOk) (a : Nat) (bs : List Byte) (readers x : Nat) :
    Tbl.find x (farStoreLine s a bs readers).near = if x / 128 = a / 128 then none else Tbl.find x s.near := by
  rw [farStoreLine, mscWrite, near_putFarLine, find_near_recallLine h]

/-- The lines of a run of bytes, written one after another at the far point, leave no newer copy of the run, and none where there was none. -/
theorem find_near_byLines (readers f : Nat) {x : Nat} : ∀ {s : State} (a : Nat) (bs : List Byte), s.memOk →
    a % 128 + bs.length ≤ 128 * f → (a ≤ x ∧ x < a + bs.length) ∨ Tbl.find x s.near = none →
    Tbl.find x ((byLines f a bs).foldl (fun t c => farStoreLine t c.1 c.2 readers) s).near = none := by
  induction f with
  | zero =>
    intro s a bs _ hf hx
    exact hx.resolve_left (by omega)
  | succ f ih =>
    intro s a bs h hf hx
    rw [byLines]
    split
    · rename_i he
      exact hx.resolve_left (by simp [List.isEmpty_iff.mp he])
    · have hrest : (a + (128 - a % 128)) % 128 + (bs.drop (128 - a % 128)).length ≤ 128 * f := by rw [List.length_drop]; omega
      refine ih _ _ (memOk_farStoreLine h a _ readers) hrest ?_
      rw [find_near_farStoreLine h, List.length_drop]
      by_cases hline : x / 128 = a / 128
      · exact .inr (if_pos hline)
      · rw [if_neg hline]
        exact hx.imp_left fun ⟨h1, h2⟩ => ⟨by omega, by omega⟩

/-- Bytes written at the far point are what it reads (R151). -/
theorem farByte_storeFar_inside (h : s.memOk) (a : Nat) {bs : List Byte} (readers : Nat) {k : Nat} (hk : k < bs.length) :
    farByte (storeFar s a bs readers) (a + k) = bs[k] := by
  have hclean : Tbl.find (a + k) (storeFar s a bs readers).near = none :=
    find_near_byLines readers _ a bs (memOk_broken h a bs.length) (by omega) (.inl (by omega))
  have hnear := congrFun (nearByte_storeFar h a bs readers) (a + k)
  rw [overlay_inside hk, nearByte, hclean] at hnear
  exact hnear

/-- Settles O10: a write lays its bytes over what its point reads, and a write at the far point leaves no newer copy of them. -/
theorem writtenBytesReadBack : Obligations.WrittenBytesReadBack := by
  intro s a bs h
  refine ⟨fun k hk => ?_, fun x hx => ?_, fun x => ⟨farByte_storeNear s a bs x, dramByte_storeNear s a bs x⟩,
    fun readers => ⟨fun k hk => ⟨farByte_storeFar_inside h a readers hk, ?_⟩, fun x hx => ?_⟩⟩
  · exact (congrFun (nearByte_storeNear s a bs) _).trans (overlay_inside hk a _)
  · exact (congrFun (nearByte_storeNear s a bs) x).trans (overlay_outside hx _)
  · exact (congrFun (nearByte_storeFar h a bs readers) _).trans (overlay_inside hk a _)
  · exact (congrFun (nearByte_storeFar h a bs readers) x).trans (overlay_outside hx _)

end Sys2Proof.Machine
end

section
/-! PROOFS. Scalar accesses (R134, R147, R207 to R211): their addresses, how an access that is misaligned, that translates and that meets no
poison goes on, and what LD, ST and AMO then give. -/

namespace Sys2Proof.Machine

/-! ### Addresses and values -/

/-- A signed offset of n bits, as the spec and as the model write it (R207). -/
theorem word_signed {n : Nat} (hn : n ≤ 64) (v : BitVec n) : word (signed n v.toNat) = v.signExtend 64 := by
  rw [word_eq_ofInt, signed_toNat, ← BitVec.ofInt_toInt (x := v.signExtend 64), BitVec.toInt_signExtend_of_le hn]

theorem addrOf_signed {n : Nat} (hn : n ≤ 64) (base : Word) (v : BitVec n) :
    addrOf base (signed n v.toNat) = (base + v.signExtend 64).toNat := by
  rw [addrOf, word_signed hn]

/-- A loaded value, extended by its sign (R207). -/
theorem sext_eq_signExtend (w n : Nat) : sext w n = (BitVec.ofNat w n).signExtend 64 := by
  rw [sext, word_eq_ofInt, signed_eq_toInt]
  rfl

theorem length_readBytes (s : State) (far : Bool) (a n : Nat) : (readBytes s far a n).length = n := by
  rw [readBytes, List.length_map, length_upto]

theorem leNat_readBytes_lt (s : State) (far : Bool) (a n : Nat) : leNat (readBytes s far a n) < 2 ^ (8 * n) :=
  (leNat_lt _).trans_eq (by rw [length_readBytes])

/-- Byte k of a value (R4). -/
theorem getElem_leBytes {n k : Nat} : ∀ (v : Nat) (h : k < (leBytes n v).length), ((leBytes n v)[k]).toNat = v / 256 ^ k % 256 := by
  induction n generalizing k with
  | zero => exact fun v h => absurd h (Nat.not_lt_zero k)
  | succ n ih =>
    intro v h
    cases k with
    | zero => simp [leBytes]
    | succ k =>
      simp only [leBytes, List.getElem_cons_succ]
      rw [ih, Nat.div_div_eq_div_mul, Nat.pow_succ']

/-! ### The access -/

section
variable {s : State} {va n : Nat} {w : Want} {body : Phys → State → Res}

theorem scalarAccess_misaligned (h : va % n ≠ 0) : scalarAccess s va n w body = precise 0x04 0x01 (BitVec.ofNat 64 va) s := if_pos h

theorem scalarAccess_translated {q : Phys} (h : va % n = 0) (hq : s.translate va w = .ok q) :
    scalarAccess s va n w body = body q (s.settleFor false q) := by
  simp only [scalarAccess, h, ne_eq, not_true_eq_false, if_false, hq]

theorem scalarRead_clean {q : Phys} {n : Nat} {body : Nat → Res} (h : poisonedAt s q.uncached q.spot.loc n = none) :
    scalarRead s q n body = body (leNat (readBytes s q.uncached q.spot.loc n)) := by
  simp only [scalarRead, State.readPhys, Bool.false_or, h]

end

/-! ### Misaligned accesses -/

/-- A misaligned access is a precise exception whatever it would do (R147). -/
theorem exec_misaligned {i : Instr} {s : State} {va : Word}
    (h : (∃ p : L, i = .ld p ∧ va = s.src p.a + p.imm.signExtend 64 ∧ va.toNat % Machine.sizeOf p.sf ≠ 0) ∨
      (∃ p : S, i = .st p ∧ va = s.src p.a + p.imm.signExtend 64 ∧ va.toNat % Machine.sizeOf p.sf ≠ 0) ∨
      (∃ p : R3, i = .amo p ∧ va = s.src p.a + p.imm.signExtend 64 ∧ va.toNat % (if p.sf.getLsbD 3 then 4 else 8) ≠ 0) ∨
      (∃ p : R1, i = .lr p ∧ va = s.src p.a ∧ va.toNat % (if p.sf.getLsbD 0 then 4 else 8) ≠ 0) ∨
      ∃ p : R2, i = .sc p ∧ va = s.src p.a ∧ va.toNat % (if p.sf.getLsbD 0 then 4 else 8) ≠ 0) :
    exec i s = retire (precise 0x04 0x01 va s) := by
  have hva (v : Word) : BitVec.ofNat 64 v.toNat = v := by rw [BitVec.ofNat_toNat, BitVec.setWidth_eq]
  rcases h with ⟨p, rfl, rfl, h⟩ | ⟨p, rfl, rfl, h⟩ | ⟨p, rfl, rfl, h⟩ | ⟨p, rfl, rfl, h⟩ | ⟨p, rfl, rfl, h⟩
  · change execLd p s = _
    rw [execLd, addrOf_signed (by decide), scalarAccess_misaligned h, hva]
  · change execSt p s = _
    rw [execSt, addrOf_signed (by decide), scalarAccess_misaligned h, hva]
  · change execAmo p s = _
    rw [execAmo, addrOf_signed (by decide)]
    simp only [bit_toNat]
    rw [scalarAccess_misaligned h, hva]
  · change execLr p s = _
    rw [execLr]
    simp only [bit_toNat]
    rw [scalarAccess_misaligned h, hva]
  · change execSc p s = _
    rw [execSc]
    simp only [bit_toNat, if_pos h, scalarAccess_misaligned h, hva]
    split <;> rfl

/-- Settles O13: a misaligned access is a precise exception on route H, which enters the handler. -/
theorem misalignedScalarAccessTraps : Obligations.MisalignedScalarAccessTraps := by
  intro i s va h hm hv
  obtain ⟨t, ht, hpc, -, -, hhm, himp, hcause, htval, htepc, -, hhead, -, -, -, -, -, -, -, -, -, -, -, -, hg, hvec, hfl, hmem, hoth⟩ :=
    retire_precise_enters (s := s) (c := 0x04) (k := 0x01) va hm hv (by decide) (by decide)
  exact ⟨t, (exec_misaligned h).trans ht, hpc, hcause, htval, htepc, hhead, hhm, himp, hg, hvec, hfl, hmem, hoth⟩

end Sys2Proof.Machine
end

section
/-! PROOFS. LD, ST and AMO complete with their value and their write (R160, R166, R207, R208, R210). -/

namespace Sys2Proof.Machine

/-! ### Posted stores performed before an access leave the hart -/

theorem keepsHart_settleFor (s : State) (vec : Bool) (p : Phys) : KeepsHart s (s.settleFor vec p) := keepsHart_settleRuns [(p, 0)] vec s

theorem settleFor_mod (s : State) (vec : Bool) (p : Phys) : (s.settleFor vec p).cur.mod = s.cur.mod := by
  obtain ⟨r, hr⟩ := keepsHart_settleFor s vec p
  rw [hr]

theorem settleFor_later (s : State) (vec : Bool) (p : Phys) : (s.settleFor vec p).cur.later = s.cur.later := by
  obtain ⟨r, hr⟩ := keepsHart_settleFor s vec p
  rw [hr]

/-! ### Completion -/

@[simp] theorem State.completed_byteAt (s : State) : s.completed.byteAt = s.byteAt := rfl

@[simp] theorem farByte_completed (s : State) (a : Nat) : farByte s.completed a = farByte s a := rfl

/-! ### A write that performs now -/

/-- The L1 line that a scalar write leaves is no byte of memory (R134). -/
theorem byteAt_writeL1 (s : State) (m c a : Nat) (put : State → State) : (s.writeL1 m c a put).byteAt = (put s).byteAt := by
  unfold State.writeL1
  simp only
  split <;> rfl

theorem byteAt_putScalar {s : State} (h : s.memOk) (p : Phys) (bs : List Byte) :
    (s.putScalar p bs).byteAt = overlay p.spot.loc bs s.byteAt := by
  unfold State.putScalar
  split
  · rw [byteAt_writeL1, byteAt_putPhys h]
  · exact byteAt_putPhys h p bs 0

/-- A scalar write to the hart's own module performs now unless the hart's stores are posted in this turn; one to D memory always (R152, R166). -/
theorem State.writePhys_scalar_own {s : State} {p : Phys} (hm : p.spot.m = s.cur.mod) (hl : s.cur.later = false ∨ p.dclass = true)
    (va : Word) (bs : List Byte) : s.writePhys false va p bs 0 = s.putScalar p bs := by
  rcases hl with hl | hl <;> simp [State.writePhys, hm, hl]

/-! ### LD -/

theorem loadResults : LoadResults := by
  intro p s q n va u halign hq hclean v
  have hv : (if bit p.sf.toNat 2 then BitVec.ofNat 64 (leNat (readBytes u q.uncached q.spot.loc n))
      else sext (8 * n) (leNat (readBytes u q.uncached q.spot.loc n))) = if p.sf.getLsbD 2 then v.setWidth 64 else v.signExtend 64 := by
    rw [bit_toNat, sext_eq_signExtend]
    congr 1
    apply BitVec.eq_of_toNat_eq
    rw [BitVec.toNat_setWidth, BitVec.toNat_ofNat, BitVec.toNat_ofNat, Nat.mod_eq_of_lt (leNat_readBytes_lt ..)]
  change execLd p s = _
  rw [execLd, addrOf_signed (by decide), scalarAccess_translated halign hq, scalarRead_clean hclean, hv]
  rfl

/-! ### ST -/

theorem storeResults : StoreResults := by
  intro p s q n va halign hq
  have hexec : exec (.st p) s = .next ((s.settleFor false q).writePhys false va q (leBytes n (s.src p.b).toNat) 0).completed := by
    change execSt p s = _
    rw [execSt, addrOf_signed (by decide), scalarAccess_translated halign hq, BitVec.ofNat_toNat, BitVec.setWidth_eq]
    rfl
  refine ⟨hexec, fun hm hl hmem => ⟨_, hexec, fun k hk => ?_⟩⟩
  rw [State.writePhys_scalar_own (hm.trans (settleFor_mod s false q).symm) (.inl ((settleFor_later s false q).trans hl))]
  have hlen : k < (leBytes n (s.src p.b).toNat).length := by rwa [length_leBytes]
  have hbyte := congrFun (byteAt_putScalar (memOk_settleFor hmem false q) q (leBytes n (s.src p.b).toNat)) (q.spot.loc + k)
  rw [State.completed_byteAt, hbyte, overlay_inside hlen, getElem_leBytes]

/-! ### AMO -/

/-- An operand at the width of an atomic's access (R210). -/
theorem ofInt_toInt_eq_setWidth {w : Nat} (hw : w ≤ 64) (v : Word) : BitVec.ofInt w v.toInt = v.setWidth w :=
  BitVec.signExtend_eq_setWidth_of_le v hw

/-- What an atomic writes of its old value and its operands, as patterns of its width; nothing where the comparison of CAS fails (R210). -/
theorem map_wrap_amoNew {w : Nat} (hw : w ≤ 64) (op : Nat) (x : BitVec w) (b c : Word) :
    (amoNew op w x.toInt b.toInt c.toInt).map (wrap w) = (amoWrites op x (b.setWidth w) (c.setWidth w)).map BitVec.toNat := by
  have hx : wrap w x.toInt = x.toNat := by rw [wrap_eq_toNat, BitVec.ofInt_toInt]
  have hwide (v : Word) : wrap w v.toInt = (v.setWidth w).toNat := by rw [wrap_eq_toNat, ofInt_toInt_eq_setWidth hw]
  have hnat (y : BitVec w) : wrap w (y.toNat : Int) = y.toNat := by rw [wrap_eq_toNat, BitVec.ofInt_natCast, BitVec.ofNat_toNat, BitVec.setWidth_eq]
  unfold amoNew
  split
  · simp [amoWrites, wrap_eq_toNat, BitVec.ofInt_add, ofInt_toInt_eq_setWidth hw]
  · simp [amoWrites, hwide]
  · simp only [amoWrites, hx, hwide, BitVec.toNat_inj]
    split <;> simp [*]
  · simp only [amoWrites, hx, hwide, signed_toNat, ← BitVec.sle_iff_toInt_le]
    split <;> simp [*]
  · simp only [amoWrites, hx, hwide, signed_toNat, ← BitVec.sle_iff_toInt_le]
    split <;> simp [*]
  · simp [amoWrites, hx, hwide, ← BitVec.toNat_and, hnat, -BitVec.toNat_setWidth]
  · simp [amoWrites, hx, hwide, ← BitVec.toNat_or, hnat, -BitVec.toNat_setWidth]
  · rename_i h0 h1 h2 h3 h4 h5 h6
    simp [amoWrites, if_neg h0, if_neg h1, if_neg h2, if_neg h3, if_neg h4, if_neg h5, if_neg h6, hx, hwide, ← BitVec.toNat_xor, hnat,
      -BitVec.toNat_setWidth]

theorem atomicResults : AtomicResults := by
  intro p s q n hn va halign hq u hclean old
  have hw : 8 * n ≤ 64 := by rw [hn]; split <;> decide
  have hold : signed (8 * n) (leNat (readBytes u q.uncached q.spot.loc n)) = old.toInt := signed_eq_toInt _ _
  have hnew := map_wrap_amoNew hw (p.sf.toNat % 8) old (s.src p.b) (s.src p.c)
  change execAmo p s = _
  rw [execAmo, addrOf_signed (by decide)]
  simp only [bit_toNat, ← hn]
  rw [scalarAccess_translated halign hq, scalarRead_clean hclean, hold, word_eq_ofInt]
  cases hx : amoNew (p.sf.toNat % 8) (8 * n) old.toInt (s.src p.b).toInt (s.src p.c).toInt with
  | none =>
    rw [hx, Option.map_none] at hnew
    rw [Option.map_eq_none_iff.mp hnew.symm]
    rfl
  | some x =>
    rw [hx, Option.map_some] at hnew
    obtain ⟨y, hy, hyx⟩ := Option.map_eq_some_iff.mp hnew.symm
    rw [hy]
    simp only [hyx]
    rfl

/-- Settles O9: each access is its read or its write at the translated address. -/
theorem scalarMemoryResults : Obligations.ScalarMemoryResults := ⟨loadResults, storeResults, atomicResults⟩

end Sys2Proof.Machine
end

section
/-! PROOFS. What a read request leaves of the bytes: of a line of which no memory-side cache counts readers, all (R138, R140, R141). -/

namespace Sys2Proof.Machine

/-! ### A line of a memory-side cache, changed in place -/

/-- The far point reads a line by its bytes alone, whatever its count and its on-chip bit (R140, R150). -/
theorem farByte_putLine {s : State} {line : Nat} {l : MscLine} (hl : l.data = (farLine s line).data) (x : Nat) :
    farByte { s with msc := Tbl.put line l s.msc } x = farByte s x := by
  by_cases hx : x / 128 = line
  · subst hx
    rw [← farLine_byte s x]
    simp only [farByte, Tbl.find_put_self, hl]
  · simp only [farByte, Tbl.find_put_other hx, dramByte]

theorem byteAt_putLine {s : State} {line : Nat} {l : MscLine} (hl : l.data = (farLine s line).data) (x : Nat) :
    State.byteAt { s with msc := Tbl.put line l s.msc } x = s.byteAt x :=
  congrArg ((Tbl.find x s.near).getD ·) (farByte_putLine hl x)

/-! ### A recall and a drop of another line -/

section
variable {line k : Nat} (hk : k ≠ line) (s : State)
include hk

theorem find_msc_putFarLine_other (l : MscLine) : Tbl.find k (putFarLine s line l).msc = Tbl.find k s.msc := by
  unfold putFarLine
  split
  · exact Tbl.find_put_other hk _ _
  · rfl

theorem find_msc_pushLine_other : Tbl.find k (pushLine s line).msc = Tbl.find k s.msc := by
  unfold pushLine
  split
  · exact find_msc_putFarLine_other hk s _
  · rfl

theorem find_msc_dropCopies_other : Tbl.find k (dropCopies s line).msc = Tbl.find k s.msc := by
  change Tbl.find k (setOnChip s line false).msc = _
  unfold setOnChip
  split
  · exact Tbl.find_put_other hk _ _
  · rfl

theorem find_msc_recallLine_other : Tbl.find k (recallLine s line).msc = Tbl.find k s.msc :=
  (find_msc_dropCopies_other hk _).trans (find_msc_pushLine_other hk s)

end

theorem farByte_dropCopies (s : State) (line x : Nat) : farByte (dropCopies s line) x = farByte s x := farByte_setOnChip line false x

/-- A line dropped from every cache leaves the bytes of the others (R141). -/
theorem byteAt_dropped {s : State} (h : s.memOk) {line x : Nat} (hx : x / 128 ≠ line) :
    State.byteAt { dropCopies s line with msc := Tbl.del line (dropCopies s line).msc } x = s.byteAt x := by
  obtain ⟨-, -, hmsc, -⟩ := (memStep_dropCopies s line).2 h
  obtain ⟨-, hrise, -⟩ := h
  have hfar : farByte { dropCopies s line with msc := Tbl.del line (dropCopies s line).msc } x = farByte s x := by
    rw [← farByte_dropCopies s line x]
    simp only [farByte, Tbl.find_del_other hmsc hx, dramByte]
  change (Tbl.find x (dropCopies s line).near).getD _ = _
  rw [hfar, near_dropCopies, Tbl.find_filter (fun k => !(k / 128 == line)) hrise]
  simp [hx, State.byteAt, nearByte]

/-- The L1 line that a scalar read leaves is no byte of memory (R134). -/
theorem byteAt_readL1 (s : State) (m c a : Nat) : (s.readL1 m c a).byteAt = s.byteAt := by
  unfold State.readL1
  split <;> rfl

/-! ### Read requests -/

/-- No memory-side cache counts readers of a line (R141). -/
def State.uncounted (s : State) (line : Nat) : Prop := ∀ l, Tbl.find line s.msc = some l → l.count = 0

theorem farLine_count_of_uncounted {s : State} {line : Nat} (h : s.uncounted line) : (farLine s line).count = 0 := by
  unfold farLine
  cases hf : Tbl.find line s.msc with
  | none => rfl
  | some l => exact h l hf

/-- Read requests have left a byte and its line, of which no readers are counted, as they were. -/
structure LeavesByte (x : Nat) (s t : State) : Prop where
  form : t.memOk
  byte : t.byteAt x = s.byteAt x
  uncounted : t.uncounted (x / 128)

theorem LeavesByte.refl {s : State} {x : Nat} (h : s.memOk) (hu : s.uncounted (x / 128)) : LeavesByte x s s := ⟨h, rfl, hu⟩

theorem LeavesByte.trans {s t u : State} {x : Nat} (h : LeavesByte x s t) (k : LeavesByte x t u) : LeavesByte x s u :=
  ⟨k.form, k.byte.trans h.byte, k.uncounted⟩

theorem LeavesByte.foldl {β : Type} {x : Nat} {f : State → β → State}
    (hf : ∀ t b, t.memOk → t.uncounted (x / 128) → LeavesByte x t (f t b)) :
    ∀ (l : List β) (s : State), s.memOk → s.uncounted (x / 128) → LeavesByte x s (l.foldl f s)
  | [], _, h, hu => .refl h hu
  | b :: l, s, h, hu =>
    have hb := hf s b h hu
    hb.trans (foldl hf l (f s b) hb.form hb.uncounted)

section
variable {s : State} {x : Nat} (h : s.memOk) (hu : s.uncounted (x / 128))
include h hu

theorem leavesByte_putLine {line : Nat} {l : MscLine} (hb : locHbm (128 * line) = true) (hd : l.data = (farLine s line).data)
    (hc : x / 128 = line → l.count = 0) : LeavesByte x s { s with msc := Tbl.put line l s.msc } := by
  refine ⟨(memStep_putLine s line l fun h => ⟨hd ▸ farLine_length h line, hb⟩).2 h, byteAt_putLine hd x, fun l' hf => ?_⟩
  by_cases hx : x / 128 = line
  · subst hx
    change Tbl.find _ (Tbl.put _ _ _) = _ at hf
    rw [Tbl.find_put_self] at hf
    exact Option.some.inj hf ▸ hc rfl
  · change Tbl.find _ (Tbl.put _ _ _) = _ at hf
    rw [Tbl.find_put_other hx] at hf
    exact hu l' hf

theorem leavesByte_mscRead (line : Nat) : LeavesByte x s (mscRead s line) := by
  have hother (hc : (farLine s line).count ≠ 0) : x / 128 ≠ line := fun e => hc (farLine_count_of_uncounted (e ▸ hu))
  have hcount (e : x / 128 = line) : (farLine s line).count = 0 := farLine_count_of_uncounted (e ▸ hu)
  have hform := (memStep_mscRead s line).2 h
  revert hform
  unfold mscRead
  split
  · rename_i hb
    simp only
    split
    · exact fun _ => leavesByte_putLine h hu hb rfl hcount
    · rename_i hcounts
      split
      · rename_i hone
        have hx : x / 128 ≠ line := hother (by rw [hone]; decide)
        split
        · exact fun hform => ⟨hform, nearByte_recallLine h line x, fun l hf => hu l (find_msc_recallLine_other hx s ▸ hf)⟩
        · obtain ⟨-, -, hmsc, -⟩ := (memStep_dropCopies s line).2 h
          refine fun hform => ⟨hform, byteAt_dropped h hx, fun l hf => hu l ?_⟩
          rw [← find_msc_dropCopies_other hx s, ← Tbl.find_del_other hmsc hx]
          exact hf
      · exact fun _ => leavesByte_putLine h hu hb rfl fun e => absurd (.inl (hcount e)) hcounts
  · exact fun _ => .refl h hu

theorem leavesByte_fillCopy (line : Nat) : LeavesByte x s (fillCopy s line) := by
  refine ⟨(memStep_fillCopy s line).2 h, nearByte_fillCopy line x, ?_⟩
  unfold fillCopy
  split
  · exact hu
  · split
    · rename_i hb
      exact (leavesByte_putLine h hu hb (l := { farLine s line with onChip := true }) rfl
        fun e => farLine_count_of_uncounted (e ▸ hu)).uncounted
    · exact hu

theorem leavesByte_fillRead (replay : Bool) (line : Nat) : LeavesByte x s (fillRead s replay line) := by
  unfold fillRead
  split
  · exact .refl h hu
  · split
    · exact leavesByte_mscRead h hu line
    · cases replay
      · have hread := leavesByte_mscRead h hu line
        exact hread.trans (leavesByte_fillCopy hread.form hread.uncounted line)
      · exact leavesByte_fillCopy h hu line

theorem leavesByte_nearRead (replay uncached : Bool) (line : Nat) : LeavesByte x s (nearRead s replay uncached line) := by
  unfold nearRead
  split
  · cases replay
    · exact leavesByte_mscRead h hu line
    · exact .refl h hu
  · exact leavesByte_fillRead h hu replay line

theorem leavesByte_readReqs (reqs : List Nat) : LeavesByte x s (readReqs s reqs) :=
  LeavesByte.foldl (fun _ _ ht htu => leavesByte_nearRead ht htu _ _ _) _ s h hu

/-- A scalar read of whatever line leaves the byte (R141). -/
theorem byteAt_scalarReadDone (p : Phys) : (s.scalarReadDone p).byteAt x = s.byteAt x := by
  refine Eq.trans ?_ (leavesByte_readReqs h hu [p.req]).byte
  unfold State.scalarReadDone
  simp only
  split
  · exact congrFun (byteAt_readL1 ..) x
  · rfl

end

end Sys2Proof.Machine
end

section
/-! PROOFS. What the scalar loads, stores and atomics leave as it was (R166, R207 to R211). -/

namespace Sys2Proof.Machine

/-! ### The hart's posted stores -/

theorem Msg.storeOf_of_storeOn {i : HartId} {vec : Bool} {x : Msg} (h : Msg.storeOn i vec x = true) : Msg.storeOf i x = true := by
  cases x <;> simp_all [Msg.storeOn, Msg.storeOf]

theorem storeOn_of_not_posted {s : State} (h : s.posted = false) (vec : Bool) {x : Msg} (hx : x ∈ s.fabric) :
    Msg.storeOn s.cur.id vec x = false :=
  Bool.eq_false_iff.mpr fun hon => List.any_eq_false.mp h x hx (Msg.storeOf_of_storeOn hon)

theorem settleOn_of_not_posted {s : State} (h : s.posted = false) (vec : Bool) : s.settleOn vec = s :=
  if_neg (by simpa using fun x hx => storeOn_of_not_posted h vec hx)

/-- An access waits for no store where the hart has none posted (R152, R166). -/
theorem settleFor_of_not_posted {s : State} (h : s.posted = false) (vec : Bool) (p : Phys) : s.settleFor vec p = s := by
  simp [State.settleFor, State.settle, settleOn_of_not_posted h, h]

/-! ### Writes that perform now -/

theorem keepsHart_putScalar {s : State} (h : s.memOk) (p : Phys) (bs : List Byte) : KeepsHart s (s.putScalar p bs) := by
  have hput := (wrote_putPhys h p bs 0).hart
  unfold State.putScalar
  split
  · exact hput.trans (.of_cur (writeL1_cur ..))
  · exact hput

/-- A scalar write leaves every byte but its own (R148, R151). -/
theorem byteAt_putScalar_outside {s : State} (h : s.memOk) (p : Phys) (n v : Nat) {x : Nat}
    (hx : x < p.spot.loc ∨ p.spot.loc + n ≤ x) : (s.putScalar p (leBytes n v)).byteAt x = s.byteAt x := by
  rw [byteAt_putScalar h]
  exact overlay_outside (by rwa [length_leBytes]) _

/-- Any other scalar write is posted: one message more in the fabric (R152, R166). -/
theorem State.writePhys_posted {s : State} {p : Phys} (h : ¬ (p.spot.m = s.cur.mod ∧ (s.cur.later = false ∨ p.dclass = true))) (va : Word)
    (bs : List Byte) : ∃ m u, s.writePhys false va p bs 0 = { s with fabric := s.fabric ++ [m], cur := { s.cur with unacked := u } } := by
  unfold State.writePhys
  split
  · exact ⟨_, _, rfl⟩
  · rename_i hm
    rw [if_pos]
    · exact ⟨_, s.cur.unacked, rfl⟩
    · simpa [not_not.mp hm] using h

/-! ### The registers -/

/-- What the scalar accesses leave of the hart: all but one general register and the reservation. -/
structure KeepsAllBut (d : Fin 32) (s t : State) : Prop where
  general : sameGBut d s t
  vector : sameVec s t
  flags : sameFlags s t
  trap : t.cur.trap = s.cur.trap
  accs : t.cur.accs = s.cur.accs
  cfg : t.cur.cfg = s.cur.cfg
  atp : t.cur.atp = s.cur.atp

/-- A result in gd, after what leaves the hart but for its reservation. -/
theorem keepsAllBut_setG {s u : State} (h : KeepsHart s u) (d : Fin 32) (v : Word) : KeepsAllBut d s (u.setG d v).completed := by
  obtain ⟨r, hr⟩ := h
  obtain ⟨hg, hv, ⟨haccs, hcfg, -, -, hatp, htrap, -⟩, hf, -⟩ := onlyWrites_setG_completed u d v
  simp only [sameGBut, sameVec, sameFlags, hr] at hg hv hf haccs hcfg hatp htrap
  exact ⟨hg, hv, hf, htrap, haccs, hcfg, hatp⟩

/-! ### The accesses -/

section
variable {s t : State} {q : Phys} (hmem : s.memOk) (hposted : s.posted = false)
include hmem hposted

theorem ld_frame {p : L} (halign : (s.src p.a + p.imm.signExtend 64).toNat % Machine.sizeOf p.sf = 0)
    (hq : s.translate (s.src p.a + p.imm.signExtend 64).toNat .load = .ok q)
    (hclean : poisonedAt s q.uncached q.spot.loc (Machine.sizeOf p.sf) = none) (ht : exec (.ld p) s = .next t) :
    sameGBut (gd p.d) s t ∧ sameVec s t ∧ sameSpecial s t ∧ sameFlags s t ∧ ∀ x, s.uncounted (x / 128) → t.byteAt x = s.byteAt x := by
  have hsettled := settleFor_of_not_posted hposted false q
  have hld := loadResults p s q halign hq (by rwa [hsettled])
  simp only [hsettled] at hld
  have hcur := (memStep_scalarReadDone s q).cur
  cases hld.symm.trans ht
  obtain ⟨hg, hv, hsp, hf, hm, -⟩ := onlyWrites_setG_completed (s.scalarReadDone q) (gd p.d) _
  simp only [sameGBut, sameVec, sameSpecial, sameFlags, hcur] at hg hv hsp hf
  exact ⟨hg, hv, hsp, hf, fun x hx => (hm x).1.trans (byteAt_scalarReadDone hmem hx q)⟩

theorem lr_frame {p : R1} {n : Nat} (hn : n = if p.sf.getLsbD 0 then 4 else 8) (halign : (s.src p.a).toNat % n = 0)
    (hq : s.translate (s.src p.a).toNat .load = .ok q) (hclean : poisonedAt s q.uncached q.spot.loc n = none)
    (ht : exec (.lr p) s = .next t) : KeepsAllBut (gd p.d) s t ∧ ∀ x, s.uncounted (x / 128) → t.byteAt x = s.byteAt x := by
  change execLr p s = _ at ht
  rw [execLr] at ht
  simp only [bit_toNat, ← hn] at ht
  rw [scalarAccess_translated halign hq, settleFor_of_not_posted hposted, scalarRead_clean hclean] at ht
  cases ht
  have hhart : KeepsHart s { s.scalarReadDone q with cur := { (s.scalarReadDone q).cur with resv := some (q.spot.loc / 8) } } :=
    ⟨_, by rw [(memStep_scalarReadDone s q).cur]⟩
  exact ⟨keepsAllBut_setG hhart _ _, fun x hx => byteAt_scalarReadDone hmem hx q⟩

theorem st_frame {p : S} (halign : (s.src p.a + p.imm.signExtend 64).toNat % Machine.sizeOf p.sf = 0)
    (hq : s.translate (s.src p.a + p.imm.signExtend 64).toNat .store = .ok q) (ht : exec (.st p) s = .next t) :
    (sameG s t ∧ sameVec s t ∧ sameFlags s t ∧ t.cur.trap = s.cur.trap ∧ t.cur.accs = s.cur.accs) ∧
    (q.spot.m = s.cur.mod ∧ (s.cur.later = false ∨ q.dclass = true) →
      ∀ x, x < q.spot.loc ∨ q.spot.loc + Machine.sizeOf p.sf ≤ x → t.byteAt x = s.byteAt x) ∧
    (q.spot.m ≠ s.cur.mod ∨ (s.cur.later = true ∧ q.dclass = false) → sameMemory s t ∧ ∃ m, t.fabric = s.fabric ++ [m]) := by
  obtain ⟨hst, -⟩ := storeResults p s q halign hq
  rw [settleFor_of_not_posted hposted] at hst
  cases hst.symm.trans ht
  by_cases hown : q.spot.m = s.cur.mod ∧ (s.cur.later = false ∨ q.dclass = true)
  · obtain ⟨r, hr⟩ := keepsHart_putScalar hmem q (leBytes (Machine.sizeOf p.sf) (s.src p.b).toNat)
    rw [State.writePhys_scalar_own hown.1 hown.2, State.completed_byteAt]
    refine ⟨⟨sameG_of_eq (by simp [hr]), by simp [sameVec, hr], by simp [sameFlags, hr], by simp [hr], by simp [hr]⟩,
      fun _ x hx => byteAt_putScalar_outside hmem q _ _ hx, fun hposts => ?_⟩
    obtain ⟨hm, hnow⟩ := hown
    obtain ⟨hlater, hclass⟩ := hposts.resolve_left (not_not.mpr hm)
    simp [hlater, hclass] at hnow
  · obtain ⟨m, u, hw⟩ := State.writePhys_posted hown (s.src p.a + p.imm.signExtend 64)
      (leBytes (Machine.sizeOf p.sf) (s.src p.b).toNat)
    rw [hw]
    exact ⟨⟨fun _ => rfl, ⟨rfl, rfl⟩, rfl, rfl, rfl⟩, fun h => absurd h hown, fun _ => ⟨fun _ => ⟨rfl, rfl, rfl⟩, m, rfl⟩⟩

theorem sc_frame {p : R2} {n : Nat} (hn : n = if p.sf.getLsbD 0 then 4 else 8) (halign : (s.src p.a).toNat % n = 0)
    (hq : s.translate (s.src p.a).toNat .store = .ok q) (ht : exec (.sc p) s = .next t) :
    (sameGBut (gd p.d) s t ∧ sameVec s t ∧ sameFlags s t ∧ t.cur.trap = s.cur.trap ∧ t.cur.accs = s.cur.accs) ∧
    ∀ x, x < q.spot.loc ∨ q.spot.loc + n ≤ x → t.byteAt x = s.byteAt x := by
  change execSc p s = _ at ht
  rw [execSc] at ht
  simp only [bit_toNat, ← hn, halign, ne_eq, not_true_eq_false, if_false, scalarAccess_translated halign hq,
    settleFor_of_not_posted hposted] at ht
  have hfail : ∀ {t}, retire (State.setD { s with cur := { s.cur with resv := none } } p.d 1) = .next t →
      (sameGBut (gd p.d) s t ∧ sameVec s t ∧ sameFlags s t ∧ t.cur.trap = s.cur.trap ∧ t.cur.accs = s.cur.accs) ∧
      ∀ x, x < q.spot.loc ∨ q.spot.loc + n ≤ x → t.byteAt x = s.byteAt x := by
    rintro _ ⟨⟩
    obtain ⟨hg, hv, hf, htrap, haccs, -⟩ := keepsAllBut_setG (s := s)
      (u := { s with cur := { s.cur with resv := none } }) ⟨none, rfl⟩ (gd p.d) 1
    exact ⟨⟨hg, hv, hf, htrap, haccs⟩, fun _ _ => rfl⟩
  split at ht
  · exact hfail ht
  · split at ht
    · cases ht
      exact ⟨⟨fun _ _ => rfl, ⟨rfl, rfl⟩, rfl, rfl, rfl⟩, fun _ _ => rfl⟩
    · split at ht
      · cases ht
        obtain ⟨r, hr⟩ := keepsHart_putScalar hmem q (leBytes n (s.src p.b).toNat)
        obtain ⟨hg, hv, hf, htrap, haccs, -⟩ := keepsAllBut_setG (s := s)
          (u := { s.putScalar q (leBytes n (s.src p.b).toNat) with cur := { (s.putScalar q (leBytes n (s.src p.b).toNat)).cur with resv := none } })
          ⟨none, by rw [hr]⟩ (gd p.d) 0
        exact ⟨⟨hg, hv, hf, htrap, haccs⟩, fun x hx => byteAt_putScalar_outside hmem q n _ hx⟩
      · exact hfail ht

theorem amo_frame {p : R3} {n : Nat} (hn : n = if p.sf.getLsbD 3 then 4 else 8)
    (halign : (s.src p.a + p.imm.signExtend 64).toNat % n = 0)
    (hq : s.translate (s.src p.a + p.imm.signExtend 64).toNat .amo = .ok q)
    (hclean : poisonedAt s q.uncached q.spot.loc n = none) (ht : exec (.amo p) s = .next t) :
    KeepsAllBut (gd p.d) s t ∧ ∀ x, x < q.spot.loc ∨ q.spot.loc + n ≤ x → t.byteAt x = s.byteAt x := by
  have hsettled := settleFor_of_not_posted hposted false q
  have hamo := atomicResults p s q n hn halign hq (by rwa [hsettled])
  simp only [hsettled] at hamo
  cases hamo.symm.trans ht
  split
  · exact ⟨keepsAllBut_setG (keepsHart_putScalar hmem q _) _ _, fun x hx => byteAt_putScalar_outside hmem q n _ hx⟩
  · split
    · refine ⟨keepsAllBut_setG (.of_cur ((memStep_fillCopy s _).trans (memStep_readL1 ..)).cur) _ _, fun x _ => ?_⟩
      exact (congrFun (byteAt_readL1 ..) x).trans (nearByte_fillCopy _ x)
    · exact ⟨keepsAllBut_setG (.of_cur rfl) _ _, fun _ _ => rfl⟩

end

/-- Settles O11: each access changes what its equation says and nothing besides. -/
theorem scalarMemoryFrame : Obligations.ScalarMemoryFrame := by
  refine ⟨fun p s t q hm ha hq hp hc ht => ld_frame hm hp ha hq hc ht, fun p s t q hm ha hq hp hc ht => ?_,
    fun p s t q hm ha hq hp ht => ?_, fun p s t q hm ha hq hp ht => ?_, fun p s t q hm ha hq hp hc ht => ?_⟩
  · obtain ⟨⟨hg, hv, hf, htrap, haccs, hcfg, hatp⟩, hbytes⟩ := lr_frame hm hp rfl ha hq hc ht
    exact ⟨hg, hv, hf, htrap, haccs, hcfg, hatp, hbytes⟩
  · obtain ⟨⟨hg, hv, hf, htrap, haccs⟩, hnow, hposts⟩ := st_frame hm hp ha hq ht
    exact ⟨hg, hv, hf, htrap, haccs, hnow, hposts⟩
  · obtain ⟨⟨hg, hv, hf, htrap, haccs⟩, hbytes⟩ := sc_frame hm hp rfl ha hq ht
    exact ⟨hg, hv, hf, htrap, haccs, hbytes⟩
  · obtain ⟨⟨hg, hv, hf, htrap, haccs, -⟩, hbytes⟩ := amo_frame hm hp rfl ha hq hc ht
    exact ⟨hg, hv, hf, htrap, haccs, hbytes⟩

end Sys2Proof.Machine
end

section
/-! PROOFS. REL, ACQ and FENCE.STK: the near copies that they write back, and the far point, which is then current (R156 to R158). -/

namespace Sys2Proof.Machine

/-! ### Write-back of near copies -/

/-- Lines written back one after another leave the near copies of the others (R151). -/
theorem near_foldl_pushLine : ∀ (lines : List Nat) (s : State),
    (lines.foldl pushLine s).near = s.near.filter (fun c => !lines.contains (c.1 / 128))
  | [], s => (List.filter_eq_self.mpr fun _ _ => rfl).symm
  | l :: lines, s => by
    rw [List.foldl_cons, near_foldl_pushLine lines, near_pushLine_eq, List.filter_filter]
    refine List.filter_congr fun c _ => ?_
    rw [List.contains_cons, Bool.not_or, Bool.and_comm]

/-- Lines written back leave every byte that an observer reads at the near point (R151). -/
theorem nearByte_foldl_pushLine (x : Nat) : ∀ (lines : List Nat) {s : State}, s.memOk → nearByte (lines.foldl pushLine s) x = nearByte s x
  | [], _, _ => rfl
  | l :: lines, s, h => (nearByte_foldl_pushLine x lines ((memStep_pushLine s l).2 h)).trans (nearByte_pushLine h l x)

section
variable {s : State} (h : s.memOk) (mine : Nat → Bool)
include h

theorem byteAt_writeBack (a : Nat) : (writeBack s mine).byteAt a = s.byteAt a := nearByte_foldl_pushLine a _ h

omit h in
/-- No byte written back has a newer copy on chip (R156). -/
theorem find_near_writeBack {a : Nat} (ha : mine a = true) : Tbl.find a (writeBack s mine).near = none := by
  cases hf : Tbl.find a (writeBack s mine).near with
  | none => rfl
  | some b =>
    have hmem := Tbl.find_mem hf
    rw [writeBack, near_foldl_pushLine, List.mem_filter] at hmem
    obtain ⟨hnear, hline⟩ := hmem
    have hwritten : (a, b) ∈ s.near.filter (fun c => mine c.1) := List.mem_filter.mpr ⟨hnear, ha⟩
    have hlines := List.mem_dedup.mpr (List.mem_map_of_mem (f := (·.1 / 128)) hwritten)
    rw [Bool.not_eq_true', ← Bool.not_eq_true, List.contains_iff_mem] at hline
    exact absurd hlines hline

/-- What has been written back is the same at the far point as at the near point (R156). -/
theorem farByte_writeBack {a : Nat} (ha : mine a = true) : farByte (writeBack s mine) a = s.byteAt a := by
  rw [← byteAt_writeBack h mine, State.byteAt, nearByte, find_near_writeBack mine ha]
  rfl

/-- An order of the hart's accesses that is complete once the near copies that `mine` selects are written back (R156, R158). -/
theorem writeBack_completed : let t := (writeBack s mine).completed
    t.cur.pc = s.cur.npc ∧ sameG s t ∧ sameVec s t ∧ (∀ a, t.byteAt a = s.byteAt a) ∧ ∀ a, mine a = true → farByte t a = s.byteAt a := by
  have hcur := (memStep_writeBack s mine).cur
  refine ⟨by simp [hcur], sameG_of_eq (by simp [hcur]), by simp [sameVec, hcur], fun a => ?_, fun a ha => ?_⟩
  · rw [State.completed_byteAt, byteAt_writeBack h]
  · rw [farByte_completed, farByte_writeBack h mine ha]

end

/-! ### Stores that are done -/

section
variable {s : State} (hf : s.fabric = [])
include hf

theorem settle_of_idle : s.settle = s := by simp [State.settle, State.posted, hf]

theorem acknowledged_of_idle : s.acknowledged = s := by
  unfold State.acknowledged
  simp only [settle_of_idle hf, hf, List.foldl_nil, List.filter_nil]
  rw [← hf]

theorem afterStores_of_idle (body : State → Res) : s.afterStores body = body s := by
  simp [State.afterStores, State.stuck, settle_of_idle hf, hf]

end

/-! ### The instructions -/

theorem afterQueue_of_empty {s : State} (h : s.cur.vq = []) (r : Res) : afterQueue s r = r := if_pos (by rw [h]; rfl)

theorem afterQueue_of_older {s : State} (h : s.cur.vq ≠ []) (r : Res) : afterQueue s r = .stall s := if_neg (by simpa using h)

section
variable {p : R1} {s : State}

theorem scopeOrder_hart (hp : p.sf = 0) :
    scopeOrder p s = s.afterStores fun t => .ok (writeBack t (fun a => locHbm a && (s.ranksOf s.cur).contains (a / 2 ^ 52))) := by
  rw [scopeOrder, hp]
  rfl

theorem scopeOrder_core (hp : p.sf = 1 ∨ p.sf = 2 ∨ p.sf = 3) : scopeOrder p s = s.afterStores .ok := by
  rcases hp with hp | hp | hp <;> rw [scopeOrder, hp] <;> rfl

theorem scopeOrder_module (hp : p.sf = 5) : scopeOrder p s = s.afterStores fun t => .ok (writeBackStacks t t.cur.mod) := by
  rw [scopeOrder, hp]
  rfl

theorem scopeOrder_domain (hp : p.sf = 6) (hl : s.lostStore = none) :
    scopeOrder p s = s.afterStores fun _ => .ok (writeBack s.acknowledged locHbm) := by
  rw [scopeOrder, hp, hl]
  rfl

end

/-- Settles O22: each scope is a write-back of the near copies that it names, once the hart's stores have performed. -/
theorem releaseMakesTheFarPointCurrent : Obligations.ReleaseMakesTheFarPointCurrent := by
  have hrel (p : R1) (s : State) (h : s.cur.vq = []) : exec (.rel p) s = retire (scopeOrder p s) :=
    congrArg retire (afterQueue_of_empty h _)
  refine ⟨fun p s hp hm hq hf => ?_, fun p s hp hm hq hlost hf => ?_, fun p s q k hm hq hf ht hk hk12 => ?_, fun p s hp hm hq hf => ?_,
    fun p s hq => ?_, fun p s hq hp => ⟨fun hs => ?_, ?_⟩, fun p s h1 h2 h3 => ?_⟩
  · obtain ⟨hpc, hg, hv, hbyte, hfar⟩ := writeBack_completed hm (fun a => locHbm a && decide (a / 2 ^ 52 = s.cur.mod))
    refine ⟨_, ?_, hpc, hg, hv, hbyte, fun a hmod hhbm => hfar a (by rw [locHbm, decide_eq_true hhbm, decide_eq_true hmod]; rfl)⟩
    rw [hrel p s hq, scopeOrder_module hp, afterStores_of_idle hf]
    rfl
  · obtain ⟨hpc, hg, hv, hbyte, hfar⟩ := writeBack_completed hm locHbm
    refine ⟨_, ?_, hpc, hg, hv, hbyte, fun a hhbm => hfar a (decide_eq_true hhbm)⟩
    rw [hrel p s hq, scopeOrder_domain hp hlost, afterStores_of_idle hf, acknowledged_of_idle hf]
    rfl
  · obtain ⟨hpc, hg, hv, hbyte, hfar⟩ := writeBack_completed hm (locHome (q.spot.m * 16 + k))
    refine ⟨_, ?_, hpc, hg, hv, hbyte, fun a hmod hstack => hfar a ?_⟩
    · change retire (afterQueue s (fenceStack s (s.src p.a).toNat)) = _
      rw [afterQueue_of_empty hq, fenceStack, afterStores_of_idle hf]
      simp only [ht, Spot.home, hk]
      rfl
    · simp only [locHome, locHbm, hmod, hstack, Bool.and_eq_true, decide_eq_true_eq]
      omega
  · obtain ⟨hpc, hg, hv, hbyte, hfar⟩ := writeBack_completed hm (fun a => locHbm a && (s.ranksOf s.cur).contains (a / 2 ^ 52))
    refine ⟨_, ?_, hpc, hg, hv, hbyte, fun a hrank hhbm => hfar a (by rw [locHbm, decide_eq_true hhbm, List.contains_iff_mem.mpr hrank]; rfl)⟩
    rw [hrel p s hq, scopeOrder_hart hp, afterStores_of_idle hf]
    rfl
  · have hstall (r : Res) : retire (afterQueue s r) = .next s.stands := congrArg retire (afterQueue_of_older hq r)
    exact ⟨hstall _, hstall _, hstall _⟩
  · rw [hrel p s hq, scopeOrder_core hp, State.afterStores, hs]
    rfl
  · change retire (afterQueue s _) = _
    rw [afterQueue_of_empty hq, if_pos hp]
    rfl
  · change retire (afterQueue s _) = _
    rw [if_neg (not_or.mpr ⟨h1, not_or.mpr ⟨h2, h3⟩⟩)]
    rfl

end Sys2Proof.Machine
end

section
/-! PROOFS. Prefetches: PREF and the near and far VPREF fill caches and change nothing that an instruction reads (R209, R264). -/

namespace Sys2Proof.Machine

/-- The count of a line is that of the memory-side cache that holds it, else 0 (R140, R141). -/
theorem farLine_count_eq_find (s : State) (line : Nat) : (farLine s line).count = ((Tbl.find line s.msc).map MscLine.count).getD 0 := by
  unfold farLine
  cases Tbl.find line s.msc <;> rfl

/-- A line taken into a memory-side cache as the far point holds it keeps its count (R140). -/
theorem farLine_count_putLine {s : State} {line : Nat} {l : MscLine} (hc : l.count = (farLine s line).count) (k : Nat) :
    (farLine { s with msc := Tbl.put line l s.msc } k).count = (farLine s k).count := by
  rw [farLine_count_eq_find, farLine_count_eq_find s k]
  by_cases hk : k = line
  · subst hk
    simp only [Tbl.find_put_self, Option.map_some, Option.getD_some, hc, farLine_count_eq_find]
  · simp only [Tbl.find_put_other hk]

/-! ### What a fill leaves -/

/-- Caches have been filled: no byte and no count of readers reads otherwise, and all but the caches is as it was. -/
structure Filled (s t : State) : Prop where
  mem : MemStep s t
  same : sameMemory s t
  count : ∀ k, (farLine t k).count = (farLine s k).count

namespace Filled

variable {s t u : State}

theorem of_eq (h : MemStep s t) (hn : t.near = s.near) (hm : t.msc = s.msc) (hd : t.dram = s.dram) : Filled s t :=
  ⟨h, sameMemory_of_eq hn hm hd, fun k => by rw [farLine_count_eq_find, farLine_count_eq_find, hm]⟩

theorem refl (s : State) : Filled s s := of_eq (MemStep.refl s) rfl rfl rfl

theorem trans (h : Filled s t) (k : Filled t u) : Filled s u := by
  refine ⟨h.mem.trans k.mem, fun a => ?_, fun l => (k.count l).trans (h.count l)⟩
  obtain ⟨hnear, hfar, hdram⟩ := h.same a
  obtain ⟨knear, kfar, kdram⟩ := k.same a
  exact ⟨knear.trans hnear, kfar.trans hfar, kdram.trans hdram⟩

theorem foldl {β : Type} {f : State → β → State} (hf : ∀ t b, Filled t (f t b)) : ∀ (l : List β) (s : State), Filled s (l.foldl f s)
  | [], s => .refl s
  | b :: l, s => (hf s b).trans (foldl hf l (f s b))

theorem readL1 (s : State) (m c a : Nat) : Filled s (s.readL1 m c a) := by
  refine of_eq (memStep_readL1 s m c a) ?_ ?_ ?_ <;> unfold State.readL1 <;> split <;> rfl

theorem dropL1 (s : State) (mine : L1Line → Bool) : Filled s (dropL1 s mine) := of_eq (memStep_dropL1 s mine) rfl rfl rfl

theorem fillCopy (s : State) (line : Nat) : Filled s (fillCopy s line) := by
  refine ⟨memStep_fillCopy s line, fun a => ⟨nearByte_fillCopy line a, farByte_fillCopy s line a, ?_⟩, fun k => ?_⟩
  · exact congrArg (Tbl.getD · a 0) (dram_fillCopy s line)
  · unfold Machine.fillCopy
    split
    · rfl
    · split
      · exact farLine_count_putLine (l := { farLine s line with onChip := true }) rfl k
      · rfl

theorem fillFar (s : State) (line : Nat) : Filled s (fillFar s line) := by
  refine ⟨memStep_fillFar s line, ?_, ?_⟩ <;> unfold Machine.fillFar <;> split
  · exact fun a => ⟨byteAt_putLine rfl a, farByte_putLine rfl a, rfl⟩
  · exact fun _ => ⟨rfl, rfl, rfl⟩
  · exact farLine_count_putLine rfl
  · exact fun _ => rfl

/-! ### Completion after a fill -/

/-- A scalar instruction that fills caches writes nothing (R209). -/
theorem onlyWrites_completed (h : Filled s t) : onlyWrites 0 s t.completed := by
  have hcur := h.mem.cur
  exact ⟨fun r _ => Hart.greg_congr (by simp [hcur]) r, by simp [sameVec, hcur], by simp [sameSpecial, hcur], by simp [sameFlags, hcur],
    fun a => h.same a, by simp [sameOthers, h.mem.harts, h.mem.launches, h.mem.mods, h.mem.tiles, h.mem.banks, h.mem.fabric]⟩

/-- A vector-queue instruction that fills caches writes nothing (R264). -/
theorem vecFrame_completedV (h : Filled s t) : vecFrame s t.completedV ∧ sameVec s t.completedV ∧ sameFlags s t.completedV := by
  have hcur := h.mem.cur
  refine ⟨⟨sameG_of_eq (by simp [hcur]), by simp [sameSpecial, hcur], fun a => ?_,
    by simp [sameOthers, h.mem.harts, h.mem.launches, h.mem.mods, h.mem.tiles, h.mem.banks, h.mem.fabric],
    finishes_completedV (by rw [hcur]) (by rw [hcur]) (by rw [hcur]) (by rw [hcur])⟩, by simp [sameVec, hcur], by simp [sameFlags, hcur]⟩
  obtain ⟨hn, hf, hd⟩ := sameMemory_of_eq (s := t) (t := t.completedV) (by simp) (by simp) (by simp) a
  obtain ⟨hnear, hfar, hdram⟩ := h.same a
  exact ⟨hn.trans hnear, hf.trans hfar, hd.trans hdram⟩

theorem count_completed (h : Filled s t) (k : Nat) : (farLine t.completed k).count = (farLine s k).count := by
  rw [farLine_count_eq_find, State.completed_msc, ← farLine_count_eq_find, h.count]

theorem count_completedV (h : Filled s t) (k : Nat) : (farLine t.completedV k).count = (farLine s k).count := by
  rw [farLine_count_eq_find, State.completedV_msc, ← farLine_count_eq_find, h.count]

end Filled

/-! ### The prefetches -/

theorem filled_prefetch (s : State) (va : Nat) (writable l2only : Bool) : Filled s (s.prefetch va writable l2only) := by
  unfold State.prefetch
  split
  · exact .refl s
  · rename_i q _
    split
    · exact .refl s
    · have hfill := Filled.fillCopy s (q.spot.loc / 128)
      have hl1 : Filled s (if l2only then fillCopy s (q.spot.loc / 128)
          else (fillCopy s (q.spot.loc / 128)).readL1 s.cur.mod s.cur.seat.core q.spot.loc) := by
        split
        · exact hfill
        · exact hfill.trans (.readL1 ..)
      simp only
      split
      · exact hl1.trans (.dropL1 ..)
      · exact hl1

theorem filled_prefNear (s : State) (va : Nat) : Filled s (s.prefNear va) := by
  unfold State.prefNear
  split
  · split
    · exact .refl s
    · exact .fillCopy ..
  · exact .refl s

theorem filled_prefFar (home : Nat) (s : State) (va : Nat) : Filled s (s.prefFar home va) := by
  unfold State.prefFar
  split
  · split
    · exact .refl s
    · exact .fillFar ..
  · exact .refl s

/-- A vector-queue instruction that fills caches completes so (R264). -/
theorem hint_completes {i : Instr} {n : Option Nat} {body : State → Res} {s t : State} (hi : exec i s = runV i n body s)
    (he : s.executes = true) (hb : body s = .ok t) (h : Filled s t) :
    ∃ u, exec i s = .next u ∧ vecFrame s u ∧ sameVec s u ∧ sameFlags s u ∧ ∀ k, (farLine u k).count = (farLine s k).count := by
  obtain ⟨hframe, hvec, hflags⟩ := h.vecFrame_completedV
  refine ⟨t.completedV, ?_, hframe, hvec, hflags, h.count_completedV⟩
  rw [hi, runV_of_executes he, hb]
  rfl

theorem pref_completes (p : S) (s : State) : ∃ t, exec (.pref p) s = .next t ∧ onlyWrites 0 s t ∧ t.cur.pc = s.cur.npc ∧
    ∀ k, (farLine t k).count = (farLine s k).count := by
  have h := filled_prefetch s (addrOf (s.src p.a) (signed 12 p.imm.toNat)) (bit p.sf.toNat 0) (bit p.sf.toNat 1)
  exact ⟨State.completed _, rfl, h.onlyWrites_completed, by simp [h.mem.cur], h.count_completed⟩

theorem vpref_completes (p : M) {s : State} (he : s.executes = true) :
    ∃ t, exec (.vpref p) s = .next t ∧ vecFrame s t ∧ sameVec s t ∧ sameFlags s t ∧ ∀ k, (farLine t k).count = (farLine s k).count :=
  hint_completes (show exec (.vpref p) s = execVpref p s from rfl) he rfl (.foldl filled_prefNear _ s)

theorem fVpref_completes (p : M) {s : State} (he : s.executes = true) :
    ∃ t, exec (.fVpref p) s = .next t ∧ vecFrame s t ∧ sameVec s t ∧ sameFlags s t ∧ ∀ k, (farLine t k).count = (farLine s k).count := by
  refine hint_completes (show exec (.fVpref p) s = execFVpref p s from rfl) he rfl ?_
  split
  · exact .foldl (filled_prefFar _) _ s
  · exact .refl s

end Sys2Proof.Machine
end

section
/-! PROOFS. FENCE.SV and WFEV (R154, R217): the posted stores that a fence performs, and the event bit. -/

namespace Sys2Proof.Machine

/-! ### What holds a posted store -/

/-- Nothing came to hold or to free a posted store (R442, R475). -/
def SameHolders (s t : State) : Prop := ∀ src x, t.storeHolder src x = s.storeHolder src x

theorem SameHolders.trans {s t u : State} (h : SameHolders s t) (k : SameHolders t u) : SameHolders s u :=
  fun src x => (k src x).trans (h src x)

theorem sameHolders_of {s t : State} (hruns : ∀ k, t.modRuns k = s.modRuns k) (hmoves : ∀ a n, t.rangeMoves a n = s.rangeMoves a n) :
    SameHolders s t := by
  intro src x
  cases x with
  | store => simp only [State.storeHolder, hruns, hmoves]
  | _ => rfl

theorem sameHolders_of_mods {s t : State} (h : t.mods = s.mods) : SameHolders s t :=
  sameHolders_of (State.modRuns_congr h) fun a n => by simp only [State.rangeMoves, mod?_congr h]

/-- What holds a store depends on its owner's boot, its freeze, its power and its migrations alone. -/
theorem sameHolders_onMod (s : State) (m : Nat) {f : Module → Module} (hb : ∀ x, (f x).booted = x.booted) (hz : ∀ x, (f x).frozen = x.frozen)
    (hp : ∀ x, (f x).power = x.power) (hm : ∀ x, (f x).moving = x.moving) : SameHolders s (s.onMod m f) := by
  have hmod (k : Nat) : (s.onMod m f).mod? k = s.mod? k ∨ (s.onMod m f).mod? k = (s.mod? k).map f := by
    by_cases hk : k = m
    · subst hk
      cases hx : s.mod? k with
      | some x => exact .inr (State.mod?_onMod_self s k f x hx)
      | none => exact .inl (by simp [State.onMod, hx])
    · exact .inl (State.mod?_onMod_other s m k f hk)
  refine sameHolders_of (fun k => ?_) fun a n => ?_
  · rcases hmod k with h | h <;> simp only [State.modRuns, h]
    cases s.mod? k <;> simp [hb, hz, hp]
  · rcases hmod (a / 2 ^ 52) with h | h <;> simp only [State.rangeMoves, h]
    cases s.mod? (a / 2 ^ 52) <;> simp [hm]

/-! ### A posted store performs -/

theorem mods_putFor (s : State) (h : HartId) (near : Bool) (a : Nat) (put : State → State) : (s.putFor h near a put).mods = (put s).mods := by
  unfold State.putFor
  split
  · unfold State.writeL1
    simp only
    split <;> rfl
  · rfl

theorem fabric_putFor (s : State) (h : HartId) (near : Bool) (a : Nat) (put : State → State) : (s.putFor h near a put).fabric = (put s).fabric := by
  unfold State.putFor
  split
  · unfold State.writeL1
    simp only
    split <;> rfl
  · rfl

theorem sameHolders_countPage (s : State) (src a : Nat) : SameHolders s (countPage s src a) := by
  unfold countPage
  split
  · exact fun _ _ => rfl
  · exact sameHolders_onMod s _ (fun x => by split <;> rfl) (fun x => by split <;> rfl)
      (fun x => by split <;> rfl) fun x => by split <;> rfl

theorem fabric_countPage (s : State) (src a : Nat) : (countPage s src a).fabric = s.fabric := by
  unfold countPage
  split
  · rfl
  · exact State.onMod_fabric ..

/-- How a posted store writes its bytes: at the far point or at the near point (R148, R166). -/
def storing (far : Bool) (a readers : Nat) (bs : List Byte) (s : State) : State := if far then storeFar s a bs readers else storeNear s a bs

theorem stored_mods (s : State) (far : Bool) (a readers : Nat) (bs : List Byte) : (storing far a readers bs s).mods = s.mods := by
  unfold storing
  split
  · exact (memStep_storeFar ..).mods
  · exact (memStep_storeNear ..).mods

theorem stored_fabric (s : State) (far : Bool) (a readers : Nat) (bs : List Byte) :
    (storing far a readers bs s).fabric = s.fabric := by
  unfold storing
  split
  · exact (memStep_storeFar ..).fabric
  · exact (memStep_storeNear ..).fabric

/-- A posted store writes its bytes and counts at its page; a remote one then starts its acknowledgement (R166, R446, R475). -/
theorem performStore_store (s : State) (src : Nat) (h : HartId) (va : Word) (vec far d : Bool) (readers a : Nat) (bs : List Byte) :
    performStore s src (.store h va vec far d readers a bs) =
      let t := countPage (s.putFor h (!vec && !far && decide (src = a / 2 ^ 52)) a (storing far a readers bs)) src a
      if src = a / 2 ^ 52 then t else { t.heard src (a / 2 ^ 52) with fabric := t.fabric ++ [.ack h va] } := rfl

theorem sameHolders_performStore (s : State) (src : Nat) (x : Msg) : SameHolders s (performStore s src x) := by
  cases x with
  | store h va vec far d readers a bs =>
    rw [performStore_store]
    have hput := (sameHolders_of_mods ((mods_putFor s h (!vec && !far && decide (src = a / 2 ^ 52)) a (storing far a readers bs)).trans
      (stored_mods s far a readers bs))).trans (sameHolders_countPage _ src a)
    simp only
    split
    · exact hput
    · refine hput.trans (SameHolders.trans (sameHolders_onMod _ _ ?_ ?_ ?_ ?_) (sameHolders_of_mods rfl)) <;> exact fun _ => rfl
  | _ => exact fun _ _ => rfl

/-- A store that performs puts no store into the fabric: an acknowledgement at most (R166). -/
theorem mem_performStore {s : State} {src : Nat} {x y : Msg} (hy : y ∈ (performStore s src x).fabric) (i : HartId)
    (hs : Msg.storeOf i y = true) : y ∈ s.fabric := by
  cases x with
  | store h va vec far d readers a bs =>
    rw [performStore_store] at hy
    simp only at hy
    split at hy <;> simp only [fabric_countPage, fabric_putFor, stored_fabric] at hy
    · exact hy
    · refine (List.mem_append.mp hy).resolve_right fun hack => ?_
      rw [List.mem_singleton.mp hack] at hs
      cases hs
  | _ => exact hy

theorem sameHolders_foldl_performStore (src : Nat) : ∀ (xs : List Msg) (s : State),
    SameHolders s (xs.foldl (fun t x => performStore t src x) s)
  | [], _ => fun _ _ => rfl
  | x :: xs, s => (sameHolders_performStore s src x).trans (sameHolders_foldl_performStore src xs _)

theorem mem_foldl_performStore (src : Nat) {y : Msg} (i : HartId) (hs : Msg.storeOf i y = true) : ∀ (xs : List Msg) (s : State),
    y ∈ (xs.foldl (fun t x => performStore t src x) s).fabric → y ∈ s.fabric
  | [], _, h => h
  | _ :: xs, _, h => mem_performStore (mem_foldl_performStore src i hs xs _ h) i hs

/-! ### Posted stores that nothing holds -/

/-- Nothing holds a posted store of the current hart (R442, R475). -/
def State.unheld (s : State) : Prop := ∀ x ∈ s.fabric, Msg.storeOf s.cur.id x = true → s.storeHolder s.cur.mod x = none

theorem Msg.storeOf_of_ordered {i : HartId} {vec : Bool} {x : Msg} (h : Msg.orderedOf i vec x = true) : Msg.storeOf i x = true := by
  cases x <;> simp_all [Msg.orderedOf, Msg.storeOf]

theorem inOrderHeld_of_unheld {s : State} (h : s.unheld) (x : Msg) : s.inOrderHeld x = false := by
  have hnone (vec : Bool) : s.fabric.any (fun y => Msg.orderedOf s.cur.id vec y && (s.storeHolder s.cur.mod y).isSome) = false := by
    rw [List.any_eq_false]
    intro y hy hheld
    obtain ⟨hord, hsome⟩ := Bool.and_eq_true_iff.mp hheld
    rw [h y hy (Msg.storeOf_of_ordered hord)] at hsome
    cases hsome
  simp [State.inOrderHeld, hnone]

/-- Of stores that nothing holds those that a fence selects perform, and the others are still posted (R154). -/
theorem mem_drain {s : State} (h : s.unheld) {mine : Msg → Bool} {x : Msg} (hx : x ∈ (s.drain mine).fabric)
    (hs : Msg.storeOf s.cur.id x = true) : x ∈ s.fabric ∧ mine x = false := by
  obtain ⟨hmem, hgoes⟩ := List.mem_filter.mp (mem_foldl_performStore _ _ hs _ _ hx)
  refine ⟨hmem, ?_⟩
  simpa [hs, h x hmem hs, inOrderHeld_of_unheld h] using hgoes

theorem sameHolders_drain (s : State) (mine : Msg → Bool) : SameHolders s (s.drain mine) :=
  SameHolders.trans (t := { s with fabric := _ }) (fun _ _ => rfl) (sameHolders_foldl_performStore _ _ _)

/-- What a fence of one stream's stores leaves, where nothing holds a store (R154). -/
structure Fenced (vec : Bool) (s t : State) : Prop where
  hart : KeepsHart s t
  unheld : t.unheld
  posted : ∀ x ∈ t.fabric, Msg.storeOf s.cur.id x = true → x ∈ s.fabric ∧ Msg.storeOn s.cur.id vec x = false

theorem settleOn_fenced {s : State} (h : s.unheld) (vec : Bool) : Fenced vec s (s.settleOn vec) := by
  unfold State.settleOn
  split
  · have hhart := keepsHart_drain s (Msg.storeOn s.cur.id vec)
    obtain ⟨r, hr⟩ := id hhart
    refine ⟨hhart, fun x hx hs => ?_, fun x hx hs => mem_drain h hx hs⟩
    rw [hr] at hs ⊢
    rw [sameHolders_drain s _]
    exact h x (mem_drain h hx hs).1 hs
  · rename_i hnone
    refine ⟨.of_cur rfl, h, fun x hx _ => ⟨hx, ?_⟩⟩
    simpa using List.any_eq_false.mp (Bool.not_eq_true _ ▸ hnone) x hx

/-! ### FENCE.SV -/

/-- The stores that a TYPE of FENCE.SV orders have performed, where nothing holds one: the scalar stream's first (R154). -/
def State.fencedSv (s : State) (ty : Nat) : State :=
  let t := if bit ty 2 || bit ty 3 then s.settleOn false else s
  if bit ty 6 || bit ty 7 then t.settleOn true else t

section
variable {s : State}

theorem exec_fenceSv {p : R1} (hq : p.a.val.toNat < 16 ∨ s.cur.vq = [])
    (hscalar : (bit p.a.val.toNat 2 || bit p.a.val.toNat 3) = true →
      ∀ x ∈ (s.fencedSv p.a.val.toNat).fabric, Msg.storeOn s.cur.id false x = false)
    (hvector : (bit p.a.val.toNat 6 || bit p.a.val.toNat 7) = true →
      ∀ x ∈ (s.fencedSv p.a.val.toNat).fabric, Msg.storeOn s.cur.id true x = false) :
    exec (.fenceSv p) s = .next (s.fencedSv p.a.val.toNat).completed := by
  have hleft : (s.fencedSv p.a.val.toNat).fabric.find? (fun x => (Msg.storeOn s.cur.id false x && (bit p.a.val.toNat 2 || bit p.a.val.toNat 3)) ||
      (Msg.storeOn s.cur.id true x && (bit p.a.val.toNat 6 || bit p.a.val.toNat 7))) = none := by
    rw [List.find?_eq_none]
    intro x hx
    cases hs : bit p.a.val.toNat 2 || bit p.a.val.toNat 3 <;> cases hv : bit p.a.val.toNat 6 || bit p.a.val.toNat 7 <;>
      simp_all
  change execFenceSv p s = _
  unfold State.fencedSv at hleft ⊢
  rw [execFenceSv]
  simp only [hleft]
  split
  · rename_i hty
    rw [afterQueue_of_empty (hq.resolve_left (by omega))]
    rfl
  · rfl

/-- Where nothing holds a posted store a fence leaves none of those that its TYPE orders (R154). -/
theorem fencedSv_fenced (h : s.unheld) (ty : Nat) : KeepsHart s (s.fencedSv ty) ∧
    ((bit ty 2 || bit ty 3) = true → ∀ x ∈ (s.fencedSv ty).fabric, Msg.storeOn s.cur.id false x = false) ∧
    ((bit ty 6 || bit ty 7) = true → ∀ x ∈ (s.fencedSv ty).fabric, Msg.storeOn s.cur.id true x = false) := by
  have hnotOn (vec : Bool) {t : State} (hp : ∀ x ∈ t.fabric, Msg.storeOf s.cur.id x = true → Msg.storeOn s.cur.id vec x = false) :
      ∀ x ∈ t.fabric, Msg.storeOn s.cur.id vec x = false := fun x hx =>
    Bool.eq_false_iff.mpr fun hon => Bool.eq_false_iff.mp (hp x hx (Msg.storeOf_of_storeOn hon)) hon
  have hfirst : ∃ t, t = (if bit ty 2 || bit ty 3 then s.settleOn false else s) ∧ KeepsHart s t ∧ t.unheld ∧
      ((bit ty 2 || bit ty 3) = true → ∀ x ∈ t.fabric, Msg.storeOn s.cur.id false x = false) := by
    refine ⟨_, rfl, ?_⟩
    split
    · have hf := settleOn_fenced h false
      exact ⟨hf.hart, hf.unheld, fun _ => hnotOn false fun x hx hs => (hf.posted x hx hs).2⟩
    · rename_i hty
      exact ⟨.of_cur rfl, h, fun hty' => absurd hty' hty⟩
  obtain ⟨t, ht, hhart, hunheld, hscalar⟩ := hfirst
  simp only [State.fencedSv, ← ht]
  split
  · have hf := settleOn_fenced hunheld true
    obtain ⟨r, hr⟩ := id hhart
    have hid : t.cur.id = s.cur.id := by rw [hr]
    have hposted := hf.posted
    rw [hid] at hposted
    exact ⟨hhart.trans hf.hart, fun hty => hnotOn false fun x hx hs => hscalar hty x (hposted x hx hs).1,
      fun _ => hnotOn true fun x hx hs => (hposted x hx hs).2⟩
  · rename_i hty
    exact ⟨hhart, hscalar, fun hty' => absurd hty' hty⟩

end

/-! ### WFEV -/

/-- WFEV retires with the event bit and otherwise waits (R217). -/
theorem eventBitIsTaken : EventBitIsTaken := by
  intro p s
  refine ⟨fun h => ?_, fun h => ?_⟩
  · refine ⟨State.completed { s with cur := { s.cur with event := false } }, ?_, rfl, rfl, rfl, fun _ => rfl,
      ⟨rfl, rfl⟩, rfl, rfl, fun _ => ⟨rfl, rfl, rfl⟩⟩
    change execWfev p s = _
    rw [execWfev, if_pos h]
    rfl
  · have hex : exec (.wfev p) s = .next (s.keepBank.waits 0) := by
      change execWfev p s = _
      rw [execWfev, if_neg (by simp [h])]
      rfl
    exact ⟨_, hex, h, rfl, rfl, fun _ _ => rfl, ⟨rfl, rfl⟩,
      ⟨rfl, rfl, rfl, rfl, rfl, rfl, rfl, rfl, rfl⟩, rfl, fun _ => ⟨rfl, rfl, rfl⟩, by simp [sameOthers]⟩

theorem hintsChangeNothing : HintsChangeNothing := by
  refine ⟨pref_completes, fun p s hq hp => ?_, fun p s hty hq => ?_, fun p s hq hh => ?_,
    fun p s he => ⟨vpref_completes p he, fVpref_completes p he⟩⟩
  · have hsame : s.fencedSv p.a.val.toNat = s := by simp [State.fencedSv, settleOn_of_not_posted hp]
    rw [exec_fenceSv hq] <;> rw [hsame]
    · exact fun _ x hx => storeOn_of_not_posted hp false hx
    · exact fun _ x hx => storeOn_of_not_posted hp true hx
  · change execFenceSv p s = _
    rw [execFenceSv]
    simp only [if_pos hty, afterQueue_of_older hq]
    rfl
  · obtain ⟨⟨r, hr⟩, hscalar, hvector⟩ := fencedSv_fenced hh p.a.val.toNat
    have hex := exec_fenceSv hq hscalar hvector
    simp only [bit_toNat] at hscalar hvector
    refine ⟨_, hex, by simp [hr], sameG_of_eq (by simp [hr]), by simp [sameVec, hr], by simp [sameFlags, hr], ?_⟩
    rw [State.completed_fabric]
    exact ⟨hscalar, hvector⟩

/-- Settles O16: prefetches only fill caches, FENCE.SV performs what it orders, and WFEV takes the event bit or waits. -/
theorem hintsAndEventBit : Obligations.HintsAndEventBit := ⟨hintsChangeNothing, eventBitIsTaken⟩

end Sys2Proof.Machine
end

section
/-! PROOFS. VAMO: its elements one after another, in memory and registers of which no word is poisoned (R160, R263, R436, R455). -/

namespace Sys2Proof.Machine

/-! ### No poison anywhere, and none comes -/

/-- No word of memory and of the register arrays is poisoned (R454, R455). -/
structure Unpoisoned (s : State) : Prop where
  clean : s.clean = true
  memory : s.noBad

theorem State.noBad_fillCopy {s : State} (h : s.noBad) (line : Nat) : (fillCopy s line).noBad := by
  have hl := State.farLine_bad_eq_nil h line
  have hcopy {t : State} (ht : t.noBad) :
      t.badNear.filter (fun w => !decide (w / 16 = line)) ++ (farLine s line).bad.map (fun k => 16 * line + k) = [] := by
    obtain ⟨-, hnear, -⟩ := ht
    simp [hnear, hl]
  unfold fillCopy
  split
  · exact h
  · split
    · have hput := State.noBad_putLine (l := { farLine s line with onChip := true }) h (line := line) hl
      exact ⟨hput.1, hcopy hput, hput.2.2⟩
    · exact ⟨h.1, hcopy h, h.2.2⟩

namespace Unpoisoned

variable {s t : State}

theorem congr (h : Unpoisoned s) (hp : t.poison = s.poison) (hm : t.badMem = s.badMem) (hn : t.badNear = s.badNear) (hc : t.msc = s.msc) :
    Unpoisoned t := ⟨by rw [State.clean, hp]; exact h.clean, State.noBad_congr h.memory hm hn hc⟩

theorem ite {p : Prop} [Decidable p] (hs : Unpoisoned s) (ht : Unpoisoned t) : Unpoisoned (if p then s else t) := by split <;> assumption

theorem foldl {β : Type} {f : State → β → State} (hf : ∀ t b, Unpoisoned t → Unpoisoned (f t b)) : ∀ (l : List β) {s : State},
    Unpoisoned s → Unpoisoned (l.foldl f s)
  | [], _, h => h
  | b :: l, _, h => foldl hf l (hf _ b h)

theorem storeFar (h : Unpoisoned s) (a : Nat) (bs : List Byte) (n : Nat) : Unpoisoned (storeFar s a bs n) :=
  ⟨by rw [State.clean, (memStep_storeFar s a bs n).poison]; exact h.clean, State.noBad_storeFar h.memory a bs n⟩

theorem storeNear (h : Unpoisoned s) (a : Nat) (bs : List Byte) : Unpoisoned (storeNear s a bs) := by
  have hfilled := foldl (f := fillCopy) (fun t l ht => ⟨by rw [State.clean, (memStep_fillCopy t l).poison]; exact ht.clean,
    State.noBad_fillCopy ht.memory l⟩) (upto (a / 128) ((a + bs.length + 127) / 128 - a / 128)) (s := breakResvs s a bs.length)
    (h.congr rfl rfl rfl rfl)
  obtain ⟨hmem, hnear, hmsc⟩ := hfilled.memory
  exact ⟨hfilled.clean, hmem, by simp [Machine.storeNear, Machine.dropL1, hnear], hmsc⟩

theorem putPhys (h : Unpoisoned s) (q : Phys) (bs : List Byte) (readers : Nat) : Unpoisoned (s.putPhys q bs readers) :=
  .ite (h.storeFar ..) (h.storeNear ..)

theorem onMod (h : Unpoisoned s) (m : Nat) (f : Module → Module) : Unpoisoned (s.onMod m f) :=
  h.congr (by simp) (by simp) (by simp) (by simp)

theorem countPage (h : Unpoisoned s) (src a : Nat) : Unpoisoned (countPage s src a) := .ite h (h.onMod _ _)

theorem writeL1 {m c a : Nat} {put : State → State} (h : Unpoisoned (put s)) : Unpoisoned (s.writeL1 m c a put) :=
  .ite h (h.congr rfl rfl rfl rfl)

theorem putFor {i : HartId} {near : Bool} {a : Nat} {put : State → State} (h : Unpoisoned (put s)) : Unpoisoned (s.putFor i near a put) := by
  unfold State.putFor
  split
  · exact h.writeL1
  · exact h

theorem performStore (h : Unpoisoned s) (src : Nat) (x : Msg) : Unpoisoned (performStore s src x) := by
  cases x with
  | store i va vec far d readers a bs =>
    rw [performStore_store]
    have hstored : Unpoisoned (storing far a readers bs s) := .ite (h.storeFar a bs readers) (h.storeNear a bs)
    have hput := (hstored.putFor (i := i) (near := !vec && !far && decide (src = a / 2 ^ 52)) (a := a)).countPage src a
    exact .ite hput ((hput.onMod _ _).congr rfl rfl rfl rfl)
  | _ => exact h

theorem drain (h : Unpoisoned s) (mine : Msg → Bool) : Unpoisoned (s.drain mine) :=
  foldl (fun _ x ht => ht.performStore _ x) _ (h.congr rfl rfl rfl rfl)

theorem settleFor (h : Unpoisoned s) (vec : Bool) (q : Phys) : Unpoisoned (s.settleFor vec q) :=
  .ite (.ite (h.drain _) h) (.ite (h.drain _) h)

theorem writeVec (h : Unpoisoned s) (r : Fin 64) (els : List (Nat × Nat)) : Unpoisoned (s.writeVec r els) := by
  have hcover : s.coverVec r.val s.cur.cfg.sew (els.map (·.1)) = s := if_pos h.clean
  refine h.congr ?_ ?_ ?_ ?_ <;> rw [State.writeVec, hcover]

end Unpoisoned

/-! ### The elements -/

/-- The elements of a VAMO, each with its translated address, in the order of the instruction (R436). -/
theorem amoAll_map_fst {p : M} {s : State} : ∀ {els : List Nat} {r : List (Nat × Phys)}, s.amoAll p els = .ok r → r.map (·.1) = els
  | [], _, h => by cases h; rfl
  | i :: els, r, h => by
    rw [State.amoAll] at h
    generalize s.anyPoison _ = poisoned at h
    cases poisoned with
    | true => cases h
    | false =>
      cases hq : s.elemPhys (s.amoAddr p i) (s.cur.cfg.sew / 8) .amo with
      | error e => simp [hq] at h
      | ok q =>
        cases hrest : s.amoAll p els with
        | error e => simp [hq, hrest] at h
        | ok rest =>
          simp only [hq, hrest] at h
          cases h
          rw [List.map_cons, amoAll_map_fst hrest]

section
variable {p : M} {orig : State} (hop : p.sf.toNat % 8 ≠ 2)

theorem Unpoisoned.vamoStep {s : State} (h : Unpoisoned s) (x : Nat × Phys) : Unpoisoned (vamoStep p orig s x) :=
  .ite ((h.settleFor ..).putPhys ..) (((h.settleFor ..).putPhys ..).writeVec ..)

include hop

/-- A VAMO that meets no poison performs its elements one step each (R160, R263). -/
theorem amoLoop_eq_foldl (els : List (Nat × Phys)) : ∀ {s : State}, Unpoisoned s →
    amoLoop p orig els s = .ok (els.foldl (vamoStep p orig) s) := by
  induction els with
  | nil => exact fun _ => rfl
  | cons x els ih =>
    intro s h
    rw [List.foldl_cons, ← ih (h.vamoStep x), amoLoop]
    simp only [State.anyPoison_of_clean h.clean, State.readPhys_of_noBad (h.settleFor true x.2).memory, Bool.false_eq_true, if_false, Bool.false_or,
      signed_eq_toInt, wrap_amoNew hop, bit_toNat]
    rfl

end

/-- Settles O37: a VAMO that no condition and no poison stops is its elements' steps. -/
theorem vectorAtomicResults : Obligations.VectorAtomicResults := by
  intro p s els hready hbad hetype hop hconds hall
  obtain ⟨hexec, hclean, -⟩ := hready
  refine ⟨amoAll_map_fst hall, ?_⟩
  have hc : noCond (s.memConds p true [p.d.toNat] (if memIndexed p then s.indexConds p.x else []) ++
      [(!(decide (s.cur.cfg.etype.toNat = 6) || decide (s.cur.cfg.etype.toNat = 7)), 0x03, 0x06)]) := by
    refine noCond_append hconds fun c hm => ?_
    rw [List.mem_singleton.mp hm]
    rcases hetype with h | h <;> rw [h] <;> rfl
  change execVamo p s = _
  rw [execVamo, runV_of_executes hexec]
  simp only
  rw [checked_of_noCond hc, hall]
  simp only
  rw [amoLoop_eq_foldl hop els ⟨hclean, hbad⟩]
  rfl

end Sys2Proof.Machine
end

section
/-! PROOFS. Encoding (R168 to R170, R174 to R182, R417): the fields of a tail and of a head read back what was laid out in them, what the decoder
accepts, and the line of one head. -/

namespace Sys2Proof

open Laws Machine

/-! ### Fields of a tail -/

theorem S10.num_lt (s : S10) : s.num < 1024 := by
  have ht := s.tag.isLt
  have hv := s.val.isLt
  simp only [S10.num]
  omega

theorem Mk.num_lt (m : Mk) : m.num < 32 := by
  have hm := m.mode.isLt
  have hq := m.q.isLt
  simp only [Mk.num]
  omega

/-- A field reads back where its bits are those of `x`. -/
theorem ofNat_eq_of_mod {w n : Nat} {x : BitVec w} (h : n % 2 ^ w = x.toNat) : BitVec.ofNat w n = x :=
  BitVec.eq_of_toNat_eq (by rw [BitVec.toNat_ofNat, h])

theorem readS10_eq {n : Nat} {s : S10} (h : n % 1024 = s.num) : readS10 n = s := by
  obtain ⟨tag, val⟩ := s
  have ht := tag.isLt
  have hv := val.isLt
  simp only [S10.num] at h
  rw [readS10, ofNat_eq_of_mod (x := tag) (by omega), ofNat_eq_of_mod (x := val) (by omega)]

theorem readMk_eq {n : Nat} {m : Mk} (h : n % 32 = m.num) : readMk n = m := by
  obtain ⟨mode, q⟩ := m
  have hm := mode.isLt
  have hq := q.isLt
  simp only [Mk.num] at h
  rw [readMk, ofNat_eq_of_mod (x := mode) (by omega), ofNat_eq_of_mod (x := q) (by omega)]

/-- A displacement that fits a T16J tail is the sign extension of its low 16 bits (R179). -/
theorem J.signExtend_low {p : J} (h : p.short = true) : (BitVec.ofNat 16 (p.disp.toNat % 2 ^ 16)).signExtend 32 = p.disp := by
  have hd : p.disp = (p.disp.setWidth 16).signExtend 32 := of_decide_eq_true h
  conv_rhs => rw [hd]
  congr 1
  exact ofNat_eq_of_mod (by simp)

/-- The displacement of a T16J tail fits it; every other field fits by its width. -/
def Body.fits : Body → Bool
  | .j16 p => p.short
  | _ => true

/-- The value of a tail fits its halfwords, and its fields read back from it (R170, R179). -/
theorem readTail_tail {b : Body} (h : b.fits = true) : b.tail < 2 ^ (16 * tailLen b.fmt.tl) ∧ readTail b.fmt b.sf b.tail = b := by
  cases b with
  | t0 p => exact ⟨Nat.one_pos, rfl⟩
  | j16 p =>
    refine ⟨Nat.mod_lt _ (by decide), ?_⟩
    simp only [Body.fmt, Body.sf, Body.tail, readTail, J.signExtend_low h]
  | j32 p => exact ⟨p.disp.isLt, by simp [Body.fmt, Body.sf, Body.tail, readTail]⟩
  | r1 p =>
    have hd := p.d.isLt
    have ha := p.a.num_lt
    simp only [Body.fmt, Body.sf, Body.tail, readTail, Fmt.tl, tailLen]
    refine ⟨by omega, ?_⟩
    rw [ofNat_eq_of_mod (x := p.d) (by omega), readS10_eq (s := p.a) (by omega)]
  | q p =>
    have hd := p.d.isLt
    have ha := p.qa.isLt
    have hb := p.qb.isLt
    simp only [Body.fmt, Body.sf, Body.tail, readTail, Fmt.tl, tailLen]
    refine ⟨by omega, ?_⟩
    rw [ofNat_eq_of_mod (x := p.d) (by omega), ofNat_eq_of_mod (x := p.qa) (by omega), ofNat_eq_of_mod (x := p.qb) (by omega)]
  | l p =>
    have hd := p.d.isLt
    have ha := p.a.num_lt
    have hi := p.imm.isLt
    simp only [Body.fmt, Body.sf, Body.tail, readTail, Fmt.tl, tailLen]
    refine ⟨by omega, ?_⟩
    rw [ofNat_eq_of_mod (x := p.d) (by omega), readS10_eq (s := p.a) (by omega), ofNat_eq_of_mod (x := p.imm) (by omega)]
  | s p =>
    have ha := p.a.num_lt
    have hb := p.b.num_lt
    have hi := p.imm.isLt
    simp only [Body.fmt, Body.sf, Body.tail, readTail, Fmt.tl, tailLen]
    refine ⟨by omega, ?_⟩
    rw [readS10_eq (s := p.a) (by omega), readS10_eq (s := p.b) (by omega), ofNat_eq_of_mod (x := p.imm) (by omega)]
  | r2 p =>
    obtain ⟨sf, d, a, b, msk, lit⟩ := p
    have hd := d.isLt
    have ha := a.num_lt
    have hb := b.num_lt
    have hm := msk.num_lt
    cases lit with
    | none =>
      simp only [Body.fmt, Body.sf, Body.tail, readTail, Fmt.tl, tailLen, Option.isSome_none, Bool.false_eq_true, if_false]
      refine ⟨by omega, ?_⟩
      rw [ofNat_eq_of_mod (x := d) (by omega), readS10_eq (s := a) (by omega), readS10_eq (s := b) (by omega), readMk_eq (m := msk) (by omega)]
    | some v =>
      have hv := v.isLt
      simp only [Body.fmt, Body.sf, Body.tail, readTail, Fmt.tl, tailLen, Option.isSome_some, if_true]
      refine ⟨by omega, ?_⟩
      rw [ofNat_eq_of_mod (x := d) (by omega), readS10_eq (s := a) (by omega), readS10_eq (s := b) (by omega), readMk_eq (m := msk) (by omega),
        ofNat_eq_of_mod (x := v) (by omega)]
  | r3 p =>
    have hd := p.d.isLt
    have ha := p.a.num_lt
    have hb := p.b.num_lt
    have hc := p.c.num_lt
    have hm := p.msk.num_lt
    have hr := p.rm.isLt
    have hi := p.imm.isLt
    simp only [Body.fmt, Body.sf, Body.tail, readTail, Fmt.tl, tailLen]
    refine ⟨by omega, ?_⟩
    rw [ofNat_eq_of_mod (x := p.d) (by omega), readS10_eq (s := p.a) (by omega), readS10_eq (s := p.b) (by omega), readS10_eq (s := p.c) (by omega),
      readMk_eq (m := p.msk) (by omega), ofNat_eq_of_mod (x := p.rm) (by omega), ofNat_eq_of_mod (x := p.imm) (by omega)]
  | m p =>
    have hd := p.d.isLt
    have ha := p.base.num_lt
    have hb := p.x.num_lt
    have hf := p.fmt.isLt
    have hp := p.planes.isLt
    have hm := p.msk.num_lt
    have hr := p.rdr.isLt
    have ho := p.off.isLt
    simp only [Body.fmt, Body.sf, Body.tail, readTail, Fmt.tl, tailLen]
    refine ⟨by omega, ?_⟩
    rw [ofNat_eq_of_mod (x := p.d) (by omega), readS10_eq (s := p.base) (by omega), readS10_eq (s := p.x) (by omega),
      ofNat_eq_of_mod (x := p.fmt) (by omega), ofNat_eq_of_mod (x := p.planes) (by omega), readMk_eq (m := p.msk) (by omega),
      ofNat_eq_of_mod (x := p.rdr) (by omega), ofNat_eq_of_mod (x := p.off) (by omega)]

/-- The fields that a tail gives are laid out in its format, with the SF of its head. -/
theorem readTail_fmt (f : Fmt) (sf : BitVec 4) (t : Nat) : (readTail f sf t).fmt = f ∧ (readTail f sf t).sf = sf := by
  cases f <;> exact ⟨rfl, rfl⟩

/-! ### Fields of a head -/

theorem Fmt.tl_lt (f : Fmt) : f.tl < 4 := by cases f <;> decide

/-- The fields of a head read back from it (R169). -/
theorem mkHead_fields {tl op : Nat} (pl : Bool) (sf : BitVec 4) (htl : tl < 4) (hop : op < 512) : let h := (mkHead tl op pl sf).toNat
    bits h 14 2 = tl ∧ bits h 5 9 = op ∧ (bits h 4 1 == 1) = pl ∧ BitVec.ofNat 4 h = sf := by
  have hsf := sf.isLt
  have hpl := pl.toNat_lt
  have hh : (mkHead tl op pl sf).toNat = tl * 2 ^ 14 + op * 2 ^ 5 + pl.toNat * 2 ^ 4 + sf.toNat := by
    have : (if pl then 1 else 0) = pl.toNat := by cases pl <;> rfl
    rw [mkHead, this, BitVec.toNat_ofNat, Nat.mod_eq_of_lt (by omega)]
  have hbit : (pl.toNat == 1) = pl := by cases pl <;> rfl
  simp only [hh, bits]
  refine ⟨by omega, by omega, ?_, ofNat_eq_of_mod (by omega)⟩
  conv_rhs => rw [← hbit]
  congr 1
  omega

/-- A head is made of its fields (R169). -/
theorem mkHead_of_fields (head : Half) : let h := head.toNat
    mkHead (bits h 14 2) (bits h 5 9) (bits h 4 1 == 1) (BitVec.ofNat 4 h) = head := by
  have hh := head.isLt
  have hbit : (if (bits head.toNat 4 1 == 1) = true then 1 else 0) = bits head.toNat 4 1 := by
    have hbits : bits head.toNat 4 1 = 0 ∨ bits head.toNat 4 1 = 1 := Nat.mod_two_eq_zero_or_one _
    rcases hbits with h | h <;> rw [h] <;> rfl
  simp only [mkHead, hbit, BitVec.toNat_ofNat]
  refine ofNat_eq_of_mod ?_
  simp only [bits]
  omega

/-! ### The tables -/

/-! Each table of the decoder gives an instruction of the opcode, the placement and the fields that it was asked for (R182). -/

theorem nearT0_body {op : Nat} {p : Head} {i : Instr} : nearT0 op p = some i → i.body = some (op, false, .t0 p) := by
  fun_cases nearT0 op p <;> rintro ⟨⟩ <;> rfl

theorem nearR1_body {op : Nat} {p : R1} {i : Instr} : nearR1 op p = some i → i.body = some (op, false, .r1 p) := by
  fun_cases nearR1 op p <;> rintro ⟨⟩ <;> rfl

theorem nearQ_body {op : Nat} {p : Q} {i : Instr} : nearQ op p = some i → i.body = some (op, false, .q p) := by
  fun_cases nearQ op p <;> rintro ⟨⟩ <;> rfl

theorem nearR2_body {op : Nat} {p : R2} {i : Instr} : nearR2 op p = some i → i.body = some (op, false, .r2 p) := by
  fun_cases nearR2 op p <;> rintro ⟨⟩ <;> rfl

theorem nearL_body {op : Nat} {p : L} {i : Instr} : nearL op p = some i → i.body = some (op, false, .l p) := by
  fun_cases nearL op p <;> rintro ⟨⟩ <;> rfl

theorem nearS_body {op : Nat} {p : S} {i : Instr} : nearS op p = some i → i.body = some (op, false, .s p) := by
  fun_cases nearS op p <;> rintro ⟨⟩ <;> rfl

theorem nearR3_body {op : Nat} {p : R3} {i : Instr} : nearR3 op p = some i → i.body = some (op, false, .r3 p) := by
  fun_cases nearR3 op p <;> rintro ⟨⟩ <;> rfl

theorem nearM_body {op : Nat} {p : M} {i : Instr} : nearM op p = some i → i.body = some (op, false, .m p) := by
  fun_cases nearM op p <;> rintro ⟨⟩ <;> rfl

theorem farR3_body {op : Nat} {p : R3} {i : Instr} : farR3 op p = some i → i.body = some (op, true, .r3 p) := by
  fun_cases farR3 op p <;> rintro ⟨⟩ <;> rfl

theorem farM_body {op : Nat} {p : M} {i : Instr} : farM op p = some i → i.body = some (op, true, .m p) := by
  fun_cases farM op p <;> rintro ⟨⟩ <;> rfl

/-- The transfers of the short form are those of a T16J tail (R179, R203). -/
theorem nearJ16_cases {op : Nat} {p : J} {i : Instr} :
    nearJ16 op p = some i → i.body = some (op, false, .j16 p) ∧ i.rules.fields = p.short := by
  fun_cases nearJ16 op p <;> rintro ⟨⟩ <;> exact ⟨rfl, rfl⟩

theorem nearJ32_body {op : Nat} {p : J} {i : Instr} : nearJ32 op p = some i → i.body = some (op, false, .j32 p) := by
  fun_cases nearJ32 op p <;> rintro ⟨⟩ <;> rfl

/-- The instruction of an opcode, a placement and fields has them (R182). -/
theorem ofBody_body {op : Nat} {pl : Bool} {b : Body} {i : Instr} (h : ofBody op pl b = some i) : i.body = some (op, pl, b) := by
  cases pl with
  | true => cases b with
    | r3 p => exact farR3_body h
    | m p => exact farM_body h
    | _ => cases h
  | false => cases b with
    | t0 p => exact nearT0_body h
    | r1 p => exact nearR1_body h
    | q p => exact nearQ_body h
    | j16 p => exact (nearJ16_cases h).1
    | r2 p => exact nearR2_body h
    | l p => exact nearL_body h
    | s p => exact nearS_body h
    | j32 p => exact nearJ32_body h
    | r3 p => exact nearR3_body h
    | m p => exact nearM_body h

/-- The fields of a well-formed instruction fit its tail (R179). -/
theorem Body.fits_of_wellFormed {op : Nat} {pl : Bool} {b : Body} {i : Instr} (h : ofBody op pl b = some i) (hi : i.wellFormed = true) :
    b.fits = true := by
  cases b with
  | j16 p =>
    cases pl with
    | true => cases h
    | false =>
      obtain ⟨-, -, hfields⟩ := FormatSelects.rules_of hi
      rwa [(nearJ16_cases h).2] at hfields
  | _ => rfl

/-- Every instruction of a program selects its own format and its own row of the tables (R182). -/
theorem formatSelects (i : Instr) : FormatSelects.Statement i := by
  cases i with
  | nop p => exact FormatSelects.nop p | add p => exact FormatSelects.add p | sub p => exact FormatSelects.sub p
  | mul p => exact FormatSelects.mul p | mulh p => exact FormatSelects.mulh p | mulhsu p => exact FormatSelects.mulhsu p
  | div p => exact FormatSelects.div p | divu p => exact FormatSelects.divu p | rem p => exact FormatSelects.rem p
  | remu p => exact FormatSelects.remu p | and p => exact FormatSelects.and p | or p => exact FormatSelects.or p
  | xor p => exact FormatSelects.xor p | andn p => exact FormatSelects.andn p | sll p => exact FormatSelects.sll p
  | srl p => exact FormatSelects.srl p | sra p => exact FormatSelects.sra p | rol p => exact FormatSelects.rol p
  | ror p => exact FormatSelects.ror p | slt p => exact FormatSelects.slt p | sltu p => exact FormatSelects.sltu p
  | min p => exact FormatSelects.min p | max p => exact FormatSelects.max p | minu p => exact FormatSelects.minu p
  | maxu p => exact FormatSelects.maxu p | clz p => exact FormatSelects.clz p | ctz p => exact FormatSelects.ctz p
  | popc p => exact FormatSelects.popc p | sext p => exact FormatSelects.sext p | zext p => exact FormatSelects.zext p
  | liReg p => exact FormatSelects.liReg p | liLit32 p => exact FormatSelects.liLit32 p | liHn p => exact FormatSelects.liHn p
  | lea p => exact FormatSelects.lea p | leaDisp p => exact FormatSelects.leaDisp p | sel p => exact FormatSelects.sel p
  | bfx p => exact FormatSelects.bfx p | bfi p => exact FormatSelects.bfi p | fadd p => exact FormatSelects.fadd p
  | fsub p => exact FormatSelects.fsub p | fmul p => exact FormatSelects.fmul p | fdiv p => exact FormatSelects.fdiv p
  | fsqrt p => exact FormatSelects.fsqrt p | fmadd p => exact FormatSelects.fmadd p | fmin p => exact FormatSelects.fmin p
  | fmax p => exact FormatSelects.fmax p | fcmp p => exact FormatSelects.fcmp p | fcvt p => exact FormatSelects.fcvt p
  | fclass p => exact FormatSelects.fclass p | bCc p => exact FormatSelects.bCc p | jShort p => exact FormatSelects.jShort p
  | jLong p => exact FormatSelects.jLong p | jalShort p => exact FormatSelects.jalShort p | jalLong p => exact FormatSelects.jalLong p
  | jr p => exact FormatSelects.jr p | ret p => exact FormatSelects.ret p | loop p => exact FormatSelects.loop p
  | ld p => exact FormatSelects.ld p | st p => exact FormatSelects.st p | pref p => exact FormatSelects.pref p
  | amo p => exact FormatSelects.amo p | lr p => exact FormatSelects.lr p | sc p => exact FormatSelects.sc p
  | trap p => exact FormatSelects.trap p | eret p => exact FormatSelects.eret p | srr p => exact FormatSelects.srr p
  | srw p => exact FormatSelects.srw p | pause p => exact FormatSelects.pause p | yield p => exact FormatSelects.yield p
  | wfev p => exact FormatSelects.wfev p | fenceSv p => exact FormatSelects.fenceSv p | fenceStk p => exact FormatSelects.fenceStk p
  | rel p => exact FormatSelects.rel p | acq p => exact FormatSelects.acq p | vsave p => exact FormatSelects.vsave p
  | vrstr p => exact FormatSelects.vrstr p | frz p => exact FormatSelects.frz p | vcfg p => exact FormatSelects.vcfg p
  | vsetl p => exact FormatSelects.vsetl p | vqlen p => exact FormatSelects.vqlen p | vbind p => exact FormatSelects.vbind p
  | vbindOff p => exact FormatSelects.vbindOff p | vspill p => exact FormatSelects.vspill p | vfill p => exact FormatSelects.vfill p
  | vadd p => exact FormatSelects.vadd p | vsub p => exact FormatSelects.vsub p | vmul p => exact FormatSelects.vmul p
  | vfma p => exact FormatSelects.vfma p | vfms p => exact FormatSelects.vfms p | vnfma p => exact FormatSelects.vnfma p
  | vdiv p => exact FormatSelects.vdiv p | vsqrt p => exact FormatSelects.vsqrt p | vrsqrt p => exact FormatSelects.vrsqrt p
  | vexp2 p => exact FormatSelects.vexp2 p | vlog2 p => exact FormatSelects.vlog2 p | vmin p => exact FormatSelects.vmin p
  | vmax p => exact FormatSelects.vmax p | vabs p => exact FormatSelects.vabs p | vneg p => exact FormatSelects.vneg p
  | vcvt p => exact FormatSelects.vcvt p | vclass p => exact FormatSelects.vclass p | viadd p => exact FormatSelects.viadd p
  | visub p => exact FormatSelects.visub p | vimul p => exact FormatSelects.vimul p | vimulh p => exact FormatSelects.vimulh p
  | vand p => exact FormatSelects.vand p | vor p => exact FormatSelects.vor p | vxor p => exact FormatSelects.vxor p
  | vshl p => exact FormatSelects.vshl p | vshr p => exact FormatSelects.vshr p | vsra p => exact FormatSelects.vsra p
  | vimin p => exact FormatSelects.vimin p | vimax p => exact FormatSelects.vimax p | fVadd p => exact FormatSelects.fVadd p
  | fVsub p => exact FormatSelects.fVsub p | fVmul p => exact FormatSelects.fVmul p | fVfma p => exact FormatSelects.fVfma p
  | fVfms p => exact FormatSelects.fVfms p | fVnfma p => exact FormatSelects.fVnfma p | fVmin p => exact FormatSelects.fVmin p
  | fVmax p => exact FormatSelects.fVmax p | fVabs p => exact FormatSelects.fVabs p | fVneg p => exact FormatSelects.fVneg p
  | fVcvt p => exact FormatSelects.fVcvt p | fViadd p => exact FormatSelects.fViadd p | fVisub p => exact FormatSelects.fVisub p
  | fVimul p => exact FormatSelects.fVimul p | fVimulh p => exact FormatSelects.fVimulh p | fVand p => exact FormatSelects.fVand p
  | fVor p => exact FormatSelects.fVor p | fVxor p => exact FormatSelects.fVxor p | fVshl p => exact FormatSelects.fVshl p
  | fVshr p => exact FormatSelects.fVshr p | fVsra p => exact FormatSelects.fVsra p | fVimin p => exact FormatSelects.fVimin p
  | fVimax p => exact FormatSelects.fVimax p | vcmp p => exact FormatSelects.vcmp p | qand p => exact FormatSelects.qand p
  | qor p => exact FormatSelects.qor p | qnot p => exact FormatSelects.qnot p | qpop p => exact FormatSelects.qpop p
  | qfirst p => exact FormatSelects.qfirst p | vsel p => exact FormatSelects.vsel p | viota p => exact FormatSelects.viota p
  | vred p => exact FormatSelects.vred p | vredo p => exact FormatSelects.vredo p | fVred p => exact FormatSelects.fVred p
  | fVredo p => exact FormatSelects.fVredo p | vscan p => exact FormatSelects.vscan p | vperm p => exact FormatSelects.vperm p
  | vslide p => exact FormatSelects.vslide p | vcompress p => exact FormatSelects.vcompress p | vexpand p => exact FormatSelects.vexpand p
  | vbcast p => exact FormatSelects.vbcast p | fVbcast p => exact FormatSelects.fVbcast p | vext p => exact FormatSelects.vext p
  | vins p => exact FormatSelects.vins p | vdupm p => exact FormatSelects.vdupm p | vsortk p => exact FormatSelects.vsortk p
  | vtopk p => exact FormatSelects.vtopk p | vld p => exact FormatSelects.vld p | vst p => exact FormatSelects.vst p
  | vlds p => exact FormatSelects.vlds p | vsts p => exact FormatSelects.vsts p | vldx p => exact FormatSelects.vldx p
  | vstx p => exact FormatSelects.vstx p | vldt p => exact FormatSelects.vldt p | vstt p => exact FormatSelects.vstt p
  | vamo p => exact FormatSelects.vamo p | vpref p => exact FormatSelects.vpref p | fVld p => exact FormatSelects.fVld p
  | fVst p => exact FormatSelects.fVst p | fVlds p => exact FormatSelects.fVlds p | fVsts p => exact FormatSelects.fVsts p
  | fVldx p => exact FormatSelects.fVldx p | fVstx p => exact FormatSelects.fVstx p | fVamo p => exact FormatSelects.fVamo p
  | fVpref p => exact FormatSelects.fVpref p | fexpr p => exact FormatSelects.fexpr p | fdot p => exact FormatSelects.fdot p
  | fred p => exact FormatSelects.fred p | fget p => exact FormatSelects.fget p | fput p => exact FormatSelects.fput p
  | fattn p => exact FormatSelects.fattn p | mshape p => exact FormatSelects.mshape p | mmaO p => exact FormatSelects.mmaO p
  | mmaF p => exact FormatSelects.mmaF p | mgrpO p => exact FormatSelects.mgrpO p | mgrpF p => exact FormatSelects.mgrpF p
  | mzero p => exact FormatSelects.mzero p | mld p => exact FormatSelects.mld p | mst p => exact FormatSelects.mst p
  | mmovBodyToVec p => exact FormatSelects.mmovBodyToVec p | mmovVecToBody p => exact FormatSelects.mmovVecToBody p
  | mmovStToVec p => exact FormatSelects.mmovStToVec p | mmovVecToSt p => exact FormatSelects.mmovVecToSt p
  | mscale p => exact FormatSelects.mscale p | msoft p => exact FormatSelects.msoft p | mmask p => exact FormatSelects.mmask p
  | mmerge p => exact FormatSelects.mmerge p | mfin p => exact FormatSelects.mfin p | vproj p => exact FormatSelects.vproj p
  | vpmerge p => exact FormatSelects.vpmerge p | vpfin p => exact FormatSelects.vpfin p | vpgrad p => exact FormatSelects.vpgrad p
  | eqclaim p => exact FormatSelects.eqclaim p | tsend p => exact FormatSelects.tsend p | ttake p => exact FormatSelects.ttake p
  | ttakeM p => exact FormatSelects.ttakeM p | tlook p => exact FormatSelects.tlook p | tlookM p => exact FormatSelects.tlookM p
  | tdrop p => exact FormatSelects.tdrop p | twait p => exact FormatSelects.twait p | tmark p => exact FormatSelects.tmark p
  | nodeCopy p => exact FormatSelects.nodeCopy p | nodeCall p => exact FormatSelects.nodeCall p | nodeEdge p => exact FormatSelects.nodeEdge p
  | nodeArm p => exact FormatSelects.nodeArm p | nodeArmDone p => exact FormatSelects.nodeArmDone p
  | nodeWait p => exact FormatSelects.nodeWait p | publish p => exact FormatSelects.publish p | hwpub p => exact FormatSelects.hwpub p
  | bar p => exact FormatSelects.bar p | barDom p => exact FormatSelects.barDom p | kvmap p => exact FormatSelects.kvmap p
  | kvapp p => exact FormatSelects.kvapp p | kvxl p => exact FormatSelects.kvxl p | kvxlE p => exact FormatSelects.kvxlE p
  | kvfork p => exact FormatSelects.kvfork p | kvrel p => exact FormatSelects.kvrel p | kvscore p => exact FormatSelects.kvscore p
  | kvtopk p => exact FormatSelects.kvtopk p | kvkeep p => exact FormatSelects.kvkeep p | kvpidx p => exact FormatSelects.kvpidx p
  | kvpidxIns p => exact FormatSelects.kvpidxIns p
  | _ => rintro _ _ _ ⟨⟩

/-! ### What the decoder accepts -/

theorem pickFmt_some {tl : Nat} {fs : List Fmt} {f : Fmt} (h : pickFmt tl fs = some f) : f.tl = tl ∧ fs.isEmpty = false := by
  refine ⟨by simpa using List.find?_some h, ?_⟩
  cases fs with
  | nil => cases h
  | cons g gs => rfl

/-- A head and a tail decode to the instruction that their opcode, placement and fields name when it is well formed and the tail holds no other
bit (R168 to R170, R182, R416, R419). -/
theorem decode_ok_iff {head : Half} {tail op : Nat} {pl : Bool} {i : Instr} (hop : bits head.toNat 5 9 = op)
    (hpl : (bits head.toNat 4 1 == 1) = pl) : decode head tail = .ok i ↔
      ∃ f, pickFmt (bits head.toNat 14 2) (if pl then farFormats op else nearFormats op) = some f ∧
        ofBody op pl (readTail f (BitVec.ofNat 4 head.toNat) tail) = some i ∧ i.wellFormed = true ∧
        (readTail f (BitVec.ofNat 4 head.toNat) tail).tail = tail := by
  have hwf : i.wellFormed = true ↔ i.illFormed = none := by simp [Instr.wellFormed]
  rw [hwf]
  simp only [decode, hop, hpl]
  generalize BitVec.ofNat 4 head.toNat = sf
  constructor
  · intro h
    repeat (split at h; · cases h)
    rename_i f hf _ j hj _ hill
    split at h
    · rename_i htail
      cases h
      exact ⟨f, hf, hj, hill, htail⟩
    · cases h
  · rintro ⟨f, hf, hbody, hill, htail⟩
    obtain ⟨-, hne⟩ := pickFmt_some hf
    cases pl with
    | true =>
      simp only [if_true] at hf hne
      simp [hf, hne, hbody, hill, htail]
    | false =>
      simp only [Bool.false_eq_true, if_false] at hf hne
      simp [hf, hne, hbody, hill, htail]

/-- What a well-formed instruction of a program is encoded as decodes to it (R168 to R170, R174 to R182). -/
theorem decode_encode {i : Instr} (hprog : i.isEvent = false) (hi : i.wellFormed = true) :
    ∃ head tail, encode i = some (head, tail) ∧ tail < 2 ^ (16 * tailLen (headTl head)) ∧ decode head tail = .ok i := by
  have hsome : i.body.isSome = true := by simpa [Instr.isEvent] using hprog
  obtain ⟨⟨op, pl, b⟩, hb⟩ := Option.isSome_iff_exists.mp hsome
  obtain ⟨hop, hpick, hof⟩ := formatSelects i op pl b hb hi
  obtain ⟨hlt, hread⟩ := readTail_tail (Body.fits_of_wellFormed hof hi)
  obtain ⟨htl, hopc, hplace, hsf⟩ := mkHead_fields pl b.sf b.fmt.tl_lt hop
  refine ⟨_, b.tail, by simp only [encode, hb], by rwa [headTl, htl], (decode_ok_iff hopc hplace).mpr ⟨b.fmt, ?_⟩⟩
  rw [htl, hsf, hread]
  exact ⟨hpick, hof, hi, rfl⟩

/-- A word that decodes is the one that its instruction is encoded as (R168 to R170, R174 to R182). -/
theorem encode_decode {head : Half} {tail : Nat} {i : Instr} (h : decode head tail = .ok i) :
    i.wellFormed = true ∧ encode i = some (head, tail) := by
  obtain ⟨f, hpick, hof, hi, htail⟩ := (decode_ok_iff rfl rfl).mp h
  obtain ⟨htl, -⟩ := pickFmt_some hpick
  obtain ⟨hfmt, hsf⟩ := readTail_fmt f (BitVec.ofNat 4 head.toNat) tail
  refine ⟨hi, ?_⟩
  simp only [encode, ofBody_body hof, hfmt, hsf, htl, htail]
  rw [mkHead_of_fields head]

/-! ### The line of one head -/

/-- The halfwords of a line's bytes, those of one part after those of another. -/
theorem halves_append (k : Nat) : ∀ {a : List Byte} (b : List Byte), a.length = 2 * k → halves (a ++ b) = halves a ++ halves b := by
  induction k with
  | zero => intro a b ha; rw [List.length_eq_zero_iff.mp ha]; rfl
  | succ k ih =>
    intro a b ha
    match a, ha with
    | lo :: hi :: a, ha => simp only [List.cons_append, halves, ih b (by simpa [Nat.mul_succ] using ha)]

theorem halves_leBytes (n : Nat) : ∀ v, (halves (leBytes (2 * n) v)).length = n ∧
    (halves (leBytes (2 * n) v)).foldr (fun x acc => x.toNat + 2 ^ 16 * acc) 0 = v % 2 ^ (16 * n) := by
  induction n with
  | zero => intro v; exact ⟨rfl, (Nat.mod_one v).symm⟩
  | succ n ih =>
    intro v
    have hdiv : v / 256 / 256 = v / 2 ^ 16 := by omega
    obtain ⟨hlen, hval⟩ := ih (v / 2 ^ 16)
    have hpow : 2 ^ (16 * (n + 1)) = 2 ^ 16 * 2 ^ (16 * n) := by rw [Nat.mul_succ, Nat.pow_add, Nat.mul_comm]
    rw [Nat.mul_succ]
    simp only [leBytes, halves, List.length_cons, List.foldr_cons, hdiv, hlen, hval, true_and, BitVec.toNat_ofNat, hpow, Nat.mod_mul]
    omega

theorem halves_zeros (n : Nat) : halves (List.replicate (2 * n) 0) = List.replicate n 0 := by
  induction n with
  | zero => rfl
  | succ n ih =>
    rw [Nat.mul_succ]
    simp only [List.replicate_succ, halves, ih]
    rfl

theorem tailLen_le (n : Nat) : tailLen n ≤ 4 := by
  unfold tailLen
  split <;> decide

/-- The halfwords of a line of one head: its descriptor, the head, zeros and the tail (R168, R170). -/
theorem halves_lineOf (head : Half) (tail : Nat) : let n := tailLen (headTl head)
    halves (lineOf head tail) = 1 :: head :: (List.replicate (30 - n) 0 ++ halves (leBytes (2 * n) tail)) := by
  intro n
  have hn : n ≤ 4 := tailLen_le _
  have hzeros : 60 - 2 * n = 2 * (30 - n) := by omega
  have hhead : halves (leBytes 2 head.toNat) = [head] := by
    have hh := head.isLt
    simp only [leBytes, halves, BitVec.toNat_ofNat, List.cons.injEq, and_true]
    exact ofNat_eq_of_mod (by omega)
  have hdesc : halves (leBytes 2 1) = [1] := rfl
  simp only [lineOf, List.append_assoc]
  rw [halves_append 1 _ (length_leBytes _ _), halves_append 1 _ (length_leBytes _ _), hdesc, hhead, hzeros,
    halves_append (30 - n) _ (by simp), halves_zeros]
  rfl

/-- A line of one head and its tail gives them back (R168 to R171). -/
theorem lineOf_reads {head : Half} {tail : Nat} (ht : tail < 2 ^ (16 * tailLen (headTl head))) : let h := halves (lineOf head tail)
    (lineOf head tail).length = 64 ∧ lineHeads h = .ok 1 ∧ h.getD 1 0 = head ∧ lineTail h 1 = tail := by
  have hn := tailLen_le (headTl head)
  obtain ⟨hlen, hval⟩ := halves_leBytes (tailLen (headTl head)) tail
  rw [Nat.mod_eq_of_lt ht] at hval
  simp only [halves_lineOf]
  refine ⟨?_, ?_, rfl, ?_⟩
  · simp only [lineOf, List.length_append, length_leBytes, List.length_replicate]
    omega
  · simp [lineHeads]
    omega
  · have hdrop : 32 - 0 - tailLen (headTl head) = (1 :: head :: List.replicate (30 - tailLen (headTl head)) 0).length := by simp; omega
    change List.foldr _ 0 (((1 :: head :: List.replicate _ 0 ++ _).drop (32 - 0 - tailLen (headTl head))).take (tailLen (headTl head))) = tail
    rw [hdrop, List.drop_left, List.take_of_length_le hlen.le]
    exact hval

/-- Settles O53: a well-formed instruction selects its own format and row, fields read back where they were laid out, and so does the line. -/
theorem decodeOfEncode : Obligations.DecodeOfEncode :=
  ⟨fun _ => decode_encode, fun _ _ _ => encode_decode, fun _ _ => lineOf_reads⟩

end Sys2Proof
end

section
/-! PROOFS. Control transfers that do not arrive (R173, R205, R420, R442, R475): how a transfer instruction goes to its target, and what it meets
at address 0 and at an address that is no head. -/

namespace Sys2Proof.Machine

/-! ### Going to the target -/

/-- PC + 2 × a displacement, as the spec and as the model write it (R173). -/
theorem relTarget_toInt {n : Nat} (s : State) (d : BitVec n) : s.relTarget d.toInt = s.target d := by
  rw [State.relTarget, word_eq_ofInt, Int.two_mul, BitVec.ofInt_add, ← BitVec.add_assoc]
  rfl

/-- A condition that holds is taken (R202). -/
theorem branchTaken_of_holds {sf : BitVec 4} {a b : Word} (h : branchHolds sf a b) : branchTaken sf.toNat a b = true := by
  rcases h with ⟨rfl, h⟩ | ⟨rfl, h⟩ | ⟨rfl, h⟩ | ⟨rfl, h⟩ | ⟨rfl, h⟩ | ⟨rfl, h⟩ <;> exact decide_eq_true h

/-- A transfer instruction that transfers goes to its target, and may then write a register (R202 to R206). -/
theorem exec_transfer {i : Instr} {s : State} {a : Word} (hto : transferTo i s = some a) (hgo : transfers i s) :
    exec i s = retire (jumpTo s a) ∨ ∃ r v, exec i s = retire (s.jumpLink r v a) := by
  cases i with
  | bCc p =>
    obtain rfl := Option.some.inj hto
    left
    change execBCc p s = _
    rw [execBCc, if_pos (branchTaken_of_holds hgo), signed_toNat, relTarget_toInt]
  | jShort p =>
    obtain rfl := Option.some.inj hto
    exact .inl (congrArg (fun x => retire (jumpTo s x)) (relTarget_toInt s p.disp))
  | jLong p =>
    obtain rfl := Option.some.inj hto
    exact .inl (congrArg (fun x => retire (jumpTo s x)) (relTarget_toInt s p.disp))
  | jalShort p =>
    obtain rfl := Option.some.inj hto
    exact .inr ⟨31, s.cur.npc, congrArg (fun x => retire (s.jumpLink 31 s.cur.npc x)) (relTarget_toInt s p.disp)⟩
  | jalLong p =>
    obtain rfl := Option.some.inj hto
    exact .inr ⟨31, s.cur.npc, congrArg (fun x => retire (s.jumpLink 31 s.cur.npc x)) (relTarget_toInt s p.disp)⟩
  | jr p =>
    obtain rfl := Option.some.inj hto
    exact .inr ⟨gd p.d, s.cur.npc, rfl⟩
  | ret p =>
    obtain rfl := Option.some.inj hto
    exact .inl rfl
  | loop p =>
    obtain rfl := Option.some.inj hto
    refine .inr ⟨p.a.gidx, s.src p.a - s.src p.b, ?_⟩
    change execLoop p s = _
    have hpos : 0 < (s.src p.a - s.src p.b).toInt := hgo
    simp only [execLoop, if_pos hpos, signed_toNat, relTarget_toInt]
  | _ => cases hto

section
variable {i : Instr} {s : State} {a : Word} (hto : transferTo i s = some a) (hgo : transfers i s)
include hto hgo

/-- A transfer that something stops ends so, and writes no register (R415). -/
theorem exec_transfer_stopped {x : Res} (hx : jumpTo s a = x) (hstop : ∀ t, x ≠ .ok t) : exec i s = retire x := by
  rcases exec_transfer hto hgo with h | ⟨r, v, h⟩
  · rw [h, hx]
  · rw [h, State.jumpLink, hx]
    cases x with
    | ok t => exact absurd rfl (hstop t)
    | _ => rfl

/-- A transfer that arrives completes, with a register written or none. -/
theorem exec_transfer_arrives {t : State} (hx : jumpTo s a = .ok t) :
    exec i s = .next t.completed ∨ ∃ r v, exec i s = .next (t.setG r v).completed := by
  rcases exec_transfer hto hgo with h | ⟨r, v, h⟩
  · exact .inl (by rw [h, hx, retire_ok])
  · exact .inr ⟨r, v, by rw [h, State.jumpLink, hx]; rfl⟩

end

/-! ### Address 0 -/

/-- A posted store that is not held has performed: with none held, none is left to perform (R442). -/
theorem settle_settle {s : State} (h : s.stuck = none) : s.settle.settle = s.settle := by
  have hid : s.settle.cur.id = s.cur.id := by
    obtain ⟨r, hr⟩ := keepsHart_settle s
    rw [hr]
  have hnone : s.settle.posted = false := by
    rw [State.posted, List.any_eq_false, hid]
    intro x hx
    have hstuck := List.findSome?_eq_none_iff.mp h x hx
    cases x with
    | store => simpa [Msg.storeOf] using hstuck
    | _ => exact Bool.false_ne_true
  rw [State.settle, if_neg (by rw [hnone]; exact Bool.false_ne_true)]

/-- The end of a launch notes its time alone (R363). -/
theorem noteEnd_keeps {α : Type} (f : State → α) (s : State) (k : ∀ x, f { s with launches := x } = f s) : f s.noteEnd = f s := by
  unfold State.noteEnd
  simp only
  split
  · exact State.onLaunch_keeps f s _ _ k
  · rfl

/-- What a transfer to address 0 does once the vector queue has drained and every store has performed (R205). -/
theorem jumpTo_zero_ends {s : State} (hq : s.cur.vq = []) (hl : s.lostStore = none) (hs : s.stuck = none) :
    ∃ t, jumpTo s 0 = .ok t ∧ t.cur.phase = .ended ∧ t.cur.accs = [] ∧ t.cur.resv = none ∧ t.cur.vq = [] ∧ t.dram = s.settle.dram ∧
      t.near = s.settle.near ∧ t.msc = s.settle.msc ∧ t.fabric = s.settle.fabric := by
  refine ⟨{ endHart s.settle with cur := { (endHart s.settle).cur with npc := 0 } }, by simp [jumpTo, afterQueue, State.afterStores, hq, hl, hs], ?_⟩
  have hcur : (endHart s.settle).cur = s.settle.cur.finish := by rw [endHart, settle_settle hs, noteEnd_keeps State.cur _ fun _ => rfl]
  refine ⟨?_, ?_, ?_, ?_, ?_, ?_, ?_, ?_⟩
  iterate 4 simp only [hcur]; rfl
  all_goals simp only [endHart, settle_settle hs]
  · exact noteEnd_keeps State.dram _ fun _ => rfl
  · exact noteEnd_keeps State.near _ fun _ => rfl
  · exact noteEnd_keeps State.msc _ fun _ => rfl
  · exact noteEnd_keeps State.fabric _ fun _ => rfl

theorem completed_ended {t : State} (h : t.cur.phase = .ended) : t.completed.cur.phase = .ended := by
  simp [State.completed, Hart.progress, Hart.quiet, Hart.passes, h]

/-- The hart stands, is held, ends, or stops at a store that was never acknowledged (R205, R442, R475). -/
theorem transferToZeroEndsTheHart : TransferToZeroEndsTheHart := by
  intro i s hto hgo
  refine ⟨fun hq => ?_, fun k hq hl hk => ?_, fun hq hl hs => ?_, fun va hq hl hm => ?_⟩
  · rw [exec_transfer_stopped hto hgo (x := .stall s) (by simp [jumpTo, afterQueue, hq]) (by simp), retire_stall]
  · rw [exec_transfer_stopped hto hgo (x := .held k.1 k.2 s) (by simp [jumpTo, afterQueue, State.afterStores, hq, hl, hk]) (by simp), retire_held]
  · obtain ⟨t, ht, hphase, haccs, hresv, hvq, hdram, hnear, hmsc, hfabric⟩ := jumpTo_zero_ends hq hl hs
    rcases exec_transfer_arrives hto hgo ht with h | ⟨r, v, h⟩
    · exact ⟨_, h, completed_ended hphase, haccs, hresv, hvq, hdram, hnear, hmsc, hfabric⟩
    · exact ⟨_, h, completed_ended (by simpa using hphase), by simpa using haccs, by simpa using hresv, by simpa using hvq, hdram, hnear, hmsc,
        hfabric⟩
  · refine ⟨_, exec_transfer_stopped hto hgo (x := .trap ⟨mkCause 0x0F 3, va, false⟩ s) (by simp [jumpTo, afterQueue, hq, hl]) (by simp), ?_⟩
    obtain ⟨hphase, -, hcause, htval, -⟩ := takeTrap_awaits (s := s.unwaited) (x := ⟨mkCause 0x0F 3, va, false⟩) hm
      (show onH (mkCause 0x0F 3) = false by decide)
    exact ⟨hphase, hcause, htval⟩

/-- Neither the transfer nor its link is made (R173, R415, R420). -/
theorem transferToNoHeadTraps : TransferToNoHeadTraps := by
  intro i s a hto hgo ha hhead hm hv
  have hjump : jumpTo s a = precise 0x02 0x09 (BitVec.ofNat 64 (a.toNat / 64 * 64)) s := by
    rw [jumpTo, if_neg ha, hhead]
    rfl
  obtain ⟨t, ht, hpc, -, -, -, -, hcause, htval, htepc, hrest⟩ := retire_precise_enters (c := 0x02) (k := 0x09)
    (BitVec.ofNat 64 (a.toNat / 64 * 64)) hm hv (by decide) (by decide)
  obtain ⟨-, -, -, -, -, -, -, -, -, -, -, -, -, -, hg, hvec, hflags, hmem, -⟩ := hrest
  exact ⟨t, (exec_transfer_stopped hto hgo hjump (by simp [precise])).trans ht, hpc, hcause, htepc, htval, hg, hvec, hflags, hmem⟩

/-- Settles O8: a transfer goes through `jumpTo`, which at 0 ends the hart or stops, and at no head traps. -/
theorem transfersThatDoNotArrive : Obligations.TransfersThatDoNotArrive := ⟨transferToZeroEndsTheHart, transferToNoHeadTraps⟩

end Sys2Proof.Machine
end

section
/-! PROOFS. Words that the spec writes out, and a malformed line reached while sr.atp is poisoned (R171, R418, R456). -/

namespace Sys2Proof.Machine

/-- Settles O54: each word is decoded by the model's decoder. -/
theorem specWordsDecode : Obligations.SpecWordsDecode := by
  unfold Obligations.SpecWordsDecode
  decide +kernel

/-! ### A malformed line and a poisoned sr.atp -/

/-- A fetch at an address other than 0 reads sr.atp before its line, and stops at its poison (R456). -/
theorem fetch_of_poisoned_atp {s : State} (hpc : s.cur.pc ≠ 0) (hp : s.poisonedSr 0x00C = true) : fetch s = .stop (precise 0x0D 3 0 s.noHead) := by
  unfold fetch
  simp only
  rw [if_neg (fun h => hpc h.1), if_pos hp]

/-- The machine of reset at a line of zeros, whose descriptor has H = 0, the word of the hart's sr.atp poisoned. -/
def poisonedAtpState : State :=
  { placeLine State.reset (List.replicate 64 0) with poison := [.scalar State.reset.cur.id (32 + 0x00C)] }

theorem poisonedAtpState_line : poisonedAtpState.fetchLine (poisonedAtpState.cur.pc.toNat / 64 * 64) = .ok (List.replicate 32 0) := by
  decide +kernel

/-- Refutes O55, by its clause on the fetch: the line is malformed, and the fetch stops at the poison of sr.atp, with 0x0D.3 in place of 0x02.1.
The clause leaves out the premise that sr.atp is not poisoned. -/
theorem not_malformedLineIsRefused : ¬ Obligations.MalformedLineIsRefused := by
  intro h
  obtain ⟨-, hzero, -, -, -, hfetch⟩ := h (List.replicate 32 0)
  have hpc : poisonedAtpState.cur.pc ≠ 0 := by decide
  have hrefused := hfetch poisonedAtpState _ poisonedAtpState_line (hzero rfl) (.inl hpc)
  rw [fetch_of_poisoned_atp hpc (by decide +kernel)] at hrefused
  injection hrefused with hres
  injection hres with htrap
  injection htrap with hcause
  exact absurd hcause (by decide)

end Sys2Proof.Machine
end

section
/-! PROOFS. A step runs the decoded instruction (R168, R173, R224, R276, R277, R396, R398): what a turn does at the program counter, at the head of
the queues and when the matrix engine comes to the hart. -/

namespace Sys2Proof.Machine

/-! ### Reaching an instruction at the program counter -/

/-- With no turn waiting a step is the current hart's turn (log 7). -/
theorem step_of_no_agenda {s : State} (h : s.agenda = []) : step s = turn s.ticked := by
  unfold step
  rw [h]

/-- A hart whose queues are empty or frozen goes on at its program counter (R224, R396). -/
theorem turn_fetches {s : State} (hrun : s.canRun = true) (hq : s.cur.vq = [] ∨ s.cur.trap.fpend = true) : turn s = fetchTurn s := by
  unfold turn
  rw [if_pos hrun]
  split
  · rename_i e rest hvq
    rcases hq with h | h
    · rw [h] at hvq
      cases hvq
    · rw [if_pos h]
  · rfl

/-- The head of a queue that is not frozen has the turn (R224). -/
theorem turn_queue {s : State} {e : QEntry} {rest : List QEntry} (hrun : s.canRun = true) (hq : s.cur.vq = e :: rest)
    (hf : s.cur.trap.fpend = false) : turn s = queueTurn e s := by
  unfold turn
  rw [if_pos hrun, hq]
  exact if_neg (by rw [hf]; exact Bool.false_ne_true)

/-- The next head, as the spec and as the model write it (R173). -/
theorem nextHead_eq (pc : Word) (n : Nat) :
    nextHead pc n = if pc.toNat % 64 / 2 < n then pc + 2 else BitVec.ofNat 64 (pc.toNat / 64 * 64 + 66) := by
  unfold nextHead
  split
  · rfl
  · bv_omega

/-- A head of a well-formed line that decodes is what the fetch gives, with the next head (R168 to R173). -/
theorem fetch_runs {s : State} {pc : Word} {h : List Half} {n : Nat} {i : Instr} (hcur : s.cur.pc = pc) (hpc : pc ≠ 0)
    (hatp : s.poisonedSr 0x00C = false) (hline : s.fetchLine (pc.toNat / 64 * 64) = .ok h) (hheads : lineHeads h = .ok n)
    (heven : pc.toNat % 2 = 0) (hone : 1 ≤ pc.toNat % 64 / 2) (hslot : pc.toNat % 64 / 2 ≤ n)
    (hdec : decode (h.getD (pc.toNat % 64 / 2) 0) (lineTail h (pc.toNat % 64 / 2)) = .ok i) (hg : s.poisonedG i = false)
    (hsr : s.poisonedFor i = false) : fetch s = .run i (h.getD (pc.toNat % 64 / 2) 0) (nextHead pc n) := by
  have hhead : ¬ (pc.toNat % 2 = 1 ∨ pc.toNat % 64 / 2 = 0 ∨ n < pc.toNat % 64 / 2) := by omega
  unfold fetch
  simp only [hcur, hpc, false_and, if_false, hatp, Bool.false_eq_true, hline, hheads, hhead, hdec, hg, hsr, Bool.or_self]

/-! ### What issue and the matrix queue leave -/

theorem fetchFill_memStep (s : State) (va : Nat) : MemStep s (s.fetchFill va) := by
  unfold State.fetchFill
  split
  · exact .refl s
  · split
    · exact .refl s
    · exact memStep_fillCopy s _

theorem markFirst_poison (s : State) : s.markFirst.poison = s.poison := by
  unfold State.markFirst
  split
  · rfl
  · split
    · rfl
    · simp

theorem issued_poison (s : State) (head : Half) (next : Word) : (s.issued head next).poison = s.poison :=
  (markFirst_poison _).trans (fetchFill_memStep s _).poison

/-- Whether a state register that an instruction reads is poisoned depends on the list of poisoned words, the hart's name and its binding (R456). -/
theorem poisonedFor_congr {s t : State} (hp : t.poison = s.poison) (hid : t.cur.id = s.cur.id) (hb : t.cur.stream = s.cur.stream) (i : Instr) :
    t.poisonedFor i = s.poisonedFor i := by
  have hsr : t.poisonedSr = s.poisonedSr := by
    funext n
    simp only [State.poisonedSr, hp, hid]
  simp only [State.poisonedFor, hp, hb, hsr]

theorem describe_cur (s : State) (e : QEntry) : (s.describe e).1.cur = s.cur := by
  have h := (memStep_countReads (s.asEntry e) ((s.asEntry e).descriptors e.instr).2).cur
  simp only [State.describe, h]
  rfl

/-- An entry that reads its descriptors stays the entry of its instruction, and the hart stays as it was besides (R161). -/
theorem describeAt_cur (s : State) (n : Nat) :
    ∃ q, (s.describeAt n).cur = { s.cur with vq := q } ∧ q.map (·.instr) = s.cur.vq.map (·.instr) := by
  unfold State.describeAt
  split
  · exact ⟨s.cur.vq, rfl, rfl⟩
  · rename_i e he
    obtain ⟨hlt, heq⟩ := List.getElem?_eq_some_iff.mp he
    refine ⟨s.cur.vq.set n (s.describe e).2, by simp only [describe_cur], ?_⟩
    have hinstr : (s.describe e).2.instr = (s.cur.vq.map (·.instr))[n]'(by simpa using hlt) := by rw [List.getElem_map, heq]; rfl
    rw [List.map_set, hinstr, List.set_getElem_self]

/-- An entry that moves into the matrix queue changes the hart's queues alone (R276). -/
theorem moveOne_cur (s : State) :
    ∃ q, s.moveOne.cur = { s.cur with vq := q, moved := s.cur.moved + 1 } ∧ q.map (·.instr) = s.cur.vq.map (·.instr) := by
  obtain ⟨q, hq, hinstr⟩ := describeAt_cur s s.cur.moved
  exact ⟨q, by simp only [State.moveOne, hq], hinstr⟩

/-- The entry that the engine begins is the one at the head of the queues (R276). -/
theorem beginHead_instrs (s : State) : s.beginHead.cur.vq.map (·.instr) = s.cur.vq.map (·.instr) := by
  unfold State.beginHead
  extract_lets t
  have ht : t.cur.vq.map (·.instr) = s.cur.vq.map (·.instr) := by
    unfold t
    split
    · obtain ⟨q, hq, hinstr⟩ := describeAt_cur s 0
      rw [hq]
      exact hinstr
    · rfl
  rw [← ht]
  simp only
  split
  · rename_i e rest hvq
    rw [hvq]
    rfl
  · rename_i hvq
    rw [hvq]

/-! ### The matrix engine -/

/-- What the engine begins, it executes (R276). -/
theorem runHead_beginHead {s : State} {i : Instr} {is : List Instr} (h : s.cur.vq.map (·.instr) = i :: is) : runHead s.beginHead = exec i s.begun := by
  have hinstrs := (beginHead_instrs s).trans h
  unfold runHead State.begun
  split
  · rename_i hvq
    rw [hvq] at hinstrs
    cases hinstrs
  · rename_i e rest hvq
    rw [hvq, List.map_cons] at hinstrs
    rw [hvq, (List.cons.inj hinstrs).1]
    rfl

/-- A matrix instruction at the head of the queues moves into the matrix queue, and executes when its engine comes to the hart (R276). -/
theorem queueTurn_matrix {s : State} {e : QEntry} {is : List Instr} (hp : s.poisonedFor e.instr = false) (hm : isMatrix e.instr = true)
    (hq : s.cur.vq.map (·.instr) = e.instr :: is) : let t := if s.cur.moved = 0 then s.moveOne else s
    (t.engineTurn = true → queueTurn e s = exec e.instr t.begun) ∧ (t.engineTurn = false → queueTurn e s = .next t) := by
  intro t
  have hturn : queueTurn e s = if t.engineTurn then runHead t.beginHead else .next t := by
    unfold queueTurn
    rw [hp, hm]
    rfl
  have ht : t.cur.vq.map (·.instr) = e.instr :: is := by
    unfold t
    split
    · obtain ⟨q, hmove, hinstr⟩ := moveOne_cur s
      rw [hmove]
      exact hinstr.trans hq
    · exact hq
  refine ⟨fun h => ?_, fun h => ?_⟩
  · rw [hturn, if_pos h, runHead_beginHead ht]
  · rw [hturn, h]
    rfl

/-- An instruction of the vector queue executes as the entry at its head (R224). -/
theorem queueTurn_vector {s : State} {e : QEntry} {rest : List QEntry} (hp : s.poisonedFor e.instr = false) (hm : isMatrix e.instr = false)
    (hq : s.cur.vq = e :: rest) : queueTurn e s = exec e.instr { s with cur := { s.cur with active := some e } } := by
  unfold queueTurn runHead
  rw [hp, hm, hq]
  rfl

/-- A matrix instruction goes through the queues only when no handler holds them frozen (R276, R396). -/
theorem issueOne_direct {s : State} {i : Instr} (h : isMatrix i = false ∨ s.cur.trap.fpend = true) : issueOne i s = exec i s := by
  unfold issueOne
  rcases h with h | h <;> simp [h]

theorem issueOne_matrix {s : State} {i : Instr} (hm : isMatrix i = true) (hf : s.cur.trap.fpend = false) : issueOne i s =
    queueTurn (s.newEntry i) { s with cur := { s.cur with vq := [s.newEntry i], moved := 0, pc := s.cur.npc } } := by
  simp [issueOne, hm, hf]

/-! ### The turns -/

/-- A matrix instruction at the program counter stands alone in the hart's queues, moves into the matrix queue and executes when the engine comes to
the hart; its issue leaves the hart's registers (R276). -/
theorem issueOne_issued {s u : State} {i : Instr} {head : Half} {next : Word} (hcur : u.cur = s.cur) (hm : isMatrix i = true)
    (hf : s.cur.trap.fpend = false) (hsr : u.poisonedFor i = false) : let v := u.issued head next
    let w : State := { v with cur := { v.cur with vq := [⟨i, s.cur.pc, head, s.cur.g, v.constBank, .idle, false, [], false⟩], moved := 0, pc := v.cur.npc } }
    (w.moveOne.engineTurn = true → issueOne i v = exec i w.moveOne.begun) ∧ (w.moveOne.engineTurn = false → issueOne i v = .next w.moveOne) ∧
    w.moveOne.cur.moved = 1 ∧ w.moveOne.cur.pc = v.cur.npc ∧ sameG s w.moveOne ∧ sameVec s w.moveOne := by
  rw [← hcur] at hf ⊢
  intro v w
  have hissue : issueOne i v = queueTurn (v.newEntry i) w := issueOne_matrix hm hf
  have hpoison : w.poisonedFor i = false := (poisonedFor_congr (issued_poison u head next) rfl rfl i).trans hsr
  obtain ⟨hcomes, hother⟩ := queueTurn_matrix (s := w) (e := v.newEntry i) (is := []) hpoison hm rfl
  obtain ⟨q, hmove, -⟩ := moveOne_cur w
  refine ⟨fun h => hissue.trans (hcomes h), fun h => hissue.trans (hother h), ?_, ?_, sameG_of_eq ?_, ?_, ?_⟩ <;> rw [hmove]
  · exact (congrArg Hart.g hcur :)
  · exact (congrArg Hart.vec hcur :)
  · exact (congrArg Hart.mask hcur :)

/-- Behind the matrix queue a vector instruction that is not free of its instructions waits (R277). -/
theorem vectorTurn_waits {s : State} {e : QEntry} (hrun : s.canRun = true) (hf : s.cur.trap.fpend = false) (hphase : s.cur.phase = .running)
    (hmoved : 0 < s.cur.moved) (he : s.cur.vq[s.cur.moved]? = some e) (hm : isMatrix e.instr = false) (hahead : s.goesAhead e = false) :
    vectorTurn s = .next s := by
  unfold vectorTurn
  simp [hrun, hf, hphase, he, hm, hahead, Nat.ne_of_gt hmoved]

/-- An instruction bound for the queue enters it with its sources as they stand (R11, R66). -/
theorem issueTurn_enters {s : State} {i : Instr} {head : Half} {next : Word} (hrun : s.canRun = true) (hf : s.cur.trap.fpend = false)
    (hfetch : fetch s = .run i head next) (hahead : runsAhead i = false) (hbehind : standsBehind i = false) (hlock : s.interlocked i = false)
    (hroom : s.cur.vq.length < 32 + s.cur.moved) : let u := s.issued head next
    issueTurn s = .next { u with cur := { u.cur with
      vq := s.cur.vq ++ [⟨i, s.cur.pc, head, s.cur.g, u.constBank, .idle, false, [], false⟩], pc := next } } := by
  intro u
  unfold issueTurn
  rw [hfetch]
  simp only [hrun, hf, hahead, hbehind, hlock, decide_eq_false (Nat.not_le.mpr hroom), Bool.not_true, Bool.or_self, Bool.false_eq_true, if_false]
  rfl

theorem turn_rests {s : State} (h : s.canRun = false) : turn s = .next s := by
  unfold turn
  rw [h]
  rfl

/-- Settles O56: each kind of turn by its own lemma. -/
theorem stepRunsTheDecodedInstruction : Obligations.StepRunsTheDecodedInstruction := by
  refine ⟨?fetched, ?buffer, ?queued, fun _ _ => vectorTurn_waits, ?rests, ?agenda, fun _ _ _ _ => issueTurn_enters⟩
  case fetched =>
    intro s h n i u slot head hno hrun hq hpc hatp hline hheads heven hone hslot hdec hg hsr v
    have hcur : u.cur = s.cur := State.ticked_cur s
    have hfetch := fetch_runs (congrArg Hart.pc hcur) hpc hatp hline hheads heven hone hslot hdec hg hsr
    rw [nextHead_eq] at hfetch
    have hstep : step s = issueOne i v := by
      rw [step_of_no_agenda hno, turn_fetches hrun (by rwa [hcur])]
      unfold fetchTurn
      rw [hfetch]
    refine ⟨fun h => ?_, fun hm hf => ?_⟩
    · exact hstep.trans (issueOne_direct (h.imp_right fun hf => (congrArg (·.trap.fpend) hcur).trans hf))
    · rw [hstep]
      exact issueOne_issued hcur hm hf hsr
  case buffer =>
    intro s line p htr
    refine ⟨fun x hx => ?_, fun hnone hgood => ?_⟩
    · simp only [State.fetchLine, htr, hx]
    · simp only [State.fetchLine, htr, hnone, State.readPhys, Bool.false_or, hgood]
  case queued =>
    intro s e rest hno hrun hq hf u t
    have hcur : u.cur = s.cur := State.ticked_cur s
    have hstep : step s = queueTurn e u := by rw [step_of_no_agenda hno, turn_queue hrun (by rw [hcur, hq]) (by rw [hcur, hf])]
    refine ⟨fun hp => ?_, fun hp hm => ?_, fun hp hm => ?_⟩
    · rw [hstep, queueTurn, if_pos hp]
    · rw [hstep, queueTurn_vector hp hm (hcur ▸ hq), hcur]
    · have hturn := queueTurn_matrix hp hm (is := rest.map (·.instr)) (by rw [hcur, hq]; rfl)
      rw [hcur] at hturn
      rw [hstep]
      exact hturn
  case rests =>
    intro s hno hrun
    rw [step_of_no_agenda hno, turn_rests hrun]
  case agenda =>
    intro s rest u
    refine ⟨fun h ha => ?_, fun h ha => ?_, fun h ha => ?_, fun h ha => ?_, fun a ha => ?_, fun i ha hi => ?_, fun i ha hi => ?_⟩ <;>
      unfold step <;> rw [ha]
    · exact if_pos hi
    · exact if_neg (by rw [hi]; exact Bool.false_ne_true)

end Sys2Proof.Machine
end
